-- ==== Sys2Proof/Word.lean ====
section
/-! DEFINITION. Machine words of the HW-2240: bytes, 32-bit register words, 64-bit counters, and the
sorted association lists that hold sparse state. -/

namespace Sys2Proof

/-- One byte. -/
abbrev Byte := BitVec 8

/-- One register word; every register is 32 bits wide (R464). -/
abbrev Word := BitVec 32

/-- A 64-bit counter or time value. -/
abbrev W64 := BitVec 64

/-- A byte string, first byte first. -/
abbrev Bytes := List Byte

/-- A sparse table: (key, value) pairs with keys strictly rising. -/
abbrev AMap (α : Type) := List (Nat × α)

/-- The two dies of one package (R21). -/
inductive DieId where
  | a | b
  deriving DecidableEq, Repr

/-- The die position as BLK_ID reports it: 0 for die A, 1 for die B (R467). -/
def DieId.num : DieId → Nat
  | .a => 0
  | .b => 1

/-- The other die. -/
def DieId.other : DieId → DieId
  | .a => .b
  | .b => .a

end Sys2Proof
end

