-- ==== Sys2Proof/Syntax.lean ====
section
/-! DEFINITION. The commands of the block: one constructor of `Instr` per row of spec/opcode_table.json, with
the operands a sender gives. A command names the die it acts on; what arrives from outside stands in its
operands. -/

namespace Sys2Proof

/-! ## The Fjartar link (chapter 02) -/

/-- A flit as the lanes deliver it: its bytes, and how many of the FEC codewords that carried it could
not be corrected and how many were corrected (R34, R36). -/
structure Flit where
  bytes     : Bytes
  fecBad    : BitVec 8
  fecCorr   : BitVec 8
  deriving DecidableEq, Repr

/-- Every FEC codeword that carried a flit could be corrected. -/
def Flit.fecOk (f : Flit) : Bool := f.fecBad == 0

/-! ## Witness records (chapter 03) -/

/-- A record as WRD meets it on an upstream virtual channel: its header fields (R55) and its payload. The
type byte is the command's. -/
structure RecIn where
  vc      : BitVec 2
  flags   : Byte
  length  : BitVec 16
  channel : BitVec 16
  seq     : Word
  locus   : Word
  hcheck  : BitVec 16
  payload : Bytes
  deriving DecidableEq, Repr

/-! ## Admission and Months (chapter 04) -/

/-- A Spoke message as one transmission delivers it (R246, R247): the type is the command's; how many of its beats
SECDED corrected, and the 96 bytes as they arrive. -/
structure SpokeMsg where
  beats   : Byte
  body    : Bytes
  deriving DecidableEq, Repr

/-! ## Engine instructions (chapters 05 to 08, 11) -/

/-- What an op descriptor of the constant pool names (R258): the op, its record or plan entry, its weight
tensor, its buffers and its constants. The descriptor's byte layout is private to Kykosil and the firmware;
its content stands here. -/
structure OpDesc where
  locus  : Word
  /-- plan entry whose staged records the instruction reads -/
  entry  : BitVec 18
  /-- weight or retained tensor -/
  tensor : BitVec 16
  /-- buffers: first and second operand, destination -/
  a      : BitVec 16
  b      : BitVec 16
  dst    : BitVec 16
  /-- function within the instruction: which norm, activation, format or comparison -/
  fn     : BitVec 8
  fmt    : BitVec 8
  scale  : BitVec 8
  /-- heads and per-head width, or FFT log2n and shift -/
  heads  : BitVec 16
  dim    : BitVec 16
  ulp    : BitVec 16
  p0     : BitVec 64
  p1     : BitVec 64
  deriving DecidableEq, Repr

/-- What the copies of a group find at a comparison point while an instruction runs (R234, R235, R238). -/
inductive PointFault where
  /-- both comparator instances of a pair differ, or all three members of a triple: the class of the point, as
  VP_MISMATCH_POINT names it -/
  | differs (cls : BitVec 4)
  /-- a byte of a delay register has wrong parity -/
  | delayParity
  /-- the two comparator or voter instances disagree -/
  | disagree
  /-- one member of a triple differs from the other two, at a point of a class -/
  | odd (member : BitVec 3) (cls : BitVec 4)
  deriving DecidableEq, Repr

/-- What a command names, and what the copies of the group that acts on it find at the comparison points meanwhile
(R234). -/
structure Copies (α : Type) where
  at_ : α
  pts : List PointFault
  deriving DecidableEq, Repr

/-- What the copies of a group find in a replay: the class of the first comparison difference, 0 where there is none, and the number of
instructions before it (R245). -/
structure ReplayEnd where
  diff  : BitVec 4
  after : BitVec 32
  deriving DecidableEq, Repr

/-- How a Sentinel run ends: the two copies' outputs differ, and what the copies of each one's group find at its comparison points
(R234, R314, R456). -/
structure SntEnd where
  differs : Bool
  ptsA    : List PointFault
  ptsB    : List PointFault
  deriving DecidableEq, Repr


/-! ## Ingress, time and network (chapter 14) -/

/-- An Ethernet frame at an ingress or host port, after the PCS: its bytes without FCS, whether the FCS was
right, and the fraction of a symbol at capture is read from the die's clocks. -/
structure EthFrame where
  bytes : Bytes
  fcsOk : Bool
  deriving DecidableEq, Repr

/-- A PTP message as the port receives it (R340): the fields that the servo and the port use. Times are ns on
the device's counter at the reference plane; `origin` is the time the message carries, `interval` its signed
logMessageInterval. -/
structure PtpMsg where
  domain   : Byte
  seq      : BitVec 16
  source   : Bytes
  twoStep  : Bool
  interval : Byte
  origin   : W64
  corr     : BitVec 64
  arrival  : W64
  deriving DecidableEq, Repr

/-- An Announce message's dataset (R340). -/
structure Announce where
  domain    : Byte
  priority1 : Byte
  clockClass : Byte
  accuracy  : Byte
  variance  : BitVec 16
  priority2 : Byte
  identity  : BitVec 64
  steps     : BitVec 16
  port      : Bytes
  deriving DecidableEq, Repr

/-! ## The Warden (chapter 15) -/

/-- What the crosslink brings in one Warden cycle (R354). -/
inductive Crosslink where
  /-- nothing arrives -/
  | silent
  /-- the peer channel's latest frame arrives whole -/
  | valid
  /-- a frame arrives that a check refuses -/
  | invalid
  deriving DecidableEq, Repr

/-- What a Warden channel samples in one cycle (R353): pins and the crosslink. -/
structure WdnSample where
  inputs   : BitVec 8
  readback : BitVec 4
  edm      : BitVec 4
  switches : BitVec 16
  xlink    : Crosslink
  deriving DecidableEq, Repr

/-! ## Power, clocks and memory health (chapters 16, 20, 21) -/

/-- A monitored supply rail (R480): the per-die rails and the package's own. -/
inductive Rail where
  | vdd (d : DieId) | vdds (d : DieId) | vddh (d : DieId) | vddSys (d : DieId)
  | vddWdn (d : DieId) | vddioWdn (d : DieId)
  | hbmVpp | hbmVdd | hbmVddq | vddio18
  deriving DecidableEq, Repr

/-- The two protected memories of a die (R393). -/
inductive MemKind where
  | sram | hbm
  deriving DecidableEq, Repr

/-- Where a row and a word of it lie. For HBM: die channel, pseudo-channel, bank, row, word (R408);
for SRAM `row` counts 512-byte rows and the HBM fields are zero (R397). -/
structure MemWord where
  kind : MemKind
  chan : BitVec 3
  pc   : Bool
  bank : BitVec 6
  row  : BitVec 18
  word : BitVec 7
  deriving DecidableEq, Repr

/-- The owner of the region a memory word lies in; the owner's rule governs its poison (R394). -/
inductive Region where
  /-- a staging word of a record of a channel: of its batch of that number among those with staged records, oldest first; of no
  batch where there is none of that number, as for a weight chunk -/
  | staging (channel : BitVec 15) (batch : BitVec 5)
  /-- a projection table: the model's slot, the op-table index of the op whose entries the word holds (R130), and whether the
  standby or build half -/
  | table (slot : BitVec 6) (op : BitVec 16) (standby : Bool)
  /-- row secrets: the model's slot, and whether the standby or build half -/
  | secrets (slot : BitVec 6) (standby : Bool)
  | ledger (channel : BitVec 15) (pos : Word)
  | timetable (standby bothCopies : Bool)
  | descriptor (channel : BitVec 15) (bothCopies : Bool)
  /-- the ticket of that number of a channel, oldest first -/
  | ticket (channel : BitVec 15) (batch : BitVec 5)
  | sealBody (no : W64)
  | replay
  | tensor (slot : BitVec 6)
  | other
  deriving DecidableEq, Repr

/-- What a read of one memory word finds (R393, R394). -/
inductive ReadFind where
  | clean
  | corrected (syndrome : Byte)
  | uncorrectable (syndrome : Byte)
  | caParity (failures : BitVec 3)
  deriving DecidableEq, Repr

/-- A die's resource table of the unit map (R413): the state code of every unit, the physical unit of every
logical one, and the enabled pipelines. Its byte layout is not given; its content stands here. -/
structure UnitTable where
  pipes  : BitVec 6
  res    : List Byte
  bnd    : List Byte
  nle    : List Byte
  cwe    : List Byte
  snt    : List Byte
  shk    : List Byte
  sig    : List Byte
  resMap : List Byte
  bndMap : List Byte
  nleMap : List Byte
  cweMap : List Byte
  sntMap : List (BitVec 9)
  deriving DecidableEq, Repr

/-- What the die finds outside itself while it boots: the PUF read-out, the flash, the RPMB and the memories
(R410 to R426). Containers stand as stored; results that physical arrays decide stand as truth values.
(DESIGN CHOICE, log entry 22) -/
structure BootReads where
  pufSeed      : Bytes
  pufCorrected : BitVec 16
  pufOk        : Bool
  unitMap      : Bytes
  units        : UnitTable
  extRecords   : List Bytes
  /-- firmware containers of slots A and B, and the versions of their images -/
  fwA          : Bytes
  fwB          : Bytes
  fwVersionA   : Word
  fwVersionB   : Word
  /-- the RPMB holds a key; block 0 authenticates under the die's key; block 0; CID; boot_no confirmed -/
  rpmbKeyed    : Bool
  rpmbOk       : Bool
  rpmbBlock    : Bytes
  rpmbCid      : Bytes
  bootNoOk     : Bool
  trustList    : Bytes
  wardenTable  : Bytes
  hbmTrained   : Byte
  /-- every recorded sPPR repair is applied again; every word reads back zero; repairs the stack reports left -/
  pprOk        : Bool
  zeroOk       : Bool
  pprLeft      : BitVec 16
  /-- cause of R426 of a failed self-test, 0 when all pass -/
  testFail     : BitVec 4
  /-- boot-resident Sentinel containers -/
  sentinels    : List Bytes
  deriving DecidableEq, Repr

/-- What the hardware does wrong while an engine instruction runs: the physical event that the rules name. `unit` is a
physical tile, core or member; a memory word comes with the syndrome that its read found (R394, R407, R408). -/
inductive PhysFault where
  /-- lane code mismatch on a tile (R135, R160, R183) or state parity mismatch on a Keccak core (R225) -/
  | laneCode (unit : BitVec 5)
  /-- uncorrectable word in a projection table, read for the batch of a channel (R138, R161) -/
  | tableEcc (chan : BitVec 15) (at_ : MemWord) (synd : Byte)
  /-- uncorrectable word in the row secrets (R138, R161) -/
  | secretEcc (chan : BitVec 15) (at_ : MemWord) (synd : Byte)
  /-- uncorrectable staging word (R91) -/
  | stagingEcc (chan : BitVec 15) (at_ : MemWord) (synd : Byte)
  /-- uncorrectable ledger word of a channel's row at a position (R182) -/
  | ledgerEcc (chan : BitVec 15) (pos : Word) (at_ : MemWord) (synd : Byte)
  /-- uncorrectable word in a region without its own rule (R394) -/
  | poison (chan : BitVec 15) (at_ : MemWord) (synd : Byte)
  /-- a word corrected as it is read (R394, R398) -/
  | corrected (at_ : MemWord) (synd : Byte)
  /-- the copies of the group differ -/
  | point (p : PointFault)
  /-- HBM command or address parity failures in a row (R393) -/
  | caParity (failures : BitVec 3)
  deriving DecidableEq, Repr

/-! ## Pannier sessions and Peloton (chapters 17, 18) -/

/-- A Pannier frame as the host port receives it (R427): the session it names, its counters, its flags, its
payload and its tag, and around it the VLAN tag (0 and 0 where untagged), the R-TAG and the port that it came by (R345,
R346). The type byte is the command's. -/
structure PFrame where
  vid     : BitVec 12
  pcp     : BitVec 3
  rtag    : Option (BitVec 16)
  viaPeer : Bool
  session : Word
  seq     : W64
  flags   : Byte
  ref     : Word
  offset  : W64
  payload : Bytes
  tag     : Bytes
  deriving DecidableEq, Repr

/-- A Peloton message as a port receives it (R441): its header past the type byte, its body and its tag, and whether
the frame's FCS and length were right. -/
structure PelMsg where
  ttl     : Byte
  src     : BitVec 16
  dst     : BitVec 16
  resv    : BitVec 16
  seq     : Word
  epoch   : Word
  body    : Bytes
  tag     : Bytes
  fcsOk   : Bool
  deriving DecidableEq, Repr

/-! ## The commands -/

/-- The commands, in the table's order. -/
inductive Instr where
  /-- RESET_N_PULSE (R483) -/
  | resetNPulse (lowNs : Nat)
  /-- RESET_RELEASE (R483) -/
  | resetRelease (d : DieId) (boot : BootReads)
  /-- RAIL_OUT_OF_RANGE (R481) -/
  | railOutOfRange (rail : Rail)
  /-- RAIL_UNDERVOLTAGE (R481) -/
  | railUndervoltage (rail : Rail)
  /-- SYSCLK_OUT_OF_RANGE (R485) -/
  | sysclkOutOfRange (d : DieId)
  /-- REFCLK_LOSS (R485) -/
  | refclkLoss
  /-- JUNCTION_TEMP_CROSSING (R405) -/
  | junctionTempCrossing (d : DieId) (tj : BitVec 9)
  /-- HBM_TEMP_CROSSING (R408) -/
  | hbmTempCrossing (temp : Byte)
  /-- FCU_SOURCE_LATCH (R381) -/
  | fcuSourceLatch (d : DieId)
  /-- AUTUMN_REINIT_DONE (R402) -/
  | autumnReinitDone (d : DieId) (passed : Bool)
  /-- AUTUMN_TIMEOUT (R403) -/
  | autumnTimeout (d : DieId)
  /-- FCU_SRC_CLEAR (R384) -/
  | fcuSrcClear (d : DieId) (hi : Bool) (value : Word)
  /-- FCU_ACK (R388) -/
  | fcuAck (d : DieId) (value : Word)
  /-- FAULT_N_MIN_PULSE_EXPIRY (R388) -/
  | faultNMinPulseExpiry (d : DieId)
  /-- FAULT_N_HALF_PERIOD (R389) -/
  | faultNHalfPeriod (d : DieId)
  /-- FABRIC_STALL (R389) -/
  | fabricStall (d : DieId)
  /-- BLK_ERR_CLEAR (R383) -/
  | blkErrClear (d : DieId) (page : BitVec 6) (value : Word)
  /-- BLK_ERR_FORCE (R391) -/
  | blkErrForce (d : DieId) (page : BitVec 6) (value : Word)
  /-- BLK_CTRL_ENABLE_WRITE (R468) -/
  | blkCtrlEnableWrite (d : DieId) (page : BitVec 6) (value : Word)
  /-- REGISTER_WRITE (R470) -/
  | registerWrite (d : DieId) (addr : BitVec 24) (value : Word)
  /-- SLOT_BOUNDARY (R13) -/
  | slotBoundary (d : DieId)
  /-- SYMBOL_TICK (R374) -/
  | symbolTick (d : DieId)
  /-- SCRUB_READ (R397) -/
  | scrubRead (d : DieId) (at_ : MemWord) (region : Region) (find : ReadFind) (firstOfPass : Bool)
  /-- SCRUB_PASS_OVERRUN (R397) -/
  | scrubPassOverrun (d : DieId) (kind : MemKind)
  /-- ROW_REWRITE (R398) -/
  | rowRewrite (d : DieId) (at_ : MemWord)
  /-- ROW_SPARE_DONE (R399) -/
  | rowSpareDone (d : DieId) (at_ : MemWord) (verified : Bool)
  /-- UNIT_MAP_EXTENSION_WRITE (R415) -/
  | unitMapExtensionWrite (d : DieId) (written : Bool)
  /-- EXTENSION_WRITE_RETRY (R409) -/
  | extensionWriteRetry (d : DieId) (written : Bool)
  /-- FLIT_SLOT_TX (R34) -/
  | flitSlotTx (d : DieId) (half : Bool) (replayEcc : Bool)
  /-- DATA_FLIT (R36) -/
  | dataFlit (d : DieId) (flit : Flit)
  /-- IDLE_FLIT (R35) -/
  | idleFlit (d : DieId) (flit : Flit)
  /-- HELLO (R48) -/
  | hello (d : DieId) (flit : Flit)
  /-- HELLO_TX (R47) -/
  | helloTx (d : DieId)
  /-- LANES_LOCKED (R47) -/
  | lanesLocked (d : DieId)
  /-- ADAPT_TIMEOUT (R47) -/
  | adaptTimeout (d : DieId) (locked : BitVec 2)
  /-- FLIT_LOCK (R47) -/
  | flitLock (d : DieId)
  /-- FLIT_HUNT_TIMEOUT (R47) -/
  | flitHuntTimeout (d : DieId)
  /-- HELLO_TIMEOUT (R47) -/
  | helloTimeout (d : DieId)
  /-- RETRAIN_LIMIT_EXPIRY (R47) -/
  | retrainLimitExpiry (d : DieId)
  /-- NAK_REPEAT_LIMIT (R47) -/
  | nakRepeatLimit (d : DieId)
  /-- FLIT_LOCK_LOST (R47) -/
  | flitLockLost (d : DieId)
  /-- CDR_LOCK_LOST (R47) -/
  | cdrLockLost (d : DieId)
  /-- FEC_ERROR_THRESHOLD (R47) -/
  | fecErrorThreshold (d : DieId) (half : Bool)
  /-- CREDIT_PROGRESS_TIMEOUT (R47) -/
  | creditProgressTimeout (d : DieId)
  /-- WLK_CMD_RETRAIN (R54) -/
  | wlkCmdRetrain (d : DieId)
  /-- WLK_CMD_RESYNC (R54) -/
  | wlkCmdResync (d : DieId)
  /-- WLK_CMD_RESTORE (R47) -/
  | wlkCmdRestore (d : DieId)
  /-- WLK_CMD_RETIRE (R47) -/
  | wlkCmdRetire (d : DieId)
  /-- STAMPED_FRAME_FORWARD (R329) -/
  | stampedFrameForward (d : DieId)
  /-- LAYER_OUT (R67) -/
  | layerOut (d : DieId) (r : RecIn)
  /-- LAYER_IN (R79) -/
  | layerIn (d : DieId) (r : RecIn)
  /-- ATTN_OUT (R80) -/
  | attnOut (d : DieId) (r : RecIn)
  /-- TOKEN_END (R69) -/
  | tokenEnd (d : DieId) (r : RecIn)
  /-- BATCH_END (R81) -/
  | batchEnd (d : DieId) (r : RecIn)
  /-- OUTPUT (R71) -/
  | output (d : DieId) (r : RecIn)
  /-- RADIO_FFT (R192) -/
  | radioFft (d : DieId) (r : RecIn)
  /-- RADIO_LDPC (R195) -/
  | radioLdpc (d : DieId) (r : RecIn)
  /-- RADIO_TB (R198) -/
  | radioTb (d : DieId) (r : RecIn)
  /-- SHARD_DIGEST (R75) -/
  | shardDigest (d : DieId) (r : RecIn)
  /-- WEIGHT_CHUNK (R106) -/
  | weightChunk (d : DieId) (r : RecIn)
  /-- RATCHET_BUMP (R295) -/
  | ratchetBump (d : DieId) (r : RecIn)
  /-- HEARTBEAT (R78) -/
  | heartbeat (d : DieId) (r : RecIn)
  /-- HEARTBEAT_TIMEOUT (R78) -/
  | heartbeatTimeout (d : DieId)
  /-- STAGING_ROOM_FREE (R90) -/
  | stagingRoomFree (d : DieId) (lead : BitVec 3)
  /-- TICKET_AVAILABLE (R294) -/
  | ticketAvailable (d : DieId)
  /-- ADMIT (R102) -/
  | admitModel (d : DieId) (f : PFrame)
  /-- SPOKE_ADMIT (R104) -/
  | spokeAdmit (d : DieId) (m : SpokeMsg)
  /-- WEIGHT_STREAM_START (R103) -/
  | weightStreamStart (d : DieId)
  /-- RPMB_WRITE_CONFIRM (R420) -/
  | rpmbWriteConfirm (d : DieId)
  /-- RPMB_ADMISSION_TIMEOUT (R420) -/
  | rpmbAdmissionTimeout (d : DieId)
  /-- RPMB_RETRY (R114) -/
  | rpmbRetry (d : DieId)
  /-- RPMB_LOST (R420) -/
  | rpmbLost (d : DieId)
  /-- LOAD_TIMEOUT (R107) -/
  | loadTimeout (d : DieId)
  /-- WITHDRAW (R432) -/
  | withdraw (d : DieId) (f : PFrame)
  /-- TURN (R113) -/
  | turn (d : DieId) (f : PFrame)
  /-- MONTH_PERIOD_EXPIRY (R113) -/
  | monthPeriodExpiry (d : DieId) (slot : BitVec 6)
  /-- MONTH_TURN_START (R114) -/
  | monthTurnStart (d : DieId) (slot : BitVec 6)
  /-- SPOKE_TURN (R118) -/
  | spokeTurn (d : DieId) (m : SpokeMsg)
  /-- NOP (R259) -/
  | nop (d : DieId) (lead : Copies (BitVec 3))
  /-- MOVI (R259) -/
  | movi (d : DieId) (lead : Copies (BitVec 3)) (a : BitVec 5) (imm : Word)
  /-- ADD (R259) -/
  | add (d : DieId) (lead : Copies (BitVec 3)) (a b c : BitVec 5)
  /-- ADDI (R259) -/
  | addi (d : DieId) (lead : Copies (BitVec 3)) (a b : BitVec 5) (imm : Word)
  /-- MUL (R259) -/
  | mul (d : DieId) (lead : Copies (BitVec 3)) (a b c : BitVec 5)
  /-- SHL (R259) -/
  | shl (d : DieId) (lead : Copies (BitVec 3)) (a b : BitVec 5) (imm : Word)
  /-- LDC (R259) -/
  | ldc (d : DieId) (lead : Copies (BitVec 3)) (a : BitVec 5) (imm : Word)
  /-- LDB (R259) -/
  | ldb (d : DieId) (lead : Copies (BitVec 3)) (a : BitVec 5) (imm : Word)
  /-- LOOP (R259) -/
  | loop (d : DieId) (lead : Copies (BitVec 3)) (a : BitVec 5) (imm : Word)
  /-- JMP (R259) -/
  | jmp (d : DieId) (lead : Copies (BitVec 3)) (imm : Word)
  /-- WREC (R259) -/
  | wrec (d : DieId) (lead : Copies (BitVec 3)) (imm : Word)
  /-- NEXT (R259) -/
  | next (d : DieId) (lead : Copies (BitVec 3)) (imm : Word)
  /-- SYNC (R259) -/
  | sync (d : DieId) (lead : Copies (BitVec 3)) (imm : BitVec 6)
  /-- MARK (R259) -/
  | mark (d : DieId) (lead : Copies (BitVec 3))
  /-- DONE (R259) -/
  | done (d : DieId) (lead : Copies (BitVec 3))
  /-- RCHK (R124) -/
  | rchk (d : DieId) (lead : BitVec 3) (desc : OpDesc) (phys : List PhysFault)
  /-- BCHK (R146) -/
  | bchk (d : DieId) (lead : BitVec 3) (desc : OpDesc) (phys : List PhysFault)
  /-- FFTC (R193) -/
  | fftc (d : DieId) (lead : BitVec 3) (desc : OpDesc) (phys : List PhysFault)
  /-- LDPC (R195) -/
  | ldpc (d : DieId) (lead : BitVec 3) (desc : OpDesc) (phys : List PhysFault)
  /-- CRC (R197) -/
  | crc (d : DieId) (lead : BitVec 3) (desc : OpDesc) (phys : List PhysFault)
  /-- DQ (R152) -/
  | dq (d : DieId) (lead : BitVec 3) (desc : OpDesc) (phys : List PhysFault)
  /-- QNT (R157) -/
  | qnt (d : DieId) (lead : BitVec 3) (desc : OpDesc) (phys : List PhysFault)
  /-- ADDV (R156) -/
  | addv (d : DieId) (lead : BitVec 3) (desc : OpDesc) (phys : List PhysFault)
  /-- NORM (R153) -/
  | norm (d : DieId) (lead : BitVec 3) (desc : OpDesc) (phys : List PhysFault)
  /-- NORMF (R159) -/
  | normf (d : DieId) (lead : BitVec 3) (desc : OpDesc) (phys : List PhysFault)
  /-- ACT (R154) -/
  | act (d : DieId) (lead : BitVec 3) (desc : OpDesc) (phys : List PhysFault)
  /-- ACTF (R159) -/
  | actf (d : DieId) (lead : BitVec 3) (desc : OpDesc) (phys : List PhysFault)
  /-- ROPE (R155) -/
  | rope (d : DieId) (lead : BitVec 3) (desc : OpDesc) (phys : List PhysFault)
  /-- BAND (R150) -/
  | band (d : DieId) (lead : BitVec 3) (desc : OpDesc) (phys : List PhysFault)
  /-- SEL (R158) -/
  | sel (d : DieId) (lead : BitVec 3) (desc : OpDesc) (phys : List PhysFault)
  /-- OCMP (R259) -/
  | ocmp (d : DieId) (lead : BitVec 3) (desc : OpDesc) (phys : List PhysFault)
  /-- EMB (R152) -/
  | emb (d : DieId) (lead : BitVec 3) (desc : OpDesc) (phys : List PhysFault)
  /-- KVAPP (R167) -/
  | kvapp (d : DieId) (lead : BitVec 3) (desc : OpDesc) (phys : List PhysFault)
  /-- ATTN (R176) -/
  | attn (d : DieId) (lead : BitVec 3) (desc : OpDesc) (phys : List PhysFault)
  /-- ACMP (R177) -/
  | acmp (d : DieId) (lead : BitVec 3) (desc : OpDesc) (phys : List PhysFault)
  /-- DIG (R259) -/
  | dig (d : DieId) (lead : BitVec 3) (desc : OpDesc) (phys : List PhysFault)
  /-- DCMP (R259) -/
  | dcmp (d : DieId) (lead : BitVec 3) (desc : OpDesc) (phys : List PhysFault)
  /-- SHDC (R449) -/
  | shdc (d : DieId) (lead : BitVec 3) (desc : OpDesc) (phys : List PhysFault)
  /-- SPARE_SUBSTITUTION_DONE (R136) -/
  | spareSubstitutionDone (d : DieId) (blk : BitVec 5) (unit : BitVec 9) (passed : Bool)
  /-- TRIKE_RESYNC (R238) -/
  | trikeResync (d : DieId) (lead : BitVec 3)
  /-- TRIKE_RESYNC_DONE (R238) -/
  | trikeResyncDone (d : DieId) (lead : BitVec 3)
  /-- COMMIT_POINT (R269) -/
  | commitPoint (d : DieId) (entry : Copies (BitVec 13))
  /-- VERDICT_TIME (R269) -/
  | verdictTime (d : DieId) (entry : Copies (BitVec 13))
  /-- RADIO_SLOT_LATE (R203) -/
  | radioSlotLate (d : DieId) (channel : Copies (BitVec 15)) (slot : Word)
  /-- DECLARE_CUTOFF (R248) -/
  | declareCutoff (d : DieId) (channel : BitVec 15)
  /-- SEAL_PERIOD_BOUNDARY (R214) -/
  | sealPeriodBoundary (d : DieId)
  /-- SEAL_SIGNED (R218) -/
  | sealSigned (d : DieId) (codeOk verifyOk : Bool)
  /-- SIG_CMD_CUT (R230) -/
  | sigCmdCut (d : DieId)
  /-- SIG_CMD_RETIRE0 (R230) -/
  | sigCmdRetire0 (d : DieId)
  /-- SIG_CMD_RETIRE1 (R230) -/
  | sigCmdRetire1 (d : DieId)
  /-- IMAGE_REHASH (R311) -/
  | imageRehash (d : DieId) (image : BitVec 4) (digestOk : Bool)
  /-- VP_PAIR_CMD_START (R242) -/
  | vpPairCmdStart (d : DieId) (target : BitVec 2)
  /-- HANDOVER_TAKE_EFFECT (R242) -/
  | handoverTakeEffect (d : DieId)
  /-- VP_CMD_INJECT (R241) -/
  | vpCmdInject (d : DieId) (pipe : BitVec 3)
  /-- VP_CMD_RETIRE (R237) -/
  | vpCmdRetire (d : DieId) (pipe : BitVec 3)
  /-- DBG_CTRL_HALT (R244) -/
  | dbgCtrlHalt (d : DieId) (group : BitVec 3)
  /-- DBG_CTRL_STEP (R244) -/
  | dbgCtrlStep (d : Copies DieId)
  /-- DBG_CTRL_RESUME (R244) -/
  | dbgCtrlResume (d : DieId)
  /-- DBG_CTRL_REPLAY (R245) -/
  | dbgCtrlReplay (d : DieId) (ended : ReplayEnd)
  /-- DBG_LOG_CFG_ARM (R245) -/
  | dbgLogCfgArm (d : DieId) (channel : BitVec 15)
  /-- DECLARE (R248) -/
  | declare (d : DieId) (m : SpokeMsg)
  /-- SPOKE_PHASE (R249) -/
  | spokePhase (d : DieId) (m : SpokeMsg)
  /-- SPOKE_SLOT (R339) -/
  | spokeSlot (d : DieId) (m : SpokeMsg) (skewNs : BitVec 16)
  /-- SPOKE_PAIR (R243) -/
  | spokePair (d : DieId) (m : SpokeMsg)
  /-- SPOKE_ECHO (R246) -/
  | spokeEcho (d : DieId) (m : SpokeMsg)
  /-- SPOKE_ECHO_TX (R246) -/
  | spokeEchoTx (d : DieId)
  /-- SPOKE_TIMEOUT (R246) -/
  | spokeTimeout (d : DieId)
  /-- WINDOW_START (R268) -/
  | windowStart (d : DieId) (entry : BitVec 13)
  /-- SEGMENT_START (R270) -/
  | segmentStart (d : DieId) (entry : BitVec 13)
  /-- SPAN_END (R270) -/
  | spanEnd (d : DieId) (entry : BitVec 13)
  /-- SELFTEST (R273) -/
  | selftest (d : DieId) (entry : Copies (BitVec 13)) (passed : Bool) (unit : BitVec 9)
  /-- CANARY (R274) -/
  | canary (d : DieId) (entry : BitVec 13)
  /-- TESTPULSE (R276) -/
  | testpulse (d : DieId) (entry : BitVec 13)
  /-- REBUILD (R107) -/
  | rebuild (d : DieId) (entry : Copies (BitVec 13)) (tableEcc : Bool)
  /-- SENTINEL (R313) -/
  | sentinel (d : DieId) (entry : BitVec 13)
  /-- SENTINEL_RUN_COMPLETE (R314) -/
  | sentinelRunComplete (d : DieId) (image : BitVec 4) (ended : SntEnd)
  /-- CAD_CMD_LOAD_STANDBY (R282) -/
  | cadCmdLoadStandby (d : DieId)
  /-- CAD_CMD_SWAP (R267) -/
  | cadCmdSwap (d : DieId)
  /-- CAD_CMD_DISCARD (R282) -/
  | cadCmdDiscard (d : DieId)
  /-- CHN_CMD_CREATE (R289) -/
  | chnCmdCreate (d : DieId) (channel : BitVec 15)
  /-- CHN_CMD_PAUSE (R289) -/
  | chnCmdPause (d : DieId) (channel : BitVec 15)
  /-- CHN_CMD_RESUME (R289) -/
  | chnCmdResume (d : DieId) (channel : BitVec 15)
  /-- CHN_CMD_CLOSE (R289) -/
  | chnCmdClose (d : DieId) (channel : BitVec 15)
  /-- CHN_CMD_RETIRE (R288) -/
  | chnCmdRetire (d : DieId) (channel : BitVec 15)
  /-- CHN_CMD_FREE (R289) -/
  | chnCmdFree (d : DieId) (channel : BitVec 15)
  /-- CHN_CMD_READ (R285) -/
  | chnCmdRead (d : DieId) (channel : BitVec 15)
  /-- CHN_CMD_SAVE (R292) -/
  | chnCmdSave (d : DieId) (channel : BitVec 15)
  /-- CHN_CMD_RESTORE (R185) -/
  | chnCmdRestore (d : DieId) (channel : BitVec 15)
  /-- CHN_RING_TAIL (R293) -/
  | chnRingTail (d : DieId) (channel : BitVec 15) (tail : Word)
  /-- RAT_CFG_OWNER (R296) -/
  | ratCfgOwner (d : DieId) (ratchet : BitVec 12) (owner : BitVec 2)
  /-- RAT_VAL_LO (R301) -/
  | ratValLo (d : DieId) (ratchet : BitVec 12) (value : Word)
  /-- RAT_VAL_HI (R301) -/
  | ratValHi (d : DieId) (ratchet : BitVec 12) (value : Word)
  /-- RATCHET_BUMP_DOWNSTREAM (R297) -/
  | ratchetBumpDownstream (d : DieId) (ratchet : BitVec 12)
  /-- SNT_CMD_LOAD (R310) -/
  | sntCmdLoad (d : DieId) (image : BitVec 4)
  /-- SNT_CMD_UNLOAD (R310) -/
  | sntCmdUnload (d : DieId) (image : BitVec 4)
  /-- SNT_CMD_RETIRE (R317) -/
  | sntCmdRetire (d : DieId) (unit : BitVec 9)
  /-- SNT_CMD_SELF_TEST (R273) -/
  | sntCmdSelfTest (d : DieId) (unit : BitVec 9)
  /-- RES_CMD_RETIRE (R135) -/
  | resCmdRetire (d : DieId) (tile : BitVec 5)
  /-- RES_CMD_SELF_TEST (R273) -/
  | resCmdSelfTest (d : DieId) (tile : BitVec 5)
  /-- BND_CMD_RETIRE (R160) -/
  | bndCmdRetire (d : DieId) (tile : BitVec 5)
  /-- BND_CMD_SELF_TEST (R273) -/
  | bndCmdSelfTest (d : DieId) (tile : BitVec 5)
  /-- NLE_CMD_RETIRE (R160) -/
  | nleCmdRetire (d : DieId) (tile : BitVec 5)
  /-- NLE_CMD_SELF_TEST (R273) -/
  | nleCmdSelfTest (d : DieId) (tile : BitVec 5)
  /-- CWE_CMD_RETIRE (R183) -/
  | cweCmdRetire (d : DieId) (tile : BitVec 5)
  /-- CWE_CMD_SELF_TEST (R273) -/
  | cweCmdSelfTest (d : DieId) (tile : BitVec 5)
  /-- SHK_CMD_RETIRE (R225) -/
  | shkCmdRetire (d : DieId) (core : BitVec 3)
  /-- SHK_CMD_SELF_TEST (R273) -/
  | shkCmdSelfTest (d : DieId) (core : BitVec 3)
  /-- GLB_MODE_STRICT (R474) -/
  | glbModeStrict (d : DieId) (strict : Bool)
  /-- SENSOR_ENVELOPE (R324) -/
  | sensorEnvelope (d : DieId) (port : Bool) (f : EthFrame)
  /-- ECPRI_IQ_DATA (R323) -/
  | ecpriIqData (d : DieId) (port : Bool) (f : EthFrame)
  /-- ING_LINK_CHANGE (R347) -/
  | ingLinkChange (d : DieId) (port : Bool) (up : Bool)
  /-- HST_LINK_CHANGE (R351) -/
  | hstLinkChange (d : DieId) (up : Bool)
  /-- PEL_LINK_CHANGE (R445) -/
  | pelLinkChange (d : DieId) (port : BitVec 2) (up : Bool)
  /-- AT_FRAME (R337) -/
  | atFrame (d : DieId)
  /-- AT_SFN (R336) -/
  | atSfn (d : DieId) (word : Word) (parityOk : Bool)
  /-- AT_FRAME_MISSING (R337) -/
  | atFrameMissing (d : DieId)
  /-- PTP_SYNC (R341) -/
  | ptpSync (d : DieId) (m : PtpMsg)
  /-- PTP_FOLLOW_UP (R340) -/
  | ptpFollowUp (d : DieId) (m : PtpMsg)
  /-- PTP_ANNOUNCE (R340) -/
  | ptpAnnounce (d : DieId) (m : Announce)
  /-- PTP_DELAY_REQ_TX (R340) -/
  | ptpDelayReqTx (d : DieId)
  /-- PTP_DELAY_RESP (R340) -/
  | ptpDelayResp (d : DieId) (m : PtpMsg)
  /-- PTP_PDELAY_REQ (R340) -/
  | ptpPdelayReq (d : DieId) (m : PtpMsg)
  /-- PTP_PDELAY_RESP (R340) -/
  | ptpPdelayResp (d : DieId) (m : PtpMsg)
  /-- PTP_SYNC_TIMEOUT (R341) -/
  | ptpSyncTimeout (d : DieId)
  /-- TIM_STEP (R332) -/
  | timStep (d : DieId) (step : W64)
  /-- TIM_CMD_ASYM_ACCEPT (R341) -/
  | timCmdAsymAccept (d : DieId)
  /-- TIM_CMD_AT_REACQUIRE (R337) -/
  | timCmdAtReacquire (d : DieId)
  /-- TIM_TRIG_TGT_HI (R343) -/
  | timTrigTgtHi (d : DieId) (value : Word)
  /-- TRIGGER_FIRE (R343) -/
  | triggerFire (d : DieId) (trigger : BitVec 3)
  /-- HST_QBV_CFG_SWAP (R344) -/
  | hstQbvCfgSwap (d : DieId)
  /-- WARDEN_CYCLE (R353) -/
  | wardenCycle (d : DieId) (s : WdnSample)
  /-- DARK_TEST_PULSE_END (R364) -/
  | darkTestPulseEnd (d : DieId) (output : BitVec 2) (ok : Bool)
  /-- TP_INTERVAL_EXPIRY (R364) -/
  | tpIntervalExpiry (d : DieId) (output : BitVec 2)
  /-- DISCREPANCY_TIMEOUT (R362) -/
  | discrepancyTimeout (d : DieId) (input : BitVec 3)
  /-- EDM_TIMEOUT (R363) -/
  | edmTimeout (d : DieId) (output : BitVec 2)
  /-- CROSSLINK_TIMEOUT (R354) -/
  | crosslinkTimeout (d : DieId)
  /-- CLOCK_COUNT_WINDOW (R354) -/
  | clockCountWindow (d : DieId)
  /-- PROFILE_CRC_CHECK (R357) -/
  | profileCrcCheck (d : DieId) (crcOk : Bool)
  /-- SWITCH_WORD_CHANGE (R358) -/
  | switchWordChange (d : DieId) (word : BitVec 16)
  /-- WDN_RESET (R373) -/
  | wdnReset (d : DieId)
  /-- WDN_CMD_STOP (R379) -/
  | wdnCmdStop (d : DieId) (zones : BitVec 4)
  /-- WDN_CMD_RELEASE (R379) -/
  | wdnCmdRelease (d : DieId) (zones : BitVec 4)
  /-- TICK_LOSS (R374) -/
  | tickLoss (d : DieId)
  /-- WATCHDOG_EXPIRY (R374) -/
  | watchdogExpiry (d : DieId) (watch : BitVec 4) (stage : BitVec 3)
  /-- FREEWHEEL_EXPIRY (R372) -/
  | freewheelExpiry (d : DieId) (zone : BitVec 2)
  /-- SENTINEL_PERMIT_STALE (R372) -/
  | sentinelPermitStale (d : DieId) (zone : BitVec 2)
  /-- WARDEN_START_UP_DONE (R375) -/
  | wardenStartUpDone (d : DieId) (passed : Bool)
  /-- OPEN (R428) -/
  | pannierOpen (d : DieId) (f : PFrame)
  /-- CONFIRM (R428) -/
  | confirm (d : DieId) (f : PFrame)
  /-- CONFIRM_TIMEOUT (R428) -/
  | confirmTimeout (d : DieId) (session : BitVec 16)
  /-- CLOSE (R429) -/
  | close (d : DieId) (f : PFrame)
  /-- KEEPALIVE (R429) -/
  | keepalive (d : DieId) (f : PFrame)
  /-- SESSION_IDLE_TIMEOUT (R429) -/
  | sessionIdleTimeout (d : DieId) (session : BitVec 16)
  /-- TAG_FAIL_LIMIT (R429) -/
  | tagFailLimit (d : DieId) (session : BitVec 16)
  /-- READ (R431) -/
  | read (d : DieId) (f : PFrame)
  /-- WRITE (R431) -/
  | write (d : DieId) (f : PFrame)
  /-- BULK_PUT (R433) -/
  | bulkPut (d : DieId) (f : PFrame)
  /-- BULK_GET (R433) -/
  | bulkGet (d : DieId) (f : PFrame)
  /-- SEAL_ACK (R435) -/
  | sealAck (d : DieId) (f : PFrame)
  /-- FLASH_COMMIT (R432) -/
  | flashCommit (d : DieId) (f : PFrame) (readBack : Bool)
  /-- CLAIM (R423) -/
  | claim (d : DieId) (f : PFrame)
  /-- RELEASE (R423) -/
  | release (d : DieId) (f : PFrame)
  /-- UNLOCK (R437) -/
  | unlock (d : DieId) (f : PFrame)
  /-- LOCK (R432) -/
  | lock (d : DieId) (f : PFrame)
  /-- SUBSCRIBE (R435) -/
  | subscribe (d : DieId) (f : PFrame)
  /-- KEY_CMD_LOCK (R439) -/
  | keyCmdLock (d : DieId)
  /-- KEY_CMD_RELOAD (R424) -/
  | keyCmdReload (d : DieId)
  /-- DISC (R442) -/
  | disc (d : DieId) (port : BitVec 2) (m : PelMsg)
  /-- DISC_TX (R442) -/
  | discTx (d : DieId) (port : BitVec 2)
  /-- PELOTON_ECHO (R442) -/
  | pelotonEcho (d : DieId) (port : BitVec 2) (m : PelMsg)
  /-- ECHO_REPLY (R442) -/
  | echoReply (d : DieId) (port : BitVec 2) (m : PelMsg)
  /-- TOPO (R443) -/
  | topo (d : DieId) (port : BitVec 2) (m : PelMsg)
  /-- PEL_CMD_FORM (R443) -/
  | pelCmdForm (d : DieId)
  /-- FORMATION_QUIET (R443) -/
  | formationQuiet (d : DieId)
  /-- PEL_GATE_CMD_ARRIVE (R446) -/
  | pelGateCmdArrive (d : DieId) (gate : BitVec 4)
  /-- GATE_ARRIVE (R446) -/
  | gateArrive (d : DieId) (port : BitVec 2) (m : PelMsg)
  /-- GATE_RELEASE (R447) -/
  | gateRelease (d : DieId) (port : BitVec 2) (m : PelMsg)
  /-- GATE_COUNTDOWN_EXPIRY (R447) -/
  | gateCountdownExpiry (d : DieId) (gate : BitVec 4)
  /-- GATE_ABORT (R446) -/
  | gateAbort (d : DieId) (port : BitVec 2) (m : PelMsg)
  /-- GATE_TIMEOUT (R446) -/
  | gateTimeout (d : DieId) (gate : BitVec 4)
  /-- PEL_CHAIN_CMD_LOAD (R448) -/
  | pelChainCmdLoad (d : DieId) (entry : BitVec 4)
  /-- PEL_CHAIN_CMD_CLEAR (R454) -/
  | pelChainCmdClear (d : DieId) (entry : BitVec 4)
  /-- PEL_CHAIN_CMD_READ (R454) -/
  | pelChainCmdRead (d : DieId) (entry : BitVec 4)
  /-- PEL_CHAIN_CMD_SWITCH_PREV (R451) -/
  | pelChainCmdSwitchPrev (d : DieId) (entry : BitVec 4)
  /-- PEL_CHAIN_CMD_SWITCH_NEXT (R451) -/
  | pelChainCmdSwitchNext (d : DieId) (entry : BitVec 4)
  /-- CHAIN_OPEN (R448) -/
  | chainOpen (d : DieId) (port : BitVec 2) (m : PelMsg)
  /-- CHAIN_AUTH (R448) -/
  | chainAuth (d : DieId) (port : BitVec 2) (m : PelMsg)
  /-- BOUNDARY (R450) -/
  | boundary (d : DieId) (port : BitVec 2) (m : PelMsg)
  /-- CHAIN_ALIVE (R448) -/
  | chainAlive (d : DieId) (port : BitVec 2) (m : PelMsg)
  /-- CHAIN_ALIVE_TX (R448) -/
  | chainAliveTx (d : DieId) (entry : BitVec 4)
  /-- CHAIN_TIMEOUT (R448) -/
  | chainTimeout (d : DieId) (entry : BitVec 4) (next : Bool)
  /-- THAW_SEQUENCE_COMPLETE (R425) -/
  | thawSequenceComplete (d : DieId) (passed : Bool) (cause : BitVec 4)
  /-- PTP_FRAME_EDGE (R335) -/
  | ptpFrameEdge (d : DieId)
  /-- ENCODER_INPUT_EDGE (R366) -/
  | encoderInputEdge (d : DieId) (a b z : Bool)
  /-- CONTROL_FABRIC_HEARTBEAT (R389) -/
  | controlFabricHeartbeat (d : DieId)
  /-- SYSCLK_RETURNS (R485) -/
  | sysclkReturns (d : DieId)
  /-- REFCLK_RETURNS (R405) -/
  | refclkReturns
  /-- RAIL_RETURNS_TO_RANGE (R481) -/
  | railReturnsToRange (rail : Rail)
  /-- QBV_GATE_INTERVAL_END (R344) -/
  | qbvGateIntervalEnd (d : DieId)
  /-- RECOVERY_RESET_TIMEOUT (R345) -/
  | recoveryResetTimeout (d : DieId)
  /-- SENTINEL_IMAGE_RESIDENT (R310) -/
  | sentinelImageResident (d : DieId) (image : BitVec 4)
  deriving DecidableEq, Repr

end Sys2Proof
end

