-- ==== Sys2Proof/Decode.lean ====
section
/-! DEFINITION. The command that a word of spec/opcode_table.json spells. The table gives no row any bits (every
row's `fields` is empty): its rows are operations and events of the block, not encoded instructions. So no word
spells a command. -/

namespace Sys2Proof

/-- The command a table word spells: none, since no row of the table has bits. (DESIGN CHOICE, log entry 3) -/
def decodeTableWord (_nbits _w : Nat) : Option Instr := none

end Sys2Proof
end

