-- ==== Sys2Proof/Config.lean ====
section
/-! DEFINITION. What an implementation fixes and the values the spec leaves open. Each open value is an opaque
constant: no proof can see what it is. -/

namespace Sys2Proof.Config

/-- A value the spec leaves undefined or unstated; the machine draws the n-th one when it needs it.
(DESIGN CHOICE, log entry 6) -/
opaque freeValue : Nat → Nat

/-- Fresh random bytes: X448 ephemeral keys, nonces (R428, R436): draw number, length. (DESIGN CHOICE, log entry 6) -/
opaque freeBytes : Nat → Nat → Bytes

/-- The result of a may-vary primitive (R159), fixed by the firmware: primitive code, argument bits.
(DESIGN CHOICE, log entry 86) -/
opaque fastPrimitive : Nat → Nat → Nat

/-- NLE cycles of a pooling layer over a number of inputs (R306). (DESIGN CHOICE, log entry 109) -/
opaque poolCycles : Nat → Nat

/-- The digest of the Gletica root public key in mask ROM (R416). (DESIGN CHOICE, log entry 183) -/
opaque romRootDigest : Bytes

/-- The row and the column of the n-th entry of an LDPC base graph, from TS 38.212 Tables 5.3.2-2 and 5.3.2-3, which the mask ROM
holds and the spec names (R195): base graph, n. (PRESUMED, log entry 12) -/
opaque ldpcEntry : Nat → Nat → Nat × Nat

/-- V of the n-th entry of an LDPC base graph for a lifting-size set, from the same tables: base graph, set index, n.
(PRESUMED, log entry 12) -/
opaque ldpcShift : Nat → Nat → Nat → Nat

/-- The golden frame of a function whose manifest retains no golden input, fixed with its program and its golden digest (R86).
(DESIGN CHOICE, log entry 102) -/
opaque goldenFrame : Bytes → Bytes

/-- The correction of the increment fraction that the PTP servo's proportional-integral control makes (R341):
offset, previous fraction. (DESIGN CHOICE, log entry 119) -/
opaque servoIncrement : Int → Nat → Nat

/-- What stands in a record's field first where no unit has given it (R206): channel, batch_no.
(DESIGN CHOICE, log entry 68) -/
opaque noFirst : Nat → Nat → Nat

/-- Which of the causes of FAIL a batch takes whose pipeline is lost (R239): channel, batch_no; the cause is 1 more than
its remainder by 11. (DEDUCED, log entry 78) -/
opaque lostCause : Nat → Nat → Nat

/-- The samples that a frame is too short for, of an image and a frame payload: so many bytes (R224, R309).
(DESIGN CHOICE, log entry 206) -/
opaque sntTail : Bytes → Bytes → Nat → Bytes

/-- The token id of an output element of a format that is no integer, by format and code (R224).
(DESIGN CHOICE, log entry 206) -/
opaque sntId : Nat → Nat → Nat

/-! The op descriptors of a constant pool have a layout private to Kykosil and the firmware (R258). What the device
reads from them, beyond what a command's operand carries, are these values. -/

/-- What a descriptor states of the work of its instruction (R258, R259). -/
structure EngineUse where
  /-- the op it names -/
  locus  : Nat := 0
  /-- elements or candidates, and bytes, of its operands at their largest -/
  elems  : Nat := 0
  bytes  : Nat := 0
  /-- tokens of its cursor range -/
  tokens : Nat := 1
  /-- its activation is relu -/
  relu   : Bool := false
  deriving DecidableEq, Repr, Inhabited

/-- What the descriptor that a pool holds at an index states. (DESIGN CHOICE, log entry 81) -/
opaque engineUse : List Nat → Nat → EngineUse

/-- Worst-case HBM bytes of one batch of a program beside its table passes and its ledger reads: pool, code (R266).
(DESIGN CHOICE, log entry 184) -/
opaque windowBytes : List Nat → List Nat → Nat

/-- Every parameter entry equals the descriptor constant it mirrors, and no constant that the code uses lacks its entry (R497):
pool; code; entries of locus, kind, index, value. (DESIGN CHOICE, log entry 81) -/
opaque paramsMirror : List Nat → List Nat → List (Nat × Nat × Nat × Nat) → Bool

/-- In a program with this pool, op i reads op j's output directly (R159). (DESIGN CHOICE, log entry 81) -/
opaque opReads : List Nat → Nat → Nat → Bool

end Sys2Proof.Config
end

