-- ==== Sys2Proof/Machine/Bits.lean ====
section
/-! DEFINITION. Byte strings, bit fields, sorted association lists and the cyclic codes (CRC-16, CRC-24A,
CRC-24B, CRC-32C) of the spec. -/

namespace Sys2Proof.Machine

/-! ## Sorted association lists -/

/-- The value stored under a key, if any. -/
def mget {α : Type} (m : AMap α) (k : Nat) : Option α :=
  match m with
  | [] => none
  | (k', v) :: r => if k' = k then some v else mget r k

/-- The value under a key, or a default. -/
def mgetD {α : Type} (m : AMap α) (k : Nat) (d : α) : α := (mget m k).getD d

/-- Store a value, keeping keys strictly rising. -/
def mset {α : Type} (m : AMap α) (k : Nat) (v : α) : AMap α :=
  match m with
  | [] => [(k, v)]
  | (k', v') :: r =>
    if k < k' then (k, v) :: (k', v') :: r
    else if k = k' then (k, v) :: r
    else (k', v') :: mset r k v

/-- Remove a key. -/
def mdel {α : Type} (m : AMap α) (k : Nat) : AMap α := m.filter (fun p => p.1 != k)

/-- Change the value under a key, if it is there. -/
def mmod {α : Type} (m : AMap α) (k : Nat) (f : α → α) : AMap α :=
  m.map (fun p => if p.1 = k then (p.1, f p.2) else p)

/-- Change every value. -/
def mmap {α : Type} (m : AMap α) (f : α → α) : AMap α := m.map (fun p => (p.1, f p.2))

/-! ## Numbers -/

/-- Wrap to 32 bits (R16). -/
def w32 (n : Nat) : Nat := n % 4294967296

/-- Wrap to 64 bits (R16). -/
def w64 (n : Nat) : Nat := n % 18446744073709551616

/-- Increment of a 32-bit counter that saturates at 0xFFFF_FFFF. -/
def sat32 (n : Nat) : Nat := if n < 4294967295 then n + 1 else 4294967295

/-- Bits `lo` up to `lo + w - 1` of a number. -/
def fld (n lo w : Nat) : Nat := (n >>> lo) % 2 ^ w

/-- One bit of a number. -/
def tst (n b : Nat) : Bool := n.testBit b

/-- A number from a truth value. -/
def b2n (b : Bool) : Nat := if b then 1 else 0

/-- Clamp to a range (R12, R473 rule 2). -/
def clamp (lo hi n : Nat) : Nat := if n < lo then lo else if hi < n then hi else n

/-- Two's complement reading of the low `w` bits. -/
def sgn (w n : Nat) : Int :=
  let m := n % 2 ^ w
  if m < 2 ^ (w - 1) then (m : Int) else (m : Int) - ((2 ^ w : Nat) : Int)

/-- Low `w` bits of an integer in two's complement. -/
def uns (w : Nat) (i : Int) : Nat := (i % ((2 ^ w : Nat) : Int)).toNat

/-- Saturate an integer into the signed `w`-bit range (R16), as raw bits. -/
def satS (w : Nat) (i : Int) : Nat :=
  let hi : Int := ((2 ^ (w - 1) : Nat) : Int) - 1
  let lo : Int := - ((2 ^ (w - 1) : Nat) : Int)
  uns w (if i < lo then lo else if hi < i then hi else i)

/-- Division rounded up; zero for a zero divisor. -/
def cdiv (a b : Nat) : Nat := if b = 0 then 0 else (a + b - 1) / b

/-! ## Byte strings -/

/-- Little-endian bytes of a number. -/
def leBytes : Nat → Nat → Bytes
  | 0, _ => []
  | n + 1, v => BitVec.ofNat 8 v :: leBytes n (v / 256)

/-- Little-endian value of a byte string. -/
def leVal : Bytes → Nat
  | [] => 0
  | b :: r => b.toNat + 256 * leVal r

/-- Big-endian value of a byte string. -/
def beVal (bs : Bytes) : Nat := bs.foldl (fun a b => a * 256 + b.toNat) 0

/-- Big-endian bytes of a number. -/
def beBytes (n v : Nat) : Bytes := (leBytes n v).reverse

/-- `n` bytes of a string from an offset, short at its end. -/
def slice (bs : Bytes) (off n : Nat) : Bytes := (bs.drop off).take n

/-- Byte at an offset, zero past the end. -/
def byteAt (bs : Bytes) (off : Nat) : Nat := ((bs.drop off).headD 0).toNat

/-- Little-endian 16-bit value at an offset. -/
def u16At (bs : Bytes) (off : Nat) : Nat := leVal (slice bs off 2)

/-- Little-endian 32-bit value at an offset. -/
def u32At (bs : Bytes) (off : Nat) : Nat := leVal (slice bs off 4)

/-- Little-endian 64-bit value at an offset. -/
def u64At (bs : Bytes) (off : Nat) : Nat := leVal (slice bs off 8)

/-- `n` zero bytes. -/
def zeros (n : Nat) : Bytes := List.replicate n 0

/-- Bytes of zero padding that bring a length to a multiple of 16. -/
def padTo16 (n : Nat) : Nat := (16 - n % 16) % 16

/-- A byte string padded with zeros to a multiple of 16. -/
def pad16 (bs : Bytes) : Bytes := bs ++ zeros (padTo16 bs.length)

/-- Every byte is zero. -/
def allZero (bs : Bytes) : Bool := bs.all (fun b => b == 0)

/-- A byte string cut or zero-filled to a length. -/
def fitTo (n : Nat) (bs : Bytes) : Bytes := bs.take n ++ zeros (n - bs.length)

/-- Replace the bytes from an offset. -/
def patch (bs : Bytes) (off : Nat) (new : Bytes) : Bytes :=
  bs.take off ++ new ++ bs.drop (off + new.length)

/-- ASCII text as bytes. -/
def ascii (s : String) : Bytes := s.toList.map (fun c => BitVec.ofNat 8 c.toNat)

/-- No number of the list repeats. -/
def noRepeats : List Nat → Bool
  | [] => true
  | a :: r => !r.contains a && noRepeats r

/-! ## Cyclic codes -/

/-- One bit of a most-significant-first CRC of width `w`. -/
def crcStepMsb (w poly : Nat) (reg : Nat) (bit : Bool) : Nat :=
  let top := reg.testBit (w - 1) != bit
  let sh := (reg <<< 1) % 2 ^ w
  if top then sh ^^^ poly else sh

/-- The bits of a byte, most significant first. -/
def bitsMsb (b : Byte) : List Bool :=
  [b.getLsbD 7, b.getLsbD 6, b.getLsbD 5, b.getLsbD 4, b.getLsbD 3, b.getLsbD 2, b.getLsbD 1, b.getLsbD 0]

/-- A most-significant-first CRC over bits. -/
def crcBits (w poly init : Nat) (bits : List Bool) : Nat := bits.foldl (crcStepMsb w poly) init

/-- The bits of a byte string, first bit in bit 7 of byte 0. -/
def bitsOf (bs : Bytes) : List Bool := bs.flatMap bitsMsb

/-- CRC-16 of a record header: polynomial 0x1021, initial value 0xFFFF (R57). -/
def crc16 (bs : Bytes) : Nat := crcBits 16 0x1021 0xFFFF (bitsOf bs)

/-- CRC24A of TS 38.212 over bits: polynomial 0x864CFB, initial value zero (R197). -/
def crc24A (bits : List Bool) : Nat := crcBits 24 0x864CFB 0 bits

/-- CRC24B of TS 38.212 over bits: polynomial 0x800063, initial value zero (R197). -/
def crc24B (bits : List Bool) : Nat := crcBits 24 0x800063 0 bits

/-- One bit of the reflected CRC-32C register. -/
def crc32cBit (r : Nat) : Nat := if r.testBit 0 then (r >>> 1) ^^^ 0x82F63B78 else r >>> 1

/-- One byte of the reflected CRC-32C register. -/
def crc32cByte (r : Nat) (b : Byte) : Nat :=
  let x := r ^^^ b.toNat
  crc32cBit (crc32cBit (crc32cBit (crc32cBit (crc32cBit (crc32cBit (crc32cBit (crc32cBit x)))))))

/-- CRC-32C: polynomial 0x1EDC_6F41 reflected, initial value 0xFFFF_FFFF, final complement (R35). -/
def crc32c (bs : Bytes) : Nat := (bs.foldl crc32cByte 0xFFFFFFFF) ^^^ 0xFFFFFFFF

/-! ## Three virtual channels -/

/-- One value for each of the three upstream virtual channels (R37). -/
structure V3 (α : Type) where
  v0 : α
  v1 : α
  v2 : α
  deriving DecidableEq, Repr

/-- The value of one virtual channel. -/
def v3get {α : Type} (v : V3 α) (n : Nat) : α := if n = 0 then v.v0 else if n = 1 then v.v1 else v.v2

/-- Set the value of one virtual channel. -/
def v3set {α : Type} (v : V3 α) (n : Nat) (x : α) : V3 α :=
  if n = 0 then { v with v0 := x } else if n = 1 then { v with v1 := x } else { v with v2 := x }

end Sys2Proof.Machine
end

