-- ==== Sys2Proof/Machine/State.lean ====
section
/-! DEFINITION. The state of the block: two dies, the package around them, and the queue of commands that wait.
Every field's default is its value at reset; notes/assumptions says which of those the spec leaves open. -/

namespace Sys2Proof.Machine

/-! ## Registers and error pages (chapter 20) -/

/-- The register file of a die: written values in force, Staged values awaiting their slot boundary,
Static values awaiting their block's enable, counters that clear on read, and captured words.
A key is page × 0x1000 + offset, plus selector × 2^24 for a register shown through a selector (R464, R470). -/
structure RegFile where
  live   : AMap Nat := []
  staged : AMap Nat := []
  /-- Staged values written in the last 100 ns before a boundary that wait for the one after it (R14) -/
  late   : AMap Nat := []
  held   : AMap Nat := []
  cnt    : AMap Nat := []
  cap    : AMap Nat := []
  /-- pages on which BLK_CTRL.enable is 1 among WLK, ING, HST, PEL (R468) -/
  enabled : List Nat := []
  deriving DecidableEq, Repr

/-- One page's BLK_ERR, its mask, which set bits a force alone set, and BLK_ERR_FIRST (R467). -/
structure ErrPage where
  err     : Nat := 0
  mask    : Nat := 0
  forced  : Nat := 0
  fBit    : Nat := 0
  fForced : Bool := false
  fMore   : Nat := 0
  fValid  : Bool := false
  stage   : Nat := 0
  deriving DecidableEq, Repr

/-- The phase a die reports (R29). -/
inductive Phase where
  | frost | thaw | spring | summer | autumn
  deriving DecidableEq, Repr

/-! ## The Fjartar link (chapter 02) -/

/-- Link states (R47). -/
inductive LinkState where
  | off | adapt | flitHunt | hello | up | retired
  deriving DecidableEq, Repr

/-- One DATA flit in the replay buffer (R44). -/
structure SentFlit where
  fseq    : Nat
  vc      : Nat
  units   : Nat
  payload : Bytes
  /-- stamped frames of which the flit carries bytes: stream and number in the stream -/
  frames  : List (Nat × Nat)
  deriving DecidableEq, Repr

/-- A stamped frame on its way over downstream VC 0: stream, number in the stream (none for a canary), the bytes not yet
sent, and whether some have been. -/
structure DsFrame where
  stream : Nat
  no     : Option Nat
  left   : Bytes
  begun  : Bool
  deriving DecidableEq, Repr

/-- The Fjartar link of a die (R34 to R54). (DESIGN CHOICE, log entry 15) -/
structure Wlk where
  state    : LinkState := .off
  /-- halves in use, bit n for half n -/
  halves   : Nat := 0
  /-- halves that an exclusion rule has taken out since the link was last fresh -/
  excluded : Nat := 0
  cause    : Nat := 0
  /-- internal time of each retrain of the last second, newest first -/
  retrains : List Nat := []
  /-- internal time at which the link last left UP, OFF or RETIRED -/
  leftAt   : Nat := 0
  /-- the last HELLO exchange failed on version, role or halves (R48) -/
  helloBad : Bool := false
  /-- the device's next HELLO announces a fresh sequence -/
  freshTx  : Bool := true
  /-- the peer's HELLO acceptable, and the own HELLO acknowledged, since HELLO was entered -/
  peerOk   : Bool := false
  helloSent : Bool := false
  ownAcked : Bool := false
  /-- last_rx of the peer's HELLO, where it was valid -/
  peerLast : Option Nat := none
  /-- the link entered UP since it last left OFF or RETIRED -/
  wasUp    : Bool := false
  txSeq    : Nat := 0
  unacked  : List SentFlit := []
  resend   : List SentFlit := []
  peerDepth : Nat := 0
  /-- downstream credits granted, used and returned (VC 0, VC 1) -/
  dsGrant  : V3 Nat := ⟨0, 0, 0⟩
  dsUsed   : V3 Nat := ⟨0, 0, 0⟩
  dsRet    : V3 Nat := ⟨0, 0, 0⟩
  rxNext   : Nat := 0
  rxAny    : Bool := false
  nak      : Bool := false
  badRun   : Nat := 0
  /-- upstream credits granted, flits taken, flits released (cumulative, modulo 4,096 when sent) -/
  upGrant  : V3 Nat := ⟨0, 0, 0⟩
  upTaken  : V3 Nat := ⟨0, 0, 0⟩
  upFreed  : V3 Nat := ⟨0, 0, 0⟩
  crdSent  : V3 Nat := ⟨0, 0, 0⟩
  crdNext  : Nat := 0
  /-- payload bytes not yet consumed of each held flit buffer, oldest first -/
  held     : V3 (List Nat) := ⟨[], [], []⟩
  /-- bytes at the front of an upstream stream that staging has taken, of a record not yet whole (R40) -/
  moved    : V3 Nat := ⟨0, 0, 0⟩
  /-- upstream bytes accepted and not yet consumed -/
  rx       : V3 Bytes := ⟨[], [], []⟩
  /-- what waits to be sent downstream: stamped frames on VC 0, bytes of RATCHET_BUMP records on VC 1 -/
  dsTx0    : List DsFrame := []
  dsTx1    : Bytes := []
  /-- seq of the next downstream VC 1 record (R59) -/
  dsSeq    : Nat := 0
  peerId   : Bytes := []
  deriving DecidableEq, Repr

/-! ## Records, tickets and channels (chapters 03, 12) -/

/-- A record held in staging: its type code and itself, and the plan entry it matched (R62, R90). -/
structure Staged where
  rtype : Nat
  r     : RecIn
  entry : Nat
  /-- tokens of the batch that were closed when it arrived; of a record that waits, 1 once its wait for a ticket has been counted -/
  token : Nat
  deriving DecidableEq, Repr

/-- Why WRD discards the further records of a channel (R63, R82, R83, R91). -/
inductive Skip where
  /-- after a departure: discarded, not counted again -/
  | departed
  /-- after the batch's verdict: each record counts as a departure of cause 14 -/
  | afterVerdict
  /-- after the device ended the batch: discarded without counting -/
  | ended
  deriving DecidableEq, Repr

/-- What a radio batch has shown so far (R198, R199). -/
structure RadioArr where
  /-- (symbol, port, dir) of the last FFT instance as one number, its log2n, its frame, and the next bin of an
  instance that is not whole yet, else 0 -/
  key   : Nat := 0
  log2n : Nat := 0
  frame : Nat := 0
  bin   : Nat := 0
  ffts  : Nat := 0
  /-- transport block and code block of the last RADIO_LDPC, and whether its RADIO_TB is still to come -/
  tb    : Nat := 0
  cb    : Nat := 0
  await : Bool := false
  /-- crc field of the last RADIO_TB -/
  kind  : Nat := 0
  cbs   : Nat := 0
  tbs   : Nat := 0
  /-- slot of the running real batch, and of the channel's previous one (R203) -/
  cur   : Option Nat := none
  prev  : Option Nat := none
  deriving DecidableEq, Repr

/-- WRD's arrival side of one channel (R59, R61 to R63, R81). -/
structure Arrival where
  nextSeq   : Nat := 0
  nextBatch : Nat := 0
  skip      : Option Skip := none
  /-- next plan entry, and its next tile -/
  entry     : Nat := 0
  tile      : Nat := 0
  /-- position of the current or last token, once the batch's first token has given one -/
  pos       : Option Nat := none
  /-- records of the current token so far -/
  tokRecs   : Nat := 0
  /-- arrival copy of append (R170) -/
  append    : Nat := 0
  radio     : RadioArr := {}
  deriving DecidableEq, Repr

/-- The descriptor fields that the create image gives (R285). -/
structure ChanHost where
  kind      : Nat := 1
  slot      : Nat := 0
  group     : Nat := 0
  vc        : Nat := 0
  safety    : Bool := false
  canary    : Bool := false
  ringLog2  : Nat := 4
  maxOpen   : Nat := 1
  maxTokens : Nat := 1
  ctx       : Nat := 0
  alpha     : Nat := 0
  inMode    : Nat := 0
  stream    : Nat := 255
  frames    : Nat := 1
  ledgerRat : Nat := 0
  zone      : Nat := 255
  mu        : Nat := 0
  arrSym    : Nat := 0
  winSym    : Nat := 0
  patLen    : Nat := 1
  pattern   : Nat := 0
  maxFft    : Nat := 1
  maxCb     : Nat := 0
  maxTb     : Nat := 0
  sMax      : Nat := 0
  deriving DecidableEq, Repr

/-- Channel states (R288). -/
inductive ChanState where
  | free | opened | paused | closed | retired
  deriving DecidableEq, Repr

/-- A channel command that awaits its slot boundary (R287, R288). -/
inductive ChanPend where
  | create | pause | resume | close | free
  deriving DecidableEq, Repr

/-- One witness channel: its descriptor (R285), its ledger, its ring and its arrival state. -/
structure Chan where
  state      : ChanState := .free
  host       : ChanHost := {}
  coupled    : Bool := false
  alphaRep   : Nat := 0
  density    : Nat := 0
  endCause   : Nat := 0
  validEnd   : Nat := 0
  append     : Nat := 0
  voidPos    : Nat := 4294967295
  markings   : Nat := 0
  ringHead   : Nat := 0
  ringTail   : Nat := 0
  framesBound : Nat := 0
  openSlot   : Nat := 0
  setbacks   : Nat := 0
  /-- valid_end, append and void_pos as of the last marking (R187) -/
  shown      : Nat × Nat × Nat := (0, 0, 4294967295)
  /-- non-canary batches since the channel last became OPEN (R290) -/
  batchesOpen : Nat := 0
  pend       : Option ChanPend := none
  /-- the shadow ledger's bytes, offset by R168; an unlisted byte reads as zero (R395) -/
  ledger     : List Host.Cell := []
  /-- verdict ring entries by index (R293) -/
  ring       : AMap Bytes := []
  wrd        : Arrival := {}
  /-- frames of its stream forwarded when the channel last became OPEN (R290) -/
  fwdBase    : Nat := 0
  /-- stamp digests of the canary frames outstanding (R86, R209) -/
  canaryDigs : List Bytes := []
  /-- of those, whether the canary's window has already been missed: it went in a later slot (R274) -/
  canaryLate : List Bool := []
  /-- Sentinel output ring entries by index (R315) -/
  outRing    : AMap Bytes := []
  /-- a canary frame is outstanding (R86) -/
  canaryOut  : Nat := 0
  canaryOverdue : Bool := false
  /-- slots whose real radio batch has had its verdict written (R192, R203), newest first -/
  verdictSlots : List Nat := []
  deriving DecidableEq, Repr

/-- A timetable entry (R264), with the tag of the fragment that brought it (0 none, 1 model slot,
2 channel). -/
structure TtEntry where
  kind   : Nat
  group  : Nat
  target : Nat
  slot   : Nat
  safety : Bool := false
  start  : Nat
  len    : Nat := 0
  arr    : Nat := 0
  commit : Nat := 0
  verdict : Nat := 0
  pool   : Nat := 0
  passTokens : Nat := 1
  stream : Nat := 0
  tagKind : Nat := 0
  tag    : Nat := 0
  deriving DecidableEq, Repr

/-- The window a batch is bound to: its timetable entry, the air-time at which its slot began, and the
entry's times in control-fabric cycles (R268). -/
structure Window where
  entry   : TtEntry
  slot    : Nat
  slotNs  : Nat
  start   : Nat
  arr     : Nat
  commit  : Nat
  verdict : Nat
  deriving DecidableEq, Repr

/-- One die's declaration for a coupled batch (R248). -/
structure Decl where
  verdict : Nat
  cause   : Nat
  batchNo : Nat
  first   : Nat
  nUnits  : Nat
  inDig   : Bytes
  outDig  : Bytes
  deriving DecidableEq, Repr

/-- One element of a reference-arithmetic value: an IEEE binary32 bit pattern (R151). -/
abbrev F32 := BitVec 32

/-- One batch in flight: its ticket (R294), what has arrived of it, its check status and its digests. -/
structure Batch where
  channel  : Nat := 0
  /-- the tickets of a die are numbered in the order they are taken -/
  serial   : Nat := 0
  lead     : Nat := 0
  month    : Nat := 0
  monthNs  : Nat := 0
  strict   : Bool := false
  pairing  : Nat := 0
  canary   : Bool := false
  rewind   : Bool := false
  batchNo  : Nat := 0
  first    : Option Nat := none
  tokens   : Nat := 0
  recs     : Nat := 0
  /-- the BATCH_END has been delivered, with the count it carries -/
  closed   : Bool := false
  endUnits : Nat := 0
  endLate  : Bool := false
  /-- complete under R81 (and R200 for radio) -/
  complete : Bool := false
  /-- the number of the batch among the channel's non-canary batches since it became OPEN (R290) -/
  ordinal  : Nat := 0
  /-- failed checks: token index within the batch, cause of R208 -/
  fails    : List (Nat × Nat) := []
  /-- tokens whose checks have all been made (R172) -/
  checked  : Nat := 0
  /-- per token, the checks made on it: 2 × locus, or 2 × locus + 1 for a LAYER_IN band (R172) -/
  made     : AMap (List Nat) := []
  /-- first mismatch for the capture registers: page, FAIL_CHAN upper bits, locus, pos, extra word (R140) -/
  caps     : List (Nat × Nat × Nat × Nat × Nat) := []
  lates    : List Nat := []
  staged   : List Staged := []
  window   : Option Window := none
  /-- its commit point has passed (R269) -/
  due      : Bool := false
  /-- what stands in the record's field first while no unit has given it -/
  noFirst  : Nat := 0
  /-- Spoke has been down, or the peer outside Summer, since the batch began (R22, R249) -/
  alone    : Bool := false
  /-- the program has reached DONE (R269) -/
  done     : Bool := false
  /-- a Sentinel run of it ended with copies that differ (R314) -/
  repeats  : Bool := false
  decl     : Option Decl := none
  peer     : Option Decl := none
  /-- stamp digests of the frames bound to the batch, in the order first consumed (R209) -/
  inDigs   : List Bytes := []
  /-- frame counters of the radio frames named so far -/
  frames   : List Nat := []
  outBytes : Bytes := []
  /-- payload of the batch's last OUTPUT record (R368) -/
  lastOut  : Bytes := []
  /-- values the pipeline has derived or verified for the batch, by buffer number -/
  bufs     : AMap (List F32) := []
  /-- attention selections run for the batch (R179) -/
  selRun   : Nat := 0
  /-- positions from which an attention selection is not run any more (R179) -/
  overrun  : Option Nat := none
  /-- boundary digests derived for the token positions of a shard (R450) -/
  bounds   : AMap Bytes := []
  deriving DecidableEq, Repr

/-- The record decoder and the staging rings (R55 to R93). (DESIGN CHOICE, log entry 15) -/
structure Wrd where
  hunt    : V3 Bool := ⟨false, false, false⟩
  hbOk    : Bool := false
  /-- status of the last HEARTBEAT (R78) -/
  hbStatus : Nat := 0
  vc2Next : Nat := 0
  /-- a first record that waits for room or for a ticket, per upstream VC (R90, R294) -/
  wait    : V3 (List Staged) := ⟨[], [], []⟩
  /-- weight chunks not yet consumed by the building, in arrival order (R107) -/
  chunks  : List RecIn := []
  chunkLead : Nat := 0
  deriving DecidableEq, Repr

/-- Channels and tickets of a die (chapter 12). (DESIGN CHOICE, log entry 15) -/
structure Chn where
  tab    : AMap Chan := []
  tickets : List Batch := []
  serial : Nat := 0
  /-- pinned descriptors of the staged descriptor cache at the last refresh (R286) -/
  cache  : List Nat := []
  deriving DecidableEq, Repr

/-- One ratchet (R295). -/
structure Ratchet where
  value : Nat := 0
  owner : Nat := 0
  /-- a downstream bump is owed (R297) -/
  owed  : Bool := false
  deriving DecidableEq, Repr

/-- The ratchets of a die and the two half-word latches of each RAT page (R301). -/
structure Rat where
  tab    : AMap Ratchet := []
  loHeld : AMap Nat := []
  hiLatch : AMap Nat := []
  deriving DecidableEq, Repr

/-! ## Manifests, admission and Months (chapters 04, 11) -/

/-- A tensor table entry (R95). -/
structure TensorE where
  role   : Nat
  fmt    : Nat
  rows   : Nat
  cols   : Nat
  bytes  : Nat
  locus  : Nat
  digest : Bytes
  deriving DecidableEq, Repr

/-- An op table entry (R97). -/
structure OpE where
  locus  : Nat
  cls    : Nat
  inFmt  : Nat
  outFmt : Nat
  banded : Bool
  tensor : Nat
  ulp    : Nat
  deriving DecidableEq, Repr

/-- A manifest (R94). -/
structure Manifest where
  kind       : Nat := 1
  kMin       : Nat := 1
  alphaMin   : Nat := 0
  densityMin : Nat := 1
  strictReq  : Bool := false
  nLayers    : Nat := 0
  nKv        : Nat := 0
  dHead      : Nat := 0
  kvFmt      : Nat := 1
  vocab      : Nat := 0
  modelId    : Bytes := []
  version    : Nat := 0
  programDigest : Bytes := []
  goldenDigest  : Bytes := []
  tensors    : List TensorE := []
  ops        : List OpE := []
  deriving DecidableEq, Repr

/-- A plan entry (R257). -/
structure PlanE where
  rtype : Nat
  fmt   : Nat
  scale : Nat
  tiles : Nat
  locus : Nat
  width : Nat
  tileElems : Nat
  deriving DecidableEq, Repr

/-- A parameter entry (R497). -/
structure ParamE where
  locus : Nat
  kind  : Nat
  index : Nat
  value : Nat
  deriving DecidableEq, Repr

/-- A check program (R256). -/
structure Program where
  mayVary : Bool := false
  plan    : List PlanE := []
  consts  : List Nat := []
  code    : List Nat := []
  params  : List ParamE := []
  size    : Nat := 0
  deriving DecidableEq, Repr

/-- A timetable (R263). -/
structure Timetable where
  mu      : Nat := 1
  period  : Nat := 1
  pairing : Nat := 0
  hbm     : List Nat := List.replicate 64 255
  entries : List TtEntry := []
  isDefault : Bool := true
  deriving DecidableEq, Repr

/-- Secrets and projections of one Month of one model (chapters 05, 06). -/
structure Tables where
  month   : Nat := 0
  /-- k_month, from which every secret of the Month is derived (R127, R128, R411) -/
  key     : Bytes := []
  /-- per tensor and secret, the projection column words, in the tensor's column order -/
  proj    : AMap (List (List Nat)) := []
  /-- per class-2 tensor and secret, wrow (R145) -/
  wrow    : AMap (List Nat) := []
  /-- per class-1 tensor, the smallest and largest weight element exponent (R123) -/
  expo    : AMap (Int × Int) := []
  /-- tensor digests found in the stream, in index order -/
  digests : List Bytes := []
  ready   : Bool := false
  /-- an uncorrectable word met these tables (R138) -/
  poisoned : Bool := false
  deriving DecidableEq, Repr

/-- Where an admission or a model stands (R102, R107, R116). -/
inductive ModelState where
  /-- waits for the RPMB Month counter (step 9) -/
  | rpmb
  /-- waits for the weight stream (R103) -/
  | queued
  /-- its weight stream runs (step 10, 11) -/
  | streaming
  /-- projections complete, READY from the next slot boundary (R107) -/
  | built
  | ready
  /-- abandoned turn: no further batch binds, tickets finish (R116) -/
  | abandoned (code : Nat)
  deriving DecidableEq, Repr

/-- A pending Month turn of a model (R103, R113). -/
structure PendTurn where
  forced : Bool
  order  : Nat
  deriving DecidableEq, Repr

/-- A running Month turn (R114). -/
inductive TurnStage where
  | rpmb | streaming | built
  /-- standby complete here; waits for the peer's TURN 2 (R118) -/
  | waitPeer
  /-- the standby tables met an uncorrectable word once they were built: the turn waits for the stream again (R138) -/
  | again
  deriving DecidableEq, Repr

/-- One model slot (R100 to R118). -/
structure Model where
  state    : ModelState
  manifest : Manifest
  prog     : Program
  k        : Nat
  share    : Nat
  dies     : Nat
  loadChannel : Nat
  loadRatchet : Nat
  loadTimeout : Nat
  periodH  : Nat
  graceH   : Nat
  session  : Nat
  order    : Nat
  active   : Tables := {}
  standby  : Tables := {}
  /-- ns counter at the active Month's switch (R113) -/
  switchNs : Nat := 0
  pending  : Option PendTurn := none
  turn     : Option TurnStage := none
  /-- the earlier Month's tables while batches bound to it are open (R115) -/
  old      : Option Tables := none
  /-- the peer die accepted its half, or reported its standby complete (R104, R118) -/
  peerOk   : Bool := false
  retained : AMap Bytes := []
  /-- uncorrectable words met in this admission or turn (R116, R138) -/
  eccHits  : Nat := 0
  fragment : List TtEntry := []
  deriving DecidableEq, Repr

/-- The weight stream of a die (R103, R106). -/
structure Stream where
  slot   : Nat
  turn   : Bool
  tensor : Nat := 0
  offset : Nat := 0
  /-- next seq of the load channel, where no channel in service counts it (R59) -/
  seq    : Nat := 0
  /-- bytes of the current tensor so far -/
  got    : Bytes := []
  startNs : Nat := 0
  deriving DecidableEq, Repr

/-- Admissions of a die. -/
structure Adm where
  models : AMap Model := []
  stream : Option Stream := none
  order  : Nat := 0
  /-- last refusal or end code reported by each slot -/
  codes  : AMap Nat := []
  /-- slots whose coupled admission the peer refused, or completed, before this die received it -/
  peerRefused : List Nat := []
  peerDone : List Nat := []
  /-- slots whose coupled admission this die has ended, and of which the peer's own word is still to come -/
  awaits   : List Nat := []
  withdrawnExtents : Nat := 0
  deriving DecidableEq, Repr

/-- A fragment that validated and awaits its slot boundary, or a tag to remove (R267). -/
structure Cad where
  active   : Timetable := {}
  standby  : Option Timetable := none
  /-- bytes of the CAD load area by offset -/
  load     : Bytes := []
  frags    : List TtEntry := []
  removals : List (Nat × Nat) := []
  swap     : Bool := false
  running  : Bool := false
  /-- consecutive SELFTEST skips per lead pipeline (R273) -/
  skips    : AMap Nat := []
  /-- queued self-test items per lead: (block code, unit) (R273) -/
  tests    : List (Nat × Nat × Nat) := []
  /-- consecutive canary misses per stream (R274) -/
  misses   : AMap Nat := []
  /-- next self-test item of each lead's rotation (R273) -/
  rot      : AMap Nat := []
  /-- canaries that found no credit: (channel, stream) (R274) -/
  canaryWait : List (Nat × Nat) := []
  /-- spans running: lead, entry index, planned end in ns of air-time (R270) -/
  spans    : List (Nat × Nat × Nat) := []
  deriving DecidableEq, Repr

/-! ## Seals and the hash and signature engines (chapter 09) -/

/-- A seal that has ended its period and awaits its signature (R216 to R219). -/
structure SealWait where
  no     : Nat
  header : Bytes
  table  : Bytes
  body   : Bytes
  /-- the signature, which R218 makes unique -/
  sig    : Bytes
  engine : Nat
  /-- engines that have failed this header -/
  failed : List Nat := []
  deriving DecidableEq, Repr

/-- A retained seal body (R220). -/
structure SealBody where
  no    : Nat
  bytes : Bytes
  deriving DecidableEq, Repr

/-- A leaf of the open period: the verdict record and its two digests (R212, R219). -/
structure Leaf where
  record : Bytes
  inDig  : Bytes
  outDig : Bytes
  /-- the model table entry of the record's slot and Month (R217) -/
  entry  : Bytes
  deriving DecidableEq, Repr

/-- The seal machinery of a die. -/
structure Sealing where
  running   : Bool := false
  nextNo    : Nat := 0
  leaves    : List Leaf := []
  startSlot : Nat := 0
  startNs   : Nat := 0
  /-- 14 × slot count + symbol, and internal time, at the period's start -/
  startIdx  : Nat := 0
  startUp   : Nat := 0
  /-- internal time of the last commit (R213) -/
  lastCommit : Option Nat := none
  /-- period in force; what the configuration asked for when it began (R228) -/
  effPeriod : Nat := 0
  asked     : Nat := 0
  uncertain : Bool := false
  airLocked : Bool := false
  ptpLocked : Bool := false
  asym      : Bool := false
  cutPend   : Bool := false
  startMap  : Bytes := []
  prev      : Bytes := List.replicate 32 0
  waiting   : List SealWait := []
  headers   : List (Nat × Bytes) := []
  bodies    : List SealBody := []
  lastNo    : Nat := 0
  lastDig   : Bytes := []
  hiLatch   : Nat := 0
  nextEngine : Nat := 0
  deriving DecidableEq, Repr

/-- A pool of like units with spares: physical unit states, the logical to physical map, and the time of
each unit's last code event (R135 to R137, R160, R183, R225, R317). States: 0 disabled or bad, 1 active,
2 spare, 3 retired. (DESIGN CHOICE, log entry 14) -/
structure Tiles where
  state : List Nat := []
  map   : List Nat := []
  codeAt : AMap Nat := []
  deriving DecidableEq, Repr

/-! ## Pipelines, pairing, coupling and debug (chapter 10) -/

/-- A control core of a group: the running batches and the core's registers (R258 to R260). -/
structure Core where
  /-- what the program runs for: a channel, or 32,768 + a pool -/
  target : Nat := 0
  /-- serials of the batches the program runs for, ascending channel order -/
  run    : List Nat := []
  pc     : Nat := 0
  g      : AMap W64 := []
  /-- token cursor: index of the token within the batch -/
  cursor : Nat := 0
  /-- passes that the table instruction at which it stands has issued (R271) -/
  passNo : Nat := 0
  /-- times, in elevenths of a ns, at which the instructions in each engine's queue end: RES 0, BND 1, NLE 2, CWE 3, SHK 4,
  SNT 5 -/
  queues : AMap (List Nat) := []
  /-- time, in elevenths of a ns, until which the core's instructions have taken it (R259, R270) -/
  busy   : Nat := 0
  /-- the program may issue: one of its spans runs (R270) -/
  inSpan : Bool := false
  halted : Bool := false
  deriving DecidableEq, Repr

/-- One verdict pipeline (R231, R252). -/
structure Pipe where
  enabled : Bool := true
  retired : Bool := false
  lead    : Nat := 0
  /-- 0 Solo, 1 main, 2 checker, 3 Trike member -/
  role    : Nat := 0
  /-- internal time of the first core mismatch of the running window (R236) -/
  mismatchAt : Option Nat := none
  /-- internal time at which this member was last odd (R238) -/
  oddAt   : Option Nat := none
  /-- a Trike member waiting for or in resynchronisation -/
  resync  : Bool := false
  resyncRun : Bool := false
  core    : Core := {}
  /-- cores of targets whose span does not run, by target (R270) -/
  saved   : AMap Core := []
  deriving DecidableEq, Repr

/-- The pipelines of a die and the pairing (R242). (DESIGN CHOICE, log entries 14, 15) -/
structure Vp where
  pipes   : List Pipe := []
  current : Nat := 0
  target  : Nat := 0
  pending : Bool := false
  /-- dispatch of new batches has stopped (R242 step 4) -/
  draining : Bool := false
  result  : Nat := 0
  /-- units whose known-answer test gates a spare: (block code, logical, physical) (R136) -/
  substituting : List (Nat × Nat × Nat) := []
  deriving DecidableEq, Repr

/-- The Spoke side of a die (R246 to R254). (DESIGN CHOICE, log entry 15) -/
structure Spk where
  up        : Bool := false
  down      : Bool := false
  peerPhase : Nat := 0
  skewNs    : Int := 0
  /-- transmissions of the message under way that have arrived with a wrong CRC (R246) -/
  tries     : Nat := 0
  /-- declarations received for batches this die has not begun: channel, batch_no -/
  early     : List (Nat × Decl) := []
  /-- the pairing the peer asked for (R243) -/
  peerPair  : Option Nat := none
  deriving DecidableEq, Repr

/-- Debug (R244, R245, R255). (DESIGN CHOICE, log entry 15) -/
structure Dbg where
  refused   : Bool := false
  diverged  : Bool := false
  cls       : Nat := 0
  log       : List Staged := []
  logMonth  : Nat := 0
  logSlot   : Nat := 0
  logChan   : Nat := 0
  logSerial : Nat := 0
  capturing : Bool := false
  complete  : Bool := false
  truncated : Bool := false
  deriving DecidableEq, Repr

/-! ## Sentinel (chapter 13) -/

/-- A Sentinel image slot (R310): 0 empty, 1 loading, 2 resident, 3 retired. -/
structure SntImage where
  state   : Nat := 0
  payload : Bytes := []
  digest  : Bytes := []
  deriving DecidableEq, Repr

/-- A running Sentinel run: the image, the leads of its copies, and the tickets it serves, ascending channel. -/
structure SntRun where
  image : Nat
  leadA : Nat
  leadB : Nat
  batches : List Nat
  deriving DecidableEq, Repr

/-- The Sentinel engine of a die. -/
structure Snt where
  images : AMap SntImage := []
  result : Nat := 0
  runs   : List SntRun := []
  /-- internal time of the last copy_mismatch per pair of slices (6 × lead A + lead B) -/
  mismatchAt : AMap Nat := []
  deriving DecidableEq, Repr

/-! ## Time, ingress and the host port (chapter 14) -/

/-- States of the air-time machine (R337). -/
inductive AtState where
  | free | acquire | locked | holdover
  deriving DecidableEq, Repr

/-- States of the PTP servo (R341). -/
inductive PtpState where
  | disabled | unlocked | locked | holdover | frozen
  deriving DecidableEq, Repr

/-- One trigger (R343, R350). -/
structure Trigger where
  mode    : Nat := 0
  symbol  : Nat := 0
  target  : Nat := 0
  period  : Nat := 0
  capSlot : Nat := 0
  capNs   : Nat := 0
  /-- low half of the target that awaits its high half; the target has been armed -/
  lo      : Nat := 0
  armed   : Bool := false
  deriving DecidableEq, Repr

/-- A decided air-time step (R338): the new timeline's offset from the running one, its numerology, and the
internal time of the decision. -/
structure AirStep where
  offset  : Int
  mu      : Nat
  decided : Nat
  deriving DecidableEq, Repr

/-- A point of the past: where both counters stood at an internal time, and the numerology from there on (R327). -/
structure AirMark where
  ns  : Nat
  air : Nat
  mu  : Nat
  up  : Nat
  deriving DecidableEq, Repr

/-- TIM: the two counters, the air-time machine, the servo and the triggers. (DESIGN CHOICE, log entry 185) -/
structure Tim where
  ns        : Nat := 0
  frac      : Nat := 0
  air       : Nat := 0
  airFrac   : Nat := 0
  /-- ns since Thaw on the time clock, which nothing steps; the model's own measure of fault windows -/
  up        : Nat := 0
  /-- numerology in force -/
  mu        : Nat := 1
  /-- slot index whose boundary has been taken last -/
  slotDone  : Option Nat := none
  at_       : AtState := .free
  inUse     : Nat := 0
  edgeErr   : Int := 0
  goodEdges : Nat := 0
  badEdges  : Nat := 0
  /-- frame number mod 2^20 of the last good AT_SFN word, and whether a good one awaits its edge -/
  word      : Option Nat := none
  wordGood  : Bool := false
  /-- internal time at which the last word ended -/
  wordAt    : Nat := 0
  wrap      : Nat := 0
  lastEdge  : Option Nat := none
  /-- phase still to be removed by slewing, ns (R337, R339) -/
  slew      : Int := 0
  /-- the rate that HOLDOVER holds: 1 and -1 for 20 ppm above and below the nominal one (R337) -/
  rate      : Int := 0
  step      : Option AirStep := none
  /-- where the counters stood before and after every jump, and at every change of a rate, of the last 100 ms, newest first -/
  marks     : List AirMark := []
  following : Bool := false
  /-- steps of air-time this die has taken, and those of die A after which die B has taken its slot count (R339) -/
  steps     : Nat := 0
  peerSteps : Nat := 0
  ptp       : PtpState := .disabled
  offset    : Int := 0
  /-- the last eight path delay measurements, newest first, ns; d_ref in eighths of a ns -/
  delays    : List Nat := []
  dRef      : Nat := 0
  ptpGood   : Nat := 0
  ptpBad    : Nat := 0
  delayGood : Nat := 0
  /-- increment fraction the servo has set -/
  incr      : Nat := 0x9999999A
  /-- sequence, arrival time and correction of a two-step Sync that awaits its Follow_Up -/
  syncSeq   : Option (Nat × Nat × Int) := none
  /-- internal time of the last Sync, its interval in ns, and the intervals since that have been counted as missed -/
  syncAt    : Option Nat := none
  syncGap   : Nat := 0
  syncMissed : Nat := 0
  /-- t1 and t2 of the last Sync -/
  syncT1    : Int := 0
  syncT2    : Int := 0
  /-- sequence of the last Delay_Req or Pdelay_Req -/
  reqSeq    : Nat := 0
  master    : Option Announce := none
  /-- no Sync of the master for four sync intervals -/
  silent    : Bool := false
  /-- at the last AT_FRAME edge network time and air-time lay apart; disagreement as R342 defines it -/
  apart     : Bool := false
  disagree  : Bool := false
  trigs     : List Trigger := List.replicate 8 {}
  fired     : Nat := 0
  stepLo    : Nat := 0
  /-- low half of TIM_PTP_EPOCH that awaits its high half -/
  epochLo   : Option Nat := none
  latchHi   : Nat := 0
  latchFrac : Nat := 0
  latchPos  : Nat := 0
  deriving DecidableEq, Repr

/-- A PTP event message that a die sends (R340): 0 Delay_Req, 1 Pdelay_Req, 2 Pdelay_Resp; whether it goes over Ethernet as
802.1AS has it, or over UDP/IPv4 with a UDP checksum of zero; and the fields that the port fills. -/
structure PtpSend where
  kind   : Nat
  as_    : Bool
  domain : Nat
  seq    : Nat
  origin : Nat
  corr   : Int
  deriving DecidableEq, Repr

/-- A frame that waits on the host port: its egress class, the internal time at which it was put there, its bytes and R-TAG;
or a PTP event message, with the arrival time of the request it answers. Class 4 waits for the port to come up (R469). -/
structure Waiting where
  cls  : Nat
  at_  : Nat
  bytes : Bytes := []
  tag  : Option Nat := none
  /-- it is the copy of a frame of the other die (R345) -/
  copy : Bool := false
  ptp  : Option PtpSend := none
  deriving DecidableEq, Repr

/-- A frame replicated to the other die's port (R345): its number among those, its class, R-TAG and bytes. -/
structure Replica where
  no   : Nat
  cls  : Nat
  tag  : Nat
  bytes : Bytes
  deriving DecidableEq, Repr

/-- One Qci stream filter's meter (R346): tokens in bytes and when they were last filled. -/
structure Meter where
  tokens : Nat := 65536
  at_    : Nat := 0
  deriving DecidableEq, Repr

/-- The host port (R344 to R346). (DESIGN CHOICE, log entry 15) -/
structure Hst where
  linkUp   : Bool := false
  /-- the host replication path is up -/
  peerPath : Bool := false
  operBank : Nat := 0
  bank0    : AMap (Nat × Nat) := []
  bank1    : AMap (Nat × Nat) := []
  /-- operational list: entries, cycle time and base time in force -/
  operN    : Nat := 1
  operCycle : Nat := 1000000
  /-- a start of the operational list's cycle; ns at which a committed bank becomes operational -/
  cycleNs  : Nat := 0
  swapAt   : Option Nat := none
  /-- link of the other die's port -/
  peerLink : Bool := false
  /-- frames that wait for the port or their gate, oldest first -/
  egress   : List Waiting := []
  /-- internal time at which the port has sent the frame it last began -/
  busy     : Nat := 0
  /-- copies for the other die's port that it may not have fetched; how many have been made, and fetched from the other die -/
  replicas : List Replica := []
  made     : Nat := 0
  fetched  : Nat := 0
  /-- egress time of the last Delay_Req or Pdelay_Req, until it is answered -/
  reqT     : Option Nat := none
  meters   : List Meter := List.replicate 16 {}
  /-- 802.1CB: next sequence per class, recovery history and its base -/
  txSeq1   : Nat := 0
  txSeq2   : Nat := 0
  history  : List Nat := []
  recovSeq : Option Nat := none
  deriving DecidableEq, Repr

/-! ## The ingress tap (chapter 14) -/

/-- A stream's running state (R325, R290): the expected counter and whether one has set it, the frames
forwarded so far, the canary count, and, by number, the
slot count and digest of the stamps of its last 4,096 forwarded frames. -/
structure StreamSt where
  expected : Nat := 0
  primed   : Bool := false
  fwd      : Nat := 0
  canaries : Nat := 0
  digests  : AMap (Nat × Bytes) := []
  deriving DecidableEq, Repr

/-- A frame held in the radio or the Sentinel frame store (R192, R313). -/
structure Held where
  stream  : Nat
  counter : Nat
  slot    : Nat
  symbol  : Nat
  payload : Bytes
  digest  : Bytes
  /-- it was forwarded over Fjartar -/
  sent    : Bool
  /-- it is a canary frame (R86) -/
  canary  : Bool
  /-- for the Sentinel store: the channel and ticket it serves; 0 where none -/
  chan    : Nat
  serial  : Nat
  /-- for the Sentinel store: its number among the frames bound to the channel since it last became OPEN (R290, R313) -/
  no      : Nat := 0
  /-- the radio store has had to drop its payload (the instances on it can then not be compared) -/
  gone    : Bool := false
  deriving DecidableEq, Repr

/-- A stamped frame that waits to go downstream (R274, R329): its stream, its bytes and whether it is a canary. -/
structure WaitFrame where
  stream : Nat
  canary : Bool
  bytes  : Bytes
  /-- its number in the stream, none for a canary -/
  no     : Option Nat
  /-- ns counter at its arrival -/
  arrived : Nat
  /-- the forwarding bound of R329 applies to it so far -/
  prompt : Bool
  deriving DecidableEq, Repr

/-- The ingress tap of a die. -/
structure Ing where
  up0     : Bool := false
  up1     : Bool := false
  streams : AMap StreamSt := []
  radio   : List Held := []
  sentinel : List Held := []
  /-- stamped frames accepted for forwarding, in the order in which they go -/
  queue   : List WaitFrame := []
  deriving DecidableEq, Repr

/-! ## The Warden (chapter 15) -/

/-- What a die hands its Warden channel between cycles (R316, R338, R368, R371, R374, R376). -/
inductive WdnEvent where
  /-- a committed verdict of a safety channel: channel, zone, verdict code, cause, canary batch, stop and limit of
  its permit, the slot its batch is timed from, and the symbol count at the commit -/
  | verdict (channel zone code cause : Nat) (canary stop : Bool) (limit slot at_ : Nat)
  /-- a Sentinel permit word: zone, stop, limit, slot count of its input frame -/
  | permit (zone : Nat) (stop : Bool) (limit slot : Nat)
  /-- a stage event of a watched channel's batch: 1 ingress, 2 compute, 3 arrival -/
  | stage (channel stage slot at_ : Nat)
  /-- a safety channel of a zone has become OPEN -/
  | watch (channel zone : Nat)
  /-- a channel has paused, or (gone) has closed or retired -/
  | lost (channel : Nat) (gone : Bool)
  /-- air-time has stepped -/
  | airStep
  /-- an S4 on this die -/
  | s4
  /-- BLK_ERR_FORCE of page 0x030 has forced a bit -/
  | forced (bit : Nat)
  /-- CAD asks for the dark test pulse of the safe outputs in a mask (R276) -/
  | pulse (mask : Nat)
  deriving DecidableEq, Repr

/-- WDN_STAT.state (R379). -/
inductive WdnState where
  | start | active | cfgFault | selfFault
  deriving DecidableEq, Repr

/-- Zone states (R372). -/
inductive ZoneState where
  | unused | brake | run | freewheel | kickstand
  deriving DecidableEq, Repr

/-- One zone of a channel (R370 to R372): the channel's own state, before R356. -/
structure Zone where
  state   : ZoneState := .unused
  cause   : Nat := 0
  index   : Nat := 0
  /-- it left RUN by a loss of inference: rearm applies -/
  byLoss  : Bool := false
  /-- a reset pulse has acted while it was in BRAKE -/
  resetOk : Bool := false
  /-- last permit limit received -/
  permit  : Nat := 0
  /-- the last Sentinel permit: stop, limit, slot count of its frame, symbol count when it was taken -/
  snt     : Option (Bool × Nat × Nat × Nat) := none
  /-- own limit in force, and its changes: (cycle, limit), newest first -/
  limit   : Nat := 0
  hist    : List (Nat × Nat) := []
  /-- consecutive cycles above the SLS bound -/
  slsRun  : Nat := 0
  /-- furthest position reached in the permitted direction since RUN was entered, µm -/
  far     : Int := 0
  /-- the zone was in RUN, as applied, in the last cycle -/
  ran     : Bool := false
  /-- cycle of the last entry into FREEWHEEL -/
  fwAt    : Nat := 0
  deriving DecidableEq, Repr

/-- One watch slot (R369, R370, R374). -/
structure Watch where
  channel : Nat
  zone    : Nat
  isOpen  : Bool := true
  /-- latest verdict: 0 none, else its code; its stop and limit -/
  code    : Nat := 0
  stop    : Bool := false
  limit   : Nat := 0
  /-- a window has expired since that verdict -/
  expired : Bool := false
  /-- consecutive PASS verdicts, with no window expired -/
  passes  : Nat := 0
  /-- last expiry -/
  stage   : Nat := 0
  /-- batches under way: slot and stages seen, bit n for stage n -/
  batches : List (Nat × Nat) := []
  deriving DecidableEq, Repr

/-- A crosslink frame (R354). -/
structure XFrame where
  cycle    : Nat
  word     : Nat
  contacts : Nat
  cmd      : Nat
  readback : Nat
  edm      : Nat
  counts   : Int
  zSeen    : Bool
  speed    : Int
  /-- per zone: state, permit validity, limit in force -/
  zones    : List (ZoneState × Bool × Nat)
  deriving DecidableEq, Repr

/-- One Warden channel (R353 to R379). -/
structure Wdn where
  state    : WdnState := .start
  /-- held in reset by a supply rail of its own below its threshold (R481) -/
  down     : Bool := false
  /-- payload of the warden table verified in Thaw; the profile in force -/
  table    : Bytes := []
  profile  : Bytes := []
  /-- switch word in force, and the word as last sampled -/
  word     : Nat := 0
  switches : Nat := 0
  switchDigest : Bytes := List.replicate 32 0
  events   : List WdnEvent := []
  /-- BLK_ERR condition bits of page 0x030 whose condition holds (R383) -/
  conds    : List Nat := []
  cycle    : Nat := 0
  /-- filtered own sides that are closed, and per input the cycles for which its contact has read otherwise -/
  sides    : Nat := 0
  sideRun  : List Nat := List.replicate 8 0
  /-- inputs closed under R361; inputs both of whose sides have been open since the demand; discrepancy timers -/
  closed   : Nat := 0
  bothOpen : Nat := 0
  discRun  : Nat := 0
  /-- inputs whose two sides have shown the same since the channel started -/
  agreed   : Nat := 0
  /-- outputs commanded on, pin levels, EDM inputs closed, as of the last cycle -/
  cmd      : Nat := 0
  readback : Nat := 0
  edm      : Nat := 0
  /-- per output: cycles since its command changed, mismatched cycles in a row, cycle of its last successful pulse -/
  sinceCmd : List Nat := [2, 2, 2, 2]
  misRun   : List Nat := [0, 0, 0, 0]
  pulseAt  : List Nat := [0, 0, 0, 0]
  /-- outputs whose EDM has still to follow a change of command -/
  edmWait  : Nat := 0
  /-- outputs whose EDM reads wrong and has been taken as a fault -/
  edmBad   : Nat := 0
  /-- the output whose dark test pulse runs, outputs that wait for one, and the cycle in which the last pulse ended -/
  testing  : Option Nat := none
  pulseReq : Nat := 0
  pulseEnd : Option Nat := none
  /-- encoder: last levels, count, Z reference, count per cycle over the speed window (newest first), speed -/
  encA     : Bool := false
  encB     : Bool := false
  encZ     : Bool := false
  counts   : Int := 0
  zAt      : Option Int := none
  track    : List Int := []
  speed    : Int := 0
  encRun   : Nat := 0
  referenced : Bool := false
  /-- internal time at which this channel last accepted a reset pulse that has not acted -/
  resetAt  : Option Nat := none
  xlinkUp  : Bool := false
  /-- valid peer frames in the running 100 ms, and the peer's cycle when this channel last looked for frames -/
  frames   : Nat := 0
  peerCycle : Nat := 0
  rx       : Option XFrame := none
  tx       : Option XFrame := none
  /-- the symbol count of the last tick, and whether ticks arrive -/
  sym      : Nat := 0
  tickOk   : Bool := false
  hostStop : Nat := 0
  zones    : List Zone := [{}, {}, {}, {}]
  watches  : AMap Watch := []
  lastCause : Nat := 0
  lastIndex : Nat := 0
  lastSlot : Nat := 0
  /-- WDN_SST_N is asserted -/
  sst      : Bool := true
  deriving DecidableEq, Repr


/-! ## Fault collection and memory health (chapter 16) -/

/-- FCU_FIRST or FCU_SECOND (R387). -/
structure Capture where
  valid  : Bool := false
  source : Nat := 0
  bit    : Nat := 0
  sev    : Nat := 0
  forced : Bool := false
  same   : Bool := false
  slot   : Nat := 0
  cyc    : Nat := 0
  deriving DecidableEq, Repr

/-- A BLK_ERR bit that has newly set and that FCU has not sampled yet (R381). -/
structure ErrEvent where
  page   : Nat
  bit    : Nat
  forced : Bool
  deriving DecidableEq, Repr

/-- The Fault Collector (R380 to R392, R402, R403). -/
structure Fcu where
  src      : Nat := 0
  /-- highest severity latched, per latched source -/
  sev      : AMap Nat := []
  first    : Capture := {}
  second   : Capture := {}
  echo     : Nat := 0
  pend     : List ErrEvent := []
  /-- FAULT_N is low -/
  asserted : Bool := true
  /-- form in force: true is alive (R390) -/
  alive    : Bool := false
  /-- the 20 µs minimum low time still runs (R388) -/
  minRun   : Bool := false
  /-- an acknowledge was accepted and waits for the minimum low time -/
  acked    : Bool := false
  /-- alive form: an unacknowledged S3 or S4 is latched -/
  stopped  : Bool := false
  /-- FAULT_N held low from Frost to the end of Thaw, or where R29 and R403 leave the die -/
  hold     : Bool := true
  /-- FAULT_N held low by the SYSCLK check (R485) -/
  sysHold  : Bool := false
  entries  : Nat := 0
  lastSrc  : Nat := 0
  held     : Bool := false
  /-- ns counter at each Autumn entry since Thaw, newest first -/
  entryNs  : List Nat := []
  /-- Autumn step reached: 0 outside Autumn, else 5 or 6 (R402) -/
  step     : Nat := 0
  /-- conditions present on FCU's own page (R383) -/
  clkLost  : Bool := false
  /-- a parity error stands in FCU state; no command reports one -/
  parityBad : Bool := false
  railBad  : Bool := false
  stalled  : Bool := false
  /-- REFCLK or SYSCLK out of tolerance -/
  sysclkOk : Bool := true
  tj       : Int := 0
  tjPeak   : Int := 0
  deriving DecidableEq, Repr

/-- One entry of SCB's tracking table (R398). -/
structure TrackEntry where
  kind   : MemKind
  row    : Nat
  word   : Nat
  synd   : Nat
  count  : Nat
  /-- pass in which the entry was set or last confirmed -/
  passNo : Nat
  /-- pass in which a correction was last seen in the row -/
  seen   : Nat
  rewritten : Bool
  deriving DecidableEq, Repr

/-- The memories' health: rows, repairs and the scrubber (R393 to R400, R407 to R409).
(DESIGN CHOICE, log entry 14) -/
structure MemHealth where
  track     : List TrackEntry := []
  passHbm   : Nat := 0
  passSram  : Nat := 0
  passHbmNs : Nat := 0
  passSramNs : Nat := 0
  lastHbmS  : Nat := 0
  lastSramMs : Nat := 0
  /-- rows waiting for their rewrite (R398) -/
  rewriteQ  : List (MemKind × Nat) := []
  /-- rows being spared (R399) -/
  sparing   : List (MemKind × Nat) := []
  /-- the owner of each HBM row under repair: 1 and a slot, or 2 and a channel -/
  spareOf   : AMap (Nat × Nat) := []
  /-- rows marked stuck that no spare could take -/
  stuckInService : List (MemKind × Nat) := []
  /-- spare SRAM rows left in each of the 16 banks (R399) -/
  spareLeft : List Nat := List.replicate 16 32
  pprUsed   : Nat := 0
  pprLeft   : Nat := 0
  trained   : Nat := 0
  tempC     : Nat := 0
  /-- records waiting to be appended to the unit-map extension (R400, R415) -/
  extQ      : List Bytes := []
  extRetry  : Bool := false
  /-- extents withdrawn when next released (R394, R400): owner kind (1 model slot, 2 channel), owner, extent -/
  withdrawn : List (Nat × Nat × Nat) := []
  deriving DecidableEq, Repr

/-! ## Identity, storage and sessions (chapter 17) -/

/-- What the RPMB block holds (R419). -/
structure Rpmb where
  bootNo  : Nat := 0
  month   : Nat := 0
  /-- floors of container types 1 to 5 -/
  svn     : List Nat := [0, 0, 0, 0, 0]
  owner   : Bytes := List.replicate 32 0
  deriving DecidableEq, Repr

/-- One RPMB write that waits or runs (R420): which field it raises and for whom. -/
inductive RpmbWrite where
  /-- the Month counter, for step 9 of an admission -/
  | admission (slot : Nat)
  /-- the Month counter, for a Month turn -/
  | turn (slot : Nat)
  /-- the floor of a container type -/
  | svn (kind value : Nat)
  /-- the owner digest, or zero; with the session and frame to answer -/
  | owner (digest : Bytes) (session seq : Nat)
  deriving DecidableEq, Repr

/-- A Pannier session, or one that has been answered with OPEN_ACK (R428, R429). -/
structure Session where
  id       : Nat
  role     : Nat
  /-- CONFIRM has opened it -/
  isOpen   : Bool := false
  client   : Bytes := []
  /-- T, which both signatures cover (R428) -/
  t        : Bytes := []
  kUp      : Bytes := []
  kDown    : Bytes := []
  /-- internal ns at OPEN_ACK, or of the last valid frame -/
  lastNs   : Nat := 0
  upHigh   : Nat := 0
  upSeen   : List Nat := []
  downSeq  : Nat := 1
  /-- RESULT frames of the last 64 requests, by seq, newest first -/
  cache    : List (Nat × Bytes) := []
  /-- internal ns of the last tag failures, newest first -/
  tagFails : List Nat := []
  sealsOn  : Bool := false
  deriving DecidableEq, Repr

/-- A bulk target being filled (R433): its declared size and the fragments so far. -/
structure Bulk where
  size  : Nat := 0
  parts : List (Nat × Bytes) := []
  /-- session that writes it -/
  owner : Nat := 0
  deriving DecidableEq, Repr

/-- KEY: the identity, the unit map in force, the storage behind it and the sessions (R410 to R439).
(DESIGN CHOICE, log entry 14) -/
structure KeyBlk where
  seed      : Bytes := []
  idSecret  : Bytes := []
  idPublic  : Bytes := []
  device    : Bytes := List.replicate 32 0
  rpmb      : Rpmb := {}
  /-- storage binding digest (R422) -/
  bind      : Bytes := []
  fwVersion : Nat := 0
  fwSlot    : Nat := 0
  fwSvn     : Nat := 0
  /-- payload digest of the unit map container -/
  mapPayload : Bytes := []
  mapDigest : Bytes := List.replicate 32 0
  /-- valid extension records in sequence order -/
  ext       : List Bytes := []
  /-- grade code of the seal header: [1:0] 1 -F, 2 -L; [2] -X -/
  grade     : Nat := 0
  pipes     : Nat := 0
  identityOk : Bool := false
  rpmbOk    : Bool := false
  storageNew : Bool := false
  /-- debug: 0 locked, 1 field, 2 factory -/
  debug     : Nat := 0
  nonce     : Bytes := List.replicate 16 0
  /-- trust list in force: (kind, key digest) -/
  trust     : Option (List (Nat × Bytes)) := none
  step      : Nat := 0
  cause     : Nat := 0
  corrected : Nat := 0
  sessions  : List Session := []
  /-- session id to give next -/
  nextId    : Nat := 1
  /-- internal ns of the OPEN frames answered in the last second, newest first -/
  opens     : List Nat := []
  writes    : List RpmbWrite := []
  /-- bulk targets 1, 2, 4 and 6; target 3 is the CAD load area -/
  bulk      : AMap Bulk := []
  /-- the ledger image of the last save, target 5 -/
  image     : Bytes := []
  /-- containers in flash by directory type; firmware by 16 + slot -/
  flash     : AMap Bytes := []
  deriving DecidableEq, Repr

/-! ## Peloton (chapter 18) -/

/-- One Peloton port (R442): its link, the neighbour that its last DISC named (digest and port), its latency L in
arithmetic cycles, and seq and send time of the ECHO that awaits its reply. -/
structure PelPort where
  up      : Bool := false
  nbr     : Option (Bytes × Nat) := none
  latency : Nat := 0
  echo    : Option (Nat × Nat) := none
  deriving DecidableEq, Repr

/-- What a TOPO message says of its origin (R443): digest, version, and per port the neighbour's digest (zeros for
none) and port. -/
structure TopoNode where
  digest  : Bytes
  version : Nat
  nbrs    : List (Bytes × Nat)
  deriving DecidableEq, Repr

/-- One Gate (R446, R447): 0 idle, 1 waiting, 2 released, 3 aborted; the arrivals a root holds and the time of the
first; the time at which a countdown ends. -/
structure Gate where
  state   : Nat := 0
  round   : Nat := 0
  arrived : List Nat := []
  firstAt : Nat := 0
  endsAt  : Option Nat := none
  /-- the own arrival of the round has been made -/
  own     : Bool := false
  capSlot : Nat := 0
  capNs   : Nat := 0
  deriving DecidableEq, Repr

/-- One link of a chain entry (R448): the ephemeral secret, the two CHAIN_OPEN bodies, the transcript T and key once
both are known, whether the peer has been authenticated, and the time of the last valid message. -/
structure ChainLink where
  peer   : Bytes
  secret : Bytes := []
  sent   : Bytes := []
  got    : Bytes := []
  t      : Bytes := []
  key    : Bytes := []
  isOpen : Bool := false
  last   : Nat := 0
  deriving DecidableEq, Repr

/-- A loaded chain entry (R448 to R451): its 160 bytes, its two links, the last digest of each pos with its flag, and
a switch that awaits its slot boundary. -/
structure Chain where
  bytes   : Bytes
  prev    : Option ChainLink := none
  next    : Option ChainLink := none
  digests : AMap (Nat × Bytes) := []
  swPrev  : Bool := false
  swNext  : Bool := false
  deriving DecidableEq, Repr

/-- The Peloton node of a die. (DESIGN CHOICE, log entry 15) -/
structure Pel where
  ports   : List PelPort := [{}, {}, {}]
  epoch   : Nat := 0
  /-- a formation runs: waits for quiet -/
  forming : Bool := false
  version : Nat := 0
  topo    : List TopoNode := []
  /-- digests of the nodes that hold ids, by id -/
  ids     : List Bytes := []
  seq     : Nat := 0
  gates   : List Gate := List.replicate 16 {}
  chains  : AMap Chain := []
  result  : Nat := 0
  deriving DecidableEq, Repr

/-! ## What leaves a die -/

/-- One thing a die sends. -/
inductive Out where
  /-- a flit on the Fjartar lanes of a half (R34) -/
  | flit (half : Nat) (bytes : Bytes)
  /-- a Spoke message of 96 bytes (R247) -/
  | spoke (bytes : Bytes)
  /-- a PTP event message (R340) -/
  | ptp (m : PtpSend)
  /-- a Pannier frame on the own host port (R427) -/
  | pannier (bytes : Bytes)
  /-- a Pannier frame with an R-TAG, on the own port or on the other die's (R345) -/
  | tagged (peer : Bool) (seq : Nat) (bytes : Bytes)
  /-- a Peloton message of 192 bytes on a port (R441) -/
  | pel (port : Nat) (bytes : Bytes)
  deriving DecidableEq, Repr

/-! ## A die, the package, the machine -/

/-- One die. (DESIGN CHOICE, log entries 7, 13) -/
structure Die where
  which : DieId
  phase : Phase := .frost
  phaseSlot : Nat := 0
  regs : RegFile := {}
  errs : AMap ErrPage := []
  wlk : Wlk := {}
  wrd : Wrd := {}
  chn : Chn := {}
  rat : Rat := {}
  adm : Adm := {}
  cad : Cad := {}
  sealing : Sealing := {}
  res : Tiles := {}
  bnd : Tiles := {}
  nle : Tiles := {}
  cwe : Tiles := {}
  snt : Tiles := {}
  shk : Tiles := {}
  sig : Tiles := {}
  vp : Vp := {}
  spk : Spk := {}
  dbg : Dbg := {}
  sntb : Snt := {}
  tim : Tim := {}
  hst : Hst := {}
  ing : Ing := {}
  wdn : Wdn := {}
  fcu : Fcu := {}
  mem : MemHealth := {}
  key : KeyBlk := {}
  pel : Pel := {}
  /-- op descriptors of the constant pools as far as engine instructions have read them, by slot × 2^64 + instruction word
  (R258) -/
  descs : AMap OpDesc := []
  /-- draws from the free values so far; the model's own field -/
  freeCtr : Nat := 0
  /-- what the die has sent, newest first -/
  out : List Out := []
  deriving DecidableEq, Repr

/-- The package's shared pins, rails and clocks (R476, R480, R484). (DESIGN CHOICE, log entry 13) -/
structure Package where
  refclkOk  : Bool := true
  /-- rails outside their tolerance, and rails below their reset threshold -/
  railsOut  : List Rail := []
  railsLow  : List Rail := []
  deriving DecidableEq, Repr

/-- The machine: the package, its two dies, and the commands that wait, first in first out.
(DESIGN CHOICE, log entries 2, 187) -/
structure State where
  pkg     : Package := {}
  dieA    : Die := { which := .a }
  dieB    : Die := { which := .b }
  pending : List Instr := []
  deriving DecidableEq, Repr

/-- Why the machine would stop with a fault. No rule of the spec stops it: every command has an effect. -/
inductive Fault where
  /-- raised by nothing; safe -/
  | never
  deriving DecidableEq, Repr

/-- Why the model gives a command no meaning. -/
inductive Refusal where
  /-- raised by an arm of `exec` whose command has no meaning yet; safe -/
  | notModelled (mnemonic : String)
  deriving DecidableEq, Repr

/-- The machine right after reset: RESET_N low, both dies in Frost, no command waiting (R29, R483).
(DESIGN CHOICE, log entries 13, 15) -/
def State.reset : State := {}

end Sys2Proof.Machine
end

