-- ==== Sys2Proof/Machine/RegTable.lean ====
section
/-! DEFINITION. The register table: every field that software may write, with its place, reset value, effect class
and clamp, every field that clears on read, and every BLK_ERR bit's severity, as the spec's register tables give
them. -/

namespace Sys2Proof.Machine

/-- Effect classes of a writable field (R13). -/
inductive Eff where
  | live | staged | static
  deriving DecidableEq, Repr

/-- A writable field: block code (R466), offset of its first register, how many registers repeat it, its lowest
bit, its width, its reset value, its effect, and its clamp range where the table gives one (R473). -/
structure FieldSpec where
  blk   : Nat
  off   : Nat
  count : Nat
  lo    : Nat
  wd    : Nat
  rst   : Nat
  eff   : Eff
  range : Option (Nat × Nat)
  deriving DecidableEq, Repr

/-- Writable fields of GLB. -/
def rwGlb : List FieldSpec := [
  ⟨1, 0x04C, 1, 0, 1, 0x0, .staged, none⟩]

/-- Writable fields of FCU. -/
def rwFcu : List FieldSpec := [
  ⟨2, 0x04C, 1, 0, 1, 0x0, .staged, none⟩,
  ⟨2, 0x04C, 1, 1, 3, 0x2, .staged, some (1, 4)⟩]

/-- Writable fields of TIM. -/
def rwTim : List FieldSpec := [
  ⟨3, 0x04C, 1, 0, 32, 0x9999999A, .live, none⟩,
  ⟨3, 0x058, 1, 0, 2, 0x0, .staged, none⟩,
  ⟨3, 0x058, 1, 2, 2, 0x1, .staged, none⟩,
  ⟨3, 0x05C, 1, 0, 16, 0x0, .staged, none⟩,
  ⟨3, 0x060, 2, 0, 32, 0x0, .staged, none⟩,
  ⟨3, 0x074, 1, 0, 1, 0x0, .staged, none⟩,
  ⟨3, 0x074, 1, 1, 1, 0x0, .staged, none⟩,
  ⟨3, 0x074, 1, 2, 1, 0x0, .live, none⟩,
  ⟨3, 0x074, 1, 8, 8, 0x0, .staged, none⟩,
  ⟨3, 0x074, 1, 16, 16, 0x64, .live, some (10, 10000)⟩,
  ⟨3, 0x078, 1, 0, 16, 0xFA, .live, some (20, 65535)⟩,
  ⟨3, 0x078, 1, 16, 16, 0x3E8, .live, some (100, 65535)⟩,
  ⟨3, 0x07C, 1, 0, 32, 0x0, .live, none⟩,
  ⟨3, 0x090, 1, 0, 3, 0x0, .live, none⟩,
  ⟨3, 0x094, 1, 0, 2, 0x0, .live, none⟩,
  ⟨3, 0x094, 1, 2, 4, 0x0, .live, some (0, 13)⟩,
  ⟨3, 0x098, 2, 0, 32, 0x0, .live, none⟩,
  ⟨3, 0x0A0, 1, 0, 32, 0x0, .live, none⟩]

/-- Writable fields of CAD. -/
def rwCad : List FieldSpec := [
  ⟨4, 0x040, 1, 0, 1, 0x1, .staged, none⟩]

/-- Writable fields of CHN. -/
def rwChn : List FieldSpec := [
  ⟨5, 0x048, 1, 0, 15, 0x0, .live, none⟩,
  ⟨5, 0x054, 1, 0, 32, 0x0, .live, none⟩,
  ⟨5, 0x100, 64, 0, 32, 0x0, .live, none⟩]

/-- Writable fields of RAT. -/
def rwRat : List FieldSpec := [
  ⟨6, 0x040, 1, 0, 10, 0x0, .live, none⟩,
  ⟨6, 0x044, 1, 0, 2, 0x0, .live, none⟩,
  ⟨6, 0x048, 1, 0, 32, 0x0, .live, none⟩,
  ⟨6, 0x04C, 1, 0, 32, 0x0, .live, none⟩]

/-- Writable fields of VP. -/
def rwVp : List FieldSpec := [
  ⟨7, 0x04C, 1, 16, 16, 0x3E8, .live, some (10, 60000)⟩]

/-- Writable fields of RES. -/
def rwRes : List FieldSpec := [
  ⟨8, 0x040, 1, 0, 1, 0x1, .live, none⟩,
  ⟨8, 0x040, 1, 16, 16, 0x3E8, .live, some (10, 60000)⟩]

/-- Writable fields of BND. -/
def rwBnd : List FieldSpec := [
  ⟨9, 0x040, 1, 0, 1, 0x1, .live, none⟩,
  ⟨9, 0x040, 1, 16, 16, 0x3E8, .live, some (10, 60000)⟩]

/-- Writable fields of NLE. -/
def rwNle : List FieldSpec := [
  ⟨10, 0x040, 1, 0, 1, 0x1, .live, none⟩,
  ⟨10, 0x040, 1, 16, 16, 0x3E8, .live, some (10, 60000)⟩]

/-- Writable fields of CWE. -/
def rwCwe : List FieldSpec := [
  ⟨11, 0x040, 1, 0, 1, 0x1, .live, none⟩,
  ⟨11, 0x040, 1, 16, 16, 0x3E8, .live, some (10, 60000)⟩,
  ⟨11, 0x064, 1, 0, 15, 0x0, .live, none⟩]

/-- Writable fields of SNT. -/
def rwSnt : List FieldSpec := [
  ⟨12, 0x040, 1, 0, 1, 0x1, .live, none⟩,
  ⟨12, 0x040, 1, 16, 16, 0x3E8, .live, some (10, 60000)⟩,
  ⟨12, 0x04C, 1, 0, 4, 0x0, .live, none⟩]

/-- Writable fields of SHK. -/
def rwShk : List FieldSpec := [
  ⟨13, 0x040, 1, 16, 16, 0x3E8, .live, some (10, 60000)⟩]

/-- Writable fields of SIG. -/
def rwSig : List FieldSpec := [
  ⟨14, 0x040, 1, 0, 14, 0x0, .staged, none⟩,
  ⟨14, 0x040, 1, 16, 8, 0x10, .live, some (1, 255)⟩]

/-- Writable fields of KEY. -/
def rwKey : List FieldSpec := [
  ⟨15, 0x0B8, 1, 16, 16, 0x600, .live, some (1, 3072)⟩]

/-- Writable fields of WLK. -/
def rwWlk : List FieldSpec := [
  ⟨16, 0x040, 1, 0, 2, 0x3, .static, none⟩,
  ⟨16, 0x044, 1, 0, 24, 0xFAC688, .static, none⟩,
  ⟨16, 0x044, 1, 24, 8, 0x0, .static, none⟩,
  ⟨16, 0x050, 1, 0, 8, 0x14, .live, some (5, 200)⟩,
  ⟨16, 0x054, 1, 0, 16, 0x64, .live, some (10, 10000)⟩,
  ⟨16, 0x058, 1, 0, 16, 0x40, .live, some (1, 65535)⟩,
  ⟨16, 0x05C, 1, 0, 10, 0x180, .static, some (64, 448)⟩,
  ⟨16, 0x05C, 1, 10, 10, 0x40, .static, some (16, 96)⟩,
  ⟨16, 0x05C, 1, 20, 10, 0x10, .static, some (8, 32)⟩,
  ⟨16, 0x060, 8, 0, 6, 0x4, .static, some (0, 16)⟩,
  ⟨16, 0x060, 8, 8, 6, 0x0, .static, some (0, 16)⟩,
  ⟨16, 0x0A0, 1, 0, 24, 0xFAC688, .static, none⟩,
  ⟨16, 0x0A0, 1, 24, 8, 0x0, .static, none⟩]

/-- Writable fields of WRD. -/
def rwWrd : List FieldSpec := [
  ⟨17, 0x040, 1, 0, 16, 0x3E8, .live, some (100, 10000)⟩]

/-- Writable fields of ING. -/
def rwIng : List FieldSpec := [
  ⟨18, 0x040, 1, 0, 1, 0x0, .static, none⟩,
  ⟨18, 0x040, 1, 1, 1, 0x0, .static, none⟩,
  ⟨18, 0x040, 1, 2, 12, 0x0, .static, some (1, 4094)⟩,
  ⟨18, 0x044, 1, 0, 32, 0x0, .static, none⟩,
  ⟨18, 0x048, 1, 0, 16, 0x0, .static, none⟩,
  ⟨18, 0x04C, 1, 0, 32, 0x0, .static, none⟩,
  ⟨18, 0x054, 1, 0, 4, 0x0, .live, none⟩,
  ⟨18, 0x058, 1, 0, 1, 0x0, .staged, none⟩,
  ⟨18, 0x058, 1, 1, 1, 0x0, .staged, none⟩,
  ⟨18, 0x058, 1, 2, 2, 0x1, .staged, none⟩,
  ⟨18, 0x05C, 1, 0, 16, 0x0, .staged, none⟩,
  ⟨18, 0x05C, 1, 16, 8, 0x0, .staged, none⟩,
  ⟨18, 0x060, 1, 0, 16, 0x3E8, .staged, some (1, 65535)⟩,
  ⟨18, 0x060, 1, 16, 16, 0xA, .staged, some (0, 1000)⟩,
  ⟨18, 0x064, 1, 0, 32, 0x0, .staged, some (0, 10000000)⟩,
  ⟨18, 0x068, 1, 0, 24, 0x3E8, .staged, some (10, 1000000)⟩]

/-- Writable fields of HST. -/
def rwHst : List FieldSpec := [
  ⟨19, 0x040, 1, 0, 1, 0x0, .static, none⟩,
  ⟨19, 0x040, 1, 1, 1, 0x0, .staged, none⟩,
  ⟨19, 0x040, 1, 2, 1, 0x0, .staged, none⟩,
  ⟨19, 0x044, 1, 0, 32, 0x0, .static, none⟩,
  ⟨19, 0x048, 1, 0, 16, 0x0, .static, none⟩,
  ⟨19, 0x04C, 1, 0, 32, 0x0, .static, none⟩,
  ⟨19, 0x054, 1, 0, 1, 0x0, .staged, none⟩,
  ⟨19, 0x054, 1, 1, 6, 0x1, .live, some (1, 32)⟩,
  ⟨19, 0x058, 1, 0, 32, 0xF4240, .live, some (10000, 1000000000)⟩,
  ⟨19, 0x05C, 2, 0, 32, 0x0, .live, none⟩,
  ⟨19, 0x064, 1, 0, 4, 0x0, .live, none⟩,
  ⟨19, 0x068, 1, 0, 12, 0x0, .live, none⟩,
  ⟨19, 0x068, 1, 12, 3, 0x0, .live, none⟩,
  ⟨19, 0x068, 1, 15, 1, 0x1, .live, none⟩,
  ⟨19, 0x068, 1, 16, 1, 0x0, .live, none⟩,
  ⟨19, 0x06C, 1, 0, 16, 0x3E8, .live, some (1, 10000)⟩,
  ⟨19, 0x06C, 1, 16, 16, 0x40, .live, some (1, 65535)⟩,
  ⟨19, 0x070, 1, 0, 14, 0x2580, .live, some (64, 9600)⟩,
  ⟨19, 0x100, 32, 0, 4, 0xF, .live, none⟩,
  ⟨19, 0x100, 32, 4, 28, 0xF4240, .live, some (64, 268435455)⟩]

/-- Writable fields of PEL. -/
def rwPel : List FieldSpec := [
  ⟨20, 0x040, 1, 0, 1, 0x0, .static, none⟩,
  ⟨20, 0x084, 1, 0, 8, 0xA, .live, some (1, 255)⟩,
  ⟨20, 0x084, 1, 8, 8, 0xA, .live, some (2, 255)⟩,
  ⟨20, 0x084, 1, 16, 16, 0x3E8, .live, some (10, 65535)⟩,
  ⟨20, 0x08C, 1, 0, 7, 0x0, .live, none⟩,
  ⟨20, 0x094, 1, 0, 4, 0x0, .live, none⟩,
  ⟨20, 0x098, 1, 0, 1, 0x0, .staged, none⟩,
  ⟨20, 0x098, 1, 1, 1, 0x0, .staged, none⟩,
  ⟨20, 0x098, 1, 2, 3, 0x0, .staged, none⟩,
  ⟨20, 0x098, 1, 5, 1, 0x0, .staged, none⟩,
  ⟨20, 0x09C, 4, 0, 32, 0x0, .staged, none⟩,
  ⟨20, 0x0AC, 1, 0, 32, 0x0, .staged, none⟩,
  ⟨20, 0x100, 40, 0, 32, 0x0, .live, none⟩]

/-- Writable fields of SPK. -/
def rwSpk : List FieldSpec := [
  ⟨21, 0x040, 1, 0, 14, 0x1F4, .staged, some (100, 10000)⟩]

/-- Writable fields of SCB. -/
def rwScb : List FieldSpec := [
  ⟨24, 0x040, 1, 0, 16, 0x258, .live, some (10, 65535)⟩,
  ⟨24, 0x040, 1, 16, 16, 0x3E8, .live, some (10, 60000)⟩]

/-- Writable fields of WDN. -/
def rwWdn : List FieldSpec := [
  ⟨27, 0x07C, 1, 0, 4, 0x0, .live, none⟩]

/-- Writable fields of DBG. -/
def rwDbg : List FieldSpec := [
  ⟨26, 0x040, 1, 0, 3, 0x0, .live, none⟩,
  ⟨26, 0x04C, 1, 0, 15, 0x0, .live, none⟩,
  ⟨26, 0x04C, 1, 15, 1, 0x0, .live, none⟩]

/-- Every writable field of the device. -/
def rwFields : List FieldSpec :=
  rwGlb ++ rwFcu ++ rwTim ++ rwCad ++ rwChn ++ rwRat ++ rwVp ++ rwRes ++ rwBnd ++ rwNle ++ rwCwe ++ rwSnt ++ rwShk ++ rwSig ++ rwKey ++ rwWlk ++ rwWrd ++ rwIng ++ rwHst ++ rwPel ++ rwSpk ++ rwScb ++ rwWdn ++ rwDbg

/-- Fields that clear on read: block code, first offset, registers, lowest bit, width. -/
def rcGlb : List (Nat × Nat × Nat × Nat × Nat) := [
  (1, 0x05C, 1, 8, 8)]

/-- Fields that clear on read. -/
def rcFcu : List (Nat × Nat × Nat × Nat × Nat) := [
  (2, 0x078, 5, 0, 32),
  (2, 0x08C, 1, 0, 32)]

/-- Fields that clear on read. -/
def rcTim : List (Nat × Nat × Nat × Nat × Nat) := [
  (3, 0x0B0, 1, 0, 32),
  (3, 0x0B4, 1, 0, 32)]

/-- Fields that clear on read. -/
def rcCad : List (Nat × Nat × Nat × Nat × Nat) := [
  (4, 0x07C, 1, 0, 24),
  (4, 0x080, 1, 0, 32),
  (4, 0x084, 1, 0, 32),
  (4, 0x088, 1, 0, 32),
  (4, 0x08C, 1, 0, 32)]

/-- Fields that clear on read. -/
def rcChn : List (Nat × Nat × Nat × Nat × Nat) := [
  (5, 0x05C, 1, 16, 15),
  (5, 0x060, 1, 16, 10),
  (5, 0x064, 1, 0, 32),
  (5, 0x068, 1, 0, 32)]

/-- Fields that clear on read. -/
def rcRat : List (Nat × Nat × Nat × Nat × Nat) := [
  (6, 0x050, 1, 0, 32),
  (6, 0x054, 1, 0, 32)]

/-- Fields that clear on read. -/
def rcVp : List (Nat × Nat × Nat × Nat × Nat) := [
  (7, 0x058, 1, 0, 32),
  (7, 0x05C, 1, 0, 32),
  (7, 0x060, 1, 0, 32)]

/-- Fields that clear on read. -/
def rcRes : List (Nat × Nat × Nat × Nat × Nat) := [
  (8, 0x070, 1, 0, 32),
  (8, 0x074, 1, 0, 32),
  (8, 0x078, 1, 0, 32)]

/-- Fields that clear on read. -/
def rcBnd : List (Nat × Nat × Nat × Nat × Nat) := [
  (9, 0x074, 1, 0, 32),
  (9, 0x078, 1, 0, 32),
  (9, 0x07C, 1, 0, 32),
  (9, 0x080, 1, 0, 32)]

/-- Fields that clear on read. -/
def rcNle : List (Nat × Nat × Nat × Nat × Nat) := [
  (10, 0x074, 1, 0, 32),
  (10, 0x078, 1, 0, 32),
  (10, 0x07C, 1, 0, 32),
  (10, 0x080, 1, 0, 32),
  (10, 0x084, 1, 0, 32)]

/-- Fields that clear on read. -/
def rcCwe : List (Nat × Nat × Nat × Nat × Nat) := [
  (11, 0x088, 1, 0, 32),
  (11, 0x08C, 1, 0, 32),
  (11, 0x090, 1, 0, 32),
  (11, 0x094, 1, 0, 32),
  (11, 0x098, 1, 0, 32)]

/-- Fields that clear on read. -/
def rcSnt : List (Nat × Nat × Nat × Nat × Nat) := [
  (12, 0x064, 1, 0, 32),
  (12, 0x068, 1, 0, 32),
  (12, 0x06C, 1, 0, 32)]

/-- Fields that clear on read. -/
def rcShk : List (Nat × Nat × Nat × Nat × Nat) := [
  (13, 0x054, 1, 0, 32),
  (13, 0x058, 1, 0, 32),
  (13, 0x05C, 1, 0, 32)]

/-- Fields that clear on read. -/
def rcSig : List (Nat × Nat × Nat × Nat × Nat) := [
  (14, 0x060, 1, 0, 32),
  (14, 0x064, 1, 0, 32),
  (14, 0x068, 1, 0, 32),
  (14, 0x06C, 1, 0, 32)]

/-- Fields that clear on read. -/
def rcKey : List (Nat × Nat × Nat × Nat × Nat) := [
  (15, 0x0C0, 1, 0, 32),
  (15, 0x0C4, 1, 0, 32),
  (15, 0x0C8, 1, 0, 32)]

/-- Fields that clear on read. -/
def rcWlk : List (Nat × Nat × Nat × Nat × Nat) := [
  (16, 0x080, 1, 0, 32),
  (16, 0x084, 1, 0, 32),
  (16, 0x088, 1, 0, 32),
  (16, 0x08C, 1, 0, 32),
  (16, 0x090, 1, 0, 32)]

/-- Fields that clear on read. -/
def rcWrd : List (Nat × Nat × Nat × Nat × Nat) := [
  (17, 0x048, 1, 0, 32),
  (17, 0x04C, 1, 0, 32),
  (17, 0x050, 1, 0, 32),
  (17, 0x054, 1, 0, 32),
  (17, 0x064, 6, 16, 16)]

/-- Fields that clear on read. -/
def rcIng : List (Nat × Nat × Nat × Nat × Nat) := [
  (18, 0x080, 1, 0, 32),
  (18, 0x084, 8, 0, 32),
  (18, 0x0A4, 1, 0, 32),
  (18, 0x0A8, 1, 0, 16)]

/-- Fields that clear on read. -/
def rcHst : List (Nat × Nat × Nat × Nat × Nat) := [
  (19, 0x074, 1, 0, 32),
  (19, 0x078, 1, 0, 32),
  (19, 0x07C, 1, 0, 32),
  (19, 0x080, 1, 0, 32),
  (19, 0x084, 1, 0, 32)]

/-- Fields that clear on read. -/
def rcPel : List (Nat × Nat × Nat × Nat × Nat) := [
  (20, 0x048, 1, 0, 32),
  (20, 0x04C, 1, 0, 32),
  (20, 0x050, 1, 0, 32),
  (20, 0x0CC, 1, 0, 32),
  (20, 0x0D0, 1, 0, 32),
  (20, 0x0D4, 1, 0, 32)]

/-- Fields that clear on read. -/
def rcSpk : List (Nat × Nat × Nat × Nat × Nat) := [
  (21, 0x048, 1, 16, 16),
  (21, 0x04C, 1, 0, 32),
  (21, 0x050, 1, 0, 32),
  (21, 0x054, 1, 0, 32),
  (21, 0x058, 1, 0, 32)]

/-- Fields that clear on read. -/
def rcHbm : List (Nat × Nat × Nat × Nat × Nat) := [
  (22, 0x050, 1, 0, 32),
  (22, 0x054, 1, 0, 32),
  (22, 0x058, 1, 0, 32)]

/-- Fields that clear on read. -/
def rcMem : List (Nat × Nat × Nat × Nat × Nat) := [
  (23, 0x048, 1, 0, 32),
  (23, 0x04C, 1, 0, 32)]

/-- Fields that clear on read. -/
def rcScb : List (Nat × Nat × Nat × Nat × Nat) := [
  (24, 0x04C, 1, 0, 32),
  (24, 0x050, 1, 0, 32),
  (24, 0x054, 1, 0, 32),
  (24, 0x058, 1, 0, 32)]

/-- Fields that clear on read. -/
def rcWdn : List (Nat × Nat × Nat × Nat × Nat) := [
  (25, 0x078, 1, 0, 32),
  (25, 0x07C, 1, 0, 32),
  (25, 0x080, 1, 0, 32),
  (27, 0x088, 1, 0, 32),
  (27, 0x08C, 1, 0, 32),
  (27, 0x090, 1, 0, 32)]

/-- Every field that clears on read. -/
def rcFields : List (Nat × Nat × Nat × Nat × Nat) :=
  rcGlb ++ rcFcu ++ rcTim ++ rcCad ++ rcChn ++ rcRat ++ rcVp ++ rcRes ++ rcBnd ++ rcNle ++ rcCwe ++ rcSnt ++ rcShk ++ rcSig ++ rcKey ++ rcWlk ++ rcWrd ++ rcIng ++ rcHst ++ rcPel ++ rcSpk ++ rcHbm ++ rcMem ++ rcScb ++ rcWdn

/-! ## Pages (R24, R466) -/

/-- BLK_ID code of a page; 0 for a page that R24 does not list. -/
def blkCode (page : Nat) : Nat :=
  if page = 0x000 then 1 else if page = 0x001 then 2 else if page = 0x002 then 3
  else if page = 0x003 then 4 else if page = 0x004 then 5
  else if 0x005 ≤ page ∧ page ≤ 0x008 then 6 else if 0x010 ≤ page ∧ page ≤ 0x015 then 7
  else if 0x018 ≤ page ∧ page ≤ 0x021 then page - 0x010
  else if page = 0x022 ∨ page = 0x023 then 0x12 else if page = 0x024 then 0x13
  else if 0x025 ≤ page ∧ page ≤ 0x027 then 0x14
  else if 0x028 ≤ page ∧ page ≤ 0x02B then page - 0x013
  else if page = 0x030 ∨ page = 0x031 then 0x19 else if page = 0x03F then 0x1A else 0

/-- Instance number of a page among the pages of its block (R466). -/
def blkInstance (page : Nat) : Nat :=
  if 0x005 ≤ page ∧ page ≤ 0x008 then page - 0x005 else if 0x010 ≤ page ∧ page ≤ 0x015 then page - 0x010
  else if page = 0x023 ∨ page = 0x026 ∨ page = 0x031 then 1 else if page = 0x027 then 2 else 0

/-- Block code under which a page's fields stand in the tables above: the second Warden page has its own. -/
def tabCode (page : Nat) : Nat := if page = 0x031 then 27 else blkCode page

/-- The pages, by name. -/
def pGLB : Nat := 0x000
def pFCU : Nat := 0x001
def pTIM : Nat := 0x002
def pCAD : Nat := 0x003
def pCHN : Nat := 0x004
def pRAT : Nat := 0x005
def pVP  : Nat := 0x010
def pRES : Nat := 0x018
def pBND : Nat := 0x019
def pNLE : Nat := 0x01A
def pCWE : Nat := 0x01B
def pSNT : Nat := 0x01C
def pSHK : Nat := 0x01D
def pSIG : Nat := 0x01E
def pKEY : Nat := 0x01F
def pWLK : Nat := 0x020
def pWRD : Nat := 0x021
def pING : Nat := 0x022
def pHST : Nat := 0x024
def pPEL : Nat := 0x025
def pSPK : Nat := 0x028
def pHBM : Nat := 0x029
def pMEM : Nat := 0x02A
def pSCB : Nat := 0x02B
def pWDN : Nat := 0x030
def pDBG : Nat := 0x03F

/-! ## Severities of the BLK_ERR bits -/

/-- Severity of each BLK_ERR bit of a block, bit 0 first: R405, R349, R281, R298, R300, R251, R139, R161, R163,
R186, R318, R226, R229, R438, R53, R92, R347, R351, R453, R253, R408, R407, R409, R378. -/
def sevTable (blk : Nat) : List Nat :=
  match blk with
  | 2 => [4, 4, 4, 0, 4, 4]
  | 3 => [0, 0, 0, 0, 0, 0, 0]
  | 4 => [1, 0, 1, 2, 0, 0, 0, 1, 4]
  | 5 => [1, 3, 0, 0, 1]
  | 6 => [0, 0]
  | 7 => [1, 1, 2, 2, 0, 2, 2, 0]
  | 8 => [1, 2, 0, 2, 3, 2, 2, 0]
  | 9 => [1, 2, 0, 2, 3, 2, 0]
  | 10 => [1, 2, 0, 2, 3, 0]
  | 11 => [1, 2, 0, 2, 3, 2, 0, 0, 0]
  | 12 => [1, 2, 0, 2, 3, 2]
  | 13 => [1, 2, 0, 3, 4]
  | 14 => [1, 1, 2, 4, 0, 0]
  | 15 => [0, 0, 1, 2, 0, 0, 0, 0, 2, 4]
  | 16 => [0, 1, 1, 1, 1, 2, 2]
  | 17 => [0, 0, 1, 1, 1, 0]
  | 18 => [0, 0, 0, 0, 0, 0, 0, 0, 0, 0]
  | 19 => [0, 0, 0]
  | 20 => [0, 0, 0, 0, 0, 0, 0, 0, 0]
  | 21 => [0, 0, 2, 1, 0, 0]
  | 22 => [0, 1, 0, 2, 0, 0, 4]
  | 23 => [0, 1, 0, 2, 4]
  | 24 => [0, 0, 1, 0, 2, 1]
  | 25 => [0, 2, 0, 0, 0, 0, 0, 0, 1, 2, 2, 2, 2, 0, 0, 0]
  | _ => []

/-- Severities of the BLK_ERR bits of a page: page 0x031 has none, its errors stand on page 0x030 (R378, R380). -/
def sevRow (page : Nat) : List Nat := if page = pWDN + 1 then [] else sevTable (blkCode page)

/-- Severity of a BLK_ERR bit of a page, or none where the bit is reserved. -/
def sevOf (page bit : Nat) : Option Nat := (sevRow page)[bit]?

/-- Mask of the bits of a page that exist. -/
def errBits (page : Nat) : Nat := 2 ^ (sevRow page).length - 1

/-- Mask of the bits of a page that BLK_ERR_MASK may mask: severities S0 and S1 (R382). -/
def maskable (page : Nat) : Nat :=
  ((sevRow page).zipIdx).foldl (fun a p => if p.1 ≤ 1 then a + 2 ^ p.2 else a) 0

end Sys2Proof.Machine
end

