-- ==== Sys2Proof/Machine/Ops.lean ====
section
/-! DEFINITION. The shared operations: acting on one die, register fields, counters, captured words, BLK_ERR and
its events, what a die sends, free values, and the clocks a die keeps. -/

namespace Sys2Proof.Machine

/-! ## Dies -/

/-- A die of the machine. -/
def State.die (s : State) : DieId → Die
  | .a => s.dieA
  | .b => s.dieB

/-- Replace a die of the machine. -/
def State.setDie (s : State) (d : DieId) (x : Die) : State :=
  match d with
  | .a => { s with dieA := x }
  | .b => { s with dieB := x }

/-- Act on one die; everything else stays. -/
def onDie (d : DieId) (f : Die → Die) (s : State) : State := s.setDie d (f (s.die d))

/-- A command's effect on one die, as the outcome of `exec`: a command of the block always has a next state. -/
def runDie (d : DieId) (f : Die → Die) (s : State) : Host.Outcome State Fault Refusal :=
  .next (onDie d f s)

/-! ## Parts of a die -/

/-- Change the regs part of a die. -/
def updRegs (f : RegFile → RegFile) (d : Die) : Die := { d with regs := f d.regs }

/-- Change the fcu part of a die. -/
def updFcu (f : Fcu → Fcu) (d : Die) : Die := { d with fcu := f d.fcu }

/-- Change the mem part of a die. -/
def updMem (f : MemHealth → MemHealth) (d : Die) : Die := { d with mem := f d.mem }

/-- Change the wlk part of a die. -/
def updWlk (f : Wlk → Wlk) (d : Die) : Die := { d with wlk := f d.wlk }

/-- Change the wrd part of a die. -/
def updWrd (f : Wrd → Wrd) (d : Die) : Die := { d with wrd := f d.wrd }

/-- Change the chn part of a die. -/
def updChn (f : Chn → Chn) (d : Die) : Die := { d with chn := f d.chn }

/-- Change the rat part of a die. -/
def updRat (f : Rat → Rat) (d : Die) : Die := { d with rat := f d.rat }

/-- Change the adm part of a die. -/
def updAdm (f : Adm → Adm) (d : Die) : Die := { d with adm := f d.adm }

/-- Change the cad part of a die. -/
def updCad (f : Cad → Cad) (d : Die) : Die := { d with cad := f d.cad }

/-- Change the sealing part of a die. -/
def updSealing (f : Sealing → Sealing) (d : Die) : Die := { d with sealing := f d.sealing }

/-- Change the vp part of a die. -/
def updVp (f : Vp → Vp) (d : Die) : Die := { d with vp := f d.vp }

/-- Change the spk part of a die. -/
def updSpk (f : Spk → Spk) (d : Die) : Die := { d with spk := f d.spk }

/-- Change the dbg part of a die. -/
def updDbg (f : Dbg → Dbg) (d : Die) : Die := { d with dbg := f d.dbg }

/-- Change the tim part of a die. -/
def updTim (f : Tim → Tim) (d : Die) : Die := { d with tim := f d.tim }

/-- Change the hst part of a die. -/
def updHst (f : Hst → Hst) (d : Die) : Die := { d with hst := f d.hst }

/-- Change the key part of a die. -/
def updKey (f : KeyBlk → KeyBlk) (d : Die) : Die := { d with key := f d.key }

/-- Change the Sentinel part of a die. -/
def updSnt (f : Snt → Snt) (d : Die) : Die := { d with sntb := f d.sntb }

/-- Change the ingress part of a die. -/
def updIng (f : Ing → Ing) (d : Die) : Die := { d with ing := f d.ing }

/-- Change the Warden part of a die. -/
def updWdn (f : Wdn → Wdn) (d : Die) : Die := { d with wdn := f d.wdn }

/-- Change the Peloton part of a die. -/
def updPel (f : Pel → Pel) (d : Die) : Die := { d with pel := f d.pel }

/-- An owner of HBM extents releases them: those marked bad are withdrawn from the pool (R394, R400). Owner kinds: 1 a
model slot, 2 a channel. -/
def releaseExtents (kind owner : Nat) (d : Die) : Die :=
  let mine (e : Nat × Nat × Nat) : Bool := e.1 == kind && e.2.1 == owner
  let n : Nat := (d.mem.withdrawn.filter mine).length
  updAdm (fun a => { a with withdrawnExtents := a.withdrawnExtents + n })
    (updMem (fun m => { m with withdrawn := m.withdrawn.filter (fun e => !mine e) }) d)

/-! ## Output and free values -/

/-- Send something. (DESIGN CHOICE, log entry 7) -/
def emit (o : Out) (d : Die) : Die := { d with out := o :: d.out }

/-- The number of a die's next free draw: even numbers for die A, odd for die B. (DESIGN CHOICE, log entry 6) -/
def drawNo (d : Die) : Nat := 2 * d.freeCtr + d.which.num

/-- The value that the next free draw gives. (DESIGN CHOICE, log entry 6) -/
def freeNat (d : Die) : Nat := Config.freeValue (drawNo d)

/-- Fresh random bytes of the next free draw. (DESIGN CHOICE, log entry 6) -/
def freeStr (n : Nat) (d : Die) : Bytes := fitTo n (Config.freeBytes (drawNo d) n)

/-- A free draw has been used. -/
def drew (d : Die) : Die := { d with freeCtr := d.freeCtr + 1 }

/-! ## Register fields -/

/-- Key of a field in the register file: selector, page, offset, lowest bit. -/
def fkey (sel page off lo : Nat) : Nat := ((sel * 64 + page) * 4096 + off) * 32 + lo

/-- The table's fields at an offset of a page. -/
def fieldsAt (page off : Nat) : List FieldSpec :=
  rwFields.filter (fun f => f.blk == tabCode page && f.off ≤ off && off < f.off + 4 * f.count
    && (off - f.off) % 4 == 0)

/-- Reset value of a field. -/
def rstOf (page off lo : Nat) : Nat :=
  match (fieldsAt page off).find? (fun f => f.lo == lo) with
  | some f => f.rst
  | none => 0

/-- The value in force of a writable field (R470). -/
def fieldSel (d : Die) (sel page off lo : Nat) : Nat :=
  mgetD d.regs.live (fkey sel page off lo) (rstOf page off lo)

/-- The value in force of a field of an unselected register. -/
def field (d : Die) (page off lo : Nat) : Nat := fieldSel d 0 page off lo

/-- Put a value in force. -/
def setField (sel page off lo v : Nat) (d : Die) : Die :=
  { d with regs := { d.regs with live := mset d.regs.live (fkey sel page off lo) v } }

/-- Key of a counter or captured word. -/
def wkey (page off : Nat) : Nat := page * 4096 + off

/-- Count once in a 32-bit saturating counter. -/
def count (page off : Nat) (d : Die) : Die :=
  { d with regs := { d.regs with cnt := mset d.regs.cnt (wkey page off) (sat32 (mgetD d.regs.cnt (wkey page off) 0)) } }

/-- Count `n` times. -/
def countN (page off n : Nat) (d : Die) : Die :=
  let v := min 4294967295 (mgetD d.regs.cnt (wkey page off) 0 + n)
  { d with regs := { d.regs with cnt := mset d.regs.cnt (wkey page off) v } }

/-- Raise a peak register to a value if it is larger. -/
def peak (page off v : Nat) (d : Die) : Die :=
  { d with regs := { d.regs with cnt := mset d.regs.cnt (wkey page off) (max v (mgetD d.regs.cnt (wkey page off) 0)) } }

/-- The captured word of a register. -/
def capOf (d : Die) (page off : Nat) : Nat := mgetD d.regs.cap (wkey page off) 0

/-- Store a captured word. -/
def setCap (page off v : Nat) (d : Die) : Die :=
  { d with regs := { d.regs with cap := mset d.regs.cap (wkey page off) v } }

/-- The capture whose valid bit 31 is at `off` is free to take a new event. -/
def capFree (d : Die) (page off : Nat) : Bool := !tst (capOf d page off) 31

/-! ## Clocks (R332, R334) -/

/-- Length of a slot at a numerology, ns. -/
def slotNs (mu : Nat) : Nat := 1000000 / 2 ^ mu

/-- Air-time slot count. -/
def slotCountOf (t : Tim) : Nat := w32 (t.air / slotNs t.mu)

/-- Symbol of the running slot. -/
def symbolOf (t : Tim) : Nat := 14 * (t.air % slotNs t.mu) / slotNs t.mu

/-- The die's slot count now. -/
def slotCount (d : Die) : Nat := slotCountOf d.tim

/-- The airtime word of a stamp: symbol [3:0], slot [10:4], SFN [20:11], HFN [30:21] (R84, R334). -/
def airPos (t : Tim) : Nat :=
  symbolOf t + 16 * (t.air / slotNs t.mu % (10 * 2 ^ t.mu)) + 2048 * (t.air / 10000000 % 1024)
    + 2097152 * (t.air / 10000000 / 1024 % 1024)

/-- FCU cycles since Thaw: 10 ns each (R380). -/
def fcuCycle (d : Die) : Nat := d.tim.up / 10

/-- Signed 32-bit difference of two slot counts (R15). -/
def slotDiff (a b : Nat) : Int := sgn 32 ((a + 4294967296 - b % 4294967296) % 4294967296)

/-- Control-fabric cycles of air-time since a slot began, at 1.1 GHz (R265). -/
def cyclesSince (d : Die) (slotStart : Nat) : Nat := (d.tim.air - slotStart) * 11 / 10

/-! ## BLK_ERR (R380 to R383, R467) -/

/-- A page's error state. -/
def errPage (d : Die) (page : Nat) : ErrPage := mgetD d.errs page {}

/-- Replace a page's error state. -/
def setErrPage (page : Nat) (e : ErrPage) (d : Die) : Die := { d with errs := mset d.errs page e }

/-- The VP page of a pipeline the unit map disables, or a page no table lists (R25). -/
def pageAbsent (d : Die) (page : Nat) : Bool :=
  blkCode page == 0 ||
    (blkCode page == 7 && !((d.vp.pipes[page - pVP]?).map (fun p => p.enabled)).getD false)

/-- One event on a bit of a page that exists: set it; on a transition from clear to set, take BLK_ERR_FIRST or
count in its field more, and hand the event to FCU (R381, R467). -/
def raiseBit (page : Nat) (forced : Bool) (d : Die) (bit : Nat) : Die :=
  let e := errPage d page
  if tst e.err bit then
    -- a real cause of a bit a force had set makes the fault real (R392)
    if !forced && tst e.forced bit then setErrPage page { e with forced := e.forced - 2 ^ bit } d else d
  else
    let e := { e with err := e.err + 2 ^ bit, forced := if forced then e.forced + 2 ^ bit else e.forced }
    let e := if e.fValid then { e with fMore := min 255 (e.fMore + 1) }
      else { e with fValid := true, fBit := bit, fForced := forced, fMore := 0 }
    let d := setErrPage page e d
    { d with fcu := { d.fcu with pend := d.fcu.pend ++ [{ page := page, bit := bit, forced := forced }] } }

/-- Bits of one cycle in the order BLK_ERR_FIRST ranks them: higher severity, then lower bit number (R467). -/
def rankBits (page : Nat) (bits : List Nat) : List Nat :=
  bits.mergeSort (fun a b =>
    let sa := (sevOf page a).getD 0
    let sb := (sevOf page b).getD 0
    sa > sb || (sa == sb && a ≤ b))

/-- Several events on a page in one of its cycles. -/
def raiseAll (page : Nat) (bits : List Nat) (forced : Bool) (d : Die) : Die :=
  if pageAbsent d page then d
  else (rankBits page (bits.filter (fun b => (sevOf page b).isSome))).foldl (raiseBit page forced) d

/-- A real event on one bit of a page. (DESIGN CHOICE, log entry 8) -/
def raise (page bit : Nat) (d : Die) : Die := raiseAll page [bit] false d

/-- Clear bits of a page. -/
def clearErr (page mask : Nat) (d : Die) : Die :=
  let e := errPage d page
  setErrPage page { e with err := e.err &&& (0xFFFFFFFF ^^^ mask), forced := e.forced &&& (0xFFFFFFFF ^^^ mask) } d

/-- A bit of a page is set. -/
def errSet (d : Die) (page bit : Nat) : Bool := tst (errPage d page).err bit

/-! ## Pipelines and groups (R231, R232) -/

/-- A pipeline of a die. -/
def pipe (d : Die) (n : Nat) : Pipe := (d.vp.pipes[n]?).getD { enabled := false }

/-- Change a pipeline. -/
def modPipe (n : Nat) (f : Pipe → Pipe) (d : Die) : Die :=
  { d with vp := { d.vp with pipes := d.vp.pipes.modify n f } }

/-- The pipelines of the group a lead leads, retired members left out. -/
def members (d : Die) (lead : Nat) : List Nat :=
  (List.range 6).filter (fun n => (pipe d n).enabled && !(pipe d n).retired && (pipe d n).lead == lead)

/-- A number names a group in service: that of the pipeline that led it when it was formed, which may have retired since
from a triple. (DEDUCED, log entry 79) -/
def leads (d : Die) (n : Nat) : Bool :=
  (pipe d n).enabled && (pipe d n).lead == n &&
    decide ((if d.vp.current = 0 then 1 else 2) ≤ (members d n).length)

/-- The lead of a group: its lowest-numbered member in service (R231). -/
def groupLead (d : Die) (g : Nat) : Nat := (members d g).headD g

/-- The register page on which a group reports: its lead's (R251). -/
def vpPage (d : Die) (g : Nat) : Nat := pVP + groupLead d g

/-- The group that a pipeline's number names as its lead. -/
def groupNamed (d : Die) (n : Nat) : Option Nat :=
  let g := (pipe d n).lead
  if leads d g && (n == g || n == groupLead d g) then some g else none

/-- The pipelines the unit map enables. -/
def enabledPipes (d : Die) : List Nat := (List.range 6).filter (fun n => (pipe d n).enabled)

/-- The groups that a pairing forms from the enabled pipelines (R232). -/
def groupsOf (pairing : Nat) : List Nat → List (List Nat)
  | [] => []
  | a :: r =>
    match pairing, r with
    | 1, b :: r' => [a, b] :: groupsOf 1 r'
    | 2, b :: c :: r' => [a, b, c] :: groupsOf 2 r'
    | 0, r => [a] :: groupsOf 0 r
    | _, _ => []

/-- Pairing that a group reports: a triple that has lost a member reports Tandem (R238). -/
def pairingOf (d : Die) (lead : Nat) : Nat :=
  if d.vp.current == 2 && (members d lead).length == 2 then 1 else d.vp.current

/-- Give every pipeline its lead and role for a pairing (R232, R234, R238). -/
def formGroups (pairing : Nat) (pipes : List Pipe) : List Pipe :=
  let en := (List.range 6).filter (fun n => ((pipes[n]?).map (fun p => p.enabled)).getD false)
  let gs := groupsOf pairing en
  pipes.mapIdx (fun n p =>
    match gs.find? (fun g => g.contains n) with
    | some g =>
      let lead := g.headD n
      { p with
        lead := lead
        role := if pairing == 0 then 0 else if pairing == 2 then 3 else if n == lead then 1 else 2
        resync := false, resyncRun := false }
    | none => { p with lead := n, role := 0, resync := false, resyncRun := false })

end Sys2Proof.Machine
end

