-- ==== Sys2Proof/Machine/Clock.lean ====
section
/-! DEFINITION. The time clock of a die: one cycle of 625 MHz, and the time from one air-time boundary to the
next (R332, R334, R337, R338). -/

namespace Sys2Proof.Machine

/-- The increment of one cycle of the time clock, in units of 2^-32 ns: of the ns counter (R332), and the nominal one at which
air-time runs. -/
def nsRate (t : Tim) : Nat := 4294967296 + t.incr
def airRate : Nat := 4294967296 + 0x9999999A

/-- `n` ns of the time clock at its nominal increment pass for the ns counter and for the model's own monotonic time. -/
def elapse (n : Nat) (t : Tim) : Tim :=
  let f := t.frac + n * 4294967296 * nsRate t / airRate
  { t with ns := w64 (t.ns + f / 4294967296), frac := f % 4294967296, up := t.up + n }

/-- Let a number of nanoseconds of air-time pass. -/
def pass (n : Nat) (t : Tim) : Tim :=
  let e := elapse n t
  { e with air := w64 (t.air + n) }

/-- Note where the counters stand. (DEDUCED, log entry 104) -/
def markAir (t : Tim) : Tim :=
  { t with marks := { ns := t.ns, air := t.air, mu := t.mu, up := t.up } ::
      (t.marks.takeWhile (fun m => decide (t.up ≤ m.up + 100000000))
        ++ (t.marks.dropWhile (fun m => decide (t.up ≤ m.up + 100000000))).take 1) }

/-- A jump of a counter, with both of its ends noted. -/
def jumping (f : Tim → Tim) (t : Tim) : Tim := markAir (f (markAir t))

/-- One cycle of the time clock: both counters advance by 1 ns and their fraction (R332); air-time runs at the
nominal increment, 1.6 ns. -/
def timeCycle (t : Tim) : Tim :=
  let f := t.frac + t.incr
  let a := t.airFrac + 0x9999999A
  { t with
    ns := w64 (t.ns + 1 + f / 4294967296), frac := f % 4294967296
    air := w64 (t.air + 1 + a / 4294967296), airFrac := a % 4294967296
    up := t.up + 1 + a / 4294967296 }

/-- ns of a number of control-fabric cycles, rounded up. -/
def cycNs (c : Nat) : Nat := cdiv (c * 10) 11

/-- ns from now to the next symbol boundary of the running slot; the end of symbol 13 is the slot's end. -/
def toNextSymbol (t : Tim) : Nat :=
  let s := slotNs t.mu
  let p := t.air % s
  cdiv ((symbolOf t + 1) * s) 14 - p

/-- ns from now to the next slot boundary that has not been taken: zero when air-time stands on one. -/
def toNextSlot (t : Tim) : Nat :=
  let s := slotNs t.mu
  if t.air % s = 0 ∧ t.slotDone ≠ some (t.air / s) then 0 else s - t.air % s

/-- With a decided step (R338): the first slot boundary of the new timeline at least 20 µs after the decision,
as air-time of the new timeline, and the ns from now to it. -/
def stepBoundary (t : Tim) (st : AirStep) : Nat × Nat :=
  let s := slotNs st.mu
  let now : Int := (t.air : Int) + st.offset
  let decidedAt : Int := now - ((t.up - st.decided : Nat) : Int) + 20000
  let least := (max now decidedAt).toNat
  let b := cdiv least s * s
  (b, (((b : Nat) : Int) - now).toNat)

/-- What slewing removes of the phase in `n` ns: at most 20 ppm of them (R337, R339). (DEDUCED, log entry 118) -/
def slewed (n : Nat) (slew : Int) : Int :=
  let lim : Int := ((n / 50000 : Nat) : Int)
  max (-lim) (min lim slew)

/-- Air-time keeps the rate that HOLDOVER holds: it follows no other die. -/
def holdsRate (t : Tim) : Bool := t.at_ == .holdover && !t.following

/-- What air-time gains in `n` ns: in HOLDOVER at the rate it holds, else by slewing.
(DEDUCED, log entry 118; DESIGN CHOICE, log entry 203) -/
def gained (n : Nat) (t : Tim) : Int := if holdsRate t then t.rate * ((n / 50000 : Nat) : Int) else slewed n t.slew

/-- What is left to slew after a gain. -/
def slewLeft (k : Int) (t : Tim) : Int := if holdsRate t then t.slew else t.slew - k

/-- `n` ns of air-time pass while it slews: the other clocks see that much less, or more.
(DEDUCED, log entry 118; DESIGN CHOICE, log entry 185) -/
def passSlewing (n : Nat) (t : Tim) : Tim :=
  let k := gained n t
  let e := elapse ((n : Int) - k).toNat t
  { e with air := w64 (t.air + n), slew := slewLeft k t }

/-- `n` ns of the ns counter pass, up to a whole ns. -/
def passNs (n : Nat) (t : Tim) : Tim :=
  let m := cdiv (n * airRate) (nsRate t)
  let k := gained m t
  { t with ns := w64 (t.ns + n), frac := if n = 0 then t.frac else 0, up := t.up + m
           air := w64 (((t.air + m : Nat) : Int) + k).toNat, slew := slewLeft k t }

/-- Bring the clocks to the next slot boundary, taking a decided step there. -/
def toBoundary (t : Tim) : Tim :=
  match t.step with
  | some st =>
    let r := stepBoundary t st
    jumping (fun t => { t with
      air := w64 r.1, airFrac := 0, mu := st.mu, step := none, slotDone := some (r.1 / slotNs st.mu), steps := t.steps + 1 })
      (pass r.2 t)
  | none =>
    let t := passSlewing (toNextSlot t) t
    { t with slotDone := some (t.air / slotNs t.mu) }

end Sys2Proof.Machine
end

