-- ==== Sys2Proof/Machine/Keccak.lean ====
section
/-! DEFINITION. The hash functions the spec names: SHAKE256 of FIPS 202, and cSHAKE256, KMAC256, KMACXOF256 and
ParallelHash256 of NIST SP 800-185 (R99, R127, R209, R328, R411, R427). -/

namespace Sys2Proof.Machine

/-- A Keccak state: 25 lanes, lane x + 5 y. -/
abbrev Lanes := List W64

/-- One lane, zero past the end. -/
def lane (s : Lanes) (i : Nat) : W64 := s.getD i 0

/-- Rho and pi together, by the lane they fill: the lane that moves there, and how far it is rotated on its way. -/
def laneMoves : List (Nat × Nat) :=
  [(0, 0), (6, 44), (12, 43), (18, 21), (24, 14),
   (3, 28), (9, 20), (10, 3), (16, 45), (22, 61),
   (1, 1), (7, 6), (13, 25), (19, 8), (20, 18),
   (4, 27), (5, 36), (11, 10), (17, 15), (23, 56),
   (2, 62), (8, 55), (14, 39), (15, 41), (21, 2)]

/-- Exclusive-or of two rows, lane by lane. -/
def addRows (a b : Lanes) : Lanes := List.zipWith (fun u v => u ^^^ v) a b

/-- Theta: every row takes the parities of the columns on its two sides, the right one rotated by one. -/
def theta (s : Lanes) : Lanes :=
  let rows := (List.range 5).map (fun y => (s.drop (5 * y)).take 5)
  let parity := rows.foldl addRows (List.replicate 5 0)
  let left := parity.drop 4 ++ parity.take 4
  let right := (parity.drop 1 ++ parity.take 1).map (fun v => v.rotateLeft 1)
  rows.flatMap (fun r => addRows r (addRows left right))

/-- Rho and pi: rotate each lane and move it. -/
def rhoPi (s : Lanes) : Lanes := laneMoves.map (fun m => (lane s m.1).rotateLeft m.2)

/-- Chi: the non-linear row step. -/
def chi (s : Lanes) : Lanes :=
  (List.range 25).map (fun i =>
    let y := i / 5 * 5
    lane s i ^^^ (~~~ lane s (y + (i + 1) % 5) &&& lane s (y + (i + 2) % 5)))

/-- One step of the shift register whose low bit feeds iota: x^8 + x^6 + x^5 + x^4 + 1. -/
def iotaStep (r : Nat) : Nat := if r < 128 then 2 * r else (2 * r) ^^^ 0x171

/-- What a round adds to lane 0, and the register after it: one bit of the register for each place of a list. -/
def iotaWord : List Nat → Nat → Nat × Nat
  | [], r => (0, r)
  | p :: ps, r =>
    let q := iotaWord ps (iotaStep r)
    (q.1 + r % 2 * 2 ^ p, q.2)

/-- Iota: add the round's word to lane 0. -/
def iota (w : Nat) (s : Lanes) : Lanes := s.modify 0 (fun a => a ^^^ BitVec.ofNat 64 w)

/-- A number of rounds, with the register as the first of them finds it. -/
def keccakRounds : Nat → Nat → Lanes → Lanes
  | 0, _, s => s
  | n + 1, r, s =>
    let q := iotaWord [0, 1, 3, 7, 15, 31, 63] r
    keccakRounds n q.2 (iota q.1 (chi (rhoPi (theta s))))

/-- Keccak-f[1600]: 24 rounds. (PRESUMED, log entry 9) -/
def keccakF (s : Lanes) : Lanes := keccakRounds 24 1 s

/-- Lanes of a byte string, eight bytes each. -/
def toLanes : Nat → Bytes → List W64
  | 0, _ => []
  | n + 1, bs => BitVec.ofNat 64 (leVal (bs.take 8)) :: toLanes n (bs.drop 8)

/-- Exclusive-or of a block into the state. -/
def xorBlock (s : Lanes) (blk : List W64) : Lanes :=
  (List.range 25).map (fun i => lane s i ^^^ lane blk i)

/-- Absorb whole blocks of 136 bytes. -/
def absorb : Nat → Lanes → Bytes → Lanes
  | 0, s, _ => s
  | n + 1, s, bs => absorb n (keccakF (xorBlock s (toLanes 17 (bs.take 136)))) (bs.drop 136)

/-- Output bytes of the first 17 lanes. -/
def rateBytes (s : Lanes) : Bytes := (s.take 17).flatMap (fun l => leBytes 8 l.toNat)

/-- Squeeze a number of blocks. -/
def squeeze : Nat → Lanes → Bytes
  | 0, _ => []
  | n + 1, s => rateBytes s ++ squeeze n (keccakF s)

/-- The sponge at rate 136 with a domain suffix byte: input, output length. -/
def sponge (suffix : Nat) (input : Bytes) (n : Nat) : Bytes :=
  let q := 136 - input.length % 136
  let padded := input ++ (if q = 1 then [BitVec.ofNat 8 (suffix + 128)]
    else BitVec.ofNat 8 suffix :: (zeros (q - 2) ++ [0x80]))
  (squeeze (cdiv n 136) (absorb (padded.length / 136) (List.replicate 25 0) padded)).take n

/-- SHAKE256. (PRESUMED, log entry 9) -/
def shake256 (input : Bytes) (n : Nat) : Bytes := sponge 0x1F input n

/-- The hash the seal chain uses: SHAKE256 with 32 bytes of output (R212). -/
def h32 (input : Bytes) : Bytes := shake256 input 32

/-- Number of bytes in the shortest big-endian form of a number, at least one. -/
def encLen : Nat → Nat → Nat
  | 0, _ => 1
  | f + 1, v => if v < 256 then 1 else 1 + encLen f (v / 256)

/-- left_encode of SP 800-185. -/
def leftEncode (v : Nat) : Bytes := BitVec.ofNat 8 (encLen 16 v) :: beBytes (encLen 16 v) v

/-- right_encode of SP 800-185. -/
def rightEncode (v : Nat) : Bytes := beBytes (encLen 16 v) v ++ [BitVec.ofNat 8 (encLen 16 v)]

/-- encode_string of SP 800-185. -/
def encodeString (s : Bytes) : Bytes := leftEncode (8 * s.length) ++ s

/-- bytepad of SP 800-185 to 136 bytes. -/
def bytepad (s : Bytes) : Bytes :=
  let z := leftEncode 136 ++ s
  z ++ zeros ((136 - z.length % 136) % 136)

/-- cSHAKE256 with function name and customisation string. -/
def cshake256 (input : Bytes) (n : Nat) (name custom : Bytes) : Bytes :=
  if name.isEmpty && custom.isEmpty then shake256 input n
  else sponge 0x04 (bytepad (encodeString name ++ encodeString custom) ++ input) n

/-- KMAC256: key, input, output bytes, customisation. (PRESUMED, log entry 9) -/
def kmac256 (key x : Bytes) (n : Nat) (custom : Bytes) : Bytes :=
  cshake256 (bytepad (encodeString key) ++ x ++ rightEncode (8 * n)) n (ascii "KMAC") custom

/-- KMACXOF256: key, input, output bytes, customisation. -/
def kmacXof256 (key x : Bytes) (n : Nat) (custom : Bytes) : Bytes :=
  cshake256 (bytepad (encodeString key) ++ x ++ rightEncode 0) n (ascii "KMAC") custom

/-- The inner digests of ParallelHash256, block by block. -/
def innerHashes : Nat → Nat → Bytes → Bytes
  | 0, _, _ => []
  | n + 1, blk, x => cshake256 (x.take blk) 64 [] [] ++ innerHashes n blk (x.drop blk)

/-- ParallelHash256 with 32 bytes of output: input, block size, customisation. (PRESUMED, log entry 9) -/
def parallelHash256 (x : Bytes) (blk : Nat) (custom : Bytes) : Bytes :=
  let n := cdiv x.length blk
  cshake256 (leftEncode blk ++ innerHashes n blk x ++ rightEncode n ++ rightEncode 256) 32
    (ascii "ParallelHash") custom

end Sys2Proof.Machine
end

