-- ==== Sys2Proof/Machine/Operands.lean ====
section
/-! DEFINITION. Operand forms: record headers and payload lengths (R55, R65 to R78), element formats, and the
layouts of manifests, check programs and timetables (R94 to R98, R256 to R258, R263, R264, R497). -/

namespace Sys2Proof.Machine

/-! ## Records -/

/-- The 14 header bytes that hcheck covers (R55). -/
def headBytes (rtype : Nat) (r : RecIn) : Bytes :=
  [BitVec.ofNat 8 rtype, r.flags] ++ leBytes 2 r.length.toNat ++ leBytes 2 r.channel.toNat
    ++ leBytes 4 r.seq.toNat ++ leBytes 4 r.locus.toNat

/-- A record's bytes as they stand on the virtual channel. -/
def recBytes (rtype : Nat) (r : RecIn) : Bytes :=
  headBytes rtype r ++ leBytes 2 r.hcheck.toNat ++ r.payload

/-- Channel id of a record. -/
def recChan (r : RecIn) : Nat := r.channel.toNat % 32768

/-- Types allowed on an upstream virtual channel (R56); on VC 0 and 1 the channel's own VC decides further. -/
def typeOnVc (rtype vc : Nat) : Bool :=
  match vc with
  | 0 => [1, 2, 3, 4, 5, 6, 10, 11].contains rtype
  | 1 => [1, 2, 3, 4, 5, 6, 7, 8, 9, 10].contains rtype
  | 2 => [12, 13].contains rtype
  | _ => false

/-- The header passes the checks of R88: hcheck right, type and length legal, type allowed on the VC. -/
def headOk (rtype : Nat) (r : RecIn) : Bool :=
  crc16 (headBytes rtype r) == r.hcheck.toNat && decide (2 ≤ r.length.toNat) && decide (r.length.toNat ≤ 4096)
    && typeOnVc rtype r.vc.toNat

/-- A 16-byte unit of a stream passes all header checks of R88 and its reserved fields are zero. -/
def unitIsHeader (vc : Nat) (u : Bytes) : Bool :=
  crc16 (u.take 14) == u16At u 14 && decide (2 ≤ u16At u 2) && decide (u16At u 2 ≤ 4096)
    && typeOnVc (byteAt u 0) vc && decide (byteAt u 1 < 2) && decide (u16At u 4 < 32768)

/-! ## Element formats (R65, R66) -/

/-- Bits per element of a format code; 0 for a code the table does not list. -/
def fmtBits (fmt : Nat) : Nat :=
  match fmt with
  | 0x01 => 8 | 0x02 => 4 | 0x03 => 16 | 0x04 => 32 | 0x10 => 8 | 0x11 => 8 | 0x12 => 8 | 0x13 => 4
  | 0x20 => 16 | 0x21 => 32 | 0x30 => 32 | _ => 0

/-- The format is one of the MX formats. -/
def fmtMx (fmt : Nat) : Bool := decide (0x10 ≤ fmt) && decide (fmt ≤ 0x13)

/-- Bytes of the MX scale block of n elements, padded to 16. -/
def scaleBytes (fmt n : Nat) : Nat := if fmtMx fmt then cdiv (cdiv n 32) 16 * 16 else 0

/-- Data bytes of n elements, scale block included. -/
def dataBytes (fmt n : Nat) : Nat := scaleBytes fmt n + cdiv (n * fmtBits fmt) 8

/-- Raw element codes of n elements, without the scale block. -/
def rawElems (fmt : Nat) : Nat → Bytes → List Nat
  | 0, _ => []
  | n + 1, bs =>
    match fmtBits fmt with
    | 4 =>
      match n with
      | 0 => [byteAt bs 0 % 16]
      | m + 1 => (byteAt bs 0 % 16) :: (byteAt bs 0 / 16) :: rawElems fmt m (bs.drop 1)
    | 8 => byteAt bs 0 :: rawElems fmt n (bs.drop 1)
    | 16 => u16At bs 0 :: rawElems fmt n (bs.drop 2)
    | _ => u32At bs 0 :: rawElems fmt n (bs.drop 4)

/-- A value m × 2^e, or no number (R120). -/
structure Dy where
  m : Int
  e : Int
  deriving DecidableEq, Repr

/-- Decode of a small float: mantissa bits, exponent bits, bias. Infinities and NaN give none.
(PRESUMED, log entry 11) -/
def smallFloat (mant ex : Nat) (bias : Int) (special : Nat → Bool) (raw : Nat) : Option Dy :=
  if special raw then none
  else
    let f := raw % 2 ^ mant
    let x := raw / 2 ^ mant % 2 ^ ex
    let s : Int := if raw / 2 ^ (mant + ex) % 2 = 1 then -1 else 1
    if x = 0 then some ⟨s * (f : Int), 1 - bias - (mant : Int)⟩
    else some ⟨s * ((f + 2 ^ mant : Nat) : Int), (x : Int) - bias - (mant : Int)⟩

/-- Value of one raw element at a scale byte (MX) or scale exponent; none for NaN and infinities.
(PRESUMED, log entry 11) -/
def elemVal (fmt : Nat) (scale : Int) (raw : Nat) : Option Dy :=
  let sc (o : Option Dy) (k : Int) : Option Dy := o.map (fun v => ⟨v.m, v.e + k⟩)
  match fmt with
  | 0x01 => some ⟨sgn 8 raw, scale⟩
  | 0x02 => some ⟨sgn 4 raw, scale⟩
  | 0x03 => some ⟨sgn 16 raw, scale⟩
  | 0x04 => some ⟨sgn 32 raw, scale⟩
  | 0x10 => some ⟨sgn 8 raw, scale - 133⟩
  | 0x11 => sc (smallFloat 3 4 7 (fun r => r % 128 == 127) raw) (scale - 127)
  | 0x12 => sc (smallFloat 2 5 15 (fun r => r / 4 % 32 == 31) raw) (scale - 127)
  | 0x13 => sc (smallFloat 1 2 1 (fun _ => false) raw) (scale - 127)
  | 0x20 => sc (smallFloat 7 8 127 (fun r => r / 128 % 256 == 255) raw) scale
  | 0x21 => sc (smallFloat 23 8 127 (fun r => r / 8388608 % 256 == 255) raw) scale
  | _ => none

/-- Values of a record's or tensor row's data: format, scale exponent, element count, bytes. For MX formats
each block of 32 takes its own scale byte. -/
def values (fmt : Nat) (scale : Int) (n : Nat) (bs : Bytes) : List (Option Dy) :=
  let raws := rawElems fmt n (bs.drop (scaleBytes fmt n))
  if fmtMx fmt then raws.mapIdx (fun i r => elemVal fmt (byteAt bs (i / 32) : Int) r)
  else raws.map (elemVal fmt scale)

/-- Some scale byte of an MX data block is 0xFF (R66). (PRESUMED, log entry 11) -/
def badScale (fmt n : Nat) (bs : Bytes) : Bool :=
  fmtMx fmt && (bs.take (cdiv n 32)).any (fun b => b == 0xFF)

/-! ## Tensor records (R67) -/

/-- The subheader of LAYER_OUT, LAYER_IN and ATTN_OUT. -/
structure SubHead where
  pos   : Nat
  first : Nat
  count : Nat
  fmt   : Nat
  scale : Int
  deriving DecidableEq, Repr

/-- Read a subheader. -/
def subHead (p : Bytes) : SubHead :=
  { pos := u32At p 0, first := u32At p 4, count := u32At p 8, fmt := byteAt p 12, scale := sgn 8 (byteAt p 13) }

/-! ## Manifests (R94 to R98) -/

/-- Split a byte string into n pieces of a size. -/
def pieces : Nat → Nat → Bytes → List Bytes
  | 0, _, _ => []
  | n + 1, sz, bs => bs.take sz :: pieces n sz (bs.drop sz)

/-- A tensor table entry. -/
def parseTensor (b : Bytes) : TensorE :=
  { role := byteAt b 0, fmt := byteAt b 1, rows := u32At b 4, cols := u32At b 8, bytes := u64At b 12
    locus := u32At b 20, digest := slice b 32 32 }

/-- An op table entry. -/
def parseOp (b : Bytes) : OpE :=
  { locus := u32At b 0, cls := byteAt b 4, inFmt := byteAt b 5, outFmt := byteAt b 6
    banded := tst (byteAt b 7) 0, tensor := u16At b 8, ulp := u16At b 10 }

/-- The parts of a manifest, without judging them. -/
def parseManifest (b : Bytes) : Manifest :=
  let nt := u32At b 12
  let no := u32At b 16
  { kind := byteAt b 6, kMin := byteAt b 7, alphaMin := u32At b 20, densityMin := byteAt b 24
    strictReq := tst (byteAt b 25) 0, nLayers := u16At b 26, nKv := u16At b 28, dHead := u16At b 30
    kvFmt := byteAt b 32, vocab := u32At b 36, modelId := slice b 40 16, version := u32At b 56
    programDigest := slice b 64 32, goldenDigest := slice b 96 32
    tensors := (pieces (min nt 4096) 64 (b.drop 128)).map parseTensor
    ops := (pieces (min no 65536) 16 (b.drop (128 + 64 * nt))).map parseOp }

/-- Bytes of one stored tensor row, padded (R96). -/
def rowBytes (fmt cols : Nat) : Nat := cdiv (dataBytes fmt cols) 16 * 16

/-- The reserved bytes of a tensor entry are zero and its fields lie in range (R95, R96). -/
def tensorOk (b : Bytes) : Bool :=
  let t := parseTensor b
  [1, 2, 3].contains t.role && fmtBits t.fmt != 0 && allZero (slice b 2 2) && allZero (slice b 24 8)
    && t.locus % 4096 == 0 && t.bytes == t.rows * rowBytes t.fmt t.cols

/-- The format bytes of an op are codes of R65; zero stands where no element format applies: in a radio op (R188) and as
the output of a selection of token ids (R71). -/
def opFmtsOk (kind : Nat) (o : OpE) : Bool :=
  (fmtBits o.inFmt != 0 || (kind == 2 && o.inFmt == 0))
    && (fmtBits o.outFmt != 0 || (o.outFmt == 0 && (kind == 2 || o.cls == 5)))

/-- The reserved bytes of an op entry are zero and its fields lie in range (R97). -/
def opOk (kind nt : Nat) (b : Bytes) : Bool :=
  let o := parseOp b
  decide (1 ≤ o.cls) && decide (o.cls ≤ 5) && decide (byteAt b 7 < 2) && allZero (slice b 12 4)
    && o.locus % 4096 == 0 && (o.tensor == 0xFFFF || decide (o.tensor < nt)) && opFmtsOk kind o

/-- Step 2 of admission (R102): the header, the tables and the trailer are well formed. The rules of R166 and
R188 are judged beside it. (DESIGN CHOICE, log entry 212) -/
def manifestOk (b : Bytes) : Bool :=
  let nt := u32At b 12
  let no := u32At b 16
  u32At b 0 == 0x464E4D47 && u16At b 4 == 0x0100 && [1, 2].contains (byteAt b 6)
    && decide (1 ≤ byteAt b 7) && decide (byteAt b 7 ≤ 8) && u32At b 8 == b.length
    && decide (nt ≤ 4096) && decide (1 ≤ no) && decide (no ≤ 65536)
    && b.length == 128 + 64 * nt + 16 * no + 192
    && decide (u32At b 20 ≤ 65536) && [1, 2].contains (byteAt b 24) && decide (byteAt b 25 < 2)
    && decide (u16At b 26 ≤ 4095) && decide (u16At b 28 ≤ 256) && decide (u16At b 30 ≤ 512)
    && (fmtBits (byteAt b 32) != 0 || (byteAt b 6 == 2 && byteAt b 32 == 0))
    && allZero (slice b 33 3) && allZero (slice b 60 4)
    && (byteAt b 6 != 2 || (u32At b 36 == 0 && nt == 0))
    && (pieces nt 64 (b.drop 128)).all tensorOk
    && (pieces no 16 (b.drop (128 + 64 * nt))).all (opOk (byteAt b 6) nt)
    && allZero (slice b (b.length - 192 + 57) 7) && allZero (slice b (b.length - 192 + 178) 14)

/-- The weights digest: SHAKE256 over the tensor digests in index order (R99, R211). -/
def weightsDigest (m : Manifest) : Bytes := h32 (m.tensors.flatMap (fun t => t.digest))

/-! ## Check programs (R256 to R258, R497) -/

/-- A plan entry. -/
def parsePlan (b : Bytes) : PlanE :=
  { rtype := byteAt b 0, fmt := byteAt b 1, scale := byteAt b 2, tiles := byteAt b 3, locus := u32At b 4
    width := u32At b 8, tileElems := u32At b 12 }

/-- A parameter entry. -/
def parseParam (b : Bytes) : ParamE :=
  { locus := u32At b 0, kind := byteAt b 4, index := byteAt b 5, value := u64At b 8 }

/-- The parts of a check program image. -/
def parseProgram (b : Bytes) : Program :=
  { mayVary := tst (byteAt b 6) 0
    plan := (pieces (min (u32At b 8) 262144) 16 (b.drop (u32At b 24))).map parsePlan
    consts := (pieces (min (u32At b 12) 1048576) 8 (b.drop (u32At b 28))).map leVal
    code := (pieces (min (u32At b 16) 1048576) 8 (b.drop (u32At b 32))).map leVal
    params := (pieces (min (u32At b 40) 65536) 16 (b.drop (u32At b 36))).map parseParam
    size := b.length }

/-- Fields of an instruction word (R258). -/
def wOp (w : Nat) : Nat := w % 256
def wA (w : Nat) : Nat := w / 256 % 256
def wB (w : Nat) : Nat := w / 65536 % 256
def wC (w : Nat) : Nat := w / 16777216 % 256
def wImm (w : Nat) : Nat := w / 4294967296

/-- The instruction codes that R259 lists. -/
def opListed (op : Nat) : Bool :=
  decide (op ≤ 0x0E) || decide (0x20 ≤ op ∧ op ≤ 0x22) || op == 0x28 || op == 0x29
    || decide (0x30 ≤ op ∧ op ≤ 0x3B) || decide (0x40 ≤ op ∧ op ≤ 0x42) || decide (0x48 ≤ op ∧ op ≤ 0x4A)

/-- The fields an instruction does not use are zero (R258). -/
def wordFieldsOk (w : Nat) : Bool :=
  let a := wA w
  let b := wB w
  let c := wC w
  let i := wImm w
  let reg (x : Nat) : Bool := decide (x < 32)
  match wOp w with
  | 0x00 => a == 0 && b == 0 && c == 0 && i == 0
  | 0x01 => reg a && b == 0 && c == 0
  | 0x02 => reg a && reg b && reg c && i == 0
  | 0x03 => reg a && reg b && c == 0
  | 0x04 => reg a && reg b && reg c && i == 0
  | 0x05 => reg a && reg b && c == 0
  | 0x06 => reg a && b == 0 && c == 0
  | 0x07 => reg a && b == 0 && c == 0 && decide (i ≤ 5)
  | 0x08 => reg a && b == 0 && c == 0
  | 0x09 => a == 0 && b == 0 && c == 0
  | 0x0A => a == 0 && b == 0 && c == 0
  | 0x0B => a == 0 && b == 0 && c == 0
  | 0x0C => a == 0 && b == 0 && c == 0 && decide (i < 64)
  | 0x0D => a == 0 && b == 0 && c == 0 && i == 0
  | 0x0E => a == 0 && b == 0 && c == 0 && i == 0
  | _ => a == 0 && b == 0 && c == 0

/-! ## Timetables (R263, R264) -/

/-- A timetable entry, with the tag of its image. -/
def parseEntry (tagKind tag : Nat) (b : Bytes) : TtEntry :=
  { kind := byteAt b 0, group := byteAt b 1, target := u16At b 2, slot := u16At b 4
    safety := tst (byteAt b 6) 0, start := u32At b 8, len := u32At b 12, arr := u32At b 16
    commit := u32At b 20, verdict := u32At b 24, pool := byteAt b 28, passTokens := byteAt b 29
    stream := byteAt b 30, tagKind := tagKind, tag := tag }

/-- The bytes of a timetable entry. -/
def entryBytes (e : TtEntry) : Bytes :=
  [BitVec.ofNat 8 e.kind, BitVec.ofNat 8 e.group] ++ leBytes 2 e.target ++ leBytes 2 e.slot
    ++ [BitVec.ofNat 8 (b2n e.safety), 0] ++ leBytes 4 e.start ++ leBytes 4 e.len ++ leBytes 4 e.arr
    ++ leBytes 4 e.commit ++ leBytes 4 e.verdict
    ++ [BitVec.ofNat 8 e.pool, BitVec.ofNat 8 e.passTokens, BitVec.ofNat 8 e.stream, 0]

/-- The fields that an entry's kind does not use are zero, and byte 7 and 31 are zero (R264). -/
def entryFieldsOk (b : Bytes) : Bool :=
  let e := parseEntry 0 0 b
  let span := e.arr == 0 && e.commit == 0 && e.verdict == 0 && e.pool == 0 && e.passTokens == 0 && e.stream == 0
  decide (byteAt b 6 < 2) && byteAt b 7 == 0 && byteAt b 31 == 0 &&
  match e.kind with
  | 1 => span
  | 2 => e.len == 0 && e.stream == 0 && decide (1 ≤ e.passTokens) && decide (e.passTokens ≤ 64)
  | 3 => e.len == 0 && e.arr == 0 && e.commit == 0 && e.verdict == 0 && e.pool == 0 && e.passTokens == 0
  | 4 => span && e.target == 0
  | 5 => span && decide (e.target < 64)
  | 6 => e.len == 0 && span && e.group == 0xFF && decide (e.target < 16)
  | 7 => span && decide (e.target < 16)
  | _ => false

/-- A timetable image of the given form: 1 full, 2 fragment. -/
def parseTimetable (b : Bytes) : Timetable :=
  { mu := byteAt b 6, period := u16At b 8, pairing := byteAt b 12
    hbm := (slice b 64 64).map (fun x => x.toNat)
    entries := (pieces (min (u16At b 10) 8192) 32 (b.drop 128)).map (parseEntry (byteAt b 13) (u16At b 14))
    isDefault := false }

/-- The header bytes of a timetable. -/
def ttHeader (t : Timetable) : Bytes :=
  leBytes 4 0x4E444143 ++ leBytes 2 0x0100 ++ [BitVec.ofNat 8 t.mu, 1] ++ leBytes 2 t.period
    ++ leBytes 2 t.entries.length ++ [BitVec.ofNat 8 t.pairing, 0] ++ zeros 50
    ++ t.hbm.map (fun x => BitVec.ofNat 8 x)

/-- CAD_DIGEST: bytes 0 to 3 of SHAKE256 over header and entries in slot, start order (R282). -/
def ttDigest (t : Timetable) : Nat :=
  let es := t.entries.mergeSort (fun a b => a.slot < b.slot || (a.slot == b.slot && a.start ≤ b.start))
  u32At (h32 (ttHeader t ++ es.flatMap entryBytes)) 0

/-- The firmware default timetable (R277). -/
def defaultTimetable (mu : Nat) (enabled : List Nat) : Timetable :=
  { mu := mu, period := 1, pairing := 0, isDefault := true
    entries := enabled.map (fun n =>
      { kind := 4, group := n, target := 0, slot := 0, start := 0, len := 44000, passTokens := 0 }) }

end Sys2Proof.Machine
end

