-- ==== Sys2Proof/Machine/Float.lean ====
section
/-! DEFINITION. Exact extended-real arithmetic and its correct rounding (R143, R151): values are signed dyadic
numbers, infinities or NaN; an operation is exact, and one rounding takes it into a format. -/

namespace Sys2Proof.Machine

/-- An extended real with signed zero: (−1)^neg × m × 2^e, an infinity, or NaN. -/
inductive FV where
  | nan
  | inf (neg : Bool)
  | fin (neg : Bool) (m : Nat) (e : Int)
  deriving DecidableEq, Repr

/-- A binary format: fraction bits, smallest and largest exponent (R143). -/
structure Bin where
  frac : Nat
  emin : Int
  emax : Int
  deriving DecidableEq, Repr

def bin32 : Bin := ⟨23, -126, 127⟩
def bin64 : Bin := ⟨52, -1022, 1023⟩
def binBf16 : Bin := ⟨7, -126, 127⟩

/-- Rounding directions: to nearest with ties to even, or toward +∞. -/
inductive Rnd where
  | near | up
  deriving DecidableEq, Repr

/-- +0. -/
def FV.zero : FV := .fin false 0 0

/-- The exponent of a positive fraction: floor of its base-2 logarithm. -/
def log2Frac (num den : Nat) : Int :=
  let e : Int := (Nat.log2 num : Int) - (Nat.log2 den : Int)
  let s := pow2Frac' e
  if num * s.2 < den * s.1 then e - 1 else e
where
  /-- A power of two as a fraction. -/
  pow2Frac' (e : Int) : Nat × Nat := if 0 ≤ e then (2 ^ e.toNat, 1) else (1, 2 ^ (-e).toNat)

/-- A number scaled by a power of two, as a fraction. -/
def scaleFrac (num den : Nat) (e : Int) : Nat × Nat :=
  if 0 ≤ e then (num * 2 ^ e.toNat, den) else (num, den * 2 ^ (-e).toNat)

/-- Round a fraction (−1)^neg × num / den into a format; overflow gives an infinity (R151). -/
def roundFrac (b : Bin) (r : Rnd) (neg : Bool) (num den : Nat) : FV :=
  if num = 0 then .fin neg 0 0
  else
    let q : Int := max (log2Frac num den) b.emin - (b.frac : Int)
    let s := scaleFrac num den (-q)
    let fl := s.1 / s.2
    let rem := s.1 % s.2
    let bump := match r with
      | .near => decide (s.2 < 2 * rem) || (2 * rem == s.2 && fl % 2 == 1)
      | .up => !neg && rem != 0
    let m := if bump then fl + 1 else fl
    let lim := scaleFrac (2 ^ (b.frac + 1)) 1 (b.emax - (b.frac : Int) - q)
    if lim.1 ≤ m * lim.2 then
      -- beyond the largest finite value
      match r, neg with
      | .up, true => .fin true (2 ^ (b.frac + 1) - 1) (b.emax - (b.frac : Int))
      | _, _ => .inf neg
    else .fin neg m q

/-- Round an extended real into a format. -/
def roundTo (b : Bin) (r : Rnd) (v : FV) : FV :=
  match v with
  | .fin neg m e =>
    let s := scaleFrac m 1 e
    roundFrac b r neg s.1 s.2
  | v => v

/-- rn32 of an exact value. -/
def rn32 (v : FV) : FV := roundTo bin32 .near v

/-- rn64 of an exact value. -/
def rn64 (v : FV) : FV := roundTo bin64 .near v

/-! ## Exact operations -/

/-- Signed integer mantissa of a finite value at a given lower exponent. -/
def mantAt (neg : Bool) (m : Nat) (e k : Int) : Int :=
  let v : Int := ((m * 2 ^ (e - k).toNat : Nat) : Int)
  if neg then -v else v

/-- Exact product. -/
def mulX (a b : FV) : FV :=
  match a, b with
  | .nan, _ => .nan
  | _, .nan => .nan
  | .inf s, .inf t => .inf (s != t)
  | .inf s, .fin t m _ => if m = 0 then .nan else .inf (s != t)
  | .fin s m _, .inf t => if m = 0 then .nan else .inf (s != t)
  | .fin s m e, .fin t n f => .fin (s != t) (m * n) (e + f)

/-- Exact sum of two values. -/
def addX (a b : FV) : FV :=
  match a, b with
  | .nan, _ => .nan
  | _, .nan => .nan
  | .inf s, .inf t => if s = t then .inf s else .nan
  | .inf s, _ => .inf s
  | _, .inf t => .inf t
  | .fin s m e, .fin t n f =>
    if m = 0 ∧ n = 0 then .fin (s && t) 0 0
    else
      let k := min e f
      let v := mantAt s m e k + mantAt t n f k
      .fin (decide (v < 0)) v.natAbs k

/-- Negation. -/
def negX (a : FV) : FV :=
  match a with
  | .nan => .nan
  | .inf s => .inf (!s)
  | .fin s m e => .fin (!s) m e

/-- Absolute value. -/
def absX (a : FV) : FV :=
  match a with
  | .nan => .nan
  | .inf _ => .inf false
  | .fin _ m e => .fin false m e

/-- Exact difference. -/
def subX (a b : FV) : FV := addX a (negX b)

/-- Exact sum of a list, from its first term. -/
def sumX (l : List FV) : FV :=
  match l with
  | [] => .zero
  | a :: r => r.foldl addX a

/-- An integer. -/
def intX (i : Int) : FV := .fin (decide (i < 0)) i.natAbs 0

/-- A dyadic value. -/
def dyX (v : Dy) : FV := .fin (decide (v.m < 0)) v.m.natAbs v.e

/-- A value scaled by a power of two. -/
def scaleX (a : FV) (k : Int) : FV :=
  match a with
  | .fin s m e => .fin s m (e + k)
  | a => a

/-- a is less than b, neither being NaN. -/
def ltX (a b : FV) : Bool :=
  match a, b with
  | .nan, _ => false
  | _, .nan => false
  | .inf s, .inf t => s && !t
  | .inf s, .fin _ _ _ => s
  | .fin _ _ _, .inf t => !t
  | .fin s m e, .fin t n f =>
    let k := min e f
    decide (mantAt s m e k < mantAt t n f k)

/-- a is at most b, neither being NaN. -/
def leX (a b : FV) : Bool :=
  match a, b with
  | .nan, _ => false
  | _, .nan => false
  | _, _ => !ltX b a

/-- The value is NaN. -/
def isNan (a : FV) : Bool :=
  match a with
  | .nan => true
  | _ => false

/-- The value is finite. -/
def isFin (a : FV) : Bool :=
  match a with
  | .fin _ _ _ => true
  | _ => false

/-- The value is zero. -/
def isZero (a : FV) : Bool :=
  match a with
  | .fin _ m _ => m == 0
  | _ => false

/-- The sign bit. -/
def signX (a : FV) : Bool :=
  match a with
  | .fin s _ _ => s
  | .inf s => s
  | .nan => false

/-- The larger of two values, the first when equal. -/
def maxX (a b : FV) : FV := if ltX a b then b else a

/-- Quotient of an exact value by a positive integer, rounded. -/
def divNat (b : Bin) (r : Rnd) (v : FV) (d : Nat) : FV :=
  match v with
  | .fin s m e =>
    let f := scaleFrac m d e
    roundFrac b r s f.1 f.2
  | v => v

/-! ## Bit patterns (R143, R151) -/

/-- The value of an IEEE bit pattern of a format with ex exponent bits. -/
def ofBits (b : Bin) (ex : Nat) (n : Nat) : FV :=
  let f := n % 2 ^ b.frac
  let x := n / 2 ^ b.frac % 2 ^ ex
  let s := n / 2 ^ (b.frac + ex) % 2 == 1
  if x = 2 ^ ex - 1 then (if f = 0 then .inf s else .nan)
  else if x = 0 then .fin s f (b.emin - (b.frac : Int))
  else .fin s (f + 2 ^ b.frac) (b.emin + (x : Int) - 1 - (b.frac : Int))

/-- The IEEE bit pattern of a value, rounded to the format; NaN is the canonical one (R151). -/
def toBits (b : Bin) (ex : Nat) (v : FV) : Nat :=
  match roundTo b .near v with
  | .nan => (2 ^ ex - 1) * 2 ^ b.frac + 2 ^ (b.frac - 1)
  | .inf s => (b2n s) * 2 ^ (b.frac + ex) + (2 ^ ex - 1) * 2 ^ b.frac
  | .fin s m e =>
    if m = 0 then b2n s * 2 ^ (b.frac + ex)
    else
      let l := log2Frac m 1
      let x := l + e
      if x < b.emin then
        let q := scaleFrac m 1 (e - (b.emin - (b.frac : Int)))
        b2n s * 2 ^ (b.frac + ex) + q.1 / q.2
      else
        let q := scaleFrac m 1 ((b.frac : Int) - l)
        b2n s * 2 ^ (b.frac + ex) + ((x - b.emin + 1).toNat) * 2 ^ b.frac + (q.1 / q.2 - 2 ^ b.frac)

/-- Value of a binary32 pattern. -/
def f32v (x : F32) : FV := ofBits bin32 8 x.toNat

/-- Binary32 pattern of a value, rounded to nearest even. -/
def f32b (v : FV) : F32 := BitVec.ofNat 32 (toBits bin32 8 v)

/-- Value of a binary64 pattern. -/
def f64v (x : Nat) : FV := ofBits bin64 11 x

/-- Binary64 pattern of a value, rounded to nearest even. -/
def f64b (v : FV) : Nat := toBits bin64 11 v

/-- A decoded element of a record or tensor as an extended real: float formats keep their infinities and
NaN (R143). -/
def elemX (fmt : Nat) (scale : Int) (raw : Nat) : FV :=
  match fmt with
  | 0x20 => scaleX (ofBits binBf16 8 raw) scale
  | 0x21 => scaleX (ofBits bin32 8 raw) scale
  | 0x12 => scaleX (ofBits ⟨2, -14, 15⟩ 5 raw) (scale - 127)
  | _ =>
    match elemVal fmt scale raw with
    | some v => if v.m = 0 then .fin (fmt == 0x11 && 128 ≤ raw || fmt == 0x13 && 8 ≤ raw) 0 0 else dyX v
    | none => .nan

/-- Decoded elements of a record's data or of a tensor row, with the MX block scale of each. -/
def valuesX (fmt : Nat) (scale : Int) (n : Nat) (bs : Bytes) : List FV :=
  let raws := rawElems fmt n (bs.drop (scaleBytes fmt n))
  if fmtMx fmt then raws.mapIdx (fun i r => elemX fmt (byteAt bs (i / 32) : Int) r)
  else raws.map (elemX fmt scale)

/-- Fraction bits and emin of a float format (R143). -/
def fmtGrid (fmt : Nat) : Nat × Int :=
  match fmt with
  | 0x11 => (3, -6) | 0x12 => (2, -14) | 0x13 => (1, 0) | 0x20 => (7, -126) | 0x21 => (23, -126) | _ => (0, 0)

/-- ulp of an element value before scaling (R143): 2^(max(⌊log2 |v|⌋, emin) − m); 1 for integer formats.
(DESIGN CHOICE, log entry 213) -/
def ulpExp (fmt : Nat) (v : FV) : Int :=
  let g := fmtGrid fmt
  if [0x11, 0x12, 0x13, 0x20, 0x21].contains fmt then
    match v with
    | .fin _ m e => (if m = 0 then g.2 else max (log2Frac m 1 + e) g.2) - (g.1 : Int)
    | _ => g.2 - (g.1 : Int)
  else 0

/-! ## Sums in lanes (R148) -/

/-- One fused multiply-add into an FP64 accumulator. -/
def fma64 (r : Rnd) (acc : FV) (t : FV × FV) : FV := roundTo bin64 r (addX acc (mulX t.1 t.2))

/-- One level of the pairwise tree. -/
def treeLevel (r : Rnd) : List FV → List FV
  | a :: b :: rest => roundTo bin64 r (addX a b) :: treeLevel r rest
  | l => l

/-- The pairwise tree over a list padded to a power of two. -/
def treeSum (r : Rnd) : Nat → List FV → FV
  | 0, l => l.headD .zero
  | n + 1, l => treeSum r n (treeLevel r l)

/-- A sum over terms on a number of lanes: each lane adds its terms in ascending order from +0, and the lane sums
go through a pairwise tree padded with zeros to a power of two. -/
def laneSum (r : Rnd) (lanes : Nat) (terms : List (FV × FV)) : FV :=
  let l := max lanes 1
  let idx := terms.mapIdx (fun i t => (i % l, t))
  let sums := (List.range l).map (fun n => (idx.filter (fun p => p.1 == n)).foldl (fun a p => fma64 r a p.2) .zero)
  let k := Nat.log2 (2 * l - 1)
  treeSum r k (sums ++ List.replicate (2 ^ k - l) .zero)

end Sys2Proof.Machine
end

