-- ==== Sys2Proof/Machine/Residue.lean ====
section
/-! DEFINITION. Exact residue checks: arithmetic modulo 2^61 − 1 (R119), the map into the field (R120), the secrets
and selections drawn from a Month key (R127, R128), projections (R131) and the check itself (R124). -/

namespace Sys2Proof.Machine

/-- The modulus 2^61 − 1. -/
def p61 : Nat := 0x1FFFFFFFFFFFFFFF

/-- Canonical residue of a number below 2^128 (R119). -/
def red61 (t : Nat) : Nat :=
  let a := t % 2 ^ 61 + t / 2 ^ 61
  let b := a % 2 ^ 61 + a / 2 ^ 61
  if p61 ≤ b then b - p61 else b

/-- Field addition (R119). -/
def add61 (a b : Nat) : Nat := red61 (a + b)

/-- Field multiplication (R119). -/
def mul61 (a b : Nat) : Nat := red61 (a * b)

/-- Field negation (R119). -/
def neg61 (a : Nat) : Nat := if a = 0 then 0 else p61 - a

/-- Residue of an integer (R120). -/
def phiInt (m : Int) : Nat := if 0 ≤ m then m.toNat % p61 else neg61 ((-m).toNat % p61)

/-- Residue of a power of two (R120). -/
def pow2mod (e : Int) : Nat := 2 ^ ((e % 61 + 61) % 61).toNat

/-- Residue of a dyadic value (R120). -/
def phi (v : Dy) : Nat := mul61 (phiInt v.m) (pow2mod v.e)

/-- Sum of products in the field. -/
def dot61 (a b : List Nat) : Nat := (List.zipWith mul61 a b).foldl add61 0

/-! ## Secrets (R127, R128) -/

/-- 64-bit little-endian words of a byte string. -/
def words64 : Nat → Bytes → List Nat
  | 0, _ => []
  | n + 1, bs => leVal (bs.take 8) :: words64 n (bs.drop 8)

/-- The first 512 words that a row block accepts, from an output of n words; a longer output is read while too
few words are below p. -/
def rowBlock (key x : Bytes) : Nat → Nat → List Nat
  | 0, n => ((words64 n (kmacXof256 key x (8 * n) (ascii "HW2240 row"))).map (fun w => w % 2 ^ 61)).filter (fun v => v != p61)
  | fuel + 1, n =>
    let ok := ((words64 n (kmacXof256 key x (8 * n) (ascii "HW2240 row"))).map (fun w => w % 2 ^ 61)).filter (fun v => v != p61)
    if ok.length < 512 then rowBlock key x fuel (2 * n) else ok.take 512

/-- Row secrets of one secret index (R127). -/
def rowSecrets (key : Bytes) (i rmax : Nat) : List Nat :=
  ((List.range (cdiv rmax 512)).flatMap (fun b =>
    rowBlock key ([0x01, BitVec.ofNat 8 i] ++ leBytes 4 b) 8 512)).take rmax

/-- The attention sample of a token: for each layer, the selected query heads (R128). -/
def attentionSample (key : Bytes) (channel pos nLayers heads alpha : Nat) : List (List Nat) :=
  let xof := kmacXof256 key ([0x02] ++ leBytes 2 channel ++ leBytes 4 pos) (2 * nLayers * heads)
    (ascii "HW2240 sample")
  (List.range nLayers).map (fun l =>
    (List.range heads).filter (fun h => decide (u16At xof (2 * (l * heads + h)) < alpha)))

/-! ## Weights -/

/-- Values of one stored row of a weight tensor (R96, R120, R143). -/
def weightRow (fmt cols : Nat) (row : Bytes) : List (Option Dy) := values fmt 0 cols row

/-- The rows of a tensor's stored bytes. -/
def weightRows (t : TensorE) (bytes : Bytes) : List (List (Option Dy)) :=
  (pieces t.rows (rowBytes t.fmt t.cols) bytes).map (weightRow t.fmt t.cols)

/-- The residues of a row of a class-1 tensor. -/
def rowPhi (row : List (Option Dy)) : List Nat := row.map (fun o => (o.map phi).getD 0)

/-- Projection columns of one secret (R131): the accumulators after every row, in stream order. -/
def project (rs : List Nat) (cols : Nat) (rows : List (List Nat)) : List Nat :=
  (List.zip rs rows).foldl
    (fun acc p => List.zipWith (fun a v => add61 a (mul61 p.1 v)) acc p.2) (List.replicate cols 0)

/-- Smallest and largest element exponent of a tensor (R123): 0 for integer formats, E − 133 for MXINT8. -/
def expoRange (t : TensorE) (bytes : Bytes) : Int × Int :=
  if t.fmt = 0x10 then
    let es := (pieces t.rows (rowBytes t.fmt t.cols) bytes).flatMap
      (fun r => (r.take (cdiv t.cols 32)).map (fun b => (b.toNat : Int) - 133))
    match es with
    | [] => (0, 0)
    | e :: r => (r.foldl min e, r.foldl max e)
  else (0, 0)

/-- Power of two with an integer exponent, as a fraction. -/
def pow2Frac (e : Int) : Nat × Nat := if 0 ≤ e then (2 ^ e.toNat, 1) else (1, 2 ^ (-e).toNat)

/-- The exactness conditions of R123: columns, weight width and exponents, input width and scale, output width
and scale. -/
def spanOk (cols bw : Nat) (ew emax : Int) (bx : Nat) (sx : Int) (wy : Nat) (sy : Int) : Bool :=
  let t := pow2Frac ((bw : Int) - 1 + emax - ew + (bx : Int) - 1 + ew + sx - sy)
  decide (sy ≤ ew + sx) && decide ((2 ^ (wy - 1) * t.2 + cols * t.1) < 2 ^ 60 * t.2)

/-! ## The check (R124) -/

/-- Output side and input side of one secret: row secrets, projection column words, output and input values. -/
def residueSides (rs s : List Nat) (y x : List Dy) : Nat × Nat :=
  (dot61 rs (y.map phi), dot61 s (x.map phi))

/-- Index of the first secret whose comparison fails. -/
def firstUnequal (sides : List (Nat × Nat)) : Option Nat := sides.findIdx? (fun p => p.1 != p.2)

end Sys2Proof.Machine
end

