-- ==== Sys2Proof/Machine/RefArith.lean ====
section
/-! DEFINITION. Gletica reference arithmetic (R151 to R159) and the banded check (R142 to R148). The real functions
are enclosed between rationals as closely as one rounding needs. -/

namespace Sys2Proof.Machine

/-! ## Enclosures of real functions

`Enc` is an enclosure of a non-negative real at a precision: the real times 2^p lies between the two numbers. -/

/-- Lower and upper bound, in units of 2^−p. -/
abbrev Enc := Nat × Nat

/-- Enclosure of a fraction. -/
def encFrac (p num den : Nat) : Enc := (num * 2 ^ p / den, cdiv (num * 2 ^ p) den)

/-- Product of enclosures. -/
def encMul (p : Nat) (a b : Enc) : Enc := (a.1 * b.1 / 2 ^ p, cdiv (a.2 * b.2) (2 ^ p))

/-- Sum of enclosures. -/
def encAdd (a b : Enc) : Enc := (a.1 + b.1, a.2 + b.2)

/-- Difference of enclosures of a larger and a smaller real. -/
def encSub (a b : Enc) : Enc := (a.1 - b.2, a.2 - b.1)

/-- Quotient of enclosures of a real and a positive real; no upper bound is known while the divisor's lower bound
is still zero at this precision. -/
def encDiv (p : Nat) (a b : Enc) : Enc :=
  (a.1 * 2 ^ p / b.2, if b.1 = 0 then a.2 * 2 ^ p * 2 ^ 5000 else cdiv (a.2 * 2 ^ p) b.1)

/-- Taylor terms of exp of an argument in [0, 1], after the n-th. -/
def expTerms (p : Nat) (y : Enc) : Nat → Nat → Enc → Enc → Enc
  | 0, _, t, acc => (acc.1, acc.2 + 2 * t.2 + 2)
  | fuel + 1, n, t, acc =>
    let u := encMul p t y
    let t' : Enc := (u.1 / (n + 1), cdiv u.2 (n + 1))
    expTerms p y fuel (n + 1) t' (encAdd acc t')

/-- Square an enclosure k times. -/
def encSquare (p : Nat) : Nat → Enc → Enc
  | 0, a => a
  | k + 1, a => encSquare p k (encMul p a a)

/-- exp of a non-negative fraction at most 1,024, by halving the argument eleven times. -/
def expPos (p num den : Nat) : Enc :=
  let y := encFrac p num (den * 2048)
  encSquare p 11 (expTerms p y (p / 8 + 16) 0 (2 ^ p, 2 ^ p) (2 ^ p, 2 ^ p))

/-- exp of minus a non-negative fraction. -/
def expNeg (p num den : Nat) : Enc :=
  if 1024 * den < num then (0, 2 ^ (p - 1400) + 1) else encDiv p (2 ^ p, 2 ^ p) (expPos p num den)

/-- Alternating series of atan(1/n). -/
def atanInv (p n : Nat) : Nat → Nat → Nat → Enc → Enc
  | 0, _, t, acc => (acc.1 - (t + 1), acc.2 + t + 1)
  | fuel + 1, k, t, acc =>
    let u := t / (2 * k + 1)
    let acc : Enc := if k % 2 = 0 then (acc.1 + u, acc.2 + u + 1) else (acc.1 - (u + 1), acc.2 - u)
    atanInv p n fuel (k + 1) (t / (n * n)) acc

/-- π by Machin's formula. -/
def encPi (p : Nat) : Enc :=
  let q := p + 32
  let a := atanInv q 5 (q / 4 + 4) 0 (2 ^ q / 5) (0, 0)
  let b := atanInv q 239 (q / 15 + 4) 0 (2 ^ q / 239) (0, 0)
  let slack := 64 * (q + 8)
  let lo := 16 * a.1 - 4 * b.2 - slack
  let hi := 16 * a.2 - 4 * b.1 + slack
  (lo / 2 ^ 32, cdiv hi (2 ^ 32))

/-- Integer square root by bits, from the given bit down. -/
def isqrtBits (n : Nat) : Nat → Nat → Nat
  | 0, acc => if (acc + 1) * (acc + 1) ≤ n then acc + 1 else acc
  | b + 1, acc =>
    let c := acc + 2 ^ (b + 1)
    isqrtBits n b (if c * c ≤ n then c else acc)

/-- Integer square root. -/
def isqrt (n : Nat) : Nat := isqrtBits n (Nat.log2 n / 2 + 1) 0

/-- Square root of an enclosure. -/
def encSqrt (p : Nat) (a : Enc) : Enc := (isqrt (a.1 * 2 ^ p), isqrt (a.2 * 2 ^ p) + 1)

/-- Integer n-th root by bits, from the given bit down. -/
def rootBits (n k : Nat) : Nat → Nat → Nat
  | 0, acc => if (acc + 1) ^ k ≤ n then acc + 1 else acc
  | b + 1, acc =>
    let c := acc + 2 ^ (b + 1)
    rootBits n k b (if c ^ k ≤ n then c else acc)

/-- base^(−a / b): enclosure. -/
def encPowNeg (p base a b : Nat) : Enc :=
  let r := rootBits (2 ^ (p * b) / base ^ a) b (p + 1) 0
  (r, r + 1)

/-- Alternating Taylor series in y² of sin (first term y) or cos (first term 1), y at most 2. -/
def trigTerms (p : Nat) (y2 : Enc) : Nat → Nat → Enc → (Enc × Enc) → (Enc × Enc)
  | 0, _, t, acc => (acc.1, (acc.2.1 - t.2, acc.2.2 + t.2))
  | fuel + 1, n, t, acc =>
    -- acc holds the sum of the positive terms and the sum of the negative terms
    let u := encMul p t y2
    let d := (n + 1) * (n + 2)
    let t' : Enc := (u.1 / d, cdiv u.2 d)
    trigTerms p y2 fuel (n + 2) t' (encAdd acc.2 t', acc.1)

/-- Sum of the series: even levels of recursion swap the two sums, and the fuel is even. -/
def trigSeries (p : Nat) (y2 first : Enc) (n0 : Nat) : Enc :=
  let r := trigTerms p y2 (2 * (p / 8 + 12)) n0 first (first, (0, 0))
  encSub r.1 r.2

/-- Sine and cosine of a non-negative dyadic argument num / den as a sign and an enclosure of the magnitude:
the argument is reduced by multiples of π/2. -/
def encTrig (p num den : Nat) (cosine : Bool) : Bool × Enc :=
  let q := p + 48
  let pi := encPi q
  -- number of quarter turns, from the lower bound of the argument over π/2
  let x := encFrac q num den
  let k := 2 * x.1 / pi.2
  let y : Enc := (x.1 - cdiv (k * pi.2) 2, x.2 - k * pi.1 / 2)
  let y2 := encMul q y y
  let useCos := (k % 2 == 0) == cosine
  let v := if useCos then trigSeries q y2 (2 ^ q, 2 ^ q) 0 else trigSeries q y2 y 1
  let neg := if cosine then k % 4 == 1 || k % 4 == 2 else k % 4 == 2 || k % 4 == 3
  (neg, (v.1 / 2 ^ 48, cdiv v.2 (2 ^ 48)))

/-- Terms x^(2n+1) / (2n+1)!! summed, x2 = x². -/
def erfTerms (p : Nat) (x2 : Enc) : Nat → Nat → Enc → Enc → Enc
  | 0, _, t, acc => (acc.1, acc.2 + 2 * t.2 + 2)
  | fuel + 1, n, t, acc =>
    let u := encMul p t x2
    let t' : Enc := (u.1 / (2 * n + 3), cdiv u.2 (2 * n + 3))
    erfTerms p x2 fuel (n + 1) t' (encAdd acc t')

/-- 1 − erf(x / √2) and erf(x / √2) of a non-negative dyadic x = num / den: erf is √(2/π) × exp(−x²/2) × Σ. -/
def encErf (p num den : Nat) : Enc × Enc :=
  let one : Enc := (2 ^ p, 2 ^ p)
  if 45 * den < num then
    let t : Enc := (0, 2 ^ (p - 1400) + 1)
    (t, encSub one t)
  else
    -- guard bits for the growth of the series and of its factor
    let k := num / den + 1
    let g := 2 * k * k + 32
    let q := p + g
    let x := encFrac q num den
    let x2 := encFrac q (num * num) (den * den)
    let s := erfTerms q x2 (q / 2 + 3 * k * k + 16) 0 x x
    let c := encSqrt q (encDiv q (2 * 2 ^ q, 2 * 2 ^ q) (encPi q))
    let e := encMul q (encMul q c s) (expNeg q (num * num) (2 * den * den))
    let e : Enc := (e.1 / 2 ^ g, min (2 ^ p) (cdiv e.2 (2 ^ g)))
    (encSub one e, e)

/-- Round the real that a precision-indexed enclosure names: the precision doubles until both bounds round alike. -/
def zivRound (b : Bin) (neg : Bool) (enc : Nat → Enc) : Nat → Nat → FV
  | 0, p => roundFrac b .near neg (enc p).1 (2 ^ p)
  | fuel + 1, p =>
    let e := enc p
    let lo := roundFrac b .near neg e.1 (2 ^ p)
    if lo = roundFrac b .near neg e.2 (2 ^ p) then lo else zivRound b neg enc fuel (2 * p)

/-- A finite magnitude as a fraction. -/
def fracOf (m : Nat) (e : Int) : Nat × Nat := scaleFrac m 1 e

/-! ## Functions of R151 and R154 -/

/-- Enclosure of exp(±x). -/
def encExp (neg : Bool) (m : Nat) (e : Int) (p : Nat) : Enc :=
  let f := fracOf m e
  if neg then expNeg p f.1 f.2 else expPos p f.1 f.2

/-- exp, rounded. -/
def expR (b : Bin) (x : FV) : FV :=
  match x with
  | .nan => .nan
  | .inf s => if s then .zero else .inf false
  | .fin s m e =>
    if m = 0 then .fin false 1 0
    else if !s && ltX (.fin false 1024 0) (.fin false m e) then .inf false
    else zivRound b false (encExp s m e) 7 128

/-- Enclosure of the logistic function of ±x, x non-negative. -/
def encSigmoid (neg : Bool) (m : Nat) (e : Int) (p : Nat) : Enc :=
  let f := fracOf m e
  let t := expNeg p f.1 f.2
  let one : Enc := (2 ^ p, 2 ^ p)
  if neg then encDiv p t (encAdd one t) else encDiv p one (encAdd one t)

/-- sigmoid(x) (R154). -/
def sigmoidR (x : FV) : FV :=
  match x with
  | .nan => .nan
  | .inf s => if s then .zero else .fin false 1 0
  | .fin s m e => zivRound bin32 false (encSigmoid s m e) 7 128

/-- silu(x) = x / (1 + exp(−x)) (R154). -/
def siluR (x : FV) : FV :=
  match x with
  | .nan => .nan
  | .inf s => if s then .fin true 0 0 else .inf false
  | .fin s m e =>
    if m = 0 then x
    else
      let f := fracOf m e
      zivRound bin32 s (fun p => encMul p (encFrac p f.1 f.2) (encSigmoid s m e p)) 7 128

/-- gelu_tanh(x): 0.5 × (1 + tanh u) is the logistic function of 2u, u = √(2/π) (x + 0.044715 x³) (R154). -/
def geluTanhR (x : FV) : FV :=
  match x with
  | .nan => .nan
  | .inf s => if s then .fin true 0 0 else .inf false
  | .fin s m e =>
    if m = 0 then x
    else
      let f := fracOf m e
      let n := f.1
      let d := f.2
      -- x + 0.044715 x³ = n (10^6 d² + 44,715 n²) / (10^6 d³)
      let num := n * (1000000 * d * d + 44715 * n * n)
      let den := 1000000 * d * d * d
      let sig (p : Nat) : Enc :=
        let one : Enc := (2 ^ p, 2 ^ p)
        let big := 2048 * den < num
        let c := encSqrt p (encDiv p (2 * 2 ^ p, 2 * 2 ^ p) (encPi p))
        let u := encMul p c (encFrac p (2 * num) den)
        let tiny : Enc := (0, 2 ^ (p - 1400) + 1)
        let t : Enc := if big then tiny
          else ((expNeg p u.2 (2 ^ p)).1, (expNeg p u.1 (2 ^ p)).2)
        if s then encDiv p t (encAdd one t) else encDiv p one (encAdd one t)
      zivRound bin32 s (fun p => encMul p (encFrac p n d) (sig p)) 7 128

/-- gelu_erf(x) (R154). -/
def geluErfR (x : FV) : FV :=
  match x with
  | .nan => .nan
  | .inf s => if s then .fin true 0 0 else .inf false
  | .fin s m e =>
    if m = 0 then x
    else
      let f := fracOf m e
      let half (p : Nat) : Enc :=
        let r := encErf p f.1 f.2
        let v := if s then r.1 else encAdd (2 ^ p, 2 ^ p) r.2
        (v.1 / 2, cdiv v.2 2)
      zivRound bin32 s (fun p => encMul p (encFrac p f.1 f.2) (half p)) 7 128

/-- Enclosure of tanh of a non-negative fraction: (1 − e^(−2u)) / (1 + e^(−2u)). -/
def encTanh (p num den : Nat) : Enc :=
  let t := expNeg p (2 * num) den
  let one : Enc := (2 ^ p, 2 ^ p)
  encDiv p (encSub one t) (encAdd one t)

/-- tanh of √(2/π) (x + 0.044715 x³), rounded: the primitive inside gelu_tanh (R154, R159). -/
def geluTanhInner (x : FV) : FV :=
  match x with
  | .nan => .nan
  | .inf s => .fin s 1 0
  | .fin s m e =>
    if m = 0 then x
    else
      let f := fracOf m e
      let num := f.1 * (1000000 * f.2 * f.2 + 44715 * f.1 * f.1)
      let den := 1000000 * f.2 * f.2 * f.2
      zivRound bin32 s (fun p =>
        let c := encSqrt p (encDiv p (2 * 2 ^ p, 2 * 2 ^ p) (encPi p))
        let u := encMul p c (encFrac p num den)
        if 2048 * den < num then ((encTanh p u.1 (2 ^ p)).1, 2 ^ p)
        else ((encTanh p u.1 (2 ^ p)).1, (encTanh p u.2 (2 ^ p)).2)) 7 128

/-- erf(x / √2), rounded: the primitive inside gelu_erf (R154, R159). -/
def geluErfInner (x : FV) : FV :=
  match x with
  | .nan => .nan
  | .inf s => .fin s 1 0
  | .fin s m e =>
    if m = 0 then x
    else
      let f := fracOf m e
      zivRound bin32 s (fun p => (encErf p f.1 f.2).2) 7 128

/-- relu(x) (R154); relu(−0) is +0. -/
def reluR (x : FV) : FV :=
  match x with
  | .nan => .nan
  | _ => if ltX .zero x then x else .zero

/-- 1 / sqrt(x), rounded; +∞ at +0 (R151). -/
def rsqrtR (b : Bin) (x : FV) : FV :=
  match x with
  | .nan => .nan
  | .inf s => if s then .nan else .zero
  | .fin s m e =>
    if m = 0 then .inf s
    else if s then .nan
    else
      let f := fracOf m e
      zivRound b false (fun p => encDiv p (2 ^ p, 2 ^ p) (encSqrt p (encFrac p f.1 f.2))) 7 128

/-! ## Norms (R153) -/

/-- rmsnorm. -/
def rmsnorm (x g : List FV) (eps : FV) : List FV :=
  let ms := divNat bin64 .near (sumX (x.map (fun v => mulX v v))) x.length
  let r := rsqrtR bin32 (addX ms eps)
  List.zipWith (fun v w => rn32 (mulX (rn32 (mulX v r)) w)) x g

/-- layernorm. -/
def layernorm (x g b : List FV) (eps : FV) : List FV :=
  let mu := divNat bin64 .near (sumX x) x.length
  let c := x.map (fun v => rn64 (subX v mu))
  let v := divNat bin64 .near (sumX (c.map (fun a => mulX a a))) x.length
  let r := rsqrtR bin32 (addX v eps)
  List.zipWith (fun a w => rn32 (addX (mulX (rn32 (mulX a r)) w.1) w.2)) c (List.zip g b)

/-! ## Rotary embedding (R155) -/

/-- cos or sin of pos × th, rounded to FP32; pos × th is exact. -/
def trig32 (cosine : Bool) (v : FV) : FV :=
  match v with
  | .fin _ m e =>
    if m = 0 then (if cosine then .fin false 1 0 else .zero)
    else
      let f := fracOf m e
      let s := (encTrig 256 f.1 f.2 cosine).1
      zivRound bin32 s (fun p => (encTrig p f.1 f.2 cosine).2) 6 256
  | v => v

/-- th of pair j for a head width: rn64(base^(−2j / dh)). -/
def ropeTheta (base dh j : Nat) : FV :=
  if j = 0 then .fin false 1 0
  else
    let g := Nat.gcd (2 * j) dh
    zivRound bin64 false (fun p => encPowNeg p base (2 * j / g) (dh / g)) 4 256

/-- rope. -/
def ropeR (x : List FV) (pos base layout : Nat) : List FV :=
  let dh := x.length
  (List.range dh).map (fun n =>
    let j := if layout = 0 then n / 2 else n % (dh / 2)
    let first := if layout = 0 then n % 2 == 0 else decide (n < dh / 2)
    let ab := if layout = 0 then (2 * j, 2 * j + 1) else (j, j + dh / 2)
    let th := mulX (intX (pos : Int)) (ropeTheta base dh j)
    let c := trig32 true th
    let s := trig32 false th
    let xa := x.getD ab.1 .zero
    let xb := x.getD ab.2 .zero
    if first then rn32 (subX (mulX xa c) (mulX xb s)) else rn32 (addX (mulX xa s) (mulX xb c)))

/-! ## Re-quantisation (R157) -/

/-- Round a fraction to an integer, ties to even. -/
def roundHalfEven (num den : Nat) : Nat :=
  let q := num / den
  let r := num % den
  if den < 2 * r || (2 * r == den && q % 2 == 1) then q + 1 else q

/-- Round a finite value times a power of two to an integer, clamped into a range. -/
def roundInt (neg : Bool) (m : Nat) (e : Int) (lo hi : Int) : Int :=
  let f := scaleFrac m 1 e
  let v : Int := (roundHalfEven f.1 f.2 : Int)
  let v := if neg then -v else v
  if v < lo then lo else if hi < v then hi else v

/-- q_int. -/
def qInt (x : FV) (bits : Nat) (s : Int) : Int :=
  let hi : Int := ((2 ^ (bits - 1) : Nat) : Int) - 1
  let lo : Int := -((2 ^ (bits - 1) : Nat) : Int)
  match x with
  | .nan => 0
  | .inf n => if n then lo else hi
  | .fin n m e => roundInt n m (e - s) lo hi

/-- emax_elem of an MX format (R142, R157). -/
def emaxElem (fmt : Nat) : Int := if fmt = 0x11 then 8 else if fmt = 0x12 then 15 else if fmt = 0x13 then 2 else 0

/-- Largest finite element value of a small float format. -/
def smallMax (fmt : Nat) : FV :=
  if fmt = 0x11 then .fin false 448 0 else if fmt = 0x12 then .fin false 57344 0 else .fin false 6 0

/-- Element code of a value in a small float format: nearest even, saturating; E5M2 keeps infinities.
(DEDUCED, log entry 90) -/
def smallCode (fmt : Nat) (x : FV) : Nat :=
  let g := fmtGrid fmt
  let ex := if fmt = 0x11 then 4 else if fmt = 0x12 then 5 else 2
  let bias : Int := if fmt = 0x11 then 7 else if fmt = 0x12 then 15 else 1
  let sign := if signX x then 2 ^ (g.1 + ex) else 0
  match x with
  | .nan => 0
  | .inf _ => if fmt = 0x12 then sign + 31 * 4 else sign + (if fmt = 0x11 then 0x7E else 7)
  | .fin _ m e =>
    let f := scaleFrac m 1 e
    let v := roundFrac ⟨g.1, g.2, 200⟩ .near false f.1 f.2
    let v := if ltX (smallMax fmt) v then smallMax fmt else v
    match v with
    | .fin _ m e =>
      if m = 0 then sign
      else
        let l := log2Frac m 1
        let xx := l + e
        if xx < g.2 then
          let q := scaleFrac m 1 (e - (g.2 - (g.1 : Int)))
          sign + q.1 / q.2
        else
          let q := scaleFrac m 1 ((g.1 : Int) - l)
          sign + (xx + bias).toNat * 2 ^ g.1 + (q.1 / q.2 - 2 ^ g.1)
    | _ => sign

/-- q_mx: scale byte and element codes of a block. (DEDUCED, log entry 90) -/
def qMx (fmt : Nat) (x : List FV) : Nat × List Nat :=
  let x := x.map (fun v => if isNan v then .zero else v)
  let amax := (x.map absX).foldl maxX .zero
  if isZero amax then (0, x.map (fun _ => 0))
  else
    let e : Int := match amax with
      | .fin _ m k => max 0 (min 254 (log2Frac m 1 + k - emaxElem fmt + 127))
      | _ => 254
    let xs := e - 127
    (e.toNat, x.map (fun v =>
      if fmt = 0x10 then
        match v with
        | .fin n m k => uns 8 (roundInt n m (k + 6 - xs) (-128) 127)
        | .inf n => if n then 0x80 else 0x7F
        | .nan => 0
      else smallCode fmt (scaleX v (-xs))))

/-- A list in blocks of at most 32. -/
def blocks32 : Nat → List FV → List (List FV)
  | 0, _ => []
  | n + 1, l => if l.isEmpty then [] else l.take 32 :: blocks32 n (l.drop 32)

/-- A vector quantised to a format at a scale exponent: the real value and the ulp exponent of each element
(R150, R152, R157). -/
def quantise (fmt : Nat) (scale : Int) (x : List FV) : List (FV × Int) :=
  if fmtMx fmt then
    (blocks32 x.length x).flatMap (fun b =>
      let q := qMx fmt b
      q.2.map (fun c =>
        let el := elemX fmt 127 c
        (elemX fmt (q.1 : Int) c, ulpExp fmt el + (q.1 : Int) - 127)))
  else if [0x01, 0x02, 0x03, 0x04].contains fmt then
    x.map (fun v => (scaleX (intX (qInt v (fmtBits fmt) scale)) scale, scale))
  else if fmt = 0x20 then
    x.map (fun v => let r := roundTo binBf16 .near (scaleX v (-scale)); (scaleX r scale, ulpExp fmt r + scale))
  else
    x.map (fun v => let r := rn32 (scaleX v (-scale)); (scaleX r scale, ulpExp fmt r + scale))

/-- The codes in which a vector quantised to a format is held: integer codes, the scale byte above the element code of an MX
format, FP32 patterns of BF16 and FP32 before their scale (R157). -/
def quantCodes (fmt : Nat) (scale : Int) (x : List FV) : List F32 :=
  if fmtMx fmt then
    (blocks32 x.length x).flatMap (fun b =>
      let q := qMx fmt b
      q.2.map (fun c => BitVec.ofNat 32 (c + 256 * q.1)))
  else if [0x01, 0x02, 0x03, 0x04].contains fmt then x.map (fun v => BitVec.ofNat 32 (uns 32 (qInt v (fmtBits fmt) scale)))
  else if fmt = 0x20 then x.map (fun v => f32b (roundTo binBf16 .near (scaleX v (-scale))))
  else x.map (fun v => f32b (scaleX v (-scale)))

/-- The same codes of n elements of a record's data. -/
def dataCodes (fmt n : Nat) (data : Bytes) : List F32 :=
  let raws := rawElems fmt n (data.drop (scaleBytes fmt n))
  if fmtMx fmt then raws.mapIdx (fun i c => BitVec.ofNat 32 (c + 256 * byteAt data (i / 32)))
  else if [0x01, 0x02, 0x03, 0x04].contains fmt then raws.map (fun c => BitVec.ofNat 32 (uns 32 (sgn (fmtBits fmt) c)))
  else raws.map (fun c => BitVec.ofNat 32 (if fmt = 0x20 then 65536 * c else c))

/-- The value that a code stands for, in a format at a scale exponent. -/
def codeVal (fmt : Nat) (scale : Int) (x : F32) : FV :=
  if fmtMx fmt then elemX fmt ((x.toNat / 256 % 256 : Nat) : Int) (x.toNat % 256)
  else if [0x01, 0x02, 0x03, 0x04].contains fmt then scaleX (intX (sgn (fmtBits fmt) x.toNat)) scale
  else scaleX (f32v x) scale

/-- Bytes of a vector quantised to an MX or integer format, in the layout of R65. -/
def packElems (fmt : Nat) (scale : Int) (x : List FV) : Bytes :=
  let codes : List Nat :=
    if fmtMx fmt then (blocks32 x.length x).flatMap (fun b => (qMx fmt b).2)
    else if [0x01, 0x02, 0x03, 0x04].contains fmt then x.map (fun v => uns (fmtBits fmt) (qInt v (fmtBits fmt) scale))
    else if fmt = 0x20 then x.map (fun v => toBits binBf16 8 (scaleX v (-scale)))
    else x.map (fun v => toBits bin32 8 (scaleX v (-scale)))
  let sc : Bytes := if fmtMx fmt then
      pad16 ((blocks32 x.length x).map (fun b => BitVec.ofNat 8 (qMx fmt b).1)) else []
  let rec pack : List Nat → Bytes
    | [] => []
    | c :: r =>
      if fmtBits fmt = 4 then
        match r with
        | [] => [BitVec.ofNat 8 c]
        | c2 :: r2 => BitVec.ofNat 8 (c + 16 * c2) :: pack r2
      else leBytes (fmtBits fmt / 8) c ++ pack r
  sc ++ pack codes

/-! ## Output selection (R158) -/

/-- Insert into a list of (index, value) in descending value, ties to the lower index. -/
def topInsert (a : Nat × FV) : List (Nat × FV) → List (Nat × FV)
  | [] => [a]
  | b :: r => if ltX b.2 a.2 then a :: b :: r else b :: topInsert a r

/-- select: none where the function names no token or a check of it fails. -/
def selectToken (l : List FV) (mode : Nat) (invT : FV) (topK draw : Nat) : Option Nat :=
  if l.any isNan then none
  else
    let ix := l.mapIdx (fun i v => (i, v))
    let top := (ix.foldl (fun acc a => topInsert a acc) [])
    if mode = 0 then top.head?.map (fun p => p.1)
    else
      let cand := ((if topK = 0 then top else top.take topK).map (fun p => p.1)).mergeSort
      let m := match top with
        | p :: _ => p.2
        | [] => FV.nan
      let w := cand.map (fun v => (v, expR bin32 (rn32 (mulX (subX (l.getD v .nan) m) invT))))
      let s := rn64 (sumX (w.map (fun p => p.2)))
      if !isFin s || !(w.any (fun p => ltX .zero p.2)) then none
      else
        let t := rn64 (scaleX (mulX (intX (draw : Int)) s) (-32))
        let rec pick : List (Nat × FV) → FV → Option Nat
          | [], _ => none
          | p :: r, acc =>
            let a := addX acc p.2
            if ltX t a then some p.1 else pick r a
        match pick w .zero with
        | some v => some v
        | none => ((w.filter (fun p => ltX .zero p.2)).getLast?).map (fun p => p.1)

/-! ## Banded check (R142 to R148) -/

/-- bsec: the banded row secret of a row secret (R144). -/
def bsec (rs : Nat) : FV := scaleX (intX ((rs / 2 ^ 37 : Nat) - (8388608 : Int))) (-23)

/-- A stored class-2 table entry of an FP64 value: rounded to 49 fraction bits, its bits shifted by 3 (R145). -/
def bandEntry (v : FV) : Nat := f64b (roundTo ⟨49, -1022, 1023⟩ .near v) / 8

/-- The value of a stored class-2 table entry. -/
def bandValue (n : Nat) : FV := f64v (n * 8)

/-- Columns accumulated over the rows by FMA in FP64 from +0 (R145). -/
def bandColumns (bs : List FV) (cols : Nat) (rows : List (List FV)) : List FV :=
  (List.zip bs rows).foldl
    (fun acc p => List.zipWith (fun a w => fma64 .near a (p.1, w)) acc p.2) (List.replicate cols .zero)

/-- wrow: the largest row sum of magnitudes, rounded upward to FP64 (R145). -/
def bandWrow (rows : List (List FV)) : FV :=
  (rows.map (fun r => roundTo bin64 .up (sumX (r.map absX)))).foldl maxX .zero

/-- The blocks of an MX output that fail R142. -/
def badBlocks (fmt n : Nat) (data : Bytes) : Nat :=
  if fmtMx fmt then
    let raws := rawElems fmt n (data.drop (scaleBytes fmt n))
    ((List.range (cdiv n 32)).filter (fun k =>
      byteAt data k != 0 &&
        ((raws.drop (32 * k)).take 32).all (fun c => ltX (absX (elemX fmt 127 c)) (scaleX (intX 1) (emaxElem fmt))))).length
  else 0

/-- Every block of an MX output passes R142. -/
def blockScaleOk (fmt n : Nat) (data : Bytes) : Bool := badBlocks fmt n data == 0

/-- The result of one banded comparison: it passes, and |lhs − rhs| over tau rounded up to FP32. -/
structure Banded where
  ok    : Bool
  ratio : Nat
  deriving DecidableEq, Repr

/-- g_acc = n 2^−24 / (1 − n 2^−24) and h, as exact values over a common denominator: R146's first factor
(g_acc + h) × b1 × wrow × xm is rounded up once with the rest of tau. -/
def tauFrac (cols hn : Nat) (beta16 : Nat) (b1 wrow xm ub yb tb : FV) : Option (Nat × Nat) :=
  -- all operands are finite and non-negative
  match mulX (mulX b1 wrow) xm, ub, addX yb tb with
  | .fin _ m e, .fin _ mu eu, .fin _ my ey =>
    if 2 ^ 24 ≤ cols then none
    else
      let gden := 2 ^ 24 - cols
      let p := scaleFrac m 1 e
      let u := scaleFrac mu 1 eu
      let y := scaleFrac my 1 ey
      -- (cols / gden + hn / 2^52) p + (beta16 / 16) u + (hn / 2^52) y
      let d := gden * 2 ^ 52 * p.2 * u.2 * y.2 * 16
      let n := (cols * 2 ^ 52 + hn * gden) * p.1 * u.2 * y.2 * 16
        + beta16 * gden * 2 ^ 52 * p.2 * u.1 * y.2 + hn * gden * 16 * p.2 * u.2 * y.1
      some (n, d)
  | _, _, _ => none

/-- One comparison of R146: lanes, rows, cols, ulp budget in sixteenths, wrow, secrets, table column values,
output values with their ulp exponents, input values. -/
def bandedCheck (lanes rows cols beta16 : Nat) (wrow : FV) (b t : List FV) (y : List (FV × Int)) (x : List FV) :
    Banded :=
  if y.any (fun p => !isFin p.1) then ⟨false, 0x7F800000⟩
  else
    let lhs := laneSum .near lanes (List.zip b (y.map (fun p => p.1)))
    let rhs := laneSum .near lanes (List.zip t x)
    let yb := laneSum .up lanes (List.zipWith (fun c p => (absX c, absX p.1)) b y)
    let ub := laneSum .up lanes (List.zipWith (fun c p => (absX c, FV.fin false 1 p.2)) b y)
    let tb := laneSum .up lanes (List.zipWith (fun c v => (absX c, absX v)) t x)
    let b1 := laneSum .up lanes (b.map (fun c => (absX c, .fin false 1 0)))
    let xm := (x.map absX).foldl maxX .zero
    let diff := absX (rn64 (subX lhs rhs))
    let tau := match tauFrac cols (max rows cols + 4) beta16 b1 wrow xm ub yb tb with
      | some t => roundFrac bin64 .up false t.1 t.2
      | none => addX (addX (mulX (mulX b1 wrow) xm) ub) (addX yb tb)
    let ratio := match diff, tau with
      | .fin _ m e, .fin _ (tm + 1) te =>
        let f := scaleFrac m (tm + 1) (e - te)
        if m = 0 then FV.zero else roundFrac bin32 .up false f.1 f.2
      | .fin _ 0 _, _ => .zero
      | .fin _ _ _, .inf _ => .zero
      | _, _ => .inf false
    ⟨leX diff tau, toBits bin32 8 ratio⟩

/-- One LAYER_IN element within its band (R150): the streamed value, the reference value and its ulp exponent,
the budget in sixteenths. (DEDUCED, log entry 87) -/
def bandElemOk (xs xr : FV) (ulp : Int) (budget16 : Nat) : Bool :=
  isFin xs && isFin xr && leX (scaleX (absX (subX xs xr)) 4) (mulX (intX (budget16 : Int)) (.fin false 1 ulp))

/-! ## Twiddles and tables of radio functions (R189, R190) -/

/-- Sine or cosine of a quarter turn's fraction num / den below one, enclosed. -/
def encQuarter (p num den : Nat) (cosine : Bool) : Enc :=
  let q := p + 48
  let pi := encPi q
  let y : Enc := (pi.1 * num / (2 * den), cdiv (pi.2 * num) (2 * den))
  let y2 := encMul q y y
  let v := if cosine then trigSeries q y2 (2 ^ q, 2 ^ q) 0 else trigSeries q y2 y 1
  (v.1 / 2 ^ 48, cdiv v.2 (2 ^ 48))

/-- rn64 of the cosine or sine of 2 π m / n. -/
def turn64 (m n : Nat) (cosine : Bool) : FV :=
  let q := 4 * (m % n) / n
  let r := 4 * (m % n) % n
  let useCos := (q % 2 == 0) == cosine
  let neg := if cosine then q == 1 || q == 2 else q == 2 || q == 3
  if r = 0 then (if useCos then .fin neg 1 0 else .zero)
  else zivRound bin64 neg (fun p => encQuarter p r n useCos) 5 128

/-- The twiddles of an FFT size and direction. -/
def twiddles (n dir : Nat) : List (FV × FV) :=
  (List.range n).map (fun m =>
    let s := turn64 m n false
    (turn64 m n true, if dir = 0 then negX s else s))

/-- The two stored words of one table entry t_i[c]: real part, imaginary part. -/
def fftEntry (bs : List FV) (tw : List (FV × FV)) (n sh c : Nat) : List Nat :=
  let terms := (List.range n).map (fun j => (bs.getD j .zero, tw.getD (j * c % n) (.zero, .zero)))
  let re := terms.foldl (fun a t => fma64 .near a (t.1, t.2.1)) .zero
  let im := terms.foldl (fun a t => fma64 .near a (t.1, t.2.2)) .zero
  [bandEntry (scaleX re (-(sh : Int))), bandEntry (scaleX im (-(sh : Int)))]

/-- The table of one secret of an FFT of size n: the words of its entries in order. -/
def fftTable (rs : List Nat) (n dir sh : Nat) : List Nat :=
  let bs := (rs.take n).map bsec
  let tw := twiddles n dir
  (List.range n).flatMap (fftEntry bs tw n sh)

/-- The entries of a stored table: real and imaginary parts. -/
def fftEntries : List Nat → List (FV × FV)
  | re :: im :: r => (bandValue re, bandValue im) :: fftEntries r
  | _ => []

end Sys2Proof.Machine
end

