-- ==== Sys2Proof/Machine/ProgramCheck.lean ====
section
/-! DEFINITION. What admission asks of a manifest and of a check program before it believes them: formats and
classes, the record plan, the parameter block, and the form of the code, with its worst-case cycle count (R121,
R141, R159, R166, R188, R256 to R262, R497, R498). -/

namespace Sys2Proof.Machine

/-! ## Loci -/

/-- Layer of a locus. -/
def locLayer (l : Nat) : Nat := l / 1048576

/-- Op code of a locus. -/
def locOp (l : Nat) : Nat := l / 4096 % 256

/-- Head or tile field of a locus. -/
def locHead (l : Nat) : Nat := l % 4096

/-! ## The manifest beyond its layout -/

/-- The manifest has attention: layers and KV heads. -/
def hasKv (m : Manifest) : Bool := decide (m.nLayers ≠ 0) && decide (m.nKv ≠ 0)

/-- R166 for a manifest with attention. -/
def kvOk (m : Manifest) : Bool :=
  !hasKv m || ([0x02, 0x01, 0x03, 0x20, 0x21].contains m.kvFmt && m.dHead * fmtBits m.kvFmt % 8 == 0
    && (m.densityMin != 2 || m.nKv % 2 == 0))

/-- The op code of an entry is one of the table of R188: FFT, LDPC or CRC. -/
def radioCode (o : OpE) : Bool := decide (0x21 ≤ locOp o.locus ∧ locOp o.locus ≤ 0x23)

/-- A kind-2 manifest has the zero fields of R188 and lists its FFT, LDPC and CRC entries in this order; an entry outside the
table is none of them and is refused by itself. -/
def radioZeros (m : Manifest) : Bool :=
  let ops := m.ops.filter radioCode
  m.kind != 2 || (m.tensors.isEmpty && m.nLayers == 0 && m.nKv == 0 && m.dHead == 0 && m.vocab == 0 && m.alphaMin == 0
    && (ops.zip (ops.drop 1)).all (fun p => decide (locOp p.1.locus ≤ locOp p.2.locus)))

/-- Lifting sizes of TS 38.212 Table 5.3.2-1: a × 2^j up to 384. -/
def liftOk (z : Nat) : Bool :=
  [2, 3, 5, 7, 9, 11, 13, 15].any (fun a => (List.range 8).any (fun j => a * 2 ^ j == z && decide (a * 2 ^ j ≤ 384)))

/-- An op entry of a kind-2 manifest lies inside the table of R188. -/
def radioOp (o : OpE) : Bool :=
  let p := locLayer o.locus
  o.tensor == 0xFFFF && !o.banded &&
  match locOp o.locus with
  | 0x21 => o.cls == 2 && o.inFmt == 0x30 && o.outFmt == 0x30 && decide (1 ≤ o.ulp) && decide (p / 16 ≤ 1)
      && decide (7 ≤ p % 16) && decide (p % 16 ≤ 12)
  | 0x22 => o.cls == 1 && o.inFmt == 0 && o.outFmt == 0 && o.ulp == 0
      && (p / 512 == 1 || p / 512 == 2) && (p % 512 == 0 || liftOk (p % 512))
  | 0x23 => o.cls == 1 && o.inFmt == 0 && o.outFmt == 0 && o.ulp == 0 && (p == 1 || p == 2)
  | _ => false

/-- Every radio op lies inside the table (R188). -/
def radioOk (m : Manifest) : Bool := m.kind != 2 || m.ops.all radioOp

/-- The formats an inference op of its class may use (R121, R141, R177). -/
def classOk (m : Manifest) (o : OpE) : Bool :=
  if m.kind = 2 then true
  else
    let t := m.tensors[o.tensor]?
    match o.cls with
    | 1 =>
      match t with
      | some t => t.role == 1 && [0x02, 0x01, 0x10].contains t.fmt && [0x02, 0x01, 0x03].contains o.inFmt
          && [0x02, 0x01, 0x03, 0x04].contains o.outFmt
      | none => false
    | 2 =>
      match t with
      | some t => t.role == 1 && [0x11, 0x12, 0x13, 0x20].contains t.fmt
          && [0x11, 0x12, 0x13, 0x20, 0x21].contains o.inFmt && [0x20, 0x21, 0x11, 0x12].contains o.outFmt
      | none => false
    | 4 => [0x02, 0x01, 0x03, 0x20, 0x21].contains o.outFmt
    | _ => true

/-! ## The record plan (R257) -/

/-- A record type that carries elements in tiles. -/
def isTensorType (t : Nat) : Bool := t == 1 || t == 2 || t == 3

/-- An end entry: all fields zero, one tile. -/
def endEntryOk (e : PlanE) : Bool :=
  e.fmt == 0 && e.scale == 0 && e.locus == 0 && e.width == 0 && e.tileElems == 0 && e.tiles == 1

/-- The records an op puts into the plan, in order: type, format, locus. -/
def opRecords (o : OpE) : List (Nat × Nat × Nat) :=
  let inRec := if o.banded then [(2, o.inFmt, o.locus)] else []
  match o.cls with
  | 1 => inRec ++ [(1, o.outFmt, o.locus)]
  | 2 => inRec ++ [(1, o.outFmt, o.locus)]
  | 4 => inRec ++ [(3, o.outFmt, o.locus)]
  | 5 => inRec ++ [(6, o.outFmt, o.locus)]
  | _ => inRec

/-- The record type of a radio op. -/
def radioType (o : OpE) : Nat := if locOp o.locus = 0x21 then 7 else if locOp o.locus = 0x22 then 8 else 9

/-- The weight tensor of the op at a locus, of any class that has one. -/
def tensorAt (m : Manifest) (locus : Nat) : Option TensorE :=
  match m.ops.find? (fun o => o.locus == locus && o.tensor != 0xFFFF) with
  | some o => m.tensors[o.tensor]?
  | none => none

/-- Tiles cover the width exactly, and widths agree with the op's weight tensor. -/
def tileOk (m : Manifest) (e : PlanE) : Bool :=
  !isTensorType e.rtype ||
    (decide (1 ≤ e.tiles) && decide ((e.tiles - 1) * e.tileElems < e.width) && decide (e.width ≤ e.tiles * e.tileElems)
      && match tensorAt m e.locus with
        | some t => if e.rtype = 1 then e.width == t.rows else if e.rtype = 2 then e.width == t.cols else true
        | none => true)

/-- The plan has the form of R257 and lists exactly the ops of the op table (R102 step 5). -/
def planOk (m : Manifest) (plan : List PlanE) : Bool :=
  let n := plan.length
  let last := plan.drop (n - 1)
  let body := plan.take (n - 1)
  (last.all (fun e => e.rtype == 5 && endEntryOk e)) && !last.isEmpty &&
  if m.kind = 2 then
    body.map (fun e => (e.rtype, e.locus)) == m.ops.map (fun o => (radioType o, o.locus)) && body.all (fun e => e.fmt == 0)
  else
    let tok := body.drop (body.length - 1)
    let recs := body.take (body.length - 1)
    !tok.isEmpty && tok.all (fun e => e.rtype == 4 && endEntryOk e)
      && recs.all (fun e => [1, 2, 3, 6, 10].contains e.rtype && tileOk m e)
      && (recs.filter (fun e => e.rtype != 10)).map (fun e => (e.rtype, e.fmt, e.locus)) == m.ops.flatMap opRecords

/-! ## The parameter block (R497) -/

/-- The format is an integer format. -/
def isIntFmt (fmt : Nat) : Bool := [0x01, 0x02, 0x03, 0x04].contains fmt

/-- One parameter entry's bytes are legal. -/
def paramOk (b : Bytes) : Bool :=
  let p := parseParam b
  decide (1 ≤ p.kind) && decide (p.kind ≤ 15) && allZero (slice b 6 2)
    && (p.kind == 14 || p.kind == 15 || p.index == 0) && p.locus % 4096 == 0
    && match p.kind with
      | 4 => decide (p.value ≤ 1)
      | 5 => decide (p.value < 4294967296)
      | 9 => decide (p.value ≤ 1)
      | 10 => decide (p.value < 4294967296)
      | 12 => decide (p.value ≤ 13)
      | 15 => decide (p.value ≤ 1)
      | _ => true

/-- Key by which parameter entries rise. -/
def paramKey (p : ParamE) : Nat := (p.locus * 256 + p.kind) * 256 + p.index

/-- The block has an entry of a kind at a locus. -/
def hasParam (p : Program) (locus kind : Nat) : Bool := p.params.any (fun q => q.locus == locus && q.kind == kind)

/-- The block has an entry of a kind for the layer of a locus. -/
def hasLayerParam (p : Program) (locus kind : Nat) : Bool :=
  p.params.any (fun q => locLayer q.locus == locLayer locus && q.kind == kind)

/-- Every constant that an op of the op table uses has its entry: the input scale of a class-1 or class-2 op, softmax scale, window and
integer row scales of an attention layer, the selection constants of a class-5 op, the shift of an FFT entry. -/
def opParams (m : Manifest) (p : Program) (o : OpE) : Bool :=
  if m.kind = 2 then locOp o.locus != 0x21 || hasParam p o.locus 12
  else
    match o.cls with
    | 1 | 2 => hasParam p o.locus 1
    | 4 => hasLayerParam p o.locus 5 && hasLayerParam p o.locus 6
        && (!isIntFmt m.kvFmt || (hasLayerParam p o.locus 7 && hasLayerParam p o.locus 8))
    | 5 => p.params.any (fun q => q.locus == o.locus && q.kind == 9
        && (q.value == 0 || (hasParam p o.locus 10 && hasParam p o.locus 11)))
    | _ => true

/-- The block is in order, legal, has an entry for every constant that the program uses and mirrors the descriptors that the code
names; a program with no constant and no entry uses none and has nothing to mirror. -/
def paramsOk (m : Manifest) (image : Bytes) (p : Program) : Bool :=
  (pieces p.params.length 16 (image.drop (u32At image 36))).all paramOk
    && (p.params.zip (p.params.drop 1)).all (fun q => decide (paramKey q.1 < paramKey q.2))
    && (p.consts.isEmpty && p.params.isEmpty
      || m.ops.all (opParams m p) && Config.paramsMirror p.consts p.code (p.params.map (fun q => (q.locus, q.kind, q.index, q.value))))

/-! ## The form of the code (R258, R261, R498) -/

/-- A word that may transfer: LOOP, JMP, NEXT. -/
def transfers (w : Nat) : Bool := wOp w == 0x08 || wOp w == 0x09 || wOp w == 0x0B

/-- Target of the transfer of word i, if it lies in the code. -/
def jumpTo (code : List Nat) (i : Nat) : Option Nat :=
  match code[i]? with
  | some w =>
    if transfers w then
      let t : Int := (i : Int) + sgn 32 (wImm w)
      if 0 ≤ t ∧ t < code.length then some t.toNat else none
    else none
  | none => none

/-- Words that can follow word i. -/
def succs (code : List Nat) (i : Nat) : List Nat :=
  match code[i]? with
  | none => []
  | some w =>
    (if wOp w = 0x09 ∨ wOp w = 0x0E then [] else [i + 1]) ++ (match jumpTo code i with | some t => [t] | none => [])

/-- The word writes register a. -/
def writesReg (w a : Nat) : Bool :=
  wA w == a && ([0x01, 0x02, 0x03, 0x04, 0x05, 0x06, 0x07, 0x08].contains (wOp w))

/-- Loop bodies: first word, transferring word (R498). -/
def bodies (code : List Nat) : List (Nat × Nat) :=
  (List.range code.length).filterMap (fun i =>
    match code[i]?, jumpTo code i with
    | some w, some t => if (wOp w = 0x08 ∨ wOp w = 0x09) ∧ t ≤ i then some (t, i) else none
    | _, _ => none)

/-- Word i lies in a body. -/
def inBody (b : Nat × Nat) (i : Nat) : Bool := decide (b.1 ≤ i) && decide (i ≤ b.2)

/-- Words reachable from a frontier through words that pass a test. -/
def reach (code : List Nat) (pass : Nat → Bool) : Nat → List Nat → List Nat → List Nat
  | 0, _, seen => seen
  | fuel + 1, front, seen =>
    let next := (front.filter pass).flatMap (succs code)
    let new := (next.filter (fun i => !seen.contains i)).eraseDups
    if new.isEmpty then seen else reach code pass fuel new (seen ++ new)

/-- The words that last wrote register a on the paths that end behind some words, searching backwards; none where a path reaches the
start of the code without one. -/
def lastWrites (code : List Nat) (a : Nat) : Nat → List Nat → List Nat → List Nat → Option (List Nat)
  | 0, _, _, acc => some acc
  | fuel + 1, front, seen, acc =>
    let writers := front.filter (fun j => writesReg (code.getD j 0) a)
    let rest := front.filter (fun j => !writesReg (code.getD j 0) a)
    if rest.contains 0 then none
    else
      let preds := (List.range code.length).filter (fun j =>
        !seen.contains j && (succs code j).any (fun t => rest.contains t))
      if preds.isEmpty then some (acc ++ writers) else lastWrites code a fuel preds (seen ++ preds) (acc ++ writers)

/-- The words outside a body from which a path enters its first word. -/
def entries (code : List Nat) (body : Nat × Nat) : List Nat :=
  (List.range code.length).filter (fun j => !inBody body j && (succs code j).contains body.1)

/-- The bound that a counter's writer gives: none where it is not of the three forms of R498. -/
def writerBound (code consts : List Nat) (maxTokens j : Nat) : Option Nat :=
  let w := code.getD j 0
  match wOp w with
  | 0x01 => if 1 ≤ wImm w ∧ wImm w ≤ 2147483647 then some (wImm w) else none
  | 0x06 =>
    match consts[wImm w]? with
    | some v => if 1 ≤ v ∧ v ≤ 4294967295 then some v else none
    | none => none
  | 0x07 => if wImm w = 4 then some maxTokens else none
  | _ => none

/-- Largest number of a list. -/
def highest (l : List Nat) : Nat := l.foldl max 0

/-- How often a loop's body runs at most: none where the code breaks R498. -/
def loopBound (code consts : List Nat) (maxTokens : Nat) (b : Nat × Nat) : Option Nat :=
  let w := code.getD b.2 0
  if wOp w = 0x08 then
    let a := wA w
    let inside := (List.range code.length).filter (fun i => inBody b i && i != b.2)
    if a = 0 ∨ inside.any (fun i => writesReg (code.getD i 0) a) then none
    else
      match (if b.1 = 0 then none else lastWrites code a (code.length + 1) (entries code b) (entries code b) []) with
      | none => none
      | some ws =>
        let bs := ws.map (writerBound code consts maxTokens)
        if bs.isEmpty ∨ bs.any (fun o => o.isNone) then none else some (highest (bs.map (fun o => o.getD 0)))
  else
    let exits := (List.range code.length).filter (fun i => inBody b i && wOp (code.getD i 0) == 0x0B &&
      (match jumpTo code i with | some t => !inBody b t | none => false))
    let around (n : Nat) : List Nat := reach code (fun i => inBody b i && i != n) (code.length + 1) [b.1] [b.1]
    if exits.any (fun n => !(around n).contains b.2) then some maxTokens else none

/-- Two bodies are disjoint or nested. -/
def nested (a b : Nat × Nat) : Bool :=
  decide (a.2 < b.1) || decide (b.2 < a.1) || (decide (a.1 ≤ b.1) && decide (b.2 ≤ a.2))
    || (decide (b.1 ≤ a.1) && decide (a.2 ≤ b.2))

/-- The control flow has the form of R498. -/
def flowOk (code consts : List Nat) : Bool :=
  let bs := bodies code
  bs.all (fun a => bs.all (nested a))
    && (List.range code.length).all (fun i =>
      match jumpTo code i with
      | some t => bs.all (fun b => inBody b i || !inBody b t || t == b.1)
          && (wOp (code.getD i 0) != 0x0B || decide (i < t))
      | none => !transfers (code.getD i 0))
    && bs.all (fun b => (loopBound code consts 4096 b).isSome)

/-- Core cycles of one word at the most; an engine instruction costs the core 1 cycle (R259, R260). -/
def coreCycles (w : Nat) : Nat :=
  match wOp w with
  | 0x04 => 3 | 0x06 => 4 | 0x07 => 2 | 0x08 => 2 | 0x09 => 2 | 0x0B => 2 | 0x0D => 8 | 0x0E => 4
  | _ => 1

/-- A quantity summed over the words of a program, each as often as the loops around it let it run (R498).
(DEDUCED, log entry 92) -/
def overWords (p : Program) (maxTokens : Nat) (f : Nat → Nat) : Nat :=
  let bs := (bodies p.code).map (fun b => (b, (loopBound p.code p.consts maxTokens b).getD 0))
  ((p.code.zipIdx).map (fun wi =>
    f wi.1 * ((bs.filter (fun b => inBody b.1 wi.2)).foldl (fun a b => a * b.2) 1))).foldl (· + ·) 0

/-- The code holds a may-vary instruction (R262). -/
def mayVaryCode (code : List Nat) : Bool := code.any (fun w => wOp w == 0x34 || wOp w == 0x36)

/-- R159 over the op table: a class-3 op with a budget has only banded_input consumers with at least its budget, and
in STRICT no class-3 op has one. -/
def ulpOk (m : Manifest) (consts : List Nat) (strict : Bool) : Bool :=
  (m.ops.zipIdx).all (fun oi =>
    oi.1.cls != 3 || oi.1.ulp == 0 || (!strict && (m.ops.zipIdx).all (fun qj =>
      !Config.opReads consts qj.2 oi.2 || (qj.1.banded && decide (oi.1.ulp ≤ qj.1.ulp)))))

/-- A may-vary word serves a class-3 op whose budget is not zero (R159). -/
def mayVaryOk (m : Manifest) (p : Program) (w : Nat) : Bool :=
  !mayVaryCode [w] || m.ops.any (fun o => o.locus == (Config.engineUse p.consts (wImm w)).locus && o.cls == 3 && o.ulp != 0)

/-- The code meets R261. -/
def codeOk (m : Manifest) (p : Program) (strict : Bool) : Bool :=
  let code := p.code
  let last := code.getD (code.length - 1) 0
  code.all (fun w => opListed (wOp w) && wordFieldsOk w && (decide (wOp w < 0x20) || decide (wImm w < p.consts.length))
      && (wOp w != 0x06 || decide (wImm w < p.consts.length)))
    && p.mayVary == mayVaryCode code && !(strict && p.mayVary)
    && code.all (mayVaryOk m p) && ulpOk m p.consts strict
    && code.any (fun w => wOp w == 0x0E) && (wOp last == 0x0E || wOp last == 0x09)
    && flowOk code p.consts

/-- A part of an image lies inside it, behind the header. -/
def partOk (len off n sz : Nat) : Bool := n == 0 || (decide (64 ≤ off) && decide (off + n * sz ≤ len))

/-- The image has the form of R256. -/
def imageOk (b : Bytes) : Bool :=
  let len := b.length
  u32At b 0 == 0x50524B43 && u16At b 4 == 0x0100 && decide (byteAt b 6 < 2) && byteAt b 7 == 0
    && decide (1 ≤ u32At b 8) && decide (u32At b 8 ≤ 262144) && decide (u32At b 12 ≤ 1048576)
    && decide (1 ≤ u32At b 16) && decide (u32At b 16 ≤ 1048576) && u32At b 20 == len && decide (u32At b 40 ≤ 65536)
    && allZero (slice b 44 20)
    && partOk len (u32At b 24) (u32At b 8) 16 && partOk len (u32At b 28) (u32At b 12) 8
    && partOk len (u32At b 32) (u32At b 16) 8 && partOk len (u32At b 36) (u32At b 40) 16

/-- Step 5 of admission (R102): the program is one the device may run for this manifest. -/
def programOk (m : Manifest) (image : Bytes) (strict : Bool) : Bool :=
  imageOk image &&
    let p := parseProgram image
    planOk m p.plan && m.ops.all (classOk m) && paramsOk m image p && codeOk m p strict

end Sys2Proof.Machine
end

