-- ==== Sys2Proof/Machine/Curve.lean ====
section
/-! DEFINITION. Ed448 of RFC 8032 and X448 of RFC 7748, as the spec names them for manifests, seals, sessions and
chains (R98, R218, R428, R448). -/

namespace Sys2Proof.Machine

/-- The field prime 2^448 − 2^224 − 1. -/
def p448 : Nat := 2 ^ 448 - 2 ^ 224 - 1

/-- The group order of Ed448. -/
def l448 : Nat :=
  2 ^ 446 - 13818066809895115352007386748515426880336692474882178609894547503885

/-- Bits of a number, most significant first. -/
def bitsDown : Nat → Nat → List Bool
  | 0, _ => []
  | n + 1, v => v.testBit n :: bitsDown n v

/-- Modular power by square and multiply. -/
def powMod (m b e : Nat) : Nat :=
  (bitsDown 448 e).foldl (fun a t => let a2 := a * a % m; if t then a2 * b % m else a2) (1 % m)

/-- Modular subtraction. -/
def subMod (m a b : Nat) : Nat := (a + (m - b % m)) % m

/-- Modular inverse in the field. -/
def inv448 (a : Nat) : Nat := powMod p448 a (p448 - 2)

/-- A point of Ed448 in projective form. -/
structure EdPoint where
  x : Nat
  y : Nat
  z : Nat
  deriving DecidableEq, Repr

/-- The curve constant −39081. -/
def edD : Nat := p448 - 39081

/-- The neutral point. -/
def edZero : EdPoint := ⟨0, 1, 1⟩

/-- The base point. -/
def edBase : EdPoint :=
  ⟨224580040295924300187604334099896036246789641632564134246125461686950415467406032909029192869357953282578032075146446173674602635247710,
   298819210078481492676017930443930673437544040154080242095928241372331506189835876003536878655418784733982303233503462500531545062832660,
   1⟩

/-- Point addition (RFC 8032 section 5.2.4). -/
def edAdd (p q : EdPoint) : EdPoint :=
  let m := p448
  let a := p.z * q.z % m
  let b := a * a % m
  let c := p.x * q.x % m
  let d := p.y * q.y % m
  let e := edD * (c * d % m) % m
  let f := subMod m b e
  let g := (b + e) % m
  let h := (p.x + p.y) * (q.x + q.y) % m
  ⟨a * f % m * subMod m (subMod m h c) d % m, a * g % m * subMod m d c % m, f * g % m⟩

/-- Scalar multiplication. -/
def edMul (k : Nat) (p : EdPoint) : EdPoint :=
  (bitsDown 456 k).foldl (fun a t => let a2 := edAdd a a; if t then edAdd a2 p else a2) edZero

/-- Encoding of a point in 57 bytes. -/
def edEncode (p : EdPoint) : Bytes :=
  let zi := inv448 p.z
  let x := p.x * zi % p448
  let y := p.y * zi % p448
  leBytes 56 y ++ [BitVec.ofNat 8 (128 * (x % 2))]

/-- Decoding of 57 bytes to a point on the curve. -/
def edDecode (bs : Bytes) : Option EdPoint :=
  let v := leVal bs
  let y := v % 2 ^ 455
  let sign := v / 2 ^ 455
  if bs.length ≠ 57 ∨ y ≥ p448 then none
  else
    let m := p448
    let u := subMod m (y * y % m) 1
    let w := subMod m (edD * (y * y % m) % m) 1
    let u3w := u * u % m * u % m * w % m
    let u5w3 := u3w * u % m * u % m * w % m * w % m
    let x := u3w * powMod m u5w3 ((m - 3) / 4) % m
    if w * (x * x % m) % m ≠ u then none
    else if x = 0 ∧ sign = 1 then none
    else some ⟨if x % 2 = sign then x else (m - x) % m, y, 1⟩

/-- The dom4 prefix for pure Ed448 with a context. -/
def dom4 (ctx : Bytes) : Bytes := ascii "SigEd448" ++ [0, BitVec.ofNat 8 ctx.length] ++ ctx

/-- Clamp of an Ed448 secret scalar. -/
def edClamp (h : Bytes) : Nat :=
  let b := h.take 57
  let b := patch b 0 [byteAt b 0 |> fun v => BitVec.ofNat 8 (v - v % 4)]
  let b := patch b 55 [byteAt b 55 |> fun v => BitVec.ofNat 8 (v % 128 + 128)]
  leVal (patch b 56 [0])

/-- Public key of a 57-byte secret. -/
def edPublic (sk : Bytes) : Bytes := edEncode (edMul (edClamp (shake256 sk 114)) edBase)

/-- Pure Ed448 signature with a context string. -/
def edSign (sk ctx msg : Bytes) : Bytes :=
  let h := shake256 sk 114
  let a := edClamp h
  let pk := edEncode (edMul a edBase)
  let r := leVal (shake256 (dom4 ctx ++ h.drop 57 ++ msg) 114) % l448
  let rr := edEncode (edMul r edBase)
  let k := leVal (shake256 (dom4 ctx ++ rr ++ pk ++ msg) 114) % l448
  rr ++ leBytes 57 ((r + k * a) % l448)

/-- Two points are equal. -/
def edEq (p q : EdPoint) : Bool :=
  p.x * q.z % p448 == q.x * p.z % p448 && p.y * q.z % p448 == q.y * p.z % p448

/-- Verification of a pure Ed448 signature. (PRESUMED, log entry 9) -/
def edVerify (pk ctx msg sig : Bytes) : Bool :=
  match edDecode pk, edDecode (sig.take 57) with
  | some a, some r =>
    let s := leVal (sig.drop 57)
    let k := leVal (shake256 (dom4 ctx ++ sig.take 57 ++ pk ++ msg) 114) % l448
    sig.length == 114 && decide (s < l448) &&
      edEq (edMul 4 (edMul s edBase)) (edMul 4 (edAdd r (edMul k a)))
  | _, _ => false

/-- State of the X448 Montgomery ladder: x2, z2, x3, z3, swap. -/
structure Ladder where
  x2 : Nat
  z2 : Nat
  x3 : Nat
  z3 : Nat
  sw : Bool
  deriving DecidableEq, Repr

/-- One step of the ladder (RFC 7748 section 5). -/
def ladderStep (x1 : Nat) (s : Ladder) (kt : Bool) : Ladder :=
  let m := p448
  let sw := s.sw != kt
  let x2 := if sw then s.x3 else s.x2
  let x3 := if sw then s.x2 else s.x3
  let z2 := if sw then s.z3 else s.z2
  let z3 := if sw then s.z2 else s.z3
  let a := (x2 + z2) % m
  let aa := a * a % m
  let b := subMod m x2 z2
  let bb := b * b % m
  let e := subMod m aa bb
  let c := (x3 + z3) % m
  let d := subMod m x3 z3
  let da := d * a % m
  let cb := c * b % m
  let t := (da + cb) % m
  let u := subMod m da cb
  ⟨aa * bb % m, e * ((aa + 39081 * e) % m) % m, t * t % m, x1 * (u * u % m) % m, kt⟩

/-- X448 of a 56-byte scalar and a 56-byte coordinate. (PRESUMED, log entry 9) -/
def x448 (k u : Bytes) : Bytes :=
  let k := patch k 0 [BitVec.ofNat 8 (byteAt k 0 - byteAt k 0 % 4)]
  let k := patch k 55 [BitVec.ofNat 8 (byteAt k 55 % 128 + 128)]
  let x1 := leVal (u.take 56) % p448
  let s := (bitsDown 448 (leVal k)).foldl (ladderStep x1) ⟨1, 0, x1, 1, false⟩
  let x := if s.sw then s.x3 else s.x2
  let z := if s.sw then s.z3 else s.z2
  leBytes 56 (x * inv448 z % p448)

/-- X448 public value of a secret. -/
def x448Public (k : Bytes) : Bytes := x448 k (leBytes 56 5)

end Sys2Proof.Machine
end

