-- ==== Sys2Proof/Machine/Egress.lean ====
section
/-! DEFINITION. The host port: its egress classes and gates, replication and recovery of R-TAG frames, and the stream
filters of incoming frames (R344 to R346, R352). -/

namespace Sys2Proof.Machine

/-! ## Gates (R344) -/

/-- Entry of the operational gate list: open classes and interval. -/
def gateEntry (d : Die) (i : Nat) : Nat × Nat :=
  mgetD (if d.hst.operBank = 0 then d.hst.bank0 else d.hst.bank1) i (15, 1000000)

/-- Time into the cycle at which an entry of the list begins. (DEDUCED, log entry 126) -/
def gateStart (d : Die) (i : Nat) : Nat := ((List.range i).map (fun j => (gateEntry d j).2)).foldl (· + ·) 0

/-- Where the list stands when the ns counter reads `v`: its entry, and the time into its cycle.
(DEDUCED, log entry 126) -/
def gateAt (d : Die) (v : Nat) : Nat × Nat :=
  let off := (((v : Int) - (d.hst.cycleNs : Int)) % ((max 1 d.hst.operCycle : Nat) : Int)).toNat
  ((((List.range d.hst.operN).filter (fun i => decide (gateStart d i ≤ off))).getLast?).getD 0, off)

/-- ns from a reading of the counter to the end of the gate interval that runs then: the last entry holds until the cycle ends. -/
def intervalLeft (d : Die) (v : Nat) : Nat :=
  let p := gateAt d v
  (if p.1 + 1 < d.hst.operN then min d.hst.operCycle (gateStart d (p.1 + 1)) else max 1 d.hst.operCycle) - p.2

/-- ns counter at which the running gate interval ends: a committed bank cuts the list short. -/
def intervalEnd (d : Die) : Nat :=
  let e := d.tim.ns + intervalLeft d d.tim.ns
  match d.hst.swapAt with
  | some t => min e t
  | none => e

/-- Gating is in force (HST_QBV_CFG.en). -/
def gating (d : Die) : Bool := field d pHST 0x054 0 == 1

/-- ns for which the gate of a class surely stays open from a reading of the counter on: up to the first later entry of this
cycle or the next that closes it; none where none does. (DEDUCED, log entry 125) -/
def openFor (d : Die) (cls v : Nat) : Option Nat :=
  let n := d.hst.operN
  let p := gateAt d v
  match (List.range (2 * n)).find? (fun j =>
      decide (p.1 < j) && decide (gateStart d (j % n) < d.hst.operCycle) && !tst (gateEntry d (j % n)).1 cls) with
  | some j => some (d.hst.operCycle * (j / n) + gateStart d (j % n) - p.2)
  | none => none

/-- ns that a frame of some bytes takes on the port, with its Ethernet, IP and UDP headers, FCS and preamble.
(DEDUCED, log entry 125) -/
def frameNs (d : Die) (n : Nat) : Nat := cdiv ((n + 54) * (if field d pHST 0x040 0 = 0 then 8 else 32)) 10

/-- A frame of a class may start when the ns counter reads `v`: its gate is open, and it completes before the gate closes. -/
def mayStart (d : Die) (cls n v : Nat) : Bool :=
  !gating d || (tst (gateEntry d (gateAt d v).1).1 cls &&
    match openFor d cls v with
    | some t => decide (frameNs d n ≤ t)
    | none => true)

/-! ## Sending (R344, R345) -/

/-- A replicated frame is discarded. (DEDUCED, log entry 127) -/
def peerDrop (d : Die) : Die := raise pHST 2 (count pHST 0x084 d)

/-- Bytes of a waiting frame; a PTP event message has 54. -/
def waitLen (w : Waiting) : Nat := if w.ptp.isSome then 54 else w.bytes.length

/-- A frame leaves the port when the ns counter reads `v`, which the port writes into an event message: as originTimestamp of a
request, or as t3 of the residence time of an answer (R340). -/
def leave (w : Waiting) (v : Nat) (d : Die) : Die :=
  if d.hst.linkUp then
    match w.ptp with
    | some p =>
      let d := count pHST 0x074 d
      if p.kind = 2 then emit (.ptp { p with corr := p.corr + (v : Int) }) d
      else emit (.ptp { p with origin := v }) (updHst (fun h => { h with reqT := some v }) d)
    | none =>
      let d := count pHST 0x074 d
      match w.tag with
      | some q => emit (.tagged w.copy q w.bytes) d
      | none => emit (.pannier w.bytes) d
  else if w.tag.isSome then peerDrop d
  else d

/-- The ns counter when the model's own time was `u`. -/
def nsWhen (t : Tim) (u : Nat) : Nat := t.ns - (t.up - u) * nsRate t / airRate

/-- The waiting frame that starts at a time at which the port is free: of the first open class with a frame that may start, its
oldest. -/
def nextFrame (d : Die) (s : Nat) : Option Nat :=
  [3, 2, 1, 0].findSome? (fun cls =>
    match d.hst.egress.findIdx? (fun w => w.cls == cls && decide (w.at_ ≤ s)) with
    | some i => if ((d.hst.egress[i]?).map (fun w => mayStart d cls (waitLen w) (nsWhen d.tim s))).getD false then some i else none
    | none => none)

/-- The next time after `s` at which a frame may start that may not now: another frame comes, or a gate interval ends. -/
def laterStart (d : Die) (s : Nat) : Option Nat :=
  let come := (d.hst.egress.filter (fun w => decide (s < w.at_))).map (fun w => w.at_)
  let gate := if gating d && d.hst.egress.any (fun w => decide (w.cls < 4) && decide (w.at_ ≤ s)) then
      [s + cdiv (intervalLeft d (nsWhen d.tim s) * airRate) (nsRate d.tim)] else []
  (come ++ gate).min?

/-- The port sends what waits from a time on, one frame after the other, as far as a later time. -/
def serve (until_ : Nat) : Nat → Nat → Die → Die
  | 0, _, d => d
  | k + 1, s, d =>
    if until_ < s then d
    else
      match nextFrame d s with
      | some i =>
        match d.hst.egress[i]? with
        | some w =>
          let e := s + frameNs d (waitLen w)
          serve until_ k e (leave w (nsWhen d.tim s) (updHst (fun h => { h with egress := h.egress.eraseIdx i, busy := e }) d))
        | none => d
      | none =>
        match laterStart d s with
        | some s => serve until_ k s d
        | none => d

/-- The port serves what waits up to a time: each frame starts within one cycle of the gates, or not at all.
(DESIGN CHOICE, log entry 202) -/
def serveTo (until_ : Nat) (d : Die) : Die :=
  let first := ((d.hst.egress.map (fun w => w.at_)).min?).getD d.tim.up
  serve until_ ((d.hst.egress.length + 1) * (2 * d.hst.operN + 3)) (max d.hst.busy first) d

/-- A committed bank becomes operational at its time. -/
def switchBank (t : Nat) (d : Die) : Die :=
  updHst (fun h => { h with
    operBank := 1 - h.operBank, operN := max 1 (field d pHST 0x054 1), operCycle := max 1 (field d pHST 0x058 0)
    cycleNs := t, swapAt := none }) d

/-- The port does what it has had to do by now: frames that waited have left as port and gates allowed, under the committed bank
from its time on. (DESIGN CHOICE, log entry 202) -/
def flushEgress (d : Die) : Die :=
  match d.hst.swapAt with
  | some t =>
    if t ≤ d.tim.ns then
      serveTo d.tim.up (switchBank t (serveTo (d.tim.up - cdiv ((d.tim.ns - t) * airRate) (nsRate d.tim)) d))
    else serveTo d.tim.up d
  | none => serveTo d.tim.up d

/-- Put a frame on the host port behind those that wait. -/
def enqueueFrame (w : Waiting) (d : Die) : Die := updHst (fun h => { h with egress := h.egress ++ [w] }) d

/-- Give a frame the next R-TAG of its class and a copy to the other die's port (R345). (DEDUCED, log entry 127) -/
def replicate (cls : Nat) (b : Bytes) (d : Die) : Die :=
  let seq := if cls = 1 then d.hst.txSeq1 else d.hst.txSeq2
  let d := updHst (fun h => if cls = 1 then { h with txSeq1 := (seq + 1) % 65536 } else { h with txSeq2 := (seq + 1) % 65536 }) d
  let d := if d.hst.linkUp then enqueueFrame { cls := cls, at_ := d.tim.up, bytes := b, tag := some seq } d else peerDrop d
  if d.hst.peerPath && d.hst.peerLink then
    updHst (fun h => { h with
      replicas := h.replicas ++ [{ no := h.made, cls := cls, tag := seq, bytes := b }], made := h.made + 1 }) d
  else peerDrop d

/-- A frame of an egress class for the host port: it leaves now where port and gate are free, and waits otherwise. -/
def sendRaw (cls : Nat) (b : Bytes) (d : Die) : Die :=
  if d.regs.enabled.contains pHST then
    if field d pHST 0x040 1 = 1 ∧ (cls = 1 ∨ cls = 2) then flushEgress (replicate cls b d)
    else if d.hst.linkUp then flushEgress (enqueueFrame { cls := cls, at_ := d.tim.up, bytes := b } d)
    else d
  else d

/-- A die fetches the copies that the other die has made for its port, and forgets its own that the other has fetched.
(DESIGN CHOICE, log entry 202) -/
def fetchCopies (peer d : Die) : Die :=
  let new := peer.hst.replicas.filter (fun r => decide (d.hst.fetched ≤ r.no))
  let d := updHst (fun h => { h with
    fetched := max h.fetched peer.hst.made, replicas := h.replicas.filter (fun r => decide (peer.hst.fetched ≤ r.no)) }) d
  new.foldl (fun d r =>
    if d.hst.linkUp then enqueueFrame { cls := r.cls, at_ := d.tim.up, bytes := r.bytes, tag := some r.tag, copy := true } d
    else peerDrop d) d

/-- The port has nothing to send and no gates hold it: what is given to it leaves at once. -/
def portFree (d : Die) : Bool :=
  !gating d && d.hst.egress.isEmpty && decide (d.hst.busy ≤ d.tim.up) && d.hst.swapAt.isNone && d.hst.linkUp

/-! ## Receiving (R345, R346) -/

/-- Fields of a stream filter. -/
def qci (d : Die) (f off lo : Nat) : Nat := fieldSel d f pHST off lo

/-- The filter that takes a frame: the first enabled one whose VLAN id and priority match, else filter 15. -/
def qciFilter (d : Die) (vid pcp : Nat) : Nat :=
  (((List.range 15).filter (fun f =>
    qci d f 0x068 16 == 1 && qci d f 0x068 0 == vid && (qci d f 0x068 15 == 1 || qci d f 0x068 12 == pcp))).head?).getD 15

/-- Meter of a filter filled up to now: bytes. -/
def meterFill (d : Die) (f : Nat) : Nat :=
  let m := (d.hst.meters[f]?).getD {}
  min (qci d f 0x06C 16 * 1024) (m.tokens + (d.tim.up - m.at_) * qci d f 0x06C 0 / 8000)

/-- A frame of some bytes passes its filter's largest SDU and meter, or is discarded and counted. -/
def qciTake (vid pcp n : Nat) (d : Die) : Bool × Die :=
  let f := qciFilter d vid pcp
  let fill := meterFill d f
  if n ≤ qci d f 0x070 0 ∧ n ≤ fill then
    (true, updHst (fun h => { h with meters := h.meters.set f { tokens := fill - n, at_ := d.tim.up } }) d)
  else (false, raise pHST 1 (count pHST 0x07C d))

/-- Vector recovery of an R-TAG frame with a history of 32 (IEEE 802.1CB): whether it goes on.
(DEDUCED, log entry 127) -/
def recover (seq : Nat) (d : Die) : Bool × Die :=
  let put (base : Nat) (hist : List Nat) : Die := updHst (fun h => { h with recovSeq := some base, history := hist }) d
  match d.hst.recovSeq with
  | none => (true, put seq [seq])
  | some base =>
    let delta := sgn 16 ((seq + 65536 - base) % 65536)
    if delta ≥ 32 ∨ delta ≤ -32 then (false, d)
    else if delta ≤ 0 ∧ d.hst.history.contains seq then (false, count pHST 0x080 d)
    else if delta ≤ 0 then (true, put base (seq :: d.hst.history))
    else (true, put seq (seq :: d.hst.history.filter (fun q => decide (sgn 16 ((seq + 65536 - q) % 65536) < 32))))

/-- A frame arrives at the host port, by the own port or over the replication path: whether it goes on.
(PRESUMED, log entry 10) -/
def hostTake (vid pcp n : Nat) (rtag : Option Nat) (viaPeer : Bool) (d : Die) : Bool × Die :=
  if !(d.regs.enabled.contains pHST && (if viaPeer then d.hst.peerPath && d.hst.peerLink else d.hst.linkUp)) then (false, d)
  else
    match qciTake vid pcp n (count pHST 0x078 d) with
    | (false, d) => (false, d)
    | (true, d) =>
      match rtag with
      | some seq => if field d pHST 0x040 2 = 1 then recover seq d else (true, d)
      | none => (true, d)

/-! ## The commands' effects -/

/-- HST_LINK_CHANGE on the die whose port it is. -/
def hostLink (up : Bool) (d : Die) : Die :=
  let now := up && d.regs.enabled.contains pHST
  let was := d.hst.linkUp
  let d := updHst (fun h => { h with linkUp := now }) d
  if was && !now then raise pHST 0 d
  else if now then
    flushEgress (updHst (fun h => { h with
      egress := h.egress.map (fun w => if w.cls = 4 then { w with cls := 2, at_ := d.tim.up } else w) }) d)
  else d

/-- HST_QBV_CFG.swap: the admin bank is committed; it becomes operational at the first start of one of its own cycles,
counted from the base time, that is not past. (DEDUCED, log entry 126) -/
def qbvSwap (d : Die) : Die :=
  let base := field d pHST 0x05C 0 + 4294967296 * field d pHST 0x060 0
  let cycle := max 1 (field d pHST 0x058 0)
  let at_ := if d.tim.ns ≤ base then base else base + cdiv (d.tim.ns - base) cycle * cycle
  updHst (fun h => { h with swapAt := some at_ }) d

/-- QBV_GATE_INTERVAL_END: time passes to the end of the running interval; the next one, or the committed bank, begins. -/
def gateIntervalEnd (peer d : Die) : Die :=
  let left := intervalEnd d - d.tim.ns
  flushEgress (updTim (passNs left) (fetchCopies peer d))

/-- RECOVERY_RESET_TIMEOUT: the recovery takes any next number. -/
def recoveryReset (d : Die) : Die := updHst (fun h => { h with recovSeq := none, history := [] }) d

/-! ## The time clock's cycle -/

/-- The time clock runs from Thaw on, and the host port with it (R332). (DESIGN CHOICE, log entry 1) -/
def tickDie (peer d : Die) : Die :=
  if d.phase == .frost then d else flushEgress (fetchCopies peer { d with tim := timeCycle d.tim })

/-- What the machine does on an empty queue: one cycle of both dies' time clocks. (DESIGN CHOICE, log entry 1) -/
def idle (s : State) : State := { s with dieA := tickDie s.dieB s.dieA, dieB := tickDie s.dieA s.dieB }

end Sys2Proof.Machine
end

