-- ==== Sys2Proof/Machine/Frames.lean ====
section
/-! DEFINITION. Pannier frames a die sends: header, tag, sessions, events and seal fragments (R427, R429, R434,
R435). -/

namespace Sys2Proof.Machine

/-- The 32-byte header of a Pannier frame (R427). -/
def frameHead (typ session seq len status flags ref offset : Nat) : Bytes :=
  leBytes 2 0x4E50 ++ [1, BitVec.ofNat 8 typ] ++ leBytes 4 session ++ leBytes 8 seq ++ leBytes 2 len
    ++ [BitVec.ofNat 8 status, BitVec.ofNat 8 flags] ++ leBytes 4 ref ++ leBytes 8 offset

/-- The tag of a frame under a directional key (R427). -/
def frameTag (key body : Bytes) : Bytes := kmac256 key body 32 (ascii "HW2240 tag")

/-- A whole frame with its tag; OPEN_ACK carries a zero tag. -/
def frameBytes (typ session seq status flags ref offset : Nat) (payload key : Bytes) : Bytes :=
  let b := frameHead typ session seq payload.length status flags ref offset ++ payload
  b ++ (if typ = 2 then zeros 32 else frameTag key b)

/-- A session by its id. -/
def session (d : Die) (id : Nat) : Option Session := d.key.sessions.find? (fun s => s.id == id)

/-- Change a session. -/
def modSession (id : Nat) (f : Session → Session) : Die → Die :=
  updKey (fun k => { k with sessions := k.sessions.map (fun s => if s.id = id then f s else s) })

/-- Egress class of a frame type: seals 1, other frames 2 (R344). -/
def frameClass (typ : Nat) : Nat := if typ = 0x30 then 1 else 2

/-- Send a frame to a session under its next downward number (R429). -/
def sendFrame (id typ status flags ref offset : Nat) (payload : Bytes) (d : Die) : Die :=
  match session d id with
  | none => d
  | some s =>
    sendRaw (frameClass typ) (frameBytes typ id s.downSeq status flags ref offset payload s.kDown)
      (modSession id (fun s => { s with downSeq := s.downSeq + 1 }) d)

/-- Send the RESULT of a request in an egress class and keep it for a repetition (R429). (DEDUCED, log entry 168) -/
def answer (cls id seq status flags offset : Nat) (payload : Bytes) (d : Die) : Die :=
  match session d id with
  | none => d
  | some s =>
    let b := frameBytes 0x7F id s.downSeq status flags (w32 seq) offset payload s.kDown
    sendRaw cls b (modSession id (fun s =>
      { s with downSeq := s.downSeq + 1, cache := ((seq, b) :: s.cache).take 64 }) d)

/-- Send the RESULT of a request that is no bulk transfer. -/
def sendResult (id seq status offset : Nat) (payload : Bytes) (d : Die) : Die := answer 2 id seq status 0 offset payload d

/-- An event to every open operator and maintenance session (R434). -/
def sendEvent (code data : Nat) (d : Die) : Die :=
  let payload := leBytes 2 code ++ zeros 2 ++ leBytes 4 data ++ leBytes 8 d.tim.ns
  (d.key.sessions.filter (fun s => s.isOpen && s.role != 2)).foldl
    (fun d s => sendFrame s.id 0x40 0 0 0 0 payload d) d

/-- The fragments of a byte string, with their offsets: at most `n` of 1,400 bytes. -/
def fragments : Nat → Nat → Bytes → List (Nat × Bytes)
  | 0, _, _ => []
  | n + 1, off, bs => if bs.isEmpty then [] else (off, bs.take 1400) :: fragments n (off + 1400) (bs.drop 1400)

/-- A seal message as SEAL fragments to every session that has subscribed (R435). -/
def sendSeal (no : Nat) (msg : Bytes) (d : Die) : Die :=
  let frs := fragments (msg.length / 1400 + 1) 0 msg
  (d.key.sessions.filter (fun s => s.isOpen && s.sealsOn)).foldl
    (fun d s => frs.foldl (fun d fr =>
      sendFrame s.id 0x30 0 (b2n (decide (fr.1 + fr.2.length < msg.length))) 0 fr.1 (leBytes 8 no ++ fr.2) d) d) d

/-- The code of a phase in GLB_PHASE (R29, R475). -/
def phaseCode : Phase → Nat
  | .frost => 0 | .thaw => 1 | .spring => 2 | .summer => 3 | .autumn => 4

/-- Enter a phase: note the slot and send the event of the change (R434 code 3). -/
def enterPhase (p : Phase) (d : Die) : Die :=
  if d.phase = p then d else sendEvent 3 (phaseCode p) { d with phase := p, phaseSlot := slotCount d }

end Sys2Proof.Machine
end

