-- ==== Sys2Proof/Machine/Chans.lean ====
section
/-! DEFINITION. Channels, tickets and ratchets: how a die reads and changes them (R285 to R297). -/

namespace Sys2Proof.Machine

/-! ## Channels -/

/-- The descriptor of a channel id; an id never created reads as FREE. -/
def chan (d : Die) (c : Nat) : Chan := mgetD d.chn.tab c {}

/-- Replace a channel. -/
def setChan (c : Nat) (x : Chan) : Die → Die := updChn (fun n => { n with tab := mset n.tab c x })

/-- Change a channel that the table lists. -/
def modChan (c : Nat) (f : Chan → Chan) : Die → Die := updChn (fun n => { n with tab := mmod n.tab c f })

/-- Change a channel's arrival state. -/
def modArr (c : Nat) (f : Arrival → Arrival) : Die → Die := modChan c (fun x => { x with wrd := f x.wrd })

/-- The channel is OPEN or PAUSED. -/
def chanLive (x : Chan) : Bool := x.state == .opened || x.state == .paused

/-- Ids of the channels that meet a condition, ascending. -/
def chansWhere (d : Die) (p : Chan → Bool) : List Nat := (d.chn.tab.filter (fun e => p e.2)).map (fun e => e.1)

/-- Code of a channel's state in its descriptor (R285). -/
def stateCode : ChanState → Nat
  | .free => 0 | .opened => 1 | .paused => 2 | .closed => 3 | .retired => 4

/-- Slot byte of the descriptor: 64 and above name a Sentinel image. -/
def isSentinel (h : ChanHost) : Bool := h.kind == 3

/-- The 256 bytes of a descriptor as CHN_CMD.read shows them (R285): zeros where no create has filled it, or free has emptied it. -/
def descBytes (x : Chan) : Bytes :=
  let h := x.host
  if x.state == .free && x.pend.isNone then zeros 256
  else fitTo 256 ([BitVec.ofNat 8 (stateCode x.state), BitVec.ofNat 8 h.kind, BitVec.ofNat 8 h.slot, BitVec.ofNat 8 h.group,
      BitVec.ofNat 8 h.vc, BitVec.ofNat 8 (b2n h.safety + 2 * b2n x.coupled + 4 * b2n h.canary),
      BitVec.ofNat 8 h.ringLog2, BitVec.ofNat 8 h.maxOpen]
    ++ leBytes 4 h.maxTokens ++ leBytes 4 h.ctx ++ leBytes 4 h.alpha ++ leBytes 4 x.alphaRep
    ++ [BitVec.ofNat 8 x.density, BitVec.ofNat 8 h.inMode, BitVec.ofNat 8 h.stream, BitVec.ofNat 8 h.frames]
    ++ leBytes 2 h.ledgerRat ++ [BitVec.ofNat 8 h.zone, BitVec.ofNat 8 x.endCause, BitVec.ofNat 8 h.mu,
      BitVec.ofNat 8 h.arrSym, BitVec.ofNat 8 h.winSym, BitVec.ofNat 8 h.patLen] ++ leBytes 10 h.pattern
    ++ leBytes 2 h.maxFft ++ leBytes 2 h.maxCb ++ leBytes 2 h.maxTb ++ leBytes 4 h.sMax ++ zeros 8
    ++ leBytes 4 x.validEnd ++ leBytes 4 x.append ++ leBytes 4 x.voidPos ++ leBytes 4 x.markings
    ++ leBytes 4 x.wrd.nextSeq ++ leBytes 4 x.wrd.nextBatch ++ leBytes 4 x.ringHead ++ leBytes 4 x.ringTail
    ++ leBytes 4 x.framesBound ++ leBytes 4 x.openSlot ++ leBytes 4 x.setbacks)

/-- The group that owns a channel. -/
def ownerLead (d : Die) (x : Chan) : Nat := (pipe d x.host.group).lead

/-- One channel's records come before another's of the same cycle: by owner pipeline, then by channel (R212). -/
def recordLe (d : Die) (a b : Nat) : Bool :=
  let p := groupLead d (ownerLead d (chan d a))
  let q := groupLead d (ownerLead d (chan d b))
  decide (p < q) || (p == q && decide (a ≤ b))

/-- Channels in the order in which their records of one cycle go into the tree (R212). -/
def recordOrder (d : Die) (cs : List Nat) : List Nat := cs.mergeSort (recordLe d)

/-! ## Tickets (R294) -/

/-- The tickets of a channel, in the order they were taken. -/
def chanTickets (d : Die) (c : Nat) : List Batch := d.chn.tickets.filter (fun b => b.channel == c)

/-- A ticket by its serial. -/
def ticket (d : Die) (serial : Nat) : Option Batch := d.chn.tickets.find? (fun b => b.serial == serial)

/-- Change a ticket. -/
def modTicket (serial : Nat) (f : Batch → Batch) : Die → Die :=
  updChn (fun n => { n with tickets := n.tickets.map (fun b => if b.serial = serial then f b else b) })

/-- Release a ticket. -/
def dropTicket (serial : Nat) : Die → Die :=
  updChn (fun n => { n with tickets := n.tickets.filter (fun b => b.serial != serial) })

/-- The open ticket of a channel: the one whose records WRD is taking. -/
def openTicket (d : Die) (c : Nat) : Option Batch := (chanTickets d c).find? (fun b => !b.closed)

/-- Add a cause of FAIL at a token. -/
def addFail (token cause : Nat) (b : Batch) : Batch :=
  if b.fails.contains (token, cause) then b else { b with fails := b.fails ++ [(token, cause)] }

/-- Add a cause of LATE. -/
def addLate (cause : Nat) (b : Batch) : Batch :=
  if b.lates.contains cause then b else { b with lates := b.lates ++ [cause] }

/-! ## Ratchets (R295 to R297) -/

/-- The RAT page that serves a ratchet (R301). -/
def ratPage (r : Nat) : Nat := pRAT + r / 1024

/-- A ratchet; one never used reads as zero, unused. -/
def ratchet (d : Die) (r : Nat) : Ratchet := mgetD d.rat.tab r {}

/-- Replace a ratchet. -/
def setRatchet (r : Nat) (x : Ratchet) : Die → Die := updRat (fun t => { t with tab := mset t.tab r x })

/-- The ledger ratchet that a channel names, if it enables one (R285). -/
def ledgerRatchet (h : ChanHost) : Option Nat := if tst h.ledgerRat 15 then some (h.ledgerRat % 4096) else none

/-- A model is still on its way to READY. (DEDUCED, log entry 73) -/
def admitting (m : Model) : Bool :=
  m.state == .rpmb || m.state == .queued || m.state == .streaming || m.state == .built

/-- A running admission, a running Month turn or a channel that is not FREE names a ratchet (R296).
(DEDUCED, log entry 73) -/
def named (d : Die) (r : Nat) : Bool :=
  d.adm.models.any (fun e => (admitting e.2 || e.2.turn.isSome) && e.2.loadRatchet == r)
    || d.chn.tab.any (fun e => (e.2.state != .free || e.2.pend.isSome) && ledgerRatchet e.2.host == some r)

/-- The owner in force: device while something names the ratchet (R296). -/
def ownerOf (d : Die) (r : Nat) : Nat := if named d r then 1 else (ratchet d r).owner

/-- Raise a ratchet for one of its owners under the larger-value rule (R295). -/
def raiseRat (owner r v : Nat) (d : Die) : Die :=
  let x := ratchet d r
  let v := min v 18446744073709551615
  if ownerOf d r ≠ owner ∨ v ≤ x.value then raise (ratPage r) 0 (count (ratPage r) 0x050 d)
  else
    let d := setRatchet r { x with value := v, owed := x.owed || owner != 2 } d
    if v = 18446744073709551615 then raise (ratPage r) 1 d else d

end Sys2Proof.Machine
end

