-- ==== Sys2Proof/Machine/Seals.lean ====
section
/-! DEFINITION. The seal tree, seal periods, the seal header and message, release, and the two signature engines
(R212 to R220, R228 to R230, R275, R342). -/

namespace Sys2Proof.Machine

/-! ## The seal tree -/

/-- Largest power of two below n, from a power of two at most n, doubling at most `fuel` times. -/
def splitBelow (n : Nat) : Nat → Nat → Nat
  | 0, m => m
  | fuel + 1, m => if 2 * m < n then splitBelow n fuel (2 * m) else m

/-- mth over leaf hashes (R212); `fuel` bounds the depth of the tree. -/
def mthOf : Nat → List Bytes → Bytes
  | 0, _ => h32 [0x02]
  | _ + 1, [] => h32 [0x02]
  | _ + 1, [l] => l
  | fuel + 1, ls =>
    let m := splitBelow ls.length 32 1
    h32 ([0x01] ++ mthOf fuel (ls.take m) ++ mthOf fuel (ls.drop m))

/-- Ones among the binary digits of a number. -/
def onesOf : Nat → Nat → Nat
  | 0, _ => 0
  | fuel + 1, n => n % 2 + onesOf fuel (n / 2)

/-- Inner nodes hashed while n leaves come in: every subtree that is complete (R213). -/
def innerDone (n : Nat) : Nat := n - onesOf 32 n

/-- Hashes that remain of a tree of n leaves when its period ends (R213). -/
def innerLeft (n : Nat) : Nat := if n = 0 then 1 else onesOf 32 n - 1

/-- The verdict root over 64-byte records. -/
def verdictRoot (records : List Bytes) : Bytes := mthOf 40 (records.map (fun r => h32 ([0x00] ++ r)))

/-- Count the Keccak permutations of hashing some bytes (R227). (DEDUCED, log entry 98) -/
def countPerms (bytes : Nat) : Die → Die := countN pSHK 0x058 (bytes / 136 + 1)

/-! ## Time flags (R342) -/

/-- The die reports time uncertain. -/
def timeUncertain (d : Die) : Bool :=
  d.tim.at_ != .locked || field d pTIM 0x058 0 == 0 || (field d pTIM 0x074 2 == 1 && d.tim.ptp != .locked)
    || d.tim.disagree

/-- The seal period takes note of the time flags as they stand (R216). -/
def noteTime (d : Die) : Die :=
  let u := timeUncertain d
  updSealing (fun s => { s with
    uncertain := s.uncertain || u
    airLocked := s.airLocked && d.tim.at_ == .locked
    ptpLocked := s.ptpLocked && d.tim.ptp == .locked
    asym := s.asym || d.tim.ptp == .frozen }) d

/-! ## Periods (R214, R215, R228) -/

/-- Signature engines in service. -/
def enginesUp (d : Die) : Nat := (d.sig.state.filter (fun x => x == 1)).length

/-- Period in symbols that the configuration asks for, clamped (R214). -/
def periodSym (d : Die) : Nat :=
  let p := field d pSIG 0x040 0
  let mu := d.tim.mu
  if p = 0 then 14 * 2 ^ mu
  else clamp (if mu = 0 then 2 else if mu = 1 then 4 else if mu = 2 then 7 else 14) (1400 * 2 ^ mu) p

/-- Period in force: with one engine, the smallest multiple that reaches 250 µs (R228). -/
def effPeriodOf (d : Die) : Nat :=
  let p := periodSym d
  if enginesUp d = 1 ∧ 2 * p < 7 * 2 ^ d.tim.mu then cdiv (7 * 2 ^ d.tim.mu) (2 * p) * p else p

/-- 14 × slot count + symbol. -/
def symIndex (d : Die) : Nat := 14 * slotCount d + symbolOf d.tim

/-- Begin a seal period here. A period that is lengthened is reported where its length, or what was asked for, is new. -/
def startPeriod (d : Die) : Die :=
  let p := effPeriodOf d
  let stretched := p != periodSym d && (p != d.sealing.effPeriod || periodSym d != d.sealing.asked)
  let d := updSealing (fun s => { s with
    running := true, leaves := [], startSlot := slotCount d, startNs := d.tim.ns
    startIdx := symIndex d, startUp := d.tim.up, effPeriod := p, asked := periodSym d
    uncertain := timeUncertain d, airLocked := d.tim.at_ == .locked, ptpLocked := d.tim.ptp == .locked
    asym := d.tim.ptp == .frozen, startMap := d.key.mapDigest }) d
  if stretched then raise pSIG 5 d else d

/-- Length of the open period in ns: from the symbol count where it agrees with the time that has passed. -/
def periodLen (d : Die) : Nat :=
  let bySym := (symIndex d - d.sealing.startIdx) * slotNs d.tim.mu / 14
  let byUp := d.tim.up - d.sealing.startUp
  if bySym ≤ byUp + 2 ∧ byUp ≤ bySym + 2 then bySym else byUp

/-- The distinct model table entries that the leaves name, ascending by slot and Month (R217). -/
def modelTable (leaves : List Leaf) : List Bytes :=
  (leaves.foldl (fun t l => mset t (byteAt l.entry 0 * 4294967296 + u32At l.entry 4) l.entry) ([] : AMap Bytes)).map
    (fun e => e.2)

/-- The seal header of the open period (R216). -/
def sealHeader (d : Die) (cut : Bool) (table : List Bytes) : Bytes :=
  let s := d.sealing
  let flags := b2n s.uncertain + 2 * b2n cut + 4 * b2n (enginesUp d == 1)
  let src := d.tim.inUse + 4 * b2n s.airLocked + 8 * b2n s.ptpLocked + 16 * b2n s.asym
  leBytes 4 0x4C414553 ++ leBytes 2 0x0100 ++ [BitVec.ofNat 8 d.which.num, BitVec.ofNat 8 flags]
    ++ leBytes 8 s.nextNo ++ leBytes 4 d.key.rpmb.bootNo ++ leBytes 4 s.startSlot ++ leBytes 8 s.startNs
    ++ leBytes 4 (periodLen d) ++ leBytes 4 s.leaves.length ++ leBytes 4 table.length
    ++ [BitVec.ofNat 8 (phaseCode d.phase), BitVec.ofNat 8 d.key.grade, BitVec.ofNat 8 src, 0]
    ++ leBytes 4 d.key.fwVersion ++ zeros 4 ++ verdictRoot (s.leaves.map (fun l => l.record))
    ++ h32 ([0x05] ++ table.flatMap id) ++ s.prev ++ fitTo 32 s.startMap ++ d.wdn.switchDigest
    ++ fitTo 32 d.key.device ++ zeros 8

/-- The signature of a seal header (R218). -/
def sealSign (d : Die) (header : Bytes) : Bytes := edSign d.key.idSecret (ascii "HW2240 seal") header

/-- The engine that takes the next seal: the two alternate, a retired one is passed over. -/
def nextSigEngine (d : Die) : Nat :=
  let e := d.sealing.nextEngine % 2
  if d.sig.state[e]? == some 1 then e else 1 - e

/-- End the open period, with its header, table and body, and hand it to a signature engine (R215 to R219). -/
def closePeriod (cut : Bool) (d : Die) : Die :=
  if d.sealing.running then
    let ls := d.sealing.leaves
    let table := modelTable ls
    let header := sealHeader d cut table
    let sig := sealSign d header
    let w : SealWait :=
      { no := d.sealing.nextNo, header := header, table := table.flatMap id
        body := ls.flatMap (fun l => l.record ++ l.inDig ++ l.outDig), sig := sig, engine := nextSigEngine d }
    let d := peak pSHK 0x054 ls.length (countN pSHK 0x058 (innerLeft ls.length) (countPerms (1 + 96 * table.length) d))
    updSealing (fun s => { s with
      running := false, nextNo := s.nextNo + 1, leaves := [], prev := h32 (header ++ sig)
      waiting := s.waiting ++ [w], nextEngine := w.engine + 1 }) d
  else d

/-- End the open period and begin the next one. -/
def turnPeriod (cut : Bool) (d : Die) : Die := if d.sealing.running then startPeriod (closePeriod cut d) else d

/-- A boundary of the open period lies behind it: its end is due (R26, R214). -/
def periodDue (d : Die) : Bool :=
  d.sealing.running && decide (d.sealing.effPeriod ≠ 0 ∧ symIndex d / d.sealing.effPeriod ≠ d.sealing.startIdx / d.sealing.effPeriod)

/-- A due period ends before anything else happens (R26). -/
def turnDue (d : Die) : Die := if periodDue d then turnPeriod false d else d

/-- ns from now to the next boundary of the open period. -/
def toSeal (d : Die) : Nat :=
  let p := d.sealing.effPeriod
  let q := symbolOf d.tim + (p - symIndex d % p)
  q / 14 * slotNs d.tim.mu + cdiv (q % 14 * slotNs d.tim.mu) 14 - d.tim.air % slotNs d.tim.mu

/-- Time passes up to each boundary of the open period that lies within `n` ns, and the period ends there (R214, R275). -/
def sealsWithin (advance : Nat → Tim → Tim) : Nat → Nat → Die → Die
  | 0, _, d => d
  | k + 1, n, d =>
    if d.sealing.running = true ∧ d.sealing.effPeriod ≠ 0 ∧ toSeal d ≤ n then
      sealsWithin advance k (n - toSeal d) (turnPeriod false (updTim (advance (toSeal d)) d))
    else d

/-- `n` ns of air-time pass, and each seal period whose boundary they bring ends there (R26, R275). -/
def passSealed (n : Nat) (d : Die) : Die :=
  let e := sealsWithin pass (n / 125000 + 2) n (turnDue d)
  updTim (pass (d.tim.up + n - e.tim.up)) e

/-- Time passes until the next verdict may commit: at most one in 16 control-fabric cycles (R213). -/
def toCommit (d : Die) : Die :=
  match d.sealing.lastCommit with
  | some t => if d.tim.up < t + cycNs 16 then passSealed (t + cycNs 16 - d.tim.up) d else d
  | none => d

/-- A committed record joins the open period, after the end of one that is due; the leaf limit closes it (R26, R212,
R213). -/
def addLeaf (l : Leaf) (d : Die) : Die :=
  let d := turnDue d
  if d.sealing.running then
    let n := d.sealing.leaves.length
    let d := countN pSHK 0x058 (1 + innerDone (n + 1) - innerDone n)
      (updSealing (fun s => { s with leaves := s.leaves ++ [l], lastCommit := some d.tim.up }) d)
    if d.sealing.leaves.length = 16777216 then turnPeriod true d else d
  else d

/-! ## Release (R219, R220) -/

/-- A seal message: header, signature, zeros, model table, body (R219). -/
def sealMessage (w : SealWait) : Bytes := w.header ++ w.sig ++ zeros 14 ++ w.table ++ w.body

/-- Bytes of the body buffer that the retained bodies take. (DEDUCED, log entry 97) -/
def bodyFill (bs : List SealBody) : Nat := bs.foldl (fun a b => a + (b.bytes.length - 384)) 0

/-- Discard one retained body: count it, report it (R220, R434 code 6). (DEDUCED, log entry 97) -/
def dropBody (no : Nat) (d : Die) : Die :=
  if d.sealing.bodies.any (fun b => b.no == no) then
    sendEvent 6 (w32 no) (raise pSIG 4 (count pSIG 0x06C
      (updSealing (fun s => { s with bodies := s.bodies.filter (fun b => b.no != no) }) d)))
  else d

/-- Discard the oldest bodies until what is left fits the 64 MiB buffer; at most `fuel` of them.
(DEDUCED, log entry 97) -/
def fitBodies : Nat → Die → Die
  | 0, d => d
  | fuel + 1, d =>
    if bodyFill d.sealing.bodies ≤ 67108864 then d
    else
      match d.sealing.bodies with
      | [] => d
      | b :: _ => fitBodies fuel (dropBody b.no d)

/-- Release a signed seal to host software. -/
def releaseSeal (w : SealWait) (d : Die) : Die :=
  let msg := sealMessage w
  let d := countPerms 370 (count pSIG 0x060 d)
  let d := updSealing (fun s => { s with
    headers := (s.headers ++ [(w.no, w.header ++ w.sig)]).drop (s.headers.length + 1 - 65536)
    bodies := s.bodies ++ [{ no := w.no, bytes := msg }]
    lastNo := w.no, lastDig := h32 (w.header ++ w.sig) }) d
  sendSeal w.no msg (fitBodies (d.sealing.bodies.length + 1) d)

/-! ## Engines (R228) -/

/-- Retire a signature engine: its waiting seals go to the other. -/
def retireEngine (e : Nat) (d : Die) : Die :=
  if d.sig.state[e]? == some 1 then
    let d := { d with sig := { d.sig with state := d.sig.state.set e 3 } }
    let d := updSealing (fun s => { s with
      waiting := s.waiting.map (fun w => if w.engine = e then { w with engine := 1 - e } else w) }) d
    let d := raise pSIG 2 d
    if enginesUp d = 0 then raise pSIG 3 d else d
  else d

/-- A window of `ms` milliseconds since an internal time has not ended. -/
def within (d : Die) (ms at_ : Nat) : Bool := decide (d.tim.up - at_ ≤ ms * 1000000)

/-- The engine that signed the front seal failed: note the failure, retire the engine at its second one within
the window, and let the other engine sign the same header. -/
def failEngine (d : Die) : Die :=
  match d.sealing.waiting with
  | [] => d
  | w :: r =>
    let e := w.engine
    let again := match mget d.sig.codeAt e with
      | some t => within d (field d pSHK 0x040 16) t
      | none => false
    let d := { d with sig := { d.sig with codeAt := mset d.sig.codeAt e d.tim.up } }
    let other := if d.sig.state[1 - e]? == some 1 then 1 - e else e
    let d := updSealing (fun s => { s with waiting := { w with engine := other, failed := e :: w.failed } :: r }) d
    if again then retireEngine e d else d

/-- SEAL_SIGNED: the engine finished the front seal; a code check and, for one seal in every verify_every, a
verification by the other engine decide its release. (DEDUCED, log entry 99; DESIGN CHOICE, log entry 186) -/
def sealSigned (codeOk verifyOk : Bool) (d : Die) : Die :=
  match d.sealing.waiting with
  | [] => d
  | w :: r =>
    if enginesUp d = 0 then d
    else if !codeOk then failEngine (raise pSIG 0 d)
    else
      let sampled := w.no % (max 1 (field d pSIG 0x040 16)) == 0 && enginesUp d == 2
      let d := if sampled then count pSIG 0x064 d else d
      if sampled && !verifyOk then failEngine (raise pSIG 1 (count pSIG 0x068 d))
      else releaseSeal w (updSealing (fun s => { s with waiting := r }) d)

/-- SEAL_SIGNED on a die. -/
def execSealSigned (d : DieId) (codeOk verifyOk : Bool) (s : State) : Host.Outcome State Fault Refusal :=
  runDie d (sealSigned codeOk verifyOk) s

/-- SEAL_PERIOD_BOUNDARY: end the period where the symbol count is a multiple of the period in force (R214, R275). -/
def sealBoundary (d : Die) : Die :=
  if d.sealing.running && decide (d.sealing.effPeriod ≠ 0) && symIndex d % d.sealing.effPeriod == 0
      && symIndex d != d.sealing.startIdx then turnPeriod false d
  else d

/-- SEAL_PERIOD_BOUNDARY on a die. -/
def execSealPeriodBoundary (d : DieId) (s : State) : Host.Outcome State Fault Refusal := runDie d sealBoundary s

/-- SIG_CMD.cut: the period ends at the next slot boundary (R215, R230). -/
def execSigCmdCut (d : DieId) (s : State) : Host.Outcome State Fault Refusal :=
  runDie d (fun x => if x.sealing.running then updSealing (fun q => { q with cutPend := true }) x else x) s

/-- A commanded retirement of an engine, ignored for the last one in service (R230). -/
def cmdRetireEngine (e : Nat) (d : Die) : Die := if enginesUp d = 2 then retireEngine e d else d

/-- SIG_CMD.retire0. -/
def execSigCmdRetire0 (d : DieId) (s : State) : Host.Outcome State Fault Refusal := runDie d (cmdRetireEngine 0) s

/-- SIG_CMD.retire1. -/
def execSigCmdRetire1 (d : DieId) (s : State) : Host.Outcome State Fault Refusal := runDie d (cmdRetireEngine 1) s

end Sys2Proof.Machine
end

