-- ==== Sys2Proof/Machine/Messages.lean ====
section
/-! DEFINITION. Messages between dies: Spoke messages to the peer die of the package (R246, R247), and Peloton
messages with the routes of the fabric (R441 to R445, R448, R450). -/

namespace Sys2Proof.Machine

/-! ## Spoke -/

/-- The 96 bytes of a Spoke message (R247). -/
def spokeBytes (typ sub chan a b c cause : Nat) (d1 d2 : Bytes) : Bytes :=
  let m := [BitVec.ofNat 8 typ, BitVec.ofNat 8 sub] ++ leBytes 2 chan ++ leBytes 4 a ++ leBytes 4 b ++ leBytes 4 c
    ++ [BitVec.ofNat 8 cause] ++ zeros 11 ++ fitTo 32 d1 ++ fitTo 32 d2
  m ++ leBytes 4 (crc32c m)

/-- Send a Spoke message to the peer die. -/
def sendSpoke (typ sub chan a b c cause : Nat) (d1 d2 : Bytes) (d : Die) : Die :=
  emit (.spoke (spokeBytes typ sub chan a b c cause d1 d2)) d

/-- A received Spoke message is whole: 96 bytes of its type with a right CRC and zero reserved bytes (R246, R247). -/
def spokeOk (typ : Nat) (m : SpokeMsg) : Bool :=
  m.body.length == 96 && byteAt m.body 0 == typ && u32At m.body 92 == crc32c (m.body.take 92)
    && allZero (slice m.body 17 11) && decide (u16At m.body 2 < 32768)

/-- Fields of a Spoke message. -/
def spSub (m : SpokeMsg) : Nat := byteAt m.body 1
def spChan (m : SpokeMsg) : Nat := u16At m.body 2 % 32768
def spA (m : SpokeMsg) : Nat := u32At m.body 4

/-! ## The Peloton fabric -/

/-- The page of a Peloton port. -/
def pelPage (port : Nat) : Nat := pPEL + port

/-- A port of a die. -/
def pelPort (d : Die) (p : Nat) : PelPort := (d.pel.ports[p]?).getD {}

/-- Change a port. -/
def modPort (p : Nat) (f : PelPort → PelPort) : Die → Die := updPel (fun x => { x with ports := x.ports.modify p f })

/-- Node id of an identity digest, if it holds one. -/
def idOf (d : Die) (digest : Bytes) : Option Nat := d.pel.ids.findIdx? (fun x => x == digest)

/-- The die's own node id. -/
def ownId (d : Die) : Option Nat := idOf d d.key.device

/-- Nodes that the topology lists beside a node, by id. -/
def linksOf (d : Die) (i : Nat) : List Nat :=
  match d.pel.topo.find? (fun t => some i == idOf d t.digest) with
  | none => []
  | some t => t.nbrs.filterMap (fun n => idOf d n.1)

/-- Distances in hops to a node, breadth first: nodes reached with their distance, the frontier, the distance of the
frontier. -/
def hopsFrom (d : Die) : Nat → List Nat → Nat → AMap Nat → AMap Nat
  | 0, _, _, acc => acc
  | fuel + 1, frontier, k, acc =>
    let new := ((List.range d.pel.ids.length).filter (fun j =>
      (mget acc j).isNone && ((linksOf d j).any (fun n => frontier.contains n))))
    if new.isEmpty then acc
    else hopsFrom d fuel new (k + 1) (new.foldl (fun a j => mset a j (k + 1)) acc)

/-- Distances of every node to `dest`. -/
def hopsTo (d : Die) (dest : Nat) : AMap Nat := hopsFrom d 128 [dest] 0 [(dest, 0)]

/-- The route to a node: port and hops (R444). Shortest path, then the neighbour of lowest id, then the lower port. -/
def routeTo (d : Die) (dest : Nat) : Option (Nat × Nat) :=
  match ownId d with
  | none => none
  | some me =>
    let dist := hopsTo d dest
    match mget dist me with
    | none => none
    | some h =>
      let cands := (List.range 3).filterMap (fun p =>
        let q := pelPort d p
        match q.up, q.nbr with
        | true, some (dg, _) =>
          match idOf d dg with
          | some i => if decide (mget dist i = some (h - 1)) && decide (0 < h) then some (i, p) else none
          | none => none
        | _, _ => none)
      (cands.foldl (fun (best : Option (Nat × Nat)) c =>
        match best with
        | none => some c
        | some b => if c.1 < b.1 then some c else some b) none).map (fun c => (c.2, h))

/-- A Peloton message of 192 bytes (R441). -/
def pelBytes (typ ttl src dst seq epoch : Nat) (body tag : Bytes) : Bytes :=
  [BitVec.ofNat 8 typ, BitVec.ofNat 8 ttl] ++ leBytes 2 src ++ leBytes 2 dst ++ zeros 2 ++ leBytes 4 seq
    ++ leBytes 4 epoch ++ fitTo 160 body ++ fitTo 16 tag

/-- Put a message on a port that is up. -/
def pelOut (p : Nat) (bytes : Bytes) (d : Die) : Die :=
  if (pelPort d p).up then emit (.pel p bytes) (count (pelPage p) 0x048 d) else d

/-- The die's sender id in a message: 0xFFFE before formation. -/
def srcId (d : Die) : Nat := (ownId d).getD 0xFFFE

/-- Take the next message number. -/
def pelNext (d : Die) : Die := updPel (fun x => { x with seq := w32 (x.seq + 1) }) d

/-- Send to the neighbour of a port, or as the first copy of a flood. -/
def sendNbr (typ p : Nat) (body : Bytes) (d : Die) : Die :=
  pelOut p (pelBytes typ 16 (srcId d) 0xFFFF d.pel.seq d.pel.epoch body []) (pelNext d)

/-- A flood: one message, a copy on every port that is up but one. -/
def floodBut (typ : Nat) (but : Option Nat) (body : Bytes) (d : Die) : Die :=
  let b := pelBytes typ 16 (srcId d) 0xFFFF d.pel.seq d.pel.epoch body []
  ((List.range 3).filter (fun p => some p != but)).foldl (fun d p => pelOut p b d) (pelNext d)

/-- The tag of BOUNDARY and CHAIN_ALIVE under a chain key (R441). (DEDUCED, log entry 141) -/
def pelTag (key bytes : Bytes) : Bytes := kmac256 key bytes 16 (ascii "HW2240 peloton tag")

/-- Send a message to a node, with a tag under a chain key where one is given. -/
def sendNode (typ dst : Nat) (key : Option Bytes) (body : Bytes) (d : Die) : Die :=
  match routeTo d dst with
  | none => raise pPEL 3 d
  | some (p, _) =>
    let head := (pelBytes typ 16 (srcId d) dst d.pel.seq d.pel.epoch body []).take 176
    let tag := match key with
      | some k => pelTag k head
      | none => []
    pelOut p (head ++ fitTo 16 tag) (pelNext d)

/-! ## Chain entries (R448) -/

/-- A field of a chain entry's bytes. -/
def chainChan (c : Chain) : Nat := u16At c.bytes 0 % 32768
def chainShard (c : Chain) : Nat := byteAt c.bytes 2
def chainShards (c : Chain) : Nat := byteAt c.bytes 3

/-- The loaded entry that names a channel: the lowest. -/
def chainOf (d : Die) (channel : Nat) : Option Chain := (d.pel.chains.map (fun e => e.2)).find? (fun c => chainChan c == channel)

/-- BOUNDARY for one token position to the next shard (R450): the digest, or void. -/
def sendBoundary (c : Chain) (pos : Nat) (dig : Option Bytes) (d : Die) : Die :=
  match c.next with
  | none => d
  | some l =>
    match l.isOpen, idOf d l.peer with
    | true, some dst =>
      sendNode 10 dst (some l.key)
        (leBytes 2 (chainChan c) ++ zeros 2 ++ leBytes 4 pos ++ [BitVec.ofNat 8 (chainShard c), BitVec.ofNat 8 (b2n dig.isSome)]
          ++ zeros 6 ++ fitTo 32 (dig.getD [])) d
    | _, _ => d

end Sys2Proof.Machine
end

