-- ==== Sys2Proof/Machine/Verdicts.lean ====
section
/-! DEFINITION. How a batch ends: its digests and its 64-byte record, the decision at its verdict time, the coupled
exchange, and everything a commit writes (R22, R26, R82, R113, R115 to R118, R172 to R174, R206 to R211, R248,
R249, R288 to R293, R316, R368, R450). -/

namespace Sys2Proof.Machine

/-! ## Models and Months -/

/-- A model slot's admission. -/
def model (d : Die) (slot : Nat) : Option Model := mget d.adm.models slot

/-- Change a model. -/
def modModel (slot : Nat) (f : Model → Model) : Die → Die := updAdm (fun a => { a with models := mmod a.models slot f })

/-- A model admitted on both dies (R100). -/
def isCoupled (m : Model) : Bool := m.dies == 3

/-- A trigger of a Month turn (R113): it merges into a turn that is pending or running.
(DESIGN CHOICE, log entry 195) -/
def requestTurn (slot : Nat) (forced : Bool) (d : Die) : Die :=
  match model d slot with
  | none => d
  | some m =>
    if m.state != .ready then d
    else
      match m.pending, m.turn with
      | none, none =>
        let d := modModel slot (fun m => { m with pending := some { forced := forced, order := d.adm.order } }) d
        let d := updAdm (fun a => { a with order := a.order + 1 }) d
        if isCoupled m then sendSpoke 2 1 0 slot 0 0 0 [] [] d else d
      | some p, none =>
        let q := if forced && !p.forced then { forced := true, order := d.adm.order } else p
        modModel slot (fun m => { m with pending := some q }) (updAdm (fun a => { a with order := a.order + 1 }) d)
      | _, _ => d

/-- Tables of the earlier Month are zeroed once no batch is bound to it (R115). -/
def freeOldMonth (slot : Nat) (d : Die) : Die :=
  modModel slot (fun m =>
    match m.old with
    | some o =>
      if d.chn.tickets.any (fun b => b.month == o.month && (chan d b.channel).host.slot == slot) then m
      else { m with old := none }
    | none => m) d

/-- The tables of the Month a batch is bound to. -/
def tablesOf (m : Model) (month : Nat) : Option Tables :=
  if m.active.month == month then some m.active
  else
    match m.old with
    | some o => if o.month == month then some o else none
    | none => none

/-- The age of a Month that began at an ns count exceeds period plus grace (R117). (DEDUCED, log entry 69) -/
def monthOverdue (d : Die) (m : Model) (startNs : Nat) : Bool :=
  decide (d.tim.ns - startNs > (m.periodH + m.graceH) * 3600000000000)

/-! ## Digests (R209, R210) -/

/-- Stamp digests of the frames that R290 assigns to a batch and that the die still holds, with how many are missing.
(DESIGN CHOICE, log entry 68) -/
def boundDigests (d : Die) (x : Chan) (b : Batch) : List (Nat × Bytes) :=
  let st := mgetD d.ing.streams x.host.stream {}
  (List.range x.host.frames).filterMap (fun i => mget st.digests (x.fwdBase + b.ordinal * x.host.frames + i))

/-- The channel binds frames to its batches (R285, R290). -/
def bindsFrames (x : Chan) : Bool := x.host.kind == 1 && x.host.inMode == 1

/-- The stamp digests of the frames bound to a batch, in the order first consumed. -/
def inputDigests (d : Die) (b : Batch) : List Bytes :=
  let x := chan d b.channel
  if b.canary then x.canaryDigs.take 1
  else if bindsFrames x then (boundDigests d x b).map (fun p => p.2)
  else b.inDigs

/-- The input digest of a batch (R209). -/
def inputDigest (d : Die) (b : Batch) : Bytes :=
  let ds := inputDigests d b
  h32 ([0x04] ++ leBytes 4 ds.length ++ ds.flatMap id)

/-- The output digest of a batch (R71, R201, R209). (DEDUCED, log entry 66) -/
def outputDigest (b : Batch) : Bytes := h32 b.outBytes

/-! ## The record (R206) -/

/-- Logical tiles of a pipeline whose physical tile is in service. -/
def tilesUp (t : Tiles) (per lead : Nat) : Nat :=
  ((List.range per).filter (fun i =>
    match t.map[lead * per + i]? with
    | some p => t.state[p]? == some 1
    | none => false)).length

/-- Tiles in service of a group: the smallest count among its members (R233). -/
def groupTiles (d : Die) (t : Tiles) (per lead : Nat) : Nat :=
  match (members d lead).map (fun n => tilesUp t per n) with
  | [] => tilesUp t per lead
  | a :: r => r.foldl min a

/-- Lanes of a group's engine, as SYNC numbers the engines (R134, R147, R180); NLE has 32 a tile. -/
def lanesOf (d : Die) (lead eng : Nat) : Nat :=
  match eng with
  | 0 => groupTiles d d.res 3 lead * 128
  | 1 => groupTiles d d.bnd 4 lead * 16
  | 2 => groupTiles d d.nle 4 lead * 32
  | 3 => groupTiles d d.cwe 4 lead * 64
  | _ => 1

/-- k as the assurance vector reports it: zero for REDUCED, and for a kind-2 function with no residue secret in use. -/
def recordK (d : Die) (x : Chan) : Nat :=
  match model d x.host.slot with
  | some m => if x.host.kind = 3 ∨ (x.host.kind = 2 ∧ !m.manifest.ops.any (fun o => o.cls == 2)) then 0 else m.k
  | none => 0

/-- The assurance vector. (DEDUCED, log entry 71) -/
def assurance (d : Die) (x : Chan) (b : Batch) : Nat :=
  recordK d x + 16 * b.pairing + 64 * b2n x.coupled + 128 * b2n b.strict + 256 * (if x.host.kind = 3 then 0 else x.density)

/-- Units of a batch as R206 counts them. -/
def unitsOf (x : Chan) (b : Batch) : Nat := if b.closed then b.endUnits else if x.host.kind = 2 then b.recs else b.tokens

/-- first of a batch: its first position, or the slot of a radio batch; the spec states none for a batch whose first
unit was not accepted, nor for a Sentinel batch. (DESIGN CHOICE, log entry 68) -/
def firstOf (x : Chan) (b : Batch) : Nat :=
  match b.first with
  | some f => f
  | none => if x.host.kind = 2 then (b.window.map (fun w => w.slot)).getD b.noFirst else b.noFirst

/-- The 64 bytes of a verdict record. (DEDUCED, log entry 71) -/
def recordBytes (d : Die) (b : Batch) (verdict cause : Nat) (io : Bytes) : Bytes :=
  let x := chan d b.channel
  let reduced := x.host.kind == 3
  let flags := b2n b.canary + 2 * b2n (x.host.kind == 2) + 4 * b2n x.coupled + 8 * b2n b.rewind
  [BitVec.ofNat 8 verdict, BitVec.ofNat 8 flags] ++ leBytes 2 b.channel ++ leBytes 4 b.batchNo ++ leBytes 4 (firstOf x b)
    ++ leBytes 4 (unitsOf x b) ++ leBytes 4 (if reduced then 0 else b.month)
    ++ [BitVec.ofNat 8 x.host.slot, BitVec.ofNat 8 cause] ++ leBytes 2 (assurance d x b)
    ++ leBytes 4 (if reduced then 0 else x.alphaRep)
    ++ [BitVec.ofNat 8 (groupTiles d d.res 3 b.lead), BitVec.ofNat 8 (groupTiles d d.bnd 4 b.lead),
        BitVec.ofNat 8 (groupTiles d d.cwe 4 b.lead), BitVec.ofNat 8 (groupLead d b.lead)] ++ fitTo 32 io

/-- The model table entry of a batch's (slot, Month) (R211, R217). -/
def modelEntry (d : Die) (b : Batch) : Bytes :=
  let x := chan d b.channel
  let s := x.host.slot
  if x.host.kind = 3 then
    [BitVec.ofNat 8 s, 3, 0, 0] ++ zeros 4 ++ zeros 16 ++ fitTo 32 (mgetD d.sntb.images (s - 64) {}).digest ++ zeros 32 ++ zeros 8
  else
    match model d s with
    | some m =>
      [BitVec.ofNat 8 s, BitVec.ofNat 8 m.manifest.kind, BitVec.ofNat 8 m.k, 0] ++ leBytes 4 b.month
        ++ fitTo 16 m.manifest.modelId ++ fitTo 32 m.manifest.programDigest ++ weightsDigest m.manifest ++ zeros 8
    | none => [BitVec.ofNat 8 s] ++ zeros 3 ++ leBytes 4 b.month ++ zeros 88

/-! ## Check status (R125, R140, R172) -/

/-- The checks that a token of a model's batch needs: residue, banded and output checks, the attention comparison on a
channel with a ledger, and in a chain the comparison of the boundary digests that its shard receives and sends. A check
is numbered 2 × its op's locus, 1 more for a LAYER_IN band; 1 and 3 are those of a chain. -/
def needed (d : Die) (b : Batch) (m : Model) : List Nat :=
  let x := chan d b.channel
  m.manifest.ops.flatMap (fun o =>
    (if o.banded then [2 * o.locus + 1] else [])
      ++ (if o.cls = 1 ∨ o.cls = 2 ∨ o.cls = 5 ∨ (o.cls = 4 ∧ x.density ≠ 0 ∧ x.host.alpha ≠ 0) then [2 * o.locus] else []))
  ++ match chainOf d b.channel with
    | some c => (if chainShard c = 0 then [] else [1]) ++ (if chainShard c + 1 < chainShards c then [3] else [])
    | none => []

/-- Tokens from the first on whose checks have all been made. -/
def madeUpTo (need : List Nat) (made : AMap (List Nat)) : Nat → Nat → Nat
  | 0, t => t
  | fuel + 1, t => if need.all (fun n => (mgetD made t []).contains n) then madeUpTo need made fuel (t + 1) else t

/-- Tokens of a batch from the first on whose checks have all been made. -/
def checkedTokens (d : Die) (b : Batch) : Nat :=
  match model d (chan d b.channel).host.slot with
  | none => b.checked
  | some m =>
    if m.manifest.kind = 2 then b.checked else max b.checked (madeUpTo (needed d b m) b.made b.tokens 0)

/-- Records of a radio batch whose checks have not been made (R193, R195, R197). -/
def recordsLeft (d : Die) (b : Batch) : Bool :=
  (chan d b.channel).host.kind == 2 && (b.staged.zipIdx).any (fun s =>
    s.1.rtype != 5 && !(mgetD b.made s.2 []).contains s.1.rtype)

/-- A batch whose program has ended without every comparison that the device makes of it (R125).
(DEDUCED, log entry 70) -/
def checksLeft (d : Die) (b : Batch) : Bool :=
  decide (b.checked < b.tokens) && (chan d b.channel).host.kind == 1 || recordsLeft d b

/-! ## The decision (R82, R117, R208, R248) -/

/-- Frames of the batch that were not all forwarded, or whose digest has left the store (R290). -/
def framesMissing (d : Die) (b : Batch) : Bool :=
  let x := chan d b.channel
  bindsFrames x && !b.canary && decide ((boundDigests d x b).length < x.host.frames)

/-- A token of a chain's receiving shard whose boundary digest is void or missing (R450). -/
def boundMissing (d : Die) (b : Batch) : Bool :=
  match chainOf d b.channel, b.first with
  | some c, some f =>
    decide (0 < chainShard c) && (List.range b.tokens).any (fun t =>
      match mget c.digests (f + t) with
      | some (1, _) => false
      | _ => true)
  | _, _ => false

/-- A radio batch without an FFT instance for a (symbol, port, dir) that the program maps to a frame forwarded for its
slot (R200). -/
def fftMissing (d : Die) (b : Batch) : Bool :=
  let x := chan d b.channel
  match model d x.host.slot with
  | none => false
  | some m =>
    x.host.kind == 2 &&
      (d.ing.radio.filter (fun h => h.stream == x.host.stream && h.sent && h.slot == firstOf x b && h.canary == b.canary)).any
        (fun h => (m.manifest.ops.filter (fun o => o.cls == 2)).any (fun o =>
          (m.prog.params.filter (fun e => e.kind == 14 && e.locus == o.locus)).any (fun e =>
            !b.staged.any (fun s => s.rtype == 7 && byteAt s.r.payload 4 == h.symbol && byteAt s.r.payload 6 == e.index
              && byteAt s.r.payload 7 == o.locus / 16777216 % 2))))

/-- The batch is incomplete under R81, R200, R274, R290 or R450. -/
def incomplete (d : Die) (b : Batch) : Bool :=
  !b.closed || !b.complete || framesMissing d b || boundMissing d b || fftMissing d b || (chan d b.channel).canaryOverdue && !b.canary

/-- A complete canary batch whose output digest is not the golden one (R86). -/
def canaryWrong (d : Die) (b : Batch) : Bool :=
  b.canary && b.closed && b.complete &&
    match model d (chan d b.channel).host.slot with
    | some m => outputDigest b != m.manifest.goldenDigest
    | none => false

/-- Lowest number of a list, if any. (DEDUCED, log entries 58, 69) -/
def lowest : List Nat → Option Nat
  | [] => none
  | a :: r =>
    match lowest r with
    | some b => some (min a b)
    | none => some a

/-- The die's own verdict and cause: FAIL over LATE over PASS, the lowest code of its class (R82, R208).
(DEDUCED, log entries 69, 70) -/
def decideOwn (d : Die) (b : Batch) : Nat × Nat :=
  let fails := b.fails.map (fun f => f.2) ++ (if canaryWrong d b then [7] else [])
  match lowest fails with
  | some c => (2, c)
  | none =>
    let lates := b.lates ++ (if b.closed && b.endLate then [16] else []) ++ (if incomplete d b then [17] else [])
      ++ (if b.closed && b.complete && (!b.done || checksLeft d b) then [24] else [])
    match lowest lates with
    | some c => (3, c)
    | none => (1, 0)

/-- The die's declaration for a coupled batch as it stands. (DESIGN CHOICE, log entry 196) -/
def ownDecl (d : Die) (b : Batch) : Decl :=
  let vc := decideOwn d b
  let x := chan d b.channel
  { verdict := vc.1, cause := vc.2, batchNo := b.batchNo, first := firstOf x b, nUnits := unitsOf x b
    inDig := inputDigest d b, outDig := outputDigest b }

/-- Send a declaration, once (R248). -/
def declare (serial : Nat) (v : Decl) (d : Die) : Die :=
  match ticket d serial with
  | none => d
  | some b =>
    if b.decl.isSome then d
    else
      sendSpoke 1 v.verdict b.channel v.batchNo v.first v.nUnits v.cause v.inDig v.outDig
        (count pSPK 0x04C (modTicket serial (fun b => { b with decl := some v }) d))

/-- The two declarations agree in digests and numbers. -/
def declEq (a b : Decl) : Bool :=
  a.inDig == b.inDig && a.outDig == b.outDig && a.batchNo == b.batchNo && a.first == b.first && a.nUnits == b.nUnits

/-- The committed verdict of a coupled batch (R248). (DEDUCED, log entry 69) -/
def judge (own : Decl) (peer : Option Decl) : Nat × Nat :=
  if own.verdict = 2 then (2, own.cause)
  else
    match peer with
    | none => (3, 23)
    | some p =>
      if p.verdict = 2 then (2, 9)
      else if own.verdict = 3 then (3, own.cause)
      else if p.verdict = 1 then (if declEq own p then (1, 0) else (2, 9))
      else (3, p.cause)

/-- The peer's declarations count: Spoke is up and the peer is in Summer (R249). -/
def peerCounts (d : Die) : Bool := !d.spk.down && d.spk.peerPhase == 3

/-- The peer's declaration of a batch, where it counts: it has since the batch began (R22, R249). -/
def peerDecl (d : Die) (b : Batch) : Option Decl := if peerCounts d && !b.alone then b.peer else none

/-- The coupled batches in flight go on without the peer: Spoke is down, or the peer outside Summer (R22, R249). -/
def loseCoupled (d : Die) : Die :=
  updChn (fun n => { n with tickets := n.tickets.map (fun b =>
    if (chan d b.channel).coupled then { b with alone := true } else b) }) d

/-- Verdict and cause of a batch at its verdict time. -/
def verdictOf (d : Die) (b : Batch) : Nat × Nat :=
  let x := chan d b.channel
  let late := match model d x.host.slot with
    | some m => monthOverdue d m b.monthNs
    | none => false
  if x.host.kind = 3 then (if b.done then (4, 0) else if b.complete then (3, 24) else (3, 17))
  else if late then (3, 20)
  else if x.coupled then
    let v := judge (b.decl.getD (ownDecl d b)) (peerDecl d b)
    if v.1 = 1 ∧ !b.done then (3, 24) else v
  else decideOwn d b

/-! ## The ledger (R172 to R174, R182) -/

/-- The value of the ledger ratchet's low 33 bits. -/
def ledgerLow (x : Chan) : Nat := x.validEnd + (if x.voidPos = 4294967295 then 0 else 4294967296)

/-- Form the ledger ratchet value and bump it where it is higher (R174); `set` says that the change counts as a set-back
whatever its bits (R182). (DEDUCED, log entry 75) -/
def bumpLedger (set : Bool) (c : Nat) (d : Die) : Die :=
  let x := chan d c
  match ledgerRatchet x.host with
  | none => d
  | some r =>
    let old := (ratchet d r).value
    let low := ledgerLow x
    let back := set || decide (low < old % 8589934592)
    let n := if back then x.setbacks + 1 else x.setbacks
    let v := n * 8589934592 + low
    if 2147483647 < n then raise pCWE 8 d
    else
      let d := modChan c (fun x => { x with setbacks := n }) d
      if old < v && (back || decide (old % 8589934592 < low)) then raiseRat 1 r v d else d

/-- Mark a batch's positions (R172). -/
def markLedger (b : Batch) (d : Die) : Die :=
  let x := chan d b.channel
  match b.first with
  | none => d
  | some f =>
    if x.host.ctx = 0 then d
    else
      let n := max b.tokens (x.append - f)
      let bad := [max b.checked (checkedTokens d b), n] ++ b.fails.map (fun p => p.1) ++ (match b.overrun with | some t => [t] | none => [])
      let g := (lowest bad).getD 0
      let void := if g < n then min x.voidPos (f + g) else x.voidPos
      let valid := if f ≤ x.validEnd then min (f + g) void else x.validEnd
      bumpLedger false b.channel (modChan b.channel (fun x => { x with
        voidPos := void, validEnd := valid, markings := w32 (x.markings + 1), shown := (valid, x.append, void) }) d)

/-- An uncorrectable ledger word lowers void_pos and valid_end; a lowering counts as a set-back (R182). -/
def lowerLedger (c pos : Nat) (d : Die) : Die :=
  let x := chan d c
  if pos < x.append then
    let void := min x.voidPos pos
    let valid := min x.validEnd void
    if void = x.voidPos ∧ valid = x.validEnd then d
    else bumpLedger true c (modChan c (fun x => { x with voidPos := void, validEnd := valid }) d)
  else d

/-! ## The commit -/

/-- An output ring entry: zeros up to a multiple of 64 bytes (R315). -/
def padTo64 (bs : Bytes) : Bytes := fitTo (cdiv bs.length 64 * 64) bs

/-- Write a record to the channel's ring (R293). -/
def writeRing (c : Nat) (record : Bytes) (d : Die) : Die :=
  let x := chan d c
  let size := 2 ^ x.host.ringLog2
  let lost := decide (w32 (x.ringHead + 4294967296 - x.ringTail) ≥ size)
  let d := modChan c (fun x => { x with
    ring := mset x.ring (x.ringHead % size) record, ringHead := w32 (x.ringHead + 1)
    ringTail := if lost then w32 (x.ringTail + 1) else x.ringTail }) d
  if lost then raise pCHN 2 (count pCHN 0x064 d) else d

/-- Offsets of a page's capture registers: FAIL_CHAN, with the locus, pos and extra words behind it. -/
def capBase (page : Nat) : Nat := if page = pCWE then 0x078 else 0x064

/-- Fill a page's failure capture if it is free (R140). -/
def capture (channel : Nat) (e : Nat × Nat × Nat × Nat × Nat) (d : Die) : Die :=
  let off := capBase e.1
  if capFree d e.1 off then
    let d := setCap e.1 off (2147483648 + e.2.1 * 65536 + channel) d
    let d := setCap e.1 (off + 4) e.2.2.1 (setCap e.1 (off + 8) e.2.2.2.1 d)
    if e.1 = pRES then d else setCap e.1 (off + 12) e.2.2.2.2 d
  else d

/-- Mismatches in plan order: by position, then by the plan entry of their locus (R140). -/
def planOrder (d : Die) (x : Chan) (caps : List (Nat × Nat × Nat × Nat × Nat)) : List (Nat × Nat × Nat × Nat × Nat) :=
  let plan := ((model d x.host.slot).map (fun m => m.prog.plan)).getD []
  let key (e : Nat × Nat × Nat × Nat × Nat) : Nat :=
    e.2.2.2.1 * 262144 + (plan.findIdx? (fun p => p.locus / 4096 == e.2.2.1 / 4096)).getD 262143
  caps.mergeSort (fun a b => key a ≤ key b)

/-- The permit of a PASS: stop and limit from the last OUTPUT (R368). -/
def permitOf (b : Batch) : Bool × Nat :=
  let o := b.lastOut
  if byteAt o 4 = 2 ∧ byteAt o 5 = 3 ∧ 2 ≤ u32At o 8 then
    (u16At o 18 != 0, (min 32767 (sgn 16 (u16At o 16))).toNat)
  else (true, 0)

/-- The slot that a safety batch is timed from: the stamp of its first assigned frame, else the die's (R374). -/
def timedSlot (d : Die) (b : Batch) : Nat :=
  let x := chan d b.channel
  match (boundDigests d x b)[0]? with
  | some p => p.1
  | none => slotCount d

/-- Hand the Warden something. -/
def tellWarden (e : WdnEvent) : Die → Die := updWdn (fun w => { w with events := w.events ++ [e] })

/-- The permit word of a REDUCED verdict of a role-2 image (R316): stop and limit from the two output elements, the slot
of the input frame's stamp. -/
def sendPermit (b : Batch) (d : Die) : Die :=
  let x := chan d b.channel
  if byteAt (mgetD d.sntb.images (x.host.slot - 64) {}).payload 6 = 2 then
    let limit := (min 32767 (sgn 16 (u16At b.lastOut 0))).toNat
    let stop := u16At b.lastOut 2 != 0
    let slot := ((d.ing.sentinel.find? (fun h => h.chan == b.channel && h.serial == b.serial + 1)).map (fun h => h.slot)).getD 0
    tellWarden (.permit x.host.zone stop limit slot)
      (setCap pSNT 0x060 (x.host.zone % 4 + 4 * b2n stop + 65536 * limit) (count pSNT 0x06C d))
  else d

/-- Canary accounting at a verdict: a window that was missed already is not missed again (R274).
(DESIGN CHOICE, log entry 101) -/
def canaryDone (b : Batch) (verdict : Nat) (d : Die) : Die :=
  if b.canary then
    let x := chan d b.channel
    let s := x.host.stream
    let d := modChan b.channel (fun x => { x with
      canaryOut := x.canaryOut - 1, canaryDigs := x.canaryDigs.drop 1, canaryLate := x.canaryLate.drop 1
      canaryOverdue := if verdict = 1 then false else x.canaryOverdue }) d
    if x.canaryLate.head? = some true then d
    else if verdict = 3 then
      let n := mgetD d.cad.misses s 0 + 1
      let d := raise pCAD 4 (count pCAD 0x088 (updCad (fun c => { c with misses := mset c.misses s n }) d))
      if n ≥ 2 then raise pCAD 5 (modChan b.channel (fun x => { x with canaryOverdue := true }) d) else d
    else updCad (fun c => { c with misses := mset c.misses s 0 }) d
  else d

/-- BOUNDARY messages of a sending shard's batch (R450). -/
def sendBoundaries (b : Batch) (pass : Bool) (d : Die) : Die :=
  match chainOf d b.channel, b.first with
  | some c, some f =>
    (List.range b.tokens).foldl (fun d t =>
      sendBoundary c (f + t) (if pass then mget b.bounds (f + t) else none) d) d
  | _, _ => d

/-- A radio channel may still get a verdict of a slot: none is written, and the channel is OPEN since no later than the slot, or
has a batch of it (R192, R203). A slot outside its pattern may get one too, if a batch for it comes.
(DESIGN CHOICE, log entry 205) -/
def awaitsSlot (d : Die) (c slot : Nat) (x : Chan) : Bool :=
  x.host.kind == 2 && !x.verdictSlots.contains slot
    && (x.state == .opened && decide (0 ≤ slotDiff slot x.openSlot)
      || (chanTickets d c).any (fun b => b.first == some slot && !b.canary))

/-- The frames that a radio batch's verdict releases: a canary batch its own canary frame; a real batch those of its slot, once
no other channel that has them as input may still get its verdict of the slot (R192).
(DESIGN CHOICE, log entry 205) -/
def freeRadio (d : Die) (b : Batch) (l : List Held) : List Held :=
  let x := chan d b.channel
  let slot := firstOf x b
  if x.host.kind ≠ 2 then l
  else if b.canary then
    match x.canaryDigs with
    | g :: _ => l.filter (fun h => !(h.stream == x.host.stream && h.canary && h.digest == g))
    | [] => l
  else if d.chn.tab.any (fun e => e.1 != b.channel && e.2.host.stream == x.host.stream && awaitsSlot d e.1 slot e.2) then l
  else l.filter (fun h => !(h.stream == x.host.stream && h.slot == slot && !h.canary))

/-- The held frames that a batch's verdict releases (R192, R313). -/
def freeFrames (b : Batch) (d : Die) : Die :=
  updIng (fun g => { g with
    sentinel := g.sentinel.filter (fun h => !(h.chan == b.channel && h.serial == b.serial + 1))
    radio := freeRadio d b g.radio }) d

/-- The verdict of a radio channel's slot is written (R203); the latest 1,048,576 slots are kept.
(DESIGN CHOICE, log entry 218) -/
def noteSlot (b : Batch) (d : Die) : Die :=
  let x := chan d b.channel
  if x.host.kind == 2 && !b.canary && (b.first.isSome || b.window.isSome) then
    modChan b.channel (fun x => { x with verdictSlots := (firstOf x b :: x.verdictSlots).take 1048576 }) d
  else d

/-- A debug capture ends with the batch that it captures; it is complete once its BATCH_END is in it (R245). -/
def endCapture (serial : Nat) (d : Die) : Die :=
  if d.dbg.capturing && d.dbg.logSerial == serial then
    setField 0 pDBG 0x04C 15 0 (updDbg (fun g => { g with capturing := false }) d)
  else d

/-- A batch leaves the programs and runs that serve it. -/
def leaveRuns (serial : Nat) (d : Die) : Die :=
  let drop (l : List Nat) := l.filter (fun s => s != serial)
  { d with
    vp := { d.vp with pipes := d.vp.pipes.map (fun p => { p with
      core := { p.core with run := drop p.core.run }, saved := mmap p.saved (fun c => { c with run := drop c.run }) }) }
    sntb := { d.sntb with runs := d.sntb.runs.map (fun r => { r with batches := drop r.batches }) } }

/-- Commit a verdict: the record and its leaf, the ledger, the capture registers, the paths to the Warden and to the
next shard, the Month turn of a FAIL, and the release of the ticket. `ended` says the device ended the batch.
(DESIGN CHOICE, log entries 111, 211) -/
def commit (serial verdict cause : Nat) (ended : Bool) (d : Die) : Die :=
  match ticket d serial with
  | none => d
  | some b =>
    let c := b.channel
    let x := chan d c
    let inD := inputDigest d b
    let outD := outputDigest b
    let io := h32 ([0x03] ++ inD ++ outD)
    let record := recordBytes d b verdict cause io
    let leaf : Leaf := { record := record, inDig := inD, outDig := outD, entry := modelEntry d b }
    let slot := timedSlot d b
    let permit := if verdict = 1 then permitOf b else (true, 0)
    let d := countPerms b.outBytes.length (countPerms (5 + 32 * (inputDigests d b).length) (countPerms 65 d))
    let d := if x.coupled && b.decl.isNone then
        declare serial { ownDecl d b with verdict := verdict, cause := cause } d else d
    let d := markLedger b d
    let d := if verdict = 4 then modChan c (fun x => { x with
        outRing := mset x.outRing (x.ringHead % 2 ^ x.host.ringLog2) (padTo64 b.lastOut) }) d else d
    let d := writeRing c record (addLeaf leaf d)
    let d := if verdict = 2 then (planOrder d x b.caps).foldl (fun d e => capture c e d) d else d
    let d := if x.host.safety && x.host.kind != 3 then
        tellWarden (.verdict c x.host.zone verdict cause b.canary permit.1 permit.2 slot (symIndex d)) d else d
    let d := if verdict = 4 then sendPermit b d else d
    let d := canaryDone b verdict (freeFrames b (noteSlot b (sendBoundaries b (verdict = 1) d)))
    let newest := match model d x.host.slot with
      | some m => m.active.month == b.month
      | none => false
    let d := if verdict = 2 && newest then requestTurn x.host.slot true d else d
    let d := endCapture serial (leaveRuns serial (dropTicket serial d))
    let d := freeOldMonth x.host.slot d
    if b.closed then d
    else modArr c (fun w => { w with skip := some (if ended then .ended else .afterVerdict) }) d

/-- What SPK counts at the verdict of a coupled batch (R253, R254). -/
def countCoupled (b : Batch) (cause : Nat) (d : Die) : Die :=
  if (chan d b.channel).coupled then
    let d := if (peerDecl d b).isNone then raise pSPK 5 (count pSPK 0x054 d) else d
    if cause = 9 then raise pSPK 4 (count pSPK 0x050 d) else d
  else d

/-- Decide and commit a batch at its verdict time. -/
def verdictNow (serial : Nat) (d : Die) : Die :=
  match ticket d serial with
  | none => d
  | some b =>
    let v := verdictOf d b
    commit serial v.1 v.2 false (countCoupled b v.2 d)

/-- The cause of a batch that the device ends: the lowest of the reason for the end and those of the verdict's class that the
batch already has (R208). -/
def endCauseOf (b : Batch) (verdict cause : Nat) : Nat :=
  (if verdict = 2 then b.fails.map (fun f => f.2)
   else b.lates ++ (if b.closed && b.endLate then [16] else []) ++ (if b.closed && !b.complete then [17] else [])).foldl min cause

/-- The device ends a batch with a verdict of its own (R83, R208, R237, R239, R289). -/
def endTicket (verdict cause : Nat) (d : Die) (serial : Nat) : Die :=
  match ticket d serial with
  | none => d
  | some b => commit serial verdict (endCauseOf b verdict cause) true d

/-- Frames held for a channel that belong to no batch are dropped: it is OPEN no longer, or its count begins anew (R290, R313). -/
def dropHeld (c : Nat) : Die → Die := updIng (fun g => { g with sentinel := g.sentinel.filter (fun h => !(h.chan == c && h.serial == 0)) })

/-! ## Retiring a channel (R288, R289) -/

/-- Take a channel out of service at once: its batches end, its ledger is zeroed, its lane time is given back. -/
def retireChan (endCause verdict cause c : Nat) (d : Die) : Die :=
  let x := chan d c
  if chanLive x then
    let d := ((chanTickets d c).map (fun b => b.serial)).foldl (endTicket verdict cause) d
    let d := dropHeld c (modChan c (fun x => { x with
      state := .retired, endCause := endCause, pend := none, ledger := [] }) d)
    let d := updCad (fun q => { q with removals := q.removals ++ [(2, c)] }) d
    if x.host.safety then tellWarden (.lost c true) d else d
  else d

/-- Retire every live channel that meets a condition. -/
def retireWhere (p : Chan → Bool) (endCause verdict cause : Nat) (d : Die) : Die :=
  (recordOrder d (chansWhere d (fun x => chanLive x && p x))).foldl (fun d c => retireChan endCause verdict cause c d) d

end Sys2Proof.Machine
end

