-- ==== Sys2Proof/Machine/Timetable.lean ====
section
/-! DEFINITION. Validation of timetable images and fragments: the causes of CAD_REFUSE in their order (R263 to R267,
R271, R286, R303). -/

namespace Sys2Proof.Machine

/-- Control-fabric cycles of a slot (R265). -/
def slotCycles (mu : Nat) : Nat := 1100000 / 2 ^ mu

/-- What validation knows of a channel that windows name: descriptor, coupled flag, model. -/
structure ChanInfo where
  id      : Nat
  host    : ChanHost
  coupled : Bool
  model   : Option Model
  deriving DecidableEq, Repr

/-- Every live channel of the die, and the one being created. -/
def chanInfos (d : Die) (new : Option ChanInfo) : List ChanInfo :=
  new.toList ++ (d.chn.tab.filter (fun e => chanLive e.2)).map (fun e =>
    { id := e.1, host := e.2.host, coupled := e.2.coupled, model := model d e.2.host.slot })

/-- The entry occupies a span of its group's engines. -/
def isSpan (e : TtEntry) : Bool := e.kind == 1 || e.kind == 4 || e.kind == 5 || e.kind == 7

/-- Two entries belong to one pool (R271). -/
def samePool (a b : TtEntry) : Bool :=
  a.kind == 2 && b.kind == 2 && a.pool != 0 && a.pool == b.pool && a.group == b.group && a.slot == b.slot
    && a.start == b.start && a.arr == b.arr && a.commit == b.commit && a.verdict == b.verdict && a.passTokens == b.passTokens

/-- The channel of a WINDOW, CANARY or channel SEGMENT. -/
def entryChan (e : TtEntry) : Nat := e.target % 32768

/-- A SEGMENT serves a window: its channel's, or its pool's. -/
def segServes (w e : TtEntry) : Bool :=
  e.kind == 1 && e.group == w.group &&
    (if e.target ≥ 32768 then w.pool != 0 && e.target % 256 == w.pool else entryChan e == entryChan w)

/-- Cycles of `[a, b)` that the segments serving a window provide, slot by slot; cycle 0 begins a period. -/
def provided (t : Timetable) (w : TtEntry) (a b : Nat) : Nat :=
  let s := slotCycles t.mu
  let slots := (List.range (b / s + 1)).filter (fun j => decide (a / s ≤ j))
  slots.foldl (fun acc j =>
    (t.entries.filter (fun e => segServes w e && e.slot == j % t.period)).foldl (fun acc e =>
      let lo := max a (j * s + e.start)
      let hi := min b (j * s + e.start + e.len)
      acc + (hi - lo)) acc) 0

/-! ## The worst case of a program (R266)

What an instruction costs at the most follows from the tables of its model, the channel's descriptor and the lanes of the
group; what its op descriptor states beside them is `Config.engineUse`. -/

/-- The rows and columns of the weight tensor of an op. -/
def opShape (m : Model) (locus : Nat) : Nat × Nat :=
  match tensorAt m.manifest locus with
  | some t => (t.rows, t.cols)
  | none => (0, 0)

/-- The sum of a cost over the passes of p tokens that n tokens take. -/
def overPasses (n p : Nat) (f : Nat → Nat) : Nat :=
  let p := max 1 p
  n / p * f p + if n % p = 0 then 0 else f (n % p)

/-- Positions that a selection of a layer attends to at the most (R179). -/
def worstSpan (m : Model) (ctx layer : Nat) : Nat :=
  match m.prog.params.find? (fun e => e.kind == 6 && locLayer e.locus == layer) with
  | some e => if e.value = 0 then ctx else min ctx e.value
  | none => ctx

/-- Cycles that a number of terms takes on a number of lanes; where no lane serves it never ends. -/
def laneCycles (terms lanes : Nat) : Nat := if lanes = 0 ∧ terms ≠ 0 then 2 ^ 64 else cdiv terms lanes

/-- Arithmetic cycles of one selection over n positions (R180). -/
def selCycles (d : Die) (lead dHead n : Nat) : Nat :=
  max (laneCycles (2 * n * dHead) (lanesOf d lead 3) + 48) (laneCycles n (lanesOf d lead 2) + 32)

/-- Arithmetic cycles of the table passes of one RCHK or BCHK at the most, over what it gathers of a number of batches (R134,
R147, R271); any other instruction makes none. -/
def worstPasses (d : Die) (lead passTokens batches : Nat) (m : Model) (w : Nat) : Nat :=
  let u := Config.engineUse m.prog.consts (wImm w)
  let s := opShape m u.locus
  match wOp w with
  | 0x20 => overPasses (batches * u.tokens) passTokens (fun n => laneCycles (m.k * n * (s.1 + s.2)) (lanesOf d lead 0) + 24)
  | 0x21 => overPasses (batches * u.tokens) passTokens
      (fun n => laneCycles (m.k * (n * (3 * s.1 + 2 * s.2) + s.1)) (lanesOf d lead 1) + 32)
  | _ => 0

/-- Largest lifting size that an LDPC op takes. -/
def worstLift (locus : Nat) : Nat := if locLayer locus % 512 = 0 then 384 else locLayer locus % 512

/-- Arithmetic cycles of one engine instruction for one batch at the most. The table passes stand apart, since a pool shares
them, and so does ATTN, since S_max bounds it over the whole batch (R179, R193, R195, R197, R259, R271).
(DEDUCED, log entry 92) -/
def worstEngine (d : Die) (lead : Nat) (h : ChanHost) (m : Model) (w : Nat) : Nat :=
  let u := Config.engineUse m.prog.consts (wImm w)
  let nle (p q r : Nat) : Nat := laneCycles (p * u.elems) (q * lanesOf d lead 2) + r
  match wOp w with
  | 0x22 => h.maxFft * (laneCycles (10 * m.k * 2 ^ (locLayer u.locus % 16)) (lanesOf d lead 1) + 32)
  | 0x28 => h.maxCb *
      (laneCycles ((if locLayer u.locus / 512 = 1 then 316 else 197) * worstLift u.locus) (32 * lanesOf d lead 2) + 40)
  | 0x29 => (h.maxCb + h.maxTb) * (laneCycles 8448 (4 * lanesOf d lead 2) + 24)
      + if locLayer u.locus = 2 then laneCycles (h.maxCb * 8448) (4 * lanesOf d lead 2) + h.maxTb * 25 else 0
  | 0x30 => nle 1 1 8
  | 0x31 => nle 1 1 12
  | 0x32 => nle 1 1 8
  | 0x33 => nle 3 1 40
  | 0x34 => nle 3 1 24
  | 0x35 => if u.relu then nle 1 1 8 else nle 11 9 20
  | 0x36 => nle 1 1 20
  | 0x37 => nle 11 9 24
  | 0x38 => nle 1 1 12
  | 0x39 => nle 20 9 40
  | 0x3A => nle 1 1 8
  | 0x3B => nle 1 1 16
  | 0x40 => cdiv (2 * m.manifest.nKv * cdiv (m.manifest.dHead * fmtBits m.manifest.kvFmt) 8) 512 + 16
  | 0x42 => nle 1 1 12
  | 0x48 => 12 * cdiv (u.bytes + 1) 136 + 8
  | 0x49 => 4
  | 0x4A => 4
  | _ => 0

/-- The positions that the selections of a program attend to at the most: none where it has no ATTN. -/
def worstAttend (h : ChanHost) (m : Model) : Option Nat :=
  match (m.prog.code.filter (fun w => wOp w == 0x41)).map (fun w =>
    worstSpan m h.ctx (locLayer (Config.engineUse m.prog.consts (wImm w)).locus)) with
  | [] => none
  | a :: r => some (r.foldl max a)

/-- Worst-case control-fabric cycles of a program for a batch of a channel beside its table passes: every token cursor at
max_tokens, every selection slot used, no arrival wait (R260, R266, R498). An arithmetic cycle is half a control-fabric
cycle. -/
def worstCycles (d : Die) (lead : Nat) (h : ChanHost) (m : Model) : Nat :=
  overWords m.prog h.maxTokens (fun w => coreCycles w + cdiv (worstEngine d lead h m w) 2)
    + match worstAttend h m with
      | some n => cdiv (h.sMax * selCycles d lead m.manifest.dHead n) 2
      | none => 0

/-- HBM bytes that one RCHK or BCHK reads of its tables at the most, over what it gathers of a number of batches (R108,
R271). -/
def worstTables (passTokens batches : Nat) (m : Model) (w : Nat) : Nat :=
  let u := Config.engineUse m.prog.consts (wImm w)
  if wOp w = 0x20 ∨ wOp w = 0x21 then overPasses (batches * u.tokens) passTokens (fun _ => 8 * m.k * (opShape m u.locus).2)
  else 0

/-- HBM bytes that one FFTC reads of the radio table at the most (R193). -/
def worstRadioTable (h : ChanHost) (m : Model) (w : Nat) : Nat :=
  if wOp w = 0x22 then h.maxFft * (16 * m.k * 2 ^ (locLayer (Config.engineUse m.prog.consts (wImm w)).locus % 16)) else 0

/-- The K and V runs that the selections of a batch read at the most: one for each slot, but the selections of one token that
share a (layer, KV head) read its run once (R180). (DEDUCED, log entry 93) -/
def worstRuns (h : ChanHost) (m : Model) : Nat := min h.sMax (h.maxTokens * m.manifest.nLayers * m.manifest.nKv)

/-- Worst-case HBM bytes of a program for a batch of a channel beside its table passes: the K and V runs of its selections
(R180), and what else it reads. (DESIGN CHOICE, log entry 184) -/
def worstBytes (h : ChanHost) (m : Model) : Nat :=
  Config.windowBytes m.prog.consts m.prog.code + overWords m.prog h.maxTokens (worstRadioTable h m)
    + match worstAttend h m with
      | some n => worstRuns h m * cdiv (2 * n * m.manifest.dHead * fmtBits m.manifest.kvFmt) 8
      | none => 0

/-- A cost of the model and the descriptor of the channel that a window names; none costs nothing. -/
def chanCost (infos : List ChanInfo) (f : ChanHost → Model → Nat) (e : TtEntry) : Nat :=
  match infos.find? (fun i => i.id == entryChan e) with
  | some i => (i.model.map (f i.host)).getD 0
  | none => 0

/-- The windows that one run of a program serves: its own, or those of its pool (R271). -/
def poolOf (t : Timetable) (w : TtEntry) : List TtEntry := t.entries.filter (fun e => e == w || samePool e w)

/-- Control-fabric cycles of the table passes of a program that gathers for a number of batches, of at most so many tokens
each (R271). -/
def passNeed (d : Die) (w : TtEntry) (tokens batches : Nat) (m : Model) : Nat :=
  overWords m.prog tokens (fun x => cdiv (worstPasses d w.group w.passTokens batches m x) 2)

/-- Worst-case need of a window: the program of each channel that shares its pool, with the table passes that gather for all of
them (R266, R271). (DEDUCED, log entry 92) -/
def windowNeed (d : Die) (infos : List ChanInfo) (t : Timetable) (w : TtEntry) : Nat :=
  let ws := poolOf t w
  let tokens := (ws.map (chanCost infos (fun h _ => h.maxTokens))).foldl max 0
  (ws.map (chanCost infos (worstCycles d w.group))).foldl (· + ·) 0
    + chanCost infos (fun _ m => passNeed d w tokens ws.length m) w

/-- Two windows are served by the same segments: those of one channel, or of one pool. -/
def sameSpans (a b : TtEntry) : Bool :=
  a.kind == 2 && b.kind == 2 && a.group == b.group && a.pool == b.pool && (a.pool != 0 || entryChan a == entryChan b)

/-- The windows around a window that its segments also serve, a pool's once: start and commit point as cycles from the start of
a period so far back that every overlapping one is among them, and the entry. (DEDUCED, log entry 92) -/
def windowsAround (t : Timetable) (w : TtEntry) : List (Nat × Nat × TtEntry) :=
  let s := slotCycles t.mu
  let all := t.entries.filter (sameSpans w)
  let reach := (all.map (fun e => e.commit)).foldl max 0 / (t.period * s) + 1
  (all.filter (fun e => (poolOf t e).head? == some e)).flatMap (fun e =>
    (List.range (2 * reach + 1)).map (fun k =>
      let a := (k * t.period + e.slot) * s + e.start
      (a, a + e.commit, e)))

/-- The segments provide every need up to a window's commit point: for each start from which the windows reach to it, those that
lie between the two fit together (R204, R266). (DEDUCED, log entry 92) -/
def needsFit (d : Die) (infos : List ChanInfo) (t : Timetable) (w : TtEntry) : Bool :=
  let s := slotCycles t.mu
  let ws := windowsAround t w
  let reach := ((t.entries.filter (sameSpans w)).map (fun e => e.commit)).foldl max 0 / (t.period * s) + 1
  let a0 := (reach * t.period + w.slot) * s + w.start
  let b0 := a0 + w.commit
  (ws.filter (fun v => decide (v.1 ≤ a0 ∧ v.2.1 ≤ b0))).all (fun v =>
    let inside := ws.filter (fun u => decide (v.1 ≤ u.1 ∧ u.2.1 ≤ b0))
    decide ((inside.map (fun u => windowNeed d infos t u.2.2)).foldl (· + ·) 0 ≤ provided t w v.1 b0))

/-- The image that the channel of a window names, for a Sentinel channel. -/
def sentinelOf (infos : List ChanInfo) (w : TtEntry) : Option Nat :=
  match infos.find? (fun i => i.id == entryChan w) with
  | some i => if i.host.kind = 3 then some (i.host.slot - 64) else none
  | none => none

/-- Worst-case need of a Sentinel window: run_cycles for the batch of each window of the image that overlaps it (R313).
(DEDUCED, log entry 92) -/
def sentinelNeed (d : Die) (infos : List ChanInfo) (t : Timetable) (w : TtEntry) (img : Nat) : Nat :=
  let at_ (e : TtEntry) : Nat := e.slot * slotCycles t.mu + e.start
  let n := (t.entries.filter (fun e => e.kind == 2 && sentinelOf infos e == some img
    && decide (at_ e < at_ w + w.commit) && decide (at_ w < at_ e + e.commit))).length
  n * u32At (mgetD d.sntb.images img {}).payload 12

/-- Cycles of the SENTINEL pairs of an image that begin after a window's start, as far as its commit point. -/
def sentinelProvided (t : Timetable) (w : TtEntry) (img : Nat) : Nat :=
  let s := slotCycles t.mu
  let a := w.slot * s + w.start
  ((List.range ((a + w.commit) / s + 1)).filter (fun j => decide (w.slot ≤ j))).foldl (fun acc j =>
    acc + ((t.entries.filter (fun e => e.kind == 7 && e.target == img && decide (e.group < 3) && e.slot == j % t.period
      && decide (a ≤ j * s + e.start))).map (fun e => min e.len (a + w.commit - (j * s + e.start)))).foldl (· + ·) 0) 0

/-- The spans do not provide the worst-case need of a window before its commit point (R266, R313). -/
def needUnmet (d : Die) (infos : List ChanInfo) (t : Timetable) (w : TtEntry) : Bool :=
  w.kind == 2 &&
    match sentinelOf infos w with
    | some img => decide (sentinelNeed d infos t w img > sentinelProvided t w img)
    | none => !needsFit d infos t w

/-- Worst-case HBM bytes of a window: those of each channel that shares its pool, and the table passes that gather for all of
them (R266, R271). (DEDUCED, log entry 93) -/
def windowHbm (infos : List ChanInfo) (t : Timetable) (w : TtEntry) : Nat :=
  let ws := poolOf t w
  let tokens := (ws.map (chanCost infos (fun h _ => h.maxTokens))).foldl max 0
  (ws.map (chanCost infos worstBytes)).foldl (· + ·) 0
    + chanCost infos (fun _ m => overWords m.prog tokens (worstTables w.passTokens ws.length m)) w

/-- HBM windows of 128 ns that a group surely has between a window's start and its commit point: the whole frames of
64 in that time. (DEDUCED, log entry 93) -/
def hbmWindows (t : Timetable) (w : TtEntry) : Nat :=
  w.commit * 10 / 11 / 8192 * (t.hbm.filter (fun b => b == w.group)).length

/-- Commit points of the timetable, ascending within the period, with the channels that commit there. -/
def commitPoints (t : Timetable) : AMap Nat :=
  let s := slotCycles t.mu
  (t.entries.filter (fun e => e.kind == 2)).foldl (fun m e =>
    let p := (e.slot * s + e.start + e.commit) % (t.period * s)
    mset m p (mgetD m p 0 + 1)) []

/-- Commit points that lie less than 16 cycles per committing channel before the next one, or after such a one, around the
period (R266). -/
def closeCommits (t : Timetable) : List Nat :=
  let ps := commitPoints t
  let total := t.period * slotCycles t.mu
  match ps with
  | [] => []
  | f :: _ =>
    (ps.zip (ps.drop 1 ++ [(f.1 + total, 0)])).flatMap (fun q =>
      if ps.length = 1 ∨ q.1.1 + 16 * q.1.2 ≤ q.2.1 then [] else [q.1.1, q.2.1 % total])

/-- A WINDOW whose commit point comes closer to another than R266 allows. -/
def commitClose (t : Timetable) (e : TtEntry) : Bool :=
  e.kind == 2 && (closeCommits t).contains ((e.slot * slotCycles t.mu + e.start + e.commit) % (t.period * slotCycles t.mu))

/-- Index of the first entry that meets a condition. -/
def badEntry (es : List TtEntry) (p : TtEntry → Bool) : Option Nat := es.findIdx? p

/-- A number names a group of a timetable's pairing: one in service, or one that a hand-over to that pairing would form.
(DEDUCED, log entry 200) -/
def groupThere (d : Die) (t : Timetable) (n : Nat) : Bool :=
  if t.pairing = d.vp.current then (groupNamed d n).isSome
  else (groupsOf t.pairing (enabledPipes d)).any (fun g => g.head? == some n)

/-- Causes 3 and 4: spans of one group, and the usable part. -/
def spansClash (t : Timetable) (e : TtEntry) : Bool :=
  isSpan e && decide (1 < (t.entries.filter (fun f =>
    isSpan f && f.group == e.group && f.slot == e.slot
      && decide (f.start < e.start + e.len + 4) && decide (e.start < f.start + f.len + 4))).length)

/-- The entry lies outside the usable part of the slot. (DEDUCED, log entry 200) -/
def outside (t : Timetable) (e : TtEntry) : Bool := decide (e.start + max 1 e.len > slotCycles t.mu - 1100)

/-- A radio window that disagrees with R202. -/
def radioBad (infos : List ChanInfo) (t : Timetable) (e : TtEntry) : Bool :=
  e.kind == 2 &&
    match infos.find? (fun i => i.id == entryChan e) with
    | some i =>
      let s := slotCycles t.mu
      let a := i.host.arrSym * s / 14
      i.host.kind == 2 && (i.host.mu != t.mu || e.start != a % s || e.verdict != (i.host.arrSym + i.host.winSym) * s / 14 - a)
    | none => false

/-- The CANARY entries of a channel come closer than a frame period of its stream, around the period (R266).
(DEDUCED, log entry 199) -/
def canariesClose (d : Die) (t : Timetable) (e : TtEntry) : Bool :=
  let s := slotCycles t.mu
  let at_ (f : TtEntry) : Nat := f.slot * s + f.start
  let ps := ((t.entries.filter (fun f => f.kind == 3 && f.target == e.target)).map at_).mergeSort (fun a b => a ≤ b)
  (ps.zip (ps.drop 1 ++ ps.head?.toList.map (fun p => p + t.period * s))).any (fun q =>
    decide (q.2 < q.1 + 1100 * fieldSel d e.stream pING 0x068 0))

/-- The SENTINEL entries of a timetable with an entry's target, slot, start and length in one half of the array. -/
def sntMates (t : Timetable) (e : TtEntry) (half : Nat) : List TtEntry :=
  t.entries.filter (fun f => f.kind == 7 && f.target == e.target && f.slot == e.slot && f.start == e.start
    && f.len == e.len && f.group / 3 == half)

/-- Cause 9: a target that does not exist, an unpaired SENTINEL entry, REBUILD entries of a model on two groups, a
canary without its channel, or canaries closer than a frame period of their stream. -/
def targetBad (d : Die) (infos : List ChanInfo) (slots : List Nat) (t : Timetable) (e : TtEntry) : Bool :=
  let known (c : Nat) : Bool := infos.any (fun i => i.id == c)
  (e.kind != 6 && !groupThere d t e.group) ||
  match e.kind with
  | 1 => if e.target ≥ 32768 then !t.entries.any (fun f => f.kind == 2 && f.group == e.group && f.pool == e.target % 256)
         else !known (entryChan e)
  | 2 => e.target ≥ 32768 || !known e.target ||
      (e.pool != 0 && t.entries.any (fun f => samePool e f && (infos.find? (fun i => i.id == f.target)).map (fun i => i.host.slot)
        != (infos.find? (fun i => i.id == e.target)).map (fun i => i.host.slot)))
  | 3 => e.target ≥ 32768 || !known e.target
      || !infos.any (fun i => i.id == e.target && i.host.canary && i.host.stream == e.stream)
      || canariesClose d t e
  | 5 => !slots.contains e.target || t.entries.any (fun f => f.kind == 5 && f.target == e.target && f.group != e.group)
  | 7 => (mgetD d.sntb.images e.target {}).state != 2 || (sntMates t e 0).length != (sntMates t e 1).length
  | _ => false

/-- Share of a group's time, in thousandths, that the REBUILD entries of a model take over the period. -/
def rebuildOf (t : Timetable) (slot : Nat) : Nat :=
  ((t.entries.filter (fun e => e.kind == 5 && e.target == slot)).foldl (fun a e => a + e.len) 0) * 1000
    / (t.period * slotCycles t.mu)

/-- The models, each with the rebuild share it needs: slot and percent (R107, R190, R266). -/
def shares (d : Die) (new : Option (Nat × Nat)) : List (Nat × Nat) :=
  new.toList ++ (d.adm.models.filter (fun e => some e.1 != new.map (fun n => n.1))).map
    (fun e => (e.1, e.2.share))

/-- Most descriptors that any slot of the timetable can need in the cache: channels with a window, at their max_open
tickets each (R286). -/
def cacheNeed (infos : List ChanInfo) (t : Timetable) : Nat :=
  (infos.filter (fun i => t.entries.any (fun e => e.kind == 2 && e.target == i.id))).length

/-- The cause under which an image is refused, and the offending one of its own entries; causes 3 to 11 in order, judged in
the timetable that it makes (R266). (DEDUCED, log entry 200) -/
def refuseTimetable (d : Die) (new : Option ChanInfo) (newModel : Option (Nat × Nat)) (own : List TtEntry) (t : Timetable) :
    Option (Nat × Nat) :=
  let infos := chanInfos d new
  let slots := d.adm.models.map (fun e => e.1) ++ (newModel.map (fun n => n.1)).toList
  let find (code : Nat) (p : TtEntry → Bool) : Option (Nat × Nat) := (badEntry own p).map (fun i => (code, i))
  let whole (code : Nat) (b : Bool) : Option (Nat × Nat) := if b then some (code, 0) else none
  let coupledBad (e : TtEntry) : Bool := e.kind == 2 && e.commit != e.verdict
    && infos.any (fun i => i.id == entryChan e && i.coupled)
  ((find 3 (spansClash t)).or ((find 4 (outside t)).or
    ((find 5 (needUnmet d infos t)).or
    ((find 6 (fun e => commitClose t e || coupledBad e)).or
    ((whole 7 (decide ((t.hbm.filter (fun b => b == 255)).length < 4))).or
    ((find 7 (fun e => e.kind == 2 && decide (windowHbm infos t e > 52428 * hbmWindows t e))).or
    ((find 8 (radioBad infos t)).or ((find 9 (targetBad d infos slots t)).or
    ((whole 10 ((shares d newModel).any (fun s => decide (rebuildOf t s.1 < s.2 * 10)))).or
    (whole 11 (decide (t.entries.length > 8192) || decide (cacheNeed infos t > 512))))))))))))

/-- The header of an image is good, and its entries are there. `form` 1 full, 2 fragment. -/
def headerOk (form : Nat) (b : Bytes) : Bool :=
  let n := u16At b 10
  (u32At b 0 == 0x4E444143 && u16At b 4 == 0x0100 && decide (byteAt b 6 ≤ 3) && byteAt b 7 == form
    && decide (1 ≤ u16At b 8) && decide (u16At b 8 ≤ 1024) && decide (n ≤ (if form = 1 then 8192 else 1024))
    && decide (byteAt b 12 ≤ 2) && (if form = 1 then byteAt b 13 == 0 && u16At b 14 == 0 else decide (1 ≤ byteAt b 13) && decide (byteAt b 13 ≤ 2))
    && allZero (slice b 16 48)
    && (if form = 1 then (slice b 64 64).all (fun x => decide (x.toNat ≤ 5) || x == 255) else allZero (slice b 64 64))
    && decide (128 + 32 * n ≤ b.length))

/-- An entry of an image is well formed. -/
def imageEntryOk (period : Nat) (e : Bytes) : Bool :=
  entryFieldsOk e && decide (u16At e 4 < period)
    && (byteAt e 0 != 2 || (decide (0 < u32At e 16) && decide (u32At e 16 ≤ u32At e 20) && decide (u32At e 20 ≤ u32At e 24)
      && decide (u32At e 24 ≤ 110000000)))

/-- Cause 1: the image is malformed, by its header (entry 0) or by its first bad entry. (DEDUCED, log entry 200) -/
def imageBad (form : Nat) (b : Bytes) : Option Nat :=
  if !headerOk form b then some 0
  else (pieces (u16At b 10) 32 (b.drop 128)).findIdx? (fun e => !imageEntryOk (u16At b 8) e)

/-- Record a refusal in CAD_REFUSE, which holds the first one until cleared, and report it (R266, R281, R282). -/
def cadRefuse (r : Nat × Nat) (d : Die) : Die :=
  let d := if capFree d pCAD 0x04C then setCap pCAD 0x04C (2147483648 + r.2 % 8192 * 16 + r.1) d else d
  raise pCAD 6 d

/-- Judge a full timetable in the load area: the timetable, or the refusal. -/
def judgeFull (d : Die) : Except (Nat × Nat) Timetable :=
  let b := d.cad.load
  match imageBad 1 b with
  | some i => .error (1, i)
  | none =>
    let t := parseTimetable b
    if t.mu ≠ d.tim.mu then .error (2, 0)
    else
      match refuseTimetable d none none t.entries t with
      | some r => .error r
      | none => .ok t

/-- Judge the fragment of a tag in the load area against the active timetable: its entries, or the refusal. A load area
that holds no fragment of the tag brings no entries. -/
def judgeFragment (d : Die) (tagKind tag : Nat) (new : Option ChanInfo) (newModel : Option (Nat × Nat)) :
    Except (Nat × Nat) (List TtEntry) :=
  let b := d.cad.load
  let mine := byteAt b 7 == 2 && byteAt b 13 == tagKind && u16At b 14 == tag
  match if mine then imageBad 2 b else none with
  | some i => .error (1, i)
  | none =>
    let f := if mine then parseTimetable b else { entries := [], mu := d.cad.active.mu, period := d.cad.active.period }
    if f.mu ≠ d.cad.active.mu ∨ f.period ≠ d.cad.active.period ∨ f.mu ≠ d.tim.mu then .error (2, 0)
    else
      match refuseTimetable d new newModel f.entries
          { d.cad.active with entries := f.entries ++ d.cad.frags ++ d.cad.active.entries } with
      | some r => .error r
      | none => .ok f.entries

/-- A group serves a channel: it owns it, or it runs entries of a Sentinel channel's image. -/
def groupServes (d : Die) (lead : Nat) (x : Chan) : Bool :=
  if x.host.kind = 3 then
    d.cad.active.entries.any (fun e => e.kind == 7 && 64 + e.target == x.host.slot && (pipe d e.group).lead == lead)
  else ownerLead d x == lead

/-- No new batch of a channel may begin: a hand-over drains the die, or a debug halt holds a group that serves the channel
(R242, R244). -/
def dispatchStopped (d : Die) (x : Chan) : Bool :=
  d.vp.draining || (List.range 6).any (fun n => (pipe d n).core.halted && groupServes d n x)

/-- Entries of a tag leave the fragments that wait; those in force leave at the slot boundary (R267). -/
def dropTag (tagKind tag : Nat) : Die → Die :=
  updCad (fun c => { c with
    frags := c.frags.filter (fun e => !(e.tagKind == tagKind && e.tag == tag))
    removals := c.removals ++ [(tagKind, tag)] })

end Sys2Proof.Machine
end

