-- ==== Sys2Proof/Machine/Months.lean ====
section
/-! DEFINITION. Admissions, weight streams, Month turns and withdrawal (R99 to R118, R129 to R132, R138, R420). -/

namespace Sys2Proof.Machine

/-! ## Footprint (R108, R109, R129) -/

/-- Bytes rounded up to whole extents of 64 KiB. -/
def extents (n : Nat) : Nat := cdiv n 65536 * 65536

/-- Sum of a list. -/
def sumL (l : List Nat) : Nat := l.foldl (· + ·) 0

/-- The ops of class 1 and 2 of an inference model, with their tensors. -/
def linearOps (m : Manifest) : List (OpE × TensorE) :=
  if m.kind = 2 then []
  else m.ops.filterMap (fun o => if o.cls = 1 ∨ o.cls = 2 then (m.tensors[o.tensor]?).map (fun t => (o, t)) else none)

/-- FFT sizes of a radio function. -/
def fftSizes (m : Manifest) : List Nat :=
  (m.ops.filter (fun o => m.kind == 2 && o.cls == 2)).map (fun o => 2 ^ (locLayer o.locus % 16))

/-- R_max of a model (R127, R189). -/
def rMax (m : Manifest) : Nat :=
  if m.kind = 2 then (if (fftSizes m).isEmpty then 0 else 4096) else highest ((linearOps m).map (fun p => p.2.rows))

/-- C_max of a model. -/
def cMax (m : Manifest) : Nat := highest ((linearOps m).map (fun p => p.2.cols))

/-- HBM bytes of an admitted model. -/
def modelBytes (m : Manifest) (k progSize : Nat) : Nat :=
  2 * extents (k * 8 * sumL ((linearOps m).map (fun p => p.2.cols)))
    + 2 * extents (sumL ((fftSizes m).map (fun n => k * 16 * n)))
    + sumL ((m.tensors.filter (fun t => t.role == 2 || t.role == 3)).map (fun t => extents t.bytes)) + extents progSize

/-- Row-secret bytes of an admitted model: two Month halves. -/
def secretBytes (m : Manifest) (k : Nat) : Nat := 2 * k * rMax m * 8

/-- Bits per token of the ledger of a model. -/
def tokenBits (m : Manifest) : Nat := 2 * m.nLayers * m.nKv * m.dHead * fmtBits m.kvFmt

/-- Bytes of one ledger unit at a density, 0 for none. -/
def unitBytes (m : Manifest) (density : Nat) : Nat :=
  if density = 0 then 0 else extents (256 * tokenBits m / 8 / density)

/-- HBM bytes of a channel: its ring and its ledger. -/
def chanBytes (d : Die) (h : ChanHost) (density : Nat) : Nat :=
  extents (2 ^ h.ringLog2 * 64) +
    match model d h.slot with
    | some m => if h.kind = 3 then 0 else cdiv h.ctx 256 * unitBytes m.manifest density
    | none => 0

/-- Bytes of the resident Sentinel images (R108). -/
def imageBytes (d : Die) : Nat :=
  sumL ((d.sntb.images.filter (fun e => e.2.state == 1 || e.2.state == 2)).map (fun e => extents e.2.payload.length))

/-- HBM bytes that a channel holds: an accepted create reserves its own at once (R109), and a channel that has left service
has given back its ledger's units (R169). -/
def chanHolds (d : Die) (x : Chan) : Nat :=
  if chanLive x || x.pend == some .create then chanBytes d x.host x.density
  else if x.state == .free then 0 else chanBytes d x.host 0

/-- HBM bytes in use: the fixed system region, images, models, channels, bulk targets and withdrawn extents. -/
def hbmUsed (d : Die) : Nat :=
  201326592 + imageBytes d + sumL (d.adm.models.map (fun e => modelBytes e.2.manifest e.2.k e.2.prog.size))
    + sumL (d.chn.tab.map (fun e => chanHolds d e.2))
    + sumL (d.key.bulk.map (fun e => extents e.2.size)) + 65536 * d.adm.withdrawnExtents

/-- Free HBM of the die, of 24,000,000,000 bytes. -/
def hbmFree (d : Die) : Nat := 24000000000 - hbmUsed d

/-- A model's footprint fits HBM, the row-secret area and the build buffer (step 7). -/
def modelFits (d : Die) (m : Manifest) (k progSize : Nat) : Bool :=
  decide (modelBytes m k progSize ≤ hbmFree d)
    && decide (secretBytes m k + sumL (d.adm.models.map (fun e => secretBytes e.2.manifest e.2.k)) ≤ 10485760)
    && decide (k * cMax m * 8 ≤ 2097152)

/-! ## Month keys (R411, R419, R420) -/

/-- The Month key of a Month. -/
def monthKey (d : Die) (month : Nat) : Bytes :=
  kmac256 (kmac256 d.key.seed [0x02] 32 (ascii "HW2240 month root")) (leBytes 4 month ++ d.key.bind) 32
    (ascii "HW2240 month")

/-- Queue an RPMB write; requests are served in order (R420). -/
def rpmbQueue (w : RpmbWrite) : Die → Die := updKey (fun k => { k with writes := k.writes ++ [w] })

/-- Fresh tables of a Month. -/
def newTables (d : Die) (month : Nat) : Tables := { month := month, key := monthKey d month }

/-! ## The end of an admission or of a turn -/

/-- Report a slot's code: EVENT 4 and the slot's own record (R102, R434). -/
def reportSlot (slot code : Nat) (d : Die) : Die :=
  sendEvent 4 (slot + 256 * code) (updAdm (fun a => { a with codes := mset a.codes slot code }) d)

/-- The weight stream of a slot ends. -/
def stopStream (slot : Nat) (d : Die) : Die :=
  match d.adm.stream with
  | some st =>
    if st.slot = slot then updWrd (fun w => { w with chunks := [] }) (updAdm (fun a => { a with stream := none }) d)
    else d
  | none => d

/-- Release everything a slot holds (R102). -/
def freeSlot (slot : Nat) (d : Die) : Die :=
  let d := stopStream slot { d with descs := d.descs.filter (fun x => x.1 / 2 ^ 64 != slot) }
  releaseExtents 1 slot <| dropTag 1 slot (updAdm (fun a => { a with models := mdel a.models slot })
    (updKey (fun k => { k with writes := k.writes.filter (fun w => w != .admission slot && w != .turn slot) }) d))

/-- Put a slot into one of the lists of coupled admissions, or take it out. -/
def withSlot (slot : Nat) (l : List Nat) : List Nat := (slot :: l).eraseDups

/-- The lists of coupled admissions start over for a slot: nothing is known of the peer's half. -/
def clearPeer (slot : Nat) : Die → Die := updAdm (fun a => { a with
  peerRefused := a.peerRefused.filter (fun x => x != slot), peerDone := a.peerDone.filter (fun x => x != slot)
  awaits := a.awaits.filter (fun x => x != slot) })

/-- Tell the peer that this die's half of a coupled admission has ended; `first` says that the peer's own word is still to
come. (DEDUCED, log entry 74) -/
def tellRefusal (slot code : Nat) (first : Bool) (d : Die) : Die :=
  let d := clearPeer slot d
  let d := if first then updAdm (fun a => { a with awaits := withSlot slot a.awaits }) d else d
  sendSpoke 3 code 0 slot 0 0 0 [] [] d

/-- An admission ends with a refusal; for a Coupled model the peer hears of it (R102, R104). -/
def endAdmission (slot code : Nat) (first : Bool) (d : Die) : Die :=
  match model d slot with
  | none => d
  | some m =>
    let d := reportSlot slot code (freeSlot slot d)
    if isCoupled m then tellRefusal slot code first d else d

/-- Withdraw a model: its channels retire with end_cause 5, its Months are zeroed (R116, R432). -/
def withdrawModel (slot : Nat) (d : Die) : Die :=
  freeSlot slot (retireWhere (fun x => x.host.kind != 3 && x.host.slot == slot) 5 3 19 d)

/-- Withdraw an abandoned model once no ticket of it is open (R116). -/
def finishAbandoned (slot : Nat) (d : Die) : Die :=
  match model d slot with
  | some m =>
    match m.state with
    | .abandoned code =>
      if d.chn.tickets.any (fun b => (chan d b.channel).host.kind != 3 && (chan d b.channel).host.slot == slot) then d
      else reportSlot slot code (withdrawModel slot d)
    | _ => d
  | none => d

/-- Withdraw every abandoned model that no open ticket holds back (R116). -/
def finishAll (d : Die) : Die := (d.adm.models.map (fun e => e.1)).foldl (fun d slot => finishAbandoned slot d) d

/-- Abandon a Month turn (R116). -/
def abandonTurn (slot code : Nat) (d : Die) : Die :=
  let d := stopStream slot d
  let d := updKey (fun k => { k with writes := k.writes.filter (fun w => w != .turn slot) }) d
  finishAbandoned slot (modModel slot (fun m => { m with
    state := .abandoned code, standby := {}, turn := none, pending := none }) d)

/-- A stream of a slot fails with a code: the admission ends, or the turn is abandoned. (DEDUCED, log entry 65) -/
def failStream (slot code : Nat) (d : Die) : Die :=
  match model d slot with
  | some m => if m.state == .ready then abandonTurn slot code d else endAdmission slot code true d
  | none => d

/-! ## The weight stream (R103, R106, R107) -/

/-- The next tensor at or after an index that a stream carries: all of them at admission, role 1 in a turn. -/
def nextTensor (m : Manifest) (turn : Bool) (i : Nat) : Nat :=
  let rest := (m.tensors.drop i).findIdx? (fun t => !turn || t.role == 1)
  match rest with
  | some j => i + j
  | none => m.tensors.length

/-- Request the stream from the accelerator: the load ratchet rises by one; a radio function streams nothing and bumps
nothing (R102, R105, R114). (DEDUCED, log entry 75) -/
def requestStream (slot : Nat) (turn : Bool) (d : Die) : Die :=
  match model d slot with
  | none => d
  | some m =>
    let st : Stream := { slot := slot, turn := turn, tensor := nextTensor m.manifest turn 0, startNs := d.tim.ns }
    let d := updAdm (fun a => { a with stream := some st }) d
    let d := updWrd (fun w => { w with chunks := [] }) d
    if m.manifest.kind = 2 then d
    else raiseRat 1 m.loadRatchet ((ratchet d m.loadRatchet).value + 1) d

/-- A stream has nothing to build: no tensor to come, and for a radio function no FFT table (R114, R190). -/
def nothingToBuild (m : Manifest) (turn : Bool) : Bool :=
  if m.kind = 2 then (fftSizes m).isEmpty else nextTensor m turn 0 == m.tensors.length

/-- A slot's stream is complete: an admission is built, a turn's standby tables are ready; a Coupled die says so.
(DEDUCED, log entry 74) -/
def streamDone (slot : Nat) (d : Die) : Die :=
  match model d slot with
  | none => d
  | some m =>
    let d := stopStream slot d
    if m.state == .ready then
      let d := modModel slot (fun m => { m with
        turn := some (if isCoupled m && !m.peerOk then .waitPeer else .built), standby := { m.standby with ready := true } }) d
      if isCoupled m then sendSpoke 2 2 0 slot 0 0 0 [] [] d else d
    else
      let d := modModel slot (fun m => { m with state := .built, active := { m.active with ready := true } }) d
      if isCoupled m then
        let d := sendSpoke 3 0 0 slot 0 0 0 [] [] d
        if d.spk.down && !m.peerOk then endAdmission slot 15 true d else d
      else d

/-- The parameter of a kind at a locus, or zero (R497). -/
def param (p : Program) (locus kind index : Nat) : Nat :=
  match p.params.find? (fun e => e.locus == locus / 4096 * 4096 && e.kind == kind && e.index == index) with
  | some e => e.value
  | none => 0

/-- The plan's scale exponent of the LAYER_OUT at a locus. -/
def outScale (p : Program) (locus : Nat) : Int :=
  match p.plan.find? (fun e => e.rtype == 1 && e.locus == locus) with
  | some e => sgn 8 e.scale
  | none => 0

/-- The condition of R123 for every class-1 op of a tensor. -/
def spansOk (m : Model) (i : Nat) (t : TensorE) (rng : Int × Int) : Bool :=
  (m.manifest.ops.filter (fun o => o.cls == 1 && o.tensor == i)).all (fun o =>
    spanOk t.cols (if t.fmt = 0x10 then 8 else fmtBits t.fmt) rng.1 rng.2 (fmtBits o.inFmt)
      (sgn 64 (param m.prog o.locus 1 0)) (fmtBits o.outFmt) (outScale m.prog o.locus))

/-- Add a finished tensor to a Month's tables: projections of class 1, table entries and wrow of class 2 (R131,
R145). -/
def buildTensor (m : Model) (i : Nat) (t : TensorE) (bytes : Bytes) (tb : Tables) : Tables :=
  let secrets := (List.range m.k).map (fun j => rowSecrets tb.key j (rMax m.manifest))
  let cls : Nat := ((m.manifest.ops.find? (fun o => o.tensor == i && (o.cls == 1 || o.cls == 2))).map (fun o => o.cls)).getD 0
  if m.manifest.kind = 2 ∨ t.role ≠ 1 then tb
  else if cls = 1 then
    let rows := (weightRows t bytes).map rowPhi
    { tb with proj := mset tb.proj i (secrets.map (fun rs => project rs t.cols rows)), expo := mset tb.expo i (expoRange t bytes) }
  else if cls = 2 then
    let rows := (pieces t.rows (rowBytes t.fmt t.cols) bytes).map (valuesX t.fmt 0 t.cols)
    { tb with
      proj := mset tb.proj i (secrets.map (fun rs => (bandColumns (rs.map bsec) t.cols rows).map bandEntry))
      wrow := mset tb.wrow i [f64b (bandWrow rows)] }
  else tb

/-- The tables of a radio function: for each FFT entry and secret the complex entries (R190), keyed by the op's index. -/
def radioTables (m : Model) (tb : Tables) : Tables :=
  { tb with proj := (m.manifest.ops.zipIdx).foldl (fun p oi =>
      let l := locLayer oi.1.locus
      if oi.1.cls = 2 then
        mset p oi.2 ((List.range m.k).map (fun j =>
          fftTable (rowSecrets tb.key j 4096) (2 ^ (l % 16)) (l / 16) (param m.prog oi.1.locus 12 0)))
      else p) tb.proj }

/-- Build what a radio function's stream asks for: all of it in one span (R190). (DEDUCED, log entry 76) -/
def buildRadio (slot : Nat) (turn : Bool) (d : Die) : Die :=
  streamDone slot (modModel slot (fun m =>
    if turn then { m with standby := radioTables m m.standby } else { m with active := radioTables m m.active }) d)

/-- Some MX block scale byte is 0xFF among the bytes of a tensor from an offset on (R106). -/
def chunkNan (t : TensorE) (off : Nat) (bytes : Bytes) : Bool :=
  fmtMx t.fmt && (bytes.mapIdx (fun i b => (off + i, b))).any (fun p =>
    p.2 == 0xFF && decide (p.1 % rowBytes t.fmt t.cols < cdiv t.cols 32))

/-- A class-2 tensor whose checks no exactness bound covers: more than 1,048,576 columns, or an accumulator that is not
finite (R145). (DESIGN CHOICE, log entry 214) -/
def bandRefused (m : Model) (i : Nat) (t : TensorE) (tb : Tables) : Bool :=
  m.manifest.ops.any (fun o => o.cls == 2 && o.tensor == i)
    && (decide (1048576 < t.cols) || ((mgetD tb.wrow i []).any (fun w => !isFin (f64v w)))
      || (mgetD tb.proj i []).any (fun c => c.any (fun w => !isFin (bandValue w))))

/-- A tensor's last byte has been hashed: its digest, then the conditions of R123 and R145, then its tables (R106, R107
step 11). (DEDUCED, log entries 76, 98; DESIGN CHOICE, log entry 197) -/
def finishTensor (slot i : Nat) (bytes : Bytes) (d : Die) : Die :=
  match model d slot, d.adm.stream with
  | some m, some st =>
    match m.manifest.tensors[i]? with
    | none => d
    | some t =>
      let dig := parallelHash256 bytes 8192 (ascii "HW2240 tensor")
      let d := countPerms (bytes.length + 168 * (cdiv bytes.length 8192 + 1)) d
      let built := buildTensor m i t bytes (if st.turn then m.standby else m.active)
      if dig ≠ t.digest then failStream slot 10 d
      else if !st.turn && !spansOk m i t (expoRange t bytes) then failStream slot 4 (raise pRES 7 d)
      else if !st.turn && bandRefused m i t built then failStream slot 4 (raise pBND 6 d)
      else
        let add (_ : Tables) : Tables := { built with digests := built.digests ++ [dig] }
        let d := modModel slot (fun m =>
          let m := if t.role = 1 then m else { m with retained := mset m.retained i bytes }
          if st.turn then { m with standby := add m.standby } else { m with active := add m.active }) d
        let d := updAdm (fun a => { a with stream := a.stream.map (fun s => { s with got := [] }) }) d
        if nextTensor m.manifest st.turn (i + 1) = m.manifest.tensors.length then streamDone slot d else d
  | _, _ => d

/-- Hash and project one held chunk. -/
def buildChunk (d : Die) (r : RecIn) : Die :=
  match d.adm.stream with
  | none => d
  | some st =>
    match model d st.slot with
    | none => d
    | some m =>
      let i := u32At r.payload 0
      let got := st.got ++ slice r.payload 16 (u32At r.payload 12)
      let d := updAdm (fun a => { a with stream := a.stream.map (fun s => { s with got := got }) }) d
      match m.manifest.tensors[i]? with
      | some t => if got.length = t.bytes then finishTensor st.slot i got d else d
      | none => d

/-- Work through every chunk that waits in staging (R107). (DEDUCED, log entry 76) -/
def buildChunks (d : Die) : Die :=
  let cs := d.wrd.chunks
  cs.foldl buildChunk (updWrd (fun w => { w with chunks := [] }) d)

/-- A model's standby or build buffer holds tables that its stream builds or has built. -/
def building (m : Model) : Bool :=
  m.state == .streaming || m.state == .built
    || m.state == .ready && (m.turn == some .streaming || m.turn == some .built || m.turn == some .waitPeer)

/-- An uncorrectable word in a standby or build buffer (R138): the stream begins again under the same Month, as soon as the
die's one stream is free; the second one in one admission or turn ends it. -/
def tableHit (slot : Nat) (d : Die) : Die :=
  match model d slot with
  | none => d
  | some m =>
    if !building m then d
    else if m.eccHits ≥ 1 then failStream slot 16 d
    else
      let turn := m.state == .ready
      let own := (d.adm.stream.map (fun st => st.slot == slot)).getD false
      let d := modModel slot (fun m =>
        let m := { m with eccHits := m.eccHits + 1 }
        if turn then { m with
          turn := some (if own then .streaming else .again), standby := { month := m.standby.month, key := m.standby.key } }
        else { m with
          state := if own then .streaming else .queued, active := { month := m.active.month, key := m.active.key } }) d
      if own then requestStream slot turn d else d

/-! ## Order of streams (R103) -/

/-- Turns that wait and may start: their standby buffer is free. -/
def turnsWaiting (d : Die) (forced : Bool) : List (Nat × Nat) :=
  d.adm.models.filterMap (fun e =>
    match e.2.pending with
    | some p => if p.forced == forced && e.2.state == .ready && e.2.turn.isNone && e.2.old.isNone then some (p.order, e.1) else none
    | none => none)

/-- Turns that wait to begin their stream again (R138). -/
def turnsAgain (d : Die) : List Nat :=
  (d.adm.models.filter (fun e => e.2.turn == some .again && e.2.state == .ready)).map (fun e => e.1)

/-- Of (order, slot) pairs, the slot of the lowest order. -/
def firstOfOrder : List (Nat × Nat) → Option (Nat × Nat)
  | [] => none
  | a :: r =>
    match firstOfOrder r with
    | some b => some (if a.1 ≤ b.1 then a else b)
    | none => some a

/-- What the free stream takes next: (slot, turn). A turn that has had its place takes the stream again before any that has
not. -/
def nextStream (d : Die) : Option (Nat × Bool) :=
  if d.adm.stream.isSome then none
  else
    match turnsAgain d, firstOfOrder (turnsWaiting d true) with
    | slot :: _, _ => some (slot, true)
    | [], some t => some (t.2, true)
    | [], none =>
      let adms := (d.adm.models.filter (fun e => e.2.state == .queued)).map (fun e => (e.2.order, e.1))
      let turns := turnsWaiting d false
      match firstOfOrder (adms ++ turns) with
      | some t => some (t.2, turns.contains t)
      | none => none

/-- WEIGHT_STREAM_START: the queued admission that is next begins step 10; a radio function streams nothing and builds its
tables in the rebuild share (R190). -/
def streamStart (d : Die) : Die :=
  match nextStream d with
  | some (slot, false) =>
    match model d slot with
    | some m =>
      let d := modModel slot (fun m => { m with state := .streaming }) d
      let d := requestStream slot false d
      if nothingToBuild m.manifest false then streamDone slot d else d
    | none => d
  | _ => d

/-- MONTH_TURN_START: a turn that is next takes the stream and asks for its Month (R114 steps 1 and 2); one that begins its
stream again keeps its Month (R138). -/
def turnStart (slot : Nat) (d : Die) : Die :=
  if nextStream d = some (slot, true) then
    match model d slot with
    | some m =>
      if m.turn = some .again then
        requestStream slot true (modModel slot (fun m => { m with turn := some .streaming }) d)
      else
      let d := updAdm (fun a => { a with stream := some { slot := slot, turn := true, startNs := d.tim.ns } }) d
      let d := modModel slot (fun m => { m with pending := none, turn := some .rpmb, eccHits := 0 }) d
      if d.key.rpmb.month = 4294967295 then abandonTurn slot 13 (raise pKEY 8 d)
      else rpmbQueue (.turn slot) d
    | none => d
  else d

/-- A Month has been confirmed for a slot: its tables begin (R102 step 9, R114 steps 3 and 4). -/
def monthConfirmed (slot : Nat) (turn : Bool) (d : Die) : Die :=
  let month := d.key.rpmb.month + 1
  let d := updKey (fun k => { k with rpmb := { k.rpmb with month := month } }) d
  if turn then
    let d := modModel slot (fun m => { m with turn := some .streaming, standby := newTables d month }) d
    match model d slot with
    | some m =>
      let d := requestStream slot true d
      if nothingToBuild m.manifest true then streamDone slot d else d
    | none => d
  else modModel slot (fun m => { m with state := .queued, active := newTables d month }) d

/-- The Month counter can rise no further: whatever still waits to raise it ends (R420). -/
def monthsSpent (d : Die) : Die :=
  if d.key.rpmb.month = 4294967295 then
    d.key.writes.foldl (fun d w =>
      match w with
      | .admission slot => endAdmission slot 13 true (raise pKEY 8 d)
      | .turn slot => abandonTurn slot 13 (raise pKEY 8 d)
      | _ => d) d
  else d

/-- RPMB_WRITE_CONFIRM: the front write is confirmed. (DEDUCED, log entry 176) -/
def rpmbConfirm (d : Die) : Die :=
  monthsSpent <|
  match d.key.writes with
  | [] => d
  | w :: r =>
    let d := count pKEY 0x0C8 (updKey (fun k => { k with writes := r }) d)
    match w with
    | .admission slot => monthConfirmed slot false d
    | .turn slot => monthConfirmed slot true d
    | .svn kind v => updKey (fun k => { k with rpmb := { k.rpmb with svn := k.rpmb.svn.set (kind - 1) v } }) d
    | .owner dig sid seq =>
      sendResult sid seq 0 0 [] (updKey (fun k => { k with rpmb := { k.rpmb with owner := dig } }) d)

/-- The slot of the first admission that waits for its RPMB write. -/
def waitingAdmission : List RpmbWrite → Option Nat
  | [] => none
  | .admission slot :: _ => some slot
  | _ :: r => waitingAdmission r

/-- RPMB_ADMISSION_TIMEOUT: the admission that has waited longest for its RPMB write ends with code 13, wherever that write
stands in the order (R102, R420). -/
def rpmbTimeout (d : Die) : Die :=
  match waitingAdmission d.key.writes with
  | some slot => endAdmission slot 13 true d
  | none => d

/-- LOAD_TIMEOUT: the running stream has had its time (R107); it counts from the bump, which a radio function does not send. -/
def loadTimeout (d : Die) : Die :=
  match d.adm.stream with
  | none => d
  | some st =>
    match model d st.slot with
    | none => d
    | some m =>
      if d.tim.ns - st.startNs ≥ m.loadTimeout * 1000000000 && m.turn != some .rpmb && m.manifest.kind == 1 then failStream st.slot 12 d else d

/-- MONTH_PERIOD_EXPIRY: the active Month has reached its age (R113). -/
def monthExpiry (slot : Nat) (d : Die) : Die :=
  match model d slot with
  | some m =>
    if m.state == .ready && decide (d.tim.ns - m.switchNs ≥ m.periodH * 3600000000000) then requestTurn slot false d else d
  | none => d

/-- At a slot boundary: built models become READY, complete turns switch, abandoned models whose tickets have ended
are withdrawn (R107, R114 to R118). -/
def monthsBoundary (d : Die) : Die :=
  (d.adm.models.map (fun e => e.1)).foldl (fun d slot =>
    match model d slot with
    | none => d
    | some m =>
      if m.state == .built && (!isCoupled m || m.peerOk) then
        reportSlot slot 0 (modModel slot (fun m => { m with state := .ready, switchNs := d.tim.ns, peerOk := false }) d)
      else if m.turn == some .built then
        let d := modModel slot (fun m => { m with
          old := some m.active, active := m.standby, standby := {}, switchNs := d.tim.ns, turn := none, peerOk := false }) d
        freeOldMonth slot d
      else finishAbandoned slot d) d

/-! ## The admission request (R100 to R105) -/

/-- An admission request as it stands, clamped (R100, R12). -/
structure AdmitReq where
  slot    : Nat
  k       : Nat
  share   : Nat
  dies    : Nat
  channel : Nat
  ratchet : Nat
  timeout : Nat
  period  : Nat
  grace   : Nat
  digest  : Bytes
  deriving DecidableEq, Repr

/-- Read a request of 64 bytes. -/
def parseAdmit (b : Bytes) : AdmitReq :=
  let set := tst (byteAt b 14) 0
  { slot := min 63 (byteAt b 0), k := clamp 1 8 (byteAt b 1), share := clamp 5 50 (byteAt b 2), dies := byteAt b 3 % 4
    channel := min 32767 (u16At b 4), ratchet := u16At b 6 % 4096, timeout := clamp 10 3600 (u32At b 8)
    period := if set then clamp 1 168 (byteAt b 12) else 24, grace := if set then min 24 (byteAt b 13) else 1
    digest := slice b 16 32 }

/-- The die is named in a request. -/
def diesNames (d : Die) (dies : Nat) : Bool := tst dies d.which.num

/-- The manifest's trailer signature is good and its signer trusted (R98): entry kind 1 of the trust list names
manifest signers. -/
def manifestSigned (d : Die) (b : Bytes) : Bool :=
  let t := b.drop (b.length - 192)
  let pk := slice t 0 57
  (match d.key.trust with
    | some l => l.any (fun e => e.1 == 1 && e.2 == h32 pk)
    | none => false)
    && edVerify pk (ascii "HW2240 manifest") (b.take (b.length - 192)) (slice t 64 114)

/-- STRICT is in force on the die (R474). -/
def strictOn (d : Die) : Bool := field d pGLB 0x04C 0 == 1

/-- The dies disagree in GLB STRICT at a Coupled request (R458). -/
def strictDiffers (d peer : Die) (q : AdmitReq) : Bool := q.dies == 3 && strictOn d != strictOn peer

/-- The dies disagree in the pairing in force at a Coupled request (R458). -/
def pairingDiffers (d peer : Die) (q : AdmitReq) : Bool := q.dies == 3 && d.vp.current != peer.vp.current

/-- Steps 1 to 8 of admission (R102) on one die: the refusal code, or the fragment's entries. The refusal of the
fragment is recorded in CAD_REFUSE. (DEDUCED, log entries 72, 73) -/
def admitSteps (d peer : Die) (q : AdmitReq) (man image : Bytes) : Nat × List TtEntry × Option (Nat × Nat) :=
  let m := parseManifest man
  let k := max q.k m.kMin
  let waiting := (d.adm.models.filter (fun e => e.2.state == .rpmb || e.2.state == .queued)).length
  if !diesNames d q.dies then (14, [], none)
  else if !((d.phase == .spring || d.phase == .summer) && d.wlk.state == .up && (model d q.slot).isNone
      && decide (waiting < 8)) then (14, [], none)
  else if !(h32 man == q.digest && manifestOk man && kvOk m && radioZeros m) then (2, [], none)
  else if !radioOk m then (6, [], none)
  else if !manifestSigned d man then (1, [], none)
  else if h32 image ≠ m.programDigest then (3, [], none)
  else if !programOk m image (strictOn d) then (4, [], none)
  else if (m.strictReq && !strictOn d) || strictDiffers d peer q then (5, [], none)
  else if !modelFits d m k image.length then (7, [], none)
  else if pairingDiffers d peer q then (9, [], none)
  else
    match judgeFragment d 1 q.slot none (some (q.slot, q.share)) with
    | .error r => (9, [], some r)
    | .ok es => (0, es, none)

/-- Values of a Coupled request that must be equal on both dies (R101). -/
def coupledDiffers (q : AdmitReq) (peer : Option Model) : Bool :=
  match peer with
  | some p => q.dies == 3 && isCoupled p && admitting p && !(p.periodH == q.period && p.graceH == q.grace)
  | none => false

/-- An admission request on a die: the code, 0 for pending, and the die after it. (DEDUCED, log entries 72, 74) -/
def admitOn (req man image : Bytes) (session : Nat) (peer d : Die) : Nat × Die :=
  let q := parseAdmit req
  let tell (code : Nat) (d : Die) : Die := if q.dies = 3 then tellRefusal q.slot code true d else d
  if !diesNames d q.dies then (14, d)
  else if d.adm.peerRefused.contains q.slot && q.dies == 3 then
    (if strictDiffers d peer q then 5 else if pairingDiffers d peer q then 9 else 15,
      tellRefusal q.slot 15 false d)
  else if coupledDiffers q (model peer q.slot) then (15, tell 15 d)
  else
    match admitSteps d peer q man image with
    | (0, es, _) =>
      let m := parseManifest man
      if d.key.rpmb.month = 4294967295 then (13, tell 13 (raise pKEY 8 d))
      else
        let x : Model :=
          { state := .rpmb, manifest := m, prog := parseProgram image, k := max q.k m.kMin, share := q.share, dies := q.dies
            loadChannel := q.channel, loadRatchet := q.ratchet, loadTimeout := q.timeout, periodH := q.period
            graceH := q.grace, session := session, order := d.adm.order, fragment := es
            peerOk := q.dies == 3 && d.adm.peerDone.contains q.slot }
        let d := updAdm (fun a => { a with models := mset a.models q.slot x, order := a.order + 1 }) (clearPeer q.slot d)
        (0, rpmbQueue (.admission q.slot) (updCad (fun c => { c with frags := c.frags ++ es }) d))
    | (code, _, r) =>
      let d := match r with
        | some r => cadRefuse r d
        | none => d
      (code, tell code d)

/-- Code with which a die ends its half of an admission that the peer refused: the peer's own where both refuse alike
(R458), else 15. (DEDUCED, log entry 74) -/
def peerCode (code : Nat) (d peer : Die) : Nat :=
  if code = 5 ∧ strictOn d ≠ strictOn peer then 5 else if code = 9 ∧ d.vp.current ≠ peer.vp.current then 9 else 15

/-- SPOKE_ADMIT: the peer refused its half, or completed it (R104). (DEDUCED, log entry 74) -/
def spokeAdmitOn (m : SpokeMsg) (peer d : Die) : Die :=
  if spokeOk 3 m then
    let slot := spA m % 64
    match model d slot with
    | some x =>
      if isCoupled x && admitting x then
        if spSub m = 0 then modModel slot (fun x => { x with peerOk := true }) d else endAdmission slot (peerCode (spSub m) d peer) false d
      else if spSub m ≠ 0 ∧ d.adm.awaits.contains slot then clearPeer slot d
      else d
    | none =>
      if spSub m = 0 then
        (if d.adm.awaits.contains slot then d else updAdm (fun a => { a with peerDone := withSlot slot a.peerDone }) d)
      else if d.adm.awaits.contains slot then clearPeer slot d
      else updAdm (fun a => { a with peerRefused := withSlot slot a.peerRefused }) (clearPeer slot d)
  else d

/-- SPOKE_TURN: the peer started a turn, or its standby tables are complete (R118). -/
def spokeTurnOn (m : SpokeMsg) (d : Die) : Die :=
  if spokeOk 2 m then
    let slot := spA m % 64
    match model d slot with
    | some x =>
      if !isCoupled x then d
      else if spSub m = 1 then requestTurn slot false d
      else if spSub m = 2 then
        modModel slot (fun x => { x with peerOk := true, turn := if x.turn == some .waitPeer then some .built else x.turn }) d
      else d
    | none => d
  else d

/-! ## Spoke (R246, R249, R250) -/

/-- What follows from spoke_down: coupled batches in flight go on alone, coupled admissions that wait for the peer's ADMIT end
with code 15, what was known of the peer's halves is forgotten, and die B follows its own source (R22, R249, R250).
(DEDUCED, log entry 190) -/
def spokeDown (d : Die) : Die :=
  let d := loseCoupled (updSpk (fun q => { q with up := false, down := true, tries := 0, early := [] }) d)
  let d := updTim (fun t => { t with following := false }) d
  let d := (d.adm.models.filter (fun e => isCoupled e.2 && admitting e.2 && !e.2.peerOk)).foldl
    (fun d e => endAdmission e.1 15 true d) d
  updAdm (fun a => { a with peerRefused := [], peerDone := [], awaits := [] }) d

/-- Spoke has failed (R246, R249). -/
def spokeTimeout (d : Die) : Die := spokeDown (raise pSPK 2 d)

/-- One transmission of a Spoke message arrives: beats that SECDED has corrected are noted; a wrong CRC asks for a retry, up
to three, and a fourth failure takes Spoke down; a right one is acted on. (DEDUCED, log entry 188) -/
def spokeTake (m : SpokeMsg) (f : Die → Die) (d : Die) : Die :=
  let d := if m.beats = 0 then d else raise pSPK 0 d
  if m.body.length = 96 ∧ u32At m.body 92 = crc32c (m.body.take 92) then f (updSpk (fun q => { q with tries := 0 }) d)
  else if d.spk.tries < 3 then
    let d := if d.spk.tries = 0 then count pSPK 0x058 d else d
    raise pSPK 1 (updSpk (fun q => { q with tries := q.tries + 1 }) d)
  else spokeTimeout d

/-! ## The commands -/

/-- WEIGHT_STREAM_START. -/
def execWeightStreamStart (d : DieId) (s : State) : Host.Outcome State Fault Refusal := runDie d streamStart s

/-- MONTH_TURN_START. -/
def execMonthTurnStart (d : DieId) (slot : BitVec 6) (s : State) : Host.Outcome State Fault Refusal :=
  runDie d (turnStart slot.toNat) s

/-- RPMB_WRITE_CONFIRM. -/
def execRpmbWriteConfirm (d : DieId) (s : State) : Host.Outcome State Fault Refusal := runDie d rpmbConfirm s

/-- RPMB_ADMISSION_TIMEOUT. -/
def execRpmbAdmissionTimeout (d : DieId) (s : State) : Host.Outcome State Fault Refusal := runDie d rpmbTimeout s

/-- RPMB_RETRY: a write was not confirmed and is tried again (R420). -/
def execRpmbRetry (d : DieId) (s : State) : Host.Outcome State Fault Refusal :=
  runDie d (fun x => if x.key.writes.isEmpty then x else raise pKEY 2 x) s

/-- RPMB_LOST: no confirmation for 60 s (R420). -/
def execRpmbLost (d : DieId) (s : State) : Host.Outcome State Fault Refusal :=
  runDie d (fun x => if x.key.writes.isEmpty then x else raise pKEY 3 x) s

/-- LOAD_TIMEOUT. (DESIGN CHOICE, log entry 4) -/
def execLoadTimeout (d : DieId) (s : State) : Host.Outcome State Fault Refusal := runDie d loadTimeout s

/-- MONTH_PERIOD_EXPIRY. -/
def execMonthPeriodExpiry (d : DieId) (slot : BitVec 6) (s : State) : Host.Outcome State Fault Refusal :=
  runDie d (monthExpiry slot.toNat) s

/-- SPOKE_ADMIT. -/
def execSpokeAdmit (d : DieId) (m : SpokeMsg) (s : State) : Host.Outcome State Fault Refusal :=
  runDie d (spokeTake m (spokeAdmitOn m (s.die d.other))) s

/-- SPOKE_TURN. -/
def execSpokeTurn (d : DieId) (m : SpokeMsg) (s : State) : Host.Outcome State Fault Refusal :=
  runDie d (spokeTake m (spokeTurnOn m)) s

end Sys2Proof.Machine
end

