-- ==== Sys2Proof/Machine/Fault.lean ====
section
/-! DEFINITION. The Fault Collector, BLK_ERR from the host's side, FAULT_N, phases and Autumn (R29, R380 to R392, R402 to
R406, R467, R481, R485). -/

namespace Sys2Proof.Machine

/-! ## Phases -/

/-- Enter a phase: the event to host software and the PHASE message to the peer die (R29, R249, R434). -/
def changePhase (p : Phase) (d : Die) : Die :=
  if d.phase = p then d else sendSpoke 4 (phaseCode p) 0 0 0 0 0 [] [] (enterPhase p d)

/-- The firmware default timetable becomes the active one: P = 1, Solo, a SELFTEST per enabled pipeline; no span runs
(R277). (DEDUCED, log entry 208) -/
def firmwareTimetable (d : Die) : Die :=
  updSnt (fun s => { s with runs := [] })
    (updVp (fun v => { v with
        pipes := (if v.current = 0 then v.pipes else formGroups 0 v.pipes).map (fun p => { p with core := { p.core with inSpan := false } })
        current := 0 })
      (updCad (fun c => { c with active := defaultTimetable d.tim.mu (enabledPipes d), running := true, spans := [] }) d))

/-- Spring and Summer follow the admissions and the link; Spring begins with the default timetable (R29, R277). -/
def settlePhase (d : Die) : Die :=
  let any := d.adm.models.any (fun e => e.2.state == .ready)
  let left := d.adm.models.all (fun e => admitting e.2)
  if d.phase == .spring && any && d.wlk.state == .up then changePhase .summer d
  else if d.phase == .summer && (left || d.wlk.state == .retired) then firmwareTimetable (changePhase .spring d)
  else d

/-! ## BLK_ERR from the host's side (R383, R384, R391) -/

/-- Highest junction temperature of the grade: 125 °C for -X (R486). -/
def tjMax (d : Die) : Int := if tst d.key.grade 2 then 125 else 105

/-- An S4 bit of the R383 table that only a completed Autumn ends: it holds from its event to the end of Autumn. -/
def untilAutumn (d : Die) (page bit : Nat) : Bool :=
  !(d.phase == .spring || d.phase == .summer) || d.fcu.pend.any (fun e => e.page == page && e.bit == bit)

/-- The condition of a condition bit holds now; an event bit has none (R383). (DEDUCED, log entry 39) -/
def condHolds (d : Die) (page bit : Nat) : Bool :=
  if page = pFCU then
    match bit with
    | 0 => d.fcu.stalled | 1 => d.fcu.clkLost | 2 => d.fcu.railBad
    | 3 => decide (d.fcu.tj ≥ tjMax d - 5) | 4 => decide (d.fcu.tj ≥ tjMax d + 5) | 5 => d.fcu.parityBad
    | _ => false
  else if page = pTIM then
    match bit with
    | 0 => d.tim.at_ == .holdover | 4 => d.tim.ptp == .frozen | 5 => d.tim.disagree
    | _ => false
  else if page = pWLK then bit == 6 && d.wlk.state == .retired
  else if page = pWRD then bit == 3 && !d.wrd.hbOk
  else if page = pING then bit == 9 && !d.ing.up0
  else if page = pING + 1 then bit == 9 && !d.ing.up1
  else if page = pHST then bit == 0 && !d.hst.linkUp
  else if page = pSPK then bit == 2 && !d.spk.up
  else if page = pWDN then [8, 9, 10, 11, 12].contains bit && d.wdn.conds.contains bit
  else if page = pHBM ∧ bit = 5 then decide (d.mem.tempC > 85)
  else if (page = pSHK ∧ bit = 4) ∨ (page = pSIG ∧ bit = 3) ∨ (page = pCAD ∧ bit = 8) ∨ (page = pHBM ∧ bit = 6)
      ∨ (page = pMEM ∧ bit = 4) then untilAutumn d page bit
  else false

/-- The bits of a mask below 32. -/
def maskBits (v : Nat) : List Nat := (List.range 32).filter (fun b => tst v b)

/-- BLK_ERR_CLEAR: a write of 1 clears an event bit, and a condition bit whose condition is gone; a bit that a force
alone set acts as an event bit (R383, R391). (DEDUCED, log entry 39) -/
def blkErrClear (page v : Nat) (d : Die) : Die :=
  let e := errPage d page
  let ok := (maskBits v).filter (fun b => tst e.err b && (tst e.forced b || !condHolds d page b))
  ok.foldl (fun d b => clearErr page (2 ^ b) d) d

/-- Forcing is accepted: in Thaw and Autumn, and in Spring and Summer in factory test mode (R391). -/
def forceAllowed (d : Die) : Bool :=
  d.phase == .thaw || d.phase == .autumn || ((d.phase == .spring || d.phase == .summer) && d.key.debug == 2)

/-! ## Autumn (R402, R403) -/

/-- Draw the unlock nonce anew (R436). (DEDUCED, log entry 40; DESIGN CHOICE, log entry 182) -/
def newNonce (d : Die) : Die :=
  let n := freeStr 16 d
  drew (updKey (fun k => { k with nonce := n }) d)

/-- Debug is locked or unlocked: the nonce is drawn anew, unlocked is set and EVENT 7 is sent (R436, R437).
(DEDUCED, log entries 40, 181) -/
def setDebug (v : Nat) (d : Die) : Die := sendEvent 7 v (raise pKEY 6 (newNonce (updKey (fun k => { k with debug := v }) d)))

/-- The Warden hears of the safety channels that an Autumn entry retires. (DESIGN CHOICE, log entry 132) -/
def loseWatched (d : Die) : Die :=
  (chansWhere d (fun x => chanLive x && x.host.safety)).foldl (fun d c => tellWarden (.lost c true) d) d

/-- The page of the port that a stream's entry names. -/
def streamPage (d : Die) (s : Nat) : Nat := pING + fieldSel d s pING 0x058 1

/-- A channel forgets a frame that has been lost: one forwarded before it became OPEN moves the number of its first frame, one
since then is bound to it no more. -/
def forgetFrame (s no : Nat) (x : Chan) : Chan :=
  if !(bindsFrames x && x.host.stream == s) then x
  else if no < x.fwdBase then { x with fwdBase := x.fwdBase - 1 }
  else if x.state == .opened then { x with framesBound := w32 (x.framesBound + 4294967295) }
  else x

/-- A frame that WLK lost is handled as a refused one (R330): it is counted, and it takes no place among the frames of
its stream, in the radio store or in a channel. (DEDUCED, log entry 55) -/
def loseFrame (s no : Nat) (d : Die) : Die :=
  let d := raise (streamPage d s) 7 (count (streamPage d s) 0x09C d)
  let lost := mget (mgetD d.ing.streams s {}).digests no
  let d := updChn (fun n => { n with tab := mmap n.tab (forgetFrame s no) }) d
  updIng (fun g => { g with
    radio := g.radio.filter (fun h => !(h.stream == s && !h.canary && lost == some (h.slot, h.digest)))
    streams := mmod g.streams s (fun x => { x with
      fwd := x.fwd - 1
      digests := (x.digests.filter (fun e => e.1 != no)).map (fun e => (if e.1 > no then e.1 - 1 else e.1, e.2)) }) }) d

/-- Lose frames by stream and number, the latest of each stream first. (DEDUCED, log entry 55) -/
def loseFrames (l : List (Nat × Nat)) (d : Die) : Die :=
  (l.eraseDups.mergeSort (fun a b => b.2 ≤ a.2)).foldl (fun d f => loseFrame f.1 f.2 d) d

/-- The link keeps nothing of what it has not delivered downstream: every flit, and every frame of the downstream queue, is counted
as lost (R43, R46, R49, R54). (DEDUCED, log entry 55) -/
def loseDown (d : Die) : Die :=
  let w := d.wlk
  let q := d.ing.queue
  let frames := w.unacked.flatMap (fun f => f.frames) ++ w.dsTx0.filterMap (fun f => f.no.map (fun n => (f.stream, n)))
    ++ q.filterMap (fun f => f.no.map (fun n => (f.stream, n)))
  updIng (fun g => { g with queue := [] })
    (updWlk (fun w => { w with unacked := [], resend := [], dsTx0 := [], dsTx1 := [] })
      (loseFrames frames (countN pWLK 0x090 (w.unacked.length + w.dsTx0.length + q.length) d)))

/-- Every die part that an Autumn entry stops or drops: batches without a verdict, channels retired with end_cause 6,
admissions withdrawn, Months zeroed, the link squelched, sessions closed (steps 3 to 5). (DEDUCED, log entry 38) -/
def autumnDrop (d : Die) : Die :=
  let keep (m : AMap Chan) : AMap Chan := mmap m (fun x =>
    if chanLive x then { x with state := .retired, endCause := 6, pend := none, ledger := [] }
    else { x with ledger := [] })
  let d := loseDown d
  { d with
    chn := { d.chn with tab := keep d.chn.tab, tickets := [], cache := [] }
    adm := { d.adm with models := [], stream := none, peerRefused := [], peerDone := [], awaits := [] }
    wrd := { d.wrd with wait := ⟨[], [], []⟩, chunks := [] }
    wlk := { state := .off, cause := d.wlk.cause, peerId := d.wlk.peerId }
    regs := { d.regs with staged := [], late := [] }
    cad := {}, dbg := {}, spk := { d.spk with early := [], peerPair := none }
    sntb := { d.sntb with runs := [], images := [] }
    ing := { d.ing with radio := [], sentinel := [] }
    rat := { d.rat with tab := mmap d.rat.tab (fun r => { r with owed := false }) }
    pel := { d.pel with chains := [], ports := d.pel.ports.map (fun p => { p with up := false, nbr := none }) }
    vp := { d.vp with
      pipes := formGroups 0 (d.vp.pipes.map (fun p => { p with core := {}, saved := [] }))
      current := 0, pending := false, draining := false
      result := if d.vp.pending then 0 else d.vp.result }
    key := { d.key with
      sessions := [], debug := 0, bulk := [], image := []
      writes := d.key.writes.filter (fun w => match w with | .svn _ _ => true | _ => false) } }

/-- Enter Autumn by a source: the seal period ends with cut_short, the phase changes, steps 3 to 5 are done and step 6
runs; the fourth entry within 3,600 s holds the die (R402, R403). (DEDUCED, log entry 38) -/
def enterAutumn (src : Nat) (d : Die) : Die :=
  let recent := d.fcu.entryNs.filter (fun t => decide (d.tim.ns - t ≤ 3600000000000))
  let d := updSealing (fun s => { s with cutPend := false }) (closePeriod true d)
  let d := updFcu (fun f => { f with
    entries := min 255 (f.entries + 1), lastSrc := src, entryNs := d.tim.ns :: recent, step := 6
    held := f.held || decide (recent.length ≥ 3), hold := f.hold || decide (recent.length ≥ 3)
    asserted := f.asserted || !f.alive }) d
  let d := if d.key.debug = 0 then d else setDebug 0 d
  autumnDrop (loseWatched (changePhase .autumn d))

/-- AUTUMN_TIMEOUT: step 7 was not reached in time (R403). -/
def autumnTimeout (d : Die) : Die :=
  if d.phase == .autumn then updFcu (fun f => { f with held := true, hold := true }) d else d

/-! ## Entry to Spring (R215, R277) -/

/-- Spring: the default timetable, CAD running, sealing from here. -/
def enterSpring (d : Die) : Die :=
  startPeriod (firmwareTimetable (changePhase .spring d))

/-- AUTUMN_REINIT_DONE: steps 6 and 7, or the end in Autumn (R402, R403). -/
def autumnDone (passed : Bool) (d : Die) : Die :=
  if d.phase == .autumn && !d.fcu.held then
    if passed then enterSpring (updFcu (fun f => { f with step := 0 }) d)
    else updFcu (fun f => { f with held := true, hold := true }) d
  else d

/-! ## Latching (R380 to R387) -/

/-- Lowest severity that asserts FAULT_N in pulse form. -/
def pulseMin (d : Die) : Nat := field d pFCU 0x04C 1

/-- Severity of an event. -/
def evSev (e : ErrEvent) : Nat := (sevOf e.page e.bit).getD 0

/-- Rank of R387: higher severity, lower page, lower bit. -/
def evBefore (a b : ErrEvent) : Bool :=
  evSev a > evSev b || (evSev a == evSev b && (a.page < b.page || (a.page == b.page && a.bit ≤ b.bit)))

/-- A force alone set the bit that an event brought: no real cause has joined it since (R391, R392). -/
def byForce (d : Die) (e : ErrEvent) : Bool := e.forced && tst (errPage d e.page).forced e.bit

/-- A capture of an event now. -/
def captureOf (d : Die) (e : ErrEvent) (same : Bool) : Capture :=
  { valid := true, source := e.page, bit := e.bit, sev := evSev e
    forced := byForce d e, same := same, slot := slotCount d, cyc := w32 (fcuCycle d) }

/-- Latch one event: its source bit and severity, its count, FAULT_N, host event 2 (R381, R385, R388, R389).
(DEDUCED, log entry 37) -/
def latchOne (d : Die) (e : ErrEvent) : Die :=
  let sv := evSev e
  let d := updFcu (fun f => { f with
    src := f.src ||| 2 ^ e.page, sev := mset f.sev e.page (max sv (mgetD f.sev e.page 0)) }) d
  let d := count pFCU (0x078 + 4 * sv) d
  let pulse := decide (sv ≥ pulseMin d) || sv == 4
  let d := updFcu (fun f =>
    if f.alive then (if sv ≥ 3 then { f with stopped := true, acked := false } else f)
    else if pulse then { f with asserted := true, minRun := true, acked := false } else f) d
  let d := if sv ≥ 2 then sendEvent 2 (e.page * 256 + e.bit) d else d
  if sv = 4 then tellWarden .s4 d else d

/-- Captures of the events of one FCU cycle, in rank order (R387). (DEDUCED, log entry 37) -/
def captureAll (d : Die) : List ErrEvent → Bool → Die
  | [], _ => d
  | e :: r, firstHere =>
    if !d.fcu.first.valid then captureAll (updFcu (fun f => { f with first := captureOf d e false }) d) r true
    else if !d.fcu.second.valid then
      captureAll (updFcu (fun f => { f with second := captureOf d e firstHere }) d) r firstHere
    else captureAll (count pFCU 0x08C d) r firstHere

/-- Reaction of the die to the S4 events of one cycle (R29, R391, R402, R403). (DEDUCED, log entry 34) -/
def s4React (evs : List ErrEvent) (d : Die) : Die :=
  match evs.filter (fun e => evSev e == 4) with
  | [] => d
  | e :: _ =>
    match d.phase with
    | .spring => enterAutumn e.page d
    | .summer => enterAutumn e.page d
    | .autumn => if d.fcu.step ≠ 0 then autumnDrop d else d
    | .thaw => if evs.any (fun e => evSev e == 4 && !byForce d e) then updFcu (fun f => { f with hold := true, held := true }) d else d
    | .frost => d

/-- FCU_SOURCE_LATCH: FCU samples the error pins (R381). Masked bits stay on their page only (R382).
(DESIGN CHOICE, log entries 8, 186) -/
def fcuLatch (d : Die) : Die :=
  let evs := (d.fcu.pend.filter (fun e => !tst (errPage d e.page).mask e.bit)).mergeSort evBefore
  let d := updFcu (fun f => { f with pend := [] }) d
  let d := captureAll d evs false
  s4React evs (evs.foldl latchOne d)

/-! ## Clearing and acknowledging (R384, R388, R389) -/

/-- Any unmasked BLK_ERR bit of a page is set: its error pin. -/
def errPin (d : Die) (page : Nat) : Bool :=
  let e := errPage d page
  (e.err &&& (0xFFFFFFFF ^^^ e.mask)) != 0

/-- FCU_SRC_CLEAR: a source clears if its page's pin is low (R384). -/
def srcClear (hi : Bool) (v : Nat) (d : Die) : Die :=
  (maskBits v).foldl (fun d b =>
    let page := b + 32 * b2n hi
    if tst d.fcu.src page && !errPin d page then
      updFcu (fun f => { f with src := f.src - 2 ^ page, sev := mdel f.sev page }) d
    else d) d

/-- Some source was latched at a severity or above. -/
def latchedAt (d : Die) (sv : Nat) : Bool := d.fcu.sev.any (fun e => decide (e.2 ≥ sv))

/-- Severity of a source: the highest among its set, unmasked bits (R381); that at which it was latched, once none is left.
(DEDUCED, log entry 37) -/
def srcSev (d : Die) (page latched : Nat) : Nat :=
  let e := errPage d page
  match ((sevRow page).zipIdx).filter (fun q => tst e.err q.2 && !tst e.mask q.2) with
  | [] => latched
  | qs => (qs.map (fun q => q.1)).foldl max 0

/-- Some set bit of FCU_SRC is of a severity or above. -/
def sourceAt (d : Die) (sv : Nat) : Bool := d.fcu.sev.any (fun e => decide (srcSev d e.1 e.2 ≥ sv))

/-- BLK_ERR_MASK: a set bit that is unmasked asserts its page's pin, and FCU latches it as an event of its own (R381, R382).
(DEDUCED, log entry 37) -/
def writeMask (page v : Nat) (d : Die) : Die :=
  let e := errPage d page
  let shown := (maskBits (e.err &&& e.mask)).filter (fun b => !tst (v &&& maskable page) b
    && !d.fcu.pend.any (fun q => q.page == page && q.bit == b))
  updFcu (fun f => { f with pend := f.pend ++ shown.map (fun b => { page := page, bit := b, forced := tst e.forced b }) })
    (setErrPage page { e with mask := v &&& maskable page } d)

/-- A change of FCU_CFG.form takes effect while FAULT_N is released (R390). -/
def applyForm (d : Die) : Die :=
  let want := field d pFCU 0x04C 0 == 1
  if want = d.fcu.alive then d
  else if (if d.fcu.alive then d.fcu.stopped else d.fcu.asserted) then d
  else updFcu (fun f => { f with alive := want, asserted := false, stopped := want && latchedAt d 3, acked := false, minRun := false }) d

/-- FAULT_N in pulse form is released once acknowledged and past its minimum low time (R388). -/
def releasePin (d : Die) : Die :=
  if !d.fcu.alive && d.fcu.acked && !d.fcu.minRun then
    applyForm (updFcu (fun f => { f with asserted := false, acked := false }) d)
  else d

/-- FCU_ACK (R388, R389). -/
def fcuAck (v : Nat) (d : Die) : Die :=
  if tst v 0 then
    if d.fcu.alive then
      if latchedAt d 3 then d else applyForm (updFcu (fun f => { f with stopped := false }) d)
    else if sourceAt d (pulseMin d) then d
    else releasePin (updFcu (fun f => { f with acked := f.asserted }) d)
  else d

/-- FAULT_N_MIN_PULSE_EXPIRY: the 20 µs of low time have passed. -/
def minPulseExpiry (d : Die) : Die := releasePin (updFcu (fun f => { f with minRun := false }) d)

/-- FAULT_N_HALF_PERIOD: the alive form toggles, or goes low (R389). -/
def halfPeriod (d : Die) : Die :=
  if d.fcu.alive then
    let run := (d.phase == .spring || d.phase == .summer) && !d.fcu.stopped
    updFcu (fun f => { f with asserted := if run then !f.asserted else true }) d
  else d

/-- The level of the FAULT_N pin: low when asserted or held. -/
def faultLow (d : Die) : Bool := d.fcu.asserted || d.fcu.hold || d.fcu.sysHold

/-! ## Conditions of FCU's own page (R405, R481, R485) -/

/-- A condition of FCU's page begins. (DEDUCED, log entry 39) -/
def fcuCond (bit : Nat) (d : Die) : Die := raise pFCU bit d

/-- FABRIC_STALL: no heartbeat for 1 ms. -/
def fabricStall (d : Die) : Die := if d.phase == .frost then d else fcuCond 0 (updFcu (fun f => { f with stalled := true }) d)

/-- CONTROL_FABRIC_HEARTBEAT ends a stall. -/
def fabricBeat (d : Die) : Die := updFcu (fun f => { f with stalled := false }) d

/-- JUNCTION_TEMP_CROSSING: the junction reaches a temperature in °C (R405, R475). -/
def junction (t : Int) (d : Die) : Die :=
  let warm (x : Int) (lim : Int) : Bool := decide (x ≥ lim)
  let was := d.fcu.tj
  let d := updFcu (fun f => { f with tj := t, tjPeak := max t f.tjPeak }) d
  let d := if warm t (tjMax d - 5) && !warm was (tjMax d - 5) then fcuCond 3 d else d
  if warm t (tjMax d + 5) && !warm was (tjMax d + 5) then fcuCond 4 d else d

/-- HBM_TEMP_CROSSING on a die: the stack's temperature, with temp_high above 85 °C (R408). -/
def hbmTemp (t : Nat) (d : Die) : Die :=
  let was := d.mem.tempC
  let d := updMem (fun m => { m with tempC := t }) d
  if t > 85 ∧ was ≤ 85 then raise pHBM 5 d else d

/-! ## The commands -/

/-- FCU_SOURCE_LATCH. (DESIGN CHOICE, log entry 8) -/
def execFcuSourceLatch (d : DieId) (s : State) : Host.Outcome State Fault Refusal := runDie d fcuLatch s

/-- AUTUMN_TIMEOUT. -/
def execAutumnTimeout (d : DieId) (s : State) : Host.Outcome State Fault Refusal := runDie d autumnTimeout s

/-- FCU_SRC_CLEAR. -/
def execFcuSrcClear (d : DieId) (hi : Bool) (value : Word) (s : State) : Host.Outcome State Fault Refusal :=
  runDie d (srcClear hi value.toNat) s

/-- FCU_ACK. -/
def execFcuAck (d : DieId) (value : Word) (s : State) : Host.Outcome State Fault Refusal := runDie d (fcuAck value.toNat) s

/-- FAULT_N_MIN_PULSE_EXPIRY. -/
def execFaultNMinPulseExpiry (d : DieId) (s : State) : Host.Outcome State Fault Refusal := runDie d minPulseExpiry s

/-- FAULT_N_HALF_PERIOD. (DESIGN CHOICE, log entry 5) -/
def execFaultNHalfPeriod (d : DieId) (s : State) : Host.Outcome State Fault Refusal := runDie d halfPeriod s

/-- FABRIC_STALL. -/
def execFabricStall (d : DieId) (s : State) : Host.Outcome State Fault Refusal := runDie d fabricStall s

/-- CONTROL_FABRIC_HEARTBEAT. -/
def execControlFabricHeartbeat (d : DieId) (s : State) : Host.Outcome State Fault Refusal := runDie d fabricBeat s

/-- BLK_ERR_CLEAR. -/
def execBlkErrClear (d : DieId) (page : BitVec 6) (value : Word) (s : State) : Host.Outcome State Fault Refusal :=
  runDie d (blkErrClear page.toNat value.toNat) s

/-- JUNCTION_TEMP_CROSSING. -/
def execJunctionTempCrossing (d : DieId) (tj : BitVec 9) (s : State) : Host.Outcome State Fault Refusal :=
  runDie d (junction tj.toInt) s

/-- HBM_TEMP_CROSSING: both dies share the stack. -/
def execHbmTempCrossing (temp : Byte) (s : State) : Host.Outcome State Fault Refusal :=
  .next (onDie .b (hbmTemp temp.toNat) (onDie .a (hbmTemp temp.toNat) s))

end Sys2Proof.Machine
end

