-- ==== Sys2Proof/Machine/Link.lean ====
section
/-! DEFINITION. The Fjartar link: flits, credits, go-back-N replay, the HELLO exchange, training, degrade and retirement,
and downstream ratchet bumps (R34 to R54, R77, R87, R297). -/

namespace Sys2Proof.Machine

/-! ## Flits -/

/-- The 528 bytes of a flit (R34, R35): fields, CRC-32C over header bytes 0 to 11 and the payload, payload. -/
def flitBytes (ftype vc fseq ackField units crdVc crdCount : Nat) (payload : Bytes) : Bytes :=
  let h := [BitVec.ofNat 8 ftype, BitVec.ofNat 8 vc] ++ leBytes 2 fseq ++ leBytes 2 ackField
    ++ [BitVec.ofNat 8 units, BitVec.ofNat 8 crdVc] ++ leBytes 2 crdCount ++ zeros 2
  let p := fitTo 512 payload
  h ++ leBytes 4 (crc32c (h ++ p)) ++ p

/-- Fields of a received flit. -/
def flType (b : Bytes) : Nat := byteAt b 0
def flVc (b : Bytes) : Nat := byteAt b 1 % 4
def flSeq (b : Bytes) : Nat := u16At b 2 % 4096
def flAck (b : Bytes) : Nat := u16At b 4 % 4096
def flNak (b : Bytes) : Bool := tst (u16At b 4) 12
def flUnits (b : Bytes) : Nat := byteAt b 6
def flPayload (b : Bytes) : Bytes := b.drop 16

/-- The crc field is right. -/
def flCrcOk (b : Bytes) : Bool := b.length == 528 && u32At b 12 == crc32c (b.take 12 ++ flPayload b)

/-- Reserved types, values, bits and padding are zero (R34, R35); so are the fields of an IDLE or HELLO flit that only DATA
uses. (DEDUCED, log entry 48; DESIGN CHOICE, log entry 193) -/
def flReservedOk (b : Bytes) : Bool :=
  let vc := byteAt b 1
  decide (vc < 4) && decide (u16At b 2 < 4096) && decide (u16At b 4 < 8192) && decide (byteAt b 7 < 4)
    && decide (u16At b 8 < 4096) && u16At b 10 == 0 &&
    match flType b with
    | 1 => decide (vc < 3) && decide (flUnits b ≤ 32) && allZero (b.drop (16 + 16 * flUnits b))
    | 2 => vc == 0 && flSeq b == 0 && flUnits b == 0 && allZero (flPayload b)
    | 3 => vc == 0 && flSeq b == 0 && flUnits b == 0
    | _ => false

/-- ack and nak of the device's headers (R34, R44): the fseq before the next expected one.
(DESIGN CHOICE, log entry 53) -/
def ackField (w : Wlk) : Nat := (w.rxNext + 4095) % 4096 + 4096 * b2n w.nak

/-- The upstream VC whose credit counter the next header carries (R40): a changed counter first, else the rotation. -/
def crdChoice (w : Wlk) : Nat :=
  let order := [w.crdNext % 3, (w.crdNext + 1) % 3, (w.crdNext + 2) % 3]
  (order.find? (fun v => v3get w.upFreed v != v3get w.crdSent v)).getD (w.crdNext % 3)

/-- Send one flit on a half, with the current ack and one credit counter. -/
def sendFlit (half ftype vc fseq units : Nat) (payload : Bytes) (d : Die) : Die :=
  let w := d.wlk
  let v := crdChoice w
  let b := flitBytes ftype vc fseq (ackField w) units v (v3get w.upFreed v % 4096) payload
  emit (.flit half b) (updWlk (fun w => { w with crdNext := v + 1, crdSent := v3set w.crdSent v (v3get w.upFreed v) }) d)

/-! ## Receive buffers (R39, R40) -/

/-- Upstream credits that WLK_CREDIT_GRANT sets for a VC: VC 0 is reduced so that the sum is at most 512.
(DEDUCED, log entry 47) -/
def grantCfg (d : Die) (vc : Nat) : Nat :=
  let g1 := field d pWLK 0x05C 10
  let g2 := field d pWLK 0x05C 20
  if vc = 0 then min (field d pWLK 0x05C 0) (512 - g1 - g2) else if vc = 1 then g1 else g2

/-- Take n bytes out of held buffers: the buffers left, and how many are empty and so released. -/
def takeHeld : Nat → List Nat → List Nat × Nat
  | _, [] => ([], 0)
  | n, h :: t => if h ≤ n then ((takeHeld (n - h) t).1, (takeHeld (n - h) t).2 + 1) else ((h - n) :: t, 0)

/-- WRD has moved n bytes of a VC on: the buffers that it had not released before are released (R40).
(DESIGN CHOICE, log entry 56) -/
def consume (vc n : Nat) : Die → Die := updWlk (fun w =>
  let r := takeHeld (n - v3get w.moved vc) (v3get w.held vc)
  { w with
    rx := v3set w.rx vc ((v3get w.rx vc).drop n), held := v3set w.held vc r.1, moved := v3set w.moved vc (v3get w.moved vc - n)
    upFreed := v3set w.upFreed vc (v3get w.upFreed vc + r.2) })

/-- Staging takes all that stands on a VC of a record that is not whole: its buffers are released (R40).
(DESIGN CHOICE, log entry 56) -/
def consumePart (vc : Nat) : Die → Die := updWlk (fun w => { w with
  held := v3set w.held vc [], moved := v3set w.moved vc (v3get w.rx vc).length
  upFreed := v3set w.upFreed vc (v3get w.upFreed vc + (v3get w.held vc).length) })

/-- Bytes of the whole records at the front of a stream, or of all of it where a unit that is no header stands among them; at most
`fuel` records. -/
def wholeBytes (vc : Nat) : Nat → Bytes → Nat
  | 0, u => u.length
  | k + 1, u =>
    if u.length < 16 then 0
    else if !unitIsHeader vc (u.take 16) then u.length
    else if u.length < 16 * u16At u 2 then 0
    else 16 * u16At u 2 + wholeBytes vc k (u.drop (16 * u16At u 2))

/-- Discard the bytes of a stream behind a number of them, and release their buffers. -/
def dropTail (vc keep : Nat) : Die → Die := updWlk (fun w =>
  let u := v3get w.rx vc
  let r := takeHeld (u.length - max keep (v3get w.moved vc)) (v3get w.held vc).reverse
  { w with
    rx := v3set w.rx vc (u.take keep), held := v3set w.held vc r.1.reverse, moved := v3set w.moved vc (min keep (v3get w.moved vc))
    upFreed := v3set w.upFreed vc (v3get w.upFreed vc + r.2) })

/-- Discard what has been accepted of an unfinished record on every VC: whole records that wait stay (R49). -/
def dropPartial (d : Die) : Die :=
  [0, 1, 2].foldl (fun d v =>
    let u := v3get d.wlk.rx v
    dropTail v (if v3get d.wrd.hunt v then 0 else wholeBytes v u.length u) d) d

/-! ## States (R47, R49, R52) -/

/-- The link may leave OFF or RETIRED: Spring or Summer with BLK_CTRL.enable set. -/
def linkAllowed (d : Die) : Bool :=
  (d.phase == .spring || d.phase == .summer) && d.regs.enabled.contains pWLK

/-- ADAPT, fresh: halves as configured, an excluded one too; replay buffer, sequences, credits, received records, hunt bits and
the VC 2 count begin anew. (DEDUCED, log entry 191) -/
def linkFresh (d : Die) : Die :=
  let d := loseDown d
  let d := updWlk (fun w => { state := .adapt, halves := field d pWLK 0x040 0, cause := w.cause, retrains := w.retrains
                              leftAt := d.tim.up, peerId := w.peerId }) d
  updWrd (fun w => { w with hunt := ⟨false, false, false⟩, vc2Next := 0, wait := ⟨[], [], []⟩ }) d

/-- WLK_CMD.restore, and BLK_CTRL.enable newly set in OFF. -/
def linkRestore (d : Die) : Die :=
  if (d.wlk.state == .off || d.wlk.state == .retired) && linkAllowed d then linkFresh d else d

/-- Enter RETIRED (R52): open batches LATE 18, channels end_cause 6, admissions end, Spring.
(DEDUCED, log entry 54) -/
def linkRetire (cause : Nat) (d : Die) : Die :=
  if d.wlk.state == .off || d.wlk.state == .retired then d
  else
    let d := loseDown (updWlk (fun w => { w with state := .retired, halves := 0, cause := cause, leftAt := d.tim.up }) d)
    let d := if cause = 5 then d else raise pWLK 6 d
    let d := retireWhere (fun x => x.host.kind != 3) 6 3 18 d
    let d := (d.adm.models.map (fun e => e.1)).foldl (fun d slot =>
      match model d slot with
      | some m => if admitting m then endAdmission slot 14 true d else finishAbandoned slot d
      | none => d) d
    settlePhase ((d.adm.models.map (fun e => e.1)).foldl (fun d slot => freeSlot slot d) d)

/-- Take halves out of the link; none left retires it (R47, R50). -/
def excludeHalves (mask : Nat) (d : Die) : Die :=
  let gone := d.wlk.halves &&& mask
  if gone = 0 then d
  else
    let left := d.wlk.halves - gone
    let d := raise pWLK 5 (updWlk (fun w => { w with halves := left, excluded := w.excluded ||| gone }) d)
    if left = 0 then linkRetire 3 d else d

/-- A retrain begins, excluding halves if asked; the fifth within 1 s retires the link (R47).
(DEDUCED, log entry 51) -/
def linkRetrain (exclude : Nat) (d : Die) : Die :=
  if d.wlk.state == .up then
    let recent := d.wlk.retrains.filter (fun t => within d 1000 t)
    let d := raise pWLK 1 (count pWLK 0x084 d)
    let d := updWlk (fun w => { w with retrains := (d.tim.up :: recent).take 5 }) d
    let d := excludeHalves exclude d
    if d.wlk.state == .retired then d
    else if recent.length ≥ 4 then linkRetire 2 d
    else updWlk (fun w => { w with state := .adapt, leftAt := d.tim.up, badRun := 0, resend := [] }) d
  else d

/-- Half n has more uncorrectable codewords than the threshold: a retrain without it; both halves in one cycle retire the link
(R47, R50). -/
def fecOver (half : Nat) (d : Die) : Die :=
  if d.wlk.state == .adapt && d.wlk.wasUp && d.wlk.leftAt == d.tim.up then excludeHalves (2 ^ half) d
  else linkRetrain (2 ^ half) d

/-- Enter HELLO: credits are granted again as the free buffer space at this moment (R49); a replay that is asked for stays
asked for (R44). -/
def enterHello (d : Die) : Die :=
  let g (v : Nat) : Nat := grantCfg d v - (v3get d.wlk.held v).length
  updWlk (fun w => { w with
    state := .hello, peerOk := false, helloSent := false, ownAcked := false, peerLast := none, resend := []
    upGrant := ⟨g 0, g 1, g 2⟩, upTaken := ⟨0, 0, 0⟩, upFreed := ⟨0, 0, 0⟩, crdSent := ⟨0, 0, 0⟩ }) d

/-- A re-sync begins (R47, R50: one that already runs is not restarted). -/
def linkResync (d : Die) : Die :=
  if d.wlk.state == .up then
    enterHello (raise pWLK 2 (count pWLK 0x084 (updWlk (fun w => { w with leftAt := d.tim.up }) d)))
  else d

/-! ## Forced errors (R391, R392) -/

/-- The block's own reaction to a forced bit: the Warden acts as R376 states, a forced credit violation or replay-buffer
error starts the re-sync of R46, and a forced spoke_down leaves the die alone as R249 and R250 state. The reactions of the other blocks name a unit, a channel, a batch or a word, which no
force does. (DEDUCED, log entry 190) -/
def forcedReaction (page : Nat) (d : Die) (bit : Nat) : Die :=
  if page = pWDN then tellWarden (.forced bit) d
  else if page = pWLK ∧ (bit = 3 ∨ bit = 4) then linkResync d
  else if page = pSPK ∧ bit = 2 then spokeDown d
  else d

/-- BLK_ERR_FORCE: set the bits with the reaction of a real fault, and note the echo (R391, R392). -/
def blkErrForce (page v : Nat) (d : Die) : Die :=
  if forceAllowed d && decide (v &&& errBits page ≠ 0) && !pageAbsent d page then
    let d := raiseAll page (maskBits (v &&& errBits page)) true (updFcu (fun f => { f with echo := f.echo ||| 2 ^ page }) d)
    (maskBits (v &&& errBits page)).foldl (forcedReaction page) d
  else d

/-- BLK_ERR_FORCE. -/
def execBlkErrForce (d : DieId) (page : BitVec 6) (value : Word) (s : State) : Host.Outcome State Fault Refusal :=
  runDie d (blkErrForce page.toNat value.toNat) s

/-! ## Entering UP (R49) -/

/-- Position of an ack relative to a fseq: the ack covers it. -/
def acked (ack fseq : Nat) : Bool := decide ((ack + 4096 - fseq) % 4096 < 2048)

/-- Every device-owned or host-owned ratchet of nonzero value owes a downstream bump at an entry into UP (R297). -/
def oweBumps : Die → Die :=
  fun d => updRat (fun t => { t with tab := t.tab.map (fun e =>
    (e.1, { e.2 with owed := e.2.owed || ((ownerOf d e.1 == 1 || ownerOf d e.1 == 3) && decide (0 < e.2.value)) })) }) d

/-- HELLO is complete: UP, with replay after the peer's last_rx unless the device announced a fresh sequence. -/
def linkUp (d : Die) : Die :=
  if d.wlk.peerOk && d.wlk.ownAcked then
    let d := updWlk (fun w =>
      let un := match w.peerLast with
        | some a => w.unacked.filter (fun f => !acked a f.fseq)
        | none => w.unacked
      let n (v : Nat) : Nat := (un.filter (fun f => f.vc == v)).length
      { w with
        state := .up, wasUp := true, freshTx := false, unacked := un, resend := un, dsUsed := ⟨n 0, n 1, 0⟩
        dsRet := ⟨0, 0, 0⟩, badRun := 0 }) d
    settlePhase (oweBumps d)
  else d

/-! ## Lost downstream flits (R43, R46) -/

/-- The replay buffer cannot replay: a fresh sequence, and every unacknowledged flit is lost (R46).
(DEDUCED, log entry 55) -/
def replayLost (d : Die) : Die :=
  let w := d.wlk
  let part := (w.dsTx0.filter (fun f => f.begun)).filterMap (fun f => f.no.map (fun n => (f.stream, n)))
  let d := countN pWLK 0x090 w.unacked.length (raise pWLK 4 d)
  let d := loseFrames (w.unacked.flatMap (fun f => f.frames) ++ part) d
  linkResync (updWlk (fun w => { w with
    freshTx := true, txSeq := 0, unacked := [], resend := [], dsTx0 := w.dsTx0.filter (fun f => !f.begun)
    dsTx1 := w.dsTx1.drop (w.dsTx1.length % 32) }) d)

/-! ## Receiving -/

/-- Apply an accepted header's ack, credit and nak, the nak after the credit (R44, R45). -/
def applyHeader (b : Bytes) : Die → Die := updWlk (fun w =>
  let v := byteAt b 7
  let un := w.unacked.filter (fun f => !acked (flAck b) f.fseq)
  let ret := v3get w.dsRet v + (u16At b 8 + 4096 - v3get w.dsRet v % 4096) % 4096
  { w with
    unacked := un, resend := if flNak b then un else w.resend.filter (fun f => un.contains f)
    dsRet := if v < 2 then v3set w.dsRet v ret else w.dsRet })

/-- An accepted DATA flit: in sequence with a credit it is kept; a repeated one is dropped; else replay is requested
(R39, R44, R46). -/
def takeData (b : Bytes) (d : Die) : Die :=
  let w := d.wlk
  let v := flVc b
  if flSeq b = w.rxNext then
    if v3get w.upGrant v + v3get w.upFreed v ≤ v3get w.upTaken v then
      linkResync (raise pWLK 3 (updWlk (fun w => { w with nak := true }) d))
    else
      let n := 16 * flUnits b
      consume v 0 (updWlk (fun w => { w with
        rxNext := (w.rxNext + 1) % 4096, rxAny := true, nak := false
        upTaken := v3set w.upTaken v (v3get w.upTaken v + 1)
        held := v3set w.held v (v3get w.held v ++ [n]), rx := v3set w.rx v (v3get w.rx v ++ (flPayload b).take n) }) d)
  else if w.rxAny && acked ((w.rxNext + 4095) % 4096) (flSeq b) then d
  else updWlk (fun w => { w with nak := true }) d

/-- Fields of a HELLO payload (R48). -/
def heVersion (p : Bytes) : Nat := u16At p 0
def heMask (p : Bytes) : Nat := byteAt p 4
def heFresh (p : Bytes) : Bool := tst (byteAt p 5) 1
def heGrant (p : Bytes) (v : Nat) : Nat := u16At p (10 + 2 * v)

/-- The HELLO fails on version, role or halves (R48). -/
def helloMismatch (w : Wlk) (p : Bytes) : Bool :=
  heVersion p != 0x0100 || byteAt p 2 != 2 || (heMask p &&& w.halves) == 0

/-- Its grants satisfy R39. -/
def helloFieldsOk (p : Bytes) : Bool := decide (64 ≤ heGrant p 0) && decide (8 ≤ heGrant p 1)

/-- The accelerator announces a fresh sequence: partly received records are discarded, and every open
batch ends LATE 17 (R49). (DEDUCED, log entry 52) -/
def peerFresh (d : Die) : Die :=
  let d := dropPartial (updWlk (fun w => { w with rxNext := 0, rxAny := false, nak := false }) d)
  ((d.chn.tickets.filter (fun b => (chan d b.channel).host.kind != 3)).map (fun b => b.serial)).foldl
    (endTicket 3 17) d

/-- A peer HELLO in state HELLO (R48). (DEDUCED, log entries 46, 47) -/
def takeHello (p : Bytes) (d : Die) : Die :=
  if helloMismatch d.wlk p then updWlk (fun w => { w with helloBad := true }) d
  else if !helloFieldsOk p then updWlk (fun w => { w with helloBad := false }) d
  else
    let news := heFresh p && (d.wlk.rxAny || !d.wlk.peerOk) && d.wlk.wasUp
    let d := excludeHalves (3 - heMask p % 4) d
    if d.wlk.state == .hello then
      let d := if news then peerFresh d else d
      updWlk (fun w => { w with
        helloBad := false, peerOk := true, peerDepth := u16At p 6, dsGrant := ⟨heGrant p 0, heGrant p 1, 0⟩
        dsUsed := ⟨0, 0, 0⟩, dsRet := ⟨0, 0, 0⟩, peerId := slice p 16 32
        peerLast := if tst (byteAt p 5) 0 then some (u16At p 8 % 4096) else none }) d
    else d

/-- The codewords of a flit are counted, while the lanes are not squelched (R54). -/
def fecCounted (f : Flit) (d : Die) : Die :=
  if d.wlk.state == .off || d.wlk.state == .retired then d
  else countN pWLK 0x08C f.fecBad.toNat (countN pWLK 0x088 f.fecCorr.toNat d)

/-- A flit arrives (R36): count its codewords, discard it or use it. Of a HELLO that arrives in UP the header alone is used.
(DEDUCED, log entries 46, 48, 49; DESIGN CHOICE, log entries 186, 192) -/
def rxFlit (f : Flit) (d : Die) : Die :=
  let d := fecCounted f d
  if d.wlk.state == .hello || d.wlk.state == .up then
    let b := f.bytes
    let crcOk := flCrcOk b
    let d := updWlk (fun w => { w with badRun := if crcOk then 0 else w.badRun + 1 }) d
    if !(crcOk && f.fecOk && flReservedOk b) then
      let maybe := !(crcOk && f.fecOk) || flType b == 1
      let d := raise pWLK 0 (count pWLK 0x080 (updWlk (fun w => { w with nak := w.nak || maybe }) d))
      if d.wlk.badRun ≥ 4 then linkRetrain 0 d else d
    else
      let d := if d.wlk.state == .hello then
          let d := if flType b = 3 then takeHello (flPayload b) d else d
          if d.wlk.state == .hello then linkUp (updWlk (fun w => { w with ownAcked := w.helloSent }) d) else d
        else applyHeader b d
      if flType b = 1 then (if d.wlk.state == .up then takeData b d else updWlk (fun w => { w with nak := true }) d) else d
  else d

/-! ## Sending -/

/-- Downstream credits left on a VC. -/
def dsCredit (w : Wlk) (v : Nat) : Nat := v3get w.dsGrant v + v3get w.dsRet v - v3get w.dsUsed v

/-- Up to n bytes from the frames of VC 0: the bytes, the frames they belong to, and what is left. -/
def takeFrames : Nat → List DsFrame → Bytes × List (Nat × Nat) × List DsFrame
  | _, [] => ([], [], [])
  | n, f :: t =>
    let who := match f.no with
      | some k => [(f.stream, k)]
      | none => []
    if n = 0 then ([], [], f :: t)
    else if f.left.length ≤ n then
      let r := takeFrames (n - f.left.length) t
      (f.left ++ r.1, who ++ r.2.1, r.2.2)
    else (f.left.take n, who, { f with left := f.left.drop n, begun := true } :: t)

/-- Send a new DATA flit and keep it for replay. -/
def sendNew (half vc : Nat) (payload : Bytes) (frames : List (Nat × Nat)) (d : Die) : Die :=
  let seq := d.wlk.txSeq
  let units := payload.length / 16
  sendFlit half 1 vc seq units payload (updWlk (fun w => { w with
    txSeq := (seq + 1) % 4096, dsUsed := v3set w.dsUsed vc (v3get w.dsUsed vc + 1)
    unacked := w.unacked ++ [{ fseq := seq, vc := vc, units := units, payload := payload, frames := frames }] }) d)

/-- FLIT_SLOT_TX: one slot of a half (R34, R38, R44, R46, R51). -/
def flitSlot (half : Nat) (replayEcc : Bool) (d : Die) : Die :=
  let w := d.wlk
  if !tst w.halves half then d
  else if w.state == .flitHunt || w.state == .hello then sendFlit half 2 0 0 0 [] d
  else if w.state == .up then
    match w.resend with
    | f :: r =>
      if replayEcc then replayLost d
      else sendFlit half 1 f.vc f.fseq f.units f.payload (updWlk (fun w => { w with resend := r }) d)
    | [] =>
      if w.unacked.length ≥ min 1024 w.peerDepth then sendFlit half 2 0 0 0 [] d
      else if !w.dsTx1.isEmpty && decide (0 < dsCredit w 1) then
        sendNew half 1 (w.dsTx1.take 512) [] (updWlk (fun w => { w with dsTx1 := w.dsTx1.drop 512 }) d)
      else if !w.dsTx0.isEmpty && decide (0 < dsCredit w 0) then
        let r := takeFrames 512 w.dsTx0
        sendNew half 0 r.1 r.2.1 (updWlk (fun w => { w with dsTx0 := r.2.2 }) d)
      else sendFlit half 2 0 0 0 [] d
  else d

/-- HELLO_TX: a HELLO flit on the lowest half in use (R47, R48). (DEDUCED, log entries 46, 47) -/
def helloTx (d : Die) : Die :=
  if d.wlk.state == .hello then
    let w := d.wlk
    let p := leBytes 2 0x0100 ++ [1, BitVec.ofNat 8 d.which.num, BitVec.ofNat 8 w.halves
        , BitVec.ofNat 8 (b2n w.rxAny + 2 * b2n w.freshTx)] ++ leBytes 2 1024
      ++ leBytes 2 (if w.rxAny then (w.rxNext + 4095) % 4096 else 0)
      ++ leBytes 2 w.upGrant.v0 ++ leBytes 2 w.upGrant.v1 ++ leBytes 2 w.upGrant.v2 ++ fitTo 32 d.key.device
    sendFlit (if tst w.halves 0 then 0 else 1) 3 0 0 0 p (updWlk (fun w => { w with helloSent := true }) d)
  else d

/-- RATCHET_BUMP_DOWNSTREAM: the owed bump of a ratchet goes out on VC 1 (R77, R87, R297). -/
def bumpDown (r : Nat) (d : Die) : Die :=
  let x := ratchet d r
  if x.owed && d.wlk.state == .up && decide (0 < dsCredit d.wlk 1) then
    let h := [BitVec.ofNat 8 12, 0] ++ leBytes 2 2 ++ leBytes 2 0 ++ leBytes 4 d.wlk.dsSeq ++ leBytes 4 0
    let rec_ := h ++ leBytes 2 (crc16 h) ++ leBytes 2 r ++ zeros 6 ++ leBytes 8 x.value
    setRatchet r { x with owed := false } <| count (ratPage r) 0x054
      (updWlk (fun w => { w with dsTx1 := w.dsTx1 ++ rec_, dsSeq := w32 (w.dsSeq + 1) }) d)
  else d

/-! ## Training events -/

/-- LANES_LOCKED: every enabled half has locked. -/
def lanesLocked (d : Die) : Die :=
  if d.wlk.state == .adapt then updWlk (fun w => { w with state := .flitHunt }) d else d

/-- ADAPT_TIMEOUT: 5 ms have passed with the given halves locked. -/
def adaptTimeout (locked : Nat) (d : Die) : Die :=
  if d.wlk.state == .adapt && (locked &&& d.wlk.halves) != 0 then
    let d := excludeHalves (3 - locked) d
    if d.wlk.state == .adapt then updWlk (fun w => { w with state := .flitHunt }) d else d
  else d

/-- FLIT_LOCK: three flits with a right crc. -/
def flitLock (d : Die) : Die := if d.wlk.state == .flitHunt then enterHello d else d

/-- 1 ms in FLIT_HUNT or HELLO: ADAPT again. -/
def backToAdapt (st : LinkState) (d : Die) : Die :=
  if d.wlk.state == st then updWlk (fun w => { w with state := .adapt }) d else d

/-- RETRAIN_LIMIT_EXPIRY: more than limit_ms has passed since the link last left UP, OFF or RETIRED; cause 4 where the last
HELLO exchange failed on version, role or halves (R47, R48). -/
def retrainLimit (d : Die) : Die :=
  if (d.wlk.state == .adapt || d.wlk.state == .flitHunt || d.wlk.state == .hello)
      && !within d (field d pWLK 0x050 0) d.wlk.leftAt then
    linkRetire (if d.wlk.helloBad then 4 else 1) d
  else d

/-- A downstream VC has a flit waiting: a frame in the downstream queue, or a bump that is owed, waits for a credit too. -/
def dsWaiting (d : Die) : Bool :=
  !d.wlk.dsTx0.isEmpty || !d.wlk.dsTx1.isEmpty || !d.ing.queue.isEmpty || d.rat.tab.any (fun e => e.2.owed)

/-- CREDIT_PROGRESS_TIMEOUT: no credit progress on a downstream VC with a flit waiting. -/
def creditTimeout (d : Die) : Die := if d.wlk.state == .up && dsWaiting d then linkResync d else d

/-! ## The commands -/

/-- FLIT_SLOT_TX. -/
def execFlitSlotTx (d : DieId) (half replayEcc : Bool) (s : State) : Host.Outcome State Fault Refusal :=
  runDie d (flitSlot (b2n half) replayEcc) s

/-- HELLO_TX. -/
def execHelloTx (d : DieId) (s : State) : Host.Outcome State Fault Refusal := runDie d helloTx s

/-- LANES_LOCKED. -/
def execLanesLocked (d : DieId) (s : State) : Host.Outcome State Fault Refusal := runDie d lanesLocked s

/-- ADAPT_TIMEOUT. (DESIGN CHOICE, log entry 4) -/
def execAdaptTimeout (d : DieId) (locked : BitVec 2) (s : State) : Host.Outcome State Fault Refusal :=
  runDie d (adaptTimeout locked.toNat) s

/-- FLIT_LOCK. -/
def execFlitLock (d : DieId) (s : State) : Host.Outcome State Fault Refusal := runDie d flitLock s

/-- FLIT_HUNT_TIMEOUT. -/
def execFlitHuntTimeout (d : DieId) (s : State) : Host.Outcome State Fault Refusal := runDie d (backToAdapt .flitHunt) s

/-- HELLO_TIMEOUT. -/
def execHelloTimeout (d : DieId) (s : State) : Host.Outcome State Fault Refusal := runDie d (backToAdapt .hello) s

/-- RETRAIN_LIMIT_EXPIRY. (DEDUCED, log entry 51) -/
def execRetrainLimitExpiry (d : DieId) (s : State) : Host.Outcome State Fault Refusal := runDie d retrainLimit s

/-- NAK_REPEAT_LIMIT: the same fseq was requested by nak 8 times in a row. (DESIGN CHOICE, log entry 50) -/
def execNakRepeatLimit (d : DieId) (s : State) : Host.Outcome State Fault Refusal := runDie d (linkRetrain 0) s

/-- FLIT_LOCK_LOST. -/
def execFlitLockLost (d : DieId) (s : State) : Host.Outcome State Fault Refusal := runDie d (linkRetrain 0) s

/-- CDR_LOCK_LOST. -/
def execCdrLockLost (d : DieId) (s : State) : Host.Outcome State Fault Refusal := runDie d (linkRetrain 0) s

/-- FEC_ERROR_THRESHOLD: a retrain with that half excluded. -/
def execFecErrorThreshold (d : DieId) (half : Bool) (s : State) : Host.Outcome State Fault Refusal :=
  runDie d (fecOver (b2n half)) s

/-- CREDIT_PROGRESS_TIMEOUT. -/
def execCreditProgressTimeout (d : DieId) (s : State) : Host.Outcome State Fault Refusal := runDie d creditTimeout s

/-- WLK_CMD.retrain. -/
def execWlkCmdRetrain (d : DieId) (s : State) : Host.Outcome State Fault Refusal := runDie d (linkRetrain 0) s

/-- WLK_CMD.resync. -/
def execWlkCmdResync (d : DieId) (s : State) : Host.Outcome State Fault Refusal := runDie d linkResync s

/-- WLK_CMD.restore. -/
def execWlkCmdRestore (d : DieId) (s : State) : Host.Outcome State Fault Refusal := runDie d linkRestore s

/-- WLK_CMD.retire. -/
def execWlkCmdRetire (d : DieId) (s : State) : Host.Outcome State Fault Refusal := runDie d (linkRetire 5) s

/-- RATCHET_BUMP_DOWNSTREAM. -/
def execRatchetBumpDownstream (d : DieId) (ratchet : BitVec 12) (s : State) : Host.Outcome State Fault Refusal :=
  runDie d (bumpDown ratchet.toNat) s

end Sys2Proof.Machine
end

