-- ==== Sys2Proof/Machine/Memory.lean ====
section
/-! DEFINITION. Memory health: what a scrub read finds, poison by region, the tracking table, rewrite, sparing, and the
unit-map extension (R91, R138, R182, R278, R284, R393 to R400, R407 to R409, R415). -/

namespace Sys2Proof.Machine

/-! ## The unit-map extension (R415) -/

/-- The extension key (R411). -/
def extKey (d : Die) : Bytes := kmac256 d.key.seed [0x04] 32 (ascii "HW2240 extension")

/-- An extension record: kind, engine code, index, sequence number, tag. (DESIGN CHOICE, log entry 29) -/
def extRecord (d : Die) (kind engine index no : Nat) : Bytes :=
  let b := [BitVec.ofNat 8 kind, BitVec.ofNat 8 engine] ++ leBytes 6 index ++ leBytes 8 no
  b ++ kmac256 (extKey d) b 16 (ascii "HW2240 extension")

/-- Unit map digest of the die (R415). (DEDUCED, log entry 77) -/
def unitMapDigest (k : KeyBlk) : Bytes := h32 ([0x08] ++ k.mapPayload ++ k.ext.flatMap id)

/-- The next sequence number of the extension: one above the last record's. (DESIGN CHOICE, log entry 29) -/
def extNext (d : Die) : Nat :=
  match (d.key.ext ++ d.mem.extQ).getLast? with
  | some r => leVal (slice r 8 8) + 1
  | none => 0

/-- Queue a record for the extension area of 1,024 records (R400). -/
def recordExt (kind engine index : Nat) (d : Die) : Die :=
  if d.key.ext.length + d.mem.extQ.length ≥ 1024 then raise pSCB 4 d
  else updMem (fun m => { m with extQ := m.extQ ++ [extRecord d kind engine index (extNext d)] }) d

/-- The front record has been written, or its write failed (R409). -/
def extWrite (written : Bool) (d : Die) : Die :=
  match d.mem.extQ with
  | [] => d
  | r :: q =>
    if written then
      updKey (fun k => { k with ext := k.ext ++ [r], mapDigest := unitMapDigest { k with ext := k.ext ++ [r] } })
        (updMem (fun m => { m with extQ := q, extRetry := false }) d)
    else raise pSCB 5 (updMem (fun m => { m with extRetry := true }) d)

/-! ## Words and rows -/

/-- The page of a memory. -/
def memPage (k : MemKind) : Nat := match k with | .sram => pMEM | .hbm => pHBM

/-- A row's number: HBM by die channel, pseudo-channel, bank and row; SRAM by its 512-byte row. -/
def rowKey (w : MemWord) : Nat :=
  match w.kind with
  | .hbm => ((w.chan.toNat * 2 + b2n w.pc) * 64 + w.bank.toNat) * 262144 + w.row.toNat
  | .sram => w.row.toNat % 32768

/-- The first event of an error capture (R407, R408). -/
def memCapture (w : MemWord) (synd : Nat) (uncorr : Bool) (d : Die) : Die :=
  match w.kind with
  | .sram =>
    if capFree d pMEM 0x044 then
      setCap pMEM 0x044 (rowKey w * 64 + w.word.toNat % 64 + synd * 2097152 + b2n uncorr * 536870912 + 2147483648) d
    else d
  | .hbm =>
    if capFree d pHBM 0x044 then
      setCap pHBM 0x048 (w.row.toNat + w.word.toNat * 262144) (setCap pHBM 0x044
        (w.chan.toNat + 8 * b2n w.pc + 16 * w.bank.toNat + 1024 * synd + 262144 * b2n uncorr + 2147483648) d)
    else d

/-- Offset of a memory's counter of corrected words; that of uncorrectable words follows. -/
def corrOff (k : MemKind) : Nat := match k with | .sram => 0x048 | .hbm => 0x050

/-- A read has corrected a word: it is counted and captured (R394, R398). -/
def corrected (w : MemWord) (synd : Nat) (d : Die) : Die :=
  memCapture w synd false (raise (memPage w.kind) 0 (count (memPage w.kind) (corrOff w.kind) d))

/-- A read has met an uncorrectable word: it is counted and captured (R394). -/
def uncorrectable (w : MemWord) (synd : Nat) (d : Die) : Die :=
  memCapture w synd true (count (memPage w.kind) (corrOff w.kind + 4) d)

/-! ## Poison by region (R394) -/

/-- A batch has met poison: LATE 21. (DEDUCED, log entry 41) -/
def poisonBatch (serial : Nat) : Die → Die := modTicket serial (addLate 21)

/-- An uncorrectable staging word of a batch: LATE 21, its remaining records discarded (R91).
(DEDUCED, log entry 41) -/
def stagingHit (serial : Nat) (d : Die) : Die :=
  match ticket d serial with
  | none => d
  | some b =>
    let d := raise pWRD 4 (poisonBatch serial d)
    if b.closed then d else modArr b.channel (fun w => { w with skip := some (w.skip.getD .ended) }) d

/-- An uncorrectable word in active tables or secrets of a slot's Month (R138): its batches not done get LATE 21, later
ones too, and a Month turn starts. -/
def activeHit (page bit slot month : Nat) (d : Die) : Die :=
  let d := raise page bit d
  let d := modModel slot (fun m =>
    if m.active.month == month then { m with active := { m.active with poisoned := true } }
    else { m with old := m.old.map (fun o => if o.month == month then { o with poisoned := true } else o) }) d
  let hit := d.chn.tickets.filter (fun b => b.month == month && !b.done
    && (chan d b.channel).host.slot == slot && (chan d b.channel).host.kind != 3)
  requestTurn slot false (hit.foldl (fun d b => poisonBatch b.serial d) d)

/-- The page whose table_ecc bit a table sets, by the class of the op whose entries it holds (R139, R161).
(DEDUCED, log entries 42, 43) -/
def tablePage (m : Model) (op : Nat) : Nat :=
  if m.manifest.kind == 1 && ((m.manifest.ops[op]?).map (fun o => o.cls)) != some 2 then pRES else pBND

/-- An uncorrectable table or secret word of a slot. (DEDUCED, log entry 43) -/
def tableRegion (page slot : Nat) (standby : Bool) (bit : Nat) (d : Die) : Die :=
  match model d slot with
  | none => d
  | some m => if standby then tableHit slot (raise page bit d) else activeHit page bit slot m.active.month d

/-- An uncorrectable word that no rule of its own covers: uncorr, and its extent is withdrawn when released. -/
def plainPoison (w : MemWord) (owner : Option (Nat × Nat)) (d : Die) : Die :=
  let d := raise (memPage w.kind) 1 d
  match w.kind, owner with
  | .hbm, some o => updMem (fun m => { m with withdrawn := m.withdrawn ++ [(o.1, o.2, rowKey w / 64)] }) d
  | _, _ => d

/-- Apply the region's rule to an uncorrectable word. (DEDUCED, log entry 42) -/
def poison (w : MemWord) (region : Region) (d : Die) : Die :=
  match region with
  | .staging c n =>
    match ((chanTickets d c.toNat).filter (fun b => !b.staged.isEmpty))[n.toNat]? with
    | some b => stagingHit b.serial d
    | none => raise pWRD 4 d
  | .table slot op standby =>
    match model d slot.toNat with
    | some m => tableRegion (tablePage m op.toNat) slot.toNat standby 5 d
    | none => d
  | .secrets slot standby => tableRegion pRES slot.toNat standby 6 d
  | .ledger c pos => lowerLedger c.toNat pos.toNat (raise pCWE 5 d)
  | .timetable standby both =>
    if !both then raise pCAD 7 d
    else if standby then plainPoison w none (updCad (fun c => { c with standby := none }) d)
    else raise pCAD 8 d
  | .descriptor c both =>
    if both then retireChan 7 3 19 c.toNat (raise pCHN 1 d) else raise pCHN 0 d
  | .ticket c n =>
    match (chanTickets d c.toNat)[n.toNat]? with
    | some b => poisonBatch b.serial (raise pCHN 4 d)
    | none => raise pCHN 4 d
  | .sealBody no => dropBody no.toNat d
  | .replay => replayLost d
  | .tensor slot => plainPoison w (some (1, slot.toNat)) d
  | .other => plainPoison w none d

/-! ## Tracking, rewrite and sparing (R398 to R400) -/

/-- Number of the running pass of a memory. -/
def passOf (m : MemHealth) (k : MemKind) : Nat := match k with | .sram => m.passSram | .hbm => m.passHbm

/-- The owner of a region's extents. -/
def regionOwner (r : Region) : Option (Nat × Nat) :=
  match r with
  | .tensor slot => some (1, slot.toNat)
  | .table slot _ _ => some (1, slot.toNat)
  | .ledger c _ => some (2, c.toNat)
  | _ => none

/-- A row takes a spare, or stays in service without one (R399, R400). -/
def spareRow (w : MemWord) (owner : Option (Nat × Nat)) (d : Die) : Die :=
  let key := rowKey w
  let free : Bool := match w.kind with
    | .sram => decide (0 < (d.mem.spareLeft[key / 2048]?).getD 0)
    | .hbm => decide (0 < d.mem.pprLeft)
  if free then updMem (fun m => { m with
      sparing := m.sparing ++ [(w.kind, key)]
      spareOf := match w.kind, owner with
        | .hbm, some o => mset m.spareOf key o
        | _, _ => m.spareOf }) d
  else
    let d := raise (memPage w.kind) 3 (updMem (fun m => { m with stuckInService := m.stuckInService ++ [(w.kind, key)] }) d)
    let d := match w.kind, owner with
      | .hbm, some o => updMem (fun m => { m with withdrawn := m.withdrawn ++ [(o.1, o.2, key / 64)] }) d
      | _, _ => d
    recordExt 1 (blkCode (memPage w.kind)) key d

/-- The table is full: evict the oldest entry of count 1 (R398). (DESIGN CHOICE, log entry 45) -/
def evictOne (d : Die) : Die :=
  let ones := d.mem.track.filter (fun e => e.count == 1)
  match ones.find? (fun e => ones.all (fun f => e.passNo ≤ f.passNo)) with
  | none => d
  | some e =>
    raise pSCB 3 (count pSCB 0x058 (updMem (fun m => { m with
      track := m.track.filter (fun f => !(f.kind == e.kind && f.row == e.row)) }) d))

/-- A scrub read has corrected a word (R398, R399). (DESIGN CHOICE, log entry 45) -/
def track (w : MemWord) (owner : Option (Nat × Nat)) (synd : Nat) (d : Die) : Die :=
  let key := rowKey w
  let p := passOf d.mem w.kind
  let here (e : TrackEntry) : Bool := e.kind == w.kind && e.row == key
  let put (f : TrackEntry → TrackEntry) : Die → Die :=
    updMem (fun m => { m with track := m.track.map (fun e => if here e then f e else e) })
  if d.mem.sparing.contains (w.kind, key) || d.mem.stuckInService.contains (w.kind, key) then d
  else
    match d.mem.track.find? here with
    | some e =>
      if e.rewritten then
        spareRow w owner (raise pSCB 1 (count pSCB 0x050 (put (fun e => { e with seen := p }) d)))
      else if e.word = w.word.toNat ∧ e.synd = synd then
        if e.passNo + 1 = p then
          let d := put (fun e => { e with count := 2, passNo := p, seen := p }) d
          if d.mem.rewriteQ.contains (w.kind, key) then d
          else updMem (fun m => { m with rewriteQ := m.rewriteQ ++ [(w.kind, key)] }) d
        else put (fun e => { e with passNo := p, seen := p }) d
      else put (fun e => { e with word := w.word.toNat, synd := synd, count := 1, passNo := p, seen := p }) d
    | none =>
      let d := if d.mem.track.length ≥ 1024 then evictOne d else d
      if d.mem.track.length ≥ 1024 then d
      else updMem (fun m => { m with track := m.track ++
        [{ kind := w.kind, row := key, word := w.word.toNat, synd := synd, count := 1, passNo := p, seen := p, rewritten := false }] }) d

/-- A new pass of a memory begins: the last one's duration, and the entries without a correction in two passes go. -/
def newPass (k : MemKind) (d : Die) : Die := updMem (fun m =>
  let p := passOf m k + 1
  let m := { m with track := m.track.filter (fun e => !(e.kind == k && decide (e.seen + 3 ≤ p))) }
  match k with
  | .sram => { m with passSram := p, lastSramMs := min 65535 ((d.tim.up - m.passSramNs) / 1000000), passSramNs := d.tim.up }
  | .hbm => { m with passHbm := p, lastHbmS := min 65535 ((d.tim.up - m.passHbmNs) / 1000000000), passHbmNs := d.tim.up }) d

/-- Command or address parity failures of one access: up to four are retried, the fifth is channel_fault (R393). -/
def caParity (failures : Nat) (d : Die) : Die :=
  if failures = 0 then d
  else
    let d := raise pHBM 4 (countN pHBM 0x058 (min failures 4) d)
    if failures ≥ 5 then raise pHBM 6 d else d

/-- SCRUB_READ. -/
def scrubRead (w : MemWord) (region : Region) (find : ReadFind) (first : Bool) (d : Die) : Die :=
  let d := if first then newPass w.kind d else d
  match find with
  | .clean => d
  | .corrected synd => track w (regionOwner region) synd.toNat (corrected w synd.toNat d)
  | .uncorrectable synd => poison w region (uncorrectable w synd.toNat d)
  | .caParity failures => caParity failures.toNat d

/-- ROW_REWRITE: the row has been read, corrected, written back and read again. -/
def rowRewrite (w : MemWord) (d : Die) : Die :=
  let key := rowKey w
  if d.mem.rewriteQ.contains (w.kind, key) then
    raise pSCB 0 (count pSCB 0x04C (updMem (fun m => { m with
      rewriteQ := m.rewriteQ.filter (fun q => q != (w.kind, key))
      track := m.track.map (fun e => if e.kind == w.kind && e.row == key then { e with rewritten := true } else e) }) d))
  else d

/-- ROW_SPARE_DONE: the repair is verified, or the spare was bad and the next one is tried. (DEDUCED, log entry 44) -/
def spareDone (w : MemWord) (verified : Bool) (d : Die) : Die :=
  let key := rowKey w
  if d.mem.sparing.contains (w.kind, key) then
    let owner := match w.kind with
      | .hbm => mget d.mem.spareOf key
      | .sram => none
    let d := updMem (fun m =>
      let m := { m with sparing := m.sparing.filter (fun q => q != (w.kind, key)) }
      match w.kind with
      | .sram => { m with spareLeft := m.spareLeft.modify (key / 2048) (fun n => n - 1) }
      | .hbm => { m with spareOf := mdel m.spareOf key, pprUsed := m.pprUsed + 1, pprLeft := m.pprLeft - 1 }) d
    if verified then
      let d := updMem (fun m => { m with track := m.track.filter (fun e => !(e.kind == w.kind && e.row == key)) }) d
      let d := raise (memPage w.kind) 2 (count pSCB 0x054 d)
      recordExt (if w.kind == .sram then 3 else 4) (blkCode (memPage w.kind)) key d
    else spareRow w owner d
  else d

/-! ## The commands -/

/-- SCRUB_READ. -/
def execScrubRead (d : DieId) (at_ : MemWord) (region : Region) (find : ReadFind) (firstOfPass : Bool) (s : State) :
    Host.Outcome State Fault Refusal := runDie d (scrubRead at_ region find firstOfPass) s

/-- SCRUB_PASS_OVERRUN: the pass has overrun its period and continues (R397). -/
def execScrubPassOverrun (d : DieId) (kind : MemKind) (s : State) : Host.Outcome State Fault Refusal :=
  match kind with
  | .sram => runDie d (raise pSCB 2) s
  | .hbm => runDie d (raise pSCB 2) s

/-- ROW_REWRITE. -/
def execRowRewrite (d : DieId) (at_ : MemWord) (s : State) : Host.Outcome State Fault Refusal := runDie d (rowRewrite at_) s

/-- ROW_SPARE_DONE. (DEDUCED, log entry 44) -/
def execRowSpareDone (d : DieId) (at_ : MemWord) (verified : Bool) (s : State) : Host.Outcome State Fault Refusal :=
  runDie d (spareDone at_ verified) s

/-- UNIT_MAP_EXTENSION_WRITE. -/
def execUnitMapExtensionWrite (d : DieId) (written : Bool) (s : State) : Host.Outcome State Fault Refusal :=
  runDie d (extWrite written) s

/-- EXTENSION_WRITE_RETRY: a failed write is tried again after 10 s. -/
def execExtensionWriteRetry (d : DieId) (written : Bool) (s : State) : Host.Outcome State Fault Refusal :=
  runDie d (fun x => if x.mem.extRetry then extWrite written x else x) s

end Sys2Proof.Machine
end

