-- ==== Sys2Proof/Machine/Units.lean ====
section
/-! DEFINITION. Units in service and their faults: code mismatches, retirement, spares, lost pipelines, Keccak cores, and
the comparison of Tandem pairs and Trike triples with its rollback (R135 to R137, R160, R183, R225, R233 to R239, R241,
R273, R317). -/

namespace Sys2Proof.Machine

/-! ## Pools -/

/-- The units of a block, by its block code: RES 8, BND 9, NLE 10, CWE 11, SNT 12, SHK 13. -/
def pool (d : Die) (blk : Nat) : Tiles :=
  match blk with
  | 8 => d.res | 9 => d.bnd | 10 => d.nle | 11 => d.cwe | 12 => d.snt | 13 => d.shk | _ => {}

/-- Change the units of a block. -/
def modPool (blk : Nat) (f : Tiles → Tiles) (d : Die) : Die :=
  match blk with
  | 8 => { d with res := f d.res } | 9 => { d with bnd := f d.bnd } | 10 => { d with nle := f d.nle }
  | 11 => { d with cwe := f d.cwe } | 12 => { d with snt := f d.snt } | 13 => { d with shk := f d.shk } | _ => d

/-- The register page of a block's units. -/
def unitPage (blk : Nat) : Nat := pRES + blk - 8

/-- Logical units of a pipeline (R231, R302). -/
def perPipe (blk : Nat) : Nat := if blk = 8 then 3 else if blk = 12 then 85 else 4

/-- Offset of a block's configuration with spare_auto and fault_window_ms: 0x040 on every page. -/
def windowMs (d : Die) (blk : Nat) : Nat := field d (unitPage blk) 0x040 16

/-- Offset of a block's counter of code events. -/
def codeOff (blk : Nat) : Nat :=
  match blk with
  | 8 => 0x078 | 9 => 0x080 | 10 => 0x084 | 11 => 0x098 | 12 => 0x068 | _ => 0x05C

/-- State of a physical unit. -/
def unitState (d : Die) (blk u : Nat) : Nat := ((pool d blk).state[u]?).getD 0

/-- Set the state of a physical unit. -/
def setUnit (blk u v : Nat) : Die → Die := modPool blk (fun t => { t with state := t.state.set u v })

/-- The logical number that a physical unit serves. -/
def logicalOf (d : Die) (blk u : Nat) : Option Nat := (pool d blk).map.findIdx? (fun p => p == u)

/-- Units in service of a pipeline. -/
def unitsUp (d : Die) (blk n : Nat) : Nat := tilesUp (pool d blk) (perPipe blk) n

/-- Units in service of a group: the smallest count among its members (R233). -/
def groupUnits (d : Die) (blk lead : Nat) : Nat := groupTiles d (pool d blk) (perPipe blk) lead

/-- The lowest-numbered spare of a block. -/
def spareOf (d : Die) (blk : Nat) : Option Nat := (pool d blk).state.findIdx? (fun s => s == 2)

/-! ## Rollback (R135, R136, R236) -/

/-- A batch begins again from its staged records: every result of its checks is dropped; what arrival found stays. -/
def restartBatch (b : Batch) : Batch :=
  { b with
    fails := b.fails.filter (fun f => f.2 == 6), lates := b.lates.filter (fun c => c != 22), checked := 0, made := [], caps := []
    done := false, bufs := [], selRun := 0, overrun := none, bounds := [] }

/-- The group of a lead abandons its current batches without commit and restarts its program. -/
def rollback (lead : Nat) (d : Die) : Die :=
  let run := (pipe d lead).core.run
  let d := run.foldl (fun d s => modTicket s restartBatch d) d
  modPipe lead (fun p => { p with core := { target := p.core.target, run := p.core.run, inSpan := p.core.inSpan, halted := p.core.halted } }) d

/-! ## Groups (R237 to R239) -/

/-- Retire a group: its open batches LATE 19, its channels closed as retired, its members out of service. -/
def retireGroup (lead : Nat) (d : Die) : Die :=
  let ms := members d lead
  let d := retireWhere (fun x => ownerLead d x == lead) 3 3 19 d
  let d := ms.foldl (fun d n => modPipe n (fun p => { p with retired := true, resync := false, resyncRun := false }) d) d
  modPipe lead (fun p => { p with core := {}, saved := [] }) d

/-- Retire one member of a Trike triple: the other two go on as a pair, whichever of the three it was.
(DEDUCED, log entry 79) -/
def retireMember (lead n : Nat) (d : Die) : Die :=
  let d := raise (vpPage d lead) 5 d
  let d := modPipe n (fun p => { p with retired := true, resync := false, resyncRun := false }) d
  let two := members d lead
  two.foldl (fun d m => modPipe m (fun p => { p with role := if some m == two.head? then 1 else 2 }) d) d

/-- The cause of the FAIL of a batch whose pipeline is lost: one of those of R208; the spec does not say which.
(DEDUCED, log entry 78) -/
def lostCause (b : Batch) : Nat := 1 + Config.lostCause b.channel b.batchNo % 11

/-- The channels of a group end because a pipeline lost an engine: FAIL on inference and radio channels, LATE 19 on
Sentinel channels (R137, R385). (DEDUCED, log entry 78) -/
def loseChannels (lead : Nat) (d : Die) : Die :=
  let cs := recordOrder d (chansWhere d (fun x => chanLive x && ownerLead d x == lead && x.host.kind != 3))
  let d := cs.foldl (fun d c => (chanTickets d c).foldl (fun d b => endTicket 2 (lostCause b) d b.serial) d) d
  let d := retireWhere (fun x => ownerLead d x == lead && x.host.kind != 3) 4 2 1 d
  retireWhere (fun x => ownerLead d x == lead && x.host.kind == 3) 4 3 19 d

/-- A pipeline is left without a unit of an engine (R137, R183, R239, R317). (DEDUCED, log entry 78) -/
def pipeLost (blk n : Nat) (d : Die) : Die :=
  let lead := (pipe d n).lead
  let page := unitPage blk
  if blk = 12 then
    let tts := (d.cad.active.entries.filter (fun e => e.kind == 7 && (pipe d e.group).lead == lead)).map (fun e => e.target)
    if tts.isEmpty then d
    else retireWhere (fun x => x.host.kind == 3 && tts.contains (x.host.slot - 64)) 4 3 19 (raise page 4 d)
  else if blk = 11 ∧ !(d.chn.tab.any (fun e => chanLive e.2 && ownerLead d e.2 == lead && e.2.host.ctx != 0 && e.2.host.alpha != 0)) then d
  else if (members d lead).length ≥ 3 then retireMember lead n (if blk = 13 then raise page 3 d else d)
  else loseChannels lead (raise page (if blk = 13 then 3 else 4) d)

/-! ## Retirement and spares (R136, R137) -/

/-- A logical unit goes to the lowest-numbered spare, or is retired unspared. -/
def replaceUnit (blk l : Nat) (d : Die) : Die :=
  let page := unitPage blk
  let n := l / perPipe blk
  match spareOf d blk with
  | some u =>
    if field d page 0x040 0 = 1 then
      let d := setUnit blk u 1 (modPool blk (fun t => { t with map := t.map.set l u }) d)
      recordExt 2 (blkCode page) u (raise page 2
        { d with vp := { d.vp with substituting := d.vp.substituting ++ [(blk, l, u)] } })
    else
      let d := raise page 3 d
      if unitsUp d blk n = 0 then pipeLost blk n d else d
  | none =>
    let d := raise page 3 d
    if unitsUp d blk n = 0 then pipeLost blk n d else d

/-- Retire a physical tile or unit that is active or spare. -/
def retireUnit (blk u : Nat) (d : Die) : Die :=
  let s := unitState d blk u
  if s = 1 ∨ s = 2 then
    let d := recordExt 1 (blkCode (unitPage blk)) u (raise (unitPage blk) 1 (setUnit blk u 3 d))
    match s, logicalOf d blk u with
    | 1, some l =>
      let d := { d with vp := { d.vp with substituting := d.vp.substituting.filter (fun q => !(q.1 == blk && q.2.2 == u)) } }
      let d := if blk = 12 then d else rollback (pipe d (l / perPipe blk)).lead d
      replaceUnit blk l d
    | _, _ => d
  else d

/-- SPARE_SUBSTITUTION_DONE: the spare has passed its known-answer test, or it is retired and the next one tried. -/
def substitutionDone (blk u : Nat) (passed : Bool) (d : Die) : Die :=
  if d.vp.substituting.any (fun q => q.1 == blk && q.2.2 == u) then
    if passed then { d with vp := { d.vp with substituting := d.vp.substituting.filter (fun q => !(q.1 == blk && q.2.2 == u)) } }
    else retireUnit blk u d
  else d

/-- A unit of a pipeline of the group is being substituted: its program waits. -/
def substitutes (d : Die) (lead : Nat) : Bool :=
  d.vp.substituting.any (fun q => q.1 != 12 && (pipe d (q.2.1 / perPipe q.1)).lead == lead)

/-- The second event of a unit within its block's window. -/
def repeats (d : Die) (blk u : Nat) : Bool :=
  match mget (pool d blk).codeAt u with
  | some t => within d (windowMs d blk) t
  | none => false

/-- A lane code mismatch on a tile that does check work (R135). -/
def laneCode (blk u : Nat) (d : Die) : Die :=
  if unitState d blk u = 1 then
    let again := repeats d blk u
    let d := raise (unitPage blk) 0 (count (unitPage blk) (codeOff blk) d)
    let d := modPool blk (fun t => { t with codeAt := mset t.codeAt u d.tim.up }) d
    if again then retireUnit blk u d
    else
      match logicalOf d blk u with
      | some l => rollback (pipe d (l / perPipe blk)).lead d
      | none => d
  else d

/-! ## Keccak cores (R225) -/

/-- The core that takes a piece of work once its own no longer serves; none is 8. -/
def hostFor (d : Die) (work : Nat) : Nat :=
  let up (c : Nat) : Bool := unitState d 13 c == 1
  if work < 6 then (if up 6 then 6 else if up 7 then 7 else 8)
  else if work = 6 then (if up 7 then 7 else (((List.range 6).find? up).getD 8))
  else if up 6 then 6 else 8

/-- Move every piece of work that a retired core ran. -/
def moveWork (c : Nat) (d : Die) : Die :=
  let works := (List.range 8).filter (fun w => d.shk.map[w]? == some c)
  works.foldl (fun d w =>
    let h := hostFor d w
    let d := modPool 13 (fun t => { t with map := t.map.set w h }) d
    if h = 8 then (if w < 6 then pipeLost 13 w d else raise pSHK 4 d) else raise pSHK 2 d) d

/-- The groups whose pipelines' slices a core runs begin their batches again (R386). (DEDUCED, log entry 201) -/
def rerunServed (c : Nat) (d : Die) : Die :=
  let leads := ((List.range 6).filter (fun w => d.shk.map[w]? == some c)).map (fun w => (pipe d w).lead)
  leads.eraseDups.foldl (fun d g => rollback g d) d

/-- Retire a Keccak core that is active. (DEDUCED, log entry 201) -/
def retireCore (c : Nat) (d : Die) : Die :=
  if unitState d 13 c = 1 then
    moveWork c (rerunServed c (recordExt 1 (blkCode pSHK) c (raise pSHK 1 (setUnit 13 c 3 d))))
  else d

/-- A state parity mismatch: the work is repeated; the second one within the window retires the core.
(DEDUCED, log entry 201) -/
def coreCode (c : Nat) (d : Die) : Die :=
  if unitState d 13 c = 1 then
    let again := repeats d 13 c
    let d := raise pSHK 0 (count pSHK 0x05C d)
    let d := modPool 13 (fun t => { t with codeAt := mset t.codeAt c d.tim.up }) d
    if again then retireCore c d else rerunServed c d
  else d

/-! ## Comparison (R234 to R238) -/

/-- The batches that a comparison concerns: those whose values are compared, and those the group's program runs for.
(DESIGN CHOICE, log entry 198) -/
def concerned (d : Die) (lead : Nat) (bs : List Nat) : List Nat :=
  bs ++ (pipe d lead).core.run.filter (fun s => !bs.contains s)

/-- Capture the point of a mismatch until host software clears it, with the channel of the first batch that it concerns. -/
def capturePoint (lead cls member : Nat) (bs : List Nat) (d : Die) : Die :=
  if capFree d (vpPage d lead) 0x054 then
    let ch := match concerned d lead bs with
      | s :: _ => ((ticket d s).map (fun b => b.channel)).getD 0
      | [] => 0
    setCap (vpPage d lead) 0x054 (cls % 16 + 16 * (member % 8) + 128 * ch + 2147483648) d
  else d

/-- A core mismatch of a group on values of some batches: they and what the group runs start again, or the group ends at the
second one within the window (R236). -/
def coreMismatch (lead cls : Nat) (delay : Bool) (bs : List Nat) (d : Die) : Die :=
  if (members d lead).length ≥ 2 then
    let page := vpPage d lead
    let d := raise page 0 (count page 0x058 (capturePoint lead cls 7 bs d))
    let d := if delay then raise page 1 d else d
    let again := match (pipe d lead).mismatchAt with
      | some t => within d (field d page 0x04C 16) t
      | none => false
    if again then retireGroup lead (raise page 2 d)
    else
      let all := concerned d lead bs
      let d := countN page 0x05C all.length (modPipe lead (fun p => { p with mismatchAt := some d.tim.up }) d)
      rollback lead (bs.foldl (fun d s => modTicket s restartBatch d) d)
  else d

/-- The two comparator or voter instances disagree (R235, R238). -/
def cmpDisagree (lead : Nat) (d : Die) : Die :=
  if (members d lead).length ≥ 2 then retireGroup lead (raise (vpPage d lead) 3 d) else d

/-- A member of a triple is out: its state is still to be copied from the other two. -/
def memberOut (d : Die) (m : Nat) : Bool := (pipe d m).resync

/-- One member of a triple differs: it is outvoted, or the two members in service differ while the third is out (R238).
A member that is out is not compared. -/
def oddOut (lead m cls : Nat) (bs : List Nat) (d : Die) : Die :=
  let ms := members d lead
  if ms.length ≥ 3 ∧ ms.contains m ∧ !memberOut d m then
    if ms.any (memberOut d) then coreMismatch lead cls false bs d
    else
      let page := vpPage d lead
      let d := raise page 4 (capturePoint lead cls m bs d)
      let again := match (pipe d m).oddAt with
        | some t => within d (field d page 0x04C 16) t
        | none => false
      if again then retireMember lead m d
      else modPipe m (fun p => { p with oddAt := some d.tim.up, resync := true }) d
  else d

/-- TRIKE_RESYNC: at a batch boundary the odd member's state begins to be copied from the other two. -/
def trikeResync (lead : Nat) (d : Die) : Die :=
  if (pipe d lead).core.run.isEmpty then
    (members d lead).foldl (fun d n => if (pipe d n).resync then modPipe n (fun p => { p with resyncRun := true }) d else d) d
  else d

/-- TRIKE_RESYNC_DONE. -/
def trikeResyncDone (lead : Nat) (d : Die) : Die :=
  (members d lead).foldl (fun d n =>
    if (pipe d n).resyncRun then
      count (vpPage d lead) 0x060 (modPipe n (fun p => { p with resync := false, resyncRun := false }) d)
    else d) d

/-- What the copies of a group find at a comparison point of some batches' values, and what follows (R234 to R238).
(DESIGN CHOICE, log entry 198) -/
def pointFault (lead : Nat) (bs : List Nat) (d : Die) (p : PointFault) : Die :=
  match p with
  | .differs cls => coreMismatch lead cls.toNat false bs d
  | .delayParity => coreMismatch lead 7 true bs d
  | .disagree => cmpDisagree lead d
  | .odd m cls => oddOut lead m.toNat cls.toNat bs d

/-- The value at the point leaves the group all the same: a group of one compares nothing, and a triple outvotes one odd
member (R234, R238). -/
def pointPasses (lead : Nat) (d : Die) (p : PointFault) : Bool :=
  decide ((members d lead).length < 2) ||
    match p with
    | .odd m _ => !(decide (3 ≤ (members d lead).length) && (members d lead).contains m.toNat && !memberOut d m.toNat
        && (members d lead).any (memberOut d))
    | _ => false

/-- The comparisons of a group on values of some batches, up to the first whose value does not leave the group: the die, and
whether all of them did. (DESIGN CHOICE, log entry 198) -/
def comparePoints (lead : Nat) (bs : List Nat) : List PointFault → Die → Die × Bool
  | [], d => (d, true)
  | p :: r, d =>
    if pointPasses lead d p then comparePoints lead bs r (pointFault lead bs d p) else (pointFault lead bs d p, false)

/-! ## What goes wrong while an engine instruction runs -/

/-- The batch of a channel in a run: its first one where the run serves none of that channel. -/
def runBatch (d : Die) (run : List Nat) (c : Nat) : Nat :=
  (run.find? (fun s => (ticket d s).any (fun b => b.channel == c))).getD (run.headD 0)

/-- One physical event of an engine instruction of block code `blk` on the group of a lead, for a batch of its run.
(DESIGN CHOICE, log entry 81) -/
def physFault (blk lead : Nat) (run : List Nat) (d : Die) (f : PhysFault) : Die :=
  let serial := match f with
    | .tableEcc c _ _ | .secretEcc c _ _ | .stagingEcc c _ _ | .ledgerEcc c _ _ _ | .poison c _ _ => runBatch d run c.toNat
    | _ => 0
  match f with
  | .laneCode u => if blk = 13 then coreCode u.toNat d else laneCode blk u.toNat d
  | .tableEcc _ w synd =>
    let d := uncorrectable w synd.toNat d
    match ticket d serial with
    | some b => activeHit (if blk = 9 then pBND else pRES) 5 (chan d b.channel).host.slot b.month (poisonBatch serial d)
    | none => d
  | .secretEcc _ w synd =>
    let d := uncorrectable w synd.toNat d
    match ticket d serial with
    | some b => activeHit pRES 6 (chan d b.channel).host.slot b.month (poisonBatch serial d)
    | none => d
  | .stagingEcc _ w synd => stagingHit serial (uncorrectable w synd.toNat d)
  | .ledgerEcc _ pos w synd =>
    let d := uncorrectable w synd.toNat d
    match ticket d serial with
    | some b => lowerLedger b.channel pos.toNat (poisonBatch serial (raise pCWE 5 d))
    | none => d
  | .poison _ w synd => raise (memPage w.kind) 1 (poisonBatch serial (uncorrectable w synd.toNat d))
  | .corrected w synd => corrected w synd.toNat d
  | .point p => pointFault lead [] d p
  | .caParity n => caParity n.toNat d

/-! ## Commanded retirement and tests (R135, R225, R230, R237, R241, R273, R317) -/

/-- The group in whose self-test segments a unit is tested: the group of the pipeline it serves; for a spare or a shared
unit, the lowest group in service. (DEDUCED, log entry 80) -/
def testLead (d : Die) (blk u : Nat) : Nat :=
  let lowest := ((List.range 6).find? (fun n => leads d n)).getD 0
  if blk = 13 then (if u < 6 then (pipe d u).lead else lowest)
  else
    match logicalOf d blk u with
    | some l => (pipe d (l / perPipe blk)).lead
    | none => lowest

/-- Queue a known-answer test for the next self-test segment. (DEDUCED, log entry 80) -/
def queueTest (blk u : Nat) (d : Die) : Die :=
  let item := (testLead d blk u, blk, u)
  if d.cad.tests.contains item then d else updCad (fun c => { c with tests := c.tests ++ [item] }) d

/-- RES_CMD.retire; a tile number above 19 clamps to 19. -/
def execResCmdRetire (d : DieId) (tile : BitVec 5) (s : State) : Host.Outcome State Fault Refusal :=
  runDie d (retireUnit 8 (min 19 tile.toNat)) s

/-- RES_CMD.self_test. -/
def execResCmdSelfTest (d : DieId) (tile : BitVec 5) (s : State) : Host.Outcome State Fault Refusal :=
  runDie d (queueTest 8 (min 19 tile.toNat)) s

/-- BND_CMD.retire; a tile number above 25 clamps to 25. -/
def execBndCmdRetire (d : DieId) (tile : BitVec 5) (s : State) : Host.Outcome State Fault Refusal :=
  runDie d (retireUnit 9 (min 25 tile.toNat)) s

/-- BND_CMD.self_test. -/
def execBndCmdSelfTest (d : DieId) (tile : BitVec 5) (s : State) : Host.Outcome State Fault Refusal :=
  runDie d (queueTest 9 (min 25 tile.toNat)) s

/-- NLE_CMD.retire. -/
def execNleCmdRetire (d : DieId) (tile : BitVec 5) (s : State) : Host.Outcome State Fault Refusal :=
  runDie d (retireUnit 10 (min 25 tile.toNat)) s

/-- NLE_CMD.self_test. -/
def execNleCmdSelfTest (d : DieId) (tile : BitVec 5) (s : State) : Host.Outcome State Fault Refusal :=
  runDie d (queueTest 10 (min 25 tile.toNat)) s

/-- CWE_CMD.retire. -/
def execCweCmdRetire (d : DieId) (tile : BitVec 5) (s : State) : Host.Outcome State Fault Refusal :=
  runDie d (retireUnit 11 (min 25 tile.toNat)) s

/-- CWE_CMD.self_test. -/
def execCweCmdSelfTest (d : DieId) (tile : BitVec 5) (s : State) : Host.Outcome State Fault Refusal :=
  runDie d (queueTest 11 (min 25 tile.toNat)) s

/-- SNT_CMD.retire. -/
def execSntCmdRetire (d : DieId) (unit : BitVec 9) (s : State) : Host.Outcome State Fault Refusal :=
  runDie d (retireUnit 12 unit.toNat) s

/-- SNT_CMD.self_test. -/
def execSntCmdSelfTest (d : DieId) (unit : BitVec 9) (s : State) : Host.Outcome State Fault Refusal :=
  runDie d (queueTest 12 unit.toNat) s

/-- SHK_CMD.retire. -/
def execShkCmdRetire (d : DieId) (core : BitVec 3) (s : State) : Host.Outcome State Fault Refusal :=
  runDie d (retireCore core.toNat) s

/-- SHK_CMD.self_test. -/
def execShkCmdSelfTest (d : DieId) (core : BitVec 3) (s : State) : Host.Outcome State Fault Refusal :=
  runDie d (queueTest 13 core.toNat) s

/-- SPARE_SUBSTITUTION_DONE. -/
def execSpareSubstitutionDone (d : DieId) (blk : BitVec 5) (unit : BitVec 9) (passed : Bool) (s : State) :
    Host.Outcome State Fault Refusal := runDie d (substitutionDone blk.toNat unit.toNat passed) s

/-- TRIKE_RESYNC. -/
def execTrikeResync (d : DieId) (lead : BitVec 3) (s : State) : Host.Outcome State Fault Refusal :=
  runDie d (trikeResync lead.toNat) s

/-- TRIKE_RESYNC_DONE. -/
def execTrikeResyncDone (d : DieId) (lead : BitVec 3) (s : State) : Host.Outcome State Fault Refusal :=
  runDie d (trikeResyncDone lead.toNat) s

/-- VP_CMD.inject: the comparator test of a group waits for its next self-test segment (R241). -/
def execVpCmdInject (d : DieId) (pipe : BitVec 3) (s : State) : Host.Outcome State Fault Refusal :=
  runDie d (fun x =>
    let p := Sys2Proof.Machine.pipe x pipe.toNat
    if p.enabled && !p.retired then updCad (fun c => { c with tests := c.tests ++ [(p.lead, 7, 0)] }) x else x) s

/-- VP_CMD.retire. -/
def execVpCmdRetire (d : DieId) (pipe : BitVec 3) (s : State) : Host.Outcome State Fault Refusal :=
  runDie d (fun x =>
    let p := Sys2Proof.Machine.pipe x pipe.toNat
    if p.enabled && !p.retired then retireGroup p.lead x else x) s

end Sys2Proof.Machine
end

