-- ==== Sys2Proof/Machine/Records.lean ====
section
/-! DEFINITION. WRD, the record decoder: framing, sequence, the record plan, departures, tickets and staging, weight
chunks, and virtual channel 2 (R55 to R93, R106, R107, R170, R192, R195, R199, R203, R245, R290, R294). -/

namespace Sys2Proof.Machine

/-! ## Layout (R58, R62, R65 to R78) -/

/-- Bytes of a record's payload up to the end of its data, where its layout gives it. -/
def dataEnd (rtype : Nat) (p : Bytes) : Option Nat :=
  match rtype with
  | 1 | 2 | 3 => if fmtBits (byteAt p 12) = 0 then none else some (16 + dataBytes (byteAt p 12) (u32At p 8))
  | 6 =>
    if byteAt p 4 = 1 then some (16 + 4 * u32At p 8)
    else if byteAt p 4 = 2 ∧ fmtBits (byteAt p 5) ≠ 0 then some (16 + dataBytes (byteAt p 5) (u32At p 8)) else none
  | 7 => some (16 + 4 * u16At p 10)
  | 8 => some (16 + cdiv ((if byteAt p 4 = 1 then 68 else 52) * u16At p 6) 8)
  | 9 => some (16 + cdiv (u32At p 12) 8)
  | 10 => some 48
  | 11 => some (16 + u32At p 12)
  | _ => some 16

/-- The reserved bytes of a payload are zero. (DESIGN CHOICE, log entry 153) -/
def payloadZeros (rtype : Nat) (p : Bytes) : Bool :=
  match rtype with
  | 1 | 2 | 3 => allZero (slice p 14 2)
  | 4 => allZero (slice p 8 8)
  | 5 => allZero (slice p 12 4)
  | 6 => allZero (slice p 6 2)
  | 8 => byteAt p 5 == 0 && allZero (slice p 12 4)
  | 9 => allZero (slice p 5 3) && (byteAt p 4 != 1 || u16At p 10 == 0)
  | 10 => allZero (slice p 6 10)
  | 12 => decide (u16At p 0 < 4096) && allZero (slice p 2 6)
  | 13 => allZero (slice p 8 8)
  | _ => true

/-- The padding of an MX scale block and the padding behind the data are zero. (DEDUCED, log entry 48) -/
def paddingZeros (rtype n : Nat) (p : Bytes) : Bool :=
  let mx (fmt count : Nat) : Bool :=
    !fmtMx fmt || allZero (((p.drop 16).take (scaleBytes fmt count)).drop (cdiv count 32))
  allZero (p.drop n) &&
  match rtype with
  | 1 | 2 | 3 => mx (byteAt p 12) (u32At p 8)
  | 6 => byteAt p 4 != 2 || mx (byteAt p 5) (u32At p 8)
  | _ => true

/-- Every value of a payload lies inside its range; `last` says a tensor record carries its op output's last tile. -/
def valuesOk (rtype : Nat) (last : Bool) (p : Bytes) : Bool :=
  match rtype with
  | 1 | 2 | 3 =>
    let s := subHead p
    decide (1 ≤ s.count) && !(badScale s.fmt s.count (p.drop 16))
      && (!fmtMx s.fmt || (s.scale == 0 && s.first % 32 == 0 && (last || s.count % 32 == 0)))
  | 6 =>
    decide (1 ≤ u32At p 8) &&
      ((byteAt p 4 == 1 && byteAt p 5 == 0)
        || (byteAt p 4 == 2 && fmtBits (byteAt p 5) != 0 && !(badScale (byteAt p 5) (u32At p 8) (p.drop 16))))
  | 7 => decide (byteAt p 4 ≤ 13) && decide (7 ≤ byteAt p 5) && decide (byteAt p 5 ≤ 12) && decide (byteAt p 6 ≤ 63)
      && decide (byteAt p 7 ≤ 1) && decide (1 ≤ u16At p 10) && decide (u16At p 10 ≤ 4096)
  | 8 => (byteAt p 4 == 1 || byteAt p 4 == 2) && liftOk (u16At p 6)
  | 9 => (byteAt p 4 == 1 || byteAt p 4 == 2) && decide (25 ≤ u32At p 12) && decide (u32At p 12 ≤ 8448)
  | 10 => decide (byteAt p 4 ≤ 1) && decide (byteAt p 5 ≤ 63)
  | 11 => decide (1 ≤ u32At p 12) && decide (u32At p 12 ≤ 65504)
  | _ => true

/-- The header's reserved bits, and the locus of a type that uses none, are zero (R55, R58, R59). -/
def headZeros (rtype : Nat) (r : RecIn) : Bool :=
  decide (r.flags.toNat < 2) && decide (r.channel.toNat < 32768) &&
  match rtype with
  | 1 | 2 | 3 => true
  | 10 => r.locus.toNat % 1048576 == 0
  | 12 | 13 => r.locus == 0 && r.flags == 0 && r.channel == 0
  | _ => r.locus == 0

/-- The causes of R62 that a record shows by itself. -/
def layoutCauses (rtype : Nat) (last : Bool) (r : RecIn) : List Nat :=
  let p := r.payload
  (if headZeros rtype r && payloadZeros rtype p then [] else [2])
    ++ (match dataEnd rtype p with
      | some n =>
        if r.length.toNat ≠ 1 + cdiv n 16 then [3] else if paddingZeros rtype n p then [] else [2]
      | none => [])
    ++ (if valuesOk rtype last p then [] else [7])

/-! ## What an inference channel expects (R61, R62, R79, R81, R86, R170) -/

/-- The records of one token, in plan order: the plan without its BATCH_END entry. -/
def tokenPlan (m : Model) : List PlanE := m.prog.plan.filter (fun e => e.rtype != 5)

/-- Records that carry a plan entry. -/
def entryTiles (e : PlanE) : Nat := if isTensorType e.rtype then max 1 e.tiles else 1

/-- The op at a locus is declared banded-input. -/
def isBanded (m : Model) (locus : Nat) : Bool := (tokenPlan m).any (fun e => e.rtype == 2 && e.locus / 4096 == locus / 4096)

/-- The locus a record of a plan entry carries: the tile index, or the first query head of ATTN_OUT. -/
def wantLocus (m : Model) (e : PlanE) (tile : Nat) : Nat :=
  if e.rtype = 3 ∧ m.manifest.dHead ≠ 0 then e.locus + tile * e.tileElems / m.manifest.dHead % 4096
  else if e.rtype = 10 then e.locus / 1048576 * 1048576
  else e.locus + tile

/-- Elements of a tile: the last one holds the rest. -/
def tileCount (e : PlanE) (tile : Nat) : Nat :=
  if tile + 1 < e.tiles then e.tileElems else e.width - (e.tiles - 1) * e.tileElems

/-- Canary frames outstanding that no open batch of the channel has taken (R86). (DEDUCED, log entry 61) -/
def canaryFree (d : Die) (c : Nat) (x : Chan) : Bool :=
  decide (((chanTickets d c).filter (fun b => b.canary)).length < x.canaryOut)

/-- The canary flag disagrees with the batch. (DEDUCED, log entry 61) -/
def canaryBad (d : Die) (c : Nat) (x : Chan) (ob : Option Batch) (r : RecIn) : Bool :=
  let flag := r.flags.getLsbD 0
  match ob with
  | some b => flag != b.canary
  | none => flag && !canaryFree d c x

/-- Causes of an inference record that its place in the plan shows. An OUTPUT of token ids has fmt 0 in the record and in the
plan. (DEDUCED, log entry 67) -/
def planCauses (x : Chan) (m : Model) (ob : Option Batch) (rtype : Nat) (r : RecIn) : List Nat :=
  let w := x.wrd
  let p := r.payload
  let pos := u32At p 0
  let tokens := (ob.map (fun b => b.tokens)).getD 0
  let start := w.tokRecs == 0
  if rtype = 5 then
    let first := match ob with
      | some b => b.first
      | none => none
    if !start || tokens == 0 || pos != w.nextBatch || some (u32At p 4) != first || u32At p 8 != tokens then [9] else []
  else
    let shape := match (tokenPlan m)[w.entry]? with
      | none => [5]
      | some e =>
        if rtype ≠ e.rtype then (if rtype = 2 ∧ !isBanded m r.locus.toNat then [8] else [5])
        else if isTensorType rtype then
          let s := subHead p
          (if r.locus.toNat = wantLocus m e w.tile then [] else [5])
            ++ (if s.fmt = e.fmt ∧ s.scale = sgn 8 e.scale ∧ s.first = w.tile * e.tileElems ∧ s.count = tileCount e w.tile
                then [] else [6])
        else if rtype = 10 then (if r.locus.toNat = wantLocus m e 0 then [] else [5])
        else if rtype = 6 then
          (if byteAt p 5 = e.fmt ∧ u32At p 8 = e.width then [] else [6])
            ++ (if param m.prog e.locus 9 0 = 0 ∧ u32At p 12 ≠ 0 then [7] else [])
        else if rtype = 4 ∧ u32At p 4 ≠ w.tokRecs then [9] else []
    let order : Bool := match start, tokens, w.pos with
      | false, _, some q => pos == q
      | true, _ + 1, some q => pos == w32 (q + 1)
      | _, _, _ => x.host.ctx == 0 || decide (pos ≤ w.append)
    shape ++ (if order then [] else [9]) ++ (if x.host.ctx ≠ 0 ∧ pos ≥ x.host.ctx then [7] else [])
      ++ (if start ∧ tokens ≥ x.host.maxTokens then [10] else [])

/-! ## What a radio channel expects (R192, R195, R198, R199, R203) -/

/-- The slot a radio record names. (DEDUCED, log entry 62) -/
def radioSlot (rtype : Nat) (r : RecIn) : Nat := if rtype = 5 then u32At r.payload 4 else u32At r.payload 0

/-- The place of an FFT instance in the order of R199. -/
def fftKey (p : Bytes) : Nat := (byteAt p 4 * 64 + byteAt p 6) * 2 + byteAt p 7

/-- The frame of the radio store that a RADIO_FFT record names, if it is one it may name (R192). -/
def fftFrame (d : Die) (x : Chan) (r : RecIn) : Option Held :=
  d.ing.radio.find? (fun h => h.stream == x.host.stream && h.sent && h.counter == u32At r.payload 12
    && h.slot == u32At r.payload 0 && h.symbol == byteAt r.payload 4 && h.canary == r.flags.getLsbD 0)

/-- The plan entry that lists a radio record's kind: its index. -/
def radioEntry (m : Model) (rtype : Nat) (p : Bytes) : Option Nat :=
  m.prog.plan.findIdx? (fun e =>
    let l := locLayer e.locus
    e.rtype == rtype &&
    match rtype with
    | 7 => l == byteAt p 7 * 16 + byteAt p 5
    | 8 => l / 512 == byteAt p 4 && (l % 512 == 0 || l % 512 == u16At p 6)
    | _ => l == byteAt p 4)

/-- Causes of a radio record that the slot's order shows. (DEDUCED, log entry 62; DESIGN CHOICE, log entry 219) -/
def radioCauses (d : Die) (x : Chan) (m : Model) (ob : Option Batch) (rtype : Nat) (r : RecIn) : List Nat :=
  let a : RadioArr := if ob.isSome then x.wrd.radio else { prev := x.wrd.radio.prev }
  let p := r.payload
  let slot := radioSlot rtype r
  let sameSlot := match ob with
    | some b => b.first.isNone || b.first == some slot
    | none => true
  let later := match a.prev with
    | some q => decide (slotDiff slot q > 0)
    | none => true
  (if sameSlot && later then [] else [9]) ++
  match rtype with
  | 7 =>
    let key := fftKey p
    let fresh := a.bin == 0
    let listed := (radioEntry m 7 p).isSome
    let inOrder := a.cbs == 0 && (if fresh then a.ffts == 0 || decide (a.key < key) else a.key == key && a.log2n == byteAt p 5)
    (if listed && inOrder then [] else [5])
      ++ (if u16At p 8 = a.bin ∧ u16At p 8 + u16At p 10 ≤ 2 ^ byteAt p 5 then [] else [6])
      ++ (if (fftFrame d x r).isSome && (fresh || a.frame == u32At p 12) then [] else [7])
      ++ (if fresh && decide (a.ffts ≥ x.host.maxFft) then [10] else [])
  | 8 =>
    let tb := u16At p 8
    let cb := u16At p 10
    let newTb := a.cbs == 0 || decide (a.tb < tb)
    let inOrder := a.bin == 0 && !a.await
      && (if newTb then cb == 0 else a.tb == tb && a.kind == 2 && cb == a.cb + 1)
    (if inOrder then [] else [5]) ++ (if (radioEntry m 8 p).isSome then [] else [7])
      ++ (if a.cbs ≥ x.host.maxCb ∨ (newTb ∧ a.tbs ≥ x.host.maxTb) then [10] else [])
  | 9 =>
    let inOrder := a.await && a.tb == u16At p 8 && (if byteAt p 4 = 1 then a.cb == 0 else a.cb == u16At p 10)
    if inOrder && (radioEntry m 9 p).isSome then [] else [5]
  | 5 =>
    if a.bin = 0 ∧ !a.await ∧ u32At p 0 = x.wrd.nextBatch ∧ u32At p 8 = (ob.map (fun b => b.recs)).getD 0 then [] else [9]
  | _ => [5]

/-- The verdict of a slot has been written already (R203). (DEDUCED, log entry 62) -/
def slotWritten (x : Chan) (slot : Nat) : Bool := x.verdictSlots.contains slot

/-! ## Departures and framing loss (R62, R63, R88) -/

/-- Record a departure. -/
def depart (vc ch cause rtype seq : Nat) (d : Die) : Die :=
  let d := setCap pWRD 0x058 (ch + 65536 * cause + 2097152 * vc + 8388608 * rtype) d
  raise pWRD 0 (count pWRD 0x050 (setCap pWRD 0x05C seq d))

/-- Framing loss on a virtual channel (R88 steps 1 and 2): every open batch departs, one that has departed before too. The type
captured is the one that stands in the failing header. (DEDUCED, log entry 57; DESIGN CHOICE, log entry 194) -/
def framingLoss (vc rtype : Nat) (d : Die) : Die :=
  let d := raise pWRD 2 (updWrd (fun w => { w with hunt := v3set w.hunt vc true }) d)
  (chansWhere d (fun x => chanLive x && x.host.kind != 3 && x.host.vc == vc)).foldl (fun d c =>
    match openTicket d c with
    | some b =>
      let d := modTicket b.serial (addFail b.tokens 6) d
      modArr c (fun w => { w with skip := some .departed }) (depart vc c 13 rtype (chan d c).wrd.nextSeq d)
    | none => d) d

/-! ## Staging (R90, R93, R107) -/

/-- Bytes of a record in staging. (DESIGN CHOICE, log entry 56) -/
def recSize (r : RecIn) : Nat := 16 * r.length.toNat

/-- The lead of the group that the REBUILD entries of a slot name. -/
def rebuildLead (d : Die) (slot : Nat) : Nat :=
  let es := d.cad.active.entries ++ ((model d slot).map (fun m => m.fragment)).getD []
  match es.find? (fun e => e.kind == 5 && e.target == slot) with
  | some e => (pipe d e.group).lead
  | none => 0

/-- The stream that asks for a chunk of a channel, with its model. -/
def chunkStream (d : Die) (c : Nat) : Option (Stream × Model) :=
  match d.adm.stream with
  | none => none
  | some st => ((model d st.slot).filter (fun m => m.turn != some .rpmb && m.loadChannel == c)).map (fun m => (st, m))

/-- The group to whose staging ring the record at the front of a stream goes; none where WRD only discards it. -/
def frontLead (d : Die) (vc : Nat) : Option Nat :=
  let u := v3get d.wlk.rx vc
  let c := u16At u 4 % 32768
  let x := chan d c
  match if byteAt u 0 = 11 then chunkStream d c else none with
  | some (st, _) => some (rebuildLead d st.slot)
  | none =>
    if vc < 2 && chanLive x && x.host.kind != 3 && x.wrd.skip.isNone then
      some (((openTicket d c).map (fun b => b.lead)).getD (ownerLead d x))
    else none

/-- Bytes in a group's staging ring of the record at the front of a stream, which is not whole yet (R40). -/
def partFill (d : Die) (lead vc : Nat) : Nat := if frontLead d vc = some lead then v3get d.wlk.moved vc else 0

/-- Bytes in the staging ring of a group's lead. -/
def stageFill (d : Die) (lead : Nat) : Nat :=
  sumL ((d.chn.tickets.filter (fun b => b.lead == lead)).map (fun b => sumL (b.staged.map (fun s => recSize s.r))))
    + (if d.wrd.chunkLead = lead then sumL (d.wrd.chunks.map recSize) else 0) + partFill d lead 0 + partFill d lead 1

/-- The ring of 256 KiB has room for a whole record of a VC, of which a part may be there already. -/
def stageRoom (d : Die) (lead : Nat) (r : RecIn) : Bool :=
  decide (stageFill d lead - partFill d lead r.vc.toNat + recSize r ≤ 262144)

/-- The ring has room for the whole record at the front of a stream. -/
def frontRoom (d : Die) (vc : Nat) : Bool :=
  match frontLead d vc with
  | some lead => decide (stageFill d lead - partFill d lead vc + 16 * u16At (v3get d.wlk.rx vc) 2 ≤ 262144)
  | none => true

/-- A channel may take one more ticket. -/
def ticketFree (d : Die) (c : Nat) (x : Chan) : Bool :=
  decide ((chanTickets d c).length < x.host.maxOpen) && decide (d.chn.tickets.length < 16384)

/-- WRD may begin to stage the record at the front of a stream: the batch that it would begin finds a ticket, and no hand-over drains
its group (R90, R294). -/
def frontTakes (d : Die) (vc : Nat) : Bool :=
  let c := u16At (v3get d.wlk.rx vc) 4 % 32768
  (frontLead d vc).isNone || (openTicket d c).isSome || (byteAt (v3get d.wlk.rx vc) 0 = 11 && (chunkStream d c).isSome)
    || (ticketFree d c (chan d c) && !dispatchStopped d (chan d c))

/-- A record that has not arrived whole is moved into its staging ring as far as it has arrived, where no record waits before it
and the ring has room for all of it (R40, R90). (DESIGN CHOICE, log entry 56) -/
def moveFront (vc : Nat) (d : Die) : Die :=
  let u := v3get d.wlk.rx vc
  if 16 ≤ u.length && decide (u.length < 16 * u16At u 2) && (v3get d.wrd.wait vc).isEmpty && frontRoom d vc
      && frontTakes d vc then consumePart vc d
  else d

/-- What a pipeline's staging ring holds: its group's records where it leads the group (R233). -/
def ringFill (d : Die) (n : Nat) : Nat := if groupLead d (pipe d n).lead = n then stageFill d (pipe d n).lead else 0

/-- A record has entered staging: its count, and the highest fill of the ring of the group's lead (R233). -/
def noteStaged (lead : Nat) (d : Die) : Die := peak pWRD (0x064 + 4 * groupLead d lead) (stageFill d lead / 16) (count pWRD 0x048 d)

/-! ## Tickets (R115, R294) -/

/-- The debug capture begins with the first batch of its channel while armed (R245). -/
def armLog (b : Batch) (d : Die) : Die :=
  if field d pDBG 0x04C 15 = 1 ∧ field d pDBG 0x04C 0 = b.channel ∧ !d.dbg.capturing then
    updDbg (fun g => { g with
      log := [], capturing := true, complete := false, truncated := false, logSerial := b.serial, logMonth := b.month
      logSlot := (chan d b.channel).host.slot, logChan := b.channel }) d
  else d

/-- A stage event of a batch of a watched channel goes to the Warden (R368, R374). -/
def tellStage (b : Batch) (stage : Nat) (d : Die) : Die :=
  let x := chan d b.channel
  if x.host.safety && x.host.kind == 1 && !b.canary then tellWarden (.stage b.channel stage (timedSlot d b) (symIndex d)) d else d

/-- A batch of a channel that begins: it binds the active Month (R115). (DESIGN CHOICE, log entry 68) -/
def newBatch (d : Die) (c : Nat) (m : Model) (canary : Bool) : Batch :=
  let x := chan d c
  let lead := ownerLead d x
  { channel := c, serial := d.chn.serial, lead := lead, month := m.active.month, monthNs := m.switchNs
    strict := strictOn d, pairing := pairingOf d lead, canary := canary, batchNo := x.wrd.nextBatch
    ordinal := x.batchesOpen, lates := if m.active.poisoned then [21] else []
    noFirst := w32 (Config.noFirst c x.wrd.nextBatch), alone := x.coupled && !peerCounts d }

/-- A batch has its ticket. -/
def addTicket (b : Batch) (d : Die) : Die :=
  let d := updChn (fun n => { n with serial := n.serial + 1, tickets := n.tickets ++ [b] }) d
  peak pCHN 0x05C d.chn.tickets.length d

/-- Take a ticket for a batch that begins. -/
def takeTicket (c : Nat) (canary : Bool) (d : Die) : Die :=
  let x := chan d c
  match model d x.host.slot with
  | none => d
  | some m =>
    let early := d.spk.early.find? (fun e => e.1 == c && e.2.batchNo == x.wrd.nextBatch)
    let b : Batch := { newBatch d c m canary with peer := early.map (fun e => e.2) }
    let d := updSpk (fun q => { q with early := q.early.filter (fun e => some e != early) }) d
    let d := addTicket b d
    let d := modChan c (fun x => { x with
      batchesOpen := if canary then x.batchesOpen else x.batchesOpen + 1
      wrd := { x.wrd with entry := 0, tile := 0, pos := none, tokRecs := 0, radio := { prev := x.wrd.radio.prev } } }) d
    armLog b d

/-- One record word of the captured batch enters the log of 256 KiB (R245). -/
def logRecord (serial : Nat) (s : Staged) (d : Die) : Die :=
  if d.dbg.capturing && d.dbg.logSerial == serial then
    if sumL (d.dbg.log.map (fun q => recSize q.r)) + recSize s.r > 262144 then
      setField 0 pDBG 0x04C 15 0 (updDbg (fun g => { g with capturing := false, truncated := true }) d)
    else
      let d := updDbg (fun g => { g with log := g.log ++ [s] }) d
      if s.rtype = 5 then setField 0 pDBG 0x04C 15 0 (updDbg (fun g => { g with capturing := false, complete := true }) d) else d
  else d

/-! ## Closing a batch (R63, R81, R82) -/

/-- The BATCH_END comes at or after the arrival deadline of a batch that names `first` (R82, R202, R268). -/
def arrivalLate (d : Die) (x : Chan) (b : Batch) (first : Nat) : Bool :=
  if x.host.kind = 2 then
    let diff := slotDiff (slotCount d) first
    let s := slotNs d.tim.mu
    decide (0 ≤ diff) && decide ((diff.toNat * s + d.tim.air % s) * 14 ≥ x.host.arrSym * s)
  else
    match b.window with
    | some w => decide ((d.tim.air - w.slotNs) * 11 ≥ (w.start + w.arr) * 10)
    | none => false

/-- A BATCH_END closes the batch whose records are arriving and sets the base for what follows. -/
def closeBatch (c : Nat) (whole : Bool) (r : RecIn) (d : Die) : Die :=
  let x := chan d c
  let p := r.payload
  let d := match openTicket d c with
    | some b =>
      let first := u32At p 4
      let d := modTicket b.serial (fun b => { b with
        batchNo := u32At p 0, first := some first, endUnits := u32At p 8, closed := true, complete := whole
        endLate := arrivalLate d x b first }) d
      tellStage b 3 d
    | none => d
  let d := if x.host.kind = 2 ∧ !r.flags.getLsbD 0 then
      modArr c (fun w => { w with radio := { w.radio with prev := some (w.radio.cur.getD (u32At p 4)), cur := none } }) d else d
  modArr c (fun w => { w with skip := none, nextSeq := w32 (r.seq.toNat + 1), nextBatch := w32 (u32At p 0 + 1) }) d

/-! ## Accepting a record -/

/-- Arrival state after an inference record of the plan. -/
def stepPlan (m : Model) (rtype pos : Nat) (w : Arrival) : Arrival :=
  if rtype = 4 then { w with entry := 0, tile := 0, tokRecs := 0, pos := some pos, append := w32 (pos + 1) }
  else
    let tiles := match (tokenPlan m)[w.entry]? with
      | some e => entryTiles e
      | none => 1
    let w := { w with tokRecs := w.tokRecs + 1, pos := some pos }
    if w.tile + 1 < tiles then { w with tile := w.tile + 1 } else { w with entry := w.entry + 1, tile := 0 }

/-- Arrival state after a radio record. -/
def stepRadio (rtype : Nat) (p : Bytes) (a : RadioArr) : RadioArr :=
  match rtype with
  | 7 =>
    let past := u16At p 8 + u16At p 10
    { a with key := fftKey p, log2n := byteAt p 5, frame := u32At p 12, ffts := if a.bin = 0 then a.ffts + 1 else a.ffts
             bin := if past = 2 ^ byteAt p 5 then 0 else past }
  | 8 => { a with tbs := if a.cbs = 0 ∨ a.tb ≠ u16At p 8 then a.tbs + 1 else a.tbs
                  tb := u16At p 8, cb := u16At p 10, cbs := a.cbs + 1, await := true }
  | 9 => { a with await := false, kind := byteAt p 4 }
  | _ => a

/-- The plan entry that a record in staging stands for. -/
def entryOf (x : Chan) (m : Model) (rtype : Nat) (p : Bytes) : Nat :=
  if x.host.kind = 2 then (radioEntry m rtype p).getD 0
  else if rtype = 5 then (tokenPlan m).length else x.wrd.entry

/-- A record that departs from nothing joins the batch of a ticket. (DEDUCED, log entry 66) -/
def stage (c : Nat) (m : Model) (b : Batch) (rtype : Nat) (r : RecIn) (d : Die) : Die :=
  let x := chan d c
  let p := r.payload
  let s : Staged := { rtype := rtype, r := r, entry := entryOf x m rtype p, token := b.tokens }
  let radio := x.host.kind == 2
  let outs := rtype == 6 || (radio && rtype != 5)
  let body := p.take ((dataEnd rtype p).getD 0)
  let frame := if radio && rtype == 7 && !b.frames.contains (u32At p 12) then fftFrame d x r else none
  let d := modTicket b.serial (fun b => { b with
    staged := b.staged ++ [s]
    recs := if rtype = 5 then b.recs else b.recs + 1
    tokens := if rtype = 4 then b.tokens + 1 else b.tokens
    first := match b.first with
      | some f => some f
      | none => if rtype = 5 then none else some (u32At p 0)
    rewind := b.rewind || (b.first.isNone && !radio && x.host.ctx != 0 && rtype != 5 && decide (u32At p 0 < x.wrd.append))
    outBytes := if outs then b.outBytes ++ body else b.outBytes
    lastOut := if rtype = 6 then body else b.lastOut
    frames := match frame with
      | some h => b.frames ++ [h.counter]
      | none => b.frames
    inDigs := match frame with
      | some h => b.inDigs ++ [h.digest]
      | none => b.inDigs }) d
  let d := if b.recs = 0 && b.staged.isEmpty then tellStage b 2 d else d
  let d := logRecord b.serial s (noteStaged b.lead d)
  if rtype = 5 then closeBatch c true r d
  else
    modArr c (fun w =>
      let w := { w with nextSeq := w32 (r.seq.toNat + 1) }
      if radio then { w with radio := { stepRadio rtype p w.radio with
        cur := if b.canary then w.radio.cur else some ((b.first).getD (u32At p 0)) } } else stepPlan m rtype (u32At p 0) w) d

/-! ## A record of a channel -/

/-- A record that departs: its batch fails, and the rest of the batch is discarded (R63). (DEDUCED, log entry 60) -/
def departRecord (vc c cause rtype : Nat) (r : RecIn) (d : Die) : Die :=
  let d := depart vc c cause rtype r.seq.toNat d
  let d := match openTicket d c with
    | some b => modTicket b.serial (addFail b.tokens 6) d
    | none => d
  if rtype = 5 then closeBatch c false r d else modArr c (fun w => { w with skip := some .departed }) d

/-- A record that is discarded behind a departure, a verdict or the end of its batch (R63, R82, R83, R91).
(DEDUCED, log entry 59) -/
def skipRecord (vc c rtype : Nat) (r : RecIn) (d : Die) : Die :=
  let d := if (chan d c).wrd.skip == some .afterVerdict then depart vc c 14 rtype r.seq.toNat d else d
  if rtype = 5 then closeBatch c false r d else d

/-- Causes of departure of a record of a channel as it stands, in no order (R62); a WEIGHT_CHUNK that no stream asks for has its
own. (DEDUCED, log entry 58) -/
def recordCauses (rtype : Nat) (r : RecIn) (m : Model) (d : Die) : List Nat :=
  let c := recChan r
  let x := chan d c
  let ob := openTicket d c
  let last := match (tokenPlan m)[x.wrd.entry]? with
    | some e => decide (x.wrd.tile + 1 ≥ e.tiles)
    | none => true
  if rtype = 11 then [12] else
  (if r.vc.toNat = x.host.vc then [] else [1]) ++ layoutCauses rtype last r
    ++ (if r.seq.toNat = x.wrd.nextSeq then [] else [4])
    ++ (if x.host.kind = 2 then radioCauses d x m ob rtype r else planCauses x m ob rtype r)
    ++ (if canaryBad d c x ob r then [11] else [])

/-- A record on VC 0 or 1 for a channel: none where it must wait for a ticket, for staging room, or for the end of a
hand-over's drain (R60, R90, R294). (DEDUCED, log entry 60) -/
def chanRecord (rtype : Nat) (r : RecIn) (d : Die) : Option Die :=
  let vc := r.vc.toNat
  let c := recChan r
  let x := chan d c
  let ob := openTicket d c
  match model d x.host.slot with
  | none => some (raise pWRD 1 (count pWRD 0x04C d))
  | some m =>
    let stop := x.state == .paused || x.pend == some .pause || m.state != .ready
    if !chanLive x || x.host.kind == 3 || (stop && ob.isNone) then some (raise pWRD 1 (count pWRD 0x04C d))
    else
      let d := if x.host.kind = 2 && ob.isNone && x.wrd.skip.isNone
          && slotWritten x (radioSlot rtype r) then modArr c (fun w => { w with skip := some .afterVerdict }) d else d
      if (chan d c).wrd.skip.isSome then some (skipRecord vc c rtype r d)
      else
        if ob.isNone && (dispatchStopped d x || !ticketFree d c x) then none
        else
          match lowest (recordCauses rtype r m d) with
          | some cause =>
            some (departRecord vc c cause rtype r (if ob.isNone then takeTicket c (r.flags.getLsbD 0) d else d))
          | none =>
            if !stageRoom d ((ob.map (fun b => b.lead)).getD (ownerLead d x)) r then none
            else
              let d := if ob.isNone then takeTicket c (r.flags.getLsbD 0) d else d
              match openTicket d c with
              | some b => some (stage c m b rtype r d)
              | none => some d

/-! ## Weight chunks (R76, R106, R107) -/

/-- The next seq of a load channel: a channel that is in service counts its chunks among its records; any other id counts from
zero at each request (R59). (DEDUCED, log entry 64) -/
def chunkSeq (d : Die) (c : Nat) (st : Stream) : Nat := if chanLive (chan d c) then (chan d c).wrd.nextSeq else st.seq

/-- A chunk continues its stream: its layout, its seq, its place in its tensor, and no MX scale byte that is no number (R76,
R106). (DEDUCED, log entry 64; DESIGN CHOICE, log entry 197) -/
def chunkGood (d : Die) (st : Stream) (m : Model) (r : RecIn) : Bool :=
  let p := r.payload
  match m.manifest.tensors[st.tensor]? with
  | some t =>
    (layoutCauses 11 true r).isEmpty && r.flags == 0 && r.seq.toNat == chunkSeq d (recChan r) st && u32At p 0 == st.tensor
      && u64At p 4 == st.offset && decide (st.offset + u32At p 12 ≤ t.bytes) && !chunkNan t st.offset (slice p 16 (u32At p 12))
  | none => false

/-- A chunk that departs during its stream: the stream ends, and an open batch of the channel fails (R63, R106).
(DEDUCED, log entry 65) -/
def chunkDeparts (slot : Nat) (r : RecIn) (d : Die) : Die :=
  let c := recChan r
  let vc := r.vc.toNat
  failStream slot 11 (if (openTicket d c).isSome then departRecord vc c 12 11 r d else depart vc c 12 11 r.seq.toNat d)

/-- A chunk that its stream takes joins the staging ring of the building group. -/
def stageChunk (lead : Nat) (st : Stream) (m : Model) (r : RecIn) (d : Die) : Die :=
  let past := st.offset + u32At r.payload 12
  let size := ((m.manifest.tensors[st.tensor]?).map (fun t => t.bytes)).getD 0
  let next := w32 (r.seq.toNat + 1)
  let st := { st with seq := next }
  let st := if past = size then { st with tensor := nextTensor m.manifest st.turn (st.tensor + 1), offset := 0 }
    else { st with offset := past }
  let d := updWrd (fun w => { w with chunks := w.chunks ++ [r], chunkLead := lead }) d
  let d := modArr (recChan r) (fun w => { w with nextSeq := next }) d
  noteStaged lead (updAdm (fun a => { a with stream := some st }) d)

/-- A WEIGHT_CHUNK: none where the staging ring of the building group lacks room. On a channel in service that discards its records
up to a BATCH_END it is discarded with them (R63). Outside a stream it departs, on a channel in
service as any record of it does. (DEDUCED, log entry 65) -/
def chunkRecord (r : RecIn) (d : Die) : Option Die :=
  let c := recChan r
  match chunkStream d c with
  | some (st, m) =>
    let lead := rebuildLead d st.slot
    if chanLive (chan d c) && (chan d c).wrd.skip.isSome then some (skipRecord r.vc.toNat c 11 r d)
    else if !chunkGood d st m r then some (chunkDeparts st.slot r d)
    else if !stageRoom d lead r then none
    else some (stageChunk lead st m r d)
  | none =>
    if chanLive (chan d c) && (chan d c).host.kind != 3 then chanRecord 11 r d
    else some (depart r.vc.toNat c 12 11 r.seq.toNat d)

/-! ## Virtual channel 2 (R59, R77, R78, R295) -/

/-- A RATCHET_BUMP or a HEARTBEAT: applied whatever its seq; one that breaks its layout departs on channel 0. -/
def vc2Record (rtype : Nat) (r : RecIn) (d : Die) : Die :=
  let seq := r.seq.toNat
  let p := r.payload
  let d := if seq = d.wrd.vc2Next then d else raise pWRD 5 (count pWRD 0x054 d)
  let d := updWrd (fun w => { w with vc2Next := w32 (seq + 1) }) d
  match lowest (layoutCauses rtype true r) with
  | some cause => depart 2 0 cause rtype seq d
  | none =>
    if rtype = 12 then raiseRat 2 (u16At p 0) (u64At p 8) d
    else setCap pWRD 0x060 (u32At p 0) (updWrd (fun w => { w with hbOk := true, hbStatus := u32At p 4 }) d)

/-- HEARTBEAT_TIMEOUT: none within hb_timeout_us, measured while the link is UP. -/
def heartbeatTimeout (d : Die) : Die :=
  if d.wlk.state == .up then raise pWRD 3 (updWrd (fun w => { w with hbOk := false }) d) else d

/-! ## The byte streams (R42, R88) -/

/-- The record as its header's length cuts it from the stream. -/
def cutRecord (r : RecIn) : RecIn := { r with payload := fitTo (16 * r.length.toNat - 16) r.payload }

/-- A record's bytes are moved on, if they stand at the front of their virtual channel's stream. -/
def consumeRec (rtype : Nat) (r : RecIn) (d : Die) : Die :=
  let bs := recBytes rtype r
  if (v3get d.wlk.rx r.vc.toNat).take bs.length = bs then consume r.vc.toNat bs.length d else d

/-- Deal with what stands at the front of a stream: a unit that is no header is framing loss, and while the channel
hunts, units are discarded until one is a header; at most `fuel` units. -/
def settleStream (vc : Nat) : Nat → Die → Die
  | 0, d => d
  | fuel + 1, d =>
    let u := (v3get d.wlk.rx vc).take 16
    if u.length < 16 then d
    else if v3get d.wrd.hunt vc then
      if unitIsHeader vc u then updWrd (fun w => { w with hunt := v3set w.hunt vc false }) d
      else settleStream vc fuel (consume vc 16 d)
    else if crc16 (u.take 14) = u16At u 14 ∧ 2 ≤ u16At u 2 ∧ u16At u 2 ≤ 4096 ∧ typeOnVc (byteAt u 0) vc then d
    else settleStream vc fuel (framingLoss vc (byteAt u 0) d)

/-- Settle a stream after its front has moved or its end has grown. (DESIGN CHOICE, log entry 56) -/
def settle (vc : Nat) (d : Die) : Die := moveFront vc (settleStream vc (2 * (v3get d.wlk.rx vc).length + 2) d)

/-- Try one record whose header is good. -/
def tryRecord (rtype : Nat) (r : RecIn) (d : Die) : Option Die :=
  (if r.vc.toNat = 2 then some (vc2Record rtype r d) else if rtype = 11 then chunkRecord r d else chanRecord rtype r d).map
    (fun d => settle r.vc.toNat (consumeRec rtype r d))

/-- The first record of a batch finds no ticket (R294). -/
def lacksTicket (d : Die) (rtype : Nat) (r : RecIn) : Bool :=
  let c := recChan r
  (rtype != 11 || (chunkStream d c).isNone && chanLive (chan d c)) && (openTicket d c).isNone && !d.vp.draining
    && !ticketFree d c (chan d c)

/-- The record that waits first on a virtual channel waits for a ticket: counted once (R294, R298, R299). -/
def noteWait (vc : Nat) (d : Die) : Die :=
  match v3get d.wrd.wait vc with
  | s :: t =>
    if s.token = 0 && lacksTicket d s.rtype s.r then
      raise pCHN 3 (count pCHN 0x068 (updWrd (fun w => { w with wait := v3set w.wait vc ({ s with token := 1 } :: t) }) d))
    else d
  | [] => d

/-- Hold a record on its virtual channel, with its credits. -/
def holdRecord (rtype : Nat) (r : RecIn) : Die → Die :=
  updWrd (fun w => { w with
    wait := v3set w.wait r.vc.toNat (v3get w.wait r.vc.toNat ++ [{ rtype := rtype, r := r, entry := 0, token := 0 }]) })

/-- WRD meets a record on an upstream virtual channel. -/
def record (rtype : Nat) (r0 : RecIn) (d : Die) : Die :=
  let r := cutRecord r0
  let vc := r.vc.toNat
  if vc > 2 then d
  else if !(v3get d.wrd.wait vc).isEmpty then holdRecord rtype r d
  else
    let resumes := headOk rtype r && decide (r.flags.toNat < 2) && decide (r.channel.toNat < 32768)
    let d := if v3get d.wrd.hunt vc && resumes then updWrd (fun w => { w with hunt := v3set w.hunt vc false }) d else d
    if v3get d.wrd.hunt vc then settle vc (consumeRec rtype r d)
    else if !headOk rtype r then settle vc (consumeRec rtype r (framingLoss vc rtype d))
    else
      match tryRecord rtype r d with
      | some d => d
      | none => noteWait vc (holdRecord rtype r d)

/-- Work through what a virtual channel holds, until a record must wait; at most `fuel` records. -/
def retryVc (vc : Nat) : Nat → Die → Die
  | 0, d => d
  | fuel + 1, d =>
    match v3get d.wrd.wait vc with
    | [] => d
    | s :: t =>
      let d1 := updWrd (fun w => { w with wait := v3set w.wait vc t }) d
      if !headOk s.rtype s.r then retryVc vc fuel (settle vc (consumeRec s.rtype s.r (framingLoss vc s.rtype d1)))
      else
        match tryRecord s.rtype s.r d1 with
        | some d => retryVc vc fuel d
        | none => noteWait vc d

/-- Try again every record that waits. -/
def retryHeld (d : Die) : Die := [0, 1].foldl (fun d vc => retryVc vc (v3get d.wrd.wait vc).length d) d

/-! ## The commands -/

/-- A flit arrives in HELLO or UP: it is handled, then the streams that it has lengthened (R36, R42, R88). -/
def takeFlit (f : Flit) (d : Die) : Die :=
  if d.wlk.state == .hello || d.wlk.state == .up then [0, 1, 2].foldl (fun d v => settle v d) (rxFlit f d) else rxFlit f d

/-- DATA_FLIT. -/
def execDataFlit (d : DieId) (flit : Flit) (s : State) : Host.Outcome State Fault Refusal := runDie d (takeFlit flit) s

/-- IDLE_FLIT. -/
def execIdleFlit (d : DieId) (flit : Flit) (s : State) : Host.Outcome State Fault Refusal := runDie d (takeFlit flit) s

/-- HELLO. -/
def execHello (d : DieId) (flit : Flit) (s : State) : Host.Outcome State Fault Refusal := runDie d (takeFlit flit) s

/-- LAYER_OUT. -/
def execLayerOut (d : DieId) (r : RecIn) (s : State) : Host.Outcome State Fault Refusal := runDie d (record 1 r) s

/-- LAYER_IN. -/
def execLayerIn (d : DieId) (r : RecIn) (s : State) : Host.Outcome State Fault Refusal := runDie d (record 2 r) s

/-- ATTN_OUT. -/
def execAttnOut (d : DieId) (r : RecIn) (s : State) : Host.Outcome State Fault Refusal := runDie d (record 3 r) s

/-- TOKEN_END. -/
def execTokenEnd (d : DieId) (r : RecIn) (s : State) : Host.Outcome State Fault Refusal := runDie d (record 4 r) s

/-- BATCH_END. -/
def execBatchEnd (d : DieId) (r : RecIn) (s : State) : Host.Outcome State Fault Refusal := runDie d (record 5 r) s

/-- OUTPUT. -/
def execOutput (d : DieId) (r : RecIn) (s : State) : Host.Outcome State Fault Refusal := runDie d (record 6 r) s

/-- RADIO_FFT. -/
def execRadioFft (d : DieId) (r : RecIn) (s : State) : Host.Outcome State Fault Refusal := runDie d (record 7 r) s

/-- RADIO_LDPC. -/
def execRadioLdpc (d : DieId) (r : RecIn) (s : State) : Host.Outcome State Fault Refusal := runDie d (record 8 r) s

/-- RADIO_TB. -/
def execRadioTb (d : DieId) (r : RecIn) (s : State) : Host.Outcome State Fault Refusal := runDie d (record 9 r) s

/-- SHARD_DIGEST. -/
def execShardDigest (d : DieId) (r : RecIn) (s : State) : Host.Outcome State Fault Refusal := runDie d (record 10 r) s

/-- WEIGHT_CHUNK. -/
def execWeightChunk (d : DieId) (r : RecIn) (s : State) : Host.Outcome State Fault Refusal := runDie d (record 11 r) s

/-- RATCHET_BUMP. -/
def execRatchetBump (d : DieId) (r : RecIn) (s : State) : Host.Outcome State Fault Refusal := runDie d (record 12 r) s

/-- HEARTBEAT. -/
def execHeartbeat (d : DieId) (r : RecIn) (s : State) : Host.Outcome State Fault Refusal := runDie d (record 13 r) s

/-- HEARTBEAT_TIMEOUT. -/
def execHeartbeatTimeout (d : DieId) (s : State) : Host.Outcome State Fault Refusal := runDie d heartbeatTimeout s

/-- STAGING_ROOM_FREE: the ring of a lead has room again. -/
def execStagingRoomFree (d : DieId) (lead : BitVec 3) (s : State) : Host.Outcome State Fault Refusal :=
  runDie d (fun x => if stageFill x lead.toNat < 262144 then retryHeld x else x) s

/-- TICKET_AVAILABLE: a ticket has been released. -/
def execTicketAvailable (d : DieId) (s : State) : Host.Outcome State Fault Refusal := runDie d retryHeld s

end Sys2Proof.Machine
end

