-- ==== Sys2Proof/Machine/Ingress.lean ====
section
/-! DEFINITION. The ingress tap: its checks, the stamp, the frame stores, forwarding, canaries, and the batches of
Sentinel channels that frames begin (R43, R84, R86, R192, R274, R290, R313, R320 to R331). -/

namespace Sys2Proof.Machine

/-! ## Frames at the port (R320 to R323) -/

/-- The page of an ingress port. -/
def ingPage (port : Nat) : Nat := pING + port

/-- The port's link is up and its page enabled. -/
def portUp (d : Die) (port : Nat) : Bool :=
  d.regs.enabled.contains (ingPage port) && (if port = 0 then d.ing.up0 else d.ing.up1)

/-- What an Ethernet frame carries behind its addresses: its VLAN id if it has one tag, its Ethertype, and the rest. -/
structure EthBody where
  vid  : Option Nat
  typ  : Nat
  body : Bytes
  deriving DecidableEq, Repr

/-- Take one VLAN tag off a frame. (PRESUMED, log entry 10; DEDUCED, log entry 32) -/
def ethBody (b : Bytes) : EthBody :=
  let t := beVal (slice b 12 2)
  if t = 0x8100 then { vid := some (beVal (slice b 14 2) % 4096), typ := beVal (slice b 16 2), body := b.drop 18 }
  else { vid := none, typ := t, body := b.drop 14 }

/-- The MAC takes a frame: unicast to ING_MAC, so none while that address has its group bit set; at most 9,600 bytes with the FCS,
at most one VLAN tag, and the VLAN id where it is checked (R320). (DEDUCED, log entry 32) -/
def macTakes (d : Die) (port : Nat) (b : Bytes) : Bool :=
  let p := ingPage port
  let mac := leBytes 4 (field d p 0x044 0) ++ leBytes 2 (field d p 0x048 0)
  b.take 6 == mac && !tst (byteAt b 0) 0 && decide (b.length + 4 ≤ 9600) && decide (14 ≤ b.length)
    && (ethBody b).typ != 0x8100 && (field d p 0x040 1 == 0 || (ethBody b).vid == some (field d p 0x040 2))

/-- Kind and key of a frame: 1 and the UDP destination port, or 2 and the PC_ID; kind 0 for anything else. -/
def frameKey (e : EthBody) : Nat × Nat :=
  let ihl := byteAt e.body 0 % 16 * 4
  if e.typ = 0x0800 ∧ byteAt e.body 0 / 16 = 4 ∧ 20 ≤ ihl ∧ byteAt e.body 9 = 17 then (1, beVal (slice e.body (ihl + 2) 2))
  else if e.typ = 0xAEFE then (2, beVal (slice e.body 4 2))
  else (0, 0)

/-- A field of a stream table entry. -/
def strm (d : Die) (s off lo : Nat) : Nat := fieldSel d s pING off lo

/-- The enabled stream entry that a frame on a port matches (R321). -/
def matchStream (d : Die) (port : Nat) (key : Nat × Nat) : Option Nat :=
  (List.range 16).find? (fun s =>
    strm d s 0x058 0 == 1 && strm d s 0x058 1 == port && strm d s 0x058 2 == key.1 && strm d s 0x05C 0 == key.2)

/-- A frame as the tap reads it: its counter field, its capture time where it carries one, and its payload. -/
structure TapFrame where
  counter : Nat
  capture : Option Nat
  payload : Bytes
  crcOk   : Bool
  deriving DecidableEq, Repr

/-- Read a sensor envelope; none where its form is wrong (R322). (PRESUMED, log entry 10) -/
def readEnvelope (d : Die) (port s : Nat) (b : Bytes) : Option TapFrame :=
  let ihl := byteAt b 0 % 16 * 4
  let total := beVal (slice b 2 2)
  let udp := beVal (slice b (ihl + 4) 2)
  let v := slice b (ihl + 8) (udp - 8)
  let n := u32At v 20
  if beVal (slice b 16 4) = field d (ingPage port) 0x04C 0 ∧ beVal (slice b 6 2) % 16384 = 0 ∧ total = ihl + udp
      ∧ total ≤ b.length ∧ udp = 44 + n ∧ u32At v 0 = 0x564E4553 ∧ u16At v 4 = 0x0100 ∧ byteAt v 6 = strm d s 0x05C 16
      ∧ byteAt v 7 = 0 ∧ allZero (slice v 24 8) = true ∧ 1 ≤ n ∧ n ≤ 9000 then
    some { counter := u32At v 8, capture := some (u64At v 12), payload := slice v 32 n
           crcOk := u32At v (32 + n) == crc32c (v.take (32 + n)) }
  else none

/-- Read an eCPRI message; none where its form is wrong. Its counter is the 8-bit sequence id (R323).
(PRESUMED, log entry 10) -/
def readEcpri (b : Bytes) : Option TapFrame :=
  let n := beVal (slice b 2 2)
  let e := byteAt b 7
  if byteAt b 0 = 0x10 ∧ byteAt b 1 = 0 ∧ n + 4 = b.length ∧ 4 ≤ n ∧ e = 0x80 then
    some { counter := byteAt b 6, capture := none, payload := b.drop 8, crcOk := true }
  else none

/-! ## Counters, times and the stamp (R325 to R328) -/

/-- A stream's running state. (DEDUCED, log entry 103) -/
def stream (d : Die) (s : Nat) : StreamSt := mgetD d.ing.streams s {}

/-- Change a stream's running state. -/
def modStream (s : Nat) (f : StreamSt → StreamSt) : Die → Die :=
  updIng (fun g => { g with streams := mset g.streams s (f (mgetD g.streams s {})) })

/-- The counter of a frame and how far it lies beyond the expected one; none where it is stale (R323, R325).
(DEDUCED, log entry 103) -/
def frameCounter (st : StreamSt) (kind counter : Nat) : Option (Nat × Nat) :=
  if !st.primed then some (counter, 0)
  else
    let e := if kind = 2 then (counter + 256 - st.expected % 256) % 256 else (counter + 4294967296 - st.expected % 4294967296) % 4294967296
    if e < (if kind = 2 then 128 else 2147483648) then some (w32 (st.expected + e), e) else none

/-- Air-time at the reading `v` of the ns counter between two points of the past, as both counters ran evenly. -/
def airBetween (a b : AirMark) (v : Nat) : Nat :=
  if b.ns = a.ns then b.air else a.air + (v - a.ns) * (b.air - a.air) / (b.ns - a.ns)

/-- The last stretch of the past in which the ns counter read `v`: its numerology and the air-time then; where the counter has not
read it, or not within what is kept, what the oldest or the newest point gives at the rates now.
(DEDUCED, log entry 104) -/
def airThen (t : Tim) (v : Nat) : AirMark → List AirMark → Nat × Nat
  | b, a :: r => if a.ns ≤ v ∧ v ≤ b.ns then (a.mu, airBetween a b v) else airThen t v a r
  | b, [] => (b.mu, (((b.air : Int) + ((v : Int) - (b.ns : Int)) * (airRate : Int) / (nsRate t : Int))).toNat)

/-- TIM as it stood when the ns counter read `v`: air-time and numerology (R327). (DEDUCED, log entry 104) -/
def timAt (d : Die) (v : Nat) : Tim :=
  let t := d.tim
  let now : AirMark := { ns := t.ns, air := t.air, mu := t.mu, up := t.up }
  let p := if t.ns < v then airThen t v now [] else airThen t v now t.marks
  { t with mu := p.1, air := p.2 }

/-- An air-time lies within 1 µs of a symbol boundary. -/
def nearEdge (mu air : Nat) : Bool :=
  let s := slotNs mu
  let p : Int := ((14 * (air % s) : Nat) : Int)
  (List.range 15).any (fun k => decide ((p - ((k * s : Nat) : Int)).natAbs ≤ 14000))

/-- The stamp digest (R328). -/
def stampDigest (s : Nat) (canary : Bool) (counter : Nat) (payload : Bytes) : Bytes :=
  parallelHash256 ([BitVec.ofNat 8 s, BitVec.ofNat 8 (b2n canary)] ++ leBytes 4 counter ++ leBytes 4 payload.length ++ payload)
    8192 (ascii "HW2240 frame")

/-- A stamped frame (R84). -/
def stampFrame (s : Nat) (canary uncertain : Bool) (counter capture : Nat) (t : Tim) (payload digest : Bytes) : Bytes :=
  let p := pad16 payload
  let b := leBytes 2 ((64 + p.length + 16) / 16) ++ [BitVec.ofNat 8 s, BitVec.ofNat 8 (b2n canary + 2 * b2n uncertain)]
    ++ leBytes 4 counter ++ leBytes 4 (slotCountOf t) ++ leBytes 4 (airPos t) ++ leBytes 8 capture
    ++ leBytes 4 payload.length ++ zeros 4 ++ fitTo 32 digest ++ p
  b ++ leBytes 4 (crc32c b) ++ zeros 12

/-! ## The stores (R192, R290, R313) -/

/-- The oldest frames lose their payload until the store of 64 MiB holds the rest: an FFT instance on one of them can not be
compared any more. At most `fuel` of them. (DESIGN CHOICE, log entry 100) -/
def fitStore : Nat → List Held → List Held
  | 0, l => l
  | fuel + 1, l =>
    if sumL (l.map (fun h => h.payload.length)) ≤ 67108864 then l
    else
      match l with
      | [] => []
      | h :: r => { h with payload := [], gone := true } :: fitStore fuel r

/-- Frames of slots more than 1,048,576 slots past leave the radio store. (DESIGN CHOICE, log entry 205) -/
def pastSlots (now : Nat) (l : List Held) : List Held := l.filter (fun h => decide (slotDiff now h.slot ≤ 1048576))

/-- A live radio channel names the stream. -/
def radioNames (d : Die) (s : Nat) : Bool := d.chn.tab.any (fun e => chanLive e.2 && e.2.host.kind == 2 && e.2.host.stream == s)

/-- Channels of which a forwarded frame begins a batch: the first frame that R290 assigns to it. -/
def beginsBatch (d : Die) (s : Nat) : List Nat :=
  let n := (stream d s).fwd
  chansWhere d (fun x => x.state == .opened && x.host.safety && bindsFrames x && x.host.stream == s
    && (n - x.fwdBase) % max 1 x.host.frames == 0)

/-- A forwarded frame joins its stream: its number, its digest, its place in the radio store, and the count of frames
bound to the OPEN channels that bind it. -/
def noteForwarded (h : Held) (d : Die) : Die :=
  let d := if h.canary then d else
    let d := (beginsBatch d h.stream).foldl (fun d c => tellWarden (.stage c 1 h.slot (symIndex d)) d) d
    let d := modStream h.stream (fun st => { st with
      fwd := st.fwd + 1, digests := (mset st.digests st.fwd (h.slot, h.digest)).drop (st.digests.length + 1 - 4096) }) d
    updChn (fun n => { n with tab := mmap n.tab (fun x =>
      if x.state == .opened && bindsFrames x && x.host.stream == h.stream then { x with framesBound := w32 (x.framesBound + 1) }
      else x) }) d
  if radioNames d h.stream then updIng (fun g => { g with radio := fitStore (g.radio.length + 1) (pastSlots h.slot g.radio ++ [h]) }) d else d

/-- Bytes that wait downstream, of 1 MiB. -/
def downBytes (d : Die) : Nat :=
  sumL (d.ing.queue.map (fun f => f.bytes.length)) + sumL (d.wlk.dsTx0.map (fun f => f.left.length))

/-! ## Batches of Sentinel channels (R290, R294, R313) -/

/-- The lead of copy A of an image: that of its SENTINEL entries in half 0 (R303, R315). -/
def copyLead (d : Die) (image : Nat) : Option Nat :=
  (d.cad.active.entries.find? (fun e => e.kind == 7 && e.target == image && decide (e.group < 3))).map (fun e => (pipe d e.group).lead)

/-- A batch of a Sentinel channel begins: its record bears copy A's lead (R315). -/
def takeSentinel (c : Nat) (d : Die) : Die :=
  let x := chan d c
  let lead := (copyLead d (x.host.slot - 64)).getD (ownerLead d x)
  let b : Batch :=
    { channel := c, serial := d.chn.serial, lead := lead, strict := strictOn d, pairing := pairingOf d lead, closed := true
      batchNo := x.wrd.nextBatch, ordinal := x.batchesOpen, noFirst := w32 (Config.noFirst c x.wrd.nextBatch) }
  modChan c (fun x => { x with
    batchesOpen := x.batchesOpen + 1, wrd := { x.wrd with nextBatch := w32 (x.wrd.nextBatch + 1) } }) (addTicket b d)

/-- A new batch of a Sentinel channel may begin: a ticket is free and dispatch has not stopped (R242, R244, R294). -/
def mayBegin (d : Die) (c : Nat) : Bool := ticketFree d c (chan d c) && !dispatchStopped d (chan d c)

/-- Give a held frame to its batch, the one of its number since the channel became OPEN (R290, R313): that batch is begun for it
where it may begin. The frame of a batch that has ended without it is dropped. -/
def assignFrame (c : Nat) (d : Die) (h : Held) : Die :=
  let d := if h.no = (chan d c).batchesOpen && mayBegin d c then takeSentinel c d else d
  match (chanTickets d c).find? (fun b => b.ordinal == h.no && !b.complete) with
  | some b =>
    modTicket b.serial (fun b => { b with complete := true, inDigs := [h.digest] })
      (updIng (fun g => { g with sentinel := g.sentinel.map (fun k => if k == h then { h with serial := b.serial + 1 } else k) }) d)
  | none =>
    if h.no < (chan d c).batchesOpen then updIng (fun g => { g with sentinel := g.sentinel.filter (fun k => k != h) }) d else d

/-- Give the held frames that no batch has to their batches, in the order of arrival. -/
def assignSentinel (c : Nat) (d : Die) : Die :=
  (d.ing.sentinel.filter (fun h => h.chan == c && h.serial == 0)).foldl (assignFrame c) d

/-- A frame of a stream that OPEN Sentinel channels name enters their store, whether it is forwarded or not. -/
def sentinelFrame (h : Held) (d : Die) : Die :=
  (chansWhere d (fun x => x.state == .opened && x.host.kind == 3 && x.host.stream == h.stream)).foldl (fun d c =>
    assignSentinel c (modChan c (fun x => { x with framesBound := w32 (x.framesBound + 1) })
      (updIng (fun g => { g with sentinel := g.sentinel ++ [{ h with chan := c, serial := 0, no := (chan d c).framesBound }] }) d))) d

/-! ## The tap (R324 to R330) -/

/-- A frame is discarded: its bit and its counter on the port's page. -/
def tapDrop (port bit : Nat) (d : Die) : Die :=
  raise (ingPage port) bit (count (ingPage port) (0x084 + 4 * (if bit < 5 then bit else bit - 1)) d)

/-- An accepted frame: the expected counter moves on, it is stamped, and it is forwarded or refused. -/
def tapAccept (port s counter gap capture : Nat) (uncertain : Bool) (payload : Bytes) (d : Die) : Die :=
  let p := ingPage port
  let d := count p 0x080 (modStream s (fun st => { st with expected := w32 (counter + 1), primed := true }) d)
  let d := if gap > 0 then raise p 5 (countN p 0x0A4 gap d) else d
  let t := timAt d capture
  let d := if nearEdge t.mu t.air then raise p 8 (count p 0x0A0 d) else d
  let dig := stampDigest s false counter payload
  let bytes := stampFrame s false (uncertain || timeUncertain d) counter capture t payload dig
  let up := d.wlk.state == .up
  let full := decide (downBytes d + bytes.length > 1048576)
  let h : Held := { stream := s, counter := counter, slot := slotCountOf t, symbol := symbolOf t, payload := payload
                    digest := dig, sent := up && !full, canary := false, chan := 0, serial := 0 }
  let d := sentinelFrame h (countPerms (payload.length + 10) d)
  if up && !full then
    let prompt := d.ing.queue.isEmpty && d.wlk.dsTx0.isEmpty && decide (0 < dsCredit d.wlk 0)
    let no := (stream d s).fwd
    noteForwarded h (updIng (fun g => { g with queue := g.queue ++
      [{ stream := s, canary := false, bytes := bytes, no := some no, arrived := d.tim.ns, prompt := prompt }] }) d)
  else
    let d := if up then count pWLK 0x090 d else d
    raise p 7 (count p 0x09C d)

/-- A matched frame: counter, then age (R325, R326). (DEDUCED, log entry 104) -/
def tapMatched (port s kind : Nat) (f : TapFrame) (d : Die) : Die :=
  match frameCounter (stream d s) kind f.counter with
  | none => tapDrop port 4 d
  | some (counter, gap) =>
    let now := d.tim.ns
    let arrival := now - strm d s 0x064 0
    match f.capture with
    | some c =>
      if d.tim.ptp == .locked then
        let age : Int := (now : Int) - (c : Int)
        if -(1000 * (strm d s 0x060 16 : Int)) ≤ age ∧ age ≤ 1000 * (strm d s 0x060 0 : Int) then
          tapAccept port s counter gap c false f.payload d
        else tapDrop port 6 d
      else tapAccept port s counter gap arrival true f.payload d
    | none => tapAccept port s counter gap arrival false f.payload d

/-- A frame at an ingress port (R324). -/
def tap (port : Nat) (f : EthFrame) (d : Die) : Die :=
  if !portUp d port then d
  else if !f.fcsOk then tapDrop port 0 d
  else if !macTakes d port f.bytes then d
  else
    let e := ethBody f.bytes
    let key := frameKey e
    match matchStream d port key with
    | none => tapDrop port 1 d
    | some s =>
      match (if key.1 = 1 then readEnvelope d port s e.body else readEcpri e.body) with
      | none => tapDrop port 2 d
      | some t => if t.crcOk then tapMatched port s key.1 t d else tapDrop port 3 d

/-- STAMPED_FRAME_FORWARD: the front frame of the tap goes to WLK, while the link is UP and VC 0 has a credit. -/
def forward (d : Die) : Die :=
  match d.ing.queue with
  | [] => d
  | f :: r =>
    if d.wlk.state == .up && decide (0 < dsCredit d.wlk 0) then
      let d := if f.prompt then peak (streamPage d f.stream) 0x0A8 (min 65535 (d.tim.ns - f.arrived)) d else d
      updWlk (fun w => { w with dsTx0 := w.dsTx0 ++ [{ stream := f.stream, no := f.no, left := f.bytes, begun := false }] })
        (updIng (fun g => { g with queue := r }) d)
    else d

/-! ## Canaries (R86, R274) -/

/-- The golden input of a channel's model: the payload of its first golden tensor. A radio function streams none, and
the spec does not say where its golden frame comes from nor how long it is: a value fixed by the program and its golden digest.
(DESIGN CHOICE, log entry 102) -/
def goldenInput (d : Die) (x : Chan) : Bytes :=
  match model d x.host.slot with
  | none => []
  | some m =>
    match m.manifest.tensors.findIdx? (fun t => t.role == 3) with
    | some i => mgetD m.retained i []
    | none => Config.goldenFrame (m.manifest.programDigest ++ m.manifest.goldenDigest)

/-- A canary frame of a channel takes its place on the path of a stream, in its own slot or late.
(DESIGN CHOICE, log entry 101) -/
def putCanary (late : Bool) (c s : Nat) (d : Die) : Die :=
  let x := chan d c
  let payload := goldenInput d x
  let n := (stream d s).canaries
  let dig := stampDigest s true n payload
  let bytes := stampFrame s true (timeUncertain d) n d.tim.ns d.tim payload dig
  let h : Held := { stream := s, counter := n, slot := slotCount d, symbol := symbolOf d.tim, payload := payload, digest := dig
                    sent := true, canary := true, chan := 0, serial := 0 }
  let d := noteForwarded h (modStream s (fun st => { st with canaries := w32 (st.canaries + 1) }) d)
  let d := modChan c (fun x => { x with canaryOut := x.canaryOut + 1, canaryDigs := x.canaryDigs ++ [dig], canaryLate := x.canaryLate ++ [late] }) d
  let d := countPerms (payload.length + 10) d
  updWlk (fun w => { w with dsTx0 := w.dsTx0 ++ [{ stream := s, no := none, left := bytes, begun := false }] }) d

/-- A canary window is missed; two in a row make the channel's canary overdue. (DESIGN CHOICE, log entry 101) -/
def missCanary (c s : Nat) (d : Die) : Die :=
  let n := mgetD d.cad.misses s 0 + 1
  let d := raise pCAD 4 (count pCAD 0x088 (updCad (fun q => { q with misses := mset q.misses s n }) d))
  if n ≥ 2 then raise pCAD 5 (modChan c (fun x => { x with canaryOverdue := true }) d) else d

/-- At a CANARY entry's cycle in its own slot, or at this position in a slot in which its canary waits; without a credit the
window of its own slot is missed, once, and the canary waits. (DESIGN CHOICE, log entries 101, 102) -/
def canaryAt (own : Bool) (c s : Nat) (d : Die) : Die :=
  let x := chan d c
  if field d pCAD 0x040 0 = 0 ∨ x.state != .opened ∨ !x.host.canary then d
  else if d.wlk.state == .up && decide (0 < dsCredit d.wlk 0) then
    putCanary (!own) c s (updCad (fun q => { q with canaryWait := q.canaryWait.filter (fun w => w != (c, s)) }) d)
  else if own then missCanary c s (updCad (fun q => { q with canaryWait := q.canaryWait.filter (fun w => w != (c, s)) ++ [(c, s)] }) d)
  else d

/-! ## The commands -/

/-- SENSOR_ENVELOPE. -/
def execSensorEnvelope (d : DieId) (port : Bool) (f : EthFrame) (s : State) : Host.Outcome State Fault Refusal :=
  runDie d (tap (b2n port) f) s

/-- ECPRI_IQ_DATA. -/
def execEcpriIqData (d : DieId) (port : Bool) (f : EthFrame) (s : State) : Host.Outcome State Fault Refusal :=
  runDie d (tap (b2n port) f) s

/-- ING_LINK_CHANGE (R347). -/
def ingLink (port up : Bool) (d : Die) : Die :=
  let d := updIng (fun g => if port then { g with up1 := up } else { g with up0 := up }) d
  if up then d else raise (ingPage (b2n port)) 9 d

/-- ING_LINK_CHANGE. -/
def execIngLinkChange (d : DieId) (port up : Bool) (s : State) : Host.Outcome State Fault Refusal :=
  runDie d (ingLink port up) s

/-- STAMPED_FRAME_FORWARD. -/
def execStampedFrameForward (d : DieId) (s : State) : Host.Outcome State Fault Refusal := runDie d forward s

end Sys2Proof.Machine
end

