-- ==== Sys2Proof/Machine/Tchili.lean ====
section
/-! DEFINITION. Tchili containers, the certificates and keys behind them, trust lists, and the bulk areas that bring
them (R416, R417, R421, R424, R433). -/

namespace Sys2Proof.Machine

/-! ## Bulk areas (R433) -/

/-- The contiguous bytes from offset 0 that a bulk target has received; a later fragment overwrites an earlier one. -/
def bulkBytes (b : Bulk) : Bytes :=
  (b.parts.mergeSort (fun x y => x.1 ≤ y.1)).foldl (fun acc p =>
    if p.1 ≤ acc.length then acc.take p.1 ++ p.2 ++ acc.drop (p.1 + p.2.length) else acc) []

/-- What a bulk target holds, once every byte of its declared size has come. (DEDUCED, log entry 173) -/
def bulkWhole (d : Die) (target : Nat) : Option Bytes :=
  match mget d.key.bulk target with
  | some b => if (bulkBytes b).length = b.size then some (bulkBytes b) else none
  | none => none

/-- The content of a target has been consumed: its extents are released. -/
def bulkDone (target : Nat) : Die → Die := updKey (fun k => { k with bulk := mdel k.bulk target })

/-! ## Containers (R416) -/

/-- The fields of a container. -/
structure Tchili where
  typ     : Nat
  flags   : Nat
  svn     : Nat
  digest  : Bytes
  bindA   : Bytes
  bindB   : Bytes
  signer  : Bytes
  kind    : Nat
  cert    : Bytes
  payload : Bytes
  deriving DecidableEq, Repr

/-- Read a container. -/
def parseTchili (b : Bytes) : Tchili :=
  { typ := byteAt b 6, flags := byteAt b 7, svn := u32At b 8, digest := slice b 16 32, bindA := slice b 48 32
    bindB := slice b 80 32, signer := slice b 112 57, kind := byteAt b 169, cert := slice b 192 256
    payload := b.drop 576 }

/-- A container is laid out as R416 says and its reserved fields are zero. -/
def tchiliForm (b : Bytes) : Bool :=
  u32At b 0 == 0x4C484354 && u16At b 4 == 0x0100 && decide (1 ≤ byteAt b 6) && decide (byteAt b 6 ≤ 5)
    && decide (byteAt b 7 ≤ (if byteAt b 6 = 2 then 1 else 0)) && b.length == 576 + u32At b 12 && allZero (slice b 170 22)
    && (byteAt b 169 == 1 || (byteAt b 169 == 2 && allZero (slice b 192 256)))

/-- A certificate permits its key what a bit of the type mask names (R416, R417). (DESIGN CHOICE, log entry 183) -/
def certOk (cert signer : Bytes) (bit : Nat) : Bool :=
  let root := slice cert 64 57
  h32 root == Config.romRootDigest && edVerify root (ascii "HW2240 tchili cert") (cert.take 128) (slice cert 128 114)
    && cert.take 57 == signer && tst (byteAt cert 57) bit

/-- A die's own binding field is zero or names it; a unit map names both dies. -/
def bindOk (d : Die) (t : Tchili) : Bool :=
  let mine := if d.which = .a then t.bindA else t.bindB
  (allZero mine || mine == fitTo 32 d.key.device) && (t.typ != 4 || (!(allZero t.bindA) && !(allZero t.bindB)))

/-- A die accepts a container of a type (R417). -/
def tchiliOk (d : Die) (typ : Nat) (b : Bytes) : Bool :=
  let t := parseTchili b
  tchiliForm b && t.typ == typ && h32 t.payload == t.digest
    && edVerify t.signer (ascii "HW2240 tchili") (b.take 448) (slice b 448 114)
    && t.kind == (if typ = 1 ∨ typ = 4 then 1 else 2)
    && (if t.kind = 1 then certOk t.cert t.signer (typ - 1) else h32 t.signer == d.key.rpmb.owner)
    && bindOk d t && decide (t.svn ≥ (d.key.rpmb.svn[typ - 1]?).getD 0)

/-- A die refuses a container. -/
def refuseImage (d : Die) : Die := raise pKEY 1 d

/-- An accepted container of type 2, 3 or 5 raises its floor (R421). -/
def raiseFloor (typ svn : Nat) (d : Die) : Die :=
  if svn > (d.key.rpmb.svn[typ - 1]?).getD 0 then rpmbQueue (.svn typ svn) d else d

/-! ## Trust lists (R424) -/

/-- Read a trust list; none where its form is wrong. -/
def parseTrust (b : Bytes) : Option (List (Nat × Bytes)) :=
  let n := u16At b 6
  if u32At b 0 = 0x54535254 ∧ u16At b 4 = 0x0100 ∧ n ≤ 64 ∧ b.length = 16 + 40 * n then
    some ((pieces n 40 (b.drop 16)).map (fun e => (byteAt e 0, slice e 8 32)))
  else none

end Sys2Proof.Machine
end

