-- ==== Sys2Proof/Machine/Sentinel.lean ====
section
/-! DEFINITION. The Sentinel engine: images and their checks, the arithmetic of a run, runs in two copies, and the
resident images (R302 to R317). -/

namespace Sys2Proof.Machine

/-! ## Images (R307, R308) -/

/-- One layer of an image. -/
structure SntLayer where
  op     : Nat
  act    : Nat
  wfmt   : Nat
  afmt   : Nat
  inC    : Nat
  outC   : Nat
  inH    : Nat
  inW    : Nat
  kh     : Nat
  kw     : Nat
  stride : Nat
  pad    : Nat
  scale  : Int
  wOff   : Nat
  bOff   : Nat
  deriving DecidableEq, Repr

/-- Read a layer table entry. -/
def parseLayer (b : Bytes) : SntLayer :=
  { op := byteAt b 0, act := byteAt b 1, wfmt := byteAt b 2, afmt := byteAt b 3, inC := u16At b 4, outC := u16At b 6
    inH := u16At b 8, inW := u16At b 10, kh := byteAt b 12, kw := byteAt b 13, stride := byteAt b 14, pad := byteAt b 15
    scale := sgn 8 (byteAt b 16), wOff := u32At b 20, bOff := u32At b 24 }

/-- The layers of an image. -/
def sntLayers (p : Bytes) : List SntLayer := (pieces (byteAt p 7) 32 (p.drop 64)).map parseLayer

/-- Output height and width of a layer. -/
def layH (l : SntLayer) : Nat := (l.inH + 2 * l.pad - l.kh) / l.stride + 1
def layW (l : SntLayer) : Nat := (l.inW + 2 * l.pad - l.kw) / l.stride + 1

/-- Elements a layer takes and gives. -/
def layIn (l : SntLayer) : Nat := l.inH * l.inW * l.inC
def layOut (l : SntLayer) : Nat := layH l * layW l * l.outC

/-- A layer has weights: it is not a pooling layer. -/
def hasWeights (l : SntLayer) : Bool := decide (l.op ≤ 3)

/-- Elements of one weight row. -/
def rowElems (l : SntLayer) : Nat := if l.op = 3 then l.kh * l.kw else l.inC * l.kh * l.kw

/-- Formats of R304. -/
def sntFmt (f : Nat) : Bool := [0x01, 0x10, 0x11, 0x12, 0x13].contains f

/-- A layer entry meets R308, given whether it is the last one. -/
def layerOk (last : Bool) (b : Bytes) : Bool :=
  let l := parseLayer b
  decide (1 ≤ l.op) && decide (l.op ≤ 5) && decide (l.act ≤ 4)
    && (if hasWeights l then sntFmt l.wfmt else l.wfmt == 0)
    && (sntFmt l.afmt || (last && (l.afmt == 0x03 || l.afmt == 0x21)))
    && decide (1 ≤ l.inC) && decide (1 ≤ l.outC) && decide (1 ≤ l.inH) && decide (1 ≤ l.inW)
    && decide (1 ≤ l.kh) && decide (l.kh ≤ 15) && decide (1 ≤ l.kw) && decide (l.kw ≤ 15)
    && decide (1 ≤ l.stride) && decide (l.stride ≤ 8) && decide (l.pad ≤ 7)
    && decide (l.kh ≤ l.inH + 2 * l.pad) && decide (l.kw ≤ l.inW + 2 * l.pad)
    && (l.op != 1 || (l.inH == 1 && l.inW == 1 && l.kh == 1 && l.kw == 1 && l.stride == 1 && l.pad == 0))
    && (decide (l.op ≤ 2) || l.outC == l.inC)
    && allZero (slice b 17 3) && allZero (slice b 28 4)

/-- Each layer takes what the one before it gives. -/
def chained : List SntLayer → Bool
  | a :: b :: r => layOut a == layIn b && chained (b :: r)
  | _ => true

/-- Weights and biases of a layer lie inside the payload; a pooling layer uses no bytes at its offsets, which may then also name
the payload's end (R310). (DEDUCED, log entry 207) -/
def offsetsOk (len base : Nat) (l : SntLayer) : Bool :=
  let used (n : Nat) : Nat := if hasWeights l then n else 0
  decide (base + l.wOff + used (l.outC * rowBytes l.wfmt (rowElems l)) ≤ len)
    && (l.bOff == 0xFFFFFFFF || decide (base + l.bOff + used (4 * l.outC) ≤ len))

/-! ## Cycles (R306, R310) -/

/-- Block products of a layer. -/
def blockProducts (l : SntLayer) : Nat := if hasWeights l then layOut l * cdiv (rowElems l) 32 else 0

/-- SNT and NLE cycles of a layer with U units and L lanes. (DESIGN CHOICE, log entry 109) -/
def layerCycles (u lanes : Nat) (l : SntLayer) : Nat :=
  let n := layOut l
  let per (c : Nat) : Nat := cdiv n lanes + c
  (if hasWeights l then cdiv (blockProducts l) u + 16 else Config.poolCycles (layIn l))
    + (if hasWeights l && l.bOff != 0xFFFFFFFF then per 8 else 0)
    + (if l.act = 0 then 0 else if l.act = 1 then per 8 else cdiv (11 * n) (9 * lanes) + 20)
    + (if l.afmt = 0x21 then 0 else per 12)

/-- The device's own figure of run_cycles, in control-fabric cycles. -/
def runCycles (p : Bytes) : Nat :=
  let n := u32At p 24
  let input := (if byteAt p 16 = 0x21 then 0 else cdiv n 128 + 8) + (cdiv n 128 + 12)
  cdiv (input + sumL ((sntLayers p).map (layerCycles 85 128))) 2 + 64

/-- The header and the layer table meet R307 and R308, every offset lies inside the payload, and run_cycles is right. -/
def sntImageOk (p : Bytes) : Bool :=
  let n := byteAt p 7
  let ls := sntLayers p
  let entries := pieces n 32 (p.drop 64)
  u32At p 0 == 0x4C4E5453 && u16At p 4 == 0x0100 && (byteAt p 6 == 1 || byteAt p 6 == 2) && decide (1 ≤ n) && decide (n ≤ 64)
    && u32At p 8 == p.length && decide (p.length ≤ 268435456) && decide (64 + 32 * n ≤ p.length)
    && [0x01, 0x03, 0x21].contains (byteAt p 16) && sntFmt (byteAt p 18) && byteAt p 19 == 0
    && decide (1 ≤ byteAt p 28) && decide (byteAt p 28 ≤ 3) && allZero (slice p 30 2) && allZero (slice p 56 8)
    && (entries.mapIdx (fun i b => layerOk (i + 1 == n) b)).all (fun x => x) && chained ls
    && (ls.head?.map layIn) == some (u32At p 24) && (ls.getLast?.map layOut) == some (u32At p 32)
    && (ls.getLast?.map (fun l => l.afmt)) == some (byteAt p 29)
    && (byteAt p 28 != 3 || (byteAt p 29 == 0x03 && u32At p 32 == 2))
    && decide (u32At p 36 ≤ p.length) && ls.all (offsetsOk p.length (u32At p 36)) && u32At p 12 == runCycles p

/-! ## Arithmetic (R305, R309) -/

/-- dot: blocks of 32 in ascending order, each rounded once, added with one rounding each. -/
def dot32 : Nat → FV → List FV → List FV → FV
  | 0, acc, _, _ => acc
  | n + 1, acc, a, w =>
    if a.isEmpty then acc
    else dot32 n (rn32 (addX acc (rn32 (sumX (List.zipWith mulX (a.take 32) (w.take 32)))))) (a.drop 32) (w.drop 32)

/-- An input element at a padded position: zero outside the input. -/
def inputAt (l : SntLayer) (x : List FV) (y z c : Nat) : FV :=
  if l.pad ≤ y ∧ y < l.pad + l.inH ∧ l.pad ≤ z ∧ z < l.pad + l.inW then
    (x[((y - l.pad) * l.inW + (z - l.pad)) * l.inC + c]?).getD .zero
  else .zero

/-- The input vector of an output position: every channel, or one of them. -/
def patchAt (l : SntLayer) (x : List FV) (oy ox : Nat) (channel : Option Nat) : List FV :=
  (List.range l.kh).flatMap (fun ky => (List.range l.kw).flatMap (fun kx =>
    match channel with
    | some c => [inputAt l x (oy * l.stride + ky) (ox * l.stride + kx) c]
    | none => (List.range l.inC).map (fun c => inputAt l x (oy * l.stride + ky) (ox * l.stride + kx) c)))

/-- The activation of a layer (R154). -/
def sntAct (act : Nat) (v : FV) : FV :=
  match act with
  | 1 => reluR v | 2 => sigmoidR v | 3 => siluR v | 4 => geluErfR v | _ => v

/-- Output elements of a layer before quantisation. -/
def layerRun (p : Bytes) (l : SntLayer) (x : List FV) : List FV :=
  let base := u32At p 36
  let n := rowElems l
  let rows := (List.range l.outC).map (fun c =>
    valuesX l.wfmt 0 n (p.drop (base + l.wOff + c * rowBytes l.wfmt n)))
  let bias (c : Nat) (v : FV) : FV :=
    if l.bOff = 0xFFFFFFFF then v else rn32 (addX v (f32v (BitVec.ofNat 32 (u32At p (base + l.bOff + 4 * c)))))
  (List.range (layH l)).flatMap (fun oy => (List.range (layW l)).flatMap (fun ox =>
    let all := patchAt l x oy ox none
    (List.range l.outC).map (fun c =>
      let one := patchAt l x oy ox (some c)
      let v := match l.op with
        | 4 => (one.drop 1).foldl maxX (one.headD .zero)
        | 5 => divNat bin32 .near (sumX one) one.length
        | op => bias c (dot32 (n + 1) .zero (if op = 3 then one else all) ((rows[c]?).getD []))
      sntAct l.act v)))

/-- The values that a layer hands on, and the bytes of its quantised output. -/
def layerOutput (p : Bytes) (l : SntLayer) (x : List FV) : List FV × Bytes :=
  let y := layerRun p l x
  let s := if fmtMx l.afmt || l.afmt = 0x21 then 0 else l.scale
  ((quantise l.afmt s y).map (fun q => q.1), packElems l.afmt s y)

/-- The input of an image: the samples of a frame payload, quantised to act0. Bytes that the payload lacks are free. -/
def sntInput (p payload : Bytes) (free : Nat → Bytes) : List FV :=
  let fmt := byteAt p 16
  let n := u32At p 24
  let bytes := n * fmtBits fmt / 8
  let have_ := slice payload (u32At p 20) bytes
  let scale : Int := sgn 8 (byteAt p 17)
  let act0 := byteAt p 18
  (quantise act0 (if fmtMx act0 then 0 else scale)
    ((valuesX fmt (if fmt = 0x21 then 0 else scale) n (have_ ++ fitTo (bytes - have_.length) (free (bytes - have_.length)))).map
      rn32)).map (fun q => q.1)

/-- A run over a frame payload: the bytes of the last layer's output. -/
def sntEval (p payload : Bytes) (free : Nat → Bytes) : Bytes :=
  ((sntLayers p).foldl (fun s l => layerOutput p l s.1) (sntInput p payload free, ([] : Bytes))).2

/-- The token ids of an output with out_kind 1: integer elements as they are; the spec states no id for others, and the id is a
free function of the element. (DESIGN CHOICE, log entry 206) -/
def sntIds (p out : Bytes) : Bytes :=
  let fmt := byteAt p 29
  (rawElems fmt (u32At p 32) out).flatMap (fun r =>
    leBytes 4 (if fmt = 0x01 ∨ fmt = 0x03 then uns 32 (sgn (fmtBits fmt) r) else w32 (Config.sntId fmt r)))

/-- The outputs of a run laid out as an OUTPUT payload (R71, R209). (DESIGN CHOICE, log entry 206) -/
def sntPayload (p out : Bytes) (pos : Nat) : Bytes :=
  let ids := byteAt p 28 == 1
  leBytes 4 pos ++ [BitVec.ofNat 8 (if ids then 1 else 2), BitVec.ofNat 8 (if ids then 0 else byteAt p 29), 0, 0]
    ++ leBytes 4 (u32At p 32) ++ zeros 4 ++ (if ids then sntIds p out else out)

/-! ## Resident images (R310, R311) -/

/-- An image slot. -/
def image (d : Die) (i : Nat) : SntImage := mgetD d.sntb.images i {}

/-- Replace an image slot. -/
def setImage (i : Nat) (x : SntImage) : Die → Die := updSnt (fun s => { s with images := mset s.images i x })

/-- Report the result of a load or unload. -/
def sntResult (code : Nat) : Die → Die := updSnt (fun s => { s with result := code })

/-- The code under which a container is refused as image i: 1 its signature, 2 its content, 7 its footprint. -/
def imageRefusal (d : Die) (b : Bytes) : Option Nat :=
  if !tchiliOk d 2 b then some 1
  else if !sntImageOk (parseTchili b).payload then some 2
  else if extents (parseTchili b).payload.length > hbmFree d then some 7
  else none

/-- Place an accepted container as an image that is loading. -/
def placeImage (i : Nat) (b : Bytes) (d : Die) : Die :=
  let t := parseTchili b
  countPerms t.payload.length (raiseFloor 2 t.svn (setImage i { state := 1, payload := t.payload, digest := t.digest } d))

/-- SNT_CMD.load. -/
def sntLoad (i : Nat) (d : Die) : Die :=
  if !(d.phase == .spring || d.phase == .summer) || (image d i).state == 1 || (image d i).state == 2 then sntResult 32 d
  else
    match bulkWhole d 4 with
    | none => sntResult 2 d
    | some b =>
      match imageRefusal d b with
      | some code => sntResult code (if code = 1 then refuseImage d else d)
      | none => sntResult 1 (placeImage i b d)

/-- SENTINEL_IMAGE_RESIDENT: the loading of an image is complete; its container leaves the bulk area. -/
def imageResident (i : Nat) (d : Die) : Die :=
  if (image d i).state = 1 then
    let x := image d i
    let mine := match bulkWhole d 4 with
      | some b => (parseTchili b).digest == x.digest
      | none => false
    let d := setImage i { x with state := 2 } d
    sntResult 0 (if mine then bulkDone 4 d else d)
  else d

/-- A channel that is not FREE names an image. -/
def imageNamed (d : Die) (i : Nat) : Bool :=
  d.chn.tab.any (fun e => e.2.state != .free && e.2.host.kind == 3 && e.2.host.slot == 64 + i)

/-- SNT_CMD.unload. -/
def sntUnload (i : Nat) (d : Die) : Die :=
  if imageNamed d i then sntResult 32 d
  else sntResult 0 (updSnt (fun s => { s with images := mdel s.images i }) d)

/-- IMAGE_REHASH: a resident image whose digest differs is retired with its channels. -/
def imageRehash (i : Nat) (ok : Bool) (d : Die) : Die :=
  let d := if (image d i).state = 2 then countPerms (image d i).payload.length d else d
  if (image d i).state = 2 ∧ ok = false then
    retireWhere (fun x => x.host.kind == 3 && x.host.slot == 64 + i) 5 3 19
      (raise pSNT 5 (setImage i { image d i with state := 3 } d))
  else d

/-! ## Runs (R303, R313, R314) -/

/-- The SENTINEL entry that pairs with one: the one that stands at its place among its like in the other half (R303). -/
def sntPartner (d : Die) (e : TtEntry) : Option TtEntry :=
  match (sntMates d.cad.active e (e.group / 3)).findIdx? (fun f => f == e) with
  | some k => (sntMates d.cad.active e (1 - e.group / 3))[k]?
  | none => none

/-- Bound batches of an image whose frame is there and whose window's commit point, or for a repeat its verdict time, is still to
come, in ascending channel order (R313, R314). -/
def sntDue (d : Die) (i : Nat) : List Nat :=
  (d.chn.tickets.filter (fun b =>
    let x := chan d b.channel
    x.host.kind == 3 && x.host.slot == 64 + i && b.complete && !b.done &&
      match b.window with
      | some w => decide ((d.tim.air - w.slotNs) * 11 < (w.start + (if b.repeats then w.verdict else w.commit)) * 10)
      | none => false)).mergeSort (fun a b => a.channel ≤ b.channel) |>.map (fun b => b.serial)

/-- A SENTINEL span begins: both copies start on as many batches as the span can run. -/
def sntStart (e : TtEntry) (d : Die) : Die :=
  match sntPartner d e with
  | none => d
  | some f =>
    let a := if e.group < 3 then e else f
    let b := if e.group < 3 then f else e
    let la := (pipe d a.group).lead
    let lb := (pipe d b.group).lead
    let run : SntRun := { image := e.target, leadA := la, leadB := lb
                          batches := (sntDue d e.target).take (e.len / max 1 (u32At (image d e.target).payload 12)) }
    if d.sntb.runs.any (fun r => r.image == e.target && r.leadA == la && r.leadB == lb) || (image d e.target).state != 2
        || !leads d la || !leads d lb || substitutes d la || substitutes d lb
        || groupUnits d 12 la == 0 || groupUnits d 12 lb == 0 || run.batches.isEmpty then d
    else updSnt (fun s => { s with runs := s.runs ++ [run] }) d

/-- A SENTINEL span ends: what it has not finished waits for the next one. -/
def sntStop (e : TtEntry) (d : Die) : Die :=
  let lead := (pipe d e.group).lead
  updSnt (fun s => { s with runs := s.runs.filter (fun r => !(r.image == e.target && (r.leadA == lead || r.leadB == lead))) }) d

/-- The outputs of a run that ended in agreement belong to its batch. Samples that the frame is too short for are a free function
of image and frame. -/
def sntAgree (i serial : Nat) (d : Die) : Die :=
  match ticket d serial, d.ing.sentinel.find? (fun h => h.serial == serial + 1 && h.chan == (((ticket d serial).map (fun b => b.channel)).getD 0)) with
  | some b, some h =>
    let p := (image d i).payload
    let out := sntEval p h.payload (Config.sntTail p h.payload)
    let pos := firstOf (chan d b.channel) b
    let ob := sntPayload p out pos
    let d := count pSNT 0x064 (modTicket serial (fun b => { b with done := true, outBytes := ob, lastOut := out }) d)
    let lead := ((d.sntb.runs.find? (fun r => r.image == i && r.batches.contains serial)).map (fun r => r.leadA)).getD b.lead
    let d := modTicket serial (fun b => { b with lead := lead }) d
    let d := updSnt (fun s => { s with runs := s.runs.map (fun r =>
      if r.image == i then { r with batches := r.batches.filter (fun q => q != serial) } else r) }) d
    if b.due then verdictNow serial (toCommit d) else d
  | _, _ => d

/-- The copies differ: the run is repeated; the second time within the window on the same slices, the next self-test
segments of both look for the unit at fault. -/
def sntDiffer (r : SntRun) (d : Die) : Die :=
  let key := 6 * r.leadA + r.leadB
  let again := match mget d.sntb.mismatchAt key with
    | some t => within d (field d pSNT 0x040 16) t
    | none => false
  let d := raise pSNT 0 (count pSNT 0x068 (modTicket (r.batches.headD 0) (fun b => { b with repeats := true }) d))
  let d := updSnt (fun s => { s with mismatchAt := mset s.mismatchAt key d.tim.up }) d
  let add (lead : Nat) (d : Die) : Die :=
    if d.cad.tests.contains (lead, 12, 512) then d else updCad (fun c => { c with tests := c.tests ++ [(lead, 12, 512)] }) d
  if again then add r.leadB (add r.leadA d) else d

/-- SENTINEL_RUN_COMPLETE: both copies of the run of an image have finished its first batch. Each copy's group compares what leaves
it; a run whose output does not leave its group starts again (R234, R314, R456). -/
def sntComplete (i : Nat) (ended : SntEnd) (d : Die) : Die :=
  match d.sntb.runs.find? (fun r => r.image == i && !r.batches.isEmpty && leads d r.leadA && leads d r.leadB) with
  | none => d
  | some r =>
    let n := r.batches.headD 0
    match comparePoints r.leadA [n] ended.ptsA d with
    | (d, false) => d
    | (d, true) =>
      match comparePoints r.leadB [n] ended.ptsB d with
      | (d, false) => d
      | (d, true) => if ended.differs then sntDiffer r d else sntAgree i n d

/-! ## The commands -/

/-- SNT_CMD.load. -/
def execSntCmdLoad (d : DieId) (image : BitVec 4) (s : State) : Host.Outcome State Fault Refusal :=
  runDie d (sntLoad image.toNat) s

/-- SNT_CMD.unload. -/
def execSntCmdUnload (d : DieId) (image : BitVec 4) (s : State) : Host.Outcome State Fault Refusal :=
  runDie d (sntUnload image.toNat) s

/-- SENTINEL_IMAGE_RESIDENT. -/
def execSentinelImageResident (d : DieId) (image : BitVec 4) (s : State) : Host.Outcome State Fault Refusal :=
  runDie d (imageResident image.toNat) s

/-- IMAGE_REHASH. -/
def execImageRehash (d : DieId) (image : BitVec 4) (digestOk : Bool) (s : State) : Host.Outcome State Fault Refusal :=
  runDie d (imageRehash image.toNat digestOk) s

/-- SENTINEL_RUN_COMPLETE. -/
def execSentinelRunComplete (d : DieId) (image : BitVec 4) (ended : SntEnd) (s : State) :
    Host.Outcome State Fault Refusal := runDie d (sntComplete image.toNat ended) s

end Sys2Proof.Machine
end

