-- ==== Sys2Proof/Machine/Cadence.lean ====
section
/-! DEFINITION. CAD: the entries of the active timetable, windows and spans, commit points and verdict times, self-tests,
and the load area (R171, R202, R203, R248, R264 to R276, R281, R282). -/

namespace Sys2Proof.Machine

/-! ## Time within a slot (R264, R265) -/

/-- Air-time at which the running slot began. -/
def slotBegin (d : Die) : Nat := d.tim.air / slotNs d.tim.mu * slotNs d.tim.mu

/-- Bring the clocks to a cycle of the running slot if it is still to come. (DEDUCED, log entry 91) -/
def toCycle (c : Nat) (d : Die) : Die := passSealed (slotBegin d + cycNs c - d.tim.air) d

/-- An entry of the active timetable, while CAD runs. -/
def entryAt (d : Die) (i : Nat) : Option TtEntry := if d.cad.running then d.cad.active.entries[i]? else none

/-- The entry of an index, if it has the kind and applies in the running slot. (DEDUCED, log entry 91) -/
def entryNow (d : Die) (i kind : Nat) : Option TtEntry :=
  match entryAt d i with
  | some e => if e.kind = kind ∧ slotCount d % max 1 d.cad.active.period = e.slot then some e else none
  | none => none

/-- An entry begins: at its planned cycle, or later, with its delay noted (R272). (DEDUCED, log entry 91) -/
def beginEntry (e : TtEntry) (d : Die) : Die :=
  let d := toCycle e.start d
  peak pCAD 0x07C (min 16777215 (cyclesSince d (slotBegin d) - e.start)) d

/-- The span of an entry runs until its planned end. -/
def addSpan (i lead : Nat) (e : TtEntry) (d : Die) : Die :=
  let left := slotBegin d + cycNs (e.start + e.len) - d.tim.air
  updCad (fun c => { c with spans := c.spans ++ [(lead, i, d.tim.up + left)] }) d

/-- The planned end of an entry has passed: its span does not run. -/
def spanPast (e : TtEntry) (d : Die) : Bool := decide (d.tim.air ≥ slotBegin d + cycNs (e.start + e.len))

/-- The group of a lead is held by a spare substitution; during a resynchronisation a triple goes on as a pair (R238). -/
def groupBusy (d : Die) (lead : Nat) : Bool := substitutes d lead

/-! ## Programs (R270, R271) -/

/-- The batch's turn has come: on a ledger channel the batches before it have been marked, so it is the oldest (R172). -/
def inTurn (d : Die) (b : Batch) : Bool :=
  (chan d b.channel).host.ctx == 0 || ((chanTickets d b.channel).head?.map (fun q => q.serial)) == some b.serial

/-- A batch is one of those that a target's program runs for. -/
def servedBy (d : Die) (lead target : Nat) (b : Batch) : Bool :=
  !b.done && b.lead == lead && (chan d b.channel).host.kind != 3 && inTurn d b &&
    match b.window with
    | some w => if target ≥ 32768 then w.entry.pool != 0 && w.entry.pool == target % 256 else b.channel == target && w.entry.pool == 0
    | none => false

/-- The window of a batch comes no later than another's. -/
def windowLe (a b : Option Window) : Bool :=
  match a, b with
  | some x, some y => decide (x.slotNs + cycNs x.start ≤ y.slotNs + cycNs y.start)
  | _, _ => false

/-- Two windows are of one slot and one entry, or of entries of one pool (R271). -/
def oneRun (a b : Option Window) : Bool :=
  match a, b with
  | some x, some y => x.slot == y.slot && (x.entry == y.entry || samePool x.entry y.entry)
  | _, _ => false

/-- The batches that a target's program takes next: those of its earliest window or of the pool that this belongs to, in ascending
channel order. -/
def nextRun (d : Die) (lead target : Nat) : List Nat :=
  let all := d.chn.tickets.filter (servedBy d lead target)
  match all.find? (fun b => all.all (fun c => windowLe b.window c.window)) with
  | none => []
  | some f => ((all.filter (fun b => oneRun f.window b.window)).mergeSort (fun a b => a.channel ≤ b.channel)).map (fun b => b.serial)

/-- A batch begins execution: a rewind takes effect on the ledger's counters (R171). -/
def beginBatch (d : Die) (serial : Nat) : Die :=
  match ticket d serial with
  | none => d
  | some b =>
    match b.first with
    | none => d
    | some f =>
      let x := chan d b.channel
      if x.host.kind = 1 ∧ x.host.ctx ≠ 0 ∧ (b.rewind = true ∨ f < x.append) then
        modChan b.channel (fun x => { x with
          append := min x.append f, validEnd := min x.validEnd f, voidPos := if x.voidPos ≥ f then 4294967295 else x.voidPos }) d
      else d

/-- A program that runs for nothing begins with the next batches of its target. -/
def fetchRun (lead : Nat) (d : Die) : Die :=
  let c := (pipe d lead).core
  if c.run.isEmpty then
    let run := nextRun d lead c.target
    run.foldl beginBatch (modPipe lead (fun p => { p with core := { target := c.target, run := run, inSpan := c.inSpan, halted := c.halted } }) d)
  else d

/-- Give a group's core to a target: what it ran for before holds its state. -/
def switchTarget (lead target : Nat) (d : Die) : Die :=
  let p := pipe d lead
  if p.core.target = target then d
  else
    modPipe lead (fun p => { p with
      core := mgetD p.saved target { target := target, halted := p.core.halted }
      saved := mset (mdel p.saved target) p.core.target { p.core with inSpan := false } }) d

/-- SEGMENT_START. While a substitution holds the group the entry does not begin; the command comes again once it is free
(R272). -/
def segmentStart (i : Nat) (d : Die) : Die :=
  match entryNow d i 1 with
  | none => d
  | some e =>
    let lead := (pipe d e.group).lead
    if groupBusy d lead || !leads d lead then d
    else
    let d := beginEntry e d
    if spanPast e d then d
    else
      let target := if e.target ≥ 32768 then 32768 + e.target % 256 else e.target
      let d := addSpan i lead e (switchTarget lead target d)
      fetchRun lead (modPipe lead (fun p => { p with core := { p.core with inSpan := true } }) d)

/-- SPAN_END: the span of an entry ends. -/
def spanEnd (i : Nat) (d : Die) : Die :=
  match entryAt d i with
  | none => d
  | some e =>
    let lead := (pipe d e.group).lead
    if d.cad.spans.any (fun s => s.2.1 == i) then
      let d := toCycle (e.start + e.len) d
      let d := updCad (fun c => { c with spans := c.spans.filter (fun s => s.2.1 != i) }) d
      if e.kind = 1 then modPipe lead (fun p => { p with core := { p.core with inSpan := false } }) d
      else if e.kind = 7 then sntStop e d else d
    else d

/-! ## Windows (R268) -/

/-- A window opens on a batch. -/
def bindWindow (w : Window) (b : Batch) (d : Die) : Die := modTicket b.serial (fun b => { b with window := some w }) d

/-- The batches that a window of a channel takes at its start. -/
def windowBatches (d : Die) (e : TtEntry) : List Batch :=
  let x := chan d e.target
  let free := (chanTickets d e.target).filter (fun b => b.window.isNone)
  if x.host.kind = 2 then free.filter (fun b => b.first == some (w32 (slotCount d + 4294967296 - x.host.arrSym / 14)))
  else free.take 1

/-- WINDOW_START. -/
def windowStart (i : Nat) (d : Die) : Die :=
  match entryNow d i 2 with
  | none => d
  | some e =>
    let d := beginEntry e d
    let w : Window := { entry := e, slot := slotCount d, slotNs := slotBegin d, start := e.start, arr := e.arr
                        commit := e.commit, verdict := e.verdict }
    let x := chan d e.target
    let w := if x.host.kind = 2 then { w with slot := w32 (slotCount d + 4294967296 - x.host.arrSym / 14) } else w
    let d := if x.host.kind = 3 && x.state == .opened then
        let d := assignSentinel e.target d
        if (windowBatches d e).isEmpty && mayBegin d e.target then takeSentinel e.target d else d
      else d
    (windowBatches d e).foldl (fun d b => bindWindow w b d) d

/-! ## Commit points and verdict times (R203, R248, R269) -/

/-- The window of an entry of which an offset in cycles from its start falls in the running slot: the air-time at which
its slot began. -/
def windowAt (d : Die) (e : TtEntry) (off : Nat) : Option Nat :=
  let k := (e.start + off) / slotCycles d.tim.mu
  if w32 (slotCount d + 4294967296 - k) % max 1 d.cad.active.period = e.slot then some (slotBegin d - k * slotNs d.tim.mu) else none

/-- Open batches of the windows of an entry up to one of its windows, in ascending channel order. -/
def windowTickets (d : Die) (e : TtEntry) (slotNs : Nat) : List Batch :=
  (d.chn.tickets.filter (fun b =>
    match b.window with
    | some w => w.entry == e && decide (w.slotNs ≤ slotNs)
    | none => false)).mergeSort (fun a b => a.channel ≤ b.channel)

/-- Verdicts that fall due at one cycle: each is written 16 cycles after the one before (R213, R269). -/
def spacedVerdicts (bs : List Batch) (d : Die) : Die := bs.foldl (fun d b => verdictNow b.serial (toCommit d)) d

/-- The batch's verdict may be written at its commit point: its program has reached DONE. A coupled batch waits for its
verdict time (R248, R269). -/
def mayCommit (d : Die) (b : Batch) : Bool := b.done && !(chan d b.channel).coupled

/-- COMMIT_POINT: what is done commits, once the group's copies agree on it; what is not commits as soon as it is. -/
def commitPoint (i : Nat) (pts : List PointFault) (d : Die) : Die :=
  match entryAt d i with
  | none => d
  | some e =>
    match e.kind, windowAt d e e.commit with
    | 2, some t =>
      let d := toCycle ((e.start + e.commit) % slotCycles d.tim.mu) d
      let bs := windowTickets d e t
      let ready := bs.filter (mayCommit d)
      let d := bs.foldl (fun d b => modTicket b.serial (fun b => { b with due := true }) d) d
      match comparePoints (pipe d e.group).lead (ready.map (fun b => b.serial)) pts d with
      | (d, true) => finishAll (spacedVerdicts ready d)
      | (d, false) => finishAll d
    | _, _ => d

/-- VERDICT_TIME: every batch of the window that has no verdict yet gets one; where the copies of the group do not agree on
what they have, it runs again and is not done in time. -/
def verdictTime (i : Nat) (pts : List PointFault) (d : Die) : Die :=
  match entryAt d i with
  | none => d
  | some e =>
    match e.kind, windowAt d e e.verdict with
    | 2, some t =>
      let d := toCycle ((e.start + e.verdict) % slotCycles d.tim.mu) d
      let bs := windowTickets d e t
      finishAll (spacedVerdicts bs (comparePoints (pipe d e.group).lead (bs.map (fun b => b.serial)) pts d).1)
    | _, _ => d

/-- The LATE record of an active radio slot of which no batch has come: the arrival of other slots' records goes on as it was
(R203). (DESIGN CHOICE, log entry 96) -/
def emptySlot (c slot : Nat) (d : Die) : Die :=
  match model d (chan d c).host.slot with
  | none => d
  | some m =>
    let b : Batch := { newBatch d c m false with first := some slot, closed := true }
    commit b.serial 3 17 false (addTicket b d)

/-- A radio channel owes a verdict for a slot: it is active in the pattern, its channel was OPEN, its model is in service, and
none is written. -/
def slotOwed (d : Die) (c slot : Nat) : Bool :=
  let x := chan d c
  tst x.host.pattern (slot % max 1 x.host.patLen) && !slotWritten x slot && decide (slotDiff slot x.openSlot ≥ 0)
    && ((model d x.host.slot).any (fun m => m.state == .ready))

/-- RADIO_SLOT_LATE: V of a slot has come. A batch that names it gets its verdict; an active slot without one is LATE. -/
def radioSlotLate (c slot : Nat) (pts : List PointFault) (d : Die) : Die :=
  let serves (d : Die) : Bool := (chan d c).state == .opened && (chan d c).host.kind == 2
  if !serves d then d
  else
    let bs := (chanTickets d c).filter (fun b => b.first == some slot)
    let d := (comparePoints (ownerLead d (chan d c)) (bs.map (fun b => b.serial)) pts d).1
    if !serves d then finishAll d
    else
      let d := spacedVerdicts bs d
      finishAll (if bs.all (fun b => b.canary) && slotOwed d c slot then emptySlot c slot d else d)

/-- DECLARE_CUTOFF: the next coupled batch of a channel declares; one whose checks have not ended declares LATE 17. -/
def declareCutoff (c : Nat) (d : Die) : Die :=
  if (chan d c).coupled then
    match (chanTickets d c).find? (fun b => b.window.isSome && b.decl.isNone) with
    | some b =>
      declare b.serial (if b.done then ownDecl d b else { ownDecl d b with verdict := 3, cause := 17 }) d
    | none => d
  else d

/-! ## Self-tests (R240, R241, R273) -/

/-- The items of a group's rotation: block code of each; 7 for a comparator injection. (DEDUCED, log entry 94) -/
def rotation (d : Die) (lead : Nat) : List Nat :=
  List.replicate 3 8 ++ List.replicate 4 9 ++ List.replicate 4 10 ++ List.replicate 4 11 ++ [13] ++ List.replicate 8 12
    ++ (if pairingOf d lead = 0 then [] else List.replicate 6 7)

/-- Cycle by which a self-test of the group must end: the next safety span, or the end of the usable part. -/
def testLimit (d : Die) (lead now : Nat) : Nat :=
  let usable := slotCycles d.tim.mu - 1100
  let safe := (d.cad.active.entries.filter (fun f =>
    f.safety && isSpan f && f.kind != 4 && (pipe d f.group).lead == lead && decide (f.start ≥ now)
      && f.slot == slotCount d % max 1 d.cad.active.period)).map (fun f => f.start)
  safe.foldl min usable

/-- A self-test is skipped. -/
def skipTest (lead : Nat) (d : Die) : Die :=
  let n := mgetD d.cad.skips lead 0 + 1
  let d := count pCAD 0x084 (updCad (fun c => { c with skips := mset c.skips lead n }) d)
  if n ≤ 2 then raise pCAD 1 d else if n = 3 then raise pCAD 2 d else retireGroup lead (raise pCAD 3 d)

/-- An item has found its unit at fault. -/
def testFailed (lead blk unit : Nat) (d : Die) : Die :=
  if blk = 7 then retireGroup lead (raise (vpPage d lead) 6 d)
  else if blk = 13 then retireCore unit d
  else retireUnit blk unit d

/-- The outcome of an item; a real difference of the group's copies in its time is handled as real, and the item finds nothing
(R241). -/
def testOutcome (lead blk unit : Nat) (passed : Bool) (pts : List PointFault) (d : Die) : Die :=
  match comparePoints lead [] pts d with
  | (d, true) => if passed then d else testFailed lead blk unit d
  | (d, false) => d

/-- SELFTEST: once the group is free the next item runs if it fits, judged from its actual start (R272, R273); a failing one names
its unit. (DEDUCED, log entry 94) -/
def selfTest (i : Nat) (passed : Bool) (unit : Nat) (pts : List PointFault) (d : Die) : Die :=
  match entryNow d i 4 with
  | none => d
  | some e =>
    let lead := (pipe d e.group).lead
    if groupBusy d lead || !leads d lead then d
    else
      let d := beginEntry e d
      let now := max e.start (cyclesSince d (slotBegin d))
      if spanPast e d || decide (now + e.len > testLimit d lead now) then skipTest lead d
      else
        let d := addSpan i lead e (updCad (fun c => { c with skips := mset c.skips lead 0 }) d)
        match d.cad.tests.find? (fun t => t.1 == lead) with
        | some t =>
          let d := updCad (fun c => { c with tests := c.tests.erase t }) d
          testOutcome lead t.2.1 (if t.2.1 = 12 ∧ t.2.2 = 512 then unit else t.2.2) passed pts d
        | none =>
          let rot := rotation d lead
          let k := mgetD d.cad.rot lead 0 % rot.length
          let d := updCad (fun c => { c with rot := mset c.rot lead (k + 1) }) d
          testOutcome lead ((rot[k]?).getD 8) unit passed pts d

/-! ## Other entries (R107, R274, R276, R313) -/

/-- CANARY: at its entry's cycle, or at its position in the slot after the one that found no credit. -/
def canary (i : Nat) (d : Die) : Die :=
  match entryAt d i with
  | none => d
  | some e =>
    if e.kind = 3 ∧ (entryNow d i 3 = some e ∨ d.cad.canaryWait.contains (e.target, e.stream)) then
      canaryAt (entryNow d i 3 == some e) e.target e.stream (toCycle e.start d)
    else d

/-- TESTPULSE. -/
def testPulse (i : Nat) (d : Die) : Die :=
  match entryNow d i 6 with
  | none => d
  | some e => tellWarden (.pulse (e.target % 16)) (count pCAD 0x08C (beginEntry e d))

/-- The page whose table_ecc bit the table sets that a stream builds: that of its op's class (R139, R161).
(DEDUCED, log entry 43) -/
def buildPage (m : Model) (tensor : Nat) : Nat :=
  if m.manifest.kind == 1 && !m.manifest.ops.any (fun o => o.cls == 2 && o.tensor == tensor) then pRES else pBND

/-- What a REBUILD span does for the stream of its model: it builds, or meets an uncorrectable word of what it has built
(R107, R138, R190). -/
def buildSpan (st : Stream) (m : Model) (tableEcc : Bool) (d : Die) : Die :=
  if tableEcc then tableHit st.slot (raise (buildPage m st.tensor) 5 d)
  else if m.manifest.kind = 2 then buildRadio st.slot st.turn d
  else buildChunks d

/-- REBUILD: the span hashes and projects what the model's stream has staged. (DEDUCED, log entry 76) -/
def rebuild (i : Nat) (tableEcc : Bool) (pts : List PointFault) (d : Die) : Die :=
  match entryNow d i 5 with
  | none => d
  | some e =>
    let lead := (pipe d e.group).lead
    if groupBusy d lead || !leads d lead then d
    else
      let d := beginEntry e d
      if spanPast e d then d
      else
        match comparePoints lead [] pts (addSpan i lead e d) with
        | (d, false) => d
        | (d, true) =>
          match d.adm.stream, model d e.target with
          | some st, some m => if st.slot = e.target ∧ m.turn ≠ some .rpmb then buildSpan st m tableEcc d else d
          | _, _ => d

/-- SENTINEL: one entry of a pair begins. -/
def sentinel (i : Nat) (d : Die) : Die :=
  match entryNow d i 7 with
  | none => d
  | some e =>
    let lead := (pipe d e.group).lead
    if groupBusy d lead || !leads d lead then d
    else
      let d := beginEntry e d
      if spanPast e d then d else sntStart e (addSpan i lead e d)

/-! ## The load area (R267, R282) -/

/-- CAD_CMD.load_standby. -/
def loadStandby (d : Die) : Die :=
  match judgeFull d with
  | .ok t => updCad (fun c => { c with standby := some t }) d
  | .error r => cadRefuse r d

/-- CAD_CMD.swap: ignored while a channel is open, and without a standby timetable. (DEDUCED, log entry 95) -/
def swapCmd (d : Die) : Die :=
  if d.cad.standby.isSome && !d.chn.tab.any (fun e => e.2.state == .opened) then updCad (fun c => { c with swap := true }) d else d

/-- CAD_CMD.discard: ignored during a hand-over. -/
def discardCmd (d : Die) : Die := if d.vp.pending then d else updCad (fun c => { c with standby := none, swap := false }) d

/-! ## The commands -/

/-- SEGMENT_START. -/
def execSegmentStart (d : DieId) (entry : BitVec 13) (s : State) : Host.Outcome State Fault Refusal :=
  runDie d (segmentStart entry.toNat) s

/-- SPAN_END. -/
def execSpanEnd (d : DieId) (entry : BitVec 13) (s : State) : Host.Outcome State Fault Refusal := runDie d (spanEnd entry.toNat) s

/-- WINDOW_START. -/
def execWindowStart (d : DieId) (entry : BitVec 13) (s : State) : Host.Outcome State Fault Refusal :=
  runDie d (windowStart entry.toNat) s

/-- COMMIT_POINT. -/
def execCommitPoint (d : DieId) (entry : Copies (BitVec 13)) (s : State) : Host.Outcome State Fault Refusal :=
  runDie d (commitPoint entry.at_.toNat entry.pts) s

/-- VERDICT_TIME. -/
def execVerdictTime (d : DieId) (entry : Copies (BitVec 13)) (s : State) : Host.Outcome State Fault Refusal :=
  runDie d (verdictTime entry.at_.toNat entry.pts) s

/-- RADIO_SLOT_LATE. -/
def execRadioSlotLate (d : DieId) (channel : Copies (BitVec 15)) (slot : Word) (s : State) :
    Host.Outcome State Fault Refusal := runDie d (radioSlotLate channel.at_.toNat slot.toNat channel.pts) s

/-- DECLARE_CUTOFF. -/
def execDeclareCutoff (d : DieId) (channel : BitVec 15) (s : State) : Host.Outcome State Fault Refusal :=
  runDie d (declareCutoff channel.toNat) s

/-- SELFTEST. -/
def execSelftest (d : DieId) (entry : Copies (BitVec 13)) (passed : Bool) (unit : BitVec 9) (s : State) :
    Host.Outcome State Fault Refusal := runDie d (selfTest entry.at_.toNat passed unit.toNat entry.pts) s

/-- CANARY. -/
def execCanary (d : DieId) (entry : BitVec 13) (s : State) : Host.Outcome State Fault Refusal := runDie d (canary entry.toNat) s

/-- TESTPULSE. -/
def execTestpulse (d : DieId) (entry : BitVec 13) (s : State) : Host.Outcome State Fault Refusal :=
  runDie d (testPulse entry.toNat) s

/-- REBUILD. -/
def execRebuild (d : DieId) (entry : Copies (BitVec 13)) (tableEcc : Bool) (s : State) : Host.Outcome State Fault Refusal :=
  runDie d (rebuild entry.at_.toNat tableEcc entry.pts) s

/-- SENTINEL. -/
def execSentinel (d : DieId) (entry : BitVec 13) (s : State) : Host.Outcome State Fault Refusal :=
  runDie d (sentinel entry.toNat) s

/-- CAD_CMD.load_standby. -/
def execCadCmdLoadStandby (d : DieId) (s : State) : Host.Outcome State Fault Refusal := runDie d loadStandby s

/-- CAD_CMD.swap. -/
def execCadCmdSwap (d : DieId) (s : State) : Host.Outcome State Fault Refusal := runDie d swapCmd s

/-- CAD_CMD.discard. -/
def execCadCmdDiscard (d : DieId) (s : State) : Host.Outcome State Fault Refusal := runDie d discardCmd s

end Sys2Proof.Machine
end

