-- ==== Sys2Proof/Machine/CoreInstr.lean ====
section
/-! DEFINITION. The control core of a group: when an instruction is issued, its registers, its transfers and its waits
(R258 to R260, R268 to R271, R248). -/

namespace Sys2Proof.Machine

/-! ## The core -/

/-- The core of a group. -/
def core (d : Die) (lead : Nat) : Core := (pipe d lead).core

/-- Change the core of a group. -/
def modCore (lead : Nat) (f : Core → Core) : Die → Die := modPipe lead (fun p => { p with core := f p.core })

/-- The batches that a core runs for, ascending channel order. -/
def runBatches (d : Die) (lead : Nat) : List Batch := (core d lead).run.filterMap (ticket d)

/-- The check program that a core's target runs. -/
def coreModel (d : Die) (lead : Nat) : Option Model :=
  match runBatches d lead with
  | b :: _ => model d (chan d b.channel).host.slot
  | [] => none

/-- A control register; g0 reads as zero. -/
def reg (d : Die) (lead n : Nat) : Nat := if n = 0 then 0 else (mgetD (core d lead).g n (0 : W64)).toNat

/-- Write a control register; g0 ignores it. -/
def setReg (lead n v : Nat) (d : Die) : Die :=
  if n = 0 then d else modCore lead (fun c => { c with g := mset c.g n (BitVec.ofNat 64 v) }) d

/-- Go to the next word. -/
def nextPc (lead : Nat) (d : Die) : Die := modCore lead (fun c => { c with pc := w32 (c.pc + 1) }) d

/-- Transfer by imm words from the transferring word. -/
def jumpPc (lead imm : Nat) (d : Die) : Die :=
  modCore lead (fun c => { c with pc := uns 32 ((c.pc : Int) + sgn 32 imm) }) d

/-! ## Issue (R260, R270) -/

/-- Internal time at which the running span of a group's program ends. -/
def spanEndAt (d : Die) (lead : Nat) : Nat :=
  ((d.cad.spans.filter (fun s => s.1 == lead && ((d.cad.active.entries[s.2.1]?).map (fun e => e.kind)) == some 1)).map
    (fun s => s.2.2)).foldl max 0

/-- Time of a core, in elevenths of a ns (a cycle of 1.1 GHz takes ten, one of 2.2 GHz five): where its last instruction ended, or
now. (DEDUCED, log entry 83) -/
def coreTime (d : Die) (lead : Nat) : Nat := max (11 * d.tim.up) (core d lead).busy

/-- So many core cycles end within the running span of a core's program. -/
def fitsSpan (d : Die) (lead cycles : Nat) : Bool := decide (coreTime d lead + 10 * cycles ≤ 11 * spanEndAt d lead)

/-- So many core cycles pass on a core. -/
def spend (lead cycles : Nat) (d : Die) : Die :=
  modCore lead (fun c => { c with busy := max (11 * d.tim.up) c.busy + 10 * cycles }) d

/-- The program of a group may issue: in its span, for some batch, with the group free and not halted.
(DESIGN CHOICE, log entry 82) -/
def mayIssue (d : Die) (lead : Nat) : Bool :=
  let c := core d lead
  leads d lead && c.inSpan && !c.halted && !c.run.isEmpty && !groupBusy d lead

/-- A word of a check program (R258). -/
def coreWord (op a b c imm : Nat) : Nat := op + 256 * a + 65536 * b + 16777216 * c + 4294967296 * imm

/-- The word at a core's program counter. -/
def wordNow (d : Die) (lead : Nat) : Option Nat :=
  (coreModel d lead).bind (fun m => m.prog.code[(core d lead).pc]?)

/-- The core stands at an instruction: the command is the one that the word at its program counter spells.
(DESIGN CHOICE, log entry 82) -/
def standsAt (d : Die) (lead : Nat) (w : Nat) : Bool := wordNow d lead == some w

/-- The core stands at an engine instruction of an opcode; the descriptor that its imm names comes with the command.
(DESIGN CHOICE, log entries 81, 82) -/
def standsAtOp (d : Die) (lead op : Nat) : Bool := (wordNow d lead).any (fun w => wOp w == op)

/-- Where the descriptor of the engine instruction at which a core stands is noted: by the slot of its model and its word. -/
def descKey (d : Die) (lead : Nat) : Nat :=
  2 ^ 64 * ((runBatches d lead).head?.elim 0 (fun b => (chan d b.channel).host.slot)) + (wordNow d lead).getD 0

/-- A descriptor is the one that the constant pool holds for the word at which a core stands: the one that its first run has read
there, if it has run (R258, R260). (DESIGN CHOICE, log entry 81) -/
def descFits (d : Die) (lead : Nat) (desc : OpDesc) : Bool := (mget d.descs (descKey d lead)).all (fun x => x == desc)

/-- The constant pool holds a descriptor for the word at which a core stands. (DESIGN CHOICE, log entry 81) -/
def noteDesc (lead : Nat) (desc : OpDesc) (d : Die) : Die := { d with descs := mset d.descs (descKey d lead) desc }

/-- Issue the instruction at which a core stands, of a number of core cycles: held where it does not fit the span. Its
values leave the group where every comparison has passed (R234, R238), and its cycles pass; none where it waits, and the program
stays at it. (DESIGN CHOICE, log entry 82) -/
def issue (lead cycles : Nat) (at_ : Die → Bool) (pts : List PointFault) (f : Die → Option Die) (d : Die) : Die :=
  let d := fetchRun lead d
  if mayIssue d lead && at_ d && fitsSpan d lead cycles then
    match comparePoints lead [] pts d with
    | (d, true) => (f (spend lead cycles d)).getD d
    | (d, false) => d
  else d

/-- Instructions of an engine that have not ended. (DEDUCED, log entry 83) -/
def queueOf (d : Die) (lead eng : Nat) : List Nat :=
  (mgetD (core d lead).queues eng []).filter (fun t => decide (coreTime d lead < t))

/-- Time passes until a core's own time. -/
def passTo (lead : Nat) (d : Die) : Die := passSealed (cdiv (coreTime d lead) 11 - d.tim.up) d

/-- Time at which the last instruction of the engines in a mask ends. -/
def engineEnd (d : Die) (lead mask : Nat) : Nat :=
  ((List.range 6).flatMap (fun e => if tst mask e then mgetD (core d lead).queues e [] else [])).foldl max 0

/-- A core waits until the engines in a mask are idle, and takes its own cycles behind the wait: none where the span ends before
(R259, R270). -/
def drainEngines (lead mask own : Nat) (d : Die) : Option Die :=
  let t := max (coreTime d lead) (engineEnd d lead mask + 10 * own)
  if t ≤ 11 * spanEndAt d lead then some (modCore lead (fun c => { c with busy := t }) d) else none

/-- Put an instruction of a number of arithmetic cycles on an engine's queue of eight; the core stalls while it is
full. None where its end does not fit the span. (DEDUCED, log entry 83) -/
def enqueue (lead eng cycles : Nat) (d : Die) : Option Die :=
  let q := queueOf d lead eng
  let free := if q.length < 8 then coreTime d lead else q.headD 0
  let fin := max free ((q.getLast?).getD free) + 5 * cycles
  if fin ≤ 11 * spanEndAt d lead then
    some (modCore lead (fun c => { c with busy := free, queues := mset c.queues eng (q.filter (fun t => decide (free < t)) ++ [fin]) }) d)
  else none

/-! ## Arrival (R259) -/

/-- A batch's plan entry is staged whole for a token: every tile of it; for a radio batch, some record of its kind. -/
def entryStaged (m : Model) (b : Batch) (token entry : Nat) : Bool :=
  let n := (b.staged.filter (fun s => s.entry == entry && (m.manifest.kind == 2 || s.token == token) && s.rtype != 5)).length
  let need := if m.manifest.kind = 2 then 1 else ((tokenPlan m)[entry]?).elim 1 entryTiles
  decide (need ≤ n) || b.staged.any (fun s => s.rtype == 5 && decide (s.token ≤ token || m.manifest.kind == 2))

/-- The next staged record of a batch, behind a token, is its BATCH_END. -/
def endsBehind (b : Batch) (token : Nat) : Bool := b.staged.any (fun s => s.rtype == 5 && decide (s.token ≤ token + 1))

/-- A record of the token behind a token is staged. (DEDUCED, log entry 84) -/
def goesOn (b : Batch) (token : Nat) : Bool := b.staged.any (fun s => s.rtype != 5 && s.token == token + 1)

/-- WREC: none while the entry is not staged. (DEDUCED, log entry 84) -/
def wrec (lead imm : Nat) (d : Die) : Option Die :=
  let m := coreModel d lead
  let c := core d lead
  if (runBatches d lead).all (fun b => (m.map (fun m => entryStaged m b c.cursor imm)).getD false) then some (nextPc lead d)
  else none

/-- NEXT: the pool's program leaves its token loop when no batch of it has a further token; none while it waits.
(DEDUCED, log entry 83) -/
def nextToken (lead imm : Nat) (d : Die) : Option Die :=
  let c := core d lead
  let bs := runBatches d lead
  if bs.all (fun b => endsBehind b c.cursor) then some (jumpPc lead imm (modCore lead (fun c => { c with cursor := c.cursor + 1 }) d))
  else if bs.all (fun b => endsBehind b c.cursor || goesOn b c.cursor) then
    some (nextPc lead (modCore lead (fun c => { c with cursor := c.cursor + 1 }) d))
  else none

/-! ## Values -/

/-- The batch field that LDB reads; for a pool, of its last batch in channel order. (DEDUCED, log entries 84, 85) -/
def batchField (d : Die) (lead imm : Nat) : Nat :=
  match (runBatches d lead).getLast? with
  | none => 0
  | some b =>
    match imm with
    | 0 => firstOf (chan d b.channel) b
    | 1 => b.batchNo
    | 2 => b2n b.canary
    | 3 => b.month
    | 4 => (chan d b.channel).host.maxTokens
    | _ => w32 (firstOf (chan d b.channel) b + (core d lead).cursor)

/-- The constant pool in front of a core. (DEDUCED, log entry 85) -/
def constants (d : Die) (lead : Nat) : List Nat := ((coreModel d lead).map (fun m => m.prog.consts)).getD []

/-- LDC: a word of the constant pool; admission refuses a program that names one outside it.
(DEDUCED, log entry 85) -/
def loadConst (lead a imm : Nat) (pool : List Nat) (d : Die) : Option Die :=
  (pool[imm]?).map (fun v => nextPc lead (setReg lead a v d))

/-- LOOP. -/
def loopBack (lead a imm : Nat) (d : Die) : Die :=
  let v := w64 (reg d lead a + 18446744073709551615)
  let d := setReg lead a v d
  if v ≠ 0 then jumpPc lead imm d else nextPc lead d

/-! ## The end of a program -/

/-- A batch whose program has ended: the tokens from its first on whose comparisons have all been made (R125, R172). -/
def ended (d : Die) (b : Batch) : Batch := { b with done := true, checked := checkedTokens d b }

/-- A batch's program has ended: a coupled batch is declared, a batch past its commit point gets its verdict (R248,
R269). -/
def batchDone (serial : Nat) (d : Die) : Die :=
  match ticket d serial with
  | none => d
  | some b =>
    let b := ended d b
    let d := modTicket serial (fun _ => b) d
    if (chan d b.channel).coupled then declare serial (ownDecl d b) d
    else if b.due then finishAll (verdictNow serial (toCommit d)) else d

/-- DONE: waits for every engine, then ends the program for its batches. -/
def programDone (lead : Nat) (d : Die) : Option Die :=
  (drainEngines lead 63 4 d).map (fun d =>
    let run := (core d lead).run
    let d := modCore lead (fun c => { c with run := [], pc := 0, cursor := 0, queues := [] }) (passTo lead d)
    run.foldl (fun d s => batchDone s d) d)

/-- MARK: the marking that it prepares takes effect with the verdict, and not here. -/
def markBatches (lead : Nat) (d : Die) : Die :=
  nextPc lead d

/-- SYNC. -/
def syncEngines (lead mask : Nat) (d : Die) : Option Die := (drainEngines lead mask 1 d).map (nextPc lead)

/-- Core cycles of LOOP: one more where it transfers. -/
def loopCycles (d : Die) (lead a : Nat) : Nat := if w64 (reg d lead a + 18446744073709551615) = 0 then 1 else 2

/-- Core cycles of NEXT: one more where it transfers. -/
def nextCycles (d : Die) (lead : Nat) : Nat :=
  if (runBatches d lead).all (fun b => endsBehind b (core d lead).cursor) then 2 else 1

/-! ## The instructions -/

/-- NOP. -/
def execNop (d : DieId) (lead : Copies (BitVec 3)) (s : State) : Host.Outcome State Fault Refusal :=
  let l := lead.at_.toNat
  runDie d (issue l 1 (fun x => standsAt x l (coreWord 0x00 0 0 0 0)) lead.pts (fun x => some (nextPc l x))) s

/-- MOVI. -/
def execMovi (d : DieId) (lead : Copies (BitVec 3)) (a : BitVec 5) (imm : Word) (s : State) :
    Host.Outcome State Fault Refusal :=
  let l := lead.at_.toNat
  runDie d (issue l 1 (fun x => standsAt x l (coreWord 0x01 a.toNat 0 0 imm.toNat)) lead.pts
    (fun x => some (nextPc l (setReg l a.toNat (uns 64 imm.toInt) x)))) s

/-- ADD. -/
def execAdd (d : DieId) (lead : Copies (BitVec 3)) (a b c : BitVec 5) (s : State) :
    Host.Outcome State Fault Refusal :=
  let l := lead.at_.toNat
  runDie d (issue l 1 (fun x => standsAt x l (coreWord 0x02 a.toNat b.toNat c.toNat 0)) lead.pts
    (fun x => some (nextPc l (setReg l a.toNat (w64 (reg x l b.toNat + reg x l c.toNat)) x)))) s

/-- ADDI. -/
def execAddi (d : DieId) (lead : Copies (BitVec 3)) (a b : BitVec 5) (imm : Word) (s : State) :
    Host.Outcome State Fault Refusal :=
  let l := lead.at_.toNat
  runDie d (issue l 1 (fun x => standsAt x l (coreWord 0x03 a.toNat b.toNat 0 imm.toNat)) lead.pts
    (fun x => some (nextPc l (setReg l a.toNat (w64 (reg x l b.toNat + uns 64 imm.toInt)) x)))) s

/-- MUL. -/
def execMul (d : DieId) (lead : Copies (BitVec 3)) (a b c : BitVec 5) (s : State) :
    Host.Outcome State Fault Refusal :=
  let l := lead.at_.toNat
  runDie d (issue l 3 (fun x => standsAt x l (coreWord 0x04 a.toNat b.toNat c.toNat 0)) lead.pts
    (fun x => some (nextPc l (setReg l a.toNat (w64 (reg x l b.toNat * reg x l c.toNat)) x)))) s

/-- SHL. -/
def execShl (d : DieId) (lead : Copies (BitVec 3)) (a b : BitVec 5) (imm : Word) (s : State) :
    Host.Outcome State Fault Refusal :=
  let l := lead.at_.toNat
  runDie d (issue l 1 (fun x => standsAt x l (coreWord 0x05 a.toNat b.toNat 0 imm.toNat)) lead.pts
    (fun x => some (nextPc l (setReg l a.toNat (w64 (reg x l b.toNat * 2 ^ (imm.toNat % 64))) x)))) s

/-- LDC. -/
def execLdc (d : DieId) (lead : Copies (BitVec 3)) (a : BitVec 5) (imm : Word) (s : State) :
    Host.Outcome State Fault Refusal :=
  let l := lead.at_.toNat
  runDie d (issue l 4 (fun x => standsAt x l (coreWord 0x06 a.toNat 0 0 imm.toNat)) lead.pts
    (fun x => loadConst l a.toNat imm.toNat (constants x l) x)) s

/-- LDB; an imm above 5 is a reserved field, which no admitted program holds. -/
def execLdb (d : DieId) (lead : Copies (BitVec 3)) (a : BitVec 5) (imm : Word) (s : State) :
    Host.Outcome State Fault Refusal :=
  let l := lead.at_.toNat
  runDie d (issue l 2 (fun x => standsAt x l (coreWord 0x07 a.toNat 0 0 imm.toNat)) lead.pts (fun x =>
    if imm.toNat ≤ 5 then some (nextPc l (setReg l a.toNat (batchField x l imm.toNat) x)) else none)) s

/-- LOOP. -/
def execLoop (d : DieId) (lead : Copies (BitVec 3)) (a : BitVec 5) (imm : Word) (s : State) :
    Host.Outcome State Fault Refusal :=
  let l := lead.at_.toNat
  runDie d (fun x => issue l (loopCycles (fetchRun l x) l a.toNat)
    (fun x => standsAt x l (coreWord 0x08 a.toNat 0 0 imm.toNat)) lead.pts (fun x => some (loopBack l a.toNat imm.toNat x)) x) s

/-- JMP. -/
def execJmp (d : DieId) (lead : Copies (BitVec 3)) (imm : Word) (s : State) :
    Host.Outcome State Fault Refusal :=
  let l := lead.at_.toNat
  runDie d (issue l 2 (fun x => standsAt x l (coreWord 0x09 0 0 0 imm.toNat)) lead.pts (fun x => some (jumpPc l imm.toNat x))) s

/-- WREC. -/
def execWrec (d : DieId) (lead : Copies (BitVec 3)) (imm : Word) (s : State) :
    Host.Outcome State Fault Refusal :=
  let l := lead.at_.toNat
  runDie d (issue l 1 (fun x => standsAt x l (coreWord 0x0A 0 0 0 imm.toNat)) lead.pts (wrec l imm.toNat)) s

/-- NEXT. -/
def execNext (d : DieId) (lead : Copies (BitVec 3)) (imm : Word) (s : State) :
    Host.Outcome State Fault Refusal :=
  let l := lead.at_.toNat
  runDie d (fun x => issue l (nextCycles (fetchRun l x) l)
    (fun x => standsAt x l (coreWord 0x0B 0 0 0 imm.toNat)) lead.pts (nextToken l imm.toNat) x) s

/-- SYNC. -/
def execSync (d : DieId) (lead : Copies (BitVec 3)) (imm : BitVec 6) (s : State) :
    Host.Outcome State Fault Refusal :=
  let l := lead.at_.toNat
  runDie d (issue l 1 (fun x => standsAt x l (coreWord 0x0C 0 0 0 imm.toNat)) lead.pts (syncEngines l imm.toNat)) s

/-- MARK. -/
def execMark (d : DieId) (lead : Copies (BitVec 3)) (s : State) : Host.Outcome State Fault Refusal :=
  let l := lead.at_.toNat
  runDie d (issue l 8 (fun x => standsAt x l (coreWord 0x0D 0 0 0 0)) lead.pts (fun x => some (markBatches l x))) s

/-- DONE. -/
def execDone (d : DieId) (lead : Copies (BitVec 3)) (s : State) : Host.Outcome State Fault Refusal :=
  let l := lead.at_.toNat
  runDie d (issue l 4 (fun x => standsAt x l (coreWord 0x0E 0 0 0 0)) lead.pts (programDone l)) s

end Sys2Proof.Machine
end

