-- ==== Sys2Proof/Machine/Engines.lean ====
section
/-! DEFINITION. Engine instructions: how one runs, the residue and banded passes, and reference arithmetic on NLE
(R119 to R126, R134, R142 to R159, R258 to R260, R271). The digests of SHK stand beside them (R209, R449). -/

namespace Sys2Proof.Machine

/-! ## Buffers and staged records -/

/-- A buffer of a token: FP32 patterns, or the codes of a format (`quantCodes`). -/
def buf (b : Batch) (token n : Nat) : List F32 := mgetD b.bufs (token * 65536 + n) []

/-- Write a buffer of a token. -/
def setBuf (serial token n : Nat) (v : List F32) : Die → Die :=
  modTicket serial (fun b => { b with bufs := mset b.bufs (token * 65536 + n) v })

/-- The staged records of a plan entry for a token, in arrival order. -/
def recsOf (b : Batch) (token entry : Nat) : List RecIn :=
  (b.staged.filter (fun s => s.entry == entry && s.token == token && s.rtype != 5)).map (fun s => s.r)

/-- The batch has a record of a token. -/
def hasToken (b : Batch) (token : Nat) : Bool := b.staged.any (fun s => s.rtype != 5 && s.token == token)

/-- Data bytes of a tensor record. -/
def recData (r : RecIn) : Bytes :=
  let s := subHead r.payload
  slice r.payload 16 (dataBytes s.fmt s.count)

/-- Streamed elements of a plan entry, as dyadic values. -/
def streamed (b : Batch) (token entry : Nat) : List (Option Dy) :=
  (recsOf b token entry).flatMap (fun r => let s := subHead r.payload; values s.fmt s.scale s.count (recData r))

/-- Streamed elements of a plan entry as extended reals with their ulp exponents (R143). -/
def streamedX (b : Batch) (token entry : Nat) : List (FV × Int) :=
  (recsOf b token entry).flatMap (fun r =>
    let s := subHead r.payload
    let bs := recData r
    let raws := rawElems s.fmt s.count (bs.drop (scaleBytes s.fmt s.count))
    if fmtMx s.fmt then raws.mapIdx (fun i c =>
      (elemX s.fmt (byteAt bs (i / 32) : Int) c, ulpExp s.fmt (elemX s.fmt 127 c) + (byteAt bs (i / 32) : Int) - 127))
    else raws.map (fun c => (elemX s.fmt s.scale c, ulpExp s.fmt (elemX s.fmt 0 c) + s.scale)))

/-- The op of the op table at a locus. -/
def opAt (m : Model) (locus : Nat) : Option OpE := m.manifest.ops.find? (fun o => o.locus == locus / 4096 * 4096)

/-- Integer codes of a buffer as dyadic values. -/
def bufDy (fmt : Nat) (scale : Int) (x : F32) : Dy := ⟨sgn (fmtBits fmt) x.toNat, scale⟩

/-- The codes of the streamed elements of a plan entry. -/
def streamedCodes (b : Batch) (token entry : Nat) : List F32 :=
  (recsOf b token entry).flatMap (fun r => let s := subHead r.payload; dataCodes s.fmt s.count (recData r))

/-- Values of a retained tensor's row, dequantised (R152). -/
def retainedRow (m : Model) (tensor row : Nat) : List FV :=
  match m.manifest.tensors[tensor]?, mget m.retained tensor with
  | some t, some bs => (valuesX t.fmt 0 t.cols (slice bs (row * rowBytes t.fmt t.cols) (rowBytes t.fmt t.cols))).map rn32
  | _, _ => []

/-- Position of a token of a batch. -/
def posOf (d : Die) (b : Batch) (token : Nat) : Nat := w32 (firstOf (chan d b.channel) b + token)

/-! ## Check status (R125, R140, R172) -/

/-- A check of a token has been made. -/
def noteMade (serial token key : Nat) (d : Die) : Die :=
  match ticket d serial with
  | none => d
  | some b =>
    let b := { b with made := mset b.made token (key :: mgetD b.made token []) }
    modTicket serial (fun _ => { b with checked := checkedTokens d b }) d

/-- A check of a token has failed: page, bits of its capture register above the channel, locus, extra word. -/
def failCheck (serial token cause page upper locus extra : Nat) (d : Die) : Die :=
  match ticket d serial with
  | none => d
  | some b =>
    let e := (page, upper, locus, posOf d b token, extra)
    modTicket serial (fun b => addFail token cause { b with caps := b.caps ++ [e] }) d

/-- The locus that names the record of a failed check: its first record's. (DESIGN CHOICE, log entry 189) -/
def checkLocus (b : Batch) (token entry locus : Nat) : Nat :=
  match recsOf b token entry with
  | r :: _ => r.locus.toNat
  | [] => locus

/-! ## Running an instruction -/

/-- Engines, as SYNC numbers them, and their block codes. -/
def engBlk : Nat → Nat
  | 0 => 8 | 1 => 9 | 2 => 10 | 3 => 11 | 4 => 13 | _ => 12

/-- A cost summed over the batches of a program. -/
def perBatch (cost : Die → Batch → Model → Nat) (d : Die) (bs : List Batch) (m : Model) : Nat := sumL (bs.map (fun b => cost d b m))

/-- Issue an engine instruction, where the core stands at one of its opcode and the pool holds its descriptor: it is issued if its
engine ends it within the span; it acts on each batch of the program in ascending channel order; the core goes on by `go`; what the
hardware does wrong meanwhile follows. `cost` counts its arithmetic cycles. (DESIGN CHOICE, log entries 81, 82) -/
def engineIssue (lead eng op : Nat) (desc : OpDesc) (cost : Die → List Batch → Model → Nat)
    (eff : Batch → Model → Nat → Die → Die) (go : Die → Die) (phys : List PhysFault) (d : Die) : Die :=
  issue lead 1 (fun d => standsAtOp d lead op && descFits d lead desc) [] (fun d =>
    (coreModel d lead).bind (fun m =>
      let c := core d lead
      (enqueue lead eng (cost d (runBatches d lead) m) (noteDesc lead desc d)).map (fun d =>
        let d := c.run.foldl (fun d s =>
          match ticket d s with
          | some b => eff b m c.cursor d
          | none => d) d
        phys.foldl (physFault (engBlk eng) lead c.run) (go d)))) d

/-- Run an engine instruction: the program goes to its next word. -/
def engineRun (lead eng op : Nat) (desc : OpDesc) (cost : Die → List Batch → Model → Nat)
    (eff : Batch → Model → Nat → Die → Die) : List PhysFault → Die → Die :=
  engineIssue lead eng op desc cost eff (nextPc lead)

/-- Run an instruction on the cursor token of every batch that has it. -/
def tokenRun (lead eng op : Nat) (desc : OpDesc) (cost : Die → Batch → Model → Nat → Nat) (eff : Batch → Model → Nat → Die → Die)
    (phys : List PhysFault) (d : Die) : Die :=
  let d := fetchRun lead d
  let t := (core d lead).cursor
  engineRun lead eng op desc (perBatch (fun d b m => if hasToken b t then cost d b m t else 0))
    (fun b m t d => if hasToken b t then eff b m t d else d) phys d

/-! ## Table passes (R126, R271) -/

/-- The tokens of a batch that a table pass gathers: the descriptor's range about the cursor, as far as the batch has them. -/
def passTokens (b : Batch) (desc : OpDesc) (cursor : Nat) : List Nat :=
  ((List.range (desc.p0.toNat + desc.p1.toNat + 1)).map (fun i => cursor + i)).filterMap (fun t =>
    if desc.p0.toNat ≤ t ∧ hasToken b (t - desc.p0.toNat) then some (t - desc.p0.toNat) else none)

/-- A pass waits until every token it holds has been staged: until its last token, or the BATCH_END, is there. -/
def passReady (b : Batch) (desc : OpDesc) (cursor : Nat) : Bool :=
  b.closed || b.staged.any (fun s => s.rtype == 4 && decide (cursor + desc.p1.toNat ≤ s.token))
    || (desc.p1 == 0 && hasToken b cursor)

/-- Tokens of a table pass at the most: those of the window, 1 to 64 (R264). -/
def passSize (bs : List Batch) : Nat :=
  match bs with
  | b :: _ => max 1 (min 64 ((b.window.map (fun w => w.entry.passTokens)).getD 1))
  | [] => 1

/-- A token of a descriptor's range has been staged whole. -/
def passHas (b : Batch) (desc : OpDesc) (cursor token : Nat) : Bool :=
  passReady b desc cursor || b.staged.any (fun s => s.rtype == 4 && decide (token ≤ s.token))

/-- The tokens, each with its batch, that the passes of a program's batches gather, as far as they are known: batch by batch in
ascending channel order, up to the first that is not staged; and whether they are all. -/
def gathered (desc : OpDesc) (cursor : Nat) : List Batch → List (Nat × Nat) × Bool
  | [] => ([], true)
  | b :: r =>
    let own := ((passTokens b desc cursor).filter (passHas b desc cursor)).map (fun t => (b.serial, t))
    if passReady b desc cursor then (own ++ (gathered desc cursor r).1, (gathered desc cursor r).2) else (own, false)

/-- Cut a list into pieces of a size, the last with the remainder. -/
def passPieces {α : Type} (size : Nat) (l : List α) : List (List α) :=
  (List.range (cdiv l.length size)).map (fun i => (l.drop (i * size)).take size)

/-- The passes of a program's batches bound to each of some Months: those that may be issued, whose tokens have all been staged,
and whether they are all. -/
def monthPasses (desc : OpDesc) (cursor size : Nat) (bs : List Batch) : List Nat → List (List (Nat × Nat)) × Bool
  | [] => ([], true)
  | month :: r =>
    let g := gathered desc cursor (bs.filter (fun b => b.month == month))
    if g.2 then (passPieces size g.1 ++ (monthPasses desc cursor size bs r).1, (monthPasses desc cursor size bs r).2)
    else ((passPieces size g.1).filter (fun p => p.length == size), false)

/-- The table passes of an instruction over a program's batches: tokens of one Month, pass_tokens at a time, the last with the
remainder (R126, R271). -/
def passesOf (desc : OpDesc) (cursor : Nat) (bs : List Batch) : List (List (Nat × Nat)) × Bool :=
  monthPasses desc cursor (passSize bs) bs ((bs.map (fun b => b.month)).eraseDups)

/-- A table pass has been issued: the program goes to its next word behind the last of the instruction's passes. -/
def passIssued (lead : Nat) (more : Bool) (d : Die) : Die :=
  if more then modCore lead (fun c => { c with passNo := c.passNo + 1 }) d
  else nextPc lead (modCore lead (fun c => { c with passNo := 0 }) d)

/-- Run the next table pass of an instruction, once every token that it holds has been staged; until then the program waits.
(DESIGN CHOICE, log entry 81) -/
def passRun (lead eng op : Nat) (desc : OpDesc) (cost : Die → Model → Nat → Nat)
    (eff : Batch → Model → Nat → Die → Die) (phys : List PhysFault) (d : Die) : Die :=
  let d := fetchRun lead d
  let k := (core d lead).passNo
  let ps := passesOf desc (core d lead).cursor (runBatches d lead)
  if k < ps.1.length ∨ ps.2 = true then
    let p := (ps.1[k]?).getD []
    engineIssue lead eng op desc (fun d _ m => if p.isEmpty then 0 else cost d m p.length)
      (fun b m _ d => (p.filter (fun q => q.1 == b.serial)).foldl (fun d q => eff b m q.2 d) d)
      (passIssued lead (!ps.2 || decide (k + 1 < ps.1.length))) phys d
  else d

/-- The tables of the Month a batch is bound to, its model and its op's weight tensor. -/
def opTables (b : Batch) (m : Model) (locus : Nat) : Option (Tables × OpE × Nat × TensorE) :=
  match tablesOf m b.month, opAt m locus with
  | some tb, some o =>
    match m.manifest.tensors[o.tensor]? with
    | some t => some (tb, o, o.tensor, t)
    | none => none
  | _, _ => none

/-- The input scale exponent of a class-1 or class-2 op: its parameter of kind 1 (R497). -/
def inScale (m : Model) (o : OpE) : Int := sgn 64 (param m.prog o.locus 1 0)

/-- The entries of an op in its projection table buffer, in the order of their offsets: that of column c and secret j is
number k × c + j of them (R130). -/
def opWords (k cols : Nat) (tb : Tables) (i : Nat) : List Nat :=
  (List.range cols).flatMap (fun c => (List.range k).map (fun j => ((mgetD tb.proj i []).getD j []).getD c 0))

/-- Entries of an op whose bits [63:61] are not zero: each reads as an uncorrectable word (R130). -/
def badWords (m : Model) (tb : Tables) (i : Nat) (w : TensorE) : Nat :=
  ((opWords m.k w.cols tb i).filter (fun x => decide (2 ^ 61 ≤ x))).length

/-- A batch has read entries that are no canonical residues: they are counted as uncorrectable words and the comparisons that
need them are not made (R130, R138, R394). -/
def badTable (page : Nat) (b : Batch) (n : Nat) (d : Die) : Die :=
  activeHit page 5 (chan d b.channel).host.slot b.month (poisonBatch b.serial (countN pHBM 0x054 n d))

/-- The two sides of the k residue comparisons of one token (R124, R125). -/
def residueOf (desc : OpDesc) (b : Batch) (m : Model) (tb : Tables) (o : OpE) (i : Nat) (w : TensorE) (token : Nat) :
    List (Nat × Nat) :=
  let y := (streamed b token desc.entry.toNat).map (fun v => v.getD ⟨0, 0⟩)
  let x := (buf b token desc.a.toNat).map (bufDy o.inFmt (inScale m o))
  (List.range m.k).map (fun j =>
    residueSides ((rowSecrets tb.key j (rMax m.manifest)).take w.rows) ((mgetD tb.proj i []).getD j []) y x)

/-- The residue comparisons of one token. -/
def residueToken (desc : OpDesc) (b : Batch) (m : Model) (token : Nat) (d : Die) : Die :=
  match opTables b m desc.locus.toNat with
  | none => d
  | some (tb, o, i, w) =>
    if badWords m tb i w ≠ 0 then badTable pRES b (badWords m tb i w) d
    else
      let sides := residueOf desc b m tb o i w token
      let bad := (sides.filter (fun p => p.1 != p.2)).length
      let d := countN pRES 0x074 bad (countN pRES 0x070 m.k d)
      let d := match firstUnequal sides with
        | some j => failCheck b.serial token 1 pRES j (checkLocus b token desc.entry.toNat desc.locus.toNat) 0 d
        | none => d
      noteMade b.serial token (2 * o.locus) d

/-- Cycles of a residue pass of n tokens (R134). -/
def residueCycles (lead : Nat) (desc : OpDesc) (d : Die) (m : Model) (n : Nat) : Nat :=
  let s := opShape m (desc.locus.toNat / 4096 * 4096)
  cdiv (m.k * n * (s.1 + s.2)) (lanesOf d lead 0) + 24

/-- The k banded comparisons of one token on a number of lanes (R142). -/
def bandedOf (lanes : Nat) (desc : OpDesc) (b : Batch) (m : Model) (tb : Tables) (o : OpE) (i : Nat) (w : TensorE)
    (token : Nat) : List Banded :=
  let y := streamedX b token desc.entry.toNat
  let x := (buf b token desc.a.toNat).map (codeVal o.inFmt (inScale m o))
  let wrow := f64v ((mgetD tb.wrow i []).headD 0)
  (List.range m.k).map (fun j =>
    let sec := ((rowSecrets tb.key j (rMax m.manifest)).take w.rows).map bsec
    bandedCheck lanes w.rows w.cols o.ulp wrow sec (((mgetD tb.proj i []).getD j []).map bandValue) y x)

/-- The records of an entry whose block scales are not those of their elements, each with the number of its bad blocks
(R142). -/
def badScales (b : Batch) (token entry : Nat) : List (RecIn × Nat) :=
  (recsOf b token entry).filterMap (fun r =>
    let s := subHead r.payload
    let n := badBlocks s.fmt s.count (recData r)
    if n = 0 then none else some (r, n))

/-- The banded comparisons and scale checks of one token. Where both a scale check and a comparison fail, the scale check is
captured first, with BND_FAIL_RATIO 0; a comparison names its first tile's locus. (DESIGN CHOICE, log entry 189) -/
def bandedToken (lead : Nat) (desc : OpDesc) (b : Batch) (m : Model) (token : Nat) (d : Die) : Die :=
  match opTables b m desc.locus.toNat with
  | none => d
  | some (tb, o, i, w) =>
    if badWords m tb i w ≠ 0 then badTable pBND b (badWords m tb i w) d
    else
      let e := desc.entry.toNat
      let res := bandedOf (lanesOf d lead 1) desc b m tb o i w token
      let scales := badScales b token e
      let nonfin := ((streamedX b token e).filter (fun p => !isFin p.1)).length
      let bad := (res.filter (fun r => !r.ok)).length
      let d := countN pBND 0x07C nonfin (countN pBND 0x078 (bad + sumL (scales.map (fun q => q.2))) (countN pBND 0x074 m.k d))
      let d := match scales with
        | q :: _ => failCheck b.serial token 2 pBND 8 q.1.locus.toNat 0 d
        | [] => d
      let d := match res.findIdx? (fun r => !r.ok) with
        | some j =>
          failCheck b.serial token 2 pBND j (checkLocus b token e desc.locus.toNat) ((res[j]?).elim 0 (fun r => r.ratio)) d
        | none => d
      noteMade b.serial token (2 * o.locus) d

/-- Cycles of a banded pass of n tokens (R147). -/
def bandedCycles (lead : Nat) (desc : OpDesc) (d : Die) (m : Model) (n : Nat) : Nat :=
  let s := opShape m (desc.locus.toNat / 4096 * 4096)
  cdiv (m.k * (n * (3 * s.1 + 2 * s.2) + s.1)) (lanesOf d lead 1) + 32

/-! ## Reference arithmetic on NLE -/

/-- Reference arithmetic has produced or quantised NaNs (R153, R163). (DEDUCED, log entry 87) -/
def countNan (n : Nat) (d : Die) : Die := if n = 0 then d else raise pNLE 5 (countN pNLE 0x07C n d)

/-- NaNs of a list. (DEDUCED, log entry 87) -/
def nans (l : List FV) : Nat := (l.filter isNan).length

/-- Write an NLE result in FP32, counting its NaNs. -/
def putF32 (serial token n : Nat) (v : List FV) (d : Die) : Die :=
  countNan (nans v) (setBuf serial token n (v.map f32b) d)

/-- The FP32 vector of a buffer. -/
def bufF32 (b : Batch) (token n : Nat) : List FV := (buf b token n).map f32v

/-- Cycles of an NLE instruction over n elements: ⌈p n / (q L_n)⌉ + r (R259). -/
def nleCycles (lead p q r : Nat) (d : Die) (n : Nat) : Nat := cdiv (p * n) (q * lanesOf d lead 2) + r

/-- Elements of a buffer. -/
def bufLen (b : Batch) (token n : Nat) : Nat := (buf b token n).length

/-- DQ: the streamed elements of an entry, or with fn 1 the elements of a buffer, as dq. -/
def dqToken (desc : OpDesc) (b : Batch) (_m : Model) (token : Nat) (d : Die) : Die :=
  let v := if desc.fn = 1 then (buf b token desc.a.toNat).map (codeVal desc.fmt.toNat desc.scale.toInt)
    else (streamedX b token desc.entry.toNat).map (fun p => p.1)
  putF32 b.serial token desc.dst.toNat (v.map rn32) d

/-- Scale exponent of a quantisation: that of q_int is the parameter of kind 13 (R157, R497). -/
def quantScale (desc : OpDesc) (m : Model) : Int :=
  if isIntFmt desc.fmt.toNat then sgn 64 (param m.prog desc.locus.toNat 13 0) else desc.scale.toInt

/-- QNT: a vector quantised to a format; the buffer holds its codes (R157). -/
def qntToken (desc : OpDesc) (b : Batch) (m : Model) (token : Nat) (d : Die) : Die :=
  let x := bufF32 b token desc.a.toNat
  countNan (nans x) (setBuf b.serial token desc.dst.toNat (quantCodes desc.fmt.toNat (quantScale desc m) x) d)

/-- ADDV: fn 0 a residual add of streamed elements, fn 1 a bias add of a retained tensor's row to them, fn 2 an add of two
vectors (R156). -/
def addvToken (desc : OpDesc) (b : Batch) (m : Model) (token : Nat) (d : Die) : Die :=
  let a := bufF32 b token desc.a.toNat
  let y := (streamedX b token desc.entry.toNat).map (fun p => p.1)
  let v := match desc.fn.toNat with
    | 0 => List.zipWith addX a y
    | 1 => List.zipWith addX y (retainedRow m desc.tensor.toNat 0)
    | _ => List.zipWith addX a (bufF32 b token desc.b.toNat)
  putF32 b.serial token desc.dst.toNat (v.map rn32) d

/-- eps of a norm (R497). -/
def epsOf (m : Model) (locus : Nat) : FV := f64v (param m.prog locus 2 0)

/-- NORM: fn 0 rmsnorm, 1 layernorm; gains in `tensor`, biases in the tensor that p0 names. -/
def normToken (desc : OpDesc) (b : Batch) (m : Model) (token : Nat) (d : Die) : Die :=
  let x := bufF32 b token desc.a.toNat
  let g := retainedRow m desc.tensor.toNat 0
  let eps := epsOf m desc.locus.toNat
  putF32 b.serial token desc.dst.toNat
    (if desc.fn = 0 then rmsnorm x g eps else layernorm x g (retainedRow m desc.p0.toNat 0) eps) d

/-- A may-vary primitive's result: within 2 ULP of the correctly rounded one, of its sign (R159).
(DESIGN CHOICE, log entry 86) -/
def fastNear (code arg : Nat) (v : FV) : FV :=
  match v with
  | .fin s (_ + 1) _ =>
    let n := (f32b (absX v)).toNat + Config.fastPrimitive code arg % 5 - 2
    let r := f32v (BitVec.ofNat 32 (min 0x7F800000 n))
    if s then negX r else r
  | v => v

/-- NORMF: as NORM with the fast rsqrt. -/
def normfToken (desc : OpDesc) (b : Batch) (m : Model) (token : Nat) (d : Die) : Die :=
  let x := bufF32 b token desc.a.toNat
  let g := retainedRow m desc.tensor.toNat 0
  let eps := epsOf m desc.locus.toNat
  let mu := if desc.fn = 0 then FV.zero else divNat bin64 .near (sumX x) x.length
  let c := if desc.fn = 0 then x else x.map (fun v => rn64 (subX v mu))
  let v := addX (divNat bin64 .near (sumX (c.map (fun a => mulX a a))) x.length) eps
  let r := fastNear 0 (f64b v) (rsqrtR bin32 v)
  let bias := if desc.fn = 0 then g.map (fun _ => FV.fin true 0 0) else retainedRow m desc.p0.toNat 0
  count pNLE 0x080 (putF32 b.serial token desc.dst.toNat
    (List.zipWith (fun a w =>
      let s := mulX (rn32 (mulX a r)) w.1
      rn32 (if desc.fn = 0 then s else addX s w.2)) c (List.zip g bias)) d)

/-- The functions of R154 by number: 0 relu, 1 sigmoid, 2 silu, 3 gelu_tanh, 4 gelu_erf, 5 swiglu, 6 geglu. -/
def actFn (fn : Nat) (a u : FV) : FV :=
  match fn with
  | 0 => reluR a
  | 1 => sigmoidR a
  | 2 => siluR a
  | 3 => geluTanhR a
  | 4 => geluErfR a
  | 5 => rn32 (mulX (siluR a) u)
  | _ => rn32 (mulX (geluErfR a) u)

/-- The vector that gates, element for element; zeros where the function takes none. -/
def gateOf (desc : OpDesc) (b : Batch) (token : Nat) (x : List FV) : List FV :=
  if desc.fn.toNat ≤ 4 then x.map (fun _ => FV.zero) else bufF32 b token desc.b.toNat

/-- ACT. -/
def actToken (desc : OpDesc) (b : Batch) (_m : Model) (token : Nat) (d : Die) : Die :=
  let x := bufF32 b token desc.a.toNat
  putF32 b.serial token desc.dst.toNat (List.zipWith (actFn desc.fn.toNat) x (gateOf desc b token x)) d

/-- 0.5 × x × (1 + t). -/
def halfGate (x t : FV) : FV := rn32 (scaleX (mulX x (addX (intX 1) t)) (-1))

/-- The fast form of a function of one argument of R154: the exact function around a primitive within 2 ULP of its own correctly
rounded result; infinities and NaN as the exact function has them. (DESIGN CHOICE, log entry 86) -/
def fastOne (fn : Nat) (a : FV) : FV :=
  let arg := (f32b a).toNat
  if !isFin a then actFn fn a .zero
  else
    match fn with
    | 1 => fastNear 1 arg (sigmoidR a)
    | 2 => rn32 (mulX a (fastNear 1 arg (sigmoidR a)))
    | 3 => halfGate a (fastNear 2 arg (geluTanhInner a))
    | _ => halfGate a (fastNear 3 arg (geluErfInner a))

/-- The fast form of a function of R154 (R159). -/
def fastAct (fn : Nat) (a u : FV) : FV :=
  match fn with
  | 5 => rn32 (mulX (fastOne 2 a) u)
  | 6 => rn32 (mulX (fastOne 4 a) u)
  | k => fastOne k a

/-- ACTF. -/
def actfToken (desc : OpDesc) (b : Batch) (_m : Model) (token : Nat) (d : Die) : Die :=
  let x := bufF32 b token desc.a.toNat
  count pNLE 0x080 (putF32 b.serial token desc.dst.toNat (List.zipWith (fastAct desc.fn.toNat) x (gateOf desc b token x)) d)

/-- ROPE: each head of a vector turned at the token's position. -/
def ropeToken (desc : OpDesc) (b : Batch) (m : Model) (token : Nat) (d : Die) : Die :=
  let x := bufF32 b token desc.a.toNat
  let l := desc.locus.toNat
  let rec heads : Nat → List FV → List FV
    | 0, _ => []
    | n + 1, v => ropeR (v.take desc.dim.toNat) (posOf d b token) (param m.prog l 3 0) (param m.prog l 4 0)
        ++ heads n (v.drop desc.dim.toNat)
  putF32 b.serial token desc.dst.toNat (heads desc.heads.toNat x) d

/-- The comparisons of BAND, element for element; streamed elements without a reference fail (R150). -/
def bandOf (desc : OpDesc) (b : Batch) (o : OpE) (scale : Int) (token : Nat) : List Bool :=
  let xs := (streamedX b token desc.entry.toNat).map (fun p => p.1)
  let res := List.zipWith (fun s q => bandElemOk s q.1 q.2 o.ulp) xs (quantise o.inFmt scale (bufF32 b token desc.a.toNat))
  res ++ List.replicate (xs.length - res.length) false

/-- BAND: LAYER_IN elements against the reference quantised to the op's in_fmt at the plan's scale (R150); the streamed
elements are what the op's checks then use. -/
def bandToken (desc : OpDesc) (b : Batch) (m : Model) (token : Nat) (d : Die) : Die :=
  let e := desc.entry.toNat
  match opAt m desc.locus.toNat, (tokenPlan m)[e]? with
  | some o, some pe =>
    let n := (streamedX b token e).length
    let sc := sgn 8 pe.scale
    let ok := bandOf desc b o sc token
    let bad := (ok.filter (fun v => !v)).length
    let d := countN pNLE 0x078 bad (countN pNLE 0x074 n (countNan (nans (bufF32 b token desc.a.toNat)) d))
    let d := match ok.findIdx? (fun v => !v) with
      | some i =>
        let tile := if pe.tileElems = 0 then 0 else i / pe.tileElems
        failCheck b.serial token 3 pNLE 0 (pe.locus + tile) i d
      | none => d
    noteMade b.serial token (2 * o.locus + 1) (setBuf b.serial token desc.dst.toNat (streamedCodes b token e) d)
  | _, _ => d

/-- The OUTPUT record of a token. -/
def outputOf (b : Batch) (token : Nat) : Option Bytes :=
  (b.staged.find? (fun s => s.rtype == 6 && s.token == token)).map (fun s => s.r.payload)

/-- SEL: the selection over a logit vector for the draw that OUTPUT carries (R158). -/
def selToken (desc : OpDesc) (b : Batch) (m : Model) (token : Nat) (d : Die) : Die :=
  let l := desc.locus.toNat
  let draw := ((outputOf b token).map (fun p => u32At p 12)).getD 0
  match selectToken (bufF32 b token desc.a.toNat) (param m.prog l 9 0) (f32v (BitVec.ofNat 32 (param m.prog l 10 0)))
      (param m.prog l 11 0) draw with
  | some v => setBuf b.serial token desc.dst.toNat [BitVec.ofNat 32 v] d
  | none => modTicket b.serial (addFail token 11) d

/-- The OUTPUT of a token equals what the device derived: ids one by one, a tensor bit for bit in its format (R71). -/
def outputEqual (p : Bytes) (want : List F32) : Bool :=
  let n := u32At p 8
  if byteAt p 4 = 1 then
    (pieces n 4 (p.drop 16)).map leVal == want.map (fun v => v.toNat)
  else
    dataCodes (byteAt p 5) n (slice p 16 (dataBytes (byteAt p 5) n)) == want

/-- OCMP. -/
def ocmpToken (desc : OpDesc) (b : Batch) (_m : Model) (token : Nat) (d : Die) : Die :=
  let d := match outputOf b token with
    | some p => if outputEqual p (buf b token desc.a.toNat) then d else modTicket b.serial (addFail token 11) d
    | none => d
  noteMade b.serial token (2 * (desc.locus.toNat / 4096 * 4096)) d

/-- The token ids that EMB looks up: of a buffer; with fn 1 those of the previous token's OUTPUT, or the constant p0. -/
def embIds (desc : OpDesc) (b : Batch) (token : Nat) : List Nat :=
  if desc.fn = 0 then (buf b token desc.a.toNat).map (fun v => v.toNat)
  else
    match token with
    | 0 => [desc.p0.toNat]
    | t + 1 =>
      match outputOf b t with
      | some p => (pieces (u32At p 8) 4 (p.drop 16)).map leVal
      | none => [desc.p0.toNat]

/-- EMB: the rows of the retained embedding tensor; an id at or above vocab is a failed check (R152). -/
def embToken (desc : OpDesc) (b : Batch) (m : Model) (token : Nat) (d : Die) : Die :=
  let ids := embIds desc b token
  if ids.any (fun v => decide (m.manifest.vocab ≤ v)) then modTicket b.serial (addFail token 11) d
  else putF32 b.serial token desc.dst.toNat (ids.flatMap (retainedRow m desc.tensor.toNat)) d

/-! ## Digests on SHK (R209, R449, R450) -/

/-- A digest as eight buffer words. -/
def digBuf (dg : Bytes) : List F32 := (pieces 8 4 dg).map (fun w => BitVec.ofNat 32 (leVal w))

/-- The bytes of a digest in a buffer. -/
def bufDig (v : List F32) : Bytes := v.flatMap (fun w => leBytes 4 w.toNat)

/-- What DIG absorbs: fn 0 and 1 the payloads of an entry's records, for the batch's output and input digest; fn 2 a
boundary tensor encoded in the plan's format; fn 3 the element data of an entry's records. -/
def digBytes (desc : OpDesc) (b : Batch) (token : Nat) : Bytes :=
  match desc.fn.toNat with
  | 2 => packElems desc.fmt.toNat desc.scale.toInt (bufF32 b token desc.a.toNat)
  | 3 => (recsOf b token desc.entry.toNat).flatMap recData
  | _ => (recsOf b token desc.entry.toNat).flatMap (fun r => r.payload)

/-- DIG: the digests of R209 are formed from the records as they arrived; those of a boundary go to a buffer. -/
def digToken (desc : OpDesc) (b : Batch) (_m : Model) (token : Nat) (d : Die) : Die :=
  let bs := digBytes desc b token
  let d := countN pSHK 0x058 (cdiv (bs.length + 1) 136) d
  if desc.fn.toNat ≤ 1 then d else setBuf b.serial token desc.dst.toNat (digBuf (h32 bs)) d

/-- DCMP: a digest against four words of the constant pool: fn 0 a canary batch's output digest, else one in a buffer. -/
def dcmpToken (desc : OpDesc) (b : Batch) (m : Model) (token : Nat) (d : Die) : Die :=
  let want := ((m.prog.consts.drop desc.p0.toNat).take 4).flatMap (leBytes 8)
  if desc.fn = 0 then
    if b.canary && outputDigest b != want then modTicket b.serial (addFail token 7) d else d
  else if bufDig (buf b token desc.a.toNat) != want then modTicket b.serial (addFail token 10) d
  else d

/-- The SHARD_DIGEST of a token with a direction. -/
def shardDigestOf (b : Batch) (token dir : Nat) : Option Bytes :=
  (b.staged.find? (fun s => s.rtype == 10 && s.token == token && byteAt s.r.payload 4 == dir)).map
    (fun s => slice s.r.payload 16 32)

/-- What BOUNDARY has delivered for a token: the flag and the digest. -/
def boundaryOf (d : Die) (b : Batch) (token : Nat) : Option (Nat × Bytes) :=
  match chainOf d b.channel with
  | some c => mget c.digests (posOf d b token)
  | none => none

/-- SHDC of one token, direction fn: the derived digest in a buffer against SHARD_DIGEST, and at a receiving shard both
against the digest that came over Peloton. Against a void or missing digest no check is made (R17, R450). -/
def shdcToken (desc : OpDesc) (b : Batch) (_m : Model) (token : Nat) (d : Die) : Die :=
  let own := bufDig (buf b token desc.a.toNat)
  if desc.fn = 1 then
    let d := if shardDigestOf b token 1 == some own then d else modTicket b.serial (addFail token 10) d
    noteMade b.serial token 3 (modTicket b.serial (fun b => { b with bounds := mset b.bounds (posOf d b token) own }) d)
  else
    match boundaryOf d b token with
    | some (1, dg) =>
      noteMade b.serial token 1
        (if own == dg && shardDigestOf b token 0 == some dg then d else modTicket b.serial (addFail token 10) d)
    | _ => d

/-- SHDC at a receiving shard waits for the digest of every batch's cursor token. -/
def shdcReady (desc : OpDesc) (d : Die) (lead : Nat) : Bool :=
  let t := (core d lead).cursor
  desc.fn == 1 || (runBatches d lead).all (fun b => !hasToken b t || (boundaryOf d b t).isSome)

/-! ## The instructions -/

/-- RCHK. -/
def execRchk (d : DieId) (lead : BitVec 3) (desc : OpDesc) (phys : List PhysFault) (s : State) :
    Host.Outcome State Fault Refusal :=
  runDie d (passRun lead.toNat 0 0x20 desc (residueCycles lead.toNat desc) (residueToken desc) phys) s

/-- BCHK. -/
def execBchk (d : DieId) (lead : BitVec 3) (desc : OpDesc) (phys : List PhysFault) (s : State) :
    Host.Outcome State Fault Refusal :=
  runDie d (passRun lead.toNat 1 0x21 desc (bandedCycles lead.toNat desc) (bandedToken lead.toNat desc) phys) s

/-- DQ. -/
def execDq (d : DieId) (lead : BitVec 3) (desc : OpDesc) (phys : List PhysFault) (s : State) :
    Host.Outcome State Fault Refusal :=
  runDie d (tokenRun lead.toNat 2 0x30 desc (fun x b _ t => nleCycles lead.toNat 1 1 8 x
    (if desc.fn = 1 then bufLen b t desc.a.toNat else (streamedX b t desc.entry.toNat).length))
    (dqToken desc) phys) s

/-- QNT. -/
def execQnt (d : DieId) (lead : BitVec 3) (desc : OpDesc) (phys : List PhysFault) (s : State) :
    Host.Outcome State Fault Refusal :=
  runDie d (tokenRun lead.toNat 2 0x31 desc (fun x b _ t => nleCycles lead.toNat 1 1 12 x (bufLen b t desc.a.toNat)) (qntToken desc) phys) s

/-- ADDV. -/
def execAddv (d : DieId) (lead : BitVec 3) (desc : OpDesc) (phys : List PhysFault) (s : State) :
    Host.Outcome State Fault Refusal :=
  runDie d (tokenRun lead.toNat 2 0x32 desc (fun x b _ t => nleCycles lead.toNat 1 1 8 x
    (max (bufLen b t desc.a.toNat) (streamedX b t desc.entry.toNat).length)) (addvToken desc) phys) s

/-- NORM. -/
def execNorm (d : DieId) (lead : BitVec 3) (desc : OpDesc) (phys : List PhysFault) (s : State) :
    Host.Outcome State Fault Refusal :=
  runDie d (tokenRun lead.toNat 2 0x33 desc (fun x b _ t => nleCycles lead.toNat 3 1 40 x (bufLen b t desc.a.toNat)) (normToken desc) phys) s

/-- NORMF. -/
def execNormf (d : DieId) (lead : BitVec 3) (desc : OpDesc) (phys : List PhysFault) (s : State) :
    Host.Outcome State Fault Refusal :=
  runDie d (tokenRun lead.toNat 2 0x34 desc (fun x b _ t => nleCycles lead.toNat 3 1 24 x (bufLen b t desc.a.toNat)) (normfToken desc) phys) s

/-- ACT. -/
def execAct (d : DieId) (lead : BitVec 3) (desc : OpDesc) (phys : List PhysFault) (s : State) :
    Host.Outcome State Fault Refusal :=
  runDie d (tokenRun lead.toNat 2 0x35 desc (fun x b _ t =>
    if desc.fn = 0 then nleCycles lead.toNat 1 1 8 x (bufLen b t desc.a.toNat)
    else nleCycles lead.toNat 11 9 20 x (bufLen b t desc.a.toNat)) (actToken desc) phys) s

/-- ACTF. -/
def execActf (d : DieId) (lead : BitVec 3) (desc : OpDesc) (phys : List PhysFault) (s : State) :
    Host.Outcome State Fault Refusal :=
  runDie d (tokenRun lead.toNat 2 0x36 desc (fun x b _ t => nleCycles lead.toNat 1 1 20 x (bufLen b t desc.a.toNat)) (actfToken desc) phys) s

/-- ROPE. -/
def execRope (d : DieId) (lead : BitVec 3) (desc : OpDesc) (phys : List PhysFault) (s : State) :
    Host.Outcome State Fault Refusal :=
  runDie d (tokenRun lead.toNat 2 0x37 desc (fun x b _ t => nleCycles lead.toNat 11 9 24 x (bufLen b t desc.a.toNat)) (ropeToken desc) phys) s

/-- BAND. -/
def execBand (d : DieId) (lead : BitVec 3) (desc : OpDesc) (phys : List PhysFault) (s : State) :
    Host.Outcome State Fault Refusal :=
  runDie d (tokenRun lead.toNat 2 0x38 desc (fun x b _ t => nleCycles lead.toNat 1 1 12 x (streamedX b t desc.entry.toNat).length)
    (bandToken desc) phys) s

/-- SEL. -/
def execSel (d : DieId) (lead : BitVec 3) (desc : OpDesc) (phys : List PhysFault) (s : State) :
    Host.Outcome State Fault Refusal :=
  runDie d (tokenRun lead.toNat 2 0x39 desc (fun x b _ t => nleCycles lead.toNat 20 9 40 x (bufLen b t desc.a.toNat)) (selToken desc) phys) s

/-- OCMP. -/
def execOcmp (d : DieId) (lead : BitVec 3) (desc : OpDesc) (phys : List PhysFault) (s : State) :
    Host.Outcome State Fault Refusal :=
  runDie d (tokenRun lead.toNat 2 0x3A desc (fun x b _ t => nleCycles lead.toNat 1 1 8 x (bufLen b t desc.a.toNat)) (ocmpToken desc) phys) s

/-- EMB. -/
def execEmb (d : DieId) (lead : BitVec 3) (desc : OpDesc) (phys : List PhysFault) (s : State) :
    Host.Outcome State Fault Refusal :=
  runDie d (tokenRun lead.toNat 2 0x3B desc (fun x b m t => nleCycles lead.toNat 1 1 16 x
    ((embIds desc b t).length * ((m.manifest.tensors[desc.tensor.toNat]?).map (fun t => t.cols)).getD 0)) (embToken desc) phys) s

/-- DIG. -/
def execDig (d : DieId) (lead : BitVec 3) (desc : OpDesc) (phys : List PhysFault) (s : State) :
    Host.Outcome State Fault Refusal :=
  runDie d (tokenRun lead.toNat 4 0x48 desc (fun _ b _ t => 12 * cdiv ((digBytes desc b t).length + 1) 136 + 8) (digToken desc) phys) s

/-- DCMP: at the end of a canary batch its cursor stands behind its last token. -/
def execDcmp (d : DieId) (lead : BitVec 3) (desc : OpDesc) (phys : List PhysFault) (s : State) :
    Host.Outcome State Fault Refusal :=
  runDie d (engineRun lead.toNat 4 0x49 desc (perBatch (fun _ _ _ => 4)) (dcmpToken desc) phys) s

/-- SHDC. -/
def execShdc (d : DieId) (lead : BitVec 3) (desc : OpDesc) (phys : List PhysFault) (s : State) :
    Host.Outcome State Fault Refusal :=
  runDie d (fun x =>
    let x := fetchRun lead.toNat x
    if shdcReady desc x lead.toNat then tokenRun lead.toNat 4 0x4A desc (fun _ _ _ _ => 4) (shdcToken desc) phys x
    else x) s

end Sys2Proof.Machine
end

