-- ==== Sys2Proof/Machine/Ledger.lean ====
section
/-! DEFINITION. The shadow ledger's memory: its cells, the place of a row, whole units, and the ledger image (R108, R165,
R168, R169, R184, R185). -/

namespace Sys2Proof.Machine

/-! ## Cells

A ledger is a list of (address, byte) pairs. An address that no pair lists reads as zero (R169, R395). -/

/-- The canonical form: addresses strictly rising, and no pair that holds what an unlisted address reads as. -/
def Memory.wf (m : List Host.Cell) : Bool :=
  match m with
  | [] => true
  | (_, v) :: [] => v != 0
  | (a, v) :: (b, w) :: r => v != 0 && decide (a < b) && Memory.wf ((b, w) :: r)

/-- The byte at an address. -/
def cellRead (m : List Host.Cell) (a : Nat) : Byte :=
  match m with
  | [] => 0
  | (b, v) :: r => if b = a then v else cellRead r a

/-- Write the byte at an address; a zero leaves the address unlisted. -/
def cellWrite (m : List Host.Cell) (a : Nat) (v : Byte) : List Host.Cell :=
  match m with
  | [] => if v = 0 then [] else [(a, v)]
  | (b, w) :: r =>
    if a < b then (if v = 0 then (b, w) :: r else (a, v) :: (b, w) :: r)
    else if a = b then (if v = 0 then r else (a, v) :: r)
    else (b, w) :: cellWrite r a v

/-- Bytes from an address on. -/
def cellsRead (m : List Host.Cell) (a : Nat) : Nat → Bytes
  | 0 => []
  | n + 1 => cellRead m a :: cellsRead m (a + 1) n

/-- Write bytes from an address on. -/
def cellsWrite (m : List Host.Cell) (a : Nat) (bs : Bytes) : List Host.Cell :=
  match bs with
  | [] => m
  | b :: r => cellsWrite (cellWrite m a b) (a + 1) r

/-! ## Layout (R168) -/

/-- Bytes of one row. -/
def rowLen (m : Manifest) : Nat := m.dHead * fmtBits m.kvFmt / 8

/-- KV heads stored at a density. -/
def storedHeads (m : Manifest) (density : Nat) : Nat := if density = 2 then m.nKv / 2 else m.nKv

/-- Bytes of one unit as R168 lays it out. -/
def unitLen (m : Manifest) (density : Nat) : Nat := m.nLayers * storedHeads m density * 2 * 256 * rowLen m

/-- The stored number of a KV head: none where a sparse ledger does not hold it. -/
def storedHead (density g : Nat) : Option Nat :=
  if density = 2 then (if g % 2 = 0 then some (g / 2) else none) else if density = 1 then some g else none

/-- Address of a row: position, layer, stored head, kind 0 for K and 1 for V. -/
def rowAddr (m : Manifest) (density pos layer gs kind : Nat) : Nat :=
  pos / 256 * unitLen m density + (((layer * storedHeads m density + gs) * 2 + kind) * 256 + pos % 256) * rowLen m

/-! ## The ledger image (R184, R185) -/

/-- The rows of the positions at or above n are blanked. -/
def blankFrom (m : Manifest) (density n : Nat) (cells : List Host.Cell) : List Host.Cell :=
  let u := unitLen m density
  cells.filter (fun c => decide (c.1 / max 1 u * 256 + c.1 % max 1 u / max 1 (rowLen m) % 256 < n))

/-- The units that hold positions 0 to n − 1. -/
def unitsBytes (m : Manifest) (density n : Nat) (cells : List Host.Cell) : Bytes :=
  cellsRead (blankFrom m density n cells) 0 (cdiv n 256 * unitLen m density)

/-- The header of a ledger image. -/
def imageHead (d : Die) (m : Manifest) (x : Chan) (units : Bytes) : Bytes :=
  leBytes 4 0x4C444757 ++ leBytes 2 0x0100 ++ [BitVec.ofNat 8 x.density, BitVec.ofNat 8 m.kvFmt] ++ leBytes 4 x.validEnd
    ++ leBytes 4 x.host.ctx ++ weightsDigest m ++ fitTo 32 m.programDigest ++ fitTo 32 d.key.device
    ++ parallelHash256 units 8192 (ascii "HW2240 ledger") ++ zeros 112

/-- The ledger image of a channel. -/
def ledgerImage (d : Die) (m : Manifest) (x : Chan) : Bytes :=
  let units := unitsBytes m x.density x.validEnd x.ledger
  let h := imageHead d m x units
  h ++ units ++ edSign d.key.idSecret (ascii "HW2240 ledger") h ++ zeros 14

/-- An image may be restored into a channel. -/
def imageFits (d : Die) (m : Manifest) (x : Chan) (b : Bytes) : Bool :=
  let n := u32At b 8
  let size := cdiv n 256 * unitLen m x.density
  let units := slice b 256 size
  b.length == 256 + size + 128 && u32At b 0 == 0x4C444757 && u16At b 4 == 0x0100 && byteAt b 6 == x.density
    && byteAt b 7 == m.kvFmt && decide (n ≤ x.host.ctx) && slice b 16 32 == weightsDigest m
    && slice b 48 32 == fitTo 32 m.programDigest && slice b 80 32 == fitTo 32 d.key.device
    && slice b 112 32 == parallelHash256 units 8192 (ascii "HW2240 ledger") && allZero (slice b 144 112)
    && edVerify d.key.idPublic (ascii "HW2240 ledger") (b.take 256) (slice b (256 + size) 114)
    && allZero (b.drop (256 + size + 114))

end Sys2Proof.Machine
end

