-- ==== Sys2Proof/Machine/Attend.lean ====
section
/-! DEFINITION. The context witness: shadow rows written to the ledger, the recompute of selected heads, and its comparison
with ATTN_OUT (R128, R165 to R168, R173, R175 to R180). -/

namespace Sys2Proof.Machine

/-! ## Constants of a layer (R497) -/

/-- A parameter of a layer, or zero. -/
def layerParam (m : Model) (kind layer : Nat) : Nat :=
  match m.prog.params.find? (fun e => e.kind == kind && locLayer e.locus == layer) with
  | some e => e.value
  | none => 0

/-- Query heads: rows of the op-0x01 weight over d_head (R128). -/
def queryHeads (m : Model) : Nat :=
  match m.manifest.ops.find? (fun o => locOp o.locus == 1) with
  | some o => ((m.manifest.tensors[o.tensor]?).map (fun t => t.rows)).getD 0 / max 1 m.manifest.dHead
  | none => 0

/-- Scale exponent of stored elements: k_scale or v_scale for integer formats (R165). -/
def kvScale (m : Model) (layer kind : Nat) : Int :=
  if isIntFmt m.manifest.kvFmt then sgn 64 (layerParam m (7 + kind) layer) else 0

/-! ## KVAPP (R165, R167, R168) -/

/-- Write one row of a stored head. -/
def writeRow (c : Nat) (m : Model) (pos layer gs kind : Nat) (v : List FV) (d : Die) : Die :=
  let x := chan d c
  let bs := fitTo (rowLen m.manifest) (packElems m.manifest.kvFmt (kvScale m layer kind) v)
  modChan c (fun x => { x with ledger := cellsWrite x.ledger (rowAddr m.manifest x.density pos layer gs kind) bs })
    (if x.density = 0 then d else countNan (if m.manifest.kvFmt = 0x21 then 0 else nans v) d)

/-- KVAPP of one token: the K vector in buffer a and the V vector in buffer b, head by head. -/
def kvappToken (desc : OpDesc) (b : Batch) (m : Model) (token : Nat) (d : Die) : Die :=
  let c := b.channel
  let x := chan d c
  let pos := posOf d b token
  let dh := m.manifest.dHead
  let layer := locLayer desc.locus.toNat
  if x.density = 0 then d
  else
    let d := (List.range m.manifest.nKv).foldl (fun d g =>
      match storedHead x.density g with
      | none => d
      | some gs =>
        let row (n : Nat) : List FV := ((bufF32 b token n).drop (g * dh)).take dh
        writeRow c m pos layer gs 1 (row desc.b.toNat) (writeRow c m pos layer gs 0 (row desc.a.toNat) d)) d
    modChan c (fun x => { x with append := max x.append (pos + 1) }) d

/-- Bytes of K and V that KVAPP writes for a token. -/
def kvBytes (d : Die) (b : Batch) (m : Model) : Nat :=
  2 * storedHeads m.manifest (chan d b.channel).density * rowLen m.manifest

/-! ## ATTN (R128, R173, R175, R176, R179) -/

/-- First position that a token attends to in a layer. -/
def attendFrom (m : Model) (layer pos : Nat) : Nat :=
  let w := layerParam m 6 layer
  if w = 0 then 0 else pos + 1 - w

/-- Heads of a layer that the sample selects for a token, of those whose KV head is stored. -/
def selectedHeads (d : Die) (b : Batch) (m : Model) (layer pos : Nat) : List Nat :=
  let x := chan d b.channel
  let h := queryHeads m
  match tablesOf m b.month with
  | none => []
  | some tb =>
    (((attentionSample tb.key b.channel pos m.manifest.nLayers h x.host.alpha)[layer]?).getD []).filter (fun q =>
      (storedHead x.density (q * m.manifest.nKv / max 1 h)).isSome)

/-- Decoded elements of a stored row (R152). (DESIGN CHOICE, log entry 215) -/
def readRow (d : Die) (c : Nat) (m : Model) (pos layer gs kind : Nat) : List FV :=
  let x := chan d c
  let bs := cellsRead x.ledger (rowAddr m.manifest x.density pos layer gs kind) (rowLen m.manifest)
  (rawElems m.manifest.kvFmt m.manifest.dHead bs).map (fun r => rn32 (elemX m.manifest.kvFmt (kvScale m layer kind) r))

/-- Quotient of a finite value by a finite positive one, rounded to FP32; anything else follows IEEE 754. -/
def quot32 (a b : FV) : FV :=
  match a, b with
  | .fin s m e, .fin _ (n + 1) f =>
    let q := scaleFrac m (n + 1) (e - f)
    roundFrac bin32 .near s q.1 q.2
  | .inf s, .fin _ (_ + 1) _ => .inf s
  | _, _ => .nan

/-- The recompute of a head: none where a score is not finite. -/
def attend (q : List FV) (k v : List (List FV)) (sm : FV) : Option (List FV) :=
  let sc := k.map (fun r => rn32 (mulX (sumX (List.zipWith mulX q r)) sm))
  if sc.any (fun s => !isFin s) then none
  else
    let m := match sc with
      | [] => FV.zero
      | a :: r => r.foldl maxX a
    let w := sc.map (fun s => expR bin32 (rn32 (subX s m)))
    let den := rn64 (sumX w)
    let width := (v.headD []).length
    some ((List.range width).map (fun e => quot32 (sumX (List.zipWith (fun a r => mulX a (r.getD e .zero)) w v)) den))

/-- The locus of a query head's attention output. -/
def headLocus (layer head : Nat) : Nat := layer * 1048576 + 4 * 4096 + head % 4096

/-- A token that attends to a VOID position fails once (R173). (DESIGN CHOICE, log entry 216) -/
def voidCheck (b : Batch) (layer token pos : Nat) (d : Die) : Die :=
  if (chan d b.channel).voidPos ≤ pos ∧ (token, 5) ∉ b.fails then
    raise pCWE 6 (count pCWE 0x090 (failCheck b.serial token 5 pCWE 1 (headLocus layer 0) 0 d))
  else d

/-- One selection: the head's output goes behind its number to the buffer, or its score fails it.
(DESIGN CHOICE, log entry 217) -/
def runHead (desc : OpDesc) (b : Batch) (m : Model) (layer token pos : Nat) (d : Die) (h : Nat) : Die :=
  let x := chan d b.channel
  let dh := m.manifest.dHead
  match storedHead x.density (h * m.manifest.nKv / max 1 (queryHeads m)) with
  | none => d
  | some gs =>
    let q := ((bufF32 b token desc.a.toNat).drop (h * dh)).take dh
    let w0 := attendFrom m layer pos
    let rows (kind : Nat) : List (List FV) := (List.range (pos + 1 - w0)).map (fun i => readRow d b.channel m (w0 + i) layer gs kind)
    let d := count pCWE 0x088 (modTicket b.serial (fun b => { b with selRun := b.selRun + 1 }) d)
    match attend q (rows 0) (rows 1) (f32v (BitVec.ofNat 32 (layerParam m 5 layer))) with
    | some o => modTicket b.serial (fun b =>
        let k := token * 65536 + desc.dst.toNat
        { b with bufs := mset b.bufs k (mgetD b.bufs k [] ++ (BitVec.ofNat 32 h :: o.map f32b)) }) (countNan (nans o) d)
    | none => count pCWE 0x08C (failCheck b.serial token 4 pCWE 0 (headLocus layer h) 0x7F800000 d)

/-- A batch has more selections than S_max: it is LATE, and its tokens from this one on are VOID (R179).
(DEDUCED, log entry 89) -/
def overrunAt (b : Batch) (token : Nat) (d : Die) : Die :=
  if b.overrun.isSome then d
  else
    raise pCWE 7 (count pCWE 0x094 (modTicket b.serial (fun b => addLate 22 { b with overrun := some token }) d))

/-- ATTN of one token in the layer that its locus names. (DEDUCED, log entry 89) -/
def attnToken (desc : OpDesc) (b : Batch) (m : Model) (token : Nat) (d : Die) : Die :=
  let x := chan d b.channel
  if x.density = 0 then d
  else
    let layer := locLayer desc.locus.toNat
    let pos := posOf d b token
    let heads := selectedHeads d b m layer pos
    let room := if b.overrun.isSome then 0 else x.host.sMax - b.selRun
    let d := voidCheck b layer token pos (setBuf b.serial token desc.dst.toNat [] d)
    let d := (heads.take room).foldl (fun d h => runHead desc b m layer token pos d h) d
    if heads.length > room then overrunAt b token d else d

/-- Cycles of a token's selections (R180): each takes the longer of its CWE and its NLE part. -/
def attnCycles (lead : Nat) (desc : OpDesc) (d : Die) (b : Batch) (m : Model) (token : Nat) : Nat :=
  let layer := locLayer desc.locus.toNat
  let pos := posOf d b token
  let n := pos + 1 - attendFrom m layer pos
  let room := if b.overrun.isSome then 0 else (chan d b.channel).host.sMax - b.selRun
  min room (selectedHeads d b m layer pos).length
    * selCycles d lead m.manifest.dHead n

/-! ## ACMP (R177, R178) -/

/-- Largest finite magnitude of an output format. -/
def fmtMax (fmt : Nat) : FV := if fmt = 0x20 then .fin false 255 120 else .fin false 16777215 104

/-- The reference element quantised to the output format, finite, with its ulp exponent, and whether it is the format's
largest or smallest value. -/
def attnRef (fmt : Nat) (scale : Int) (o : FV) : FV × Int × Bool :=
  if isIntFmt fmt then
    let q := qInt o (fmtBits fmt) scale
    let hi : Int := ((2 ^ (fmtBits fmt - 1) : Nat) : Int)
    (scaleX (intX q) scale, scale, decide (q = hi - 1 ∨ q = -hi))
  else
    let v := scaleX o (-scale)
    let r := if fmt = 0x20 then roundTo binBf16 .near v else rn32 v
    let r := match r with
      | .inf s => if s then negX (fmtMax fmt) else fmtMax fmt
      | r => r
    (scaleX r scale, ulpExp fmt r + scale, !ltX (absX r) (fmtMax fmt))

/-- One element: it passes, and |x_s − o| over its band, rounded up to FP32. -/
def attnElem (fmt : Nat) (scale : Int) (budget : Nat) (xs o : FV) : Bool × Nat :=
  let r := attnRef fmt scale o
  if !isFin xs || !isFin r.1 then (false, 0x7F800000)
  else
    let diff := absX (subX xs o)
    let inBand := leX (scaleX diff 4) (mulX (intX ((8 + budget : Nat) : Int)) (.fin false 1 r.2.1))
    let same := r.2.2 && !ltX xs r.1 && !ltX r.1 xs
    let ratio := match diff with
      | .fin _ m e =>
        let f := scaleFrac m (8 + budget) (e + 4 - r.2.1)
        toBits bin32 8 (if m = 0 then FV.zero else roundFrac bin32 .up false f.1 f.2)
      | _ => 0x7F800000
    (inBand || same, ratio)

/-- The recomputed heads in a buffer: number and outputs. -/
def headsIn (dh : Nat) : Nat → List F32 → List (Nat × List FV)
  | 0, _ => []
  | fuel + 1, v =>
    match v with
    | [] => []
    | h :: r => (h.toNat, (r.take dh).map f32v) :: headsIn dh fuel (r.drop dh)

/-- Scale exponent of the records of an entry. -/
def entryScale (b : Batch) (token entry : Nat) : Int :=
  match recsOf b token entry with
  | r :: _ => (subHead r.payload).scale
  | [] => 0

/-- The comparisons of one recomputed head with the streamed attention output. -/
def acmpHead (desc : OpDesc) (b : Batch) (m : Model) (o : OpE) (token : Nat) (h : Nat × List FV) : List (Bool × Nat) :=
  let dh := m.manifest.dHead
  let xs := (streamedX b token desc.entry.toNat).map (fun p => p.1)
  List.zipWith (attnElem o.outFmt (entryScale b token desc.entry.toNat) o.ulp) ((xs.drop (h.1 * dh)).take dh) h.2

/-- A head passes: every element is there and in its band. -/
def acmpOk (m : Model) (res : List (Bool × Nat)) : Bool := res.length == m.manifest.dHead && res.all (fun p => p.1)

/-- ACMP of one token: every recomputed head against the streamed attention output. (DESIGN CHOICE, log entry 216) -/
def acmpToken (desc : OpDesc) (b : Batch) (m : Model) (token : Nat) (d : Die) : Die :=
  match opAt m desc.locus.toNat with
  | none => d
  | some o =>
    let v := buf b token desc.a.toNat
    let d := (headsIn m.manifest.dHead v.length v).foldl (fun d h =>
      let res := acmpHead desc b m o token h
      if acmpOk m res then d
      else
        count pCWE 0x08C (failCheck b.serial token 4 pCWE 0 (headLocus (locLayer desc.locus.toNat) h.1)
          ((res.map (fun p => p.2)).foldl max 0) d)) d
    noteMade b.serial token (2 * o.locus) d

/-! ## The instructions -/

/-- KVAPP. -/
def execKvapp (d : DieId) (lead : BitVec 3) (desc : OpDesc) (phys : List PhysFault) (s : State) :
    Host.Outcome State Fault Refusal :=
  runDie d (tokenRun lead.toNat 3 0x40 desc (fun x b m _ => cdiv (kvBytes x b m) 512 + 16) (kvappToken desc) phys) s

/-- ATTN. -/
def execAttn (d : DieId) (lead : BitVec 3) (desc : OpDesc) (phys : List PhysFault) (s : State) :
    Host.Outcome State Fault Refusal :=
  runDie d (tokenRun lead.toNat 3 0x41 desc (attnCycles lead.toNat desc) (attnToken desc) phys) s

/-- ACMP. -/
def execAcmp (d : DieId) (lead : BitVec 3) (desc : OpDesc) (phys : List PhysFault) (s : State) :
    Host.Outcome State Fault Refusal :=
  runDie d (tokenRun lead.toNat 2 0x42 desc (fun x b _ t => nleCycles lead.toNat 1 1 12 x (bufLen b t desc.a.toNat)) (acmpToken desc) phys) s

end Sys2Proof.Machine
end

