-- ==== Sys2Proof/Machine/WardenProfile.lean ====
section
/-! DEFINITION. Warden profiles: their fields, their ranges, and what a zone's settings are (R357, R359, R360, R369). -/

namespace Sys2Proof.Machine

/-! ## The switch word and the table (R357) -/

/-- A switch word is valid: its upper byte is the complement of its lower. -/
def switchOk (w : Nat) : Bool := w / 256 % 256 + w % 256 == 255

/-- The profile of an index in the warden table: 256-byte profiles one after another. -/
def profileAt (table : Bytes) (p : Nat) : Option Bytes :=
  ((List.range (table.length / 256)).map (fun i => slice table (256 * i) 256)).find? (fun b => byteAt b 6 == p)

/-- The 48 bytes of a zone. -/
def zoneBytes (profile : Bytes) (z : Nat) : Bytes := slice profile (64 + 48 * z) 48

/-- A zone is in use. -/
def zoneUsed (profile : Bytes) (z : Nat) : Bool := tst (byteAt (zoneBytes profile z) 0) 0

/-! ## Ranges (R360) -/

/-- A number lies in a range. -/
def between (lo hi n : Nat) : Bool := decide (lo ≤ n) && decide (n ≤ hi)

/-- A zone's fields are in range, whether it is in use or not; only a zone in use must have an output (R360).
(DEDUCED, log entry 129) -/
def zoneOk (b : Bytes) : Bool :=
  !tst (byteAt b 0) 7 && decide (byteAt b 1 < 16) && allZero (slice b 44 4) &&
    ((!tst (byteAt b 0) 0 || byteAt b 1 != 0) &&
      (between 0 2 (byteAt b 3) && between 0 4 (byteAt b 4) && between 1 255 (byteAt b 5)
        && between 1 60 (byteAt b 6) && between 1 2 (byteAt b 7) && between 1 32767 (u16At b 8)
        && between 1 (u16At b 8) (u16At b 10) && between 0 2000 (u16At b 12)
        && decide (sgn 32 (u32At b 16) < sgn 32 (u32At b 20)) && between 1 80 (u16At b 24)
        && (List.range 4).all (fun i => decide (u16At b (26 + 4 * i) ≤ u16At b (28 + 4 * i)) && decide (u16At b (28 + 4 * i) ≤ 1120))
        && between 1 1120 (u16At b 42)))

/-- Outputs of the zones, zone after zone. -/
def zoneOutputs (b : Bytes) : List Nat :=
  (List.range 4).flatMap (fun z => (List.range 4).filter (fun o => tst (byteAt (zoneBytes b z) 1) o))

/-- A profile is legal for an index. (DEDUCED, log entry 129) -/
def profileOk (p : Nat) (b : Bytes) : Bool :=
  b.length == 256 && u32At b 0 == 0x4E445257 && u16At b 4 == 0x0100 && byteAt b 6 == p && between 1 30 (byteAt b 7)
    && (List.range 8).all (fun n => between 4 1000 (u16At b (8 + 2 * n))) && between 10 500 (u16At b 26)
    && between 50 1000 (u16At b 28) && decide (byteAt b 30 < 16) && decide (byteAt b 31 < 2) && between 1 86400 (u32At b 32)
    && between 1 1000000 (u32At b 36) && between 1 100 (u16At b 40) && between 1 1000 (u16At b 42)
    && (u32At b 44 == 0 || between 4 1073741824 (u32At b 44)) && allZero (slice b 52 12)
    && (List.range 4).all (fun z => zoneOk (zoneBytes b z)) && noRepeats (zoneOutputs b)

/-- The switch digest over a word and a profile (R359). -/
def switchDigestOf (word : Nat) (profile : Bytes) : Bytes := h32 ([0x06] ++ leBytes 2 word ++ fitTo 256 profile)

/-! ## Settings of a zone -/

/-- A byte of a zone's settings. -/
def zByte (w : Wdn) (z off : Nat) : Nat := byteAt (zoneBytes w.profile z) off

/-- A 16-bit setting of a zone. -/
def zHalf (w : Wdn) (z off : Nat) : Nat := u16At (zoneBytes w.profile z) off

/-- A flag of a zone: 1 sst, 2 manual_restart, 3 sls, 4 sdi, 5 slp, 6 freewheel. -/
def zFlag (w : Wdn) (z bit : Nat) : Bool := tst (zByte w z 0) bit

/-- The die whose channel this is watches inference channels for a zone. -/
def isSource (d : Die) (z : Nat) : Bool := zByte d.wdn z 3 == 0 || zByte d.wdn z 3 == 1 + d.which.num

/-- Safety inference channels of a zone on the die, those being created among them. -/
def zoneChans (d : Die) (z : Nat) : Nat :=
  (d.chn.tab.filter (fun e => e.2.host.kind == 1 && e.2.host.safety && e.2.host.zone == z
    && (e.2.state == .opened || e.2.state == .paused || e.2.pend == some .create))).length

/-- The zone refuses a safety channel (R369, R459). -/
def zoneRefuses (d : Die) (z : Nat) (coupled : Bool) : Bool :=
  let w := d.wdn
  !zoneUsed w.profile z || zoneChans d z ≥ zByte w z 4 || zByte w z 4 == 0
    || (zByte w z 3 == 0 && !coupled) || !isSource d z || (zByte w z 3 != 0 && coupled)

end Sys2Proof.Machine
end

