-- ==== Sys2Proof/Machine/ChanCmds.lean ====
section
/-! DEFINITION. Channel commands, what a slot boundary does to channels, and the ratchet registers (R109 to R111, R184,
R185, R202, R204, R283 to R289, R292 to R296, R301, R312, R315, R316). -/

namespace Sys2Proof.Machine

/-! ## The create image (R285) -/

/-- The stream byte: 0 to 15, or 0xFF; another value goes to the nearer of 15 and 255. (DEDUCED, log entry 108) -/
def clampStream (b : Nat) : Nat := if b ≤ 15 then b else if b ≤ 135 then 15 else 255

/-- The zone byte: 0 to 3, or 0xFF; another value goes to the nearer of 3 and 255. (DEDUCED, log entry 108) -/
def clampZone (b : Nat) : Nat := if b ≤ 3 then b else if b ≤ 129 then 3 else 255

/-- win_sym as R202 clamps it at a numerology. -/
def clampWin (mu w : Nat) : Nat :=
  if mu = 0 then clamp 1 7 w else if mu = 1 then clamp 2 14 w else if mu = 2 then clamp 4 28 w else clamp 7 56 w

/-- The bytes of CHN_DESC_BUF. -/
def descBuf (d : Die) : Bytes := (List.range 64).flatMap (fun m => leBytes 4 (field d pCHN (0x100 + 4 * m) 0))

/-- The host fields of a create image, clamped for the model that its slot names. -/
def parseChan (man : Option Manifest) (b : Bytes) : ChanHost :=
  let kind := clamp 1 3 (byteAt b 1)
  let radio := kind == 2
  let infer := kind == 1
  let mu := clamp 0 3 (byteAt b 32)
  let arr := clamp 0 223 (byteAt b 33)
  let win := clampWin mu (byteAt b 34)
  let pat := clamp 1 80 (byteAt b 35)
  let safety := tst (byteAt b 5) 0
  let ctx := match man with
    | some m => if infer && m.nLayers != 0 && m.nKv != 0 then u32At b 12 else 0
    | none => 0
  let alpha := if kind = 3 then 0 else clamp ((man.map (fun m => m.alphaMin)).getD 0) 65536 (u32At b 16)
  let opens := clamp 1 24 (byteAt b 7)
  { kind := kind, slot := min 79 (byteAt b 2), group := byteAt b 3, vc := if radio then 1 else clamp 0 1 (byteAt b 4)
    safety := safety, canary := tst (byteAt b 5) 2 && kind != 3, ringLog2 := clamp 4 20 (byteAt b 6)
    maxOpen := if radio then max opens (cdiv (arr + win) 14 + 1) else opens
    maxTokens := if infer then clamp 1 4096 (u32At b 8) else 0, ctx := ctx, alpha := alpha
    inMode := if kind = 3 then 1 else if radio then 0 else clamp 0 1 (byteAt b 25)
    stream := if kind = 3 then min 15 (clampStream (byteAt b 26)) else clampStream (byteAt b 26)
    frames := if kind = 3 then 1 else clamp 1 255 (byteAt b 27)
    ledgerRat := u16At b 28 % 4096 + 32768 * b2n (tst (u16At b 28) 15)
    zone := if safety then clampZone (byteAt b 30) else 255
    mu := mu, arrSym := arr, winSym := win, patLen := pat, pattern := leVal (slice b 36 10) % 2 ^ pat
    maxFft := clamp 1 4096 (u16At b 46), maxCb := clamp 0 1024 (u16At b 48), maxTb := clamp 0 64 (u16At b 50)
    sMax := if ctx = 0 ∨ alpha = 0 then 0 else clamp 0 16777216 (u32At b 52) }

/-! ## Results -/

/-- Report a command in CHN_CMD_STAT; where it has ended, in EVENT 5 too (R434). -/
def chnStat (op c code : Nat) (d : Die) : Die :=
  let d := setCap pCHN 0x044 (code + 256 * c + 8388608 * op) d
  if code = 1 then d else sendEvent 5 (c + 65536 * op + 1048576 * code) d

/-- A pending command has completed: its result, where CHN_CMD_STAT still shows it, and its event. -/
def chnDone (op c code : Nat) (d : Die) : Die :=
  if capOf d pCHN 0x044 = 1 + 256 * c + 8388608 * op then chnStat op c code d
  else sendEvent 5 (c + 65536 * op + 1048576 * code) d

/-! ## Create (R109, R283, R285, R289) -/

/-- Bytes that a Sentinel channel takes in the output store. -/
def outStoreBytes (d : Die) (h : ChanHost) : Nat :=
  let p := (image d (h.slot - 64)).payload
  2 ^ h.ringLog2 * (cdiv (dataBytes (byteAt p 29) (u32At p 32)) 64 * 64)

/-- The output store of 16 MiB has room for one more channel. -/
def outStoreRoom (d : Die) (h : ChanHost) : Bool :=
  let p := (image d (h.slot - 64)).payload
  decide (dataBytes (byteAt p 29) (u32At p 32) ≤ 4096)
    && decide (outStoreBytes d h + sumL ((d.chn.tab.filter (fun e =>
      (e.2.state != .free || e.2.pend.isSome) && e.2.host.kind == 3)).map (fun e => outStoreBytes d e.2.host)) ≤ 16777216)

/-- The ledger density that fits: 0 for no ledger; none where none fits. -/
def densityFor (d : Die) (h : ChanHost) (man : Option Manifest) : Option Nat :=
  if h.ctx = 0 then (if chanBytes d h 0 ≤ hbmFree d then some 0 else none)
  else if chanBytes d h 1 ≤ hbmFree d then some 1
  else if (man.map (fun m => m.densityMin)).getD 1 = 2 ∧ chanBytes d h 2 ≤ hbmFree d then some 2
  else none

/-- The slot a channel names holds what it needs; a model serves channels in Summer only (R461). -/
def slotServes (d : Die) (h : ChanHost) : Bool :=
  if h.slot ≥ 64 then (image d (h.slot - 64)).state == 2
  else
    match model d h.slot with
    | some m => m.state == .ready && d.phase == .summer
    | none => false

/-- A stream is enabled in the die's table (R321). -/
def streamOn (d : Die) (s : Nat) : Bool := s < 16 && strm d s 0x058 0 == 1

/-- Refusals of a create that the die judges by itself, in their order; the ledger density where there is none.
(DEDUCED, log entry 105) -/
def createRefusal (d peer : Die) (h : ChanHost) (coupled : Bool) : Except Nat Nat :=
  let m := model d h.slot
  let man := m.map (fun m => m.manifest)
  let slotKind := if h.slot ≥ 64 then 3 else (man.map (fun m => m.kind)).getD 0
  let role := byteAt (image d (h.slot - 64)).payload 6
  if !slotServes d h then .error 14
  else if h.kind ≠ slotKind then .error 2
  else if h.safety && (h.zone == 255 || h.kind == 2) then .error 2
  else if h.kind = 1 ∧ h.safety ∧ zoneRefuses d h.zone coupled then .error 2
  else if coupled && (h.kind == 2 || h.inMode == 1) && !(streamOn d h.stream && streamOn peer h.stream) then .error 2
  else if h.kind = 2 ∧ h.stream = 255 then .error 2
  else if h.kind = 3 ∧ role = 2 ∧ !(h.safety && h.zone != 255) then .error 2
  else if (match ledgerRatchet h with
      | some r => !named d r && (ratchet d r).owner ≥ 2
      | none => false) then .error 2
  else if (groupNamed d h.group).isNone then .error 9
  else if coupled && d.vp.current != peer.vp.current then .error 9
  else if h.kind = 3 ∧ !((List.range 6).any (fun n => leads d n && decide (n / 3 ≠ h.group / 3))) then .error 9
  else if h.kind = 3 ∧ !outStoreRoom d h then .error 8
  else
    match densityFor d h man with
    | some n => .ok n
    | none => .error 8

/-- A create that has been accepted is given up: what it held is released. -/
def dropCreate (c code : Nat) (d : Die) : Die :=
  let x := chan d c
  if x.pend == some .create then
    chnDone 1 c code (updChn (fun n => { n with tab := mdel n.tab c })
      (updCad (fun q => { q with frags := q.frags.filter (fun e => !(e.tagKind == 2 && e.tag == c)) }) d))
  else d

/-- The other die holds an id. (DEDUCED, log entry 106) -/
def holdsId (d : Die) (c : Nat) : Bool := (chan d c).state != .free || (chan d c).pend.isSome

/-- The other die holds an id as the half of a Coupled create that this half, of equal host fields, joins (R283).
(DEDUCED, log entry 105) -/
def otherHalf (peer : Die) (c : Nat) (h : ChanHost) : Bool :=
  let y := chan peer c
  y.coupled && (y.pend == some .create || (y.state == .opened && y.pend.isNone)) && decide (y.host = h)

/-- CHN_CMD.create on a die, with the other die of the package: the two dies after it. (DEDUCED, log entry 105) -/
def chnCreate (c : Nat) (d peer : Die) : Die × Die :=
  let x := chan d c
  if d.vp.pending then (d, peer)
  else if x.pend.isSome then (chnStat 1 c 33 d, peer)
  else if x.state != .free then (chnStat 1 c 32 d, peer)
  else
    let b := descBuf d
    let slot := min 79 (byteAt b 2)
    let h := parseChan ((model d slot).map (fun m => m.manifest)) b
    let coupled := h.kind != 3 &&
      match model d h.slot with
      | some m => isCoupled m
      | none => false
    let half := coupled && otherHalf peer c h
    if !half && holdsId peer c then (chnStat 1 c 34 d, peer)
    else
      let refuse (code : Nat) (d : Die) : Die × Die := (chnStat 1 c code d, if coupled then dropCreate c 15 peer else peer)
      match createRefusal d peer h coupled with
      | .error code => refuse (if coupled && code == 8 then 15 else code) d
      | .ok n =>
        let other := (chan peer c).density
        -- where one die can reserve only a sparse ledger, both reserve sparse (R458)
        let density := if half then max n other else n
        let thin (x : Chan) : Chan := { x with density := density, alphaRep := if density = 2 then h.alpha / 2 else h.alpha }
        let peer := if half then modChan c thin peer else peer
        match judgeFragment d 2 c (some { id := c, host := h, coupled := coupled, model := model d h.slot }) none with
        | .error r => refuse 9 (cadRefuse r d)
        | .ok es =>
            let d := updCad (fun q => { q with frags := q.frags ++ es }) d
            let d := setChan c { host := h, coupled := coupled, density := density
                                 alphaRep := if density = 2 then h.alpha / 2 else h.alpha, pend := some .create } d
            (chnStat 1 c 1 d, peer)

/-! ## Pause to free (R287, R288) -/

/-- A command that waits for the slot boundary, where the state allows it. (DEDUCED, log entry 106) -/
def chnWait (op c : Nat) (p : ChanPend) (ok : Chan → Bool) (d : Die) : Die :=
  let x := chan d c
  if x.pend.isSome && !(x.pend == some .pause && p == .close) then chnStat op c 33 d
  else if ok x then chnStat op c 1 (modChan c (fun x => { x with pend := some p }) d)
  else chnStat op c 32 d

/-- CHN_CMD.retire: at once. -/
def chnRetire (c : Nat) (d : Die) : Die :=
  let x := chan d c
  if x.pend.isSome && x.pend != some .pause then chnStat 5 c 33 d
  else if chanLive x then chnStat 5 c 0 (retireChan 2 3 19 c d)
  else chnStat 5 c 32 d

/-- CHN_CMD.read: the descriptor goes into CHN_DESC_BUF. -/
def chnRead (c : Nat) (d : Die) : Die :=
  let b := descBytes (chan d c)
  if (chan d c).pend.isSome then chnStat 7 c 33 d
  else chnStat 7 c 0 ((List.range 64).foldl (fun d m => setField 0 pCHN (0x100 + 4 * m) 0 (u32At b (4 * m)) d) d)

/-- CHN_CMD.save (R184, R292). (DEDUCED, log entry 107) -/
def chnSave (c : Nat) (d : Die) : Die :=
  let x := chan d c
  match x.pend, x.state, model d x.host.slot with
  | some _, _, _ => chnStat 8 c 33 d
  | none, .paused, some m =>
    if x.density = 0 then chnStat 8 c 32 d
    else
      let image := ledgerImage d m.manifest x
      chnStat 8 c 0 (updKey (fun k => { k with image := image }) (countPerms image.length d))
  | _, _, _ => chnStat 8 c 32 d

/-- A restore is refused: code 35, and the ledger is zeroed, its counters as after create (R185).
(DEDUCED, log entry 107) -/
def restoreRefused (c : Nat) (d : Die) : Die :=
  chnStat 9 c 35 (modChan c (fun x => { x with
    ledger := [], validEnd := 0, append := 0, voidPos := 4294967295, wrd := { x.wrd with append := 0 } }) d)

/-- CHN_CMD.restore (R185). (DEDUCED, log entry 107) -/
def chnRestore (c : Nat) (d : Die) : Die :=
  let x := chan d c
  match x.pend, x.state, model d x.host.slot with
  | some _, _, _ => chnStat 9 c 33 d
  | none, .paused, some m =>
    if x.density = 0 ∨ x.validEnd ≠ 0 ∨ x.append ≠ 0 then restoreRefused c d
    else
      match bulkWhole d 6 with
      | some b =>
        let d := countPerms b.length (bulkDone 6 d)
        if imageFits d m.manifest x b then
          let n := u32At b 8
          let units := slice b 256 (cdiv n 256 * unitLen m.manifest x.density)
          chnStat 9 c 0 (modChan c (fun x => { x with
            ledger := cellsWrite [] 0 units, validEnd := n, append := n, voidPos := 4294967295
            wrd := { x.wrd with append := n } }) d)
        else restoreRefused c d
      | none => restoreRefused c d
  | _, _, _ => chnStat 9 c 32 d

/-- CHN_RING_TAIL (R293). (DEDUCED, log entry 108) -/
def ringTail (c tail : Nat) (d : Die) : Die :=
  modChan c (fun x =>
    let step := w32 (tail + 4294967296 - x.ringTail)
    let room := w32 (x.ringHead + 4294967296 - x.ringTail)
    if step ≤ room then { x with ringTail := tail }
    else if step - room ≤ 4294967296 - step then { x with ringTail := x.ringHead } else x) d

/-! ## At a slot boundary (R287 to R290) -/

/-- A channel becomes OPEN: its frames and its batches are counted from here. -/
def openChan (c : Nat) (d : Die) : Die :=
  let h := (chan d c).host
  let d := dropHeld c (if h.safety && h.kind == 1 then tellWarden (.watch c h.zone) d else d)
  modChan c (fun x => { x with
    state := .opened, pend := none, framesBound := 0, openSlot := slotCount d, batchesOpen := 0
    fwdBase := (stream d x.host.stream).fwd }) d

/-- A channel that host software closes. -/
def closeChan (c : Nat) (d : Die) : Die :=
  let x := chan d c
  let d := dropHeld c (((chanTickets d c).map (fun b => b.serial)).foldl (endTicket 3 19) d)
  let d := modChan c (fun x => { x with state := .closed, endCause := 1, pend := none, ledger := [] }) d
  let d := updCad (fun q => { q with removals := q.removals ++ [(2, c)] }) d
  if x.host.safety then tellWarden (.lost c true) d else d

/-- A channel's id returns to FREE. -/
def freeChan (c : Nat) (d : Die) : Die :=
  let d := updSpk (fun q => { q with early := q.early.filter (fun e => e.1 != c) }) d
  releaseExtents 2 c (updChn (fun n => { n with tab := mdel n.tab c }) d)

/-- A pending create is complete at this boundary: its slot still serves, and a Coupled one has its other half.
(DEDUCED, log entry 106) -/
def createReady (peer : Die) (c : Nat) (x : Chan) : Bool := !x.coupled || otherHalf peer c x.host == some true

/-- What the boundary does to one channel. -/
def chanBoundary (peer : Die) (d : Die) (c : Nat) : Die :=
  let x := chan d c
  match x.pend with
  | none => d
  | some .create =>
    if !slotServes d x.host then dropCreate c 14 d
    else if createReady peer c x then chnDone 1 c 0 (openChan c d) else d
  | some .pause =>
    if (chanTickets d c).isEmpty then
      let d := chnDone 2 c 0 (dropHeld c (modChan c (fun x => { x with state := .paused, pend := none }) d))
      if x.host.safety then tellWarden (.lost c false) d else d
    else d
  | some .resume => chnDone 3 c 0 (openChan c d)
  | some .close => chnDone 4 c 0 (closeChan c d)
  | some .free => chnDone 6 c 0 (freeChan c d)

/-- The channels at a slot boundary, in the order in which records of one cycle go into the tree (R212). -/
def chansBoundary (peer : Die) (d : Die) : Die := (recordOrder d (d.chn.tab.map (fun e => e.1))).foldl (chanBoundary peer) d

/-- The descriptor cache is refreshed (R286): channels with a window that covers this slot or the next, and channels
that hold a ticket. -/
def refreshCache (d : Die) : Die :=
  let p := max 1 d.cad.active.period
  let s := slotCycles d.tim.mu
  let covers (e : TtEntry) : Bool :=
    (List.range ((e.start + e.verdict) / s + 2)).any (fun k => w32 (slotCount d + 1 + 4294967296 - k) % p == e.slot)
  let pinned := chansWhere d (fun x => x.state != .free)
  let use := pinned.filter (fun c =>
    !(chanTickets d c).isEmpty || d.cad.active.entries.any (fun e => e.kind == 2 && e.target == c && covers e))
  let d := updChn (fun n => { n with cache := use }) d
  peak pCHN 0x060 use.length d

/-! ## Ratchets (R295, R296, R301) -/

/-- RAT_CFG.owner: discarded while something names the ratchet. -/
def ratOwner (r owner : Nat) (d : Die) : Die :=
  let x := ratchet d r
  if named d r then d else setRatchet r { x with owner := owner } d

/-- RAT_VAL_LO: held until the high half is written. -/
def ratLo (r v : Nat) : Die → Die := updRat (fun t => { t with loHeld := mset t.loHeld (r / 1024) v })

/-- RAT_VAL_HI: both halves apply together. -/
def ratHi (r v : Nat) (d : Die) : Die :=
  let lo := mgetD d.rat.loHeld (r / 1024) ((ratchet d r).value % 4294967296)
  raiseRat 3 r (v * 4294967296 + lo) (updRat (fun t => { t with loHeld := mdel t.loHeld (r / 1024) }) d)

/-! ## The commands -/

/-- CHN_CMD.create. -/
def execChnCmdCreate (d : DieId) (channel : BitVec 15) (s : State) : Host.Outcome State Fault Refusal :=
  match d with
  | .a => let r := chnCreate channel.toNat s.dieA s.dieB; .next { s with dieA := r.1, dieB := r.2 }
  | .b => let r := chnCreate channel.toNat s.dieB s.dieA; .next { s with dieB := r.1, dieA := r.2 }

/-- CHN_CMD.pause. -/
def execChnCmdPause (d : DieId) (channel : BitVec 15) (s : State) : Host.Outcome State Fault Refusal :=
  runDie d (chnWait 2 channel.toNat .pause (fun x => x.state == .opened)) s

/-- CHN_CMD.resume. -/
def execChnCmdResume (d : DieId) (channel : BitVec 15) (s : State) : Host.Outcome State Fault Refusal :=
  runDie d (chnWait 3 channel.toNat .resume (fun x => x.state == .paused)) s

/-- CHN_CMD.close. -/
def execChnCmdClose (d : DieId) (channel : BitVec 15) (s : State) : Host.Outcome State Fault Refusal :=
  runDie d (chnWait 4 channel.toNat .close chanLive) s

/-- CHN_CMD.retire. -/
def execChnCmdRetire (d : DieId) (channel : BitVec 15) (s : State) : Host.Outcome State Fault Refusal :=
  runDie d (chnRetire channel.toNat) s

/-- CHN_CMD.free. -/
def execChnCmdFree (d : DieId) (channel : BitVec 15) (s : State) : Host.Outcome State Fault Refusal :=
  runDie d (chnWait 6 channel.toNat .free (fun x => x.state == .closed || x.state == .retired)) s

/-- CHN_CMD.read. -/
def execChnCmdRead (d : DieId) (channel : BitVec 15) (s : State) : Host.Outcome State Fault Refusal :=
  runDie d (chnRead channel.toNat) s

/-- CHN_CMD.save. -/
def execChnCmdSave (d : DieId) (channel : BitVec 15) (s : State) : Host.Outcome State Fault Refusal :=
  runDie d (chnSave channel.toNat) s

/-- CHN_CMD.restore. -/
def execChnCmdRestore (d : DieId) (channel : BitVec 15) (s : State) : Host.Outcome State Fault Refusal :=
  runDie d (chnRestore channel.toNat) s

/-- CHN_RING_TAIL. -/
def execChnRingTail (d : DieId) (channel : BitVec 15) (tail : Word) (s : State) : Host.Outcome State Fault Refusal :=
  runDie d (ringTail channel.toNat tail.toNat) s

/-- RAT_CFG.owner. -/
def execRatCfgOwner (d : DieId) (ratchet : BitVec 12) (owner : BitVec 2) (s : State) : Host.Outcome State Fault Refusal :=
  runDie d (ratOwner ratchet.toNat owner.toNat) s

/-- RAT_VAL_LO. -/
def execRatValLo (d : DieId) (ratchet : BitVec 12) (value : Word) (s : State) : Host.Outcome State Fault Refusal :=
  runDie d (ratLo ratchet.toNat value.toNat) s

/-- RAT_VAL_HI. -/
def execRatValHi (d : DieId) (ratchet : BitVec 12) (value : Word) (s : State) : Host.Outcome State Fault Refusal :=
  runDie d (ratHi ratchet.toNat value.toNat) s

end Sys2Proof.Machine
end

