-- ==== Sys2Proof/Machine/Pairing.lean ====
section
/-! DEFINITION. Hand-over of the pairing, debug of a group, and the Spoke messages of the peer die (R22, R242 to R250,
R253 to R255, R339, R457, R462, R463). -/

namespace Sys2Proof.Machine

/-! ## Hand-over (R242, R243) -/

/-- The groups that a pairing would form on the die. -/
def targetGroups (d : Die) (pairing : Nat) : List (List Nat) := groupsOf pairing (enabledPipes d)

/-- Leads of those groups. -/
def targetLeads (d : Die) (pairing : Nat) : List Nat := (targetGroups d pairing).map (fun g => g.headD 0)

/-- Groups on which a timetable places a channel: that of its WINDOW entries, or those of its image's SENTINEL entries.
(DEDUCED, log entry 114) -/
def placesOf (t : Timetable) (c : Nat) (x : Chan) : List Nat :=
  if x.host.kind = 3 then (t.entries.filter (fun e => e.kind == 7 && 64 + e.target == x.host.slot)).map (fun e => e.group)
  else (t.entries.filter (fun e => e.kind == 2 && entryChan e == c)).map (fun e => e.group)

/-- A timetable places a channel on groups of a pairing: a Sentinel channel on leads in both array halves. -/
def placed (d : Die) (t : Timetable) (c : Nat) (x : Chan) : Bool :=
  let on := placesOf t c x
  !on.isEmpty && on.all (fun g => (targetLeads d t.pairing).contains g)
    && (x.host.kind != 3 || (on.any (fun g => decide (g < 3)) && on.any (fun g => decide (3 ≤ g))))

/-- Ids of the open channels. -/
def openChans (d : Die) : List Nat := chansWhere d (fun x => x.state == .opened)

/-- Ids of the channels that groups own: OPEN or PAUSED. -/
def ownedChans (d : Die) : List Nat := chansWhere d (fun x => x.state == .opened || x.state == .paused)

/-- A hand-over to a target changes the pairing of some coupled channel, OPEN or PAUSED. (DEDUCED, log entry 113) -/
def coupledChange (d : Die) (target : Nat) : Bool :=
  target != d.vp.current && (ownedChans d).any (fun c => (chan d c).coupled)

/-- The result of validating a hand-over request: 1 accepted, else the refusal (R242 step 3).
(DEDUCED, log entry 114) -/
def pairResult (d : Die) (target : Nat) : Nat :=
  match d.cad.standby with
  | none => 2
  | some t =>
    if t.pairing ≠ target ∨ (openChans d).any (fun c => !placed d t c (chan d c)) then 2
    else if coupledChange d target && d.spk.peerPair != some target then 3
    else if (targetGroups d target).any (fun g => g.any (fun n => (pipe d n).retired)
        && (ownedChans d).any (fun c => (placesOf t c (chan d c)).contains (g.headD 0))) then 4
    else 1

/-- VP page that reports faults of the die's pairing: that of its lowest enabled pipeline. (DEDUCED, log entry 114) -/
def dieVpPage (d : Die) : Nat := pVP + (enabledPipes d).headD 0

/-- VP_PAIR_CMD.start: ignored while a hand-over is pending. A change of a coupled channel's pairing is announced to the
peer die. (DEDUCED, log entry 113) -/
def pairStart (target0 : Nat) (d : Die) : Die :=
  let target := min 2 target0
  if d.vp.pending then d
  else
    let r := pairResult d target
    let d := if coupledChange d target then sendSpoke 6 target 0 0 0 0 0 [] [] d else d
    let d := updVp (fun v => { v with target := target, result := r, pending := decide (r = 1) }) d
    if r = 1 then d else raise (dieVpPage d) 7 d

/-- The die has drained: dispatch has stopped and no batch runs. -/
def drained (d : Die) : Bool := d.vp.pending && d.vp.draining && d.chn.tickets.isEmpty

/-- The two dies agree over Spoke that both have drained for the same target (R243). (DESIGN CHOICE, log entry 115) -/
def agreed (d peer : Die) : Bool :=
  drained peer && peer.vp.target == d.vp.target && !d.spk.down && !peer.spk.down

/-- The entries of a timetable whose channel, if they name one, is still there (R462). -/
def liveEntries (d : Die) (es : List TtEntry) : List TtEntry :=
  es.filter (fun e => !(e.kind == 2 || e.kind == 3 || (e.kind == 1 && decide (e.target < 32768))) || chanLive (chan d (entryChan e)))

/-- The group that a channel runs on from now on. -/
def regroup (t : Timetable) (c : Nat) (x : Chan) : Chan :=
  match placesOf t c x with
  | g :: _ => { x with host := { x.host with group := g } }
  | [] => x

/-- Pipelines that a debug halt holds: the members of halted groups. (DEDUCED, log entry 116) -/
def heldPipes (pipes : List Pipe) : List Nat :=
  (List.range 6).filter (fun n => (pipes[n]?).any (fun p => p.enabled && (pipes[p.lead]?).any (fun q => q.core.halted)))

/-- The groups of a pairing, each with a core that starts over. What a debug halt holds stays held: a group is halted that
takes a pipeline of a halted group (R463). (DEDUCED, log entry 116) -/
def regroupPipes (pairing : Nat) (pipes : List Pipe) : List Pipe :=
  let new := formGroups pairing pipes
  let held := (heldPipes pipes).filterMap (fun n => (new[n]?).map (fun p => p.lead))
  new.mapIdx (fun n p => { p with core := { halted := held.contains n }, saved := [] })

/-- The new groups and the standby timetable take effect together. (DESIGN CHOICE, log entry 115) -/
def takeGroups (d : Die) : Die :=
  match d.cad.standby with
  | none => d
  | some t =>
      let t := { t with entries := liveEntries d t.entries, isDefault := false }
      let d := updVp (fun v => { v with
        pipes := regroupPipes v.target v.pipes, current := v.target, pending := false, draining := false
        result := 0 }) d
      let d := updCad (fun c => { c with active := t, standby := none, spans := [] }) d
      let d := updChn (fun n => { n with tab := n.tab.map (fun e => (e.1, regroup t e.1 e.2)) }) d
      let d := updSpk (fun q => { q with peerPair := none }) d
      retryHeld d

/-- HANDOVER_TAKE_EFFECT on a die, with the other die of the package: the two dies after it. A hand-over that changes the
pairing of a coupled channel takes effect on both at this boundary, the first at which both have drained (R243).
(DESIGN CHOICE, log entry 115) -/
def takeHandover (d peer : Die) : Die × Die :=
  if !drained d then (d, peer)
  else if coupledChange d d.vp.target then
    if agreed d peer then (takeGroups d, takeGroups peer) else (d, peer)
  else (takeGroups d, peer)

/-! ## Debug (R244, R245, R255) -/

/-- The debug port is unlocked. -/
def debugOpen (d : Die) : Bool := d.key.debug != 0

/-- The group that DBG_CTRL.group names: debug acts on it alone (R244, R255). (DEDUCED, log entry 116) -/
def dbgLead (d : Die) : Nat := (pipe d (field d pDBG 0x040 0)).lead

/-- The group that DBG_CTRL.group names is halted. -/
def dbgHalted (d : Die) : Bool := (core d (dbgLead d)).halted

/-- DBG_CTRL.halt: accepted for a group in service with no open channel. (DEDUCED, log entry 116) -/
def dbgHalt (group : Nat) (d : Die) : Die :=
  if !debugOpen d then d
  else
    let d := setField 0 pDBG 0x040 0 group d
    match groupNamed d group with
    | none => updDbg (fun g => { g with refused := true }) d
    | some lead =>
      if (openChans d).any (fun c => groupServes d lead (chan d c)) then updDbg (fun g => { g with refused := true }) d
      else modCore lead (fun c => { c with halted := true }) d

/-- The program that a halted core's target names: that of its channel's model. (DEDUCED, log entry 116) -/
def haltedModel (d : Die) (lead : Nat) : Option Model :=
  match coreModel d lead with
  | some m => some m
  | none =>
    let t := (core d lead).target
    let c := if t < 32768 then t
      else ((d.cad.active.entries.find? (fun e => e.kind == 2 && e.pool != 0 && e.pool == t % 256
        && (pipe d e.group).lead == lead)).map entryChan).getD 0
    if chanLive (chan d c) && (chan d c).host.kind != 3 then model d (chan d c).host.slot else none

/-- One core instruction of a halted group, from its word; an engine instruction only goes on to the next word, because
no batch runs. (DEDUCED, log entry 116) -/
def stepWord (lead w : Nat) (pool : List Nat) (d : Die) : Die :=
  let a := wA w
  let b := reg d lead (wB w)
  let c := reg d lead (wC w)
  let i := wImm w
  let put (v : Nat) : Die := nextPc lead (setReg lead a v d)
  match wOp w with
  | 0x01 => put (uns 64 (sgn 32 i))
  | 0x02 => put (w64 (b + c))
  | 0x03 => put (w64 (b + uns 64 (sgn 32 i)))
  | 0x04 => put (w64 (b * c))
  | 0x05 => put (w64 (b * 2 ^ (i % 64)))
  | 0x06 => (loadConst lead a i pool d).getD d
  | 0x07 =>
    if (runBatches d lead).isEmpty then drew (put (w64 (freeNat d))) else put (batchField d lead i)
  | 0x08 => loopBack lead a i d
  | 0x09 => jumpPc lead i d
  | 0x0A => if (runBatches d lead).isEmpty then d else (wrec lead i d).getD d
  | 0x0B => if (runBatches d lead).isEmpty then d else (nextToken lead i d).getD d
  | 0x0E => modCore lead (fun k => { k with pc := 0, cursor := 0 }) d
  | _ => nextPc lead d

/-- DBG_CTRL.step: one instruction of the halted group, compared throughout. (DEDUCED, log entry 116) -/
def dbgStep (pts : List PointFault) (d : Die) : Die :=
  if debugOpen d && dbgHalted d then
    let lead := dbgLead d
    match haltedModel d lead with
    | none => d
    | some m =>
      match m.prog.code[(core d lead).pc]?, comparePoints lead [] pts d with
      | some w, (d, true) => stepWord lead w m.prog.consts d
      | some _, (d, false) => d
      | none, _ => d
  else d

/-- DBG_CTRL.resume: the group leaves the halt, and dispatch to it resumes. -/
def dbgResume (d : Die) : Die :=
  if debugOpen d && dbgHalted d then retryHeld (modCore (dbgLead d) (fun c => { c with halted := false }) d) else d

/-- The tables of the Month that the logged batch was bound to are still there. -/
def logMonthThere (d : Die) : Bool :=
  match model d d.dbg.logSlot with
  | some m => (tablesOf m d.dbg.logMonth).isSome
  | none => false

/-- The batch that the replay log holds. -/
def loggedBatch (d : Die) : Batch :=
  let l := d.dbg.log
  let p (o : Option Staged) : Bytes := (o.map (fun s => s.r.payload)).getD []
  { channel := d.dbg.logChan, serial := d.chn.serial, lead := dbgLead d, month := d.dbg.logMonth, staged := l
    tokens := (l.filter (fun s => s.rtype == 4)).length, closed := true, complete := true
    first := ((l.head?).filter (fun s => s.rtype != 5)).map (fun s => u32At s.r.payload 0)
    batchNo := u32At (p l.getLast?) 0, canary := (l.head?).any (fun s => s.r.flags.getLsbD 0) }

/-- Run a program word by word from where the core stands: to its DONE, to a word that waits for what the log does not hold, or for
so many words. The flag says that it has come to its end. -/
def replayWords (lead : Nat) (code pool : List Nat) : Nat → Die → Die × Bool
  | 0, d => (d, false)
  | k + 1, d =>
    match code[(core d lead).pc]? with
    | none => (d, true)
    | some w =>
      let e := stepWord lead w pool d
      let stays := decide ((wOp w = 0x0A ∨ wOp w = 0x0B) ∧ (core e lead).pc = (core d lead).pc ∧ (core e lead).cursor = (core d lead).cursor)
      if wOp w = 0x0E || stays then (e, true) else replayWords lead code pool k e

/-- A replay of the log on the core of a group: the core from its program's start, on the logged batch alone; and whether it came to
the program's end within so many words. (DESIGN CHOICE, log entry 117) -/
def replayCore (words : Nat) (m : Model) (d : Die) : Core × Bool :=
  let lead := dbgLead d
  let b := loggedBatch d
  let e := modChan b.channel (fun x => { x with host := { x.host with slot := d.dbg.logSlot } }) (addTicket b d)
  let e := modCore lead (fun c => { target := c.target, run := [b.serial], inSpan := c.inSpan, halted := c.halted }) e
  let r := replayWords lead m.prog.code m.prog.consts words e
  (core r.1 lead, r.2)

/-- DBG_CTRL.replay: a complete log runs again on the halted group, from the program's start to its end or to the first comparison
difference, of class `diff` after so many instructions; a group of one compares nothing. What it computes goes nowhere: no verdict, no
ring, no seal (R245). (DESIGN CHOICE, log entry 117) -/
def dbgReplay (diff after : Nat) (d : Die) : Die :=
  if !debugOpen d then d
  else
    match model d d.dbg.logSlot with
    | some m =>
      if dbgHalted d && d.dbg.complete && !d.dbg.truncated && logMonthThere d then
        let stops := decide (diff ≠ 0 ∧ 2 ≤ (members d (dbgLead d)).length)
        let r := replayCore (if stops then after else 16777216) m d
        let differs := stops && !r.2
        updDbg (fun g => { g with diverged := differs, cls := if differs then diff else 0 })
          (modCore (dbgLead d) (fun c => { r.1 with run := c.run, queues := c.queues, busy := c.busy }) d)
      else updDbg (fun g => { g with refused := true }) d
    | none => updDbg (fun g => { g with refused := true }) d

/-- DBG_LOG_CFG.arm: the next batch of a channel is captured. -/
def dbgArm (c : Nat) (d : Die) : Die :=
  if debugOpen d then setField 0 pDBG 0x04C 15 1 (setField 0 pDBG 0x04C 0 c d) else d

/-! ## Spoke (R246 to R250, R339) -/

/-- The declaration that a DECLARE message carries. -/
def spDecl (m : SpokeMsg) : Decl :=
  { verdict := spSub m, cause := byteAt m.body 16, batchNo := spA m, first := u32At m.body 8, nUnits := u32At m.body 12
    inDig := slice m.body 28 32, outDig := slice m.body 60 32 }

/-- DECLARE: the peer's declaration of a batch, kept for a batch that has not begun here. -/
def declareMsg (m : SpokeMsg) (d : Die) : Die :=
  let c := spChan m
  let x := chan d c
  let v := spDecl m
  if spokeOk 1 m && decide (1 ≤ v.verdict) && decide (v.verdict ≤ 3) && x.coupled && chanLive x then
    match (chanTickets d c).find? (fun b => b.batchNo == v.batchNo && !b.canary) with
    | some b => if b.peer.isSome then d else modTicket b.serial (fun b => { b with peer := some v }) d
    | none =>
      if slotDiff v.batchNo x.wrd.nextBatch < 0 then d
      else updSpk (fun q => { q with early := q.early.filter (fun e => !(e.1 == c && e.2.batchNo == v.batchNo)) ++ [(c, v)] }) d
  else d

/-- PHASE: the peer's phase; coupled batches in flight go on alone once it is not Summer, and declarations
of batches that have not begun here are forgotten (R22). -/
def phaseMsg (m : SpokeMsg) (d : Die) : Die :=
  if spokeOk 4 m && decide (spSub m ≤ 4) then
    let d := updSpk (fun q => { q with peerPhase := spSub m }) d
    if spSub m = 3 then d else loseCoupled (updSpk (fun q => { q with early := [] }) d)
  else d

/-- PAIR: the pairing that the peer asks for. (DEDUCED, log entry 113) -/
def pairMsg (m : SpokeMsg) (d : Die) : Die :=
  if spokeOk 6 m && decide (spSub m ≤ 2) then updSpk (fun q => { q with peerPair := some (spSub m) }) d else d

/-- ECHO: Spoke is up. -/
def echoMsg (m : SpokeMsg) (d : Die) : Die :=
  if spokeOk 7 m then updSpk (fun q => { q with up := true, down := false }) d else d

/-- The die holds a coupled admission (SPK_STAT.coupled). -/
def holdsCoupled (d : Die) : Bool := d.adm.models.any (fun e => isCoupled e.2)

/-- Die B's slot boundary nearest to now: its count. -/
def nearSlot (d : Die) : Nat := w32 ((d.tim.air + slotNs d.tim.mu / 2) / slotNs d.tim.mu)

/-- Die B follows die A's slot boundaries: coupled, and Spoke not down, since a SLOT message (R339). -/
def followsPeer (d : Die) : Bool := d.tim.following && d.which == .b && holdsCoupled d && !d.spk.down

/-- Die B takes die A's slot boundaries (R339): by a step at the first SLOT message after coupling begins, after every step of die
A, of which it has taken `steps`, and where the counts differ; else by slewing the measured skew away. Uncoupled, it follows no
more. (DESIGN CHOICE, log entry 112) -/
def followSlot (steps count : Nat) (skew : Int) (d : Die) : Die :=
  if d.which == .b && holdsCoupled d && !d.spk.down then
    let off := slotDiff count (nearSlot d)
    if !d.tim.following || steps != d.tim.peerSteps || (off != 0 && d.tim.step.isNone) then
      updTim (fun t => { markAir t with
        following := true, peerSteps := steps, slew := 0
        step := some { offset := off * (slotNs t.mu : Int) - skew, mu := (t.step.map (fun st => st.mu)).getD t.mu, decided := t.up } }) d
    else if off ≠ 0 then d
    else updTim (fun t => { markAir t with slew := -skew }) d
  else updTim (fun t => { t with following := false }) d

/-- SLOT: the peer's slot boundary, with the skew measured here. (DESIGN CHOICE, log entry 112) -/
def slotMsg (steps : Nat) (m : SpokeMsg) (skew : Int) (d : Die) : Die :=
  if spokeOk 5 m then
    let d := updSpk (fun q => { q with skewNs := skew }) d
    let d := peak pSPK 0x048 skew.natAbs d
    let d := if skew.natAbs > 40 then raise pSPK 3 d else d
    followSlot steps (spA m) skew d
  else d

/-! ## The commands -/

/-- VP_PAIR_CMD.start. -/
def execVpPairCmdStart (d : DieId) (target : BitVec 2) (s : State) : Host.Outcome State Fault Refusal :=
  runDie d (pairStart target.toNat) s

/-- HANDOVER_TAKE_EFFECT. (DESIGN CHOICE, log entry 115) -/
def execHandoverTakeEffect (d : DieId) (s : State) : Host.Outcome State Fault Refusal :=
  match d with
  | .a => let r := takeHandover s.dieA s.dieB; .next { s with dieA := r.1, dieB := r.2 }
  | .b => let r := takeHandover s.dieB s.dieA; .next { s with dieB := r.1, dieA := r.2 }

/-- DBG_CTRL.halt. -/
def execDbgCtrlHalt (d : DieId) (group : BitVec 3) (s : State) : Host.Outcome State Fault Refusal :=
  runDie d (dbgHalt group.toNat) s

/-- DBG_CTRL.step. -/
def execDbgCtrlStep (d : Copies DieId) (s : State) : Host.Outcome State Fault Refusal :=
  runDie d.at_ (dbgStep d.pts) s

/-- DBG_CTRL.resume. -/
def execDbgCtrlResume (d : DieId) (s : State) : Host.Outcome State Fault Refusal := runDie d dbgResume s

/-- DBG_CTRL.replay. -/
def execDbgCtrlReplay (d : DieId) (ended : ReplayEnd) (s : State) : Host.Outcome State Fault Refusal :=
  runDie d (dbgReplay ended.diff.toNat ended.after.toNat) s

/-- DBG_LOG_CFG.arm. -/
def execDbgLogCfgArm (d : DieId) (channel : BitVec 15) (s : State) : Host.Outcome State Fault Refusal :=
  runDie d (dbgArm channel.toNat) s

/-- DECLARE. -/
def execDeclare (d : DieId) (m : SpokeMsg) (s : State) : Host.Outcome State Fault Refusal :=
  runDie d (spokeTake m (declareMsg m)) s

/-- SPOKE_PHASE. -/
def execSpokePhase (d : DieId) (m : SpokeMsg) (s : State) : Host.Outcome State Fault Refusal :=
  runDie d (spokeTake m (phaseMsg m)) s

/-- SPOKE_SLOT. -/
def execSpokeSlot (d : DieId) (m : SpokeMsg) (skewNs : BitVec 16) (s : State) : Host.Outcome State Fault Refusal :=
  runDie d (spokeTake m (slotMsg (s.die d.other).tim.steps m skewNs.toInt)) s

/-- SPOKE_PAIR. -/
def execSpokePair (d : DieId) (m : SpokeMsg) (s : State) : Host.Outcome State Fault Refusal :=
  runDie d (spokeTake m (pairMsg m)) s

/-- SPOKE_ECHO. -/
def execSpokeEcho (d : DieId) (m : SpokeMsg) (s : State) : Host.Outcome State Fault Refusal :=
  runDie d (spokeTake m (echoMsg m)) s

/-- SPOKE_ECHO_TX. -/
def execSpokeEchoTx (d : DieId) (s : State) : Host.Outcome State Fault Refusal := runDie d (sendSpoke 7 0 0 0 0 0 0 [] []) s

/-- SPOKE_TIMEOUT. -/
def execSpokeTimeout (d : DieId) (s : State) : Host.Outcome State Fault Refusal := runDie d spokeTimeout s

end Sys2Proof.Machine
end

