-- ==== Sys2Proof/Machine/Time.lean ====
section
/-! DEFINITION. Air-time and its sources, the PTP clock and its servo, writes to the ns counter, and triggers (R332 to
R343, R349, R350). -/

namespace Sys2Proof.Machine

/-! ## Sources and disagreement (R335, R342) -/

/-- TIM_AT_CFG.src. (DEDUCED, log entry 123) -/
def srcOf (d : Die) : Nat := field d pTIM 0x058 0

/-- TIM_PTP_EPOCH. -/
def ptpEpoch (d : Die) : Nat := field d pTIM 0x060 0 + 4294967296 * field d pTIM 0x064 0

/-- Disagreement between air-time and network time as it stands (R342). -/
def settleDisagree (d : Die) : Die :=
  let t := d.tim
  let now := t.at_ == .locked && t.inUse == 1 && (t.ptp == .locked || t.ptp == .frozen || t.ptp == .holdover)
    && ptpEpoch d != 0 && t.apart
  let d := if now && !t.disagree then raise pTIM 5 d else d
  updTim (fun t => { t with disagree := now }) d

/-- After any change of the two machines: disagreement and the flags of the open seal period. -/
def timeMoved (d : Die) : Die := noteTime (settleDisagree d)

/-- The air-time machine begins to acquire a source. -/
def acquire (src good : Nat) (d : Die) : Die :=
  timeMoved (updTim (fun t => { markAir t with at_ := .acquire, inUse := src, goodEdges := good, badEdges := 0 }) d)

/-- LOCKED ends: HOLDOVER with at_lost, which holds the rate at which air-time runs now; with source auto, PTP takes over where
it is LOCKED. (DESIGN CHOICE, log entry 203) -/
def loseAir (d : Die) : Die :=
  let d := raise pTIM 0 (updTim (fun t => { markAir t with
    at_ := .holdover, goodEdges := 0, badEdges := 0, rate := t.slew.sign, slew := 0 }) d)
  if srcOf d = 3 ∧ d.tim.inUse = 1 ∧ d.tim.ptp = .locked then acquire 2 0 d else timeMoved d

/-! ## Frame edges (R337, R338) -/

/-- Air-time's own frame boundary nearest to now. -/
def nearFrame (t : Tim) : Nat := (t.air + 5000000) / 10000000 * 10000000

/-- The edge error of an edge that comes now. -/
def edgeError (t : Tim) : Int := (t.air : Int) - (nearFrame t : Int)

/-- A step of air-time is decided now (R338): in place of one that waits, whose numerology it keeps. While die B follows
die A, its own source moves nothing. (DEDUCED, log entry 123) -/
def decideStep (offset : Int) (d : Die) : Die :=
  if followsPeer d then d
  else updTim (fun t => { markAir t with
    step := some { offset := offset, mu := (t.step.map (fun st => st.mu)).getD t.mu, decided := t.up }, slew := 0 }) d

/-- Air-time slews to remove an edge error. (DEDUCED, log entry 118) -/
def slewAway (e : Int) (d : Die) : Die := if followsPeer d then d else updTim (fun t => { markAir t with slew := -e }) d

/-- The gap since the last edge is 10 ms within 2 µs. (DEDUCED, log entry 122) -/
def gapGood (t : Tim) : Bool :=
  match t.lastEdge with
  | some l => decide (9998000 ≤ t.up - l) && decide (t.up - l ≤ 10002000)
  | none => false

/-- An edge of the source in use: whether its word, if it has one, is good; the position that the source gives it.
(DEDUCED, log entries 122, 123) -/
def frameEdge (good : Bool) (position : Nat) (d : Die) : Die :=
  let t := d.tim
  let e := edgeError t
  let gap := gapGood t
  let d := updTim (fun t => { t with edgeErr := e, lastEdge := some t.up }) d
  match t.at_ with
  | .free => d
  | .holdover => if t.inUse = 2 ∧ t.ptp = .locked then acquire 2 (b2n good) d else d
  | .acquire =>
    let n := if good && gap then t.goodEdges + 1 else b2n good
    if n < 3 then timeMoved (updTim (fun t => { t with goodEdges := n }) d)
    else
      let d := updTim (fun t => { t with at_ := .locked, goodEdges := n, badEdges := 0 }) d
      let d := if position ≠ nearFrame t ∨ e.natAbs > 2000 then decideStep ((position : Int) - (t.air : Int)) d
        else slewAway e d
      timeMoved d
  | .locked =>
    let d := if e.natAbs ≤ 2000 then slewAway e d else d
    if e.natAbs ≤ 2000 && good then timeMoved (updTim (fun t => { t with badEdges := 0 }) d)
    else if t.badEdges ≥ 2 then loseAir d
    else timeMoved (updTim (fun t => { t with badEdges := t.badEdges + 1 }) d)

/-- The word that stands for the coming edge is good: it ended between 9 ms and 100 µs before (R336).
(DEDUCED, log entry 122) -/
def wordStands (t : Tim) : Bool :=
  t.wordGood && decide (100000 ≤ t.up - t.wordAt) && decide (t.up - t.wordAt ≤ 9000000)

/-- At an AT_FRAME edge: how far network time and air-time lie apart (R342). -/
def compareTimes (d : Die) : Die :=
  let gap : Int := (d.tim.ns : Int) - (ptpEpoch d : Int) - (d.tim.air : Int)
  updTim (fun t => { t with apart := decide (gap.natAbs > field d pTIM 0x078 16) }) d

/-- AT_FRAME: a rising edge of the pin now. -/
def atFrame (d : Die) : Die :=
  let src := srcOf d
  if d.phase = .frost ∨ !(src = 1 ∨ src = 3) then d
  else
    let good := wordStands d.tim
    let w := d.tim.word.getD 0
    let wrap0 := if d.tim.at_ = .locked then d.tim.wrap else field d pTIM 0x05C 0
    let wrap := if d.tim.at_ = .locked ∧ good ∧ w = 0 then wrap0 + 1 else wrap0
    let d := compareTimes (updTim (fun t => { t with wordGood := false, wrap := wrap }) d)
    if d.tim.inUse = 1 ∧ (d.tim.at_ = .acquire ∨ d.tim.at_ = .locked) then
      frameEdge good (10000000 * (1048576 * wrap + w)) d
    else
      let d := updTim (fun t => { t with edgeErr := edgeError t, lastEdge := some t.up }) d
      if good then acquire 1 1 d else timeMoved d

/-- AT_SFN: a word has ended. A word that cannot be read, or whose frame number is not one above the last one's, is bad
(R336). (DEDUCED, log entry 122) -/
def atSfn (word : Nat) (parityOk : Bool) (d : Die) : Die :=
  if d.phase = .frost then d
  else
    let n := fld word 0 10 + 1024 * fld word 10 10
    let form := parityOk && fld word 20 2 == field d pTIM 0x058 2 && fld word 22 10 == 0
    let next := match d.tim.word with
      | some p => decide (n = (p + 1) % 1048576)
      | none => true
    let good := form && next
    let d := updTim (fun t => { t with word := if parityOk then some n else none, wordGood := good, wordAt := t.up }) d
    if good then d else raise pTIM 2 d

/-- AT_FRAME_MISSING: no edge by 10 ms + 2 µs after the last. -/
def atFrameMissing (d : Die) : Die :=
  if d.tim.inUse ≠ 1 then d
  else
    match d.tim.at_ with
    | .acquire => updTim (fun t => { t with goodEdges := 0 }) d
    | .locked => if d.tim.badEdges ≥ 2 then loseAir d else updTim (fun t => { t with badEdges := t.badEdges + 1 }) d
    | _ => d

/-- ns until the ns counter next crosses a multiple of 10 ms counted from the epoch (R335). -/
def toPtpFrame (d : Die) : Nat :=
  let r : Nat := (((d.tim.ns : Int) - (ptpEpoch d : Int)) % 10000000).toNat
  if r = 0 then (if d.tim.lastEdge = some d.tim.up then 10000000 else 0) else 10000000 - r

/-- PTP_FRAME_EDGE: time passes to the next frame edge of source 2, which is an event while that source is in use. -/
def ptpFrameEdge (d : Die) : Die :=
  if d.phase = .frost ∨ d.tim.inUse ≠ 2 then d
  else
    let d := updTim (passNs (toPtpFrame d)) d
    frameEdge (d.tim.ptp == .locked) (((d.tim.ns : Int) - (ptpEpoch d : Int)).toNat) d

/-- A committed write of TIM_AT_CFG.src, or at_reacquire (R337). (DEDUCED, log entries 123, 124) -/
def sourceWritten (d : Die) : Die :=
  match srcOf d with
  | 0 => timeMoved (updTim (fun t => { t with at_ := .free, inUse := 0, goodEdges := 0, badEdges := 0 }) d)
  | 2 => acquire 2 0 d
  | _ => acquire 1 0 d

/-- TIM_CMD.at_reacquire: ignored while src is 0. (DEDUCED, log entry 124) -/
def reacquire (d : Die) : Die := if srcOf d = 0 then d else acquire (if d.tim.inUse = 0 then (if srcOf d = 2 then 2 else 1) else d.tim.inUse) 0 d

/-! ## The ns counter (R332) -/

/-- The ns counter steps. -/
def stepNs (by_ : Int) (d : Die) : Die :=
  raise pTIM 6 (count pTIM 0x0B0 (updTim (jumping (fun t => { t with ns := uns 64 ((t.ns : Int) + by_) })) d))

/-- TIM_STEP: discarded unless PTP is disabled. -/
def timStep (step : Int) (d : Die) : Die := if d.tim.ptp = .disabled ∧ d.phase ≠ .frost then stepNs step d else d

/-- The increment fraction within ±500 ppm of 1.6 ns. (DESIGN CHOICE, log entry 119) -/
def clampIncr (n : Nat) : Nat := clamp 2573544404 2580416351 n

/-! ## The PTP port (R340) -/

/-- Bytes of a PTP message as the stream filters see it. (PRESUMED, log entry 10) -/
def ptpSize : Nat := 90

/-- The port takes an incoming PTP message: the host port serves it and the servo is enabled.
(PRESUMED, log entry 10) -/
def ptpTake (d : Die) : Bool × Die :=
  match hostTake 0 0 ptpSize none false d with
  | (ok, d) => (ok && d.tim.ptp != .disabled, d)

/-- The arrival time that the port gives an event message: on the ns counter, within 3 ns (R333).
(DEDUCED, log entry 204) -/
def arrivalNs (m : PtpMsg) (d : Die) : Nat := clamp (d.tim.ns - 3) (d.tim.ns + 3) m.arrival.toNat

/-- A Sync at an interval that the port takes: from 2^-7 s to 1 s (R340). (DEDUCED, log entry 204) -/
def intervalOk (m : PtpMsg) : Bool := decide (-7 ≤ m.interval.toInt) && decide (m.interval.toInt ≤ 0)

/-- The sync interval in ns. -/
def intervalNs (m : PtpMsg) : Nat := 1000000000 / 2 ^ (-m.interval.toInt).toNat

/-- A message of the port's domain from its master. (DEDUCED, log entry 120) -/
def fromMaster (m : PtpMsg) (d : Die) : Bool :=
  m.domain.toNat == field d pTIM 0x074 8 &&
    match d.tim.master with
    | some a => a.port == m.source
    | none => false

/-- Order of two datasets in the best master clock algorithm: quality, identity, then the steps and the port. -/
def betterMaster (a b : Announce) : Bool :=
  let key (x : Announce) : List Nat :=
    [x.priority1.toNat, x.clockClass.toNat, x.accuracy.toNat, x.variance.toNat, x.priority2.toNat, x.identity.toNat
      , x.steps.toNat, beVal x.port]
  match ((key a).zip (key b)).find? (fun p => p.1 != p.2) with
  | some p => decide (p.1 < p.2)
  | none => false

/-- PTP_ANNOUNCE: the better dataset becomes, or stays, the master; any takes the place of one that has fallen silent.
(DEDUCED, log entries 120, 204) -/
def ptpAnnounce (m : Announce) (d0 : Die) : Die :=
  match ptpTake d0 with
  | (false, d) => d
  | (true, d) =>
    if m.domain.toNat ≠ field d pTIM 0x074 8 then d
    else
      let take := match d.tim.master with
        | none => true
        | some a => a.port == m.port || d.tim.silent || betterMaster m a
      if take then updTim (fun t => { t with
        master := some m, silent := t.silent && t.master.any (fun a => a.port == m.port) }) d else d

/-! ## The servo (R341) -/

/-- TIM_PTP_CFG.lock_ns. -/
def lockNs (d : Die) : Nat := field d pTIM 0x074 16

/-- The mean path delay d in eighths of a ns: the average of the last eight measurements. (DEDUCED, log entry 121) -/
def delay8 (t : Tim) : Nat := if t.delays.isEmpty then 0 else 8 * (t.delays.foldl (· + ·) 0) / t.delays.length

/-- The mean path delay in ns. (DEDUCED, log entry 121) -/
def delayNs (t : Tim) : Nat := delay8 t / 8

/-- What a change of the PTP state does to air-time on source 2. -/
def ptpMoved (d : Die) : Die :=
  let locked := d.tim.ptp == .locked
  let src := srcOf d
  let at_ := d.tim.at_
  if locked then
    if src = 2 ∧ (at_ = .free ∨ at_ = .holdover) then acquire 2 0 d
    else if src = 3 ∧ d.tim.inUse ≠ 2 ∧ !(d.tim.inUse = 1 ∧ (at_ = .locked ∨ at_ = .acquire)) then acquire 2 0 d
    else if src = 3 ∧ d.tim.inUse = 2 ∧ at_ = .holdover then acquire 2 0 d
    else timeMoved d
  else if d.tim.inUse = 2 then
    if at_ = .locked then loseAir d
    else if at_ = .acquire then
      timeMoved (updTim (fun t => { t with goodEdges := 0, at_ := if src = 3 then .holdover else .acquire }) d)
    else timeMoved d
  else timeMoved d

/-- The servo enters a state; entering LOCKED takes d_ref. -/
def toPtp (s : PtpState) (d : Die) : Die :=
  ptpMoved (updTim (fun t => { t with
    ptp := s, ptpGood := 0, ptpBad := 0, delayGood := 0, dRef := if s = .locked then delay8 t else t.dRef }) d)

/-- The servo adjusts the increment. (DESIGN CHOICE, log entry 119) -/
def adjust (o : Int) (d : Die) : Die := updTim (fun t => { markAir t with incr := clampIncr (Config.servoIncrement o t.incr) }) d

/-- A measured and corrected offset. -/
def offsetEvent (o : Int) (d : Die) : Die :=
  let lock := lockNs d
  let d := updTim (fun t => { t with offset := o }) d
  match d.tim.ptp with
  | .disabled => d
  | .frozen => d
  | .holdover => toPtp (if o.natAbs ≤ lock then .locked else .unlocked) d
  | .unlocked =>
    if o.natAbs > 1000 then stepNs (-o) (updTim (fun t => { t with ptpGood := 0 }) d)
    else
      let d := adjust o d
      if o.natAbs ≤ lock then
        if d.tim.ptpGood ≥ 15 then toPtp .locked d else updTim (fun t => { t with ptpGood := t.ptpGood + 1 }) d
      else updTim (fun t => { t with ptpGood := 0 }) d
  | .locked =>
    let d := adjust o d
    if o.natAbs > 10 * lock then
      if d.tim.ptpBad ≥ 7 then raise pTIM 3 (toPtp .unlocked d) else updTim (fun t => { t with ptpBad := t.ptpBad + 1 }) d
    else updTim (fun t => { t with ptpBad := 0 }) d

/-- A Sync has given its times: the offset of R340. -/
def syncDone (t1 t2 : Int) (d : Die) : Die :=
  let d := updTim (fun t => { t with syncT1 := t1, syncT2 := t2, syncSeq := none }) d
  offsetEvent (t2 - t1 - (delayNs d.tim : Int) - sgn 32 (field d pTIM 0x07C 0)) d

/-- A correction field in whole ns. -/
def corrNs (m : PtpMsg) : Int := m.corr.toInt / 65536

/-- A Sync of the master has come: the intervals that passed without one since the last are counted, but for those that
PTP_SYNC_TIMEOUT has counted (R350). (DEDUCED, log entry 204) -/
def noteSync (m : PtpMsg) (d : Die) : Die :=
  let gap := intervalNs m
  let missed := match d.tim.syncAt with
    | some t => ((d.tim.up - t + gap / 2) / gap) - 1 - d.tim.syncMissed
    | none => 0
  countN pTIM 0x0B4 missed (updTim (fun t => { t with
    syncAt := some t.up, syncGap := gap, syncMissed := 0, silent := false }) d)

/-- PTP_SYNC: one-step, or two-step whose Follow_Up is to come. -/
def ptpSync (m : PtpMsg) (d0 : Die) : Die :=
  match ptpTake d0 with
  | (false, d) => d
  | (true, d) =>
    if !(fromMaster m d && intervalOk m) then d
    else
      let d := noteSync m d
      if m.twoStep then updTim (fun t => { t with syncSeq := some (m.seq.toNat, arrivalNs m d, corrNs m) }) d
      else syncDone ((m.origin.toNat : Int) + corrNs m) (arrivalNs m d : Int) d

/-- PTP_FOLLOW_UP: completes the two-step Sync of its number. -/
def ptpFollowUp (m : PtpMsg) (d0 : Die) : Die :=
  match ptpTake d0 with
  | (false, d) => d
  | (true, d) =>
    match d.tim.syncSeq with
    | some (seq, t2, corr) =>
      if fromMaster m d && seq == m.seq.toNat then syncDone ((m.origin.toNat : Int) + corr + corrNs m) (t2 : Int) d else d
    | none => d

/-- PTP_SYNC_TIMEOUT: no Sync for four sync intervals. -/
def ptpSyncTimeout (d : Die) : Die :=
  if d.tim.ptp = .disabled then d
  else
    let d := countN pTIM 0x0B4 4 (updTim (fun t => { t with syncMissed := t.syncMissed + 4, silent := true }) d)
    if d.tim.ptp = .locked ∨ d.tim.ptp = .unlocked then raise pTIM 3 (toPtp .holdover d) else d

/-- How far d lies from d_ref, in eighths of a ns. -/
def delayAway (t : Tim) : Nat := ((delay8 t : Int) - (t.dRef : Int)).natAbs

/-- A path delay has been measured. -/
def delayEvent (measured : Int) (d : Die) : Die :=
  let d := updHst (fun h => { h with reqT := none }) (updTim (fun t => { t with delays := (measured.toNat :: t.delays).take 8 }) d)
  let thr := field d pTIM 0x078 0
  match d.tim.ptp with
  | .locked => if delayAway d.tim > 8 * thr then raise pTIM 4 (toPtp .frozen d) else d
  | .frozen =>
    if delayAway d.tim ≤ 4 * thr then
      if d.tim.delayGood ≥ 15 then toPtp .locked d else updTim (fun t => { t with delayGood := t.delayGood + 1 }) d
    else updTim (fun t => { t with delayGood := 0 }) d
  | _ => d

/-- The port runs and may send. -/
def ptpRuns (d : Die) : Bool := d.tim.ptp != .disabled && d.regs.enabled.contains pHST && d.hst.linkUp

/-- Give an event message to the port, in traffic class 3; its times are those at which it leaves (R340, R344). -/
def sendPtp (kind seq : Nat) (corr : Int) (d : Die) : Die :=
  flushEgress (enqueueFrame
    { cls := 3, at_ := d.tim.up
      ptp := some { kind := kind, as_ := field d pTIM 0x074 1 == 1, domain := field d pTIM 0x074 8, seq := seq, origin := 0, corr := corr } } d)

/-- PTP_DELAY_REQ_TX: a Delay_Req, or a Pdelay_Req under 802.1AS. -/
def delayReqTx (d : Die) : Die :=
  if ptpRuns d then
    let n := (d.tim.reqSeq + 1) % 65536
    sendPtp (field d pTIM 0x074 1) n 0 (updHst (fun h => { h with reqT := none }) (updTim (fun t => { t with reqSeq := n }) d))
  else d

/-- PTP_DELAY_RESP: answers the last Delay_Req. -/
def delayResp (m : PtpMsg) (d0 : Die) : Die :=
  match ptpTake d0 with
  | (false, d) => d
  | (true, d) =>
    match d.hst.reqT with
    | some t3 =>
      if field d pTIM 0x074 1 = 0 ∧ fromMaster m d ∧ m.seq.toNat = d.tim.reqSeq then
        delayEvent ((d.tim.syncT2 - d.tim.syncT1 + (m.origin.toNat : Int) - corrNs m - (t3 : Int)) / 2) d
      else d
    | none => d

/-- PTP_PDELAY_REQ: answered under 802.1AS with the residence time t3 − t2. -/
def pdelayReq (m : PtpMsg) (d0 : Die) : Die :=
  match ptpTake d0 with
  | (false, d) => d
  | (true, d) =>
    if field d pTIM 0x074 1 = 1 ∧ m.domain.toNat = field d pTIM 0x074 8 then
      sendPtp 2 m.seq.toNat (corrNs m - (arrivalNs m d : Int)) d
    else d

/-- PTP_PDELAY_RESP: answers the last Pdelay_Req. -/
def pdelayResp (m : PtpMsg) (d0 : Die) : Die :=
  match ptpTake d0 with
  | (false, d) => d
  | (true, d) =>
    match d.hst.reqT with
    | some t1 =>
      if field d pTIM 0x074 1 = 1 ∧ m.domain.toNat = field d pTIM 0x074 8 ∧ m.seq.toNat = d.tim.reqSeq then
        delayEvent (((arrivalNs m d : Int) - (t1 : Int) - corrNs m) / 2) d
      else d
    | none => d

/-- TIM_CMD.asym_accept: ignored outside FROZEN. -/
def asymAccept (d : Die) : Die :=
  if d.tim.ptp = .frozen then
    let d := updTim (fun t => { t with dRef := delay8 t }) d
    toPtp (if d.tim.offset.natAbs ≤ lockNs d then .locked else .unlocked) d
  else d

/-- A committed write of TIM_PTP_CFG.en. -/
def ptpEnable (en : Bool) (d : Die) : Die :=
  if en then (if d.tim.ptp = .disabled then toPtp .unlocked d else d)
  else if d.tim.ptp = .disabled then d
  else toPtp .disabled (updHst (fun h => { h with reqT := none }) (updTim (fun t => { t with
    master := none, silent := false, syncSeq := none, syncAt := none, syncMissed := 0 }) d))

/-! ## Triggers (R343, R350) -/

/-- A trigger of a die. -/
def trigger (d : Die) (i : Nat) : Trigger := (d.tim.trigs[i]?).getD {}

/-- Change a trigger. -/
def modTrig (i : Nat) (f : Trigger → Trigger) : Die → Die := updTim (fun t => { t with trigs := t.trigs.modify i f })

/-- TIM_TRIG_TGT_HI: both halves apply to the selected trigger and arm it. (DEDUCED, log entry 158) -/
def trigTarget (hi : Nat) (d : Die) : Die :=
  modTrig (field d pTIM 0x090 0) (fun t => { t with target := t.lo + 4294967296 * hi, armed := true }) d

/-- An armed trigger's condition holds. -/
def trigDue (d : Die) (t : Trigger) : Bool :=
  t.armed &&
    if t.mode = 1 then
      decide (slotDiff (slotCount d) t.target > 0) || (slotDiff (slotCount d) t.target == 0 && decide (t.symbol ≤ symbolOf d.tim))
    else t.mode == 2 && decide (sgn 64 (d.tim.ns + 18446744073709551616 - t.target) ≥ 0)

/-- The first target of a periodic trigger after now. -/
def nextTarget (d : Die) (t : Trigger) : Nat :=
  if t.mode = 1 then
    let past := (slotDiff (slotCount d) t.target - b2n (symbolOf d.tim < t.symbol)).toNat
    w32 (t.target + (past / t.period + 1) * t.period)
  else
    let past := (sgn 64 (d.tim.ns + 18446744073709551616 - t.target)).toNat
    w64 (t.target + (past / t.period + 1) * t.period)

/-- TRIGGER_FIRE: a trigger whose condition holds fires. -/
def triggerFire (i : Nat) (d : Die) : Die :=
  let t := trigger d i
  if trigDue d t then
    let d := updTim (fun t => { t with fired := t.fired ||| 2 ^ i }) d
    let slot := slotCount d
    let ns := d.tim.ns % 4294967296
    let target := nextTarget d t
    let d := modTrig i (fun t =>
      let t := { t with capSlot := slot, capNs := ns }
      if t.period = 0 then { t with mode := 0, armed := false } else { t with target := target, lo := target % 4294967296 }) d
    sendEvent 1 i d
  else d

/-! ## The commands -/

/-- AT_FRAME. -/
def execAtFrame (d : DieId) (s : State) : Host.Outcome State Fault Refusal := runDie d atFrame s

/-- AT_SFN. -/
def execAtSfn (d : DieId) (word : Word) (parityOk : Bool) (s : State) : Host.Outcome State Fault Refusal :=
  runDie d (atSfn word.toNat parityOk) s

/-- AT_FRAME_MISSING. -/
def execAtFrameMissing (d : DieId) (s : State) : Host.Outcome State Fault Refusal := runDie d atFrameMissing s

/-- PTP_FRAME_EDGE. -/
def execPtpFrameEdge (d : DieId) (s : State) : Host.Outcome State Fault Refusal := runDie d ptpFrameEdge s

/-- PTP_SYNC. -/
def execPtpSync (d : DieId) (m : PtpMsg) (s : State) : Host.Outcome State Fault Refusal := runDie d (ptpSync m) s

/-- PTP_FOLLOW_UP. -/
def execPtpFollowUp (d : DieId) (m : PtpMsg) (s : State) : Host.Outcome State Fault Refusal := runDie d (ptpFollowUp m) s

/-- PTP_ANNOUNCE. -/
def execPtpAnnounce (d : DieId) (m : Announce) (s : State) : Host.Outcome State Fault Refusal := runDie d (ptpAnnounce m) s

/-- PTP_DELAY_REQ_TX. -/
def execPtpDelayReqTx (d : DieId) (s : State) : Host.Outcome State Fault Refusal := runDie d delayReqTx s

/-- PTP_DELAY_RESP. -/
def execPtpDelayResp (d : DieId) (m : PtpMsg) (s : State) : Host.Outcome State Fault Refusal := runDie d (delayResp m) s

/-- PTP_PDELAY_REQ. -/
def execPtpPdelayReq (d : DieId) (m : PtpMsg) (s : State) : Host.Outcome State Fault Refusal := runDie d (pdelayReq m) s

/-- PTP_PDELAY_RESP. -/
def execPtpPdelayResp (d : DieId) (m : PtpMsg) (s : State) : Host.Outcome State Fault Refusal := runDie d (pdelayResp m) s

/-- PTP_SYNC_TIMEOUT. -/
def execPtpSyncTimeout (d : DieId) (s : State) : Host.Outcome State Fault Refusal := runDie d ptpSyncTimeout s

/-- TIM_STEP. -/
def execTimStep (d : DieId) (step : W64) (s : State) : Host.Outcome State Fault Refusal := runDie d (timStep step.toInt) s

/-- TIM_CMD.asym_accept. -/
def execTimCmdAsymAccept (d : DieId) (s : State) : Host.Outcome State Fault Refusal := runDie d asymAccept s

/-- TIM_CMD.at_reacquire. -/
def execTimCmdAtReacquire (d : DieId) (s : State) : Host.Outcome State Fault Refusal := runDie d reacquire s

/-- TIM_TRIG_TGT_HI. -/
def execTimTrigTgtHi (d : DieId) (value : Word) (s : State) : Host.Outcome State Fault Refusal :=
  runDie d (trigTarget value.toNat) s

end Sys2Proof.Machine
end

