-- ==== Sys2Proof/Machine/Peloton.lean ====
section
/-! DEFINITION. The Peloton fabric (chapter 18): ports and their messages, formation and routes, Gates, and the chains
of a sharded model (R440 to R454). -/

namespace Sys2Proof.Machine

/-! ## Ports and the topology (R441 to R445) -/

/-- A port may carry a link: its page is enabled and PEL_PORT_CFG.en is 1, in Spring or Summer (R445, R468). -/
def pelServes (d : Die) (p : Nat) : Bool :=
  decide (p < 3) && d.regs.enabled.contains (pelPage p) && field d (pelPage p) 0x040 0 == 1
    && (d.phase == .spring || d.phase == .summer)

/-- A digest's 32 bytes of zero stand for no neighbour. -/
def nbrBytes (d : Die) (p : Nat) : Bytes × Nat :=
  match (pelPort d p).up, (pelPort d p).nbr with
  | true, some n => n
  | _, _ => (zeros 32, 0)

/-- What the die's own TOPO says now. -/
def ownTopo (d : Die) : TopoNode := { digest := d.key.device, version := d.pel.version, nbrs := (List.range 3).map (nbrBytes d) }

/-- The body of a TOPO (R443). -/
def topoBody (t : TopoNode) : Bytes :=
  fitTo 32 t.digest ++ leBytes 4 t.version ++ t.nbrs.flatMap (fun n => fitTo 32 n.1) ++ t.nbrs.map (fun n => BitVec.ofNat 8 n.2)

/-- What a TOPO body says. -/
def readTopo (b : Bytes) : TopoNode :=
  { digest := slice b 0 32, version := u32At b 32
    nbrs := (List.range 3).map (fun p => (slice b (36 + 32 * p) 32, byteAt b (132 + p))) }

/-- Put a node's word into the topology. -/
def setTopo (t : TopoNode) : Die → Die :=
  updPel (fun x => { x with topo := t :: x.topo.filter (fun o => o.digest != t.digest) })

/-- A new version of the own TOPO, flooded (R443 item 2). Before the first formation there is none. -/
def floodOwn (d : Die) : Die :=
  if d.pel.epoch = 0 then d
  else
    let d := updPel (fun x => { x with version := w32 (x.version + 1) }) d
    floodBut 2 none (topoBody (ownTopo d)) (setTopo (ownTopo d) d)

/-- The neighbour of a port has changed. -/
def setNbr (p : Nat) (n : Option (Bytes × Nat)) (d : Die) : Die :=
  if (pelPort d p).nbr = n then d else floodOwn (modPort p (fun q => { q with nbr := n }) d)

/-- DISC and ECHO on a port (R442). (DESIGN CHOICE, log entry 140) -/
def discTx (p : Nat) (d : Die) : Die :=
  if (pelPort d p).up then
    let d := sendNbr 1 p (d.key.device ++ [BitVec.ofNat 8 p]) d
    let seq := d.pel.seq
    sendNbr 3 p [] (modPort p (fun q => { q with echo := some (seq, d.tim.up) }) d)
  else d

/-- A port's link comes up or is lost (R442, R445, R453). -/
def pelLink (p : Nat) (up : Bool) (d : Die) : Die :=
  if up then
    if pelServes d p && !(pelPort d p).up then discTx p (modPort p (fun _ => { up := true }) d) else d
  else if (pelPort d p).up then
    floodOwn (raise (pelPage p) 0 (modPort p (fun q => { q with up := false, nbr := none, echo := none }) d))
  else d

/-! ## Chain links (R448) -/

/-- A link of an entry: its next one or its previous one. (DEDUCED, log entry 149) -/
def chainLink (next : Bool) (c : Chain) : Option ChainLink := if next then c.next else c.prev

/-- Replace a link of an entry. -/
def setLink (next : Bool) (l : Option ChainLink) (c : Chain) : Chain :=
  if next then { c with next := l } else { c with prev := l }

/-- Change a loaded entry. -/
def modChain (e : Nat) (f : Chain → Chain) : Die → Die := updPel (fun x => { x with chains := mmod x.chains e f })

/-- Change the link of an entry. -/
def modLink (e : Nat) (next : Bool) (f : ChainLink → ChainLink) : Die → Die :=
  modChain e (fun c => setLink next ((chainLink next c).map f) c)

/-- Every link of the loaded entries: entry, side, link. -/
def links (d : Die) : List (Nat × Bool × ChainLink) :=
  d.pel.chains.flatMap (fun e =>
    (e.2.prev.map (fun l => (e.1, false, l))).toList ++ (e.2.next.map (fun l => (e.1, true, l))).toList)

/-- The links to a die. -/
def linksTo (d : Die) (peer : Bytes) : List (Nat × Bool × ChainLink) := (links d).filter (fun l => l.2.2.peer == peer)

/-- The body of a CHAIN_OPEN: an ephemeral X448 public value, the identity key, a nonce. -/
def openBody (secret nonce : Bytes) (d : Die) : Bytes :=
  fitTo 160 (x448Public secret ++ fitTo 57 d.key.idPublic ++ fitTo 16 nonce)

/-- A link begins with a fresh secret and nonce: CHAIN_OPEN goes to the peer once both hold node ids.
(DESIGN CHOICE, log entries 150, 182) -/
def startLink (e : Nat) (next : Bool) (peer : Bytes) (d : Die) : Die :=
  match idOf d peer, ownId d with
  | some dst, some _ =>
    let secret := freeStr 56 d
    let d := drew d
    let body := openBody secret (freeStr 16 d) d
    let d := drew d
    sendNode 8 dst none body
      (modChain e (setLink next (some { peer := peer, secret := secret, sent := body, last := d.tim.up })) d)
  | _, _ => modChain e (setLink next (some { peer := peer })) d

/-- Formation drops every link key; the links open again once the peers have ids (R445).
(DESIGN CHOICE, log entry 150) -/
def reopenLinks (d : Die) : Die := (links d).foldl (fun d l => startLink l.1 l.2.1 l.2.2.peer d) d

/-- Transcript and key of a link, given both bodies: the body of the lower node id comes first. -/
def linkKeys (d : Die) (l : ChainLink) : Bytes × Bytes :=
  let mine := (ownId d).getD 0
  let theirs := (idOf d l.peer).getD 0
  let t := h32 (if mine ≤ theirs then l.sent ++ l.got else l.got ++ l.sent)
  (t, kmac256 (x448 l.secret (l.got.take 56)) t 32 (ascii "HW2240 peloton chain"))

/-- The peer's CHAIN_OPEN has come for a link: the own one goes out again for a peer that has not taken it, and
CHAIN_AUTH follows. (DEDUCED, log entry 149; DESIGN CHOICE, log entry 150) -/
def takeOpen (e : Nat) (next : Bool) (dst : Nat) (body : Bytes) (d : Die) : Die :=
  match (mget d.pel.chains e).bind (chainLink next) with
  | none => d
  | some l =>
    let l := { l with got := body }
    let k := linkKeys d l
    let d := modLink e next (fun _ => { l with t := k.1, key := k.2 }) d
    sendNode 9 dst none (edSign d.key.idSecret (ascii "HW2240 peloton") k.1) (sendNode 8 dst none l.sent d)

/-- A CHAIN_OPEN from a node (R448). A repeated body changes nothing; a second body begins the link anew. -/
def chainOpen (src : Nat) (body : Bytes) (d : Die) : Die :=
  match d.pel.ids[src]? with
  | none => d
  | some peer =>
    let ls := linksTo d peer
    if ls.any (fun l => l.2.2.got == body) then d
    else
      match ls.find? (fun l => l.2.2.got.isEmpty), ls.head? with
      | some l, _ =>
        takeOpen l.1 l.2.1 src body (if l.2.2.sent.isEmpty then startLink l.1 l.2.1 peer d else d)
      | none, some l => takeOpen l.1 l.2.1 src body (startLink l.1 l.2.1 peer d)
      | none, none => d

/-- A CHAIN_AUTH from a node: the link opens if the peer's key is the one named and its signature holds (R448). -/
def chainAuth (src : Nat) (body : Bytes) (d : Die) : Die :=
  match d.pel.ids[src]? with
  | none => d
  | some peer =>
    let ls := (linksTo d peer).filter (fun l => !l.2.2.isOpen && !l.2.2.t.isEmpty)
    let good (l : ChainLink) : Bool :=
      let pub := slice l.got 56 57
      h32 pub == l.peer && edVerify pub (ascii "HW2240 peloton") l.t (body.take 114)
    match ls.find? (fun l => good l.2.2), ls with
    | some l, _ => modLink l.1 l.2.1 (fun k => { k with isOpen := true, last := d.tim.up }) d
    | none, [] => d
    | none, _ :: _ => raise pPEL 6 d

/-! ## Gates (R446, R447) -/

/-- A Gate of the die. -/
def pelGate (d : Die) (g : Nat) : Gate := (d.pel.gates[g]?).getD {}

/-- Change a Gate. -/
def modGate (g : Nat) (f : Gate → Gate) : Die → Die := updPel (fun x => { x with gates := x.gates.modify g f })

/-- The Gate is in use. (DEDUCED, log entry 146) -/
def gateOn (d : Die) (g : Nat) : Bool := fieldSel d g pPEL 0x098 0 == 1

/-- The node ids of a member mask of 16 bytes. -/
def maskIds (mask : Bytes) : List Nat := (List.range 128).filter (fun i => tst (byteAt mask (i / 8)) (i % 8))

/-- The member mask that the registers give a Gate. -/
def gateMask (d : Die) (g : Nat) : Bytes := (List.range 4).flatMap (fun m => leBytes 4 (fieldSel d g pPEL (0x09C + 4 * m) 0))

/-- The members of a Gate. -/
def gateMembers (d : Die) (g : Nat) : List Nat := maskIds (gateMask d g)

/-- End a round without a release (R446). -/
def gateAbortHere (g round : Nat) (d : Die) : Die :=
  raise pPEL 4 (modGate g (fun x => { x with state := 3, round := round, arrived := [], own := false, endsAt := none }) d)

/-- The root ends a round: GATE_ABORT to every other member. (DEDUCED, log entry 144) -/
def gateAbort (g : Nat) (d : Die) : Die :=
  let r := (pelGate d g).round
  let ms := (gateMembers d g).filter (fun m => some m != ownId d)
  gateAbortHere g r (ms.foldl (fun d m => sendNode 7 m none [BitVec.ofNat 8 g, BitVec.ofNat 8 r] d) d)

/-- The next node from one node towards another on the routes of R444. -/
def nextNode (d : Die) (from_ goal : Nat) : Option Nat :=
  let dist := hopsTo d goal
  match mget dist from_ with
  | none => none
  | some h => ((linksOf d from_).filter (fun n => mget dist n == some (h - 1) && decide (0 < h))).min?

/-- The path of a message from one node to another passes through a node, or ends there. -/
def passesBy (d : Die) (me goal : Nat) : Nat → Nat → Bool
  | 0, _ => false
  | fuel + 1, x => x == me || (x != goal && match nextNode d x goal with
      | some y => passesBy d me goal fuel y
      | none => false)

/-- GATE_RELEASE on each port whose subtree, on the routes from the root, holds members other than this node.
(DESIGN CHOICE, log entry 140; DEDUCED, log entry 142) -/
def sendReleases (g round ttl src seq countdown root : Nat) (mask : Bytes) (d : Die) : Die :=
  let served := (maskIds mask).filter (fun m => some m != ownId d && passesBy d ((ownId d).getD 128) m 128 root)
  let body := [BitVec.ofNat 8 g, BitVec.ofNat 8 round] ++ zeros 2 ++ leBytes 4 countdown ++ fitTo 16 mask
  (List.range 3).foldl (fun d p =>
    if served.any (fun m => (routeTo d m).map (fun r => r.1) == some p) then
      pelOut p (pelBytes 6 ttl src 0xFFFF seq d.pel.epoch body []) d
    else d) d

/-- Longest path of R446 from the root to a member: the latency of the first link, F per node between, and the
latencies of the links beyond, which no message tells the root. (DESIGN CHOICE, log entry 145) -/
def pathCycles (d : Die) (m : Nat) : Nat × Die :=
  match routeTo d m with
  | none => (0, d)
  | some (p, h) =>
    if h ≤ 1 then ((pelPort d p).latency, d)
    else ((pelPort d p).latency + 88 * (h - 1) + freeNat d % (4096 * (h - 1)), drew d)

/-- ns of a number of arithmetic cycles, rounded to nearest. -/
def cyclesNs (c : Nat) : Nat := (c * 10 + 11) / 22

/-- The root holds every arrival: it releases (R446, R447). (DESIGN CHOICE, log entry 140) -/
def gateRelease (g : Nat) (d : Die) : Die :=
  let mask := gateMask d g
  let r := (maskIds mask).foldl (fun (acc : Nat × Die) m =>
    let p := pathCycles acc.2 m
    (max acc.1 p.1, p.2)) (0, d)
  let c := r.1 + 2200
  let d := r.2
  let round := (pelGate d g).round
  let seq := d.pel.seq
  let d := sendReleases g round 16 (srcId d) seq c ((ownId d).getD 128) mask (pelNext d)
  modGate g (fun x => { x with endsAt := some (d.tim.up + cyclesNs c) }) d

/-- The root takes an arrival in a round (R446). (DEDUCED, log entries 144, 146) -/
def rootArrive (g round node : Nat) (d : Die) : Die :=
  let x := pelGate d g
  let ms := gateMembers d g
  if !ms.contains node || x.endsAt.isSome || (x.state != 1 && x.round == round && x.state != 0) || (x.state == 1 && x.round != round)
  then d
  else
    let d := if x.state = 1 then d
      else modGate g (fun x => { x with state := 1, round := round, arrived := [], own := false, firstAt := d.tim.up }) d
    let d := modGate g (fun x => { x with arrived := if x.arrived.contains node then x.arrived else node :: x.arrived }) d
    if ms.any (fun m => some m != ownId d && (routeTo d m).isNone) then gateAbort g d
    else if ms.all (fun m => (pelGate d g).arrived.contains m) then gateRelease g d
    else d

/-- This die arrives at a Gate (R446). (DEDUCED, log entry 144) -/
def arriveAt (g : Nat) (d : Die) : Die :=
  match ownId d, (gateMembers d g).head? with
  | some me, some root =>
    let x := pelGate d g
    if !gateOn d g || !(gateMembers d g).contains me || (x.state == 1 && x.own) then d
    else
      let round := if x.state = 1 then x.round else (x.round + 1) % 256
      if root = me then
        rootArrive g round me (modGate g (fun y => if x.state = 1 then { y with own := true } else y) d)
      else
        sendNode 5 root none [BitVec.ofNat 8 g, BitVec.ofNat 8 round]
          (modGate g (fun y => { y with state := 1, round := round, own := true, endsAt := none }) d)
  | _, _ => d

/-- A GATE_RELEASE that came by a port (R447): the node counts down if it is a member, and sends copies on; one of an
earlier epoch, whose rounds formation has aborted (R445), is ignored. (DEDUCED, log entry 144) -/
def gateReleased (p : Nat) (m : PelMsg) (d : Die) : Die :=
  if m.epoch.toNat < d.pel.epoch then d
  else
  let g := byteAt m.body 0
  let round := byteAt m.body 1
  let mask := slice m.body 8 16
  let rest := u32At m.body 4 - (pelPort d p).latency
  match ownId d, (maskIds mask).head? with
  | some me, some root =>
    let d := if (maskIds mask).contains me && gateOn d g then
        modGate g (fun x => { x with state := 1, round := round, endsAt := some (d.tim.up + cyclesNs rest) }) d
      else d
    if m.ttl.toNat ≤ 1 then d
    else sendReleases g round (m.ttl.toNat - 1) m.src.toNat m.seq.toNat (rest - 88) root mask d
  | _, _ => d

/-- The countdown of a Gate ends: this member releases (R447). -/
def gateEnds (g : Nat) (d : Die) : Die :=
  match (pelGate d g).endsAt with
  | none => d
  | some t =>
    let d := updTim (fun x => pass (t - x.up) x) d
    let slot := slotCount d
    let ns := d.tim.ns % 4294967296
    let d := modGate g (fun x =>
      { x with state := 2, endsAt := none, own := false, arrived := [], capSlot := slot, capNs := ns }) d
    let d := sendEvent 1 (16 + g) (count pPEL 0x0D4 d)
    if fieldSel d g pPEL 0x098 1 = 1 ∧ srcOf d = 0 then
      decideStep (((fieldSel d g pPEL 0x0AC 0 * slotNs d.tim.mu : Nat) : Int) - (d.tim.air : Int)) d
    else d

/-- GATE_TIMEOUT at the root (R446). -/
def gateTimeout (g : Nat) (d : Die) : Die :=
  let x := pelGate d g
  if x.state = 1 ∧ x.endsAt = none ∧ (gateMembers d g).head? = ownId d ∧ (ownId d).isSome then gateAbort g d else d

/-- The root of a round that waits for arrivals finds a member that it cannot reach. -/
def gateStrands (d : Die) (g : Nat) : Bool :=
  let x := pelGate d g
  x.state == 1 && x.endsAt.isNone && (ownId d).isSome && (gateMembers d g).head? == ownId d
    && (gateMembers d g).any (fun m => some m != ownId d && (routeTo d m).isNone)

/-- After a change of the topology, the rounds whose root cannot reach a member any more end (R446).
(DEDUCED, log entry 146) -/
def loseGates (d : Die) : Die := (List.range 16).foldl (fun d g => if gateStrands d g then gateAbort g d else d) d

/-- A firing trigger makes the die arrive at the Gates that name it (R343, R446). -/
def triggerGates (i : Nat) (d : Die) : Die :=
  (List.range 16).foldl (fun d g =>
    if gateOn d g && fieldSel d g pPEL 0x098 5 == 1 && fieldSel d g pPEL 0x098 2 == i then arriveAt g d else d) d

/-! ## Formation (R443) -/

/-- The die joins an epoch, while its formation runs or after it: no ids, an empty topology but for itself, open Gate rounds
aborted and chain keys dropped. (DEDUCED, log entry 143) -/
def joinEpoch (forming : Bool) (e : Nat) (d : Die) : Die :=
  let d := (List.range 16).foldl (fun d g =>
    if (pelGate d g).state = 1 then gateAbortHere g (pelGate d g).round d else d) d
  let d := updPel (fun x => { x with
    epoch := e, forming := forming, topo := [], ids := []
    chains := mmap x.chains (fun c =>
      { c with prev := c.prev.map (fun l => { peer := l.peer }), next := c.next.map (fun l => { peer := l.peer }) }) }) d
  floodOwn d

/-- PEL_CMD.form. -/
def formEpoch (d : Die) : Die := joinEpoch true (w32 (d.pel.epoch + 1)) d

/-- FORMATION_QUIET: ids by rank of the digests; the chain links open again (R443 items 3 and 4, R445). -/
def formationQuiet (d : Die) : Die :=
  if d.pel.forming then
    let all := (d.pel.topo.map (fun t => t.digest)).mergeSort (fun a b => beVal a ≤ beVal b)
    let d := updPel (fun x => { x with forming := false, ids := all.take 128 }) d
    reopenLinks (if all.length > 128 then raise pPEL 2 d else d)
  else d

/-! ## Messages received (R441) -/

/-- The body bytes that a type reserves, as ranges of offset and length. -/
def pelResv (typ : Nat) : List (Nat × Nat) :=
  match typ with
  | 1 => [(33, 127)]
  | 2 => [(135, 25)]
  | 3 => [(0, 160)]
  | 4 => [(12, 148)]
  | 5 => [(2, 158)]
  | 6 => [(2, 2), (24, 136)]
  | 7 => [(2, 158)]
  | 8 => [(129, 31)]
  | 9 => [(114, 46)]
  | 10 => [(2, 2), (10, 6), (48, 112)]
  | _ => [(2, 158)]

/-- A frame is whole and its reserved fields are zero. -/
def pelWhole (typ : Nat) (m : PelMsg) : Bool :=
  m.fcsOk && m.body.length == 160 && m.tag.length == 16 && m.resv == 0
    && (typ == 10 || typ == 11 || allZero m.tag) && (pelResv typ).all (fun r => allZero (slice m.body r.1 r.2))

/-- Bytes 0 to 175 of a message as its sender made them. -/
def pelHead (typ : Nat) (m : PelMsg) : Bytes :=
  (pelBytes typ 16 m.src.toNat m.dst.toNat m.seq.toNat m.epoch.toNat m.body []).take 176

/-- Send a message on towards its destination; a node without an id forwards no traffic and drops it (R441, R443).
(DEDUCED, log entry 142) -/
def pelForward (typ p : Nat) (m : PelMsg) (d : Die) : Die :=
  if (ownId d).isNone ∨ m.ttl.toNat ≤ 1 then raise (pelPage p) 1 (count (pelPage p) 0x050 d)
  else
    match routeTo d m.dst.toNat with
    | none => raise pPEL 3 d
    | some (p, _) =>
      pelOut p (pelBytes typ (m.ttl.toNat - 1) m.src.toNat m.dst.toNat m.seq.toNat m.epoch.toNat m.body m.tag) d

/-- Take a message on a port: drop it, join its epoch, send it on, or act on it. (DEDUCED, log entries 142, 143) -/
def pelTake (typ p : Nat) (m : PelMsg) (act : Die → Die) (d : Die) : Die :=
  if !(pelPort d p).up || !pelServes d p then d
  else if !pelWhole typ m then raise (pelPage p) 1 (count (pelPage p) 0x050 d)
  else
    let d := count (pelPage p) 0x04C d
    let d := if m.epoch.toNat > d.pel.epoch then joinEpoch (m.src == 0xFFFE) m.epoch.toNat d else d
    if m.dst = 0xFFFF then act d
    else if m.epoch.toNat < d.pel.epoch then d
    else if ownId d = some m.dst.toNat then act d
    else pelForward typ p m d

/-- A TOPO: stored and sent on if it is newer (R443 item 2). (DEDUCED, log entry 143) -/
def topoIn (p : Nat) (m : PelMsg) (d : Die) : Die :=
  let t := readTopo m.body
  let old := d.pel.topo.find? (fun o => o.digest == t.digest)
  let newer := match old with
    | none => true
    | some o => decide (o.version < t.version)
  if m.epoch.toNat ≠ d.pel.epoch ∨ m.epoch = 0 ∨ t.digest = d.key.device ∨ !newer then d
  else
    let d := loseGates (setTopo t d)
    if m.ttl.toNat ≤ 1 then d
    else
      ((List.range 3).filter (fun q => q != p)).foldl (fun d q =>
        pelOut q (pelBytes 2 (m.ttl.toNat - 1) m.src.toNat 0xFFFF m.seq.toNat m.epoch.toNat m.body []) d) d

/-- An ECHO is answered with the arrival cycle (R442). (DESIGN CHOICE, log entry 140) -/
def echoIn (p : Nat) (m : PelMsg) (d : Die) : Die :=
  sendNbr 4 p (leBytes 4 m.seq.toNat ++ leBytes 8 (d.tim.up * 11 / 5)) d

/-- An ECHO_REPLY gives the latency: half the round trip in arithmetic cycles (R442). (DEDUCED, log entry 147) -/
def echoReplyIn (p : Nat) (m : PelMsg) (d : Die) : Die :=
  match (pelPort d p).echo with
  | some (seq, at_) =>
    if u32At m.body 0 = seq then
      modPort p (fun q => { q with echo := none, latency := min 4095 (((d.tim.up - at_) * 11 + 5) / 10) }) d
    else d
  | none => d

/-- The link under whose key a tagged message from a node was made. (DEDUCED, log entry 149) -/
def tagLink (typ : Nat) (m : PelMsg) (d : Die) : Option (Nat × Bool × ChainLink) :=
  match d.pel.ids[m.src.toNat]? with
  | none => none
  | some peer => (linksTo d peer).find? (fun l => l.2.2.isOpen && pelTag l.2.2.key (pelHead typ m) == m.tag)

/-- A tagged message: discarded if its tag is wrong, else it keeps its link up (R441, R448, R453).
(DEDUCED, log entry 141) -/
def tagged (typ : Nat) (m : PelMsg) (act : Bytes → Die → Die) (d : Die) : Die :=
  match tagLink typ m d with
  | none => raise pPEL 7 (count pPEL 0x0D0 d)
  | some l => act l.2.2.peer (modLink l.1 l.2.1 (fun k => { k with last := d.tim.up }) d)

/-- Store a digest by position; beyond 4,096 positions the one farthest from the newest goes (R450).
(DEDUCED, log entry 151) -/
def storeDigest (pos : Nat) (v : Nat × Bytes) (ds : AMap (Nat × Bytes)) : AMap (Nat × Bytes) :=
  let ds := mset ds pos v
  if ds.length ≤ 4096 then ds
  else
    let far (k : Nat) : Nat := max k pos - min k pos
    let worst := ds.foldl (fun (b : Nat) e => if far e.1 > far b then e.1 else b) pos
    mdel ds worst

/-- A BOUNDARY whose tag held (R450): each entry of that channel whose previous shard is the sender keeps the digest. -/
def boundaryIn (m : PelMsg) (peer : Bytes) (d : Die) : Die :=
  let b := m.body
  updPel (fun x => { x with chains := mmap x.chains (fun c =>
    if chainChan c == u16At b 0 && (c.prev.map (fun l => l.peer)) == some peer then
      { c with digests := storeDigest (u32At b 4) (byteAt b 9 % 2, slice b 16 32) c.digests }
    else c) }) (count pPEL 0x0CC d)

/-! ## Chain entries (R448, R451, R454) -/

/-- The result of a chain command. (DEDUCED, log entry 152) -/
def chainResult (code : Nat) : Die → Die := updPel (fun x => { x with result := code })

/-- The 160 bytes of PEL_CHAIN_BUF. -/
def chainBuf (d : Die) : Bytes := (List.range 40).flatMap (fun m => leBytes 4 (field d pPEL (0x100 + 4 * m) 0))

/-- Put bytes into PEL_CHAIN_BUF. -/
def setChainBuf (b : Bytes) (d : Die) : Die :=
  (List.range 40).foldl (fun d m => setField 0 pPEL (0x100 + 4 * m) 0 (u32At b (4 * m)) d) d

/-- A peer field of an entry, if it names a die. -/
def peerAt (b : Bytes) (off : Nat) : Option Bytes := if allZero (slice b off 32) then none else some (slice b off 32)

/-- Load an entry from PEL_CHAIN_BUF and open its links (R448). (DEDUCED, log entry 148) -/
def chainLoad (e : Nat) (d : Die) : Die :=
  let b := chainBuf d
  let b := patch b 4 [BitVec.ofNat 8 (byteAt b 4 % 2)]
  let x := chan d (u16At b 0 % 32768)
  let shard := byteAt b 2
  let n := byteAt b 3
  if !(x.state == .opened || x.state == .paused) || x.host.kind != 1 then chainResult 32 d
  else if shard ≥ n || n > 64 || (shard == 0) != (peerAt b 8).isNone || (shard + 1 == n) != (peerAt b 40).isNone then
    chainResult 2 d
  else
    let d := chainResult 0 (updPel (fun x => { x with chains := mset x.chains e { bytes := b } }) d)
    let d := match peerAt b 8 with
      | some p => startLink e false p d
      | none => d
    match peerAt b 40 with
    | some p => startLink e true p d
    | none => d

/-- Clear an entry. -/
def chainClear (e : Nat) (d : Die) : Die :=
  if (mget d.pel.chains e).isNone then chainResult 32 d
  else chainResult 0 (updPel (fun x => { x with chains := mdel x.chains e }) d)

/-- Read an entry into PEL_CHAIN_BUF. -/
def chainRead (e : Nat) (d : Die) : Die :=
  match mget d.pel.chains e with
  | none => chainResult 32 d
  | some c => chainResult 0 (setChainBuf c.bytes d)

/-- The standby peer of a side. -/
def standby (next : Bool) (c : Chain) : Option Bytes := peerAt c.bytes (if next then 104 else 72)

/-- A switch to the standby peer is asked for the next slot boundary (R451). (DEDUCED, log entry 152) -/
def chainSwitch (e : Nat) (next : Bool) (d : Die) : Die :=
  match mget d.pel.chains e with
  | none => chainResult 32 d
  | some c =>
    if (standby next c).isNone then chainResult 32 d
    else chainResult 1 (modChain e (fun c => if next then { c with swNext := true } else { c with swPrev := true }) d)

/-- A switch that is due takes place (R451). -/
def switchNow (e : Nat) (next : Bool) (d : Die) : Die :=
  match mget d.pel.chains e with
  | none => d
  | some c =>
    if !(if next then c.swNext else c.swPrev) then d
    else
      match standby next c with
      | none => d
      | some peer =>
        let bit := if next then 4 else 2
        let flags := byteAt c.bytes 4
        let c := { c with bytes := patch c.bytes 4 [BitVec.ofNat 8 (flags ||| bit)] }
        let c := if next then { c with swNext := false } else { c with swPrev := false, digests := [] }
        let d := modChain e (fun _ => c) d
        raise pPEL 8 (startLink e next peer (if d.pel.result = 1 then chainResult 0 d else d))

/-- The switches of every entry at a slot boundary. (DEDUCED, log entry 152) -/
def chainsSwitch (d : Die) : Die :=
  (d.pel.chains.map (fun e => e.1)).foldl (fun d e => switchNow e true (switchNow e false d)) d

/-- CHAIN_ALIVE on the open links of an entry. (DESIGN CHOICE, log entry 140) -/
def aliveTx (e : Nat) (d : Die) : Die :=
  match mget d.pel.chains e with
  | none => d
  | some c =>
    (c.prev.toList ++ c.next.toList).foldl (fun d l =>
      match l.isOpen, idOf d l.peer with
      | true, some dst => sendNode 11 dst (some l.key) (leBytes 2 (chainChan c)) d
      | _, _ => d) d

/-- A link without a valid message for chain_timeout_ms is down; it moves to its standby where that is automatic
(R448, R451). (DEDUCED, log entry 152) -/
def chainTimeout (e : Nat) (next : Bool) (d : Die) : Die :=
  match mget d.pel.chains e with
  | none => d
  | some c =>
    if (chainLink next c).isNone then d
    else
      let d := raise pPEL 5 (modLink e next (fun l => { l with isOpen := false }) d)
      let on := tst (byteAt c.bytes 4) (if next then 2 else 1)
      if tst (byteAt c.bytes 4) 0 && (standby next c).isSome && !on then
        modChain e (fun c => if next then { c with swNext := true } else { c with swPrev := true }) d
      else d

/-! ## The commands -/

/-- PEL_LINK_CHANGE. -/
def execPelLinkChange (d : DieId) (port : BitVec 2) (up : Bool) (s : State) : Host.Outcome State Fault Refusal :=
  runDie d (fun x => loseGates (pelLink port.toNat up x)) s

/-- DISC: the neighbour names itself. -/
def execDisc (d : DieId) (port : BitVec 2) (m : PelMsg) (s : State) : Host.Outcome State Fault Refusal :=
  runDie d (pelTake 1 port.toNat m (fun x => loseGates (setNbr port.toNat (some (slice m.body 0 32, byteAt m.body 32)) x))) s

/-- The 1 ms timer of a port: DISC and ECHO. -/
def execDiscTx (d : DieId) (port : BitVec 2) (s : State) : Host.Outcome State Fault Refusal := runDie d (discTx port.toNat) s

/-- ECHO. (DESIGN CHOICE, log entry 5) -/
def execPelotonEcho (d : DieId) (port : BitVec 2) (m : PelMsg) (s : State) : Host.Outcome State Fault Refusal :=
  runDie d (pelTake 3 port.toNat m (echoIn port.toNat m)) s

/-- ECHO_REPLY. -/
def execEchoReply (d : DieId) (port : BitVec 2) (m : PelMsg) (s : State) : Host.Outcome State Fault Refusal :=
  runDie d (pelTake 4 port.toNat m (echoReplyIn port.toNat m)) s

/-- TOPO. -/
def execTopo (d : DieId) (port : BitVec 2) (m : PelMsg) (s : State) : Host.Outcome State Fault Refusal :=
  runDie d (pelTake 2 port.toNat m (topoIn port.toNat m)) s

/-- PEL_CMD.form. -/
def execPelCmdForm (d : DieId) (s : State) : Host.Outcome State Fault Refusal := runDie d formEpoch s

/-- FORMATION_QUIET. -/
def execFormationQuiet (d : DieId) (s : State) : Host.Outcome State Fault Refusal := runDie d formationQuiet s

/-- PEL_GATE_CMD.arrive. -/
def execPelGateCmdArrive (d : DieId) (gate : BitVec 4) (s : State) : Host.Outcome State Fault Refusal :=
  runDie d (arriveAt gate.toNat) s

/-- GATE_ARRIVE at the root. -/
def execGateArrive (d : DieId) (port : BitVec 2) (m : PelMsg) (s : State) : Host.Outcome State Fault Refusal :=
  runDie d (pelTake 5 port.toNat m (fun d =>
    let g := byteAt m.body 0
    if (gateMembers d g).head? = ownId d ∧ gateOn d g ∧ (ownId d).isSome then rootArrive g (byteAt m.body 1) m.src.toNat d
    else d)) s

/-- GATE_RELEASE. -/
def execGateRelease (d : DieId) (port : BitVec 2) (m : PelMsg) (s : State) : Host.Outcome State Fault Refusal :=
  runDie d (pelTake 6 port.toNat m (gateReleased port.toNat m)) s

/-- GATE_COUNTDOWN_EXPIRY. -/
def execGateCountdownExpiry (d : DieId) (gate : BitVec 4) (s : State) : Host.Outcome State Fault Refusal :=
  runDie d (gateEnds gate.toNat) s

/-- GATE_ABORT. -/
def execGateAbort (d : DieId) (port : BitVec 2) (m : PelMsg) (s : State) : Host.Outcome State Fault Refusal :=
  runDie d (pelTake 7 port.toNat m (fun d =>
    if gateOn d (byteAt m.body 0) then gateAbortHere (byteAt m.body 0) (byteAt m.body 1) d else d)) s

/-- GATE_TIMEOUT. (DESIGN CHOICE, log entry 4) -/
def execGateTimeout (d : DieId) (gate : BitVec 4) (s : State) : Host.Outcome State Fault Refusal :=
  runDie d (gateTimeout gate.toNat) s

/-- PEL_CHAIN_CMD op load. -/
def execPelChainCmdLoad (d : DieId) (entry : BitVec 4) (s : State) : Host.Outcome State Fault Refusal :=
  runDie d (chainLoad entry.toNat) s

/-- PEL_CHAIN_CMD op clear. -/
def execPelChainCmdClear (d : DieId) (entry : BitVec 4) (s : State) : Host.Outcome State Fault Refusal :=
  runDie d (chainClear entry.toNat) s

/-- PEL_CHAIN_CMD op read. -/
def execPelChainCmdRead (d : DieId) (entry : BitVec 4) (s : State) : Host.Outcome State Fault Refusal :=
  runDie d (chainRead entry.toNat) s

/-- PEL_CHAIN_CMD op switch_prev. -/
def execPelChainCmdSwitchPrev (d : DieId) (entry : BitVec 4) (s : State) : Host.Outcome State Fault Refusal :=
  runDie d (chainSwitch entry.toNat false) s

/-- PEL_CHAIN_CMD op switch_next. -/
def execPelChainCmdSwitchNext (d : DieId) (entry : BitVec 4) (s : State) : Host.Outcome State Fault Refusal :=
  runDie d (chainSwitch entry.toNat true) s

/-- CHAIN_OPEN. -/
def execChainOpen (d : DieId) (port : BitVec 2) (m : PelMsg) (s : State) : Host.Outcome State Fault Refusal :=
  runDie d (pelTake 8 port.toNat m (chainOpen m.src.toNat m.body)) s

/-- CHAIN_AUTH. -/
def execChainAuth (d : DieId) (port : BitVec 2) (m : PelMsg) (s : State) : Host.Outcome State Fault Refusal :=
  runDie d (pelTake 9 port.toNat m (chainAuth m.src.toNat m.body)) s

/-- BOUNDARY. -/
def execBoundary (d : DieId) (port : BitVec 2) (m : PelMsg) (s : State) : Host.Outcome State Fault Refusal :=
  runDie d (pelTake 10 port.toNat m (tagged 10 m (boundaryIn m))) s

/-- CHAIN_ALIVE. -/
def execChainAlive (d : DieId) (port : BitVec 2) (m : PelMsg) (s : State) : Host.Outcome State Fault Refusal :=
  runDie d (pelTake 11 port.toNat m (tagged 11 m (fun _ d => d))) s

/-- The 1 ms timer of an open chain link. -/
def execChainAliveTx (d : DieId) (entry : BitVec 4) (s : State) : Host.Outcome State Fault Refusal :=
  runDie d (aliveTx entry.toNat) s

/-- CHAIN_TIMEOUT. -/
def execChainTimeout (d : DieId) (entry : BitVec 4) (next : Bool) (s : State) : Host.Outcome State Fault Refusal :=
  runDie d (chainTimeout entry.toNat next) s

/-- TRIGGER_FIRE: the trigger fires, and the Gates that name it with trig_arrive are arrived at. -/
def execTriggerFire (d : DieId) (trigger : BitVec 3) (s : State) : Host.Outcome State Fault Refusal :=
  runDie d (fun x =>
    if trigDue x (Sys2Proof.Machine.trigger x trigger.toNat) then triggerGates trigger.toNat (triggerFire trigger.toNat x)
    else x) s

end Sys2Proof.Machine
end

