-- ==== Sys2Proof/Machine/Boundary.lean ====
section
/-! DEFINITION. The slot boundary: steps of air-time, Staged writes, Months, channels, the timetable, and what else takes
effect there (R13, R14, R29, R107, R115, R215, R242, R246, R267, R272, R286, R287, R334, R338, R451, R470). -/

namespace Sys2Proof.Machine

/-! ## Air-time (R334, R338) -/

/-- Air-time at which a slot of the running timeline begins, by the signed difference of its count from the present one (R15). -/
def slotBegins (d : Die) (slot : Nat) : Nat :=
  let s := slotNs d.tim.mu
  (((d.tim.air / s * s : Nat) : Int) + slotDiff slot (slotCount d) * (s : Int)).toNat

/-- Open windows stand where the new timeline has their slots (R338). (DEDUCED, log entry 163) -/
def shiftWindows (d : Die) : Die := updChn (fun n => { n with
  tickets := n.tickets.map (fun b => { b with
    window := b.window.map (fun w => { w with slotNs := slotBegins d w.slot }) }) }) d

/-- A step has taken effect: at_step, the Warden's tick loss, the period's flag; a new numerology brings the default
timetable along where that is in force. (DEDUCED, log entries 163, 164) -/
def stepTaken (t0 : Tim) (d : Die) : Die :=
  let d := shiftWindows (raise pTIM 1 (count pTIM 0x0B0 d))
  let d := tellWarden .airStep (updSealing (fun s => { s with uncertain := s.uncertain || s.running }) d)
  if d.cad.active.isDefault && d.tim.mu != t0.mu then
    updCad (fun c => { c with active := defaultTimetable d.tim.mu (enabledPipes d) }) d
  else d

/-! ## Spans (R272) -/

/-- Every span of the slot that ends is over; one cut before its planned end is an overrun.
(DEDUCED, log entry 163) -/
def endSpans (d : Die) : Die :=
  let cut := d.cad.spans.filter (fun s => decide (s.2.2 > d.tim.up))
  let d := if cut.isEmpty then d else raise pCAD 0 (countN pCAD 0x080 cut.length d)
  let d := d.cad.spans.foldl (fun d s =>
    match entryAt d s.2.1 with
    | some e =>
      if e.kind = 1 then modPipe s.1 (fun p => { p with core := { p.core with inSpan := false } }) d
      else if e.kind = 7 then sntStop e d else d
    | none => d) d
  updCad (fun c => { c with spans := [] }) d

/-! ## Staged writes (R14, R470) -/

/-- Page of a field's key. -/
def keyPage (k : Nat) : Nat := k / 32 / 4096 % 64

/-- A Staged write waits for a field. -/
def stagedAt (d : Die) (sel page off lo : Nat) : Option Nat := mget d.regs.staged (fkey sel page off lo)

/-- Every Staged value comes into force, late ones wait for the next boundary, and each page notes the slot. -/
def commitStaged (d : Die) : Die :=
  let st := d.regs.staged
  let slot := slotCount d
  let d := updRegs (fun r => { r with live := st.foldl (fun m e => mset m e.1 e.2) r.live, staged := r.late, late := [] }) d
  ((st.map (fun e => keyPage e.1)).eraseDups).foldl (fun d p => setErrPage p { errPage d p with stage := slot } d) d

/-- Of enabled entries with one port, kind and key, only the lowest stays enabled (R321).
(DESIGN CHOICE, log entry 209) -/
def clampStreams (d : Die) : Die :=
  (List.range 16).foldl (fun d s =>
    let same (t : Nat) : Bool := streamOn d t && strm d t 0x058 1 == strm d s 0x058 1 && strm d t 0x058 2 == strm d s 0x058 2
      && strm d t 0x05C 0 == strm d s 0x05C 0
    if streamOn d s && (List.range s).any same then setField s pING 0x058 0 0 d else d) d

/-- Entries of the stream table that this boundary enables count from anew (R348). (DEDUCED, log entry 162) -/
def resetStreams (was d : Die) : Die :=
  (List.range 16).foldl (fun d s =>
    if streamOn d s && !streamOn was s then
      updIng (fun g => { g with streams := mset g.streams s { stream d s with expected := 0, primed := false } }) d
    else d) d

/-- A committed numerology is a step of air-time decided here (R334). (DEDUCED, log entry 164) -/
def muWritten (mu : Nat) (d : Die) : Die :=
  if mu = d.tim.mu then d
  else updTim (fun t => { t with step := some (match t.step with
    | some st => { st with mu := mu, decided := t.up }
    | none => { offset := 0, mu := mu, decided := t.up }) }) d

/-- The Staged writes and what follows from each. -/
def takeStaged (d0 : Die) : Die :=
  let d := resetStreams d0 (clampStreams (commitStaged d0))
  let d := if (stagedAt d0 0 pTIM 0x058 0).isSome then sourceWritten d else d
  let d := match stagedAt d0 0 pTIM 0x058 2 with
    | some mu => muWritten mu d
    | none => d
  let d := match stagedAt d0 0 pTIM 0x074 0 with
    | some en => ptpEnable (en == 1) d
    | none => d
  flushEgress (timeMoved (applyForm d))

/-! ## The timetable (R267) -/

/-- A tag's entries still serve a batch. -/
def tagServes (d : Die) (tag : Nat × Nat) : Bool :=
  d.chn.tickets.any (fun b => match b.window with
    | some w => w.entry.tagKind == tag.1 && w.entry.tag == tag.2
    | none => false)

/-- Tagged entries leave once they serve no batch. (DEDUCED, log entry 165) -/
def removeTagged (d : Die) : Die :=
  let go := d.cad.removals.filter (fun t => !tagServes d t)
  updCad (fun c => { c with
    active := { c.active with entries := c.active.entries.filter (fun e => !go.contains (e.tagKind, e.tag)) }
    removals := c.removals.filter (fun t => !go.contains t) }) d

/-- CAD_CMD.swap takes effect while no channel is open, and where the standby timetable assumes the pairing in force.
(DEDUCED, log entries 95, 165) -/
def swapStandby (d : Die) : Die :=
  match d.cad.swap, d.cad.standby with
  | true, some t =>
    if (openChans d).isEmpty && t.pairing == d.vp.current then
      updCad (fun c => { c with
        active := { t with entries := liveEntries d t.entries, isDefault := false }, standby := none, swap := false }) d
    else updCad (fun c => { c with swap := false }) d
  | _, _ => d

/-- Entries of waiting fragments merge, but for those of a channel whose create still waits for its other half.
(DEDUCED, log entry 165) -/
def mergeFrags (d : Die) : Die :=
  let waits (e : TtEntry) : Bool := e.tagKind == 2 && (chan d e.tag).pend == some .create
  let go := d.cad.frags.filter (fun e => !waits e)
  if go.isEmpty then d
  else updCad (fun c => { c with
    frags := c.frags.filter waits, active := { c.active with entries := c.active.entries ++ go, isDefault := false } }) d

/-! ## The boundary -/

/-- What the running phases do at a boundary: Staged writes, the seal period's cut or end, which comes before every commit
of the boundary (R26), Months, channels, the timetable, the
descriptor cache, chain switches, and the stop of dispatch that a hand-over asks for. (DEDUCED, log entry 165) -/
def boundaryWork (muChanged : Bool) (peer d : Die) : Die :=
  let cut := muChanged || d.sealing.cutPend || (stagedAt d 0 pSIG 0x040 0).isSome
  let d := takeStaged d
  let d := if cut then updSealing (fun s => { s with cutPend := false }) (turnPeriod true d) else sealBoundary d
  let d := chansBoundary peer (monthsBoundary d)
  let d := mergeFrags (swapStandby (removeTagged d))
  let d := chainsSwitch (refreshCache d)
  settlePhase (updVp (fun v => { v with draining := v.draining || v.pending }) d)

/-- SLOT_BOUNDARY on a die. (DEDUCED, log entry 166) -/
def slotBoundary (peer d : Die) : Die :=
  if d.phase = .frost then d
  else
    let t0 := d.tim
    let d := fetchCopies peer d
    let d := if t0.step.isSome then d else sealsWithin passSlewing 16 (toNextSlot t0 - 1) d
    let d := endSpans (updTim toBoundary d)
    let d := if t0.step.isSome then stepTaken t0 d else d
    let d := match d.phase with
      | .spring | .summer => boundaryWork (decide (d.tim.mu ≠ t0.mu)) peer d
      | .autumn => takeStaged d
      | _ => d
    sendSpoke 5 0 0 (slotCount d) 0 0 0 [] [] d

/-- SLOT_BOUNDARY. -/
def execSlotBoundary (d : DieId) (s : State) : Host.Outcome State Fault Refusal := runDie d (slotBoundary (s.die d.other)) s

end Sys2Proof.Machine
end

