-- ==== Sys2Proof/Machine/HostPort.lean ====
section
/-! DEFINITION. The commands of the host port itself (R344, R345, R351). -/

namespace Sys2Proof.Machine

/-- HST_LINK_CHANGE: the other die notes it too, for the frames it replicates. -/
def execHstLinkChange (d : DieId) (up : Bool) (s : State) : Host.Outcome State Fault Refusal :=
  let s := onDie d (hostLink up) s
  let now := (s.die d).hst.linkUp
  .next (onDie d.other (updHst (fun h => { h with peerLink := now })) s)

/-- HST_QBV_CFG.swap. -/
def execHstQbvCfgSwap (d : DieId) (s : State) : Host.Outcome State Fault Refusal := runDie d qbvSwap s

/-- QBV_GATE_INTERVAL_END. -/
def execQbvGateIntervalEnd (d : DieId) (s : State) : Host.Outcome State Fault Refusal :=
  runDie d (gateIntervalEnd (s.die d.other)) s

/-- RECOVERY_RESET_TIMEOUT. -/
def execRecoveryResetTimeout (d : DieId) (s : State) : Host.Outcome State Fault Refusal := runDie d recoveryReset s

end Sys2Proof.Machine
end

