-- ==== Sys2Proof/Machine/Identity.lean ====
section
/-! DEFINITION. Roles, the trust list in force, sessions that close, and the debug lock (R423, R424, R429, R437,
R439). -/

namespace Sys2Proof.Machine

/-! ## Roles (R423, R424, R428) -/

/-- The trust list in force lists a key digest under a kind. (DEDUCED, log entry 180) -/
def listed (d : Die) (kind : Nat) (dig : Bytes) : Bool :=
  match d.key.trust with
  | some l => l.any (fun e => e.1 == kind && e.2 == dig)
  | none => false

/-- The die is owned. -/
def owned (d : Die) : Bool := !allZero d.key.rpmb.owner

/-- A key is enrolled for a role: 1 operator, 2 auditor, 3 maintenance; the owner key may always open a maintenance
session, and so may any key on an unowned die. (DEDUCED, log entry 180) -/
def enrolled (d : Die) (role : Nat) (dig : Bytes) : Bool :=
  match role with
  | 1 => listed d 2 dig
  | 2 => listed d 3 dig
  | 3 => listed d 4 dig || !owned d || dig == d.key.rpmb.owner
  | _ => false

/-! ## Sessions (R429, R433) -/

/-- A session ends: the bulk targets it was filling release their extents. (DEDUCED, log entry 180) -/
def closeSession (id : Nat) : Die → Die := updKey (fun k => { k with
  sessions := k.sessions.filter (fun s => s.id != id)
  bulk := k.bulk.filter (fun e => e.2.owner != id) })

/-- Close the open sessions that meet a condition. -/
def closeWhere (p : Session → Bool) (d : Die) : Die :=
  (d.key.sessions.filter (fun s => s.isOpen && p s)).foldl (fun d s => closeSession s.id d) d

/-! ## The trust list (R424) -/

/-- A trust list comes into force; sessions that it no longer lists for their role close. -/
def takeTrust (l : List (Nat × Bytes)) (d : Die) : Die :=
  let d := updKey (fun k => { k with trust := some l }) d
  closeWhere (fun s => !enrolled d s.role (h32 s.client)) d

/-- Read a trust list container: verified, it comes into force and raises its floor, else it is refused. -/
def loadTrust (b : Bytes) (d : Die) : Die :=
  let t := parseTchili b
  match (if tchiliOk d 5 b then parseTrust t.payload else none) with
  | some l => raiseFloor 5 t.svn (takeTrust l d)
  | none => refuseImage d

/-- KEY_CMD.reload: the list is read from flash again; nothing is there to read where flash holds none.
(DEDUCED, log entry 181) -/
def keyReload (d : Die) : Die :=
  match mget d.key.flash 5 with
  | some b => loadTrust b d
  | none => d

/-! ## The commands -/

/-- KEY_CMD.lock: debug is locked at once. (DEDUCED, log entry 40) -/
def execKeyCmdLock (d : DieId) (s : State) : Host.Outcome State Fault Refusal := runDie d (setDebug 0) s

/-- KEY_CMD.reload. -/
def execKeyCmdReload (d : DieId) (s : State) : Host.Outcome State Fault Refusal := runDie d keyReload s

end Sys2Proof.Machine
end

