-- ==== Sys2Proof/Machine/Warden.lean ====
section
/-! DEFINITION. The Warden channel of a die: its cycle, safe inputs and outputs, the encoder, permits, zones, the window
watchdog, reset and start-up (R30, R353 to R376, R378, R379). -/

namespace Sys2Proof.Machine

/-! ## Zones -/

/-- A zone of a channel. -/
def zone (w : Wdn) (z : Nat) : Zone := (w.zones[z]?).getD {}

/-- Change a zone. -/
def modZone (z : Nat) (f : Zone → Zone) : Die → Die := updWdn (fun w => { w with zones := w.zones.modify z f })

/-- Zones in use that meet a condition. -/
def zonesWhere (w : Wdn) (p : Nat → Bool) : List Nat := (List.range 4).filter (fun z => (zone w z).state != .unused && p z)

/-- The channel runs: its die is out of reset, and so is the channel itself. -/
def wdnRuns (d : Die) : Bool := d.phase != .frost && !d.wdn.down

/-- Order of restriction (R356). -/
def rank : ZoneState → Nat
  | .unused => 0 | .run => 1 | .freewheel => 2 | .brake => 3 | .kickstand => 4

/-- The peer's last reported state of a zone. -/
def peerZone (w : Wdn) (z : Nat) : Option (ZoneState × Bool × Nat) :=
  match w.rx with
  | some f => f.zones[z]?
  | none => none

/-- The zone's state as applied: the more restrictive of the own and the peer's. (DEDUCED, log entry 130) -/
def applied (w : Wdn) (z : Nat) : ZoneState :=
  let own := (zone w z).state
  match peerZone w z with
  | some (st, _, _) => if own != .unused && rank st > rank own then st else own
  | none => own

/-- The state is taken from the peer. (DEDUCED, log entry 130) -/
def follows (w : Wdn) (z : Nat) : Bool := applied w z != (zone w z).state

/-- A zone whose outputs may be on. -/
def zoneMoves (w : Wdn) (z : Nat) : Bool := applied w z == .run || applied w z == .freewheel

/-- The fault capture of R379: cause, index, slot count of the last tick. -/
def noteFault (cause index : Nat) : Die → Die :=
  updWdn (fun w => { w with lastCause := cause, lastIndex := index, lastSlot := w.sym / 14 })

/-- A zone enters KICKSTAND. -/
def kickstand (cause index : Nat) (d : Die) (z : Nat) : Die :=
  if (zone d.wdn z).state = .unused ∨ (zone d.wdn z).state = .kickstand then d
  else
    raise pWDN 15 (count (pWDN + 1) 0x090
      (modZone z (fun x => { x with state := .kickstand, cause := cause, index := index, resetOk := false }) d))

/-- Several zones enter KICKSTAND. -/
def kickstandAll (cause index : Nat) (zs : List Nat) (d : Die) : Die := zs.foldl (kickstand cause index) d

/-- Every zone of the channel enters KICKSTAND by a channel fault. -/
def kickstandChannel (cause : Nat) (d : Die) : Die := kickstandAll cause 0 [0, 1, 2, 3] (noteFault cause 0 d)

/-- A zone that moves, or one in FREEWHEEL, goes to BRAKE. -/
def brake (cause index : Nat) (d : Die) (z : Nat) : Die :=
  if (zone d.wdn z).state = .run ∨ (zone d.wdn z).state = .freewheel then
    modZone z (fun x => { x with state := .brake, cause := cause, index := index, resetOk := false }) d
  else d

/-- The own Sentinel permit of a zone holds: younger than fw_fresh symbols and without stop.
(DEDUCED, log entry 131) -/
def sentinelOk (w : Wdn) (z : Nat) : Bool :=
  match (zone w z).snt with
  | some (stop, _, _, at_) => !stop && decide (w.sym - at_ < zHalf w z 42)
  | none => false

/-- A loss of inference (R371, R372): the rearm count restarts; a zone in RUN freewheels where it may, else brakes.
(DESIGN CHOICE, log entry 132) -/
def lose (cause index : Nat) (d : Die) (z : Nat) : Die :=
  if (zone d.wdn z).state = .run then
    let d := modZone z (fun x => { x with byLoss := true }) d
    if zFlag d.wdn z 6 && sentinelOk d.wdn z then
      raise pWDN 14 (count (pWDN + 1) 0x08C (modZone z (fun x => { x with
        state := .freewheel, cause := cause, index := index, fwAt := d.wdn.cycle }) d))
    else brake cause index d z
  else d

/-! ## Watch slots (R370, R371, R374) -/

/-- Watch slot of a channel. -/
def watchOf (w : Wdn) (c : Nat) : Option (Nat × Watch) := w.watches.find? (fun e => e.2.channel == c)

/-- Change a watch slot. -/
def modWatch (i : Nat) (f : Watch → Watch) : Die → Die := updWdn (fun w => { w with watches := mmod w.watches i f })

/-- The lowest watch slot of 16 that is free. (DESIGN CHOICE, log entry 132) -/
def freeWatch (w : Wdn) : Nat := (((List.range 16).filter (fun i => (mget w.watches i).isNone)).head?).getD 15

/-- Watch slots of a zone. -/
def watchesOf (w : Wdn) (z : Nat) : List Watch := (w.watches.map (fun e => e.2)).filter (fun x => x.zone == z)

/-- A watch slot's channel gives a valid permit. (DEDUCED, log entry 133) -/
def watchOk (x : Watch) : Bool := x.isOpen && x.code == 1 && !x.stop && !x.expired

/-- The zone's inference permit is valid (R370); on a die that is no source of the zone, as the peer reports it (R369).
(DEDUCED, log entry 131) -/
def permitValid (d : Die) (z : Nat) : Bool :=
  let w := d.wdn
  if isSource d z then decide ((watchesOf w z).length = zByte w z 4) && (watchesOf w z).all watchOk
  else
    match peerZone w z with
    | some (_, ok, _) => ok
    | none => false

/-- Consecutive PASS verdicts of every watched channel of a zone. -/
def rearmCount (w : Wdn) (z : Nat) : Nat :=
  match (watchesOf w z).map (fun x => x.passes) with
  | [] => 0
  | a :: r => r.foldl min a

/-- The zone has been re-armed. -/
def rearmed (d : Die) (z : Nat) : Bool := !isSource d z || decide (zByte d.wdn z 5 ≤ rearmCount d.wdn z)

/-- wd_open and wd_close of a stage, 1 to 4. -/
def wdOpen (w : Wdn) (z stage : Nat) : Nat := zHalf w z (22 + 4 * stage)
def wdClose (w : Wdn) (z stage : Nat) : Nat := zHalf w z (24 + 4 * stage)

/-- A window of a watch slot has expired. -/
def expire (i stage : Nat) (d : Die) : Die :=
  match mget d.wdn.watches i with
  | none => d
  | some x =>
    let d := raise pWDN 7 (count (pWDN + 1) 0x088 d)
    let d := modWatch i (fun x => { x with expired := true, passes := 0, stage := stage }) d
    lose 5 i d x.zone

/-- A stage event of a batch timed from a slot, at a symbol count: inside its window, or an expiry. -/
def stageEvent (i stage slot at_ : Nat) (d : Die) : Die :=
  match mget d.wdn.watches i with
  | none => d
  | some x =>
    let w := d.wdn
    let t : Int := (at_ : Int) - ((14 * slot : Nat) : Int)
    let late := decide (t < (wdOpen w x.zone stage : Int)) || decide ((wdClose w x.zone stage : Int) < t)
    let others := x.batches.filter (fun b => b.1 != slot)
    let seen := ((x.batches.find? (fun b => b.1 == slot)).map (fun b => b.2)).getD 0 ||| 2 ^ stage
    let d := modWatch i (fun x => { x with batches := if stage = 4 then others else others ++ [(slot, seen)] }) d
    if late then expire i stage d else d

/-- A verdict reaches a watch slot. (DEDUCED, log entry 133) -/
def verdictEvent (i code : Nat) (stop : Bool) (limit : Nat) (d : Die) : Die :=
  match mget d.wdn.watches i with
  | none => d
  | some x =>
    let pass := code == 1
    let d := modWatch i (fun x => { x with
      code := code, stop := stop, limit := limit, expired := false, passes := if pass then min 255 (x.passes + 1) else 0 }) d
    let d := if pass then modZone x.zone (fun z => { z with permit := limit }) d else d
    if pass then
      (if stop && (zone d.wdn x.zone).state == .run then brake 7 i d x.zone else d)
    else lose (if code = 2 then 3 else 4) i d x.zone

/-! ## Events from the die (R353 step 2, R376) -/

/-- Zones with a watched channel. -/
def watchedZones (w : Wdn) : List Nat := zonesWhere w (fun z => !(watchesOf w z).isEmpty)

/-- A tick loss, or an air-time step: a loss for every watched channel. -/
def tickLost (d : Die) : Die :=
  let d := updWdn (fun w => { w with watches := mmap w.watches (fun x => { x with expired := true, passes := 0, stage := 5 }) }) d
  (watchedZones d.wdn).foldl (lose 6 0) d

/-- A fault of the channel's own memory: SELF_FAULT (R372). (DEDUCED, log entry 134) -/
def selfFault (d : Die) : Die :=
  let d := kickstandChannel 26 d
  updWdn (fun w => { w with state := .selfFault, conds := (12 :: w.conds).eraseDups }) d

/-- Zones that use the encoder. -/
def encZones (w : Wdn) : List Nat := zonesWhere w (fun z => zFlag w z 3 || zFlag w z 4 || zFlag w z 5)

/-- What a forced bit does (R376): it acts on every zone that uses an element of the kind. -/
def forcedBit (bit : Nat) (d : Die) : Die :=
  let w := d.wdn
  match bit with
  | 0 => kickstandAll 16 0 (zonesWhere w (fun z => zByte w z 2 != 0)) (noteFault 16 0 d)
  | 1 => kickstandAll 17 0 (zonesWhere w (fun _ => true)) (noteFault 17 0 d)
  | 2 => kickstandAll 18 0 (zonesWhere w (fun z => zByte w z 1 &&& byteAt w.profile 30 != 0)) (noteFault 18 0 d)
  | 3 => kickstandAll 19 0 (encZones w) (noteFault 19 0 d)
  | 4 => kickstandAll 20 0 (zonesWhere w (fun z => zFlag w z 3)) (noteFault 20 0 d)
  | 5 => kickstandAll 21 0 (zonesWhere w (fun z => zFlag w z 4)) (noteFault 21 0 d)
  | 6 => kickstandAll 22 0 (zonesWhere w (fun z => zFlag w z 5)) (noteFault 22 0 d)
  | 7 =>
    let d := count (pWDN + 1) 0x088 (updWdn (fun w => { w with
      watches := mmap w.watches (fun x => { x with expired := true, passes := 0 }) }) d)
    (watchedZones w).foldl (lose 5 0) d
  | 8 => tickLost d
  | 9 => kickstandChannel 23 d
  | 10 => kickstandChannel 24 d
  | 11 => kickstandChannel 25 d
  | 12 => selfFault d
  | _ => d

/-- One event from the own die. -/
def takeEvent (d : Die) (e : WdnEvent) : Die :=
  match e with
  | .watch c z =>
    match watchOf d.wdn c with
    | some (i, _) => modWatch i (fun x => { x with isOpen := true, zone := z }) d
    | none => updWdn (fun w => { w with watches := mset w.watches (freeWatch w) { channel := c, zone := z } }) d
  | .lost c gone =>
    match watchOf d.wdn c with
    | some (i, x) =>
      -- the table of causes has none for a close, a retirement or a pause: a free value
      let d := drew (lose (freeNat d % 256) i d x.zone)
      if gone then updWdn (fun w => { w with watches := mdel w.watches i }) d
      else modWatch i (fun x => { x with isOpen := false, passes := 0, batches := [] }) d
    | none => d
  | .verdict c _ code _ canary stop limit slot at_ =>
    match watchOf d.wdn c with
    | some (i, _) =>
      let d := verdictEvent i code stop limit d
      if canary then d else stageEvent i 4 slot at_ d
    | none => d
  | .stage c stage slot at_ =>
    match watchOf d.wdn c with
    | some (i, _) => stageEvent i stage slot at_ d
    | none => d
  | .permit z stop limit slot =>
    let d := modZone z (fun x => { x with snt := some (stop, limit, slot, d.wdn.sym) }) d
    if stop && (zone d.wdn z).state == .freewheel then brake 9 z d z else d
  | .airStep => tickLost (raise pWDN 8 d)
  | .s4 => [0, 1, 2, 3].foldl (brake 10 0) d
  | .forced bit => forcedBit bit d
  | .pulse mask => updWdn (fun w => { w with pulseReq := w.pulseReq ||| (mask &&& w.cmd) }) d

/-- An event of the die while the channel is not ACTIVE: watch slots go on, and a forced fault of the channel's own memory acts
as the real one does (R372, R376); nothing else has a zone to act on. -/
def idleEvent (d : Die) (e : WdnEvent) : Die :=
  match e with
  | .watch _ _ => takeEvent d e
  | .lost _ _ => takeEvent d e
  | .forced 12 => if d.wdn.state = .selfFault then d else takeEvent d e
  | _ => d

/-! ## Safe inputs (R361, R362) -/

/-- One input's contact as the channel reads it: closed, with channel B's contact of an antivalent input inverted.
(DEDUCED, log entry 128) -/
def contactClosed (d : Die) (inputs n : Nat) : Bool :=
  tst inputs n != (d.which == .b && tst (byteAt d.wdn.profile 24) n)

/-- Filter one own side: it changes once its contact has read otherwise for filt cycles. (DEDUCED, log entry 128) -/
def filterSide (d : Die) (inputs : Nat) (n : Nat) (sr : Nat × List Nat) : Nat × List Nat :=
  let now := contactClosed d inputs n
  let run := if now == tst sr.1 n then 0 else (sr.2[n]?).getD 0 + 1
  if run ≥ max 1 (byteAt d.wdn.profile 7) then (sr.1 ^^^ 2 ^ n, sr.2.set n 0) else (sr.1, sr.2.set n run)

/-- Set or clear one bit of a mask. -/
def putBit (m n : Nat) (b : Bool) : Nat := if tst m n == b then m else m ^^^ 2 ^ n

/-- The discrepancy timer of an input runs: its sides disagree, or one of them has changed twice, back to what both showed
before, while the other stayed still; `wasOpen` says that both showed open, `agreed` that they have shown the same since the
channel started (R362). -/
def discRuns (ran agreed wasOpen own oth : Bool) : Bool := own != oth || (ran && agreed && own != wasOpen)

/-- The inputs after a cycle: own sides, inputs closed, discrepancy timers. -/
def safeInputs (inputs : Nat) (d : Die) : Die :=
  let w := d.wdn
  let sr := (List.range 8).foldl (fun sr n => filterSide d inputs n sr) (w.sides, w.sideRun)
  let peer := (w.rx.map (fun f => f.contacts)).getD 0
  let used := byteAt w.profile 25
  (List.range 8).foldl (fun d n =>
    let own := tst sr.1 n
    let oth := tst peer n
    updWdn (fun w =>
      if !tst used n then { w with closed := putBit w.closed n true, discRun := putBit w.discRun n false }
      else
        let both := if !own && !oth then true else tst w.bothOpen n
        let shut := own && oth && (tst w.closed n || both)
        { w with
          closed := putBit w.closed n shut, bothOpen := putBit w.bothOpen n (both && !shut)
          agreed := putBit w.agreed n (tst w.agreed n || own == oth)
          discRun := putBit w.discRun n (discRuns (tst w.discRun n) (tst w.agreed n) (tst w.bothOpen n) own oth) }) d)
    (updWdn (fun w => { w with sides := sr.1, sideRun := sr.2 }) d)

/-! ## Safe outputs, EDM and pulses (R363 to R365) -/

/-- Zone of an output. -/
def zoneOfOutput (w : Wdn) (o : Nat) : Option Nat :=
  (List.range 4).find? (fun z => zoneUsed w.profile z && tst (zByte w z 1) o)

/-- The zone of an output takes a hardwired fault. -/
def outputFault (cause bit o : Nat) (d : Die) : Die :=
  let d := raise pWDN bit (noteFault cause o d)
  match zoneOfOutput d.wdn o with
  | some z => kickstand cause o d z
  | none => d

/-- A fault of an output stands: it is the zone's fault once, and once more where the zone has left KICKSTAND. -/
def standingFault (isNew : Bool) (cause bit o : Nat) (d : Die) : Die :=
  let out := match zoneOfOutput d.wdn o with
    | some z => (zone d.wdn z).state == .kickstand
    | none => true
  if !isNew && out then d else outputFault cause bit o d

/-- EDM of an output is monitored. -/
def edmUsed (w : Wdn) (o : Nat) : Bool := tst (byteAt w.profile 30) o

/-- Check one output's readback and EDM in a cycle. -/
def checkOutput (readback edm : Nat) (d : Die) (o : Nat) : Die :=
  let w := d.wdn
  if w.testing = some o then d
  else
    let on := tst w.cmd o
    let cmpr := decide (2 ≤ (w.sinceCmd[o]?).getD 2)
    let mis := if cmpr && tst readback o != on then min 3 ((w.misRun[o]?).getD 0 + 1) else 0
    let d := updWdn (fun w => { w with misRun := w.misRun.set o mis, sinceCmd := w.sinceCmd.modify o (fun n => min 2 (n + 1)) }) d
    let d := if mis ≥ 2 then standingFault (mis == 2) 17 1 o d else d
    if !edmUsed w o then d
    else if tst edm o != on then
      updWdn (fun w => { w with edmWait := putBit w.edmWait o false, edmBad := putBit w.edmBad o false }) d
    else if tst w.edmWait o then d
    else standingFault (!tst w.edmBad o) 18 2 o (updWdn (fun w => { w with edmBad := putBit w.edmBad o true }) d)

/-- The command of an output changes. -/
def setOutput (o : Nat) (on : Bool) (d : Die) : Die :=
  updWdn (fun w => { w with
    cmd := putBit w.cmd o on, sinceCmd := w.sinceCmd.set o 0, misRun := w.misRun.set o 0
    edmWait := putBit w.edmWait o (edmUsed w o) }) d

/-- Drive one output at the end of a cycle: on while its zone moves, and then only if its EDM reads closed. -/
def driveOutput (edm : Nat) (d : Die) (o : Nat) : Die :=
  let w := d.wdn
  let want := w.state == .active && (match zoneOfOutput w o with | some z => zoneMoves w z | none => false)
  if want == tst w.cmd o then d
  else if want then
    if edmUsed w o && !tst edm o then outputFault 18 2 o d else setOutput o true d
  else
    let d := if w.testing = some o then
        raise pWDN 13 (count pWDN 0x07C (updWdn (fun w => { w with testing := none, pulseEnd := some w.cycle }) d)) else d
    setOutput o false d

/-- Start the next dark test pulse: one output at a time, for outputs that are on, ten whole cycles (1 ms) after the last one,
which has ended between two cycles. (DEDUCED, log entry 138) -/
def startPulse (d : Die) : Die :=
  let w := d.wdn
  let apart := match w.pulseEnd with
    | some c => decide (11 ≤ w.cycle - c)
    | none => true
  match (List.range 4).find? (fun o => tst w.pulseReq o && tst w.cmd o) with
  | some o =>
    if w.testing.isNone && apart then updWdn (fun w => { w with testing := some o, pulseReq := putBit w.pulseReq o false }) d
    else d
  | none => updWdn (fun w => { w with pulseReq := 0 }) d

/-! ## The encoder (R366, R367) -/

/-- The encoder is in use. -/
def encUsed (w : Wdn) : Bool := tst (byteAt w.profile 31) 0

/-- An encoder fault: every zone that uses the encoder. -/
def encoderFault (d : Die) : Die := kickstandAll 19 0 (encZones d.wdn) (raise pWDN 3 (noteFault 19 0 d))

/-- Step of the quadrature count from (a, b) to (a', b'): A leads B in the positive direction.
(DEDUCED, log entry 135) -/
def quadStep (a b a' b' : Bool) : Int :=
  if a == a' && b == b' then 0
  else if a != a' then (if a' != b' then 1 else -1) else (if a' == b' then 1 else -1)

/-- Counts between a Z pulse and the nearest place where one is expected. -/
def zOff (per : Nat) (delta : Int) : Nat :=
  let r := (delta % (per : Int)).toNat
  min r (per - r)

/-- ENCODER_INPUT_EDGE: the new levels of A, B and Z, which are sampled also while nothing is counted. -/
def encoderEdge (a b z : Bool) (d : Die) : Die :=
  let w := d.wdn
  if !wdnRuns d then d
  else if !encUsed w then updWdn (fun w => { w with encA := a, encB := b, encZ := z }) d
  else
    let d := updWdn (fun w => { w with encA := a, encB := b, encZ := z }) d
    let d := if a != w.encA && b != w.encB then encoderFault d
      else updWdn (fun q => { q with counts := q.counts + quadStep w.encA w.encB a b }) d
    if z && !w.encZ then
      match w.zAt with
      | none => updWdn (fun q => { q with zAt := some q.counts }) d
      | some at_ =>
        let per := u32At w.profile 44
        if per ≠ 0 ∧ zOff per (d.wdn.counts - at_) > 2 then encoderFault d else d
    else d

/-- Position in counts, from the Z reference once there is one. -/
def encCounts (w : Wdn) : Int := w.counts - (if w.referenced then w.zAt.getD 0 else 0)

/-- Position in µm. (DEDUCED, log entry 135) -/
def posUm (w : Wdn) : Int :=
  encCounts w * (u32At w.profile 36 : Int) / 1000 + (if w.referenced then sgn 32 (u32At w.profile 48) else 0)

/-- Speed, reference and cross-channel check in a cycle. (DEDUCED, log entry 135) -/
def encoderCycle (d : Die) : Die :=
  let w := d.wdn
  if !encUsed w then d
  else
    let win := u16At w.profile 40
    let track := (w.counts :: w.track).take (10 * win + 1)
    let delta := w.counts - (track.getLast?).getD w.counts
    let speed := Int.tdiv (delta * (u32At w.profile 36 : Int)) ((win * 1000 : Nat) : Int)
    let ref := w.referenced || (w.zAt.isSome && (match w.rx with | some f => f.zSeen | none => false))
    let d := updWdn (fun w => { w with track := track, speed := speed, referenced := ref }) d
    match w.rx with
    | some f =>
      let far := decide ((encCounts d.wdn - f.counts).natAbs > u16At w.profile 42)
      let n := if far then w.encRun + 1 else 0
      let d := updWdn (fun w => { w with encRun := n }) d
      if n = 3 then encoderFault d else d
    | none => d

/-- The SLS bound now: the highest limit in force over the last ramp_ms. -/
def slsBound (w : Wdn) (z : Nat) : Nat :=
  let ramp := 10 * zHalf w z 12
  let since := w.cycle - ramp
  let recent := (zone w z).hist.takeWhile (fun h => decide (since < h.1))
  let before := ((zone w z).hist.drop recent.length).head?
  ((recent.map (fun h => h.2)) ++ (before.map (fun h => h.2)).toList).foldl max 0

/-- Check one zone's speed, direction and position. The furthest point counts from the zone's last entry into RUN as applied. -/
def checkMotion (d : Die) (z : Nat) : Die :=
  let w := d.wdn
  let runs := applied w z == .run
  if !zoneMoves w z then modZone z (fun x => { x with slsRun := 0, ran := false }) d
  else
    let pos := posUm w
    let fwd := zByte w z 7 == 1
    let far := if runs && !(zone w z).ran then pos else (zone w z).far
    let far := if fwd then max far pos else min far pos
    let run := if decide (w.speed.natAbs > slsBound w z) then (zone w z).slsRun + 1 else 0
    let d := modZone z (fun x => { x with slsRun := run, far := far, ran := runs }) d
    let fault (cause bit : Nat) (d : Die) : Die := kickstand cause z (raise pWDN bit (noteFault cause z d)) z
    let d := if zFlag w z 3 && decide (2 ≤ run) then fault 20 4 d else d
    let d := if zFlag w z 4 && decide ((far - pos).natAbs > zHalf w z 14) then fault 21 5 d else d
    let b := zoneBytes w.profile z
    if zFlag w z 5 && decide (pos < sgn 32 (u32At b 16) ∨ sgn 32 (u32At b 20) < pos) then fault 22 6 d else d

/-! ## Zone transitions in a cycle (R370, R372) -/

/-- A zone's inputs are closed. -/
def inputsClosed (w : Wdn) (z : Nat) : Bool := zByte w z 2 &&& (0xFF ^^^ w.closed) == 0

/-- The lowest in_mask input in demand. -/
def demandOf (w : Wdn) (z : Nat) : Nat := ((List.range 8).find? (fun n => tst (zByte w z 2) n && !tst w.closed n)).getD 0

/-- EDM of the zone's outputs reads closed. -/
def edmClosed (w : Wdn) (z : Nat) : Bool := (List.range 4).all (fun o => !(tst (zByte w z 1) o && edmUsed w o) || tst w.edm o)

/-- A zone in BRAKE may run. -/
def mayRun (d : Die) (z : Nat) : Bool :=
  let w := d.wdn
  let x := zone w z
  inputsClosed w z && edmClosed w z && (zByte w z 4 == 0 || permitValid d z) && (!x.byLoss || rearmed d z)
    && (!zFlag w z 5 || w.referenced) && (!zFlag w z 2 || x.resetOk) && !tst w.hostStop z

/-- A zone enters RUN. (DEDUCED, log entry 136) -/
def toRun (z : Nat) (d : Die) : Die :=
  modZone z (fun x => { x with state := .run, byLoss := false, resetOk := false, slsRun := 0 }) d

/-- One zone's transitions in a cycle, beyond those that events brought; `was` is the channel as the cycle began: a zone
that an event of the cycle has moved goes no further in it. (DEDUCED, log entry 136) -/
def zoneCycle (was : Wdn) (d : Die) (z : Nat) : Die :=
  let w := d.wdn
  if (zone w z).state = .unused then d
  else
    let d := if !inputsClosed w z then brake 1 (demandOf w z) d z else d
    let d := if tst w.hostStop z then brake 2 z d z else d
    match (zone was z).state, (zone d.wdn z).state with
    | .freewheel, .freewheel => if (if isSource d z then rearmed d z else permitValid d z) && inputsClosed w z then toRun z d else d
    | .brake, .brake => if mayRun d z then toRun z d else d
    | _, _ => d

/-- Own limit in force of a zone (R370). -/
def ownLimit (w : Wdn) (z : Nat) : Nat :=
  let top := zHalf w z 8
  match (zone w z).state with
  | .run => ((watchesOf w z).map (fun x => x.limit)).foldl min top
  | .freewheel =>
    match (zone w z).snt with
    | some (_, limit, _, _) => min (min top (zHalf w z 10)) limit
    | none => min top (zHalf w z 10)
  | _ => 0

/-- Limit in force of a zone: the lower of the own and the peer's (R356); 0 where the zone does not move. -/
def limitInForce (w : Wdn) (z : Nat) : Nat :=
  if !zoneMoves w z then 0
  else
    match peerZone w z with
    | some (_, _, l) => min (zone w z).limit l
    | none => (zone w z).limit

/-- Note the limit in force and its changes; a zone that follows its peer records cause 11. -/
def noteLimit (d : Die) (z : Nat) : Die :=
  let own := ownLimit d.wdn z
  let d := modZone z (fun x => { x with limit := own }) d
  let l := limitInForce d.wdn z
  let old := ((zone d.wdn z).hist.head?).map (fun h => h.2)
  let d := if old = some l then d else modZone z (fun x => { x with hist := ((d.wdn.cycle, l) :: x.hist).take 20001 }) d
  if follows d.wdn z then modZone z (fun x => { x with cause := 11, index := z }) d else d

/-- WDN_SST_N is asserted (R372). -/
def sstNow (w : Wdn) : Bool :=
  w.state != .active || (zonesWhere w (fun z => zFlag w z 1 && applied w z != .run)).length > 0

/-! ## The Warden cycle (R353, R354) -/

/-- The frame that a channel sends in a cycle. (DEDUCED, log entry 130) -/
def xframe (d : Die) : XFrame :=
  let w := d.wdn
  { cycle := w.cycle, word := w.switches, contacts := w.sides, cmd := w.cmd, readback := w.readback, edm := w.edm
    counts := encCounts w, zSeen := w.zAt.isSome, speed := w.speed
    zones := (List.range 4).map (fun z => ((zone w z).state, permitValid d z, (zone w z).limit)) }

/-- Frames that the peer has sent since this channel last looked: one for each of its cycles (R354). -/
def sentSince (w : Wdn) (f : XFrame) : Nat := if f.cycle < w.peerCycle then 1 else f.cycle - w.peerCycle

/-- Take what the crosslink brings: every frame that the peer has sent since the last cycle is valid, or is not.
(DEDUCED, log entry 131) -/
def takeXlink (x : Crosslink) (peer : Option XFrame) (d : Die) : Die :=
  match peer with
  | none => d
  | some f =>
    let n := sentSince d.wdn f
    let d := updWdn (fun w => { w with peerCycle := f.cycle }) d
    match x, n with
    | .silent, _ => d
    | _, 0 => d
    | .invalid, n => countN pWDN 0x080 n d
    | .valid, n =>
      updWdn (fun w => { w with
        rx := some f, xlinkUp := true, frames := w.frames + n, conds := w.conds.filter (fun c => c != 9) }) d

/-- WARDEN_CYCLE: sample, take the crosslink and the die's events, evaluate, drive, send.
(DEDUCED, log entry 139; DESIGN CHOICE, log entry 185) -/
def wardenCycle (s : WdnSample) (peer : Option XFrame) (d : Die) : Die :=
  if !wdnRuns d then d
  else
    let rb := s.readback.toNat
    let edm := s.edm.toNat
    let sw := s.switches.toNat
    let d := updWdn (fun w => { w with
      cycle := w.cycle + 1, readback := rb, edm := edm, switches := sw
      word := if w.state = .start then sw else w.word }) d
    let d := takeXlink s.xlink peer d
    let evs := d.wdn.events
    let was := d.wdn
    let d := updWdn (fun w => { w with events := [] }) d
    let d := if d.wdn.state = .active then
        let d := evs.foldl takeEvent d
        let d := encoderCycle (safeInputs s.inputs.toNat d)
        let d := [0, 1, 2, 3].foldl (zoneCycle was) d
        let d := [0, 1, 2, 3].foldl (checkOutput rb edm) d
        let d := [0, 1, 2, 3].foldl noteLimit d
        [0, 1, 2, 3].foldl checkMotion d
      else evs.foldl idleEvent (if d.wdn.profile.isEmpty then d else safeInputs s.inputs.toNat d)
    let d := startPulse ([0, 1, 2, 3].foldl (driveOutput edm) d)
    let d := updWdn (fun w => { w with sst := sstNow w }) d
    updWdn (fun w => { w with tx := some (xframe d) }) d

/-! ## Timers and checks -/

/-- DARK_TEST_PULSE_END: the running pulse ends; `ok` says that readback showed low before its end. -/
def pulseEnds (o : Nat) (ok : Bool) (d : Die) : Die :=
  if d.wdn.testing = some o then
    let d := updWdn (fun w => { w with testing := none, pulseEnd := some w.cycle }) d
    if ok then count pWDN 0x078 (updWdn (fun w => { w with pulseAt := w.pulseAt.set o w.cycle }) d) else outputFault 17 1 o d
  else d

/-- TP_INTERVAL_EXPIRY: the interval of an output that is on has elapsed. (DEDUCED, log entry 138) -/
def pulseDue (o : Nat) : Die → Die :=
  updWdn (fun w => if tst w.cmd o then { w with pulseReq := putBit w.pulseReq o true } else w)

/-- The two sides of an input agree. -/
def sidesAgree (w : Wdn) (n : Nat) : Bool := tst w.sides n == tst ((w.rx.map (fun f => f.contacts)).getD 0) n

/-- DISCREPANCY_TIMEOUT: an input's timer has reached D, and ends. -/
def discTimeout (n : Nat) (d : Die) : Die :=
  let w := d.wdn
  if w.state = .active ∧ tst w.discRun n then
    kickstandAll 16 n (zonesWhere w (fun z => tst (zByte w z 2) n)) (raise pWDN 0 (noteFault 16 n
      (updWdn (fun w => { w with discRun := putBit w.discRun n false }) d)))
  else d

/-- EDM_TIMEOUT: an EDM input has not followed its output within edm_ms. (DEDUCED, log entry 138) -/
def edmTimeout (o : Nat) (d : Die) : Die :=
  if tst d.wdn.edmWait o && d.wdn.testing != some o then
    outputFault 18 2 o (updWdn (fun w => { w with edmWait := putBit w.edmWait o false }) d)
  else d

/-- CROSSLINK_TIMEOUT: no valid frame for 500 µs. -/
def xlinkTimeout (d : Die) : Die :=
  if !wdnRuns d then d
  else
    kickstandChannel 23 (raise pWDN 9 (updWdn (fun w => { w with xlinkUp := false, conds := (9 :: w.conds).eraseDups }) d))

/-- CLOCK_COUNT_WINDOW: 100 ms of the channel's own time end. -/
def clockWindow (d : Die) : Die :=
  if !wdnRuns d then d
  else
    let n := d.wdn.frames
    let d := updWdn (fun w => { w with frames := 0 }) d
    if 920 ≤ n ∧ n ≤ 1080 then updWdn (fun w => { w with conds := w.conds.filter (fun c => c != 10) }) d
    else kickstandChannel 24 (raise pWDN 10 (updWdn (fun w => { w with conds := (10 :: w.conds).eraseDups }) d))

/-- PROFILE_CRC_CHECK: a failing check of the profile copy is a fault of the channel's own memory; the outputs change at the end
of the coming cycle (R353). -/
def profileCheck (ok : Bool) (d : Die) : Die :=
  if ok || !wdnRuns d || d.wdn.state == .selfFault then d
  else
    raise pWDN 12 (selfFault d)

/-- A configuration fault while zones run, on one channel (R358). -/
def configFault (d : Die) : Die :=
  if d.wdn.state = .active then
    kickstandChannel 25 (raise pWDN 11 (updWdn (fun w => { w with conds := (11 :: w.conds).eraseDups }) d))
  else d

/-- Host stop (R379). -/
def hostStop (mask : Nat) (d : Die) : Die :=
  let d := updWdn (fun w => { w with hostStop := w.hostStop ||| mask }) d
  (maskBits mask).foldl (fun d z => brake 2 z d z) d

/-- Release of a host stop; it starts no zone. -/
def hostRelease (mask : Nat) : Die → Die := updWdn (fun w => { w with hostStop := w.hostStop &&& (0xF ^^^ mask) })

/-- SYMBOL_TICK: time passes to the next symbol boundary that has had no tick; the Warden counts it (R374). -/
def symbolTick (d : Die) : Die :=
  if !wdnRuns d then d
  else
    let d := if symIndex d = d.wdn.sym then updTim (fun t => pass (toNextSymbol t) t) d else d
    updWdn (fun w => { w with sym := symIndex d, tickOk := true, conds := w.conds.filter (fun c => c != 8) }) d

/-- TICK_LOSS: no tick for more than 2.1 symbol periods. -/
def tickLoss (d : Die) : Die :=
  if !wdnRuns d then d
  else tickLost (raise pWDN 8 (updWdn (fun w => { w with tickOk := false, conds := (8 :: w.conds).eraseDups }) d))

/-- WATCHDOG_EXPIRY: a stage of a batch has not come by its wd_close, or wd_every slots have passed without ingress. -/
def watchdog (i stage : Nat) (d : Die) : Die :=
  match mget d.wdn.watches i with
  | none => d
  | some x =>
    if !x.isOpen then d
    else if stage = 1 then expire i 1 d
    else if 2 ≤ stage ∧ stage ≤ 4 then
      match x.batches.find? (fun b => !tst b.2 stage) with
      | some b =>
        let mark (q : Nat × Nat) : Nat × Nat := if q.1 = b.1 then (q.1, q.2 ||| 2 ^ stage) else q
        expire i stage (modWatch i (fun x => { x with
          batches := if stage = 4 then x.batches.filter (fun q => q.1 != b.1) else x.batches.map mark }) d)
      | none => d
    else d

/-- FREEWHEEL_EXPIRY. -/
def freewheelExpiry (z : Nat) (d : Die) : Die := if (zone d.wdn z).state = .freewheel then brake 8 z d z else d

/-- SENTINEL_PERMIT_STALE. -/
def permitStale (z : Nat) (d : Die) : Die := if (zone d.wdn z).state = .freewheel then brake 9 z d z else d

/-! ## Reset (R373) -/

/-- Every cause of a zone is gone. -/
def causesGone (w : Wdn) (z : Nat) : Bool :=
  (List.range 8).all (fun n => !(tst (zByte w z 2) n && tst (byteAt w.profile 25) n) || sidesAgree w n) && edmClosed w z && zByte w z 1 &&& w.cmd == 0
    && (!(zFlag w z 3 || zFlag w z 4 || zFlag w z 5) || w.encRun == 0)
    && w.xlinkUp && !w.conds.contains 9 && !w.conds.contains 10 && w.switches == w.word
    && (w.rx.map (fun f => f.word)) == some w.word

/-- An accepted reset pulse acts on a channel: KICKSTAND to BRAKE, and never further. (DEDUCED, log entry 137) -/
def resetActs (d : Die) : Die :=
  [0, 1, 2, 3].foldl (fun d z =>
    match (zone d.wdn z).state with
    | .kickstand => if causesGone d.wdn z then modZone z (fun x => { x with state := .brake, resetOk := false }) d else d
    | .brake => modZone z (fun x => { x with resetOk := true }) d
    | _ => d) (updWdn (fun w => { w with resetAt := none }) d)

/-- WDN_RESET on a die: it acts on both channels where the peer accepted a pulse within 500 ms.
(DEDUCED, log entry 137) -/
def wdnReset (d peer : Die) : Die × Die :=
  if !wdnRuns d then (d, peer)
  else
    match peer.wdn.resetAt with
    | some t =>
      if peer.tim.up - t ≤ 500000000 then (resetActs d, resetActs peer)
      else (updWdn (fun w => { w with resetAt := some d.tim.up }) d, peer)
    | none => (updWdn (fun w => { w with resetAt := some d.tim.up }) d, peer)

/-! ## Start-up (R357, R375) -/

/-- The configuration of the two channels is valid: the profile that their equal words name, the same on both. -/
def configOf (d : Die) (peerWord : Nat) (peerTable : Bytes) : Option Bytes :=
  let w := d.wdn
  if switchOk w.word && peerWord == w.word && profileAt peerTable (w.word % 256) == profileAt w.table (w.word % 256) then
    match profileAt w.table (w.word % 256) with
    | some b => if profileOk (w.word % 256) b then some b else none
    | none => none
  else none

/-- WARDEN_START_UP_DONE: zones start in BRAKE, those with an open EDM in KICKSTAND; a configuration fault, a readback that is
not low, or another failed test leaves the channel faulty. (DEDUCED, log entries 134, 139) -/
def startUp (passed : Bool) (peerTable : Bytes) (d : Die) : Die :=
  if !wdnRuns d || d.wdn.state != .start then d
  else
    let peerWord := (d.wdn.rx.map (fun f => f.word)).getD (65535 - d.wdn.word)
    match configOf d peerWord peerTable with
    | none =>
      let d := updWdn (fun w => { w with
        state := .cfgFault, conds := (11 :: w.conds).eraseDups, switchDigest := switchDigestOf w.word [] }) d
      raise pWDN 11 (noteFault 25 0 d)
    | some b =>
      let d := updWdn (fun w => { w with profile := b, switchDigest := switchDigestOf w.word b }) d
      if !passed || d.wdn.readback != 0 then raise pWDN 12 (selfFault d)
      else
        let d := updWdn (fun w => { w with
          state := .active, sides := 0, sideRun := List.replicate 8 0, closed := 0, bothOpen := 255, agreed := 0, discRun := 0, zones := (List.range 4).map (fun z => { state := if zoneUsed b z then .brake else .unused }) }) d
        let bad := zonesWhere d.wdn (fun z => !edmClosed d.wdn z)
        if bad.isEmpty then d else kickstandAll 18 0 bad (raise pWDN 2 (noteFault 18 0 d))

/-! ## The commands -/

/-- WARDEN_CYCLE. -/
def execWardenCycle (d : DieId) (smp : WdnSample) (s : State) : Host.Outcome State Fault Refusal :=
  runDie d (wardenCycle smp (s.die d.other).wdn.tx) s

/-- DARK_TEST_PULSE_END. -/
def execDarkTestPulseEnd (d : DieId) (output : BitVec 2) (ok : Bool) (s : State) : Host.Outcome State Fault Refusal :=
  runDie d (pulseEnds output.toNat ok) s

/-- TP_INTERVAL_EXPIRY. -/
def execTpIntervalExpiry (d : DieId) (output : BitVec 2) (s : State) : Host.Outcome State Fault Refusal :=
  runDie d (pulseDue output.toNat) s

/-- DISCREPANCY_TIMEOUT. -/
def execDiscrepancyTimeout (d : DieId) (input : BitVec 3) (s : State) : Host.Outcome State Fault Refusal :=
  runDie d (discTimeout input.toNat) s

/-- EDM_TIMEOUT. -/
def execEdmTimeout (d : DieId) (output : BitVec 2) (s : State) : Host.Outcome State Fault Refusal :=
  runDie d (edmTimeout output.toNat) s

/-- CROSSLINK_TIMEOUT. (DESIGN CHOICE, log entry 4) -/
def execCrosslinkTimeout (d : DieId) (s : State) : Host.Outcome State Fault Refusal := runDie d xlinkTimeout s

/-- CLOCK_COUNT_WINDOW. -/
def execClockCountWindow (d : DieId) (s : State) : Host.Outcome State Fault Refusal := runDie d clockWindow s

/-- PROFILE_CRC_CHECK. -/
def execProfileCrcCheck (d : DieId) (crcOk : Bool) (s : State) : Host.Outcome State Fault Refusal :=
  runDie d (profileCheck crcOk) s

/-- SWITCH_WORD_CHANGE: a word that has differed for ten cycles is a configuration fault of both channels. The word in
force again lets a reset pulse act (R373); the cfg bit's condition holds until the next Thaw (R383). -/
def execSwitchWordChange (d : DieId) (word : BitVec 16) (s : State) : Host.Outcome State Fault Refusal :=
  let s := onDie d (updWdn (fun w => { w with switches := word.toNat })) s
  let w := (s.die d).wdn
  if w.state ≠ .active ∨ word.toNat = w.word then .next s
  else .next (onDie d.other configFault (onDie d configFault s))

/-- WDN_RESET: the falling edge of a pulse that the channel accepts by how long it was high (R373).
(DESIGN CHOICE, log entry 5) -/
def execWdnReset (d : DieId) (s : State) : Host.Outcome State Fault Refusal :=
  let r := wdnReset (s.die d) (s.die d.other)
  .next ((s.setDie d r.1).setDie d.other r.2)

/-- WDN_CMD.stop. -/
def execWdnCmdStop (d : DieId) (zones : BitVec 4) (s : State) : Host.Outcome State Fault Refusal :=
  runDie d (hostStop zones.toNat) s

/-- WDN_CMD.release. -/
def execWdnCmdRelease (d : DieId) (zones : BitVec 4) (s : State) : Host.Outcome State Fault Refusal :=
  runDie d (hostRelease zones.toNat) s

/-- SYMBOL_TICK. -/
def execSymbolTick (d : DieId) (s : State) : Host.Outcome State Fault Refusal := runDie d symbolTick s

/-- TICK_LOSS. -/
def execTickLoss (d : DieId) (s : State) : Host.Outcome State Fault Refusal := runDie d tickLoss s

/-- WATCHDOG_EXPIRY. -/
def execWatchdogExpiry (d : DieId) (watch : BitVec 4) (stage : BitVec 3) (s : State) : Host.Outcome State Fault Refusal :=
  runDie d (watchdog watch.toNat stage.toNat) s

/-- FREEWHEEL_EXPIRY. -/
def execFreewheelExpiry (d : DieId) (zone : BitVec 2) (s : State) : Host.Outcome State Fault Refusal :=
  runDie d (freewheelExpiry zone.toNat) s

/-- SENTINEL_PERMIT_STALE. -/
def execSentinelPermitStale (d : DieId) (zone : BitVec 2) (s : State) : Host.Outcome State Fault Refusal :=
  runDie d (permitStale zone.toNat) s

/-- WARDEN_START_UP_DONE. -/
def execWardenStartUpDone (d : DieId) (passed : Bool) (s : State) : Host.Outcome State Fault Refusal :=
  runDie d (startUp passed (s.die d.other).wdn.table) s

/-- ENCODER_INPUT_EDGE. -/
def execEncoderInputEdge (d : DieId) (a b z : Bool) (s : State) : Host.Outcome State Fault Refusal :=
  runDie d (encoderEdge a b z) s

end Sys2Proof.Machine
end

