-- ==== Sys2Proof/Machine/RegRead.lean ====
section
/-! DEFINITION. Reading a register (R9, R10, R25, R464, R465, R467): the header of a page, its fields that hold what
software wrote, its counters, and what its read-only fields report. -/

namespace Sys2Proof.Machine

/-- A number as a field of some width at a bit. -/
def put (lo wd v : Nat) : Nat := v % 2 ^ wd * 2 ^ lo

/-- Fields side by side: field `i` of `wd` bits at `step * i`. -/
def row (step wd n : Nat) (f : Nat → Nat) : Nat := ((List.range n).map (fun i => put (step * i) wd (f i))).foldl (· + ·) 0

/-- A signed number that saturates in a field. -/
def satField (wd : Nat) (v : Int) : Nat := satS wd v

/-! ## Pages (R465, R468) -/

/-- A page whose BLK_CTRL.enable software writes (R468). -/
def hasEnable (page : Nat) : Bool := page == pWLK || page == pHST || (pING ≤ page && page ≤ pING + 1) || (pPEL ≤ page && page ≤ pPEL + 2)

/-- BLK_CTRL.enable of a page. -/
def pageEnabled (d : Die) (page : Nat) : Bool :=
  if hasEnable page then d.regs.enabled.contains page else d.phase != .frost && d.phase != .thaw

/-- The page whose registers an offset reaches: the stream table and what PEL has once per die stand on their block's
first page, and read the same and act the same on its others (the text before R347 and R453). -/
def homePage (page off : Nat) : Nat :=
  if page = pING + 1 ∧ 0x054 ≤ off ∧ off ≤ 0x070 then pING
  else if (page = pPEL + 1 ∨ page = pPEL + 2) ∧ 0x080 ≤ off then pPEL
  else page

/-- The page whose Staged fields a page shows: every Staged field of ING and PEL is one that the block's pages share. -/
def stagePage (page : Nat) : Nat :=
  if page = pING + 1 then pING else if page = pPEL + 1 ∨ page = pPEL + 2 then pPEL else page

/-- A page that reads as zero throughout and ignores writes (R25, R255). (DEDUCED, log entry 155) -/
def pageDark (d : Die) (page : Nat) : Bool := pageAbsent d page || (page == pDBG && !debugOpen d)

/-- The entry that a selector register names for an offset (R348, R352, R454). -/
def selOf (d : Die) (page off : Nat) : Nat :=
  if page = pING ∧ 0x058 ≤ off ∧ off ≤ 0x070 then field d pING 0x054 0
  else if page = pHST ∧ 0x068 ≤ off ∧ off ≤ 0x070 then field d pHST 0x064 0
  else if page = pPEL ∧ 0x098 ≤ off ∧ off ≤ 0x0BC then field d pPEL 0x094 0
  else 0

/-! ## Read-only fields by block -/

/-- Models admitted to a die, coupled or not. -/
def modelsHeld (d : Die) (coupled : Bool) : Nat :=
  (d.adm.models.filter (fun e => !admitting e.2 && isCoupled e.2 == coupled)).length

/-- A change of GLB STRICT would be discarded (R474). -/
def strictLocked (d : Die) : Bool :=
  holdsCoupled d ||
    (if strictOn d then d.adm.models.any (fun e => !admitting e.2 && e.2.manifest.strictReq)
      else d.adm.models.any (fun e => !admitting e.2 && e.2.prog.mayVary))

/-- GLB (R475). -/
def roGlb (d : Die) (off : Nat) : Nat :=
  match off with
  | 0x040 => put 0 1 d.which.num + put 1 3 d.key.grade + put 4 6 d.key.pipes
  | 0x044 => put 0 3 (phaseCode d.phase) + put 3 1 (b2n (d.spk.up && d.spk.peerPhase == 3))
  | 0x048 => d.phaseSlot
  | 0x04C => put 1 1 (b2n (strictOn d)) + put 2 1 (b2n (strictLocked d))
  | 0x050 => put 0 7 (modelsHeld d true) + put 8 7 (modelsHeld d false)
  | 0x054 => d.key.fwVersion
  | 0x058 => u32At d.key.mapDigest 0
  | 0x05C => put 0 8 (satField 8 d.fcu.tj) + put 8 8 (satField 8 d.fcu.tjPeak)
  | _ => 0

/-- FCU_FIRST or FCU_SECOND and the two words after it (R387, R406). -/
def roCapture (c : Capture) (i : Nat) : Nat :=
  match i with
  | 0 => put 0 6 c.source + put 6 5 c.bit + put 11 3 c.sev + put 14 1 (b2n c.forced) + put 15 1 (b2n c.same) + put 31 1 (b2n c.valid)
  | 1 => c.slot
  | _ => c.cyc

/-- FCU (R406). (DEDUCED, log entry 35) -/
def roFcu (d : Die) (off : Nat) : Nat :=
  let f := d.fcu
  match off with
  | 0x040 => f.src % 4294967296
  | 0x044 => f.src / 4294967296
  | 0x048 => put 0 3 ((f.sev.map (fun e => e.2)).foldl max 0) + put 3 1 (b2n (f.src != 0)) + put 4 1 (b2n (faultLow d)) + put 5 1 (b2n (d.key.debug == 2))
  | 0x054 => roCapture f.first 0
  | 0x058 => roCapture f.first 1
  | 0x05C => roCapture f.first 2
  | 0x060 => roCapture f.second 0
  | 0x064 => roCapture f.second 1
  | 0x068 => roCapture f.second 2
  | 0x06C => f.echo % 4294967296
  | 0x070 => f.echo / 4294967296
  | 0x074 => put 0 8 f.entries + put 8 6 f.lastSrc + put 14 1 (b2n f.held)
  | _ => 0

/-- Codes of the air-time and PTP states (R350). -/
def atCode : AtState → Nat
  | .free => 0 | .acquire => 1 | .locked => 2 | .holdover => 3
def ptpCode : PtpState → Nat
  | .disabled => 0 | .unlocked => 1 | .locked => 2 | .holdover => 3 | .frozen => 4

/-- TIM (R350). -/
def roTim (d : Die) (off : Nat) : Nat :=
  let t := d.tim
  let g := trigger d (field d pTIM 0x090 0)
  match off with
  | 0x040 => t.ns % 4294967296
  | 0x044 => t.latchHi
  | 0x048 => t.latchFrac
  | 0x04C => t.incr
  | 0x068 => put 0 2 (atCode t.at_) + put 2 2 t.inUse + put 4 1 (b2n (timeUncertain d)) + put 5 1 (b2n (followsPeer d)) + put 16 16 (satField 16 t.edgeErr)
  | 0x06C => slotCount d
  | 0x070 => t.latchPos
  | 0x080 => ptpCode t.ptp
  | 0x084 => satField 32 t.offset
  | 0x088 => put 0 16 (min 65535 (delayNs t)) + put 16 16 (min 65535 (t.dRef / 8))
  | 0x094 => put 0 2 g.mode + put 2 4 g.symbol
  | 0x098 => g.lo
  | 0x09C => g.target / 4294967296
  | 0x0A0 => g.period
  | 0x0A4 => put 0 8 t.fired
  | 0x0A8 => g.capSlot
  | 0x0AC => g.capNs
  | _ => 0

/-- Longest spacing of a group's SELFTEST entries in the timetable, cycles; 0 where it has none. -/
def testSpacing (d : Die) (lead : Nat) : Nat :=
  let t := d.cad.active
  let s := slotCycles t.mu
  let at_ := ((t.entries.filter (fun e => e.kind == 4 && (pipe d e.group).lead == lead)).map (fun e => e.slot * s + e.start)).mergeSort (fun a b => a ≤ b)
  match at_ with
  | [] => 0
  | a :: _ => (((at_.drop 1) ++ [a + t.period * s]).zipWith (fun n p => n - p) at_).foldl max 0

/-- CAD (R282): there is no active timetable before Spring. -/
def roCad (d : Die) (off : Nat) : Nat :=
  let c := d.cad
  if 0x060 ≤ off ∧ off ≤ 0x074 then
    let n := (off - 0x060) / 4
    if leads d n then ((rotation d n).length + 3) * testSpacing d n / 1100 else 0
  else
    match off with
    | 0x044 => put 0 1 (b2n c.standby.isSome) + put 1 1 (b2n (c.running && c.active.isDefault)) + put 2 10 (c.active.period - 1)
        + put 12 10 (slotCount d % max 1 c.active.period) + put 22 2 (if c.running then c.active.mu else 0) + put 24 1 (b2n !c.frags.isEmpty)
    | 0x04C => capOf d pCAD 0x04C
    | 0x050 => if c.running then ttDigest c.active else 0
    | 0x054 => (c.standby.map ttDigest).getD 0
    | 0x058 => put 0 14 c.active.entries.length + put 16 14 ((c.standby.map (fun t => t.entries.length)).getD 0)
    | 0x05C => row 2 2 6 (fun n => min 3 (mgetD c.skips n 0))
    | 0x078 => row 2 2 16 (fun s => min 2 (mgetD c.misses s 0))
    | _ => 0

/-- CHN (R298). -/
def roChn (d : Die) (off : Nat) : Nat :=
  let c := field d pCHN 0x048 0
  let x := chan d c
  match off with
  | 0x044 => capOf d pCHN 0x044
  | 0x04C => put 0 3 (stateCode x.state) + put 3 5 (chanTickets d c).length + put 8 8 x.endCause
  | 0x050 => x.ringHead
  | 0x054 => x.ringTail
  | 0x058 => put 0 16 (chansWhere d chanLive).length + put 16 16 (chansWhere d (fun x => x.state == .closed || x.state == .retired)).length
  | 0x05C => put 0 15 d.chn.tickets.length
  | 0x060 => put 0 10 d.chn.cache.length
  | _ => 0

/-- RAT, page q (R301). (DEDUCED, log entry 155) -/
def roRat (d : Die) (q off : Nat) : Nat :=
  let r := ratchet d (1024 * q + field d (pRAT + q) 0x040 0)
  match off with
  | 0x044 => put 0 2 r.owner + put 2 1 (b2n (named d (1024 * q + field d (pRAT + q) 0x040 0)))
  | 0x048 => r.value % 4294967296
  | 0x04C => mgetD d.rat.hiLatch q (r.value / 4294967296)
  | _ => 0

/-- VP_STATE.state of a pipeline (R252). -/
def vpState (d : Die) (n : Nat) : Nat :=
  let p := pipe d n
  let core := (pipe d p.lead).core
  if !p.enabled then 0 else if p.retired then 6 else if core.halted then 5 else if p.resyncRun then 4
  else if d.vp.draining then 3 else if core.run.isEmpty then 1 else 2

/-- VP, pipeline n (R252). -/
def roVp (d : Die) (n off : Nat) : Nat :=
  match off with
  | 0x044 => put 0 2 d.vp.current + put 2 2 d.vp.target + put 4 1 (b2n d.vp.pending) + put 5 3 d.vp.result
  | 0x048 => put 0 3 (vpState d n) + put 3 3 (groupLead d (pipe d n).lead) + put 6 2 (pipe d n).role
  | 0x054 => capOf d (pVP + n) 0x054
  | _ => 0

/-- Six 5-bit tile numbers of a map register. -/
def tileMap (t : Tiles) (i : Nat) : Nat := row 5 5 6 (fun m => (t.map[6 * i + m]?).getD 0)

/-- Sixteen 2-bit unit states. -/
def tileStates (t : Tiles) (i : Nat) : Nat := row 2 2 16 (fun m => (t.state[16 * i + m]?).getD 0)

/-- KiB of HBM and of the row-secret area that the tables of the admitted models take (R126, R140).
(DEDUCED, log entry 155) -/
def secretKib (d : Die) : Nat :=
  cdiv (sumL (d.adm.models.map (fun e => secretBytes e.2.manifest e.2.k))) 1024

/-- A register of a page's failure capture (R140, R162, R164, R187). -/
def isCapture (page off : Nat) : Bool :=
  decide (capBase page ≤ off) && decide (off ≤ capBase page + (if page = pRES then 8 else 12))

/-- RES, BND, NLE and CWE: maps, states, lanes and the failure capture (R140, R162, R164, R187). -/
def roTiles (d : Die) (blk maps off : Nat) : Nat :=
  let t := pool d blk
  let states := 0x044 + 4 * maps
  if isCapture (unitPage blk) off then capOf d (unitPage blk) off
  else if 0x044 ≤ off ∧ off < states then tileMap t ((off - 0x044) / 4)
  else if off = states ∨ off = states + 4 then tileStates t ((off - states) / 4)
  else if off = states + 12 then row (maps - 1) (maps - 1) 6 (fun n => unitsUp d blk n)
  else 0

/-- RES (R140). -/
def roRes (d : Die) (off : Nat) : Nat :=
  match off with
  | 0x060 => put 0 16 (secretKib d) + put 16 16 (10240 - secretKib d)
  | _ => roTiles d 8 3 off

/-- CWE (R186). -/
def roCwe (d : Die) (off : Nat) : Nat :=
  let x := chan d (field d pCWE 0x064 0)
  match off with
  | 0x068 => if x.density = 0 then 0 else x.shown.1
  | 0x06C => if x.density = 0 then 0 else x.shown.2.1
  | 0x070 => if x.density = 0 then 0 else x.shown.2.2
  | 0x074 => put 0 16 (cdiv x.host.ctx 256) + put 16 2 x.density
  | _ => roTiles d 11 4 off

/-- SNT (R318). -/
def roSnt (d : Die) (off : Nat) : Nat :=
  let i := image d (field d pSNT 0x04C 0)
  match off with
  | 0x048 => put 0 8 d.sntb.result
  | 0x050 => put 0 2 i.state + put 2 2 (byteAt i.payload 6) + put 8 24 (i.payload.length / 1024)
  | 0x054 => u32At i.digest 0
  | 0x058 => row 8 7 4 (fun s => unitsUp d 12 s)
  | 0x05C => row 8 7 2 (fun s => unitsUp d 12 (4 + s)) + put 16 10 (d.snt.state.filter (fun x => x == 2)).length
  | 0x060 => capOf d pSNT 0x060
  | _ => 0

/-- SHK (R227). -/
def roShk (d : Die) (off : Nat) : Nat :=
  match off with
  | 0x044 => row 2 2 8 (fun c => (d.shk.state[c]?).getD 0)
  | 0x048 => row 3 3 8 (fun c => (d.shk.map[c]?).getD c)
  | 0x050 => d.sealing.leaves.length
  | _ => 0

/-- SIG (R230). -/
def roSig (d : Die) (off : Nat) : Nat :=
  let s := d.sealing
  match off with
  | 0x044 => put 0 14 s.effPeriod + put 14 2 (enginesUp d) + put 16 1 (b2n s.uncertain) + put 17 1 (b2n s.cutPend)
  | 0x04C => s.lastNo % 4294967296
  | 0x050 => s.hiLatch
  | 0x054 => d.key.rpmb.bootNo
  | 0x058 => u32At s.lastDig 0
  | 0x05C => put 0 11 (cdiv (bodyFill s.bodies) 65536)
  | _ => 0

/-- KEY (R439). -/
def roKey (d : Die) (off : Nat) : Nat :=
  let k := d.key
  if 0x050 ≤ off ∧ off ≤ 0x060 then (k.rpmb.svn[(off - 0x050) / 4]?).getD 0
  else if 0x064 ≤ off ∧ off ≤ 0x080 then u32At k.device (off - 0x064)
  else if 0x084 ≤ off ∧ off ≤ 0x0A0 then u32At k.rpmb.owner (off - 0x084)
  else if 0x0A4 ≤ off ∧ off ≤ 0x0B0 then u32At k.nonce (off - 0x0A4)
  else
    match off with
    | 0x040 => put 0 1 (b2n k.identityOk) + put 1 1 (b2n !allZero k.rpmb.owner) + put 2 1 (b2n k.rpmbOk)
        + put 3 1 (b2n k.storageNew) + put 4 2 k.debug + put 6 1 (b2n k.trust.isSome)
    | 0x044 => put 0 4 k.step + put 4 4 k.cause + put 8 1 k.fwSlot
    | 0x048 => k.rpmb.bootNo
    | 0x04C => k.rpmb.month
    | 0x0B4 => put 0 4 (k.sessions.filter (fun s => s.isOpen)).length
        + put 4 1 (b2n (k.sessions.any (fun s => s.isOpen && s.role == 3)))
    | 0x0B8 => put 0 16 k.corrected
    | _ => 0

/-- Codes of WLK_STATE (R54). -/
def linkCode : LinkState → Nat
  | .off => 0 | .adapt => 1 | .flitHunt => 2 | .hello => 3 | .up => 4 | .retired => 5

/-- WLK (R54). (DESIGN CHOICE, log entry 210) -/
def roWlk (d : Die) (off : Nat) : Nat :=
  let w := d.wlk
  match off with
  | 0x048 => put 0 4 (linkCode w.state) + put 4 2 w.halves + put 6 3 w.cause
  | 0x094 => put 0 10 w.held.v0.length + put 10 10 (dsCredit w 0) + put 20 10 (dsCredit w 1)
  | 0x098 => u32At w.peerId 0
  | 0x09C => u32At w.peerId 4
  | _ => 0

/-- WRD (R93). -/
def roWrd (d : Die) (off : Nat) : Nat :=
  if 0x064 ≤ off ∧ off ≤ 0x078 then put 0 16 (ringFill d ((off - 0x064) / 4) / 16)
  else
    match off with
    | 0x044 => put 0 1 (b2n d.wrd.hunt.v0) + put 1 1 (b2n d.wrd.hunt.v1) + put 2 1 (b2n d.wrd.hunt.v2) + put 3 1 (b2n d.wrd.hbOk)
        + put 4 1 (b2n (d.chn.tab.any (fun e => e.2.wrd.skip.isSome)))
    | 0x058 => capOf d pWRD 0x058
    | 0x05C => capOf d pWRD 0x05C
    | 0x060 => capOf d pWRD 0x060
    | _ => 0

/-- ING, port p (R348). -/
def roIng (peer d : Die) (p off : Nat) : Nat :=
  let s := field d pING 0x054 0
  match off with
  | 0x050 => b2n (if p = 0 then d.ing.up0 else d.ing.up1)
  | 0x06C => (stream d s).expected
  | 0x070 => put 0 1 (b2n (stream d s).primed) + put 1 1 (b2n (streamOn d s && streamOn peer s))
  | _ => 0

/-- An entry of the admin bank of the gate list (R344). -/
def adminEntry (d : Die) (i : Nat) : Nat × Nat := mgetD (if d.hst.operBank = 0 then d.hst.bank1 else d.hst.bank0) i (15, 1000000)

/-- HST (R352). -/
def roHst (d : Die) (off : Nat) : Nat :=
  if 0x100 ≤ off ∧ off ≤ 0x17C then
    let e := adminEntry d ((off - 0x100) / 4)
    put 0 4 e.1 + put 4 28 e.2
  else
    match off with
    | 0x050 => put 0 1 (b2n d.hst.linkUp) + put 1 1 d.hst.operBank + put 2 1 (b2n d.hst.peerPath)
    | 0x068 => put 16 1 (b2n (field d pHST 0x064 0 == 15 && fieldSel d 15 pHST 0x068 16 == 0))
    | _ => 0

/-- PEL, port p; what the die has once stands on port 0's page (R454). -/
def roPel (d : Die) (p off : Nat) : Nat :=
  let x := d.pel
  let g := pelGate d (field d pPEL 0x094 0)
  let dest := field d pPEL 0x08C 0
  let q := pelPort d p
  match off with
  | 0x044 => put 0 1 (b2n q.up) + put 1 8 ((q.nbr.bind (fun n => idOf d n.1)).getD 255) + put 9 12 q.latency
  | 0x080 => put 0 7 ((ownId d).getD 0) + put 7 1 (b2n (ownId d).isSome) + put 8 8 x.ids.length + put 16 16 x.epoch
  | 0x090 => put 2 1 (b2n (decide (ownId d = some dest))) +
      (match routeTo d dest with
       | some (port, hops) => put 0 2 port + put 3 1 1 + put 4 8 hops
       | none => put 3 1 (b2n (decide (ownId d = some dest))))
  | 0x0B4 => put 0 2 g.state + put 8 8 g.round
  | 0x0B8 => g.capSlot
  | 0x0BC => g.capNs
  | 0x0C4 => put 0 8 x.result + (List.range 16).foldl (fun a e => a + put (8 + e) 1 (b2n (mget x.chains e).isSome)) 0
  | 0x0C8 => row 2 2 16 (fun e =>
      match mget x.chains e with
      | some c => b2n ((c.prev.map (fun l => l.isOpen)).getD false) + 2 * b2n ((c.next.map (fun l => l.isOpen)).getD false)
      | none => 0)
  | _ => 0

/-- SPK (R254). -/
def roSpk (d : Die) (off : Nat) : Nat :=
  match off with
  | 0x044 => put 0 1 (b2n d.spk.up) + put 1 3 d.spk.peerPhase + put 4 1 (b2n (holdsCoupled d))
  | 0x048 => put 0 16 (satField 16 d.spk.skewNs)
  | _ => 0

/-- HBM, MEM and SCB (R407 to R409). -/
def roMem (d : Die) (page off : Nat) : Nat :=
  let m := d.mem
  if page = pHBM then
    match off with
    | 0x040 => put 0 8 m.trained + put 8 8 m.tempC
    | 0x044 => capOf d pHBM 0x044
    | 0x048 => capOf d pHBM 0x048
    | 0x04C => put 0 16 m.pprUsed + put 16 16 m.pprLeft
    | _ => 0
  else if page = pMEM then
    match off with
    | 0x040 => put 0 10 (sumL m.spareLeft)
    | 0x044 => capOf d pMEM 0x044
    | _ => 0
  else
    match off with
    | 0x044 => put 0 11 m.track.length + put 16 11 (1024 - d.key.ext.length)
    | 0x048 => put 0 16 m.lastHbmS + put 16 16 m.lastSramMs
    | _ => 0

/-- Outputs whose command is on. -/
def outputsOn (w : Wdn) : List Nat := (List.range 4).filter (fun o => tst w.cmd o)

/-- WDN page 0x030 (R379). -/
def roWdn0 (d : Die) (off : Nat) : Nat :=
  let w := d.wdn
  if 0x04C ≤ off ∧ off ≤ 0x058 then
    let m := (off - 0x04C) / 4
    put 0 16 (u16At w.profile (8 + 4 * m)) + put 16 16 (u16At w.profile (10 + 4 * m))
  else
    match off with
    | 0x040 => put 0 2 (match w.state with | .start => 0 | .active => 1 | .cfgFault => 2 | .selfFault => 3) + put 2 1 (b2n w.sst)
        + put 3 1 (b2n w.xlinkUp) + put 4 1 (b2n w.referenced) + put 5 1 (b2n w.tickOk)
    | 0x044 => put 0 16 w.word + put 16 16 ((w.rx.map (fun f => f.word)).getD 0)
    | 0x048 => u32At w.switchDigest 0
    | 0x05C => put 0 8 w.sides + put 8 8 ((w.rx.map (fun f => f.contacts)).getD 0) + put 16 8 w.closed + put 24 8 w.discRun
    | 0x060 => put 0 4 w.cmd + put 4 4 w.readback + put 8 4 w.edm + put 12 4 ((w.testing.map (fun o => 2 ^ o)).getD 0)
    | 0x068 => put 0 4 w.hostStop
    | 0x06C => ((outputsOn w).map (fun o => (w.cycle - (w.pulseAt[o]?).getD 0) / 10)).foldl max 0
    | 0x070 => put 0 8 w.lastCause + put 8 4 w.lastIndex
    | 0x074 => w.lastSlot
    | _ => 0

/-- Codes of WDN_ZONE_STAT (R379). -/
def zoneCode : ZoneState → Nat
  | .unused => 0 | .brake => 1 | .run => 2 | .freewheel => 3 | .kickstand => 4

/-- WDN page 0x031 (R379). -/
def roWdn1 (d : Die) (off : Nat) : Nat :=
  let w := d.wdn
  let sel := field d (pWDN + 1) 0x07C 0
  if 0x044 ≤ off ∧ off ≤ 0x050 then
    let z := (off - 0x044) / 4
    put 0 16 (limitInForce w z) + put 16 16 (zone w z).permit
  else if 0x054 ≤ off ∧ off ≤ 0x060 then
    let z := (off - 0x054) / 4
    put 0 8 (zone w z).cause + put 8 8 (zone w z).index + put 16 8 (min 255 (rearmCount w z))
  else if 0x064 ≤ off ∧ off ≤ 0x070 then
    let z := (off - 0x064) / 4
    if (zone w z).state == .freewheel then put 0 16 (1000 * zByte w z 6 - (w.cycle - (zone w z).fwAt) / 10) else 0
  else
    match off with
    | 0x040 => row 3 3 4 (fun z => zoneCode (applied w z)) + put 12 4 (row 1 1 4 (fun z => b2n (follows w z)))
    | 0x074 => satField 32 (posUm w)
    | 0x078 => put 0 16 (satField 16 w.speed) + put 16 16 (satField 16 ((w.rx.map (fun f => f.speed)).getD 0))
    | 0x080 => (match mget w.watches sel with | some x => put 0 15 x.channel + put 15 1 1 + put 16 2 x.zone | none => 0)
    | 0x084 => (match mget w.watches sel with | some x => put 0 3 x.stage | none => 0)
    | _ => 0

/-- DBG while debug is unlocked (R255). (DEDUCED, log entry 155) -/
def roDbg (d : Die) (off : Nat) : Nat :=
  let g := d.dbg
  match off with
  | 0x044 => put 0 1 (b2n (dbgHalted d)) + put 1 1 (b2n g.refused) + put 2 1 (b2n g.diverged) + put 3 4 g.cls
  | 0x048 => (core d (dbgLead d)).pc
  | 0x050 => put 0 16 (sumL (g.log.map (fun s => s.r.length.toNat))) + put 16 1 (b2n g.complete) + put 17 1 (b2n g.truncated)
  | _ => 0

/-- The read-only part of a register, and the part that the state holds in a place of its own. -/
def roWord (peer d : Die) (page off : Nat) : Nat :=
  match blkCode page with
  | 1 => roGlb d off
  | 2 => roFcu d off
  | 3 => roTim d off
  | 4 => roCad d off
  | 5 => roChn d off
  | 6 => roRat d (page - pRAT) off
  | 7 => roVp d (page - pVP) off
  | 8 => roRes d off
  | 9 => roTiles d 9 4 off
  | 10 => roTiles d 10 4 off
  | 11 => roCwe d off
  | 12 => roSnt d off
  | 13 => roShk d off
  | 14 => roSig d off
  | 15 => roKey d off
  | 16 => roWlk d off
  | 17 => roWrd d off
  | 18 => roIng peer d (page - pING) off
  | 19 => roHst d off
  | 20 => roPel d (page - pPEL) off
  | 21 => roSpk d off
  | 22 => roMem d page off
  | 23 => roMem d page off
  | 24 => roMem d page off
  | 25 => if page = pWDN then roWdn0 d off else roWdn1 d off
  | 26 => roDbg d off
  | _ => 0

/-! ## Registers that software writes -/

/-- A writable field whose value the state holds elsewhere, so that `roWord` shows it: the increment, trigger fields, ratchets, a ring
tail, entries of the gate list. -/
def heldElsewhere (page off : Nat) : Bool :=
  (page == pTIM && (off == 0x04C || off == 0x094 || off == 0x098 || off == 0x09C || off == 0x0A0))
    || (decide (pRAT ≤ page) && decide (page ≤ pRAT + 3) && decide (0x044 ≤ off) && decide (off ≤ 0x04C))
    || (page == pCHN && off == 0x054) || (page == pHST && decide (0x100 ≤ off) && decide (off ≤ 0x17C))

/-- The writable fields at an offset of a page. -/
def rwAt (page off : Nat) : List FieldSpec := if heldElsewhere page off then [] else fieldsAt page off

/-- What a writable field reads: a Staged write that waits for its boundary, else the value in force (R470).
(DEDUCED, log entry 154) -/
def rwValue (d : Die) (page off : Nat) (f : FieldSpec) : Nat :=
  let sel := selOf d page off
  let k := fkey sel page off f.lo
  mgetD d.regs.late k (mgetD d.regs.staged k (fieldSel d sel page off f.lo))

/-- The writable fields' part of a word. -/
def rwWord (d : Die) (page off : Nat) : Nat := ((rwAt page off).map (fun f => put f.lo f.wd (rwValue d page off f))).foldl (· + ·) 0

/-- A field that clears on read: its lowest bit and width at an offset. -/
def rcAt (page off : Nat) : List (Nat × Nat) :=
  (rcFields.filter (fun f => f.1 == tabCode page && f.2.1 ≤ off && off < f.2.1 + 4 * f.2.2.1 && (off - f.2.1) % 4 == 0)).map
    (fun f => (f.2.2.2.1, f.2.2.2.2))

/-- What a peak register shows besides what it has kept: the value now. (DEDUCED, log entry 36) -/
def peakNow (d : Die) (page off : Nat) : Nat :=
  if page = pWRD ∧ 0x064 ≤ off ∧ off ≤ 0x078 then ringFill d ((off - 0x064) / 4) / 16
  else if page = pCHN ∧ off = 0x05C then d.chn.tickets.length
  else if page = pCHN ∧ off = 0x060 then d.chn.cache.length
  else 0

/-- The clearing fields' part of a word; GLB_TEMP's peak stands in FCU's state. (DEDUCED, log entry 36) -/
def rcWord (d : Die) (page off : Nat) : Nat :=
  if page = pGLB then 0
  else ((rcAt page off).map (fun f =>
    put f.1 f.2 (min (2 ^ f.2 - 1) (max (mgetD d.regs.cnt (wkey page off) 0) (peakNow d page off))))).foldl (· + ·) 0

/-! ## The common header (R467) -/

/-- A Staged write of the page awaits its boundary. -/
def stagePending (d : Die) (page : Nat) : Bool :=
  (d.regs.staged ++ d.regs.late).any (fun e => e.1 / 32 / 4096 % 64 == stagePage page)

/-- The page has Staged fields (R472). -/
def hasStaged (page : Nat) : Bool := rwFields.any (fun f => f.blk == tabCode page && f.eff == .staged)

/-- The page, channel and register that stand for both Warden pages' errors: page 0x031 holds none of its own. -/
def headWord (d : Die) (page off : Nat) : Nat :=
  let e := errPage d page
  match off with
  | 0x000 => put 0 8 (blkCode page) + put 8 4 (blkInstance page) + put 12 1 d.which.num + put 16 16 0x0100
  | 0x004 => b2n (pageEnabled d page)
  | 0x008 => put 0 1 (b2n (pageEnabled d page)) + put 1 1 (b2n (stagePending d page)) + put 2 1 (b2n (e.err != 0)) + put 3 1 (b2n (errPin d page))
  | 0x00C => e.err
  | 0x010 => e.mask
  | 0x018 => put 0 5 e.fBit + put 5 1 (b2n e.fForced) + put 8 8 e.fMore + put 31 1 (b2n e.fValid)
  | 0x01C => (errPage d (stagePage page)).stage
  | _ => 0

/-! ## Reading -/

/-- What a read does besides: it clears the fields that clear on read and latches the halves that go with a word. -/
def readEffect (page off : Nat) (d : Die) : Die :=
  let d := if (rcAt page off).isEmpty then d
    else if page = pGLB then updFcu (fun f => { f with tjPeak := f.tj }) d
    else { d with regs := { d.regs with cnt := mdel d.regs.cnt (wkey page off) } }
  if page = pTIM ∧ off = 0x040 then updTim (fun t => { t with latchHi := t.ns / 4294967296, latchFrac := t.frac }) d
  else if page = pTIM ∧ off = 0x06C then
    let pos := airPos d.tim
    updTim (fun t => { t with latchPos := pos }) d
  else if page = pSIG ∧ off = 0x04C then updSealing (fun s => { s with hiLatch := s.lastNo / 4294967296 }) d
  else if pRAT ≤ page ∧ page ≤ pRAT + 3 ∧ off = 0x048 then
    let hi := (ratchet d (1024 * (page - pRAT) + field d page 0x040 0)).value / 4294967296
    updRat (fun r => { r with hiLatch := mset r.hiLatch (page - pRAT) hi }) d
  else if pRAT ≤ page ∧ page ≤ pRAT + 3 ∧ off = 0x04C then updRat (fun r => { r with hiLatch := mdel r.hiLatch (page - pRAT) }) d
  else d

/-- Read a register past the header of its page. -/
def bodyRead (peer : Die) (page off : Nat) (d : Die) : Nat × Die :=
  ((rwWord d page off + rcWord d page off + roWord peer d page off) % 4294967296, readEffect page off d)

/-- Read a register of a die: the value, and the die after it. Address bits [1:0] are ignored, and a page beyond the
listed ones reads as zero. -/
def regRead (peer : Die) (addr : Nat) (d : Die) : Nat × Die :=
  let page := addr / 4096
  let off := addr % 4096 / 4 * 4
  if pageDark d page then (0, d)
  else if off < 0x020 then (headWord d page off, d)
  else bodyRead peer (homePage page off) off d

end Sys2Proof.Machine
end

