-- ==== Sys2Proof/Machine/RegWrite.lean ====
section
/-! DEFINITION. Writing a register (R8, R11 to R13, R464, R465, R467, R468, R470, R473, R474): the header of a page, the
registers that act, and the fields that hold what software writes, with their clamps. -/

namespace Sys2Proof.Machine

/-- The state that a command's meaning leaves. -/
def after (o : Host.Outcome State Fault Refusal) (s : State) : State :=
  match o with
  | .next t => t
  | _ => s

/-- Do something where a bit is written 1. (DESIGN CHOICE, log entry 156) -/
def onBit (v b : Nat) (f : State → Host.Outcome State Fault Refusal) (s : State) : State := if tst v b then after (f s) s else s

/-- Bits `[lo + wd - 1 : lo]` of a word. -/
def bitField (lo wd v : Nat) : Nat := v / 2 ^ lo % 2 ^ wd

/-! ## BLK_CTRL.enable (R468, R469) -/

/-- The Static values written while a page was disabled come into force. (DEDUCED, log entry 154) -/
def commitHeld (page : Nat) (d : Die) : Die :=
  let mine := d.regs.held.filter (fun e => e.1 / 32 / 4096 % 64 == page)
  updRegs (fun r => { r with
    live := mine.foldl (fun m e => mset m e.1 e.2) r.live
    held := r.held.filter (fun e => e.1 / 32 / 4096 % 64 != page) }) d

/-- An enabled stream entry names a port. -/
def portNamed (d : Die) (port : Nat) : Bool := (List.range 16).any (fun s => streamOn d s && strm d s 0x058 1 == port)

/-- A write of 1 to a page that is disabled: its Static values come into force; WLK leaves OFF.
(DEDUCED, log entry 159) -/
def enablePage (page : Nat) (d : Die) : Die :=
  let d := commitHeld page (updRegs (fun r => { r with enabled := page :: r.enabled }) d)
  if page = pWLK ∧ d.wlk.state = .off then linkRestore d else d

/-- A write of 0 is accepted: WLK in OFF and RETIRED, a port of ING while no enabled stream entry names it, PEL and HST
at any time. -/
def mayDisable (d : Die) (page : Nat) : Bool :=
  if page = pWLK then d.wlk.state == .off || d.wlk.state == .retired
  else if page = pING ∨ page = pING + 1 then !portNamed d (page - pING)
  else true

/-- A write of 0 that is accepted: RETIRED moves to OFF, a Peloton link and the host link fall.
(DEDUCED, log entry 159) -/
def disablePage (page : Nat) (d : Die) : Die :=
  let d := if page = pWLK then updWlk (fun w => { w with state := .off }) d
    else if page = pHST then hostLink false d
    else if pPEL ≤ page then loseGates (pelLink (page - pPEL) false d)
    else d
  updRegs (fun r => { r with enabled := r.enabled.filter (fun p => p != page) }) d

/-- A write of BLK_CTRL. (DEDUCED, log entry 159) -/
def blkCtrl (page v : Nat) (d : Die) : Die :=
  if d.phase == .frost || !hasEnable page || pageDark d page then d
  else if tst v 0 then (if d.regs.enabled.contains page then d else enablePage page d)
  else if d.regs.enabled.contains page && mayDisable d page then disablePage page d
  else d

/-- BLK_CTRL_ENABLE_WRITE: the other die notes the host link, which it replicates over. -/
def execBlkCtrlEnableWrite (d : DieId) (page : BitVec 6) (value : Word) (s : State) : Host.Outcome State Fault Refusal :=
  let s := onDie d (blkCtrl page.toNat value.toNat) s
  let up := (s.die d).hst.linkUp
  .next (if page.toNat = pHST then onDie d.other (updHst (fun h => { h with peerLink := up })) s else s)

/-! ## Fields (R12, R470, R473) -/

/-- A lane order is a permutation of the eight lanes. -/
def lanesOk (v : Nat) : Bool := (List.range 8).all (fun p => (List.range 8).any (fun n => bitField (3 * n) 3 v == p))

/-- SIG_SEAL_CFG.period_sym at a numerology: zero, or within 125 µs to 100 ms (R214). -/
def clampPeriod (mu v : Nat) : Nat :=
  if v = 0 then 0
  else
    match mu with
    | 0 => clamp 2 1400 v
    | 1 => clamp 4 2800 v
    | 2 => clamp 7 5600 v
    | _ => clamp 14 11200 v

/-- The legal value of a field of a written word. -/
def clampField (d : Die) (page off : Nat) (f : FieldSpec) (word : Nat) : Nat :=
  let v := bitField f.lo f.wd word
  if page = pWLK ∧ off = 0x040 then (if v = 0 then 3 else v)
  else if page = pWLK ∧ (off = 0x044 ∨ off = 0x0A0) ∧ f.lo = 0 then (if lanesOk v then v else 0xFAC688)
  else if page = pWLK ∧ off = 0x05C ∧ f.lo = 0 then
    min (clamp 64 448 v) (512 - clamp 16 96 (bitField 10 10 word) - clamp 8 32 (bitField 20 10 word))
  else if (page = pING ∨ page = pING + 1) ∧ off = 0x040 ∧ f.lo = 2 then (if v = 0 ∨ v = 4095 then 1 else v)
  else if page = pING ∧ off = 0x058 ∧ f.lo = 2 then (if v = 0 ∨ v = 3 then 1 else v)
  else if page = pSIG ∧ off = 0x040 ∧ f.lo = 0 then clampPeriod d.tim.mu v
  else
    match f.range with
    | some (lo, hi) => clamp lo hi v
    | none => v

/-- A write of STRICT is discarded (R474). (DEDUCED, log entry 160) -/
def strictDiscarded (d : Die) (v : Nat) : Bool :=
  holdsCoupled d ||
    (if v = 0 then d.adm.models.any (fun e => !admitting e.2 && e.2.manifest.strictReq)
      else d.adm.models.any (fun e => !admitting e.2 && e.2.prog.mayVary))

/-- A state condition locks a field: the write is discarded (R334, R474). (DEDUCED, log entry 160) -/
def fieldLocked (d : Die) (page off lo v : Nat) : Bool :=
  (page == pTIM && off == 0x058 && lo == 2 && !d.cad.active.isDefault)
    || (page == pGLB && off == 0x04C && strictDiscarded d v)

/-- ns to the next slot boundary: that of the new timeline where a step of air-time is decided (R338). -/
def toBoundaryNs (t : Tim) : Nat :=
  match t.step with
  | some st => (stepBoundary t st).2
  | none => toNextSlot t

/-- The final 100 ns before a slot boundary that commits run: a Staged write may miss it (R14); one of Thaw waits for the first
boundary of Spring. (DESIGN CHOICE, log entry 161) -/
def lastMoment (d : Die) : Bool :=
  (d.phase == .spring || d.phase == .summer || d.phase == .autumn) && decide (toBoundaryNs d.tim ≤ 100)

/-- Write one field by its class: Live is in force at once, Staged waits for the slot boundary or, being late, for the one
after it, Static is taken while its block is disabled. (DESIGN CHOICE, log entry 161) -/
def writeField (late : Bool) (page off word : Nat) (d : Die) (f : FieldSpec) : Die :=
  let v := clampField d page off f word
  let sel := selOf d page off
  if fieldLocked d page off f.lo v then d
  else
    match f.eff with
    | .live => setField sel page off f.lo v d
    | .staged =>
      let k := fkey sel page off f.lo
      updRegs (fun r => if late then { r with late := mset r.late k v } else { r with staged := mset r.staged k v, late := mdel r.late k }) d
    | .static =>
      if d.regs.enabled.contains page then d
      else updRegs (fun r => { r with held := mset r.held (fkey sel page off f.lo) v }) d

/-- Write every writable field at an offset. A free draw says whether Staged fields written at the last moment are late.
(DESIGN CHOICE, log entry 161) -/
def writeFields (page off word : Nat) (d : Die) : Die :=
  if lastMoment d && (rwAt page off).any (fun f =>
      f.eff == .staged && !fieldLocked d page off f.lo (clampField d page off f word)) then
    (rwAt page off).foldl (writeField (freeNat d % 2 == 1) page off word) (drew d)
  else (rwAt page off).foldl (writeField false page off word) d

/-! ## Registers that act -/

/-- Clear the valid bit 31 of a captured word. -/
def capClear (page off v : Nat) (d : Die) : Die := if tst v 31 then setCap page off (capOf d page off % 2147483648) d else d

/-- FCU (R406). -/
def writeFcu (d : DieId) (off : Nat) (v : Word) (s : State) : Option State :=
  let n := v.toNat
  match off with
  | 0x040 => some (after (execFcuSrcClear d false v s) s)
  | 0x044 => some (after (execFcuSrcClear d true v s) s)
  | 0x050 => some (after (execFcuAck d v s) s)
  | 0x054 => some (onDie d (updFcu (fun f => if tst n 31 then { f with first := { f.first with valid := false } } else f)) s)
  | 0x060 => some (onDie d (updFcu (fun f => if tst n 31 then { f with second := { f.second with valid := false } } else f)) s)
  | 0x06C => some (onDie d (updFcu (fun f => { f with echo := f.echo - (f.echo &&& n) })) s)
  | 0x070 => some (onDie d (updFcu (fun f => { f with echo := f.echo - (f.echo &&& (n * 4294967296)) })) s)
  | _ => none

/-- A write to TIM_PTP_EPOCH_HI applies both halves: the low one as last written, if it has been since the last such write
(R350). -/
def epochWrite (hi : Nat) (d : Die) : Die :=
  let d' := writeFields pTIM 0x064 hi d
  match d.tim.epochLo with
  | some lo => updTim (fun t => { t with epochLo := none }) (writeFields pTIM 0x060 lo d')
  | none => d'

/-- TIM (R350). Trigger fields act on the trigger that TIM_TRIG_SEL names. (DEDUCED, log entry 158) -/
def writeTim (d : DieId) (off : Nat) (v : Word) (s : State) : Option State :=
  let n := v.toNat
  let off_ := (s.die d).tim.ptp == .disabled
  let sel := field (s.die d) pTIM 0x090 0
  match off with
  | 0x04C => some (onDie d (updTim (fun t => if off_ then { markAir t with incr := clampIncr n } else t)) s)
  | 0x050 => some (onDie d (updTim (fun t => if off_ then { t with stepLo := n } else t)) s)
  | 0x054 => some (if off_ then after (execTimStep d (BitVec.ofNat 64 ((s.die d).tim.stepLo + 4294967296 * n)) s) s else s)
  | 0x060 => some (onDie d (updTim (fun t => { t with epochLo := some n })) s)
  | 0x064 => some (onDie d (epochWrite n) s)
  | 0x074 => some (onDie d (fun x => timeMoved (writeFields pTIM 0x074 n x)) s)
  | 0x08C => some (onBit n 1 (execTimCmdAtReacquire d) (onBit n 0 (execTimCmdAsymAccept d) s))
  | 0x094 => some (onDie d (modTrig sel (fun t => { t with
      mode := if bitField 0 2 n = 3 then 0 else bitField 0 2 n, symbol := min 13 (bitField 2 4 n) })) s)
  | 0x098 => some (onDie d (modTrig sel (fun t => { t with lo := n })) s)
  | 0x09C => some (after (execTimTrigTgtHi d v s) s)
  | 0x0A0 => some (onDie d (modTrig sel (fun t => { t with period := n })) s)
  | 0x0A4 => some (onDie d (updTim (fun t => { t with fired := t.fired - (t.fired &&& n) })) s)
  | _ => none

/-- CAD (R282). -/
def writeCad (d : DieId) (off : Nat) (v : Word) (s : State) : Option State :=
  let n := v.toNat
  match off with
  | 0x048 => some (onBit n 2 (execCadCmdDiscard d) (onBit n 1 (execCadCmdSwap d) (onBit n 0 (execCadCmdLoadStandby d) s)))
  | 0x04C => some (onDie d (capClear pCAD 0x04C n) s)
  | _ => none

/-- CHN (R299). -/
def writeChn (d : DieId) (off : Nat) (v : Word) (s : State) : Option State :=
  let c : BitVec 15 := BitVec.ofNat 15 (bitField 4 15 v.toNat)
  match off with
  | 0x040 =>
    match bitField 0 4 v.toNat with
    | 1 => some (after (execChnCmdCreate d c s) s)
    | 2 => some (after (execChnCmdPause d c s) s)
    | 3 => some (after (execChnCmdResume d c s) s)
    | 4 => some (after (execChnCmdClose d c s) s)
    | 5 => some (after (execChnCmdRetire d c s) s)
    | 6 => some (after (execChnCmdFree d c s) s)
    | 7 => some (after (execChnCmdRead d c s) s)
    | 8 => some (after (execChnCmdSave d c s) s)
    | 9 => some (after (execChnCmdRestore d c s) s)
    | _ => some s
  | 0x054 => some (after (execChnRingTail d (BitVec.ofNat 15 (field (s.die d) pCHN 0x048 0)) v s) s)
  | _ => none

/-- RAT, page q (R301). -/
def writeRat (d : DieId) (q off : Nat) (v : Word) (s : State) : Option State :=
  let r : BitVec 12 := BitVec.ofNat 12 (1024 * q + field (s.die d) (pRAT + q) 0x040 0)
  match off with
  | 0x044 => some (after (execRatCfgOwner d r (BitVec.ofNat 2 v.toNat) s) s)
  | 0x048 => some (after (execRatValLo d r v s) s)
  | 0x04C => some (after (execRatValHi d r v s) s)
  | _ => none

/-- VP, pipeline n (R252). -/
def writeVp (d : DieId) (p off : Nat) (v : Word) (s : State) : Option State :=
  let n := v.toNat
  let t : BitVec 2 := BitVec.ofNat 2 (min 2 (bitField 0 2 n))
  let lane : BitVec 3 := BitVec.ofNat 3 p
  match off with
  | 0x040 => some (onBit n 2 (execVpPairCmdStart d t) s)
  | 0x050 => some (onBit n 1 (execVpCmdRetire d lane) (onBit n 0 (execVpCmdInject d lane) s))
  | 0x054 => some (onDie d (capClear (pVP + p) 0x054 n) s)
  | _ => none

/-- RES, BND, NLE and CWE: the tile command and the capture (R140, R162, R164, R187). -/
def writeTiles (d : DieId) (blk off : Nat) (v : Word) (s : State) : Option State :=
  let n := v.toNat
  let t : BitVec 5 := BitVec.ofNat 5 (bitField 0 5 n)
  let page := unitPage blk
  if off = (if blk = 8 then 0x058 else 0x05C) then
    some (match blk with
      | 8 => onBit n 9 (execResCmdSelfTest d t) (onBit n 8 (execResCmdRetire d t) s)
      | 9 => onBit n 9 (execBndCmdSelfTest d t) (onBit n 8 (execBndCmdRetire d t) s)
      | 10 => onBit n 9 (execNleCmdSelfTest d t) (onBit n 8 (execNleCmdRetire d t) s)
      | _ => onBit n 9 (execCweCmdSelfTest d t) (onBit n 8 (execCweCmdRetire d t) s))
  else if off = capBase page then some (onDie d (capClear page off n) s)
  else none

/-- SNT (R319). -/
def writeSnt (d : DieId) (off : Nat) (v : Word) (s : State) : Option State :=
  let n := v.toNat
  let u : BitVec 9 := BitVec.ofNat 9 (bitField 0 9 n)
  let i : BitVec 4 := BitVec.ofNat 4 (bitField 16 4 n)
  match off with
  | 0x044 => some (onBit n 21 (execSntCmdUnload d i) (onBit n 20 (execSntCmdLoad d i)
      (onBit n 10 (execSntCmdSelfTest d u) (onBit n 9 (execSntCmdRetire d u) s))))
  | _ => none

/-- SHK (R227). -/
def writeShk (d : DieId) (off : Nat) (v : Word) (s : State) : Option State :=
  let n := v.toNat
  let c : BitVec 3 := BitVec.ofNat 3 (bitField 0 3 n)
  match off with
  | 0x04C => some (onBit n 9 (execShkCmdSelfTest d c) (onBit n 8 (execShkCmdRetire d c) s))
  | _ => none

/-- SIG (R230). -/
def writeSig (d : DieId) (off : Nat) (v : Word) (s : State) : Option State :=
  let n := v.toNat
  match off with
  | 0x048 => some (onBit n 2 (execSigCmdRetire1 d) (onBit n 1 (execSigCmdRetire0 d) (onBit n 0 (execSigCmdCut d) s)))
  | _ => none

/-- KEY (R439). -/
def writeKey (d : DieId) (off : Nat) (v : Word) (s : State) : Option State :=
  match off with
  | 0x0BC => some (onBit v.toNat 1 (execKeyCmdReload d) (onBit v.toNat 0 (execKeyCmdLock d) s))
  | _ => none

/-- WLK (R54). -/
def writeWlk (d : DieId) (off : Nat) (v : Word) (s : State) : Option State :=
  let n := v.toNat
  match off with
  | 0x04C => some (onBit n 3 (execWlkCmdRetire d) (onBit n 2 (execWlkCmdRestore d)
      (onBit n 1 (execWlkCmdResync d) (onBit n 0 (execWlkCmdRetrain d) s))))
  | _ => none

/-- Write an entry of the admin bank (R344, R352). -/
def writeGate (i word : Nat) (d : Die) : Die :=
  let e := (bitField 0 4 word, clamp 64 268435455 (bitField 4 28 word))
  updHst (fun h => if h.operBank = 0 then { h with bank1 := mset h.bank1 i e } else { h with bank0 := mset h.bank0 i e }) d

/-- HST (R352): HST_QBV_CFG holds fields beside its swap bit, which acts after them. (DESIGN CHOICE, log entry 156) -/
def writeHst (d : DieId) (off : Nat) (v : Word) (s : State) : Option State :=
  let n := v.toNat
  if off = 0x054 then some (onBit n 7 (execHstQbvCfgSwap d) (onDie d (writeFields pHST 0x054 n) s))
  else if 0x100 ≤ off ∧ off ≤ 0x17C then some (onDie d (writeGate ((off - 0x100) / 4) n) s)
  else none

/-- PEL, port 0's page, where what the die has once stands (R454). -/
def writePel (d : DieId) (off : Nat) (v : Word) (s : State) : Option State :=
  let n := v.toNat
  let g : BitVec 4 := BitVec.ofNat 4 (field (s.die d) pPEL 0x094 0)
  let e : BitVec 4 := BitVec.ofNat 4 (bitField 0 4 n)
  match off with
  | 0x088 => some (onBit n 0 (execPelCmdForm d) s)
  | 0x0B0 => some (onBit n 0 (execPelGateCmdArrive d g) s)
  | 0x0C0 =>
    match bitField 4 3 n with
    | 1 => some (after (execPelChainCmdLoad d e s) s)
    | 2 => some (after (execPelChainCmdClear d e s) s)
    | 3 => some (after (execPelChainCmdRead d e s) s)
    | 4 => some (after (execPelChainCmdSwitchPrev d e s) s)
    | 5 => some (after (execPelChainCmdSwitchNext d e s) s)
    | _ => some s
  | _ => none

/-- WDN_CMD: a stop bit of the same write wins over a release (R379). (DESIGN CHOICE, log entry 156) -/
def writeWdn (d : DieId) (off : Nat) (v : Word) (s : State) : Option State :=
  let stop := bitField 0 4 v.toNat
  let rel := bitField 4 4 v.toNat
  match off with
  | 0x064 =>
    let s := after (execWdnCmdRelease d (BitVec.ofNat 4 (rel - (rel &&& stop))) s) s
    some (after (execWdnCmdStop d (BitVec.ofNat 4 stop) s) s)
  | _ => none

/-- DBG (R255): what a replay finds is a free value, 0 for no difference, else the class of the point.
(DESIGN CHOICE, log entries 117, 156) -/
def writeDbg (d : DieId) (off : Nat) (v : Word) (s : State) : Option State :=
  let n := v.toNat
  match off with
  | 0x040 =>
    let s := onDie d (writeFields pDBG 0x040 n) s
    let s := onBit n 3 (execDbgCtrlHalt d (BitVec.ofNat 3 (bitField 0 3 n))) s
    let s := onBit n 5 (execDbgCtrlResume d) (onBit n 4 (execDbgCtrlStep ⟨d, []⟩) s)
    let free := freeNat (s.die d)
    some (if tst n 6 then onBit n 6 (execDbgCtrlReplay d ⟨BitVec.ofNat 4 (free % 8), BitVec.ofNat 32 (free / 8)⟩) (onDie d drew s)
      else s)
  | 0x044 => some (onDie d (updDbg (fun g => if tst n 1 then { g with refused := false } else g)) s)
  | 0x04C => some (if tst n 15 then after (execDbgLogCfgArm d (BitVec.ofNat 15 (bitField 0 15 n)) s) s
      else onDie d (writeFields pDBG 0x04C n) s)
  | _ => none

/-- The registers of a page that act, by block code. -/
def writeAct (d : DieId) (page off : Nat) (v : Word) (s : State) : Option State :=
  match blkCode page with
  | 2 => writeFcu d off v s
  | 3 => writeTim d off v s
  | 4 => writeCad d off v s
  | 5 => writeChn d off v s
  | 6 => writeRat d (page - pRAT) off v s
  | 7 => writeVp d (page - pVP) off v s
  | 8 => writeTiles d 8 off v s
  | 9 => writeTiles d 9 off v s
  | 10 => writeTiles d 10 off v s
  | 11 => writeTiles d 11 off v s
  | 12 => writeSnt d off v s
  | 13 => writeShk d off v s
  | 14 => writeSig d off v s
  | 15 => writeKey d off v s
  | 16 => writeWlk d off v s
  | 19 => writeHst d off v s
  | 20 => if page = pPEL then writePel d off v s else none
  | 22 => if off = 0x044 then some (onDie d (capClear pHBM 0x044 v.toNat) s) else none
  | 23 => if off = 0x044 then some (onDie d (capClear pMEM 0x044 v.toNat) s) else none
  | 25 => if page = pWDN then writeWdn d off v s else none
  | 26 => writeDbg d off v s
  | _ => none

/-! ## The header (R467) -/

/-- A write to the header of a page. -/
def writeHead (d : DieId) (page off : Nat) (v : Word) (s : State) : State :=
  let p : BitVec 6 := BitVec.ofNat 6 page
  let e := errPage (s.die d) page
  match off with
  | 0x004 => after (execBlkCtrlEnableWrite d p v s) s
  | 0x00C => after (execBlkErrClear d p v s) s
  | 0x010 => onDie d (writeMask page v.toNat) s
  | 0x014 => after (execBlkErrForce d p v s) s
  | 0x018 => if tst v.toNat 31 then onDie d (setErrPage page { e with fValid := false }) s else s
  | _ => s

/-! ## Writing -/

/-- A write to a register past the header of its page. -/
def bodyWrite (d : DieId) (page off : Nat) (v : Word) (s : State) : State :=
  match writeAct d page off v s with
  | some t => t
  | none => onDie d (writeFields page off v.toNat) s

/-- A write to a register of a die. Address bits [1:0] are ignored, as is a write to a page that is dark or to a die in
Frost, which has no port. (DEDUCED, log entry 157) -/
def regWrite (d : DieId) (addr : Nat) (v : Word) (s : State) : State :=
  let page := addr / 4096
  let off := addr % 4096 / 4 * 4
  if (s.die d).phase == .frost || pageDark (s.die d) page then s
  else if off < 0x020 then writeHead d page off v s
  else bodyWrite d (homePage page off) off v s

/-- REGISTER_WRITE. -/
def execRegisterWrite (d : DieId) (addr : BitVec 24) (value : Word) (s : State) : Host.Outcome State Fault Refusal :=
  .next (regWrite d addr.toNat value s)

/-- GLB_MODE.strict: staged unless R474 discards it. -/
def execGlbModeStrict (d : DieId) (strict : Bool) (s : State) : Host.Outcome State Fault Refusal :=
  .next (regWrite d 0x04C (BitVec.ofNat 32 (b2n strict)) s)

end Sys2Proof.Machine
end

