-- ==== Sys2Proof/Machine/Pannier.lean ====
section
/-! DEFINITION. Pannier frames that a die receives: sessions, roles, requests, commands and bulk transfer (R423, R427 to
R437, R458, R462). -/

namespace Sys2Proof.Machine

/-! ## A frame arrives (R345, R346, R427, R429) -/

/-- Bytes of a frame on the port: header, payload and tag, with Ethernet, IP and UDP headers and the FCS.
(DEDUCED, log entry 167) -/
def pannierSize (f : PFrame) : Nat := f.payload.length + 110

/-- The port takes the frame: its filters and its recovery pass it, and its payload is no longer than a frame may carry.
(DEDUCED, log entry 167) -/
def arrives (f : PFrame) (d : Die) : Bool × Die :=
  let r := hostTake f.vid.toNat f.pcp.toNat (pannierSize f) (f.rtag.map (fun q => q.toNat)) f.viaPeer d
  (r.1 && decide (f.payload.length ≤ 1408), r.2)

/-- The tag that a frame should carry in a session. -/
def upTag (typ : Nat) (s : Session) (f : PFrame) : Bytes :=
  frameTag s.kUp (frameHead typ f.session.toNat f.seq.toNat f.payload.length 0 f.flags.toNat f.ref.toNat f.offset.toNat
    ++ f.payload)

/-- A frame of a session carries a wrong tag. -/
def badTag (id : Nat) (d : Die) : Die :=
  raise pKEY 5 (count pKEY 0x0C0 (modSession id (fun s => { s with tagFails := (d.tim.up :: s.tagFails).take 64 }) d))

/-- A number is at most 64 below the highest one accepted. -/
def numberOk (s : Session) (n : Nat) : Bool := n != 0 && decide (s.upHigh ≤ n + 64)

/-- A frame of a session is accepted: its number is noted, and the session has been heard. (DEDUCED, log entry 170) -/
def noteFrame (id n : Nat) (d : Die) : Die :=
  modSession id (fun s =>
    let high := max s.upHigh n
    { s with upHigh := high, upSeen := n :: s.upSeen.filter (fun q => decide (high ≤ q + 64)), lastNs := d.tim.up }) d

/-- Egress class of the answer to a frame type: bulk transfer 0, other frames 2 (R344). -/
def answerClass (typ : Nat) : Nat := if typ = 0x20 ∨ typ = 0x21 then 0 else 2

/-- A request whose number has been accepted before is answered again from the cache. (DEDUCED, log entry 170) -/
def answerAgain (typ : Nat) (s : Session) (n : Nat) (d : Die) : Die :=
  match s.cache.find? (fun e => e.1 == n) with
  | some e => sendRaw (answerClass typ) e.2 d
  | none => d

/-- What a die does with a frame of an open session before it acts on it: the session, where the frame is to be acted on,
and the die after it. -/
def takeRequest (typ : Nat) (f : PFrame) (d : Die) : Option Session × Die :=
  match arrives f d with
  | (false, d) => (none, d)
  | (true, d) =>
    match session d f.session.toNat with
    | none => (none, d)
    | some s =>
      if !s.isOpen then (none, d)
      else if f.tag ≠ upTag typ s f then (none, badTag s.id d)
      else if !numberOk s f.seq.toNat then (none, d)
      else if s.upSeen.contains f.seq.toNat then (none, answerAgain typ s f.seq.toNat d)
      else (some s, noteFrame s.id f.seq.toNat d)

/-- Act on an accepted request. -/
def onRequest (typ : Nat) (d : DieId) (f : PFrame) (run : Session → State → State) (s : State) : Host.Outcome State Fault Refusal :=
  let r := takeRequest typ f (s.die d)
  let s := s.setDie d r.2
  .next (match r.1 with
    | some x => run x s
    | none => s)

/-- Act on an accepted request by its own die alone. -/
def dieRequest (typ : Nat) (d : DieId) (f : PFrame) (run : Session → Die → Die) (s : State) : Host.Outcome State Fault Refusal :=
  onRequest typ d f (fun x => onDie d (run x)) s

/-- RESULT with a status. -/
def result (x : Session) (f : PFrame) (status : Nat) (payload : Bytes) : Die → Die := sendResult x.id f.seq.toNat status 0 payload

/-- RESULT with status 5 and a code. (DEDUCED, log entry 171) -/
def resultCode (x : Session) (f : PFrame) (code : Nat) : Die → Die := result x f 5 (leBytes 4 code)

/-- RESULT with status 5 where the spec names no code: the code is a free value. (DEDUCED, log entry 171) -/
def resultFree (x : Session) (f : PFrame) (d : Die) : Die := resultCode x f (w32 (freeNat d)) (drew d)

/-- A COMMAND frame of a code: refused whole where its role lacks it, malformed where its payload is not laid out so. -/
def onCommand (code len : Nat) (roles : List Nat) (x : Session) (f : PFrame) (run : Die → Die) (d : Die) : Die :=
  if !roles.contains x.role then result x f 2 [] d
  else if u16At f.payload 0 ≠ code ∨ f.payload.length < 4 + len then result x f 3 [] d
  else run d

/-! ## Opening a session (R428, R429) -/

/-- A session is not opened. (DEDUCED, log entry 169) -/
def refuseSession (d : Die) : Die := raise pKEY 4 (count pKEY 0x0C4 d)

/-- OPEN can be answered: its role exists, and the die has room for the session. (DEDUCED, log entry 169) -/
def openAllowed (d : Die) (p : Bytes) : Bool :=
  let role := byteAt p 0
  p.length == 144 && decide (1 ≤ role) && decide (role ≤ 3) && decide (d.key.sessions.length < 8)
    && !(role == 3 && d.key.sessions.any (fun s => s.role == 3))

/-- OPEN_ACK bytes 0 to 111: session id, the device's ephemeral key, its nonce, its identity digest.
(DEDUCED, log entry 169) -/
def ackHead (d : Die) (id : Nat) (eph nonce : Bytes) : Bytes := leBytes 4 id ++ zeros 4 ++ eph ++ nonce ++ fitTo 32 d.key.device

/-- Answer OPEN: the session waits for its CONFIRM. (DEDUCED, log entry 169; DESIGN CHOICE, log entry 182) -/
def openSession (p : Bytes) (d : Die) : Die :=
  let secret := freeStr 56 d
  let d := drew d
  let nonce := freeStr 16 d
  let d := drew d
  let id := d.key.nextId
  let head := ackHead d id (x448Public secret) nonce
  let t := h32 (p ++ head)
  let z := x448 secret (slice p 8 56)
  let s : Session :=
    { id := id, role := byteAt p 0, client := slice p 64 57, t := t, lastNs := d.tim.up
      kUp := kmac256 z t 32 (ascii "HW2240 pannier up"), kDown := kmac256 z t 32 (ascii "HW2240 pannier down") }
  let d := updKey (fun k => { k with sessions := k.sessions ++ [s], nextId := max 1 (w32 (id + 1)) }) d
  sendRaw 2 (frameBytes 2 id 0 0 0 0 0 (head ++ edSign d.key.idSecret (ascii "HW2240 pannier") t) []) d

/-- OPEN: at most 16 are answered per second. -/
def openFrame (f : PFrame) (d : Die) : Die :=
  match arrives f d with
  | (false, d) => d
  | (true, d) =>
    let recent := d.key.opens.filter (fun t => decide (d.tim.up - t < 1000000000))
    if recent.length ≥ 16 then d
    else if !openAllowed d f.payload then refuseSession d
    else openSession f.payload (updKey (fun k => { k with opens := d.tim.up :: recent }) d)

/-- CONFIRM: the session opens if the signature verifies and the key is enrolled. (DEDUCED, log entry 170) -/
def confirmFrame (f : PFrame) (d : Die) : Die :=
  match arrives f d with
  | (false, d) => d
  | (true, d) =>
    match session d f.session.toNat with
    | none => d
    | some s =>
      if f.tag ≠ upTag 3 s f then badTag s.id d
      else if s.isOpen then (if s.upSeen.contains f.seq.toNat then answerAgain 3 s f.seq.toNat d else d)
      else if f.seq.toNat = 1 ∧ edVerify s.client (ascii "HW2240 pannier client") s.t f.payload
          ∧ enrolled d s.role (h32 s.client) then
        result s f 0 [] (modSession s.id (fun s => { s with isOpen := true }) (noteFrame s.id 1 d))
      else refuseSession (closeSession s.id d)

/-- CONFIRM_TIMEOUT: no CONFIRM came within 1 s of OPEN_ACK. -/
def confirmTimeout (id : Nat) (d : Die) : Die :=
  match session d id with
  | some s => if s.isOpen then d else refuseSession (closeSession id d)
  | none => d

/-- SESSION_IDLE_TIMEOUT: 30 s without a valid frame. -/
def idleTimeout (id : Nat) (d : Die) : Die :=
  match session d id with
  | some s => if s.isOpen then closeSession id d else d
  | none => d

/-- TAG_FAIL_LIMIT: 16 tag failures within 1 s. -/
def tagFailLimit (id : Nat) (d : Die) : Die :=
  match session d id with
  | some s => if (s.tagFails.filter (fun t => within d 1000 t)).length ≥ 16 then closeSession id d else d
  | none => d

/-! ## Registers (R430, R431, R462) -/

/-- First address of a die's register space (R9). -/
def dieBase (d : Die) : Nat := 16777216 * d.which.num

/-- An address lies in the session's die space. -/
def inSpace (d : Die) (a : Nat) : Bool := decide (dieBase d ≤ a) && decide (a < dieBase d + 16777216)

/-- Read a list of addresses in order: outside the die's space they read as zero. -/
def readAll (peer : Die) : List Nat → Die → Bytes × Die
  | [], d => ([], d)
  | a :: r, d =>
    let x := if inSpace d a then regRead peer (a - dieBase d) d else (0, d)
    let y := readAll peer r x.2
    (leBytes 4 x.1 ++ y.1, y.2)

/-- Act on READ. -/
def readFrame (f : PFrame) (peer : Die) (x : Session) (d : Die) : Die :=
  let n := f.payload.length / 4
  if f.payload.length % 4 ≠ 0 ∨ n > 64 then result x f 3 [] d
  else
    let r := readAll peer ((pieces n 4 f.payload).map leVal) d
    result x f 0 r.1 r.2

/-- A role may write a register: the operator any page but KEY and DBG; maintenance KEY, DBG while unlocked, and of the
other pages FCU, SCB and the BLK_ERR registers. (DEDUCED, log entry 175) -/
def mayWrite (d : Die) (role addr : Nat) : Bool :=
  let page := addr / 4096
  let off := addr % 4096 / 4 * 4
  match role with
  | 1 => page != pKEY && page != pDBG
  | 3 => page == pKEY || (page == pDBG && debugOpen d) || page == pFCU || page == pSCB
      || (page != pDBG && decide (0x00C ≤ off) && decide (off ≤ 0x018))
  | _ => false

/-- A pair writes CHN_CMD with create. (DEDUCED, log entry 174) -/
def isCreate (addr v : Nat) : Bool := addr / 4 * 4 == wkey pCHN 0x040 && v % 16 == 1

/-- RESULT of a WRITE: one that leaves the port enabled but down waits for it to come up (R469). -/
def resultWrite (x : Session) (f : PFrame) (wasUp : Bool) (d : Die) : Die :=
  if wasUp && d.regs.enabled.contains pHST && !d.hst.linkUp then
    match session d x.id with
    | none => d
    | some s =>
      let b := frameBytes 0x7F s.id s.downSeq 0 0 (w32 f.seq.toNat) 0 [] s.kDown
      let d := modSession s.id (fun s => { s with downSeq := s.downSeq + 1, cache := ((f.seq.toNat, b) :: s.cache).take 64 }) d
      enqueueFrame { cls := 4, at_ := d.tim.up, bytes := b } d
  else result x f 0 [] d

/-- Act on WRITE: refused whole, or every pair in order. (DEDUCED, log entry 174) -/
def writeFrame (d : DieId) (f : PFrame) (x : Session) (s : State) : State :=
  let y := s.die d
  let n := f.payload.length / 8
  let pairs := (pieces n 8 f.payload).map (fun p => (u32At p 0, u32At p 4))
  let mine := (pairs.filter (fun p => inSpace y p.1)).map (fun p => (p.1 - dieBase y, p.2))
  if f.payload.length % 8 ≠ 0 ∨ n > 64 then onDie d (result x f 3 []) s
  else if x.role = 2 ∨ mine.any (fun p => !mayWrite y x.role p.1) then onDie d (result x f 2 []) s
  else if mine.length ≠ pairs.length then onDie d (result x f 3 []) s
  else if y.vp.pending && mine.any (fun p => isCreate p.1 p.2) then onDie d (result x f 4 []) s
  else
    let s := mine.foldl (fun s p => regWrite d p.1 (BitVec.ofNat 32 p.2) s) s
    onDie d (resultWrite x f y.hst.linkUp) s

/-! ## Commands (R423, R432, R436, R437) -/

/-- ADMIT: the RESULT is pending; EVENT 4 reports the end. (DEDUCED, log entry 174) -/
def admitCmd (f : PFrame) (peer : Die) (x : Session) (d : Die) : Die :=
  onCommand 1 64 [1] x f (fun d =>
    if d.vp.pending then result x f 4 [] d
    else
      let req := slice f.payload 4 64
      let r := admitOn req ((bulkWhole d 1).getD []) ((bulkWhole d 2).getD []) x.id peer (result x f 1 [] d)
      let d := bulkDone 1 (bulkDone 2 r.2)
      if r.1 = 0 then d else reportSlot (parseAdmit req).slot r.1 d) d

/-- WITHDRAW: a model is withdrawn at once; an admission under way ends. (DEDUCED, log entries 172, 179) -/
def withdrawCmd (f : PFrame) (x : Session) (d : Die) : Die :=
  onCommand 2 1 [1] x f (fun d =>
    let slot := byteAt f.payload 4
    match model d slot with
    | none => resultCode x f 32 d
    | some m =>
      let d := if admitting m then endAdmission slot 14 true d else withdrawModel slot d
      result x f 0 [] (settlePhase d)) d

/-- TURN. (DEDUCED, log entry 172) -/
def turnCmd (f : PFrame) (x : Session) (d : Die) : Die :=
  onCommand 3 1 [1] x f (fun d =>
    let slot := byteAt f.payload 4
    match model d slot with
    | some m => if m.state == .ready then result x f 0 [] (requestTurn slot false d) else resultCode x f 32 d
    | none => resultCode x f 32 d) d

/-- The directory entry that a container goes to: firmware to the slot that is not running. -/
def flashKey (d : Die) (typ : Nat) : Nat := if typ = 1 then 17 - d.key.fwSlot else typ

/-- A container may be written to flash: it verifies, and a trust list is well formed. -/
def flashOk (d : Die) (b : Bytes) : Bool :=
  let t := parseTchili b
  tchiliOk d t.typ b && (t.typ != 5 || (parseTrust t.payload).isSome)

/-- A container has been accepted: floors of types 2, 3 and 5 rise (R421). -/
def acceptFloor (b : Bytes) (d : Die) : Die :=
  let t := parseTchili b
  if t.typ = 2 ∨ t.typ = 3 ∨ t.typ = 5 then raiseFloor t.typ t.svn d else d

/-- FLASH_COMMIT: the container in target 4 is verified, written and read back; a trust list is read at once. Where the
read-back fails, what the flash holds there is a free value. (DESIGN CHOICE, log entry 110) -/
def flashCmd (f : PFrame) (readBack : Bool) (x : Session) (d : Die) : Die :=
  onCommand 4 0 [3] x f (fun d =>
    match bulkWhole d 4 with
    | none => result x f 3 [] d
    | some b =>
      let d := bulkDone 4 d
      let t := parseTchili b
      if !flashOk d b then resultFree x f (refuseImage d)
      else
        let key := flashKey d t.typ
        let d := acceptFloor b d
        if readBack then
          let d := result x f 0 [] (updKey (fun k => { k with flash := mset k.flash key b }) d)
          if t.typ = 5 then keyReload d else d
        else
          let bad := freeStr b.length d
          resultFree x f (drew (updKey (fun k => { k with flash := mset k.flash key bad }) d))) d

/-- A change of the owner waits to be written. (DEDUCED, log entry 176) -/
def ownerPending (d : Die) : Bool := d.key.writes.any (fun w => match w with
  | .owner _ _ _ => true
  | _ => false)

/-- CLAIM: an unowned die takes the session's key as its owner; the RESULT follows the RPMB's confirmation.
(DEDUCED, log entry 176) -/
def claimCmd (f : PFrame) (x : Session) (d : Die) : Die :=
  onCommand 5 0 [3] x f (fun d =>
    if owned d then resultFree x f d
    else if ownerPending d then result x f 4 [] d
    else rpmbQueue (.owner (h32 x.client) x.id f.seq.toNat) d) d

/-- RELEASE: from the owner key's session, in Spring, with no admission. (DEDUCED, log entry 176) -/
def releaseCmd (f : PFrame) (x : Session) (d : Die) : Die :=
  onCommand 6 0 [3] x f (fun d =>
    if !owned d || h32 x.client != d.key.rpmb.owner || d.phase != .spring || !d.adm.models.isEmpty then resultFree x f d
    else if ownerPending d then result x f 4 [] d
    else rpmbQueue (.owner (zeros 32) x.id f.seq.toNat) d) d

/-- An unlock token is good for the die now (R436). -/
def tokenOk (d : Die) (t : Bytes) : Bool :=
  let cls := byteAt t 0
  let signer := slice t 56 57
  let cert := slice t 256 256
  slice t 4 32 == fitTo 32 d.key.device && slice t 36 16 == d.key.nonce && u32At t 52 == d.key.rpmb.bootNo
    && edVerify signer (ascii "HW2240 unlock") (t.take 120) (slice t 120 114) && allZero (slice t 234 22)
    && (if cls = 1 then owned d && h32 signer == d.key.rpmb.owner && allZero cert
      else cls == 2 && certOk cert signer 7)

/-- UNLOCK. -/
def unlockCmd (f : PFrame) (x : Session) (d : Die) : Die :=
  onCommand 7 512 [3] x f (fun d =>
    let t := slice f.payload 4 512
    if tokenOk d t then result x f 0 [] (setDebug (byteAt t 0) d) else resultFree x f (raise pKEY 7 d)) d

/-- LOCK. (DEDUCED, log entry 40) -/
def lockCmd (f : PFrame) (x : Session) (d : Die) : Die :=
  onCommand 8 0 [1, 3] x f (fun d => result x f 0 [] (setDebug 0 d)) d

/-- SUBSCRIBE. (DEDUCED, log entry 179) -/
def subscribeCmd (f : PFrame) (x : Session) (d : Die) : Die :=
  onCommand 9 1 [1, 2, 3] x f (fun d =>
    let v := byteAt f.payload 4
    if v > 1 then result x f 3 [] d else result x f 0 [] (modSession x.id (fun s => { s with sealsOn := v == 1 }) d)) d

/-- SEAL_ACK: an operator's releases the body; others' are ignored. -/
def sealAckFrame (f : PFrame) (x : Session) (d : Die) : Die :=
  if f.payload.length < 8 then result x f 3 [] d
  else if x.role = 1 then
    let no := leVal (slice f.payload 0 8)
    result x f 0 [] (updSealing (fun s => { s with bodies := s.bodies.filter (fun b => b.no != no) }) d)
  else result x f 0 [] d

/-! ## Bulk transfer (R433) -/

/-- Largest size of a PUT target. -/
def bulkMax (target : Nat) : Nat :=
  match target with
  | 1 => 2097152 | 2 => 33554432 | 3 => 270336 | 4 => 268436032 | _ => 24000000000

/-- Size of a ledger image, from its header and the admitted model that it names. -/
def imageSize (d : Die) (b : Bytes) : Option Nat :=
  (d.adm.models.find? (fun e => fitTo 32 e.2.manifest.programDigest == slice b 48 32 && weightsDigest e.2.manifest == slice b 16 32)).map
    (fun e => 384 + cdiv (u32At b 8) 256 * unitLen e.2.manifest (byteAt b 6))

/-- The size that the fragment at offset 0 declares. (DEDUCED, log entries 173, 178) -/
def declaredSize (d : Die) (target : Nat) (b : Bytes) : Option Nat :=
  match target with
  | 1 => if b.length < 12 then none else some (u32At b 8)
  | 2 => if b.length < 24 then none else some (u32At b 20)
  | 3 => some 270336
  | 4 => if b.length < 16 then none else some (u32At b 12 + 576)
  | _ => if b.length < 128 then none else imageSize d b

/-- Container type of target 4 as far as it is known: from the fragment at offset 0. -/
def containerType (d : Die) (off : Nat) (b : Bytes) : Option Nat :=
  if off = 0 then some (byteAt b 6)
  else (mget d.key.bulk 4).bind (fun x => (x.parts.find? (fun p => p.1 == 0)).map (fun p => byteAt p.2 6))

/-- A role may PUT to a target. -/
def mayPut (d : Die) (role target off : Nat) (b : Bytes) : Bool :=
  if target = 4 then
    match containerType d off b with
    | some 2 => role == 1
    | some _ => role == 3
    | none => role == 1 || role == 3
  else role == 1

/-- The fragment at offset 0 has come. (DEDUCED, log entry 173) -/
def bulkStarted (b : Bulk) : Bool := b.parts.any (fun p => p.1 == 0)

/-- Take a fragment into a target; a PUT of target 3 stands in the CAD load area. (DEDUCED, log entry 173) -/
def putFragment (target off : Nat) (data : Bytes) (d : Die) : Die :=
  let d := updKey (fun k => { k with bulk := mmod k.bulk target (fun b =>
    { b with parts := b.parts.filter (fun p => p.1 != off) ++ [(off, data)] }) }) d
  if target = 3 then updCad (fun c => { c with load := ((mget d.key.bulk 3).map bulkBytes).getD [] }) d else d

/-- Contiguous bytes that a target has received. -/
def bulkGot (d : Die) (target : Nat) : Nat := ((mget d.key.bulk target).map (fun b => (bulkBytes b).length)).getD 0

/-- RESULT of a PUT. -/
def resultPut (x : Session) (f : PFrame) (target : Nat) (d : Die) : Die :=
  answer 0 x.id f.seq.toNat 0 0 (bulkGot d target) [] d

/-- BULK_PUT: the fragment at offset 0 declares the size and takes the extents; others may come before it.
(DEDUCED, log entry 178) -/
def bulkPutFrame (f : PFrame) (x : Session) (d : Die) : Die :=
  let target := f.ref.toNat
  let off := f.offset.toNat
  let data := f.payload
  let refuse (status : Nat) (p : Bytes) (d : Die) : Die := answer 0 x.id f.seq.toNat status 0 0 p d
  if !([1, 2, 3, 4, 6].contains target) then refuse 3 [] d
  else if !mayPut d x.role target off data then refuse 2 [] d
  else if off = 0 then
    match declaredSize d target data with
    | none => if target = 6 ∧ data.length ≥ 128 then refuse 5 (leBytes 4 35) d else refuse 3 [] d
    | some n =>
      let early := match mget d.key.bulk target with
        | some b => if bulkStarted b then [] else b.parts.filter (fun p => decide (p.1 + p.2.length ≤ n))
        | none => []
      let d := bulkDone target d
      if n > bulkMax target ∨ data.length > n then refuse 3 [] d
      else if target ≠ 3 ∧ extents n > hbmFree d then refuse 5 (leBytes 4 7) d
      else
        let b : Bulk := { size := if target = 3 then 0 else n, parts := early, owner := x.id }
        resultPut x f target (putFragment target 0 data (updKey (fun k => { k with bulk := mset k.bulk target b }) d))
  else
    let lim := match mget d.key.bulk target with
      | some b => if bulkStarted b && target != 3 then b.size else bulkMax target
      | none => bulkMax target
    if off + data.length > lim then refuse 3 [] d
    else
      let d := if (mget d.key.bulk target).isSome then d
        else updKey (fun k => { k with bulk := mset k.bulk target { owner := x.id } }) d
      resultPut x f target (putFragment target off data d)

/-- Entries of a verdict ring as bytes. -/
def ringBytes (x : Chan) : Bytes :=
  (List.range (2 ^ x.host.ringLog2)).flatMap (fun i => fitTo 64 ((mget x.ring i).getD []))

/-- The content of a GET target. (DEDUCED, log entry 177) -/
def bulkContent (d : Die) (target ref : Nat) : Option Bytes :=
  match target with
  | 5 => some d.key.image
  | 7 => some ((mget d.key.flash 4).getD [])
  | 8 => (d.sealing.bodies.find? (fun b => b.no % 4294967296 == ref)).map (fun b => b.bytes)
  | 9 => if (chan d (ref % 32768)).state == .free then none else some (ringBytes (chan d (ref % 32768)))
  | _ => none

/-- BULK_GET: the target stands in the payload's first word; the RESULT carries up to 1,400 bytes from the offset on.
(DEDUCED, log entry 177) -/
def bulkGetFrame (f : PFrame) (x : Session) (d : Die) : Die :=
  let target := u32At f.payload 0
  let off := f.offset.toNat
  if f.payload.length < 4 ∨ !([5, 7, 8, 9].contains target) then answer 0 x.id f.seq.toNat 3 0 0 [] d
  else if target = 5 ∧ x.role ≠ 1 then answer 0 x.id f.seq.toNat 2 0 0 [] d
  else
    match bulkContent d target f.ref.toNat with
    | none => answer 0 x.id f.seq.toNat 5 0 0 (leBytes 4 (w32 (freeNat d))) (drew d)
    | some b =>
      answer 0 x.id f.seq.toNat 0 (b2n (decide (off + 1400 < b.length))) off (slice b off 1400) d

/-! ## The commands -/

/-- OPEN. -/
def execPannierOpen (d : DieId) (f : PFrame) (s : State) : Host.Outcome State Fault Refusal := runDie d (openFrame f) s

/-- CONFIRM. (DEDUCED, log entry 168) -/
def execConfirm (d : DieId) (f : PFrame) (s : State) : Host.Outcome State Fault Refusal := runDie d (confirmFrame f) s

/-- CONFIRM_TIMEOUT. -/
def execConfirmTimeout (d : DieId) (session : BitVec 16) (s : State) : Host.Outcome State Fault Refusal :=
  runDie d (confirmTimeout session.toNat) s

/-- CLOSE. (DEDUCED, log entry 168) -/
def execClose (d : DieId) (f : PFrame) (s : State) : Host.Outcome State Fault Refusal :=
  dieRequest 0x04 d f (fun x y => closeSession x.id (result x f 0 [] y)) s

/-- KEEPALIVE. (DEDUCED, log entry 168) -/
def execKeepalive (d : DieId) (f : PFrame) (s : State) : Host.Outcome State Fault Refusal :=
  dieRequest 0x05 d f (fun x => result x f 0 []) s

/-- SESSION_IDLE_TIMEOUT. (DESIGN CHOICE, log entry 4) -/
def execSessionIdleTimeout (d : DieId) (session : BitVec 16) (s : State) : Host.Outcome State Fault Refusal :=
  runDie d (idleTimeout session.toNat) s

/-- TAG_FAIL_LIMIT. -/
def execTagFailLimit (d : DieId) (session : BitVec 16) (s : State) : Host.Outcome State Fault Refusal :=
  runDie d (tagFailLimit session.toNat) s

/-- READ. -/
def execRead (d : DieId) (f : PFrame) (s : State) : Host.Outcome State Fault Refusal :=
  dieRequest 0x10 d f (readFrame f (s.die d.other)) s

/-- WRITE. -/
def execWrite (d : DieId) (f : PFrame) (s : State) : Host.Outcome State Fault Refusal := onRequest 0x11 d f (writeFrame d f) s

/-- ADMIT. -/
def execAdmitModel (d : DieId) (f : PFrame) (s : State) : Host.Outcome State Fault Refusal :=
  dieRequest 0x12 d f (admitCmd f (s.die d.other)) s

/-- WITHDRAW. -/
def execWithdraw (d : DieId) (f : PFrame) (s : State) : Host.Outcome State Fault Refusal := dieRequest 0x12 d f (withdrawCmd f) s

/-- TURN. -/
def execTurn (d : DieId) (f : PFrame) (s : State) : Host.Outcome State Fault Refusal := dieRequest 0x12 d f (turnCmd f) s

/-- FLASH_COMMIT. -/
def execFlashCommit (d : DieId) (f : PFrame) (readBack : Bool) (s : State) : Host.Outcome State Fault Refusal :=
  dieRequest 0x12 d f (flashCmd f readBack) s

/-- CLAIM. -/
def execClaim (d : DieId) (f : PFrame) (s : State) : Host.Outcome State Fault Refusal := dieRequest 0x12 d f (claimCmd f) s

/-- RELEASE. -/
def execRelease (d : DieId) (f : PFrame) (s : State) : Host.Outcome State Fault Refusal := dieRequest 0x12 d f (releaseCmd f) s

/-- UNLOCK. -/
def execUnlock (d : DieId) (f : PFrame) (s : State) : Host.Outcome State Fault Refusal := dieRequest 0x12 d f (unlockCmd f) s

/-- LOCK. -/
def execLock (d : DieId) (f : PFrame) (s : State) : Host.Outcome State Fault Refusal := dieRequest 0x12 d f (lockCmd f) s

/-- SUBSCRIBE. -/
def execSubscribe (d : DieId) (f : PFrame) (s : State) : Host.Outcome State Fault Refusal := dieRequest 0x12 d f (subscribeCmd f) s

/-- SEAL_ACK. (DEDUCED, log entry 168) -/
def execSealAck (d : DieId) (f : PFrame) (s : State) : Host.Outcome State Fault Refusal := dieRequest 0x31 d f (sealAckFrame f) s

/-- BULK_PUT. -/
def execBulkPut (d : DieId) (f : PFrame) (s : State) : Host.Outcome State Fault Refusal := dieRequest 0x20 d f (bulkPutFrame f) s

/-- BULK_GET. -/
def execBulkGet (d : DieId) (f : PFrame) (s : State) : Host.Outcome State Fault Refusal := dieRequest 0x21 d f (bulkGetFrame f) s

end Sys2Proof.Machine
end

