-- ==== Sys2Proof/Machine/Boot.lean ====
section
/-! DEFINITION. Reset, rails and clocks, the boot of a die from Frost to Spring, and the end of Autumn (R29, R402,
R410 to R426, R468, R469, R476 to R486). -/

namespace Sys2Proof.Machine

/-! ## Reset (R481, R483) -/

/-- A die goes into Frost. What the world outside it sets stays: temperatures, pin levels, its SYSCLK; the model's own
record of what it has sent, and its count of free draws, go on. (DEDUCED, log entry 17) -/
def resetDie (d : Die) : Die :=
  { which := d.which, freeCtr := d.freeCtr, out := d.out
    fcu := { tj := d.fcu.tj, sysclkOk := d.fcu.sysclkOk }
    mem := { tempC := d.mem.tempC }
    wdn := { switches := d.wdn.switches, encA := d.wdn.encA, encB := d.wdn.encB, encZ := d.wdn.encZ } }

/-- Both dies go into Frost. -/
def resetBoth (s : State) : State := onDie .b resetDie (onDie .a resetDie s)

/-- RESET_N_PULSE: under 1 µs ignored; from 10 µs a reset; between them the device may reset or not.
(DESIGN CHOICE, log entry 16) -/
def execResetNPulse (lowNs : Nat) (s : State) : Host.Outcome State Fault Refusal :=
  if lowNs < 1000 then .next s
  else if 10000 ≤ lowNs then .next (resetBoth s)
  else
    let s' := onDie .a drew s
    .next (if freeNat s.dieA % 2 = 1 then resetBoth s' else s')

/-! ## Rails (R480, R481) -/

/-- The rail supplies a die, which monitors it. (DEDUCED, log entry 18) -/
def supplies (r : Rail) (d : DieId) : Bool :=
  match r with
  | .vdd x => x == d | .vdds x => x == d | .vddh x => x == d | .vddSys x => x == d
  | .vddWdn x => x == d | .vddioWdn x => x == d
  | .hbmVpp => true | .hbmVdd => true | .hbmVddq => true | .vddio18 => true

/-- A rail of the die is out of range. -/
def railsBad (p : Package) (d : DieId) : Bool := (p.railsOut ++ p.railsLow).any (fun r => supplies r d)

/-- rail_fault on a die out of reset. (DEDUCED, log entry 18) -/
def railFault (d : Die) : Die :=
  if d.phase == .frost then d else fcuCond 2 (updFcu (fun f => { f with railBad := true }) d)

/-- RAIL_OUT_OF_RANGE: rail_fault on each die that the rail supplies. (DEDUCED, log entries 18, 19) -/
def execRailOutOfRange (rail : Rail) (s : State) : Host.Outcome State Fault Refusal :=
  let s := { s with pkg := { s.pkg with railsOut := (rail :: s.pkg.railsOut).eraseDups } }
  let on (d : DieId) (s : State) : State := if supplies rail d then onDie d railFault s else s
  .next (on .b (on .a s))

/-- A Warden channel is held in reset until its die is: outputs off, SST asserted, nothing sent on the crosslink.
(DEDUCED, log entry 20) -/
def wardenDown (d : Die) : Die :=
  updWdn (fun w => { switches := w.switches, encA := w.encA, encB := w.encB, encZ := w.encZ, down := true }) d

/-- RAIL_UNDERVOLTAGE: VDD_SYS holds its die in reset, the Warden's rails their channel; of the other rails nothing
further follows. (DEDUCED, log entry 20) -/
def execRailUndervoltage (rail : Rail) (s : State) : Host.Outcome State Fault Refusal :=
  let s := { s with pkg := { s.pkg with railsLow := (rail :: s.pkg.railsLow).eraseDups } }
  .next (match rail with
    | .vddSys d => onDie d resetDie s
    | .vddWdn d => onDie d wardenDown s
    | .vddioWdn d => onDie d wardenDown s
    | _ => s)

/-- RAIL_RETURNS_TO_RANGE: the condition of rail_fault ends on a die once all its rails are back; no reset ends by it. -/
def execRailReturnsToRange (rail : Rail) (s : State) : Host.Outcome State Fault Refusal :=
  let p := { s.pkg with railsOut := s.pkg.railsOut.filter (fun r => r != rail)
                        railsLow := s.pkg.railsLow.filter (fun r => r != rail) }
  let on (d : DieId) (s : State) : State :=
    if railsBad p d then s else onDie d (updFcu (fun f => { f with railBad := false })) s
  .next (on .b (on .a { s with pkg := p }))

/-! ## Clocks (R405, R484, R485) -/

/-- SYSCLK has been out of range for 20 µs: FAULT_N is held low and the Warden acts as on an S4. -/
def sysclkOut (d : Die) : Die :=
  let d := updFcu (fun f => { f with sysclkOk := false }) d
  if d.phase == .frost then d else tellWarden .s4 (updFcu (fun f => { f with sysHold := true }) d)

/-- SYSCLK returns: Autumn. (DEDUCED, log entry 21) -/
def sysclkBack (d : Die) : Die :=
  let was := d.fcu.sysHold
  let d := updFcu (fun f => { f with sysclkOk := true, sysHold := false }) d
  if was && (d.phase == .spring || d.phase == .summer) then enterAutumn pFCU d else d

/-- The PLLs of a die unlock. -/
def pllLost (d : Die) : Die :=
  if d.phase == .frost then d else fcuCond 1 (updFcu (fun f => { f with clkLost := true }) d)

/-- SYSCLK_OUT_OF_RANGE. -/
def execSysclkOutOfRange (d : DieId) (s : State) : Host.Outcome State Fault Refusal := runDie d sysclkOut s

/-- SYSCLK_RETURNS. (DEDUCED, log entry 21) -/
def execSysclkReturns (d : DieId) (s : State) : Host.Outcome State Fault Refusal := runDie d sysclkBack s

/-- REFCLK_LOSS: clk_loss on both dies. (DEDUCED, log entry 19) -/
def execRefclkLoss (s : State) : Host.Outcome State Fault Refusal :=
  .next (onDie .b pllLost (onDie .a pllLost { s with pkg := { s.pkg with refclkOk := false } }))

/-- REFCLK_RETURNS: the condition of clk_loss ends. -/
def execRefclkReturns (s : State) : Host.Outcome State Fault Refusal :=
  let back (d : Die) : Die := updFcu (fun f => { f with clkLost := false }) d
  .next (onDie .b back (onDie .a back { s with pkg := { s.pkg with refclkOk := true } }))

/-! ## Thaw: failing a step (R29, R425, R426) -/

/-- A step fails: its cause, and the last step completed; the die stays in Thaw with FAULT_N asserted. -/
def thawFail (step cause : Nat) (d : Die) : Die :=
  updFcu (fun f => { f with hold := true, asserted := true }) (updKey (fun k => { k with step := step, cause := cause }) d)

/-- A step has been completed. -/
def thawStep (n : Nat) : Die → Die := updKey (fun k => { k with step := n })

/-! ## Step 2: the identity (R410, R411) -/

/-- The keys of the die, from the seed. -/
def deriveKeys (boot : BootReads) (d : Die) : Die :=
  let sk := kmac256 boot.pufSeed [0x01] 57 (ascii "HW2240 identity")
  let pk := edPublic sk
  let d := updKey (fun k => { k with
    seed := boot.pufSeed, idSecret := sk, idPublic := pk, device := h32 pk, corrected := boot.pufCorrected.toNat }) d
  if boot.pufCorrected.toNat > field d pKEY 0x0B8 16 then raise pKEY 0 d else d

/-! ## Step 5 in part: what the RPMB holds (R419, R422) -/

/-- Read block 0. (DESIGN CHOICE, log entry 26) -/
def parseRpmb (b : Bytes) : Rpmb :=
  { bootNo := u32At b 4, month := u32At b 8, svn := (List.range 5).map (fun i => u32At b (12 + 4 * i)), owner := slice b 32 32 }

/-- The counters and the storage binding digest. A device without a key is bound anew: its block is zero, and a
record of the binding is appended. (DESIGN CHOICE, log entry 26) -/
def takeStorage (boot : BootReads) (d : Die) : Die :=
  let fresh := !boot.rpmbKeyed
  updKey (fun k => { k with
    rpmb := if boot.rpmbOk && !fresh then parseRpmb boot.rpmbBlock else {}
    bind := h32 ([0x09] ++ boot.rpmbCid), rpmbOk := boot.rpmbOk, storageNew := boot.rpmbOk && fresh }) d

/-! ## Step 3: the unit map and its extension (R413 to R415) -/

/-- A unit map's payload has the fields of R413. -/
def mapForm (p : Bytes) : Bool :=
  decide (144 ≤ p.length) && u32At p 0 == 0x504D5455 && u16At p 4 == 0x0100 && byteAt p 7 == 0 && allZero (slice p 138 6)

/-- The map lists the die's own key at its position. -/
def mapLists (d : Die) (p : Bytes) : Bool :=
  h32 (slice p (if d.which = .a then 24 else 81) 57) == d.key.device

/-- Cause for which a unit map is not accepted, 0 when it is. (DEDUCED, log entry 24) -/
def mapCause (d : Die) (b : Bytes) : Nat :=
  let t := parseTchili b
  if !(tchiliForm b && t.typ == 4 && h32 t.payload == t.digest && mapForm t.payload) then 2
  else if !mapLists d t.payload then 1
  else if tchiliOk d 4 b then 0 else 2

/-- Tiles of a table. -/
def tilesOf (state : List Byte) (map : List Nat) : Tiles := { state := state.map (fun b => b.toNat), map := map }

/-- The resources that the die's table gives, and no others. -/
def takeUnits (u : UnitTable) (d : Die) : Die :=
  let nats (l : List Byte) : List Nat := l.map (fun b => b.toNat)
  { d with
    res := tilesOf u.res (nats u.resMap), bnd := tilesOf u.bnd (nats u.bndMap), nle := tilesOf u.nle (nats u.nleMap)
    cwe := tilesOf u.cwe (nats u.cweMap), snt := tilesOf u.snt (u.sntMap.map (fun b => b.toNat))
    shk := tilesOf u.shk (List.range 8), sig := tilesOf u.sig []
    vp := { d.vp with
      pipes := formGroups 0 ((List.range 6).map (fun n => { enabled := tst u.pipes.toNat n })), current := 0, target := 0 }
    key := { d.key with pipes := u.pipes.toNat } }

/-- The map comes into force. (DEDUCED, log entry 24) -/
def takeMap (boot : BootReads) (d : Die) : Die :=
  let t := parseTchili boot.unitMap
  let d := updKey (fun k => { k with mapPayload := t.digest, grade := byteAt t.payload 6, identityOk := true }) d
  raiseFloor 4 t.svn (takeUnits boot.units d)

/-- The tag of an extension record is right. (DESIGN CHOICE, log entry 29) -/
def extTagOk (d : Die) (r : Bytes) : Bool :=
  r.length == 32 && r.drop 16 == kmac256 (extKey d) (r.take 16) 16 (ascii "HW2240 extension")

/-- A retired Keccak core hands on the work it did. -/
def quietMove (c : Nat) (d : Die) : Die :=
  ((List.range 8).filter (fun w => d.shk.map[w]? == some c)).foldl (fun d w =>
    let h := hostFor d w
    modPool 13 (fun t => { t with map := t.map.set w h }) d) d

/-- What one record of the extension says is in force again; `last` is the unit retired last, per engine.
(DESIGN CHOICE, log entry 29) -/
def replayExt (r : Bytes) (last : AMap Nat) (d : Die) : AMap Nat × Die :=
  let kind := byteAt r 0
  let blk := byteAt r 1
  let i := leVal (slice r 2 6)
  match kind with
  | 1 =>
    if blk = blkCode pMEM then (last, updMem (fun m => { m with stuckInService := m.stuckInService ++ [(.sram, i)] }) d)
    else if blk = blkCode pHBM then (last, updMem (fun m => { m with stuckInService := m.stuckInService ++ [(.hbm, i)] }) d)
    else
      let d := setUnit blk i 3 d
      (mset last blk i, if blk = 13 then quietMove i d else d)
  | 2 =>
    match (mget last blk).bind (fun u => logicalOf d blk u) with
    | some l => (last, setUnit blk i 1 (modPool blk (fun t => { t with map := t.map.set l i }) d))
    | none => (last, d)
  | 3 => (last, updMem (fun m => { m with spareLeft := m.spareLeft.modify (i / 2048) (fun n => n - 1) }) d)
  | 4 => (last, updMem (fun m => { m with pprUsed := m.pprUsed + 1 }) d)
  | _ => (last, d)

/-- Read the extension: records whose tag fails are ignored, the others apply in sequence order.
(DESIGN CHOICE, log entry 29) -/
def takeExt (records : List Bytes) (d : Die) : Die :=
  let good := ((records.take 1024).filter (extTagOk d)).mergeSort (fun a b => leVal (slice a 8 8) ≤ leVal (slice b 8 8))
  let d := if good.length < (records.take 1024).length then raise pSCB 5 d else d
  let d := (good.foldl (fun q r => replayExt r q.1 q.2) (([] : AMap Nat), d)).2
  updKey (fun k => { k with ext := good, mapDigest := unitMapDigest { k with ext := good } }) d

/-! ## Step 4: the firmware (R417, R418) -/

/-- The slot that Thaw boots: the valid one with the higher svn, slot A where they are equal.
(DEDUCED, log entry 23) -/
def firmwareSlot (boot : BootReads) (d : Die) : Option Nat :=
  let a := tchiliOk d 1 boot.fwA
  let b := tchiliOk d 1 boot.fwB
  if a && (!b || decide ((parseTchili boot.fwB).svn ≤ (parseTchili boot.fwA).svn)) then some 0
  else if b then some 1 else none

/-- The booted image. (DEDUCED, log entry 23) -/
def takeFirmware (slot : Nat) (boot : BootReads) (d : Die) : Die :=
  let b := if slot = 0 then boot.fwA else boot.fwB
  updKey (fun k => { k with
    fwSlot := slot, fwSvn := (parseTchili b).svn, fwVersion := (if slot = 0 then boot.fwVersionA else boot.fwVersionB).toNat }) d

/-- What stands in flash by directory entry. -/
def takeFlash (boot : BootReads) (d : Die) : Die :=
  let put (key : Nat) (b : Bytes) (m : AMap Bytes) : AMap Bytes := if b.isEmpty then m else mset m key b
  let m := put 17 boot.fwB (put 16 boot.fwA (put 5 boot.trustList (put 4 boot.unitMap (put 3 boot.wardenTable []))))
  updKey (fun k => { k with flash := m }) d

/-! ## Steps 5 to 9 -/

/-- boot_no is incremented and confirmed. (DEDUCED, log entry 25) -/
def bumpBootNo (d : Die) : Die :=
  count pKEY 0x0C8 (updKey (fun k => { k with rpmb := { k.rpmb with bootNo := k.rpmb.bootNo + 1 } }) d)

/-- Step 6: the trust list and the warden table, where flash holds them; neither stops Thaw.
(DEDUCED, log entry 27) -/
def takeOwnerImages (boot : BootReads) (d : Die) : Die :=
  let d := if boot.trustList.isEmpty then d else loadTrust boot.trustList d
  if boot.wardenTable.isEmpty then d
  else if tchiliOk d 3 boot.wardenTable then
    let t := parseTchili boot.wardenTable
    raiseFloor 3 t.svn (updWdn (fun w => { w with table := t.payload }) d)
  else refuseImage d

/-- Step 7: the memories. (DEDUCED, log entry 30) -/
def takeMemories (boot : BootReads) : Die → Die := updMem (fun m => { m with
  trained := boot.hbmTrained.toNat, pprLeft := boot.pprLeft.toNat })

/-- Step 9: one image that flash marks boot-resident takes the lowest free index.
(DEDUCED, log entry 27; DESIGN CHOICE, log entry 28) -/
def takeResident (d : Die) (b : Bytes) : Die :=
  if !tst (byteAt b 7) 0 then d
  else
    match (List.range 16).find? (fun i => (image d i).state == 0), imageRefusal d b with
    | some i, none =>
      let d := placeImage i b d
      setImage i { image d i with state := 2 } d
    | _, some 1 => refuseImage d
    | _, _ => d

/-- Temperatures that already lie past a limit set their bits. (DEDUCED, log entry 31) -/
def takeTemps (d : Die) : Die :=
  let d := if d.fcu.tj ≥ tjMax d - 5 then fcuCond 3 d else d
  let d := if d.fcu.tj ≥ tjMax d + 5 then fcuCond 4 d else d
  if d.mem.tempC > 85 then raise pHBM 5 d else d

/-- Steps 6 to 9: the owner's images, the memories, the self-tests, the resident Sentinel images. -/
def thawLate (boot : BootReads) (d : Die) : Die :=
  let d := takeMemories boot (thawStep 6 (takeOwnerImages boot d))
  if boot.hbmTrained.toNat ≠ 255 then thawFail 6 6 (raise pHBM 6 d)
  else if !boot.pprOk then thawFail 6 6 d
  else if !boot.zeroOk then thawFail 6 6 (raise pMEM 4 d)
  else if boot.testFail.toNat ≠ 0 then thawFail 7 boot.testFail.toNat d
  else thawStep 9 (boot.sentinels.foldl takeResident d)

/-- Steps 4 and 5: the firmware, and the RPMB with boot_no. (DEDUCED, log entry 30) -/
def thawMid (boot : BootReads) (d : Die) : Die :=
  match firmwareSlot boot d with
  | none => thawFail 3 3 d
  | some slot =>
    let d := takeFirmware slot boot d
    if !boot.rpmbOk then thawFail 4 4 d
    else if !boot.bootNoOk || d.key.rpmb.bootNo == 4294967295 then thawFail 4 5 d
    else
      let d := if d.key.storageNew then recordExt 5 0 0 d else d
      thawLate boot (thawStep 5 (bumpBootNo d))

/-- Thaw, steps 1 to 9, on what the die finds. (DESIGN CHOICE, log entry 22) -/
def thaw (boot : BootReads) (d : Die) : Die :=
  let d := newNonce (changePhase .thaw d)
  if !boot.pufOk then thawFail 1 1 (updKey (fun k => { k with corrected := boot.pufCorrected.toNat }) d)
  else
    let d := takeFlash boot (takeStorage boot (deriveKeys boot d))
    match mapCause d boot.unitMap with
    | 0 => takeTemps (thawMid boot (takeExt boot.extRecords (takeMap boot d)))
    | c => thawFail 2 c d

/-- Every entry condition of Thaw holds on a die (R483). -/
def mayThaw (p : Package) (d : Die) : Bool :=
  d.phase == .frost && !railsBad p d.which && p.refclkOk && d.fcu.sysclkOk

/-- RESET_RELEASE. (DESIGN CHOICE, log entry 22) -/
def execResetRelease (d : DieId) (boot : BootReads) (s : State) : Host.Outcome State Fault Refusal :=
  if mayThaw s.pkg (s.die d) then runDie d (thaw boot) s else .next s

/-! ## Step 10 (R421, R425, R426, R468, R469) -/

/-- The address of HST that a die gives itself, and HST enabled. (DEDUCED, log entry 32) -/
def enableHost (d : Die) : Die :=
  let b (i : Nat) : Nat := byteAt d.key.device i
  let d := setField 0 pHST 0x044 0 (leVal ([0x02] ++ d.key.device.take 3)) (setField 0 pHST 0x040 0 0 d)
  let d := setField 0 pHST 0x048 0 (leVal (slice d.key.device 3 2)) d
  let d := setField 0 pHST 0x04C 0 (((169 * 256 + 254) * 256 + (1 + b 5 % 254)) * 256 + b 6) d
  enablePage pHST (updHst (fun h => { h with peerPath := true }) d)

/-- FAULT_N is released, unless a real latch of Thaw keeps it. -/
def thawPin (d : Die) : Die :=
  let real := if d.fcu.alive then latchedAt d 3 else sourceAt d (pulseMin d)
  let d := updFcu (fun f => { f with hold := false, asserted := real, stopped := f.alive && real, minRun := false, acked := false }) d
  applyForm d

/-- Spring, at the end of Thaw. -/
def thawEnd (d : Die) : Die :=
  let d := raiseFloor 1 d.key.fwSvn (thawStep 10 d)
  linkRestore (thawPin (enterSpring (enableHost d)))

/-- The last step completed before a cause of R426. -/
def stepBefore (now cause : Nat) : Nat :=
  if cause = 6 then 6 else if 7 ≤ cause ∧ cause ≤ 9 then 7 else now

/-- THAW_SEQUENCE_COMPLETE: the sequence finishes, or a step of it fails. (DESIGN CHOICE, log entries 22, 186) -/
def thawDone (passed : Bool) (cause : Nat) (d : Die) : Die :=
  if d.phase == .thaw && d.key.cause == 0 && !d.fcu.held then
    if passed then (if d.key.step = 9 then thawEnd d else d)
    else thawFail (stepBefore d.key.step cause) cause d
  else d

/-- THAW_SEQUENCE_COMPLETE. (DESIGN CHOICE, log entry 22) -/
def execThawSequenceComplete (d : DieId) (passed : Bool) (cause : BitVec 4) (s : State) :
    Host.Outcome State Fault Refusal := runDie d (thawDone passed cause.toNat) s

/-! ## The end of Autumn (R402) -/

/-- AUTUMN_REINIT_DONE: a link that is enabled starts again as Spring begins. (DEDUCED, log entry 33) -/
def reinitDone (passed : Bool) (d : Die) : Die :=
  if d.phase == .autumn then linkRestore (autumnDone passed d) else d

/-- AUTUMN_REINIT_DONE. (DEDUCED, log entry 33) -/
def execAutumnReinitDone (d : DieId) (passed : Bool) (s : State) : Host.Outcome State Fault Refusal :=
  runDie d (reinitDone passed) s

end Sys2Proof.Machine
end

