-- ==== Sys2Proof/Machine/Radio.lean ====
section
/-! DEFINITION. Radio checks: FFT instances against keyed tables, LDPC syndromes with the binding to their transport
blocks, and CRCs (R189 to R198). -/

namespace Sys2Proof.Machine

/-! ## FFT instances (R191 to R193) -/

/-- Staged records of a plan entry of a radio batch. -/
def radioRecs (b : Batch) (entry : Nat) : List RecIn :=
  (b.staged.filter (fun s => s.entry == entry && s.rtype != 5)).map (fun s => s.r)

/-- Complex samples of a byte string, little-endian or big-endian. -/
def samples (big : Bool) : Nat → Bytes → List (Int × Int)
  | 0, _ => []
  | n + 1, bs =>
    let v (o : Nat) : Int := sgn 16 (if big then beVal (slice bs o 2) else u16At bs o)
    (v 0, v 2) :: samples big n (bs.drop 4)

/-- The instances of a plan entry: their records, by (symbol, port, dir). -/
def instances (b : Batch) (entry : Nat) : List (List RecIn) :=
  let rs := radioRecs b entry
  ((rs.map (fun r => fftKey r.payload)).eraseDups).map (fun k => rs.filter (fun r => fftKey r.payload == k))

/-- The checks of staged records of a radio batch have been made: those of a type and plan entry that meet a condition (R193,
R195, R197). -/
def noteRecords (serial rtype entry : Nat) (p : RecIn → Bool) (d : Die) : Die :=
  modTicket serial (fun b => { b with
    made := (b.staged.zipIdx).foldl (fun m s =>
      if s.1.rtype == rtype && s.1.entry == entry && p s.1.r then mset m s.2 (rtype :: mgetD m s.2 []) else m) b.made }) d

/-- A sum over groups of terms in lanes: a lane adds the terms of its groups one after the other (R148, R193). -/
def laneSumG (r : Rnd) (lanes : Nat) (groups : List (List (FV × FV))) : FV :=
  let l := max lanes 1
  let idx := groups.mapIdx (fun i t => (i % l, t))
  let sums := (List.range l).map (fun n =>
    (idx.filter (fun p => p.1 == n)).foldl (fun a p => p.2.foldl (fma64 r) a) .zero)
  let k := Nat.log2 (2 * l - 1)
  treeSum r k (sums ++ List.replicate (2 ^ k - l) .zero)

/-- One comparison of R193 for one part: lanes, N, budget in sixteenths, secrets, table entries, the parts of the bins, the
input samples as (same part, other part), and the sign of the other part's product. -/
def fftCheck (lanes n budget : Nat) (b : List FV) (t : List (FV × FV)) (x : List FV) (s : List (FV × FV)) (minus : Bool) :
    Banded :=
  let one : FV := .fin false 1 0
  let lhs := laneSum .near lanes (List.zip b x)
  let rhs := laneSumG .near lanes (List.zipWith (fun t v =>
    [(t.1, v.1), (if minus then negX t.2 else t.2, v.2)]) t s)
  let yb := laneSum .up lanes (List.zipWith (fun c v => (absX c, absX v)) b x)
  let tb := laneSumG .up lanes (List.zipWith (fun t v => [(absX t.1, absX v.1), (absX t.2, absX v.2)]) t s)
  let b1 := laneSum .up lanes (b.map (fun c => (absX c, one)))
  let tau := roundTo bin64 .up (addX (scaleX (mulX (intX (budget : Int)) b1) (-4))
    (scaleX (mulX (intX ((n + 8 : Nat) : Int)) (addX yb tb)) (-48)))
  let diff := absX (rn64 (subX lhs rhs))
  let ratio := match diff, tau with
    | .fin _ m e, .fin _ (tm + 1) te =>
      let f := scaleFrac m (tm + 1) (e - te)
      if m = 0 then 0 else toBits bin32 8 (roundFrac bin32 .up false f.1 f.2)
    | _, _ => if isZero diff then 0 else 0x7F800000
  ⟨leX diff tau, ratio⟩

/-- The radio frame that an instance names, as far as the radio store still holds its payload (R192).
(DEDUCED, log entry 88) -/
def fftHeld (d : Die) (b : Batch) (p : Bytes) : Option Held :=
  d.ing.radio.find? (fun h => h.stream == (chan d b.channel).host.stream && h.counter == u32At p 12 && h.slot == u32At p 0
    && h.symbol == byteAt p 4 && h.canary == b.canary && h.sent && !h.gone)

/-- The table entries of an op for secret i. -/
def fftTableOf (m : Model) (o : OpE) (tb : Tables) (i : Nat) : List (FV × FV) :=
  fftEntries ((mgetD tb.proj ((m.manifest.ops.findIdx? (fun q => q == o)).getD 0) []).getD i [])

/-- The 2k comparisons of one instance, whose first record has payload p, on a frame: row number and outcome. -/
def fftOf (lanes : Nat) (m : Model) (o : OpE) (tb : Tables) (h : Held) (rs : List RecIn) (p : Bytes) :
    List (Nat × Banded) :=
  let n := 2 ^ byteAt p 5
  let port := byteAt p 6
  let ins := (samples (param m.prog o.locus 15 port == 1) n (h.payload.drop (param m.prog o.locus 14 port))).map
    (fun v => (intX v.1, intX v.2))
  let bins := (rs.flatMap (fun r => samples false (u16At r.payload 10) (r.payload.drop 16))).map
    (fun v => (intX v.1, intX v.2))
  (List.range m.k).flatMap (fun i =>
    let sec := ((rowSecrets tb.key i 4096).take n).map bsec
    let t := fftTableOf m o tb i
    [(i, fftCheck lanes n o.ulp sec t (bins.map (fun v => v.1)) ins true),
     (i, fftCheck lanes n o.ulp sec t (bins.map (fun v => v.2)) (ins.map (fun v => (v.2, v.1))) false)])

/-- The comparisons of one instance, counted, with its batch failed by the first that fails. An instance whose frame the store
no longer holds is not compared, so that its batch cannot pass. (DEDUCED, log entry 88) -/
def fftInstance (lead entry : Nat) (b : Batch) (m : Model) (o : OpE) (rs : List RecIn) (d : Die) : Die :=
  match rs, tablesOf m b.month with
  | r :: _, some tb =>
    match fftHeld d b r.payload with
    | none => d
    | some h =>
      let res := fftOf (lanesOf d lead 1) m o tb h rs r.payload
      let bad := res.filter (fun q => !q.2.ok)
      let d := countN pBND 0x078 bad.length (countN pBND 0x074 res.length d)
      let d := noteRecords b.serial 7 entry (fun q => fftKey q.payload == fftKey r.payload) d
      match bad with
      | q :: _ => failCheck b.serial 0 2 pBND q.1 o.locus q.2.ratio d
      | [] => d
  | _, _ => d

/-- FFTC: every instance of its entry. -/
def fftcBatch (lead : Nat) (desc : OpDesc) (b : Batch) (m : Model) (_t : Nat) (d : Die) : Die :=
  match opAt m desc.locus.toNat with
  | some o => (instances b desc.entry.toNat).foldl (fun d rs => fftInstance lead desc.entry.toNat b m o rs d) d
  | none => d

/-- Cycles of the instances of an entry. -/
def fftcCycles (lead : Nat) (desc : OpDesc) (d : Die) (b : Batch) (m : Model) : Nat :=
  ((instances b desc.entry.toNat).map (fun rs =>
    cdiv (10 * m.k * 2 ^ byteAt ((rs.map (fun r => r.payload)).headD []) 5) (lanesOf d lead 1) + 32)).foldl (· + ·) 0

/-! ## LDPC (R195, R196) -/

/-- Bits of a radio payload. -/
def dataBits (p : Bytes) (n : Nat) : List Bool := (bitsOf (slice p 16 (cdiv n 8))).take n

/-- Set index of a lifting size (TS 38.212 Table 5.3.2-1). (PRESUMED, log entry 12) -/
def liftSet (z : Nat) : Nat :=
  ([2, 3, 5, 7, 9, 11, 13, 15].findIdx? (fun a => (List.range 8).any (fun j => a * 2 ^ j == z))).getD 0

/-- A row of the parity-check matrix over the codeword bits: the exclusive or of one bit per entry. -/
def parityRow (z : Nat) (c : Nat → Bool) (row : List (Nat × Nat)) (r : Nat) : Bool :=
  row.foldl (fun a e => a != c (e.1 * z + (r + e.2 % z) % z)) false

/-- Rows, columns and entries of a base graph (R73, R195). -/
def graphRows (bg : Nat) : Nat := if bg = 1 then 46 else 42
def graphCols (bg : Nat) : Nat := if bg = 1 then 68 else 52
def graphEntries (bg : Nat) : Nat := if bg = 1 then 316 else 197

/-- The entries of a row of a base graph for a lifting-size set: (column, V). (PRESUMED, log entry 12) -/
def graphRow (bg set row : Nat) : List (Nat × Nat) :=
  ((List.range (graphEntries bg)).filter (fun n => (Config.ldpcEntry bg n).1 % graphRows bg == row)).map (fun n =>
    ((Config.ldpcEntry bg n).2 % graphCols bg, Config.ldpcShift bg set n))

/-- H c = 0 for every row. (PRESUMED, log entry 12) -/
def syndromeZero (bg z : Nat) (bits : List Bool) : Bool :=
  (List.range (graphRows bg)).all (fun row =>
    (List.range z).all (fun r => !parityRow z (fun i => bits.getD i false) (graphRow bg (liftSet z) row) r))

/-- The RADIO_TB record that carries the same (tb, cb) as a RADIO_LDPC record. -/
def tbOf (b : Batch) (p : Bytes) : Option Bytes :=
  (b.staged.find? (fun s => s.rtype == 9 && u16At s.r.payload 8 == u16At p 8 && u16At s.r.payload 10 == u16At p 10)).map
    (fun s => s.r.payload)

/-- One code block passes its syndrome and its binding. -/
def ldpcOk (b : Batch) (p : Bytes) : Bool :=
  let bg := byteAt p 4
  let z := u16At p 6
  let bits := dataBits p (graphCols bg * z)
  let k := (if bg = 1 then 22 else 10) * z
  syndromeZero bg z bits &&
    match tbOf b p with
    | some q =>
      let n := u32At q 12
      decide (n ≤ k) && bits.take n == dataBits q n && ((bits.take k).drop n).all (fun v => !v)
    | none => false

/-- LDPC: every codeword of its entry. -/
def ldpcBatch (desc : OpDesc) (b : Batch) (_m : Model) (_t : Nat) (d : Die) : Die :=
  let d := noteRecords b.serial 8 desc.entry.toNat (fun _ => true) d
  if (radioRecs b desc.entry.toNat).all (fun r => ldpcOk b r.payload) then d else modTicket b.serial (addFail 0 8) d

/-- Cycles of the codewords of an entry. -/
def ldpcCycles (lead : Nat) (desc : OpDesc) (d : Die) (b : Batch) (_m : Model) : Nat :=
  ((radioRecs b desc.entry.toNat).map (fun r =>
    cdiv (graphEntries (byteAt r.payload 4) * u16At r.payload 6) (32 * lanesOf d lead 2) + 40)).foldl (· + ·) 0

/-! ## CRC (R197, R198) -/

/-- Bits as a number, first bit most significant. -/
def bitsVal (l : List Bool) : Nat := l.foldl (fun a b => 2 * a + b2n b) 0

/-- Bits end in the CRC of what stands before. -/
def crcOk (crc : List Bool → Nat) (bits : List Bool) : Bool :=
  crc (bits.take (bits.length - 24)) == bitsVal (bits.drop (bits.length - 24))

/-- The bits of a RADIO_TB record. -/
def tbBits (p : Bytes) : List Bool := dataBits p (u32At p 12)

/-- The transport blocks of more than one code block pass CRC24A over their concatenation. (DEDUCED, log entry 63) -/
def blocksOk (rs : List RecIn) : Bool :=
  ((rs.map (fun r => u16At r.payload 8)).eraseDups).all (fun tb =>
    crcOk crc24A ((rs.filter (fun r => u16At r.payload 8 == tb)).flatMap (fun r =>
      let v := tbBits r.payload
      v.take (v.length - 24))))

/-- CRC: every record of its entry; behind code blocks also their transport blocks. (DEDUCED, log entry 63) -/
def crcBatch (desc : OpDesc) (b : Batch) (_m : Model) (_t : Nat) (d : Die) : Die :=
  let rs := radioRecs b desc.entry.toNat
  let one (r : RecIn) : Bool := crcOk (if byteAt r.payload 4 = 1 then crc24A else crc24B) (tbBits r.payload)
  let two := rs.filter (fun r => byteAt r.payload 4 == 2)
  let d := noteRecords b.serial 9 desc.entry.toNat (fun _ => true) d
  if rs.all one && blocksOk two then d else modTicket b.serial (addFail 0 8) d

/-- Cycles of the CRC checks of an entry; a concatenation counts as a record of its length. -/
def crcCycles (lead : Nat) (desc : OpDesc) (d : Die) (b : Batch) (_m : Model) : Nat :=
  let rs := radioRecs b desc.entry.toNat
  let one (n : Nat) : Nat := cdiv n (4 * lanesOf d lead 2) + 24
  let two := rs.filter (fun r => byteAt r.payload 4 == 2)
  let tbs := (two.map (fun r => u16At r.payload 8)).eraseDups
  (rs.map (fun r => one (u32At r.payload 12)) ++ tbs.map (fun tb =>
    one (((two.filter (fun r => u16At r.payload 8 == tb)).map (fun r => u32At r.payload 12 - 24)).foldl (· + ·) 0))).foldl (· + ·) 0

/-! ## The instructions -/

/-- FFTC. -/
def execFftc (d : DieId) (lead : BitVec 3) (desc : OpDesc) (phys : List PhysFault) (s : State) :
    Host.Outcome State Fault Refusal :=
  runDie d (engineRun lead.toNat 1 0x22 desc (perBatch (fftcCycles lead.toNat desc)) (fftcBatch lead.toNat desc) phys) s

/-- LDPC. -/
def execLdpc (d : DieId) (lead : BitVec 3) (desc : OpDesc) (phys : List PhysFault) (s : State) :
    Host.Outcome State Fault Refusal :=
  runDie d (engineRun lead.toNat 2 0x28 desc (perBatch (ldpcCycles lead.toNat desc)) (ldpcBatch desc) phys) s

/-- CRC. -/
def execCrc (d : DieId) (lead : BitVec 3) (desc : OpDesc) (phys : List PhysFault) (s : State) :
    Host.Outcome State Fault Refusal :=
  runDie d (engineRun lead.toNat 2 0x29 desc (perBatch (crcCycles lead.toNat desc)) (crcBatch desc) phys) s

end Sys2Proof.Machine
end

