-- ==== Sys2Proof/Machine/Dispatch.lean ====
section
/-! DEFINITION. `exec`: one arm per command of the block, each one direct call of its meaning. -/

namespace Sys2Proof.Machine

def exec (i : Instr) (s : State) : Host.Outcome State Fault Refusal :=
  match i with
  | .resetNPulse lowNs => Sys2Proof.Machine.execResetNPulse lowNs s
  | .resetRelease d boot => Sys2Proof.Machine.execResetRelease d boot s
  | .railOutOfRange rail => Sys2Proof.Machine.execRailOutOfRange rail s
  | .railUndervoltage rail => Sys2Proof.Machine.execRailUndervoltage rail s
  | .sysclkOutOfRange d => Sys2Proof.Machine.execSysclkOutOfRange d s
  | .refclkLoss => Sys2Proof.Machine.execRefclkLoss s
  | .junctionTempCrossing d tj => Sys2Proof.Machine.execJunctionTempCrossing d tj s
  | .hbmTempCrossing temp => Sys2Proof.Machine.execHbmTempCrossing temp s
  | .fcuSourceLatch d => Sys2Proof.Machine.execFcuSourceLatch d s
  | .autumnReinitDone d passed => Sys2Proof.Machine.execAutumnReinitDone d passed s
  | .autumnTimeout d => Sys2Proof.Machine.execAutumnTimeout d s
  | .fcuSrcClear d hi value => Sys2Proof.Machine.execFcuSrcClear d hi value s
  | .fcuAck d value => Sys2Proof.Machine.execFcuAck d value s
  | .faultNMinPulseExpiry d => Sys2Proof.Machine.execFaultNMinPulseExpiry d s
  | .faultNHalfPeriod d => Sys2Proof.Machine.execFaultNHalfPeriod d s
  | .fabricStall d => Sys2Proof.Machine.execFabricStall d s
  | .blkErrClear d page value => Sys2Proof.Machine.execBlkErrClear d page value s
  | .blkErrForce d page value => Sys2Proof.Machine.execBlkErrForce d page value s
  | .blkCtrlEnableWrite d page value => Sys2Proof.Machine.execBlkCtrlEnableWrite d page value s
  | .registerWrite d addr value => Sys2Proof.Machine.execRegisterWrite d addr value s
  | .slotBoundary d => Sys2Proof.Machine.execSlotBoundary d s
  | .symbolTick d => Sys2Proof.Machine.execSymbolTick d s
  | .scrubRead d at_ region find firstOfPass => Sys2Proof.Machine.execScrubRead d at_ region find firstOfPass s
  | .scrubPassOverrun d kind => Sys2Proof.Machine.execScrubPassOverrun d kind s
  | .rowRewrite d at_ => Sys2Proof.Machine.execRowRewrite d at_ s
  | .rowSpareDone d at_ verified => Sys2Proof.Machine.execRowSpareDone d at_ verified s
  | .unitMapExtensionWrite d written => Sys2Proof.Machine.execUnitMapExtensionWrite d written s
  | .extensionWriteRetry d written => Sys2Proof.Machine.execExtensionWriteRetry d written s
  | .flitSlotTx d half replayEcc => Sys2Proof.Machine.execFlitSlotTx d half replayEcc s
  | .dataFlit d flit => Sys2Proof.Machine.execDataFlit d flit s
  | .idleFlit d flit => Sys2Proof.Machine.execIdleFlit d flit s
  | .hello d flit => Sys2Proof.Machine.execHello d flit s
  | .helloTx d => Sys2Proof.Machine.execHelloTx d s
  | .lanesLocked d => Sys2Proof.Machine.execLanesLocked d s
  | .adaptTimeout d locked => Sys2Proof.Machine.execAdaptTimeout d locked s
  | .flitLock d => Sys2Proof.Machine.execFlitLock d s
  | .flitHuntTimeout d => Sys2Proof.Machine.execFlitHuntTimeout d s
  | .helloTimeout d => Sys2Proof.Machine.execHelloTimeout d s
  | .retrainLimitExpiry d => Sys2Proof.Machine.execRetrainLimitExpiry d s
  | .nakRepeatLimit d => Sys2Proof.Machine.execNakRepeatLimit d s
  | .flitLockLost d => Sys2Proof.Machine.execFlitLockLost d s
  | .cdrLockLost d => Sys2Proof.Machine.execCdrLockLost d s
  | .fecErrorThreshold d half => Sys2Proof.Machine.execFecErrorThreshold d half s
  | .creditProgressTimeout d => Sys2Proof.Machine.execCreditProgressTimeout d s
  | .wlkCmdRetrain d => Sys2Proof.Machine.execWlkCmdRetrain d s
  | .wlkCmdResync d => Sys2Proof.Machine.execWlkCmdResync d s
  | .wlkCmdRestore d => Sys2Proof.Machine.execWlkCmdRestore d s
  | .wlkCmdRetire d => Sys2Proof.Machine.execWlkCmdRetire d s
  | .stampedFrameForward d => Sys2Proof.Machine.execStampedFrameForward d s
  | .layerOut d r => Sys2Proof.Machine.execLayerOut d r s
  | .layerIn d r => Sys2Proof.Machine.execLayerIn d r s
  | .attnOut d r => Sys2Proof.Machine.execAttnOut d r s
  | .tokenEnd d r => Sys2Proof.Machine.execTokenEnd d r s
  | .batchEnd d r => Sys2Proof.Machine.execBatchEnd d r s
  | .output d r => Sys2Proof.Machine.execOutput d r s
  | .radioFft d r => Sys2Proof.Machine.execRadioFft d r s
  | .radioLdpc d r => Sys2Proof.Machine.execRadioLdpc d r s
  | .radioTb d r => Sys2Proof.Machine.execRadioTb d r s
  | .shardDigest d r => Sys2Proof.Machine.execShardDigest d r s
  | .weightChunk d r => Sys2Proof.Machine.execWeightChunk d r s
  | .ratchetBump d r => Sys2Proof.Machine.execRatchetBump d r s
  | .heartbeat d r => Sys2Proof.Machine.execHeartbeat d r s
  | .heartbeatTimeout d => Sys2Proof.Machine.execHeartbeatTimeout d s
  | .stagingRoomFree d lead => Sys2Proof.Machine.execStagingRoomFree d lead s
  | .ticketAvailable d => Sys2Proof.Machine.execTicketAvailable d s
  | .admitModel d f => Sys2Proof.Machine.execAdmitModel d f s
  | .spokeAdmit d m => Sys2Proof.Machine.execSpokeAdmit d m s
  | .weightStreamStart d => Sys2Proof.Machine.execWeightStreamStart d s
  | .rpmbWriteConfirm d => Sys2Proof.Machine.execRpmbWriteConfirm d s
  | .rpmbAdmissionTimeout d => Sys2Proof.Machine.execRpmbAdmissionTimeout d s
  | .rpmbRetry d => Sys2Proof.Machine.execRpmbRetry d s
  | .rpmbLost d => Sys2Proof.Machine.execRpmbLost d s
  | .loadTimeout d => Sys2Proof.Machine.execLoadTimeout d s
  | .withdraw d f => Sys2Proof.Machine.execWithdraw d f s
  | .turn d f => Sys2Proof.Machine.execTurn d f s
  | .monthPeriodExpiry d slot => Sys2Proof.Machine.execMonthPeriodExpiry d slot s
  | .monthTurnStart d slot => Sys2Proof.Machine.execMonthTurnStart d slot s
  | .spokeTurn d m => Sys2Proof.Machine.execSpokeTurn d m s
  | .nop d lead => Sys2Proof.Machine.execNop d lead s
  | .movi d lead a imm => Sys2Proof.Machine.execMovi d lead a imm s
  | .add d lead a b c => Sys2Proof.Machine.execAdd d lead a b c s
  | .addi d lead a b imm => Sys2Proof.Machine.execAddi d lead a b imm s
  | .mul d lead a b c => Sys2Proof.Machine.execMul d lead a b c s
  | .shl d lead a b imm => Sys2Proof.Machine.execShl d lead a b imm s
  | .ldc d lead a imm => Sys2Proof.Machine.execLdc d lead a imm s
  | .ldb d lead a imm => Sys2Proof.Machine.execLdb d lead a imm s
  | .loop d lead a imm => Sys2Proof.Machine.execLoop d lead a imm s
  | .jmp d lead imm => Sys2Proof.Machine.execJmp d lead imm s
  | .wrec d lead imm => Sys2Proof.Machine.execWrec d lead imm s
  | .next d lead imm => Sys2Proof.Machine.execNext d lead imm s
  | .sync d lead imm => Sys2Proof.Machine.execSync d lead imm s
  | .mark d lead => Sys2Proof.Machine.execMark d lead s
  | .done d lead => Sys2Proof.Machine.execDone d lead s
  | .rchk d lead desc phys => Sys2Proof.Machine.execRchk d lead desc phys s
  | .bchk d lead desc phys => Sys2Proof.Machine.execBchk d lead desc phys s
  | .fftc d lead desc phys => Sys2Proof.Machine.execFftc d lead desc phys s
  | .ldpc d lead desc phys => Sys2Proof.Machine.execLdpc d lead desc phys s
  | .crc d lead desc phys => Sys2Proof.Machine.execCrc d lead desc phys s
  | .dq d lead desc phys => Sys2Proof.Machine.execDq d lead desc phys s
  | .qnt d lead desc phys => Sys2Proof.Machine.execQnt d lead desc phys s
  | .addv d lead desc phys => Sys2Proof.Machine.execAddv d lead desc phys s
  | .norm d lead desc phys => Sys2Proof.Machine.execNorm d lead desc phys s
  | .normf d lead desc phys => Sys2Proof.Machine.execNormf d lead desc phys s
  | .act d lead desc phys => Sys2Proof.Machine.execAct d lead desc phys s
  | .actf d lead desc phys => Sys2Proof.Machine.execActf d lead desc phys s
  | .rope d lead desc phys => Sys2Proof.Machine.execRope d lead desc phys s
  | .band d lead desc phys => Sys2Proof.Machine.execBand d lead desc phys s
  | .sel d lead desc phys => Sys2Proof.Machine.execSel d lead desc phys s
  | .ocmp d lead desc phys => Sys2Proof.Machine.execOcmp d lead desc phys s
  | .emb d lead desc phys => Sys2Proof.Machine.execEmb d lead desc phys s
  | .kvapp d lead desc phys => Sys2Proof.Machine.execKvapp d lead desc phys s
  | .attn d lead desc phys => Sys2Proof.Machine.execAttn d lead desc phys s
  | .acmp d lead desc phys => Sys2Proof.Machine.execAcmp d lead desc phys s
  | .dig d lead desc phys => Sys2Proof.Machine.execDig d lead desc phys s
  | .dcmp d lead desc phys => Sys2Proof.Machine.execDcmp d lead desc phys s
  | .shdc d lead desc phys => Sys2Proof.Machine.execShdc d lead desc phys s
  | .spareSubstitutionDone d blk unit passed => Sys2Proof.Machine.execSpareSubstitutionDone d blk unit passed s
  | .trikeResync d lead => Sys2Proof.Machine.execTrikeResync d lead s
  | .trikeResyncDone d lead => Sys2Proof.Machine.execTrikeResyncDone d lead s
  | .commitPoint d entry => Sys2Proof.Machine.execCommitPoint d entry s
  | .verdictTime d entry => Sys2Proof.Machine.execVerdictTime d entry s
  | .radioSlotLate d channel slot => Sys2Proof.Machine.execRadioSlotLate d channel slot s
  | .declareCutoff d channel => Sys2Proof.Machine.execDeclareCutoff d channel s
  | .sealPeriodBoundary d => Sys2Proof.Machine.execSealPeriodBoundary d s
  | .sealSigned d codeOk verifyOk => Sys2Proof.Machine.execSealSigned d codeOk verifyOk s
  | .sigCmdCut d => Sys2Proof.Machine.execSigCmdCut d s
  | .sigCmdRetire0 d => Sys2Proof.Machine.execSigCmdRetire0 d s
  | .sigCmdRetire1 d => Sys2Proof.Machine.execSigCmdRetire1 d s
  | .imageRehash d image digestOk => Sys2Proof.Machine.execImageRehash d image digestOk s
  | .vpPairCmdStart d target => Sys2Proof.Machine.execVpPairCmdStart d target s
  | .handoverTakeEffect d => Sys2Proof.Machine.execHandoverTakeEffect d s
  | .vpCmdInject d pipe => Sys2Proof.Machine.execVpCmdInject d pipe s
  | .vpCmdRetire d pipe => Sys2Proof.Machine.execVpCmdRetire d pipe s
  | .dbgCtrlHalt d group => Sys2Proof.Machine.execDbgCtrlHalt d group s
  | .dbgCtrlStep d => Sys2Proof.Machine.execDbgCtrlStep d s
  | .dbgCtrlResume d => Sys2Proof.Machine.execDbgCtrlResume d s
  | .dbgCtrlReplay d ended => Sys2Proof.Machine.execDbgCtrlReplay d ended s
  | .dbgLogCfgArm d channel => Sys2Proof.Machine.execDbgLogCfgArm d channel s
  | .declare d m => Sys2Proof.Machine.execDeclare d m s
  | .spokePhase d m => Sys2Proof.Machine.execSpokePhase d m s
  | .spokeSlot d m skewNs => Sys2Proof.Machine.execSpokeSlot d m skewNs s
  | .spokePair d m => Sys2Proof.Machine.execSpokePair d m s
  | .spokeEcho d m => Sys2Proof.Machine.execSpokeEcho d m s
  | .spokeEchoTx d => Sys2Proof.Machine.execSpokeEchoTx d s
  | .spokeTimeout d => Sys2Proof.Machine.execSpokeTimeout d s
  | .windowStart d entry => Sys2Proof.Machine.execWindowStart d entry s
  | .segmentStart d entry => Sys2Proof.Machine.execSegmentStart d entry s
  | .spanEnd d entry => Sys2Proof.Machine.execSpanEnd d entry s
  | .selftest d entry passed unit => Sys2Proof.Machine.execSelftest d entry passed unit s
  | .canary d entry => Sys2Proof.Machine.execCanary d entry s
  | .testpulse d entry => Sys2Proof.Machine.execTestpulse d entry s
  | .rebuild d entry tableEcc => Sys2Proof.Machine.execRebuild d entry tableEcc s
  | .sentinel d entry => Sys2Proof.Machine.execSentinel d entry s
  | .sentinelRunComplete d image ended => Sys2Proof.Machine.execSentinelRunComplete d image ended s
  | .cadCmdLoadStandby d => Sys2Proof.Machine.execCadCmdLoadStandby d s
  | .cadCmdSwap d => Sys2Proof.Machine.execCadCmdSwap d s
  | .cadCmdDiscard d => Sys2Proof.Machine.execCadCmdDiscard d s
  | .chnCmdCreate d channel => Sys2Proof.Machine.execChnCmdCreate d channel s
  | .chnCmdPause d channel => Sys2Proof.Machine.execChnCmdPause d channel s
  | .chnCmdResume d channel => Sys2Proof.Machine.execChnCmdResume d channel s
  | .chnCmdClose d channel => Sys2Proof.Machine.execChnCmdClose d channel s
  | .chnCmdRetire d channel => Sys2Proof.Machine.execChnCmdRetire d channel s
  | .chnCmdFree d channel => Sys2Proof.Machine.execChnCmdFree d channel s
  | .chnCmdRead d channel => Sys2Proof.Machine.execChnCmdRead d channel s
  | .chnCmdSave d channel => Sys2Proof.Machine.execChnCmdSave d channel s
  | .chnCmdRestore d channel => Sys2Proof.Machine.execChnCmdRestore d channel s
  | .chnRingTail d channel tail => Sys2Proof.Machine.execChnRingTail d channel tail s
  | .ratCfgOwner d ratchet owner => Sys2Proof.Machine.execRatCfgOwner d ratchet owner s
  | .ratValLo d ratchet value => Sys2Proof.Machine.execRatValLo d ratchet value s
  | .ratValHi d ratchet value => Sys2Proof.Machine.execRatValHi d ratchet value s
  | .ratchetBumpDownstream d ratchet => Sys2Proof.Machine.execRatchetBumpDownstream d ratchet s
  | .sntCmdLoad d image => Sys2Proof.Machine.execSntCmdLoad d image s
  | .sntCmdUnload d image => Sys2Proof.Machine.execSntCmdUnload d image s
  | .sntCmdRetire d unit => Sys2Proof.Machine.execSntCmdRetire d unit s
  | .sntCmdSelfTest d unit => Sys2Proof.Machine.execSntCmdSelfTest d unit s
  | .resCmdRetire d tile => Sys2Proof.Machine.execResCmdRetire d tile s
  | .resCmdSelfTest d tile => Sys2Proof.Machine.execResCmdSelfTest d tile s
  | .bndCmdRetire d tile => Sys2Proof.Machine.execBndCmdRetire d tile s
  | .bndCmdSelfTest d tile => Sys2Proof.Machine.execBndCmdSelfTest d tile s
  | .nleCmdRetire d tile => Sys2Proof.Machine.execNleCmdRetire d tile s
  | .nleCmdSelfTest d tile => Sys2Proof.Machine.execNleCmdSelfTest d tile s
  | .cweCmdRetire d tile => Sys2Proof.Machine.execCweCmdRetire d tile s
  | .cweCmdSelfTest d tile => Sys2Proof.Machine.execCweCmdSelfTest d tile s
  | .shkCmdRetire d core => Sys2Proof.Machine.execShkCmdRetire d core s
  | .shkCmdSelfTest d core => Sys2Proof.Machine.execShkCmdSelfTest d core s
  | .glbModeStrict d strict => Sys2Proof.Machine.execGlbModeStrict d strict s
  | .sensorEnvelope d port f => Sys2Proof.Machine.execSensorEnvelope d port f s
  | .ecpriIqData d port f => Sys2Proof.Machine.execEcpriIqData d port f s
  | .ingLinkChange d port up => Sys2Proof.Machine.execIngLinkChange d port up s
  | .hstLinkChange d up => Sys2Proof.Machine.execHstLinkChange d up s
  | .pelLinkChange d port up => Sys2Proof.Machine.execPelLinkChange d port up s
  | .atFrame d => Sys2Proof.Machine.execAtFrame d s
  | .atSfn d word parityOk => Sys2Proof.Machine.execAtSfn d word parityOk s
  | .atFrameMissing d => Sys2Proof.Machine.execAtFrameMissing d s
  | .ptpSync d m => Sys2Proof.Machine.execPtpSync d m s
  | .ptpFollowUp d m => Sys2Proof.Machine.execPtpFollowUp d m s
  | .ptpAnnounce d m => Sys2Proof.Machine.execPtpAnnounce d m s
  | .ptpDelayReqTx d => Sys2Proof.Machine.execPtpDelayReqTx d s
  | .ptpDelayResp d m => Sys2Proof.Machine.execPtpDelayResp d m s
  | .ptpPdelayReq d m => Sys2Proof.Machine.execPtpPdelayReq d m s
  | .ptpPdelayResp d m => Sys2Proof.Machine.execPtpPdelayResp d m s
  | .ptpSyncTimeout d => Sys2Proof.Machine.execPtpSyncTimeout d s
  | .timStep d step => Sys2Proof.Machine.execTimStep d step s
  | .timCmdAsymAccept d => Sys2Proof.Machine.execTimCmdAsymAccept d s
  | .timCmdAtReacquire d => Sys2Proof.Machine.execTimCmdAtReacquire d s
  | .timTrigTgtHi d value => Sys2Proof.Machine.execTimTrigTgtHi d value s
  | .triggerFire d trigger => Sys2Proof.Machine.execTriggerFire d trigger s
  | .hstQbvCfgSwap d => Sys2Proof.Machine.execHstQbvCfgSwap d s
  | .wardenCycle d smp => Sys2Proof.Machine.execWardenCycle d smp s
  | .darkTestPulseEnd d output ok => Sys2Proof.Machine.execDarkTestPulseEnd d output ok s
  | .tpIntervalExpiry d output => Sys2Proof.Machine.execTpIntervalExpiry d output s
  | .discrepancyTimeout d input => Sys2Proof.Machine.execDiscrepancyTimeout d input s
  | .edmTimeout d output => Sys2Proof.Machine.execEdmTimeout d output s
  | .crosslinkTimeout d => Sys2Proof.Machine.execCrosslinkTimeout d s
  | .clockCountWindow d => Sys2Proof.Machine.execClockCountWindow d s
  | .profileCrcCheck d crcOk => Sys2Proof.Machine.execProfileCrcCheck d crcOk s
  | .switchWordChange d word => Sys2Proof.Machine.execSwitchWordChange d word s
  | .wdnReset d => Sys2Proof.Machine.execWdnReset d s
  | .wdnCmdStop d zones => Sys2Proof.Machine.execWdnCmdStop d zones s
  | .wdnCmdRelease d zones => Sys2Proof.Machine.execWdnCmdRelease d zones s
  | .tickLoss d => Sys2Proof.Machine.execTickLoss d s
  | .watchdogExpiry d watch stage => Sys2Proof.Machine.execWatchdogExpiry d watch stage s
  | .freewheelExpiry d zone => Sys2Proof.Machine.execFreewheelExpiry d zone s
  | .sentinelPermitStale d zone => Sys2Proof.Machine.execSentinelPermitStale d zone s
  | .wardenStartUpDone d passed => Sys2Proof.Machine.execWardenStartUpDone d passed s
  | .pannierOpen d f => Sys2Proof.Machine.execPannierOpen d f s
  | .confirm d f => Sys2Proof.Machine.execConfirm d f s
  | .confirmTimeout d session => Sys2Proof.Machine.execConfirmTimeout d session s
  | .close d f => Sys2Proof.Machine.execClose d f s
  | .keepalive d f => Sys2Proof.Machine.execKeepalive d f s
  | .sessionIdleTimeout d session => Sys2Proof.Machine.execSessionIdleTimeout d session s
  | .tagFailLimit d session => Sys2Proof.Machine.execTagFailLimit d session s
  | .read d f => Sys2Proof.Machine.execRead d f s
  | .write d f => Sys2Proof.Machine.execWrite d f s
  | .bulkPut d f => Sys2Proof.Machine.execBulkPut d f s
  | .bulkGet d f => Sys2Proof.Machine.execBulkGet d f s
  | .sealAck d f => Sys2Proof.Machine.execSealAck d f s
  | .flashCommit d f readBack => Sys2Proof.Machine.execFlashCommit d f readBack s
  | .claim d f => Sys2Proof.Machine.execClaim d f s
  | .release d f => Sys2Proof.Machine.execRelease d f s
  | .unlock d f => Sys2Proof.Machine.execUnlock d f s
  | .lock d f => Sys2Proof.Machine.execLock d f s
  | .subscribe d f => Sys2Proof.Machine.execSubscribe d f s
  | .keyCmdLock d => Sys2Proof.Machine.execKeyCmdLock d s
  | .keyCmdReload d => Sys2Proof.Machine.execKeyCmdReload d s
  | .disc d port m => Sys2Proof.Machine.execDisc d port m s
  | .discTx d port => Sys2Proof.Machine.execDiscTx d port s
  | .pelotonEcho d port m => Sys2Proof.Machine.execPelotonEcho d port m s
  | .echoReply d port m => Sys2Proof.Machine.execEchoReply d port m s
  | .topo d port m => Sys2Proof.Machine.execTopo d port m s
  | .pelCmdForm d => Sys2Proof.Machine.execPelCmdForm d s
  | .formationQuiet d => Sys2Proof.Machine.execFormationQuiet d s
  | .pelGateCmdArrive d gate => Sys2Proof.Machine.execPelGateCmdArrive d gate s
  | .gateArrive d port m => Sys2Proof.Machine.execGateArrive d port m s
  | .gateRelease d port m => Sys2Proof.Machine.execGateRelease d port m s
  | .gateCountdownExpiry d gate => Sys2Proof.Machine.execGateCountdownExpiry d gate s
  | .gateAbort d port m => Sys2Proof.Machine.execGateAbort d port m s
  | .gateTimeout d gate => Sys2Proof.Machine.execGateTimeout d gate s
  | .pelChainCmdLoad d entry => Sys2Proof.Machine.execPelChainCmdLoad d entry s
  | .pelChainCmdClear d entry => Sys2Proof.Machine.execPelChainCmdClear d entry s
  | .pelChainCmdRead d entry => Sys2Proof.Machine.execPelChainCmdRead d entry s
  | .pelChainCmdSwitchPrev d entry => Sys2Proof.Machine.execPelChainCmdSwitchPrev d entry s
  | .pelChainCmdSwitchNext d entry => Sys2Proof.Machine.execPelChainCmdSwitchNext d entry s
  | .chainOpen d port m => Sys2Proof.Machine.execChainOpen d port m s
  | .chainAuth d port m => Sys2Proof.Machine.execChainAuth d port m s
  | .boundary d port m => Sys2Proof.Machine.execBoundary d port m s
  | .chainAlive d port m => Sys2Proof.Machine.execChainAlive d port m s
  | .chainAliveTx d entry => Sys2Proof.Machine.execChainAliveTx d entry s
  | .chainTimeout d entry next => Sys2Proof.Machine.execChainTimeout d entry next s
  | .thawSequenceComplete d passed cause => Sys2Proof.Machine.execThawSequenceComplete d passed cause s
  | .ptpFrameEdge d => Sys2Proof.Machine.execPtpFrameEdge d s
  | .encoderInputEdge d a b z => Sys2Proof.Machine.execEncoderInputEdge d a b z s
  | .controlFabricHeartbeat d => Sys2Proof.Machine.execControlFabricHeartbeat d s
  | .sysclkReturns d => Sys2Proof.Machine.execSysclkReturns d s
  | .refclkReturns => Sys2Proof.Machine.execRefclkReturns s
  | .railReturnsToRange rail => Sys2Proof.Machine.execRailReturnsToRange rail s
  | .qbvGateIntervalEnd d => Sys2Proof.Machine.execQbvGateIntervalEnd d s
  | .recoveryResetTimeout d => Sys2Proof.Machine.execRecoveryResetTimeout d s
  | .sentinelImageResident d image => Sys2Proof.Machine.execSentinelImageResident d image s

end Sys2Proof.Machine
end

