-- ==== Sys2Proof/Safety.lean ====
section
/-! DEFINITION. What statements about the block are said in: safe runs, the dies that a command may change, and the
invariants of the block's states. -/

namespace Sys2Proof.Machine

/-! ## Runs -/

/-- The next n steps from a state neither fault nor refuse, and end in t. -/
def Reaches (n : Nat) (s t : State) : Prop := Sys2Proof.core.run n s = .next t

/-- A run of any length from a state never faults and never refuses. -/
def SafeFrom (s : State) : Prop := ∀ n, ∃ t, Reaches n s t

/-- A command runs on a state: it has a next state, of which something holds. -/
abbrev Runs (c : Instr) (s : State) (post : State → Prop) : Prop := ∃ t, exec c s = .next t ∧ post t

/-- A command runs on a state and changes nothing but one die, which becomes x. -/
abbrev RunsTo (c : Instr) (s : State) (d : DieId) (x : Die) : Prop := exec c s = .next (s.setDie d x)

/-! ## The dies that a command may change -/

/-- The die, or the die of the Warden channel, that a rail below its threshold holds in reset (R481). -/
def railHeld : Rail → List DieId
  | .vddSys d => [d]
  | .vddWdn d => [d]
  | .vddioWdn d => [d]
  | _ => []

/-- The dies that a command may change; every other die stays as it is. -/
def touches : Instr → List DieId
  | .resetNPulse _ => [.a, .b]
  | .resetRelease d _ => [d]
  | .railOutOfRange _ => [.a, .b]
  | .railUndervoltage rail => railHeld rail
  | .sysclkOutOfRange d => [d]
  | .refclkLoss => [.a, .b]
  | .junctionTempCrossing d _ => [d]
  | .hbmTempCrossing _ => [.a, .b]
  | .fcuSourceLatch d => [d]
  | .autumnReinitDone d _ => [d]
  | .autumnTimeout d => [d]
  | .fcuSrcClear d _ _ => [d]
  | .fcuAck d _ => [d]
  | .faultNMinPulseExpiry d => [d]
  | .faultNHalfPeriod d => [d]
  | .fabricStall d => [d]
  | .blkErrClear d _ _ => [d]
  | .blkErrForce d _ _ => [d]
  | .blkCtrlEnableWrite _ _ _ => [.a, .b]
  | .registerWrite _ _ _ => [.a, .b]
  | .slotBoundary d => [d]
  | .symbolTick d => [d]
  | .scrubRead d _ _ _ _ => [d]
  | .scrubPassOverrun d _ => [d]
  | .rowRewrite d _ => [d]
  | .rowSpareDone d _ _ => [d]
  | .unitMapExtensionWrite d _ => [d]
  | .extensionWriteRetry d _ => [d]
  | .flitSlotTx d _ _ => [d]
  | .dataFlit d _ => [d]
  | .idleFlit d _ => [d]
  | .hello d _ => [d]
  | .helloTx d => [d]
  | .lanesLocked d => [d]
  | .adaptTimeout d _ => [d]
  | .flitLock d => [d]
  | .flitHuntTimeout d => [d]
  | .helloTimeout d => [d]
  | .retrainLimitExpiry d => [d]
  | .nakRepeatLimit d => [d]
  | .flitLockLost d => [d]
  | .cdrLockLost d => [d]
  | .fecErrorThreshold d _ => [d]
  | .creditProgressTimeout d => [d]
  | .wlkCmdRetrain d => [d]
  | .wlkCmdResync d => [d]
  | .wlkCmdRestore d => [d]
  | .wlkCmdRetire d => [d]
  | .stampedFrameForward d => [d]
  | .layerOut d _ => [d]
  | .layerIn d _ => [d]
  | .attnOut d _ => [d]
  | .tokenEnd d _ => [d]
  | .batchEnd d _ => [d]
  | .output d _ => [d]
  | .radioFft d _ => [d]
  | .radioLdpc d _ => [d]
  | .radioTb d _ => [d]
  | .shardDigest d _ => [d]
  | .weightChunk d _ => [d]
  | .ratchetBump d _ => [d]
  | .heartbeat d _ => [d]
  | .heartbeatTimeout d => [d]
  | .stagingRoomFree d _ => [d]
  | .ticketAvailable d => [d]
  | .admitModel d _ => [d]
  | .spokeAdmit d _ => [d]
  | .weightStreamStart d => [d]
  | .rpmbWriteConfirm d => [d]
  | .rpmbAdmissionTimeout d => [d]
  | .rpmbRetry d => [d]
  | .rpmbLost d => [d]
  | .loadTimeout d => [d]
  | .withdraw d _ => [d]
  | .turn d _ => [d]
  | .monthPeriodExpiry d _ => [d]
  | .monthTurnStart d _ => [d]
  | .spokeTurn d _ => [d]
  | .nop d _ => [d]
  | .movi d _ _ _ => [d]
  | .add d _ _ _ _ => [d]
  | .addi d _ _ _ _ => [d]
  | .mul d _ _ _ _ => [d]
  | .shl d _ _ _ _ => [d]
  | .ldc d _ _ _ => [d]
  | .ldb d _ _ _ => [d]
  | .loop d _ _ _ => [d]
  | .jmp d _ _ => [d]
  | .wrec d _ _ => [d]
  | .next d _ _ => [d]
  | .sync d _ _ => [d]
  | .mark d _ => [d]
  | .done d _ => [d]
  | .rchk d _ _ _ => [d]
  | .bchk d _ _ _ => [d]
  | .fftc d _ _ _ => [d]
  | .ldpc d _ _ _ => [d]
  | .crc d _ _ _ => [d]
  | .dq d _ _ _ => [d]
  | .qnt d _ _ _ => [d]
  | .addv d _ _ _ => [d]
  | .norm d _ _ _ => [d]
  | .normf d _ _ _ => [d]
  | .act d _ _ _ => [d]
  | .actf d _ _ _ => [d]
  | .rope d _ _ _ => [d]
  | .band d _ _ _ => [d]
  | .sel d _ _ _ => [d]
  | .ocmp d _ _ _ => [d]
  | .emb d _ _ _ => [d]
  | .kvapp d _ _ _ => [d]
  | .attn d _ _ _ => [d]
  | .acmp d _ _ _ => [d]
  | .dig d _ _ _ => [d]
  | .dcmp d _ _ _ => [d]
  | .shdc d _ _ _ => [d]
  | .spareSubstitutionDone d _ _ _ => [d]
  | .trikeResync d _ => [d]
  | .trikeResyncDone d _ => [d]
  | .commitPoint d _ => [d]
  | .verdictTime d _ => [d]
  | .radioSlotLate d _ _ => [d]
  | .declareCutoff d _ => [d]
  | .sealPeriodBoundary d => [d]
  | .sealSigned d _ _ => [d]
  | .sigCmdCut d => [d]
  | .sigCmdRetire0 d => [d]
  | .sigCmdRetire1 d => [d]
  | .imageRehash d _ _ => [d]
  | .vpPairCmdStart d _ => [d]
  | .handoverTakeEffect _ => [.a, .b]
  | .vpCmdInject d _ => [d]
  | .vpCmdRetire d _ => [d]
  | .dbgCtrlHalt d _ => [d]
  | .dbgCtrlStep d => [d.at_]
  | .dbgCtrlResume d => [d]
  | .dbgCtrlReplay d _ => [d]
  | .dbgLogCfgArm d _ => [d]
  | .declare d _ => [d]
  | .spokePhase d _ => [d]
  | .spokeSlot d _ _ => [d]
  | .spokePair d _ => [d]
  | .spokeEcho d _ => [d]
  | .spokeEchoTx d => [d]
  | .spokeTimeout d => [d]
  | .windowStart d _ => [d]
  | .segmentStart d _ => [d]
  | .spanEnd d _ => [d]
  | .selftest d _ _ _ => [d]
  | .canary d _ => [d]
  | .testpulse d _ => [d]
  | .rebuild d _ _ => [d]
  | .sentinel d _ => [d]
  | .sentinelRunComplete d _ _ => [d]
  | .cadCmdLoadStandby d => [d]
  | .cadCmdSwap d => [d]
  | .cadCmdDiscard d => [d]
  | .chnCmdCreate _ _ => [.a, .b]
  | .chnCmdPause d _ => [d]
  | .chnCmdResume d _ => [d]
  | .chnCmdClose d _ => [d]
  | .chnCmdRetire d _ => [d]
  | .chnCmdFree d _ => [d]
  | .chnCmdRead d _ => [d]
  | .chnCmdSave d _ => [d]
  | .chnCmdRestore d _ => [d]
  | .chnRingTail d _ _ => [d]
  | .ratCfgOwner d _ _ => [d]
  | .ratValLo d _ _ => [d]
  | .ratValHi d _ _ => [d]
  | .ratchetBumpDownstream d _ => [d]
  | .sntCmdLoad d _ => [d]
  | .sntCmdUnload d _ => [d]
  | .sntCmdRetire d _ => [d]
  | .sntCmdSelfTest d _ => [d]
  | .resCmdRetire d _ => [d]
  | .resCmdSelfTest d _ => [d]
  | .bndCmdRetire d _ => [d]
  | .bndCmdSelfTest d _ => [d]
  | .nleCmdRetire d _ => [d]
  | .nleCmdSelfTest d _ => [d]
  | .cweCmdRetire d _ => [d]
  | .cweCmdSelfTest d _ => [d]
  | .shkCmdRetire d _ => [d]
  | .shkCmdSelfTest d _ => [d]
  | .glbModeStrict _ _ => [.a, .b]
  | .sensorEnvelope d _ _ => [d]
  | .ecpriIqData d _ _ => [d]
  | .ingLinkChange d _ _ => [d]
  | .hstLinkChange _ _ => [.a, .b]
  | .pelLinkChange d _ _ => [d]
  | .atFrame d => [d]
  | .atSfn d _ _ => [d]
  | .atFrameMissing d => [d]
  | .ptpSync d _ => [d]
  | .ptpFollowUp d _ => [d]
  | .ptpAnnounce d _ => [d]
  | .ptpDelayReqTx d => [d]
  | .ptpDelayResp d _ => [d]
  | .ptpPdelayReq d _ => [d]
  | .ptpPdelayResp d _ => [d]
  | .ptpSyncTimeout d => [d]
  | .timStep d _ => [d]
  | .timCmdAsymAccept d => [d]
  | .timCmdAtReacquire d => [d]
  | .timTrigTgtHi d _ => [d]
  | .triggerFire d _ => [d]
  | .hstQbvCfgSwap d => [d]
  | .wardenCycle d _ => [d]
  | .darkTestPulseEnd d _ _ => [d]
  | .tpIntervalExpiry d _ => [d]
  | .discrepancyTimeout d _ => [d]
  | .edmTimeout d _ => [d]
  | .crosslinkTimeout d => [d]
  | .clockCountWindow d => [d]
  | .profileCrcCheck d _ => [d]
  | .switchWordChange _ _ => [.a, .b]
  | .wdnReset _ => [.a, .b]
  | .wdnCmdStop d _ => [d]
  | .wdnCmdRelease d _ => [d]
  | .tickLoss d => [d]
  | .watchdogExpiry d _ _ => [d]
  | .freewheelExpiry d _ => [d]
  | .sentinelPermitStale d _ => [d]
  | .wardenStartUpDone d _ => [d]
  | .pannierOpen d _ => [d]
  | .confirm d _ => [d]
  | .confirmTimeout d _ => [d]
  | .close d _ => [d]
  | .keepalive d _ => [d]
  | .sessionIdleTimeout d _ => [d]
  | .tagFailLimit d _ => [d]
  | .read d _ => [d]
  | .write _ _ => [.a, .b]
  | .bulkPut d _ => [d]
  | .bulkGet d _ => [d]
  | .sealAck d _ => [d]
  | .flashCommit d _ _ => [d]
  | .claim d _ => [d]
  | .release d _ => [d]
  | .unlock d _ => [d]
  | .lock d _ => [d]
  | .subscribe d _ => [d]
  | .keyCmdLock d => [d]
  | .keyCmdReload d => [d]
  | .disc d _ _ => [d]
  | .discTx d _ => [d]
  | .pelotonEcho d _ _ => [d]
  | .echoReply d _ _ => [d]
  | .topo d _ _ => [d]
  | .pelCmdForm d => [d]
  | .formationQuiet d => [d]
  | .pelGateCmdArrive d _ => [d]
  | .gateArrive d _ _ => [d]
  | .gateRelease d _ _ => [d]
  | .gateCountdownExpiry d _ => [d]
  | .gateAbort d _ _ => [d]
  | .gateTimeout d _ => [d]
  | .pelChainCmdLoad d _ => [d]
  | .pelChainCmdClear d _ => [d]
  | .pelChainCmdRead d _ => [d]
  | .pelChainCmdSwitchPrev d _ => [d]
  | .pelChainCmdSwitchNext d _ => [d]
  | .chainOpen d _ _ => [d]
  | .chainAuth d _ _ => [d]
  | .boundary d _ _ => [d]
  | .chainAlive d _ _ => [d]
  | .chainAliveTx d _ => [d]
  | .chainTimeout d _ _ => [d]
  | .thawSequenceComplete d _ _ => [d]
  | .ptpFrameEdge d => [d]
  | .encoderInputEdge d _ _ _ => [d]
  | .controlFabricHeartbeat d => [d]
  | .sysclkReturns d => [d]
  | .refclkReturns => [.a, .b]
  | .railReturnsToRange _ => [.a, .b]
  | .qbvGateIntervalEnd d => [d]
  | .recoveryResetTimeout d => [d]
  | .sentinelImageResident d _ => [d]

/-- The command changes a rail or the reference clock of the package. -/
def changesPackage : Instr → Bool
  | .railOutOfRange _ => true
  | .railUndervoltage _ => true
  | .railReturnsToRange _ => true
  | .refclkLoss => true
  | .refclkReturns => true
  | _ => false

/-! ## Records -/

/-- WRD meets a record at once: nothing waits on its virtual channel, the channel does not hunt, and the header is good
(R88, R90). -/
def Met (rtype : Nat) (r : RecIn) (d : Die) : Prop :=
  r.vc.toNat ≤ 2 ∧ (v3get d.wrd.wait r.vc.toNat).isEmpty = true ∧ v3get d.wrd.hunt r.vc.toNat = false ∧ headOk rtype r = true

/-- The channel of a record takes records, and a batch of it is open: with its model and its ticket (R60, R294). -/
def Joins (r : RecIn) (m : Model) (b : Batch) (d : Die) : Prop :=
  let x := chan d (recChan r)
  r.vc.toNat < 2 ∧ model d x.host.slot = some m ∧ chanLive x = true ∧ x.host.kind ≠ 3 ∧ x.wrd.skip = none
    ∧ openTicket d (recChan r) = some b

/-- The record commands of channels, with the record type of each (R58). -/
def recordCommands (d : DieId) (r : RecIn) : List (Nat × Instr) :=
  [(1, .layerOut d r), (2, .layerIn d r), (3, .attnOut d r), (4, .tokenEnd d r), (5, .batchEnd d r), (6, .output d r),
    (7, .radioFft d r), (8, .radioLdpc d r), (9, .radioTb d r), (10, .shardDigest d r)]

/-! ## Requests over Pannier -/

/-- A request of an open session is accepted: the session, and the die after it has noted the frame (R427, R429). -/
def Accepted (typ : Nat) (f : PFrame) (d : Die) (x : Session) (y : Die) : Prop := takeRequest typ f d = (some x, y)

/-- The commands that are requests of an open session, with the frame type of each (R427). -/
def requestCommands (d : DieId) (f : PFrame) : List (Nat × Instr) :=
  [(0x04, .close d f), (0x05, .keepalive d f), (0x10, .read d f), (0x11, .write d f), (0x12, .admitModel d f),
    (0x12, .withdraw d f), (0x12, .turn d f), (0x12, .flashCommit d f true), (0x12, .flashCommit d f false),
    (0x12, .claim d f), (0x12, .release d f), (0x12, .unlock d f), (0x12, .lock d f), (0x12, .subscribe d f),
    (0x31, .sealAck d f), (0x20, .bulkPut d f), (0x21, .bulkGet d f)]

/-! ## Messages over Spoke -/

/-- A transmission of a Spoke message arrives with a right CRC (R246). -/
def CrcRight (m : SpokeMsg) : Prop := m.body.length = 96 ∧ u32At m.body 92 = crc32c (m.body.take 92)

/-- A die that a right transmission has reached: beats that were corrected are noted, and no retry is open (R246). -/
def spokeRight (m : SpokeMsg) (d : Die) : Die :=
  updSpk (fun q => { q with tries := 0 }) (if m.beats = 0 then d else raise pSPK 0 d)

/-! ## Messages over Peloton -/

/-- A port takes a message of the die's epoch that is for the die; y is the die with the message counted (R441, R443). -/
def Delivered (typ p : Nat) (m : PelMsg) (d y : Die) : Prop :=
  (pelPort d p).up = true ∧ pelServes d p = true ∧ pelWhole typ m = true ∧ m.epoch.toNat = d.pel.epoch ∧
    (m.dst = 0xFFFF ∨ ownId d = some m.dst.toNat) ∧ y = count (pelPage p) 0x04C d

/-- A command is a message over Peloton, of a type (R441). -/
def PelotonMessage (d : DieId) (port : BitVec 2) (m : PelMsg) (typ : Nat) (c : Instr) : Prop := (typ, c) ∈
  [(1, .disc d port m), (2, .topo d port m), (3, .pelotonEcho d port m), (4, .echoReply d port m), (5, .gateArrive d port m),
    (6, .gateRelease d port m), (7, .gateAbort d port m), (8, .chainOpen d port m), (9, .chainAuth d port m),
    (10, .boundary d port m), (11, .chainAlive d port m)]

/-! ## Engine instructions -/

/-- The program of a group takes a batch of a channel's model, among the batches that it runs for (R271). -/
def Serves (lead : Nat) (m : Model) (b : Batch) (d : Die) : Prop :=
  let z := fetchRun lead d
  (core z lead).run.Nodup ∧ b.serial ∈ (core z lead).run ∧ ticket z b.serial = some b ∧ coreModel z lead = some m ∧
    model z (chan z b.channel).host.slot = some m

/-- The program of a group stands at a word that it may issue in its span, for some core cycles; x is the die behind its
comparisons, all of whose values leave the group (R234, R258, R260, R270). -/
def Compared (lead word cycles : Nat) (pts : List PointFault) (d x : Die) : Prop :=
  let z := fetchRun lead d
  mayIssue z lead = true ∧ wordNow z lead = some word ∧ fitsSpan z lead cycles = true ∧
    comparePoints lead [] pts z = (x, true)

/-- The program of a group stands at a word and issues it in its span, for some core cycles; y is the die behind its
comparisons, all of whose values leave the group, and behind those cycles. -/
def Stands (lead word cycles : Nat) (pts : List PointFault) (d y : Die) : Prop :=
  ∃ x, Compared lead word cycles pts d x ∧ y = spend lead cycles x

/-- The opcode of an engine instruction (R258, R271); zero for other commands. -/
def opcode : Instr → Nat
  | .rchk _ _ _ _ => 0x20
  | .bchk _ _ _ _ => 0x21
  | .fftc _ _ _ _ => 0x22
  | .ldpc _ _ _ _ => 0x28
  | .crc _ _ _ _ => 0x29
  | .dq _ _ _ _ => 0x30
  | .qnt _ _ _ _ => 0x31
  | .addv _ _ _ _ => 0x32
  | .norm _ _ _ _ => 0x33
  | .normf _ _ _ _ => 0x34
  | .act _ _ _ _ => 0x35
  | .actf _ _ _ _ => 0x36
  | .rope _ _ _ _ => 0x37
  | .band _ _ _ _ => 0x38
  | .sel _ _ _ _ => 0x39
  | .ocmp _ _ _ _ => 0x3A
  | .emb _ _ _ _ => 0x3B
  | .kvapp _ _ _ _ => 0x40
  | .attn _ _ _ _ => 0x41
  | .acmp _ _ _ _ => 0x42
  | .dig _ _ _ _ => 0x48
  | .dcmp _ _ _ _ => 0x49
  | .shdc _ _ _ _ => 0x4A
  | _ => 0

/-- What the batches of a program cost together. -/
def together (d : Die) (lead : Nat) (cost : Batch → Nat) : Nat := sumL ((runBatches d lead).map cost)

/-- The program of a group stands at a word of an engine instruction's opcode and issues it in its span with the descriptor that the
pool holds there, for the engine's arithmetic cycles; y is the die with the instruction in the engine's queue (R258, R259, R260, R270). -/
def Issues (lead eng : Nat) (i : Instr) (desc : OpDesc) (cycles : Nat) (d y : Die) : Prop :=
  let z := fetchRun lead d
  mayIssue z lead = true ∧ standsAtOp z lead (opcode i) = true ∧ descFits z lead desc = true ∧ fitsSpan z lead 1 = true ∧
    enqueue lead eng cycles (noteDesc lead desc (spend lead 1 z)) = some y

/-- What an engine instruction leaves as it was: the die but for its tickets, cores, error bits and counters. -/
def EngineFrame (d x : Die) : Prop :=
  x.which = d.which ∧ x.phase = d.phase ∧ x.regs.live = d.regs.live ∧ x.wlk = d.wlk ∧ x.wrd = d.wrd ∧ x.rat = d.rat ∧
    x.adm = d.adm ∧ x.cad = d.cad ∧ x.sealing = d.sealing ∧ x.spk = d.spk ∧ x.hst = d.hst ∧ x.ing = d.ing ∧
    x.mem = d.mem ∧ x.key = d.key ∧ x.pel = d.pel ∧ x.wdn = d.wdn ∧ x.out = d.out

/-! ## Invariants -/

/-- Each die keeps the position that the package gives it (R414). -/
def Positions (s : State) : Prop := s.dieA.which = .a ∧ s.dieB.which = .b

/-- Every shadow ledger of a die is in its canonical form (R169). -/
def LedgersCanonical (d : Die) : Prop := ∀ e ∈ d.chn.tab, Memory.wf e.2.ledger = true

/-- No rail is noted twice, as out of range or as below its threshold (R481). -/
def RailsDistinct (p : Package) : Prop := p.railsOut.Nodup ∧ p.railsLow.Nodup

end Sys2Proof.Machine
end

