-- ==== Sys2Proof/Certificates/Slice0/Obligations.lean ====
section
/-! DEFINITION. The statements about the block that the provers are asked for, family by family of its commands. -/

open Sys2Proof Sys2Proof.Machine

/-! ## The queue and the step -/

/-- A step takes the command at the front of the queue and runs it with the queue's rest.
Readings and choices of the model in it: log entry 2. -/
def Obligations.StepRunsTheFrontCommand : Prop :=
  ∀ (s : State) (c : Instr) (rest : List Instr), s.pending = c :: rest → step s = exec c { s with pending := rest }

/-- With nothing waiting, one cycle of the time clock passes on each die that is out of Frost, and nothing else happens
(model's own choice, log entry 1). -/
def Obligations.EmptyQueueLetsOneCyclePass : Prop :=
  ∀ s : State, s.pending = [] → ∃ t, step s = .next t ∧ t.pkg = s.pkg ∧ t.pending = [] ∧ ∀ d,
    ((s.die d).phase = .frost → t.die d = s.die d) ∧
    ((s.die d).phase ≠ .frost → t.die d = { s.die d with tim := timeCycle (s.die d).tim })

/-- Every command has a next state; it leaves the queue, every die that it does not name, and, unless it is an event of a
rail or of the reference clock, the package as they were. -/
def Obligations.EveryCommandRunsOnItsDies : Prop :=
  ∀ (c : Instr) (s : State), Runs c s (fun t =>
    t.pending = s.pending ∧ (∀ d, d ∉ touches c → t.die d = s.die d) ∧ (changesPackage c = false → t.pkg = s.pkg))

/-- From every state the waiting commands are served to the last: as many steps as commands wait, none of which faults or
refuses, lead to an empty queue; and no longer run faults or refuses either. -/
def Obligations.WaitingCommandsAreAllServed : Prop :=
  ∀ s : State, (∃ t, Reaches s.pending.length s t ∧ t.pending = []) ∧ SafeFrom s

/-- No step notes a rail twice. -/
def Obligations.EveryStepKeepsRailsDistinct : Prop :=
  ∀ s t : State, RailsDistinct s.pkg → step s = .next t → RailsDistinct t.pkg

/-- No step changes a die's position in the package, and every step keeps every shadow ledger in its canonical form. -/
def Obligations.EveryStepKeepsPositionsAndLedgers : Prop :=
  ∀ s t : State, Positions s → LedgersCanonical s.dieA → LedgersCanonical s.dieB → step s = .next t →
    Positions t ∧ LedgersCanonical t.dieA ∧ LedgersCanonical t.dieB

/-- Right after reset both dies are in Frost at their positions, with FAULT_N low, the safe outputs off and SST asserted;
no rail is out of range, no ledger lists anything, and no command waits.
Readings and choices of the model in it: log entry 13. -/
def Obligations.ResetStateIsFrost : Prop :=
  State.reset.pending = [] ∧ Positions State.reset ∧ RailsDistinct State.reset.pkg ∧
    LedgersCanonical State.reset.dieA ∧ LedgersCanonical State.reset.dieB ∧ ∀ d,
    (State.reset.die d).phase = .frost ∧ faultLow (State.reset.die d) = true ∧ (State.reset.die d).wdn.cmd = 0 ∧
    (State.reset.die d).wdn.sst = true ∧ (State.reset.die d).key.seed = [] ∧ (State.reset.die d).key.debug = 0

/-! ## Reset, rails and clocks -/

/-- A RESET_N low pulse: under 1 µs nothing happens; from 10 µs both dies go into Frost with FAULT_N low, the outputs of
both Warden channels off, SST asserted, and all that they held gone; between the two the device does the one or the
other, as a free draw decides. -/
def Claim.ResetPulseByItsLength : Prop :=
  ∀ (s : State) (lowNs : Nat),
    (lowNs < 1000 → exec (.resetNPulse lowNs) s = .next s) ∧
    (10000 ≤ lowNs → Runs (.resetNPulse lowNs) s (fun t => t.pkg = s.pkg ∧ t.pending = s.pending ∧ ∀ d,
      (t.die d).which = (s.die d).which ∧ (t.die d).phase = .frost ∧ faultLow (t.die d) = true ∧ (t.die d).wdn.cmd = 0 ∧
      (t.die d).wdn.sst = true ∧ (t.die d).wdn.state = .start ∧ (t.die d).key.seed = [] ∧ (t.die d).key.idSecret = [] ∧
      (t.die d).key.sessions = [] ∧ (t.die d).chn.tab = [] ∧ (t.die d).adm.models = [] ∧ (t.die d).wlk.state = .off)) ∧
    (1000 ≤ lowNs → lowNs < 10000 → Runs (.resetNPulse lowNs) s (fun t =>
      t = onDie .a drew s ∨ t = resetBoth (onDie .a drew s)))

/-- A rail out of range sets rail_fault on every die out of Frost that it supplies; a rail that returns ends the condition
on a die once none of the die's rails is out, ends no reset, and clears no latched bit; below its threshold VDD_SYS holds
its die in Frost with FAULT_N low, a Warden rail its channel in reset with outputs off and SST asserted, and of the other
rails nothing further follows. -/
def Claim.RailEvents : Prop :=
  ∀ (s : State) (r : Rail),
    Runs (.railOutOfRange r) s (fun t => r ∈ t.pkg.railsOut ∧ ∀ d, (t.die d).phase = (s.die d).phase ∧
      (supplies r d = false → t.die d = s.die d) ∧
      (supplies r d = true → (s.die d).phase ≠ .frost →
        (t.die d).fcu.railBad = true ∧ errSet (t.die d) pFCU 2 = true)) ∧
    Runs (.railReturnsToRange r) s (fun t => r ∉ t.pkg.railsOut ∧ r ∉ t.pkg.railsLow ∧ ∀ d,
      (railsBad t.pkg d = true → t.die d = s.die d) ∧
      (railsBad t.pkg d = false → t.die d = { s.die d with fcu := { (s.die d).fcu with railBad := false } })) ∧
    Runs (.railUndervoltage r) s (fun t => r ∈ t.pkg.railsLow ∧ (∀ d, d ∉ railHeld r → t.die d = s.die d) ∧
      (∀ d, r = .vddSys d → (t.die d).phase = .frost ∧ faultLow (t.die d) = true ∧ (t.die d).wdn.cmd = 0) ∧
      (∀ d, r = .vddWdn d ∨ r = .vddioWdn d → ∃ w : Wdn, t.die d = { s.die d with wdn := w } ∧
        w.down = true ∧ w.cmd = 0 ∧ w.sst = true ∧ w.tx = none))

/-- SYSCLK out of range holds FAULT_N low on a die out of Frost and tells its Warden channel as an S4 does; once it
returns, the die enters Autumn from Spring or Summer. -/
def Claim.SysclkOutOfRangeAndBack : Prop :=
  ∀ (s : State) (d : DieId), (s.die d).phase ≠ .frost →
    (∃ x, RunsTo (.sysclkOutOfRange d) s d x ∧ faultLow x = true ∧
      x = { s.die d with
        fcu := { (s.die d).fcu with sysclkOk := false, sysHold := true }
        wdn := { (s.die d).wdn with events := (s.die d).wdn.events ++ [.s4] } }) ∧
    ((s.die d).fcu.sysHold = true → (s.die d).phase = .spring ∨ (s.die d).phase = .summer →
      ∃ x, RunsTo (.sysclkReturns d) s d x ∧ x.phase = .autumn ∧ x.fcu.sysHold = false ∧ x.fcu.sysclkOk = true ∧
        faultLow x = true)

/-- A loss of REFCLK sets clk_loss on both dies that are out of Frost; its return ends the condition. -/
def Claim.RefclkLossAndReturn : Prop :=
  ∀ s : State,
    Runs .refclkLoss s (fun t => t.pkg = { s.pkg with refclkOk := false } ∧ ∀ d, (t.die d).phase = (s.die d).phase ∧
      ((s.die d).phase = .frost → t.die d = s.die d) ∧
      ((s.die d).phase ≠ .frost → (t.die d).fcu.clkLost = true ∧ errSet (t.die d) pFCU 1 = true)) ∧
    Runs .refclkReturns s (fun t => t.pkg = { s.pkg with refclkOk := true } ∧
      ∀ d, t.die d = { s.die d with fcu := { (s.die d).fcu with clkLost := false } })

/-! ## Boot and Autumn -/

/-- Reset release takes a die from Frost to Thaw where every rail of it is in range and both clocks are in tolerance, and
leaves it in Frost otherwise; a PUF that cannot be reconstructed fails Thaw with cause 1, the die staying in Thaw with
FAULT_N low. -/
def Claim.ResetReleaseStartsThaw : Prop :=
  ∀ (s : State) (d : DieId) (boot : BootReads),
    (mayThaw s.pkg (s.die d) = false → exec (.resetRelease d boot) s = .next s) ∧
    (mayThaw s.pkg (s.die d) = true → boot.pufOk = false → ∃ x, RunsTo (.resetRelease d boot) s d x ∧
      x.phase = .thaw ∧ x.key.cause = 1 ∧ x.key.step = 1 ∧ faultLow x = true) ∧
    (mayThaw s.pkg (s.die d) = true → ∃ x, RunsTo (.resetRelease d boot) s d x ∧ x.phase = .thaw)

/-- The Thaw sequence ends in Spring, with sealing running, CAD on the default timetable and HST enabled; or, where a step
of it has failed, the die stays in Thaw with FAULT_N low and the cause reported. -/
def Claim.ThawEndsInSpringOrFails : Prop :=
  ∀ (s : State) (d : DieId) (cause : BitVec 4),
    (s.die d).phase = .thaw → (s.die d).key.cause = 0 → (s.die d).fcu.held = false →
    ((s.die d).key.step = 9 → ∃ x, RunsTo (.thawSequenceComplete d true cause) s d x ∧ x.phase = .spring ∧
      x.key.step = 10 ∧ x.sealing.running = true ∧ x.cad.running = true ∧ x.cad.active.isDefault = true ∧
      pHST ∈ x.regs.enabled ∧ x.fcu.hold = false) ∧
    (∃ x, RunsTo (.thawSequenceComplete d false cause) s d x ∧ x.phase = .thaw ∧ x.key.cause = cause.toNat ∧
      faultLow x = true)

/-- The end of Autumn: into Spring once re-initialisation and tests have passed, with the default timetable and sealing
running; a failure, or a step 7 that is not reached in time, holds the die in Autumn with FAULT_N low. -/
def Claim.AutumnEndsInSpringOrHolds : Prop :=
  ∀ (s : State) (d : DieId), (s.die d).phase = .autumn → (s.die d).fcu.held = false →
    (∃ x, RunsTo (.autumnReinitDone d true) s d x ∧ x.phase = .spring ∧ x.sealing.running = true ∧
      x.cad.active.isDefault = true ∧ x.fcu.step = 0) ∧
    (∃ x, RunsTo (.autumnReinitDone d false) s d x ∧ x.phase = .autumn ∧ x.fcu.held = true ∧ faultLow x = true) ∧
    RunsTo (.autumnTimeout d) s d { s.die d with fcu := { (s.die d).fcu with held := true, hold := true } }

/-! ## The Fault Collector and BLK_ERR -/

/-- FCU samples the error pins: nothing stays to be sampled; every unmasked event latches its source, the first one of
all is captured, and an S4 among them takes a die in Spring or Summer into Autumn, with FAULT_N low in pulse form, its admissions,
Months and sessions gone and every live channel retired with cause 6; events that are all masked change nothing else. -/
def Claim.SourceLatchTakesUnmaskedEvents : Prop :=
  ∀ (s : State) (d : DieId), ∃ x, RunsTo (.fcuSourceLatch d) s d x ∧
    let masked (e : ErrEvent) : Bool := tst (errPage (s.die d) e.page).mask e.bit
    ((∀ e ∈ (s.die d).fcu.pend, masked e = true) → x = updFcu (fun f => { f with pend := [] }) (s.die d)) ∧
    (∀ e ∈ (s.die d).fcu.pend, masked e = false → tst x.fcu.src e.page = true ∧ x.fcu.first.valid = true) ∧
    ((s.die d).phase = .spring ∨ (s.die d).phase = .summer →
      (∃ e ∈ (s.die d).fcu.pend, masked e = false ∧ sevOf e.page e.bit = some 4) →
      x.phase = .autumn ∧ ((s.die d).fcu.alive = false → faultLow x = true) ∧ x.fcu.step = 6 ∧ x.adm.models = [] ∧ x.key.sessions = [] ∧
        (∀ k c, mget (s.die d).chn.tab k = some c → chanLive c = true →
          ∃ c', mget x.chn.tab k = some c' ∧ c'.state = .retired ∧ c'.endCause = 6 ∧ c'.ledger = []))

/-- FAULT_N's pulse form holds until an acknowledgement with bit 0 set finds no set source at or above its threshold
and the minimum low time is over; the alive form toggles only in Spring and Summer and stands low while stopped, until
acknowledged with no S3 or S4 latched. -/
def Claim.FaultPinForms : Prop :=
  ∀ (s : State) (d : DieId) (v : Word),
    (v.toNat % 2 = 0 → RunsTo (.fcuAck d v) s d (s.die d)) ∧
    (v.toNat % 2 = 1 → (s.die d).fcu.alive = false →
      (sourceAt (s.die d) (pulseMin (s.die d)) = true → RunsTo (.fcuAck d v) s d (s.die d)) ∧
      (sourceAt (s.die d) (pulseMin (s.die d)) = false → (s.die d).fcu.asserted = true →
        ∃ f, RunsTo (.fcuAck d v) s d { s.die d with fcu := f } ∧ f.asserted = (s.die d).fcu.minRun)) ∧
    (v.toNat % 2 = 1 → (s.die d).fcu.alive = true →
      (latchedAt (s.die d) 3 = true → RunsTo (.fcuAck d v) s d (s.die d)) ∧
      (latchedAt (s.die d) 3 = false → ∃ f, RunsTo (.fcuAck d v) s d { s.die d with fcu := f } ∧ f.stopped = false)) ∧
    (∃ f, RunsTo (.faultNMinPulseExpiry d) s d { s.die d with fcu := f } ∧ f.minRun = false ∧
      ((s.die d).fcu.alive = false → f.asserted = ((s.die d).fcu.asserted && !(s.die d).fcu.acked))) ∧
    (∃ f, RunsTo (.faultNHalfPeriod d) s d { s.die d with fcu := f } ∧ f.asserted =
      if (s.die d).fcu.alive then
        if ((s.die d).phase = .spring ∨ (s.die d).phase = .summer) ∧ (s.die d).fcu.stopped = false then
          !(s.die d).fcu.asserted
        else true
      else (s.die d).fcu.asserted)

/-- Clearing: FCU_SRC_CLEAR clears exactly the named latched sources whose pages have no unmasked bit set; BLK_ERR_CLEAR
clears exactly the named bits of its page that are event bits, or set by a force alone, or whose condition is gone.
BLK_ERR_FORCE, where accepted, sets the named bits that the page has and notes the page, and is ignored elsewhere. -/
def Claim.ClearingAndForcingErrorBits : Prop :=
  ∀ (s : State) (d : DieId) (v : Word) (page : BitVec 6),
    (∀ hi, ∃ src sev, RunsTo (.fcuSrcClear d hi v) s d { s.die d with fcu := { (s.die d).fcu with src := src, sev := sev } } ∧
      ∀ p, p < 64 → tst src p =
        (tst (s.die d).fcu.src p && !(decide (p / 32 = b2n hi) && tst v.toNat (p % 32) && !errPin (s.die d) p))) ∧
    (∃ errs, RunsTo (.blkErrClear d page v) s d { s.die d with errs := errs } ∧
      (∀ p, p ≠ page.toNat → mget errs p = mget (s.die d).errs p) ∧
      ∀ b, b < 32 → errSet { s.die d with errs := errs } page.toNat b =
        (errSet (s.die d) page.toNat b && !(tst v.toNat b &&
          (tst (errPage (s.die d) page.toNat).forced b || !condHolds (s.die d) page.toNat b)))) ∧
    (forceAllowed (s.die d) = false → RunsTo (.blkErrForce d page v) s d (s.die d)) ∧
    (forceAllowed (s.die d) = true → pageAbsent (s.die d) page.toNat = false →
      v.toNat &&& errBits page.toNat ≠ 0 → ∃ x, RunsTo (.blkErrForce d page v) s d x ∧
        tst x.fcu.echo page.toNat = true ∧ x.phase = (s.die d).phase ∧ x.fcu.src = (s.die d).fcu.src ∧
        ∀ b, b < (sevTable (blkCode page.toNat)).length → tst v.toNat b = true → errSet x page.toNat b = true)

/-- Conditions of FCU's own page and of the stack's temperature: they set their bits when they begin, never clear them
when they end, and change no phase. -/
def Claim.StallsAndTemperatures : Prop :=
  ∀ (s : State) (d : DieId) (tj : BitVec 9) (temp : Byte),
    ((s.die d).phase ≠ .frost → ∃ x, RunsTo (.fabricStall d) s d x ∧ x.fcu.stalled = true ∧ errSet x pFCU 0 = true ∧
      x.phase = (s.die d).phase) ∧
    RunsTo (.controlFabricHeartbeat d) s d { s.die d with fcu := { (s.die d).fcu with stalled := false } } ∧
    (∃ x, RunsTo (.junctionTempCrossing d tj) s d x ∧ x.fcu.tj = tj.toInt ∧ x.fcu.tjPeak = max tj.toInt (s.die d).fcu.tjPeak ∧
      x.phase = (s.die d).phase ∧
      (tjMax (s.die d) - 5 ≤ tj.toInt → (s.die d).fcu.tj < tjMax (s.die d) - 5 → errSet x pFCU 3 = true) ∧
      (tjMax (s.die d) + 5 ≤ tj.toInt → (s.die d).fcu.tj < tjMax (s.die d) + 5 → errSet x pFCU 4 = true) ∧
      (tj.toInt < tjMax (s.die d) - 5 → x.errs = (s.die d).errs)) ∧
    Runs (.hbmTempCrossing temp) s (fun t => ∀ e, (t.die e).mem = { (s.die e).mem with tempC := temp.toNat } ∧
      (temp.toNat ≤ 85 → (t.die e).errs = (s.die e).errs) ∧
      (85 < temp.toNat → (s.die e).mem.tempC ≤ 85 → errSet (t.die e) pHBM 5 = true))

/-! ## Registers, enables and the slot boundary -/

/-- A write of BLK_CTRL out of Frost to a page with an enable: 1 enables a disabled page, and with it starts the link from
OFF in Spring and Summer; 0 disables it only where the page allows that, and takes the host link down with page HST. A
write that changes nothing leaves the die as it was. -/
def Claim.BlockEnableWrites : Prop :=
  ∀ (s : State) (d : DieId) (page : BitVec 6) (v : Word), (s.die d).phase ≠ .frost → hasEnable page.toNat = true →
    (v.toNat % 2 = 1 → page.toNat ∉ (s.die d).regs.enabled → Runs (.blkCtrlEnableWrite d page v) s (fun t =>
      (t.die d).regs.enabled = page.toNat :: (s.die d).regs.enabled ∧ (t.die d).phase = (s.die d).phase ∧
      (page.toNat = pWLK → (s.die d).wlk.state = .off → (s.die d).phase = .spring ∨ (s.die d).phase = .summer →
        (t.die d).wlk.state = .adapt) ∧
      ∀ k x, (s.die d).regs.held = [(k, x)] → k / 131072 % 64 = page.toNat →
        mget (t.die d).regs.live k = some x ∧ (t.die d).regs.held = [])) ∧
    (v.toNat % 2 = 0 → page.toNat ∈ (s.die d).regs.enabled → mayDisable (s.die d) page.toNat = true →
      Runs (.blkCtrlEnableWrite d page v) s (fun t => page.toNat ∉ (t.die d).regs.enabled ∧
        (page.toNat = pHST → (t.die d).hst.linkUp = false ∧ (t.die d.other).hst.peerLink = false) ∧
        (page.toNat = pWLK → (t.die d).wlk.state = .off))) ∧
    ((v.toNat % 2 = 1 ∧ page.toNat ∈ (s.die d).regs.enabled) ∨
        (v.toNat % 2 = 0 ∧ (page.toNat ∉ (s.die d).regs.enabled ∨ mayDisable (s.die d) page.toNat = false)) →
      Runs (.blkCtrlEnableWrite d page v) s (fun t => t.die d = s.die d))

/-- A write to a register that holds one writable field and does nothing else: in force at once if Live, kept for the
slot boundary if Staged, or for that boundary or the next in the last 100 ns before one, kept for the page's enable if Static and the page is disabled, discarded if Static and the page
is enabled; always the field's legal value nearest the one written. In Frost, on a page that is dark, and where a
condition of the state locks the field, nothing changes.
Readings and choices of the model in it: log entries 154, 157, 161. -/
def Obligations.RegisterWriteByEffectClass : Prop :=
  ∀ (s : State) (d : DieId) (addr : BitVec 24) (v : Word),
    let page := addr.toNat / 4096
    let off := addr.toNat % 4096 / 4 * 4
    ((s.die d).phase = .frost ∨ pageDark (s.die d) page = true → exec (.registerWrite d addr v) s = .next s) ∧
    ((s.die d).phase ≠ .frost → pageDark (s.die d) page = false → 0x020 ≤ off → writeAct d page off v s = none →
      ∀ f, rwAt page off = [f] →
        let w := clampField (s.die d) page off f v.toNat
        let k := fkey (selOf (s.die d) page off) page off f.lo
        let r := (s.die d).regs
        (fieldLocked (s.die d) page off f.lo w = true → RunsTo (.registerWrite d addr v) s d (s.die d)) ∧
        (fieldLocked (s.die d) page off f.lo w = false →
          (f.eff = .live → RunsTo (.registerWrite d addr v) s d { s.die d with regs := { r with live := mset r.live k w } }) ∧
          (f.eff = .staged → 100 < toNextSlot (s.die d).tim → RunsTo (.registerWrite d addr v) s d
            { s.die d with regs := { r with staged := mset r.staged k w } }) ∧
          (f.eff = .staged → toNextSlot (s.die d).tim ≤ 100 → ∃ g n, RunsTo (.registerWrite d addr v) s d
            { s.die d with regs := g, freeCtr := n } ∧ g.live = r.live ∧
              (g.staged = mset r.staged k w ∧ g.late = r.late ∨ g.staged = r.staged ∧ g.late = mset r.late k w)) ∧
          (f.eff = .static → page ∉ r.enabled → RunsTo (.registerWrite d addr v) s d
            { s.die d with regs := { r with held := mset r.held k w } }) ∧
          (f.eff = .static → page ∈ r.enabled → RunsTo (.registerWrite d addr v) s d (s.die d))))

/-- A write of a register that acts is the command it names: clearing, acknowledging and forcing, the commands of CHN,
CAD, SIG, WLK and KEY written one at a time, and the ratchets' halves.
Readings and choices of the model in it: log entry 157. -/
def Obligations.ActingRegistersAreTheirCommands : Prop :=
  ∀ (s : State) (d : DieId) (v : Word), (s.die d).phase ≠ .frost →
    exec (.registerWrite d 0x001040 v) s = exec (.fcuSrcClear d false v) s ∧
    exec (.registerWrite d 0x001044 v) s = exec (.fcuSrcClear d true v) s ∧
    exec (.registerWrite d 0x001050 v) s = exec (.fcuAck d v) s ∧
    exec (.registerWrite d 0x00100C v) s = exec (.blkErrClear d 1 v) s ∧
    exec (.registerWrite d 0x004014 v) s = exec (.blkErrForce d 4 v) s ∧
    (∀ c : BitVec 15, exec (.registerWrite d 0x004040 (BitVec.ofNat 32 (2 + 16 * c.toNat))) s = exec (.chnCmdPause d c) s ∧
      exec (.registerWrite d 0x004040 (BitVec.ofNat 32 (3 + 16 * c.toNat))) s = exec (.chnCmdResume d c) s ∧
      exec (.registerWrite d 0x004040 (BitVec.ofNat 32 (4 + 16 * c.toNat))) s = exec (.chnCmdClose d c) s ∧
      exec (.registerWrite d 0x004040 (BitVec.ofNat 32 (5 + 16 * c.toNat))) s = exec (.chnCmdRetire d c) s ∧
      exec (.registerWrite d 0x004040 (BitVec.ofNat 32 (6 + 16 * c.toNat))) s = exec (.chnCmdFree d c) s) ∧
    exec (.registerWrite d 0x003048 2) s = exec (.cadCmdSwap d) s ∧
    exec (.registerWrite d 0x003048 4) s = exec (.cadCmdDiscard d) s ∧
    exec (.registerWrite d 0x005044 v) s = exec (.ratCfgOwner d
      (BitVec.ofNat 12 (field (s.die d) pRAT 0x040 0)) (BitVec.ofNat 2 v.toNat)) s

/-- GLB_MODE.strict, written before the last 100 ns of a slot, waits for the slot boundary, unless R474 discards the write:
then nothing changes. A boundary in Spring or Summer puts it in force. -/
def Claim.StrictModeIsStaged : Prop :=
  ∀ (s : State) (d : DieId) (b : Bool), (s.die d).phase ≠ .frost →
    (strictDiscarded (s.die d) (b2n b) = true → RunsTo (.glbModeStrict d b) s d (s.die d)) ∧
    (strictDiscarded (s.die d) (b2n b) = false → 100 < toNextSlot (s.die d).tim → RunsTo (.glbModeStrict d b) s d
      (updRegs (fun r => { r with staged := mset r.staged (fkey 0 pGLB 0x04C 0) (b2n b) }) (s.die d))) ∧
    ((s.die d).phase = .spring ∨ (s.die d).phase = .summer →
      (s.die d).regs.staged = [(fkey 0 pGLB 0x04C 0, b2n b)] → (s.die d).regs.late = [] →
      ∃ x, RunsTo (.slotBoundary d) s d x ∧ field x pGLB 0x04C 0 = b2n b ∧ x.regs.staged = [])

/-- A slot boundary in Frost does nothing. In any other phase it brings air-time to the next whole slot, ends every span
and sends the peer die the new slot count; in Spring and Summer only Staged writes of the last 100 ns before it stay waiting after it, and only if they were late.
Readings and choices of the model in it: log entries 162, 163, 166. -/
def Obligations.SlotBoundaryWork : Prop :=
  ∀ (s : State) (d : DieId),
    ((s.die d).phase = .frost → RunsTo (.slotBoundary d) s d (s.die d)) ∧
    ((s.die d).phase ≠ .frost → ∃ x, RunsTo (.slotBoundary d) s d x ∧ x.cad.spans = [] ∧
      (∃ o, x.out = .spoke (spokeBytes 5 0 0 (slotCount x) 0 0 0 [] []) :: o) ∧
      ((s.die d).phase = .spring ∨ (s.die d).phase = .summer → x.regs.staged = (s.die d).regs.late ∧ x.regs.late = []) ∧
      ((s.die d).tim.step = none → (s.die d).tim.mu ≤ 3 → (s.die d).tim.air + 1000000 < 2 ^ 64 →
        x.tim.air % slotNs (s.die d).tim.mu = 0 ∧ (s.die d).tim.air ≤ x.tim.air ∧
        x.tim.air ≤ (s.die d).tim.air + slotNs (s.die d).tim.mu ∧ x.tim.slotDone = some (x.tim.air / slotNs (s.die d).tim.mu)))

/-! ## Memory health -/

/-- A scrub read within a pass: a clean word changes nothing; a corrected one is counted, reported and tracked, queues its
row for a rewrite when the same word and syndrome come back in the next pass, and has a rewritten row spared while a spare
is left; a parity failure of the fifth retry is a channel fault. No channel, ticket or ledger is touched by these. -/
def Claim.ScrubReadsTrackRows : Prop :=
  ∀ (s : State) (d : DieId) (w : MemWord) (region : Region) (synd : Byte),
    let m := (s.die d).mem
    let key := rowKey w
    let idle := m.sparing.contains (w.kind, key) = false ∧ m.stuckInService.contains (w.kind, key) = false
    RunsTo (.scrubRead d w region .clean false) s d (s.die d) ∧
    (∃ x, RunsTo (.scrubRead d w region (.corrected synd) false) s d x ∧ errSet x (memPage w.kind) 0 = true ∧
      x.chn = (s.die d).chn ∧ x.phase = (s.die d).phase ∧
      (idle → m.track.find? (fun e => e.kind == w.kind && e.row == key) = none → m.track.length < 1024 →
        x.mem.track = m.track ++ [⟨w.kind, key, w.word.toNat, synd.toNat, 1, passOf m w.kind, passOf m w.kind, false⟩]) ∧
      (∀ e, idle → m.track.find? (fun e => e.kind == w.kind && e.row == key) = some e → e.rewritten = false →
        e.word = w.word.toNat → e.synd = synd.toNat → e.passNo + 1 = passOf m w.kind → (w.kind, key) ∈ x.mem.rewriteQ) ∧
      (∀ e, idle → m.track.find? (fun e => e.kind == w.kind && e.row == key) = some e → e.rewritten = true →
        ((w.kind = .hbm ∧ 0 < m.pprLeft) ∨ (w.kind = .sram ∧ 0 < (m.spareLeft[key / 2048]?).getD 0)) →
        (w.kind, key) ∈ x.mem.sparing)) ∧
    (∀ n : BitVec 3, ∃ x, RunsTo (.scrubRead d w region (.caParity n) false) s d x ∧ x.chn = (s.die d).chn ∧ x.mem = m ∧
      (5 ≤ n.toNat → errSet x pHBM 6 = true) ∧ (0 < n.toNat → errSet x pHBM 4 = true))

/-- An uncorrectable word: in a ledger, void_pos and valid_end fall to its position, where the ledger reaches that far; in
staging or in a ticket, the batch is late with cause 21; an active timetable that lost both copies is reported; a channel
whose descriptor lost both copies is retired with end_cause 7. -/
def Claim.UncorrectableWordsByRegion : Prop :=
  ∀ (s : State) (d : DieId) (w : MemWord) (synd : Byte) (c : BitVec 15),
    (∀ pos : Word, ∃ x, RunsTo (.scrubRead d w (.ledger c pos) (.uncorrectable synd) false) s d x ∧ errSet x pCWE 5 = true ∧
      (∀ y, mget (s.die d).chn.tab c.toNat = some y → pos.toNat < y.append →
        (chan x c.toNat).voidPos = min y.voidPos pos.toNat ∧
        (chan x c.toNat).validEnd = min y.validEnd (min y.voidPos pos.toNat) ∧ (chan x c.toNat).append = y.append) ∧
      (∀ y, mget (s.die d).chn.tab c.toNat = some y → y.append ≤ pos.toNat → x.chn = (s.die d).chn)) ∧
    (∀ (n : BitVec 5) (b : Batch), ((chanTickets (s.die d) c.toNat).filter (fun b => !b.staged.isEmpty))[n.toNat]? = some b →
      ticket (s.die d) b.serial = some b →
      ∃ x b', RunsTo (.scrubRead d w (.staging c n) (.uncorrectable synd) false) s d x ∧ ticket x b.serial = some b' ∧
        21 ∈ b'.lates ∧ errSet x pWRD 4 = true) ∧
    (∀ (n : BitVec 5) (b : Batch), (chanTickets (s.die d) c.toNat)[n.toNat]? = some b → ticket (s.die d) b.serial = some b →
      ∃ x b', RunsTo (.scrubRead d w (.ticket c n) (.uncorrectable synd) false) s d x ∧ ticket x b.serial = some b' ∧
        21 ∈ b'.lates ∧ errSet x pCHN 4 = true) ∧
    (∃ x, RunsTo (.scrubRead d w (.timetable false true) (.uncorrectable synd) false) s d x ∧ errSet x pCAD 8 = true ∧
      x.chn = (s.die d).chn) ∧
    (∃ x, RunsTo (.scrubRead d w (.descriptor c true) (.uncorrectable synd) false) s d x ∧ errSet x pCHN 1 = true ∧
      ∀ y, mget (s.die d).chn.tab c.toNat = some y → chanLive y = true →
        ∃ y', mget x.chn.tab c.toNat = some y' ∧ y'.state = .retired ∧ y'.endCause = 7)

/-- A queued row that has been rewritten leaves the queue and is marked; a row whose repair is verified leaves the table of
tracked rows, uses up its spare and queues its record for the unit-map extension; a bad spare is used up as well, and the
row tries the next one. Rows that are not queued, or not being spared, change nothing. An overrun of a pass is reported. -/
def Claim.RowsAreRewrittenAndSpared : Prop :=
  ∀ (s : State) (d : DieId) (w : MemWord) (k : MemKind),
    let m := (s.die d).mem
    let q := (w.kind, rowKey w)
    (q ∈ m.rewriteQ → ∃ x, RunsTo (.rowRewrite d w) s d x ∧ q ∉ x.mem.rewriteQ ∧ errSet x pSCB 0 = true ∧
      ∀ e ∈ x.mem.track, e.kind = w.kind → e.row = rowKey w → e.rewritten = true) ∧
    (q ∉ m.rewriteQ → RunsTo (.rowRewrite d w) s d (s.die d)) ∧
    (q ∈ m.sparing → (s.die d).key.ext.length + m.extQ.length < 1024 →
      ∃ x r, RunsTo (.rowSpareDone d w true) s d x ∧ q ∉ x.mem.sparing ∧ errSet x (memPage w.kind) 2 = true ∧
        x.mem.extQ = m.extQ ++ [r] ∧ (∀ e ∈ x.mem.track, ¬ (e.kind = w.kind ∧ e.row = rowKey w)) ∧
        (w.kind = .hbm → x.mem.pprUsed = m.pprUsed + 1 ∧ x.mem.pprLeft = m.pprLeft - 1)) ∧
    (q ∈ m.sparing → w.kind = .hbm → 2 ≤ m.pprLeft → ∃ x, RunsTo (.rowSpareDone d w false) s d x ∧ q ∈ x.mem.sparing ∧
      x.mem.pprLeft = m.pprLeft - 1) ∧
    (q ∉ m.sparing → ∀ b, RunsTo (.rowSpareDone d w b) s d (s.die d)) ∧
    (∃ e f, RunsTo (.scrubPassOverrun d k) s d { s.die d with errs := e, fcu := f } ∧
      errSet { s.die d with errs := e, fcu := f } pSCB 2 = true)

/-- The unit-map extension takes its records one at a time: a record that has been written is part of the map and of its
digest from then on, a failed write stays first in line, is reported, and is tried again. -/
def Claim.ExtensionRecordsInOrder : Prop :=
  ∀ (s : State) (d : DieId) (r : Bytes) (q : List Bytes), (s.die d).mem.extQ = r :: q →
    ∀ c ∈ [(Instr.unitMapExtensionWrite d true, Instr.unitMapExtensionWrite d false),
      (.extensionWriteRetry d true, .extensionWriteRetry d false)],
      (c.1 = .unitMapExtensionWrite d true ∨ (s.die d).mem.extRetry = true) →
      (∃ x, RunsTo c.1 s d x ∧ x.key.ext = (s.die d).key.ext ++ [r] ∧ x.mem.extQ = q ∧ x.mem.extRetry = false ∧
        x.key.mapDigest = h32 ([0x08] ++ (s.die d).key.mapPayload ++ ((s.die d).key.ext ++ [r]).flatMap id)) ∧
      (∃ x, RunsTo c.2 s d x ∧ x.key = (s.die d).key ∧ x.mem.extQ = r :: q ∧ x.mem.extRetry = true ∧
        errSet x pSCB 5 = true)

/-! ## The Fjartar link -/

/-- Training: ADAPT to FLIT_HUNT once every half, or after 5 ms some half, has locked, the others being excluded;
FLIT_HUNT to HELLO at flit lock, with the free buffer space granted anew; back to ADAPT from either when its millisecond
has passed; retirement with cause 4 or 1 when training has had its time. Each event does nothing in another state. -/
def Claim.LinkTrainingStates : Prop :=
  ∀ (s : State) (d : DieId) (locked : BitVec 2),
    ((s.die d).wlk.state = .adapt →
      RunsTo (.lanesLocked d) s d { s.die d with wlk := { (s.die d).wlk with state := .flitHunt } } ∧
      ((s.die d).wlk.halves < 4 → locked.toNat &&& (s.die d).wlk.halves ≠ 0 → ∃ x, RunsTo (.adaptTimeout d locked) s d x ∧
        x.wlk.state = .flitHunt ∧ x.wlk.halves = locked.toNat &&& (s.die d).wlk.halves ∧ x.chn = (s.die d).chn) ∧
      (locked.toNat &&& (s.die d).wlk.halves = 0 → RunsTo (.adaptTimeout d locked) s d (s.die d))) ∧
    ((s.die d).wlk.state = .flitHunt →
      (∃ w, RunsTo (.flitLock d) s d { s.die d with wlk := w } ∧ w.state = .hello ∧ w.ownAcked = false ∧ w.peerOk = false ∧
        w.halves = (s.die d).wlk.halves ∧
        w.upGrant.v0 = grantCfg (s.die d) 0 - (v3get (s.die d).wlk.held 0).length ∧ v3get w.upFreed 0 = 0) ∧
      RunsTo (.flitHuntTimeout d) s d { s.die d with wlk := { (s.die d).wlk with state := .adapt } }) ∧
    ((s.die d).wlk.state = .hello →
      RunsTo (.helloTimeout d) s d { s.die d with wlk := { (s.die d).wlk with state := .adapt } }) ∧
    ((s.die d).wlk.state = .adapt ∨ (s.die d).wlk.state = .flitHunt ∨ (s.die d).wlk.state = .hello →
      (within (s.die d) (field (s.die d) pWLK 0x050 0) (s.die d).wlk.leftAt = false →
        ∃ x, RunsTo (.retrainLimitExpiry d) s d x ∧ x.wlk.state = .retired ∧ x.wlk.halves = 0 ∧
          x.wlk.cause = if (s.die d).wlk.helloBad then 4 else 1) ∧
      (within (s.die d) (field (s.die d) pWLK 0x050 0) (s.die d).wlk.leftAt = true →
        RunsTo (.retrainLimitExpiry d) s d (s.die d))) ∧
    ((s.die d).wlk.state = .up → exec (.lanesLocked d) s = .next s ∧ exec (.adaptTimeout d locked) s = .next s ∧
      exec (.flitLock d) s = .next s ∧ exec (.flitHuntTimeout d) s = .next s ∧ exec (.helloTimeout d) s = .next s ∧
      exec (.retrainLimitExpiry d) s = .next s)

/-- What starts a retrain, in UP: eight naks for one fseq, a lost flit lock, a lost CDR lock, a FEC error rate above the
threshold, a command. The link is in ADAPT then, the half with the FEC errors taken out, and the retrain is counted; the
fifth within one second retires the link with cause 2, and the loss of the last half with cause 3. Outside UP nothing
happens. -/
def Claim.LinkRetrains : Prop :=
  ∀ (s : State) (d : DieId) (half : Bool),
    let recent := (s.die d).wlk.retrains.filter (fun t => within (s.die d) 1000 t)
    ((s.die d).wlk.state = .up → ∀ c ∈ [Instr.nakRepeatLimit d, .flitLockLost d, .cdrLockLost d, .wlkCmdRetrain d],
      (recent.length < 4 → ∃ x, RunsTo c s d x ∧ x.wlk.state = .adapt ∧ x.wlk.halves = (s.die d).wlk.halves ∧
        x.wlk.retrains = ((s.die d).tim.up :: recent).take 5 ∧ errSet x pWLK 1 = true ∧ x.chn = (s.die d).chn) ∧
      (4 ≤ recent.length → ∃ x, RunsTo c s d x ∧ x.wlk.state = .retired ∧ x.wlk.cause = 2)) ∧
    ((s.die d).wlk.state = .up → recent.length < 4 →
      ((s.die d).wlk.halves = 3 → ∃ x, RunsTo (.fecErrorThreshold d half) s d x ∧ x.wlk.state = .adapt ∧
        x.wlk.halves = 3 - 2 ^ b2n half ∧ errSet x pWLK 5 = true) ∧
      ((s.die d).wlk.halves = 2 ^ b2n half → ∃ x, RunsTo (.fecErrorThreshold d half) s d x ∧ x.wlk.state = .retired ∧
        x.wlk.cause = 3 ∧ x.wlk.halves = 0)) ∧
    ((s.die d).wlk.state ≠ .up →
      ∀ c ∈ [Instr.nakRepeatLimit d, .flitLockLost d, .cdrLockLost d, .wlkCmdRetrain d, .fecErrorThreshold d half,
        .wlkCmdResync d, .creditProgressTimeout d], RunsTo c s d (s.die d))

/-- A re-sync, by command or because no credit comes while a flit waits, is counted and enters HELLO from UP, keeping the
replay buffer, the sequence numbers and the data held; without a flit waiting the timeout does nothing. -/
def Claim.LinkResyncKeepsReplay : Prop :=
  ∀ (s : State) (d : DieId), (s.die d).wlk.state = .up →
    (∀ c ∈ [Instr.wlkCmdResync d, .creditProgressTimeout d],
      (c = .wlkCmdResync d ∨ dsWaiting (s.die d) = true) →
      ∃ x, RunsTo c s d x ∧ x.wlk.state = .hello ∧ errSet x pWLK 2 = true ∧ x.wlk.unacked = (s.die d).wlk.unacked ∧
        x.wlk.txSeq = (s.die d).wlk.txSeq ∧ x.wlk.rxNext = (s.die d).wlk.rxNext ∧ x.wlk.rx = (s.die d).wlk.rx ∧
        x.chn = (s.die d).chn) ∧
    (dsWaiting (s.die d) = false → RunsTo (.creditProgressTimeout d) s d (s.die d))

/-- The link leaves OFF and RETIRED for ADAPT by command, where the phase and the page's enable allow it, with both
sequences, the replay buffer and the frames not yet sent empty, and no record of the old link waiting; a commanded retirement
takes every half out, with cause 5, retires every channel of a model that is open or paused, with end_cause 6, ends every
admission, and leaves Summer for Spring. -/
def Claim.LinkRestoreAndRetire : Prop :=
  ∀ (s : State) (d : DieId),
    ((s.die d).wlk.state = .off ∨ (s.die d).wlk.state = .retired → linkAllowed (s.die d) = true →
      ∃ x, RunsTo (.wlkCmdRestore d) s d x ∧ x.wlk.state = .adapt ∧ x.wlk.halves = field (s.die d) pWLK 0x040 0 ∧
        x.wlk.txSeq = 0 ∧ x.wlk.rxNext = 0 ∧ x.wlk.unacked = [] ∧ x.wlk.dsTx0 = [] ∧ x.wlk.dsTx1 = [] ∧
        x.wlk.freshTx = true ∧ x.wrd.wait = ⟨[], [], []⟩ ∧ x.wrd.chunks = (s.die d).wrd.chunks ∧ x.ing.queue = [] ∧
        x.chn.tickets = (s.die d).chn.tickets ∧ x.adm = (s.die d).adm ∧ x.mem = (s.die d).mem ∧ x.phase = (s.die d).phase) ∧
    (linkAllowed (s.die d) = false → RunsTo (.wlkCmdRestore d) s d (s.die d)) ∧
    ((s.die d).wlk.state ≠ .off → (s.die d).wlk.state ≠ .retired → ∃ x, RunsTo (.wlkCmdRetire d) s d x ∧
      x.wlk.state = .retired ∧ x.wlk.halves = 0 ∧ x.wlk.cause = 5 ∧ x.tim = (s.die d).tim ∧
      (∀ k, mget x.adm.models k = none) ∧
      (∀ k c, mget (s.die d).chn.tab k = some c → chanLive c = true → c.host.kind ≠ 3 →
        ∃ c', mget x.chn.tab k = some c' ∧ c'.state = .retired ∧ c'.endCause = 6) ∧
      x.phase = if (s.die d).phase = .summer then .spring else (s.die d).phase) ∧
    ((s.die d).wlk.state = .off ∨ (s.die d).wlk.state = .retired → RunsTo (.wlkCmdRetire d) s d (s.die d))

/-- Flits that arrive: the next DATA flit in sequence, with a credit left, takes a buffer and uses up its fseq, and its
units stand behind what its virtual channel holds; one out of sequence asks for replay and takes nothing; a flit that
fails its checks is counted and discarded, and asks for replay where it may be a DATA flit; an IDLE flit brings no data;
a DATA flit that does not bring the link out of HELLO asks for replay; none is looked at outside HELLO and UP. -/
def Claim.FlitsArrive : Prop :=
  ∀ (s : State) (d : DieId) (f : Flit),
    let w := (s.die d).wlk
    let v := flVc f.bytes
    let good := flCrcOk f.bytes = true ∧ f.fecOk = true ∧ flReservedOk f.bytes = true
    (w.state ≠ .up → w.state ≠ .hello → RunsTo (.dataFlit d f) s d (s.die d) ∧ RunsTo (.idleFlit d f) s d (s.die d) ∧
      RunsTo (.hello d f) s d (s.die d)) ∧
    (w.state = .up → good → flType f.bytes = 1 → flSeq f.bytes = w.rxNext →
      v3get w.upTaken v < v3get w.upGrant v + v3get w.upFreed v →
      ∃ x, RunsTo (.dataFlit d f) s d x ∧ x.wlk.state = .up ∧ x.wlk.rxNext = (w.rxNext + 1) % 4096 ∧ x.wlk.nak = false ∧
        v3get x.wlk.upTaken v = v3get w.upTaken v + 1 ∧ x.wlk.txSeq = w.txSeq ∧
        ∃ gone, gone ++ v3get x.wlk.rx v = v3get w.rx v ++ (flPayload f.bytes).take (16 * flUnits f.bytes)) ∧
    (w.state = .up → good → flType f.bytes = 1 → flSeq f.bytes ≠ w.rxNext → w.rxAny = false →
      ∃ x, RunsTo (.dataFlit d f) s d x ∧ x.wlk.nak = true ∧ x.wlk.rxNext = w.rxNext ∧ x.wlk.upTaken = w.upTaken) ∧
    (w.state = .hello → good → flType f.bytes = 1 → ∃ x, RunsTo (.dataFlit d f) s d x ∧ x.wlk.upTaken = w.upTaken ∧
      (x.wlk.state = .hello → x.wlk.nak = true)) ∧
    (w.state = .up → good → flType f.bytes = 2 → ∃ x, RunsTo (.idleFlit d f) s d x ∧ x.wlk.state = .up ∧
      x.wlk.rxNext = w.rxNext ∧ x.wlk.upTaken = w.upTaken ∧ x.wlk.nak = w.nak ∧
      x.wlk.unacked = w.unacked.filter (fun g => !acked (flAck f.bytes) g.fseq)) ∧
    (w.state = .up → ¬ good → w.badRun < 3 → ∀ c ∈ [Instr.dataFlit d f, .idleFlit d f, .hello d f],
      ∃ x, RunsTo c s d x ∧ x.wlk.state = .up ∧ errSet x pWLK 0 = true ∧ x.wlk.upTaken = w.upTaken ∧
        x.wlk.rxNext = w.rxNext ∧ x.wlk.unacked = w.unacked ∧
        x.wlk.nak = (w.nak || !(flCrcOk f.bytes && f.fecOk) || flType f.bytes == 1))

/-- An acceptable HELLO flit in HELLO brings the peer's grants and replay depth; the link is UP after it if the device's own
HELLO has gone out since HELLO was entered, and stays in HELLO otherwise. -/
def Claim.HelloBringsTheLinkUp : Prop :=
  ∀ (s : State) (d : DieId) (f : Flit),
    let w := (s.die d).wlk
    let p := flPayload f.bytes
    w.state = .hello → flCrcOk f.bytes = true → f.fecOk = true → flReservedOk f.bytes = true → flType f.bytes = 3 →
    helloMismatch w p = false → helloFieldsOk p = true → w.halves &&& (3 - heMask p) = 0 → w.wasUp = false →
    ∃ x, RunsTo (.hello d f) s d x ∧ x.wlk.peerOk = true ∧ x.wlk.dsGrant = ⟨heGrant p 0, heGrant p 1, 0⟩ ∧
      x.wlk.peerDepth = u16At p 6 ∧ x.wlk.peerId = slice p 16 32 ∧ x.wlk.halves = w.halves ∧
      x.wlk.state = if w.helloSent then .up else .hello

/-- A slot of a half that the link uses, in UP: a flit that waits for replay goes first, then VC 1, each new flit under the
next fseq and into the replay buffer, and an IDLE flit where nothing may go. The device's HELLO goes out in HELLO alone. -/
def Claim.FlitsLeave : Prop :=
  ∀ (s : State) (d : DieId) (half ecc : Bool),
    let w := (s.die d).wlk
    (tst w.halves (b2n half) = false → RunsTo (.flitSlotTx d half ecc) s d (s.die d)) ∧
    (tst w.halves (b2n half) = true → w.state = .up →
      (∀ g r, w.resend = g :: r → ecc = false → ∃ x c, RunsTo (.flitSlotTx d half ecc) s d x ∧ x.wlk.resend = r ∧
        x.wlk.unacked = w.unacked ∧ x.wlk.txSeq = w.txSeq ∧
        x.out = .flit (b2n half) (flitBytes 1 g.vc g.fseq (ackField w) g.units c (v3get w.upFreed c % 4096) g.payload)
          :: (s.die d).out) ∧
      (w.resend = [] → w.unacked.length < min 1024 w.peerDepth → w.dsTx1 ≠ [] → 0 < dsCredit w 1 →
        ∃ x b, RunsTo (.flitSlotTx d half ecc) s d x ∧ x.wlk.txSeq = (w.txSeq + 1) % 4096 ∧ x.wlk.dsTx1 = w.dsTx1.drop 512 ∧
          x.wlk.unacked = w.unacked ++ [⟨w.txSeq, 1, (w.dsTx1.take 512).length / 16, w.dsTx1.take 512, []⟩] ∧
          x.out = .flit (b2n half) b :: (s.die d).out) ∧
      (w.resend = [] → w.dsTx0 = [] → w.dsTx1 = [] → ∃ x c, RunsTo (.flitSlotTx d half ecc) s d x ∧
        x.wlk.unacked = w.unacked ∧ x.wlk.txSeq = w.txSeq ∧
        x.out = .flit (b2n half) (flitBytes 2 0 0 (ackField w) 0 c (v3get w.upFreed c % 4096) []) :: (s.die d).out)) ∧
    (w.state = .hello → ∃ x b h, RunsTo (.helloTx d) s d x ∧ x.wlk.helloSent = true ∧ x.wlk.state = .hello ∧
      x.out = .flit h b :: (s.die d).out) ∧
    (w.state ≠ .hello → RunsTo (.helloTx d) s d (s.die d))

/-- An owed ratchet bump goes onto downstream VC 1 in UP while a credit is left: one record, under the next sequence
number, with the ratchet's value; the bump is owed no longer, and the value stays. -/
def Claim.OwedBumpsGoDownstream : Prop :=
  ∀ (s : State) (d : DieId) (r : BitVec 12),
    ((ratchet (s.die d) r.toNat).owed = true → (s.die d).wlk.state = .up → 0 < dsCredit (s.die d).wlk 1 →
      ∃ x rec_, RunsTo (.ratchetBumpDownstream d r) s d x ∧ x.wlk.dsTx1 = (s.die d).wlk.dsTx1 ++ rec_ ∧
        rec_.length = 32 ∧ leVal (rec_.drop 24) = (ratchet (s.die d) r.toNat).value % 2 ^ 64 ∧
        x.wlk.dsSeq = w32 ((s.die d).wlk.dsSeq + 1) ∧
        ratchet x r.toNat = { ratchet (s.die d) r.toNat with owed := false } ∧ x.chn = (s.die d).chn) ∧
    ((ratchet (s.die d) r.toNat).owed = false ∨ (s.die d).wlk.state ≠ .up →
      RunsTo (.ratchetBumpDownstream d r) s d (s.die d))

/-! ## Witness records -/

/-- A record that departs from nothing joins the open batch of its channel while the group's staging ring has room: it is
staged last, with its plan entry, counted, and the channel's next sequence number is one more; a TOKEN_END closes a token,
and a BATCH_END closes the batch as complete with the units it names. No record of any other batch is staged.
Readings and choices of the model in it: log entry 56. -/
def Obligations.RecordsJoinTheOpenBatch : Prop :=
  ∀ (s : State) (d : DieId) (r0 : RecIn) (m : Model) (b : Batch), ∀ p ∈ recordCommands d r0,
    let r := cutRecord r0
    Met p.1 r (s.die d) → Joins r m b (s.die d) → recordCauses p.1 r m (s.die d) = [] → stageRoom (s.die d) b.lead r = true →
    ∃ x f, RunsTo p.2 s d x ∧ x.chn.tickets = (s.die d).chn.tickets.map f ∧
      (∀ t, (f t).serial = t.serial ∧ (t.serial ≠ b.serial → (f t).staged = t.staged)) ∧
      (f b).staged = b.staged ++ [⟨p.1, r, entryOf (chan (s.die d) (recChan r)) m p.1 r.payload, b.tokens⟩] ∧
      (f b).recs = (if p.1 = 5 then b.recs else b.recs + 1) ∧ (f b).tokens = (if p.1 = 4 then b.tokens + 1 else b.tokens) ∧
      (p.1 = 5 → (f b).closed = true ∧ (f b).complete = true ∧ (f b).endUnits = u32At r.payload 8) ∧
      (chan x (recChan r)).wrd.nextSeq = w32 (r.seq.toNat + 1)

/-- A record that departs: the departure is counted and reported, its batch fails with cause 6 from the current token on,
nothing is staged, and the channel's records are discarded up to the batch's end. A record for a channel that takes none is
counted and discarded. -/
def Claim.DepartingAndUnknownRecords : Prop :=
  ∀ (s : State) (d : DieId) (r0 : RecIn), ∀ p ∈ recordCommands d r0,
    let r := cutRecord r0
    Met p.1 r (s.die d) →
    (∀ m b, Joins r m b (s.die d) → recordCauses p.1 r m (s.die d) ≠ [] → p.1 ≠ 5 →
      ∃ x f, RunsTo p.2 s d x ∧ x.chn.tickets = (s.die d).chn.tickets.map f ∧ (b.tokens, 6) ∈ (f b).fails ∧
        (∀ t, (f t).staged = t.staged) ∧ (chan x (recChan r)).wrd.skip = some .departed ∧ errSet x pWRD 0 = true) ∧
    (r.vc.toNat < 2 → chanLive (chan (s.die d) (recChan r)) = false ∨ (chan (s.die d) (recChan r)).host.kind = 3 →
      ∃ x f, RunsTo p.2 s d x ∧ x.chn.tickets = (s.die d).chn.tickets.map f ∧ (∀ t, (f t).staged = t.staged) ∧
        errSet x pWRD 1 = true)

/-- A WEIGHT_CHUNK of the seq, tensor and offset that the running stream expects is held for the build while the staging ring has
room, and the stream moves on by its length; one of another seq departs and ends its admission with code 11; on VC 2 a RATCHET_BUMP raises a ratchet that the accelerator owns to a larger
value and is otherwise refused and reported, and a HEARTBEAT is noted with its count and status.
Readings and choices of the model in it: log entries 64, 65. -/
def Obligations.ChunksBumpsAndHeartbeats : Prop :=
  ∀ (s : State) (d : DieId) (r0 : RecIn),
    let r := cutRecord r0
    let p := r.payload
    (∀ st m, Met 11 r (s.die d) → r.vc.toNat < 2 → (s.die d).adm.stream = some st → model (s.die d) st.slot = some m →
      m.turn ≠ some .rpmb → m.loadChannel = recChan r → layoutCauses 11 true r = [] → r.flags = 0 →
      r.seq.toNat = chunkSeq (s.die d) (recChan r) st →
      (∀ t, m.manifest.tensors[st.tensor]? = some t → chunkNan t st.offset (slice p 16 (u32At p 12)) = false) →
      u32At p 0 = st.tensor → u64At p 4 = st.offset →
      st.offset + u32At p 12 < ((m.manifest.tensors[st.tensor]?).map (fun t => t.bytes)).getD 0 →
      stageRoom (s.die d) (rebuildLead (s.die d) st.slot) r = true →
      ∃ x, RunsTo (.weightChunk d r0) s d x ∧ x.wrd.chunks = (s.die d).wrd.chunks ++ [r] ∧
        x.adm = { (s.die d).adm with
          stream := some { st with offset := st.offset + u32At p 12, seq := (r.seq.toNat + 1) % 4294967296 } }) ∧
    (∀ st m, Met 11 r (s.die d) → r.vc.toNat < 2 → (s.die d).adm.stream = some st → model (s.die d) st.slot = some m →
      m.turn ≠ some .rpmb → m.state ≠ .ready → m.loadChannel = recChan r → r.seq.toNat ≠ chunkSeq (s.die d) (recChan r) st →
      ∃ x, RunsTo (.weightChunk d r0) s d x ∧ model x st.slot = none ∧ mget x.adm.codes st.slot = some 11 ∧
        x.adm.stream = none ∧ errSet x pWRD 0 = true) ∧
    (Met 12 r (s.die d) → r.vc.toNat = 2 → layoutCauses 12 true r = [] →
      (ownerOf (s.die d) (u16At p 0) = 2 → (ratchet (s.die d) (u16At p 0)).value < u64At p 8 →
        ∃ x, RunsTo (.ratchetBump d r0) s d x ∧
          ratchet x (u16At p 0) = { ratchet (s.die d) (u16At p 0) with value := u64At p 8 } ∧
          ∀ k, k ≠ u16At p 0 → ratchet x k = ratchet (s.die d) k) ∧
      (ownerOf (s.die d) (u16At p 0) ≠ 2 ∨ u64At p 8 ≤ (ratchet (s.die d) (u16At p 0)).value →
        ∃ x, RunsTo (.ratchetBump d r0) s d x ∧ x.rat = (s.die d).rat ∧ errSet x (ratPage (u16At p 0)) 0 = true)) ∧
    (Met 13 r (s.die d) → r.vc.toNat = 2 → layoutCauses 13 true r = [] →
      ∃ x, RunsTo (.heartbeat d r0) s d x ∧ x.wrd.hbOk = true ∧ x.wrd.hbStatus = u32At p 4 ∧
        capOf x pWRD 0x060 = u32At p 0 ∧ x.rat = (s.die d).rat) ∧
    ((s.die d).wlk.state = .up → ∃ x, RunsTo (.heartbeatTimeout d) s d x ∧ x.wrd.hbOk = false ∧ errSet x pWRD 3 = true) ∧
    ((s.die d).wlk.state ≠ .up → RunsTo (.heartbeatTimeout d) s d (s.die d))

/-- A record that waits is tried again when a ticket is released, and when a staging ring has room again: it is dealt with as
if it arrived then, or goes on waiting where it still cannot be taken, noted once where it waits for a ticket. -/
def Claim.WaitingRecordsAreTriedAgain : Prop :=
  ∀ (s : State) (d : DieId) (lead : BitVec 3), ∀ c ∈ [Instr.ticketAvailable d, .stagingRoomFree d lead],
    (c = .ticketAvailable d ∨ stageFill (s.die d) lead.toNat < 262144) →
    let again := fun (q : Staged) (x : Die) (t : Nat) =>
      (q.token = 0 → lacksTicket (s.die d) q.rtype q.r = true → t = 1 ∧ errSet x pCHN 3 = true) ∧
      (q.token ≠ 0 ∨ lacksTicket (s.die d) q.rtype q.r = false → x = s.die d)
    ∀ q : Staged, headOk q.rtype q.r = true →
      ((s.die d).wrd.wait = ⟨[], [], []⟩ → RunsTo c s d (s.die d)) ∧
      ((s.die d).wrd.wait = ⟨[q], [], []⟩ →
        (∀ y, tryRecord q.rtype q.r (updWrd (fun w => { w with wait := ⟨[], [], []⟩ }) (s.die d)) = some y →
          y.wrd.wait.v1 = [] → RunsTo c s d y) ∧
        (tryRecord q.rtype q.r (updWrd (fun w => { w with wait := ⟨[], [], []⟩ }) (s.die d)) = none →
          ∃ x t, RunsTo c s d x ∧ x.wrd = { (s.die d).wrd with wait := ⟨[{ q with token := t }], [], []⟩ } ∧ x.chn = (s.die d).chn ∧ again q x t)) ∧
      ((s.die d).wrd.wait = ⟨[], [q], []⟩ →
        (∀ y, tryRecord q.rtype q.r (updWrd (fun w => { w with wait := ⟨[], [], []⟩ }) (s.die d)) = some y →
          RunsTo c s d y) ∧
        (tryRecord q.rtype q.r (updWrd (fun w => { w with wait := ⟨[], [], []⟩ }) (s.die d)) = none →
          ∃ x t, RunsTo c s d x ∧ x.wrd = { (s.die d).wrd with wait := ⟨[], [{ q with token := t }], []⟩ } ∧ x.chn = (s.die d).chn ∧ again q x t))

/-! ## Pannier sessions and requests -/

/-- Sessions: an OPEN that may be answered makes one that is not open yet, at most 16 in a second; a CONFIRM with the right
tag opens it if its signature verifies and its key is enrolled for the role, and ends it otherwise; it ends without CONFIRM
in time, after 30 s of silence, and at 16 tag failures within a second.
Readings and choices of the model in it: log entries 168, 169, 170, 182. -/
def Obligations.SessionsOpenAndEnd : Prop :=
  ∀ (s : State) (d : DieId),
    (∀ (f : PFrame) (y : Die), arrives f (s.die d) = (true, y) →
      let recent := y.key.opens.filter (fun t => decide (y.tim.up - t < 1000000000))
      (16 ≤ recent.length → RunsTo (.pannierOpen d f) s d y) ∧
      (recent.length < 16 → openAllowed y f.payload = true → ∃ z q, RunsTo (.pannierOpen d f) s d z ∧
        z.key.sessions = y.key.sessions ++ [q] ∧ q.id = y.key.nextId ∧ q.isOpen = false ∧ q.role = byteAt f.payload 0 ∧
        q.client = slice f.payload 64 57 ∧ z.key.opens = y.tim.up :: recent) ∧
      (recent.length < 16 → openAllowed y f.payload = false → ∃ z, RunsTo (.pannierOpen d f) s d z ∧
        z.key = y.key ∧ errSet z pKEY 4 = true) ∧
      (∀ q, session y f.session.toNat = some q → f.tag = upTag 3 q f → q.isOpen = false →
        (f.seq.toNat = 1 → edVerify q.client (ascii "HW2240 pannier client") q.t f.payload = true →
          enrolled y q.role (h32 q.client) = true →
          ∃ z q', RunsTo (.confirm d f) s d z ∧ session z q.id = some q' ∧ q'.isOpen = true ∧ q'.role = q.role) ∧
        (edVerify q.client (ascii "HW2240 pannier client") q.t f.payload = false ∨ enrolled y q.role (h32 q.client) = false →
          ∃ z, RunsTo (.confirm d f) s d z ∧ session z q.id = none ∧ errSet z pKEY 4 = true))) ∧
    (∀ (n : BitVec 16) q, session (s.die d) n.toNat = some q →
      (q.isOpen = false → ∃ z, RunsTo (.confirmTimeout d n) s d z ∧ session z n.toNat = none ∧ errSet z pKEY 4 = true) ∧
      (q.isOpen = true → RunsTo (.confirmTimeout d n) s d (s.die d) ∧
        ∃ z, RunsTo (.sessionIdleTimeout d n) s d z ∧ session z n.toNat = none ∧ z.errs = (s.die d).errs) ∧
      (16 ≤ (q.tagFails.filter (fun t => within (s.die d) 1000 t)).length →
        ∃ z, RunsTo (.tagFailLimit d n) s d z ∧ session z n.toNat = none) ∧
      ((q.tagFails.filter (fun t => within (s.die d) 1000 t)).length < 16 → RunsTo (.tagFailLimit d n) s d (s.die d)))

/-- Every request is acted on once: where the frame's session does not exist or is not open, and where its tag is wrong, the
request does nothing but count the tag failure; a request under a number accepted before is answered again and not acted
on; a request under a new number no more than 64 below the highest is accepted.
Readings and choices of the model in it: log entry 170. -/
def Obligations.RequestsAreActedOnOnce : Prop :=
  ∀ (s : State) (d : DieId) (f : PFrame) (y : Die), arrives f (s.die d) = (true, y) → ∀ p ∈ requestCommands d f,
    (session y f.session.toNat = none → RunsTo p.2 s d y) ∧
    (∀ q, session y f.session.toNat = some q →
      (q.isOpen = false → RunsTo p.2 s d y) ∧
      (q.isOpen = true → f.tag ≠ upTag p.1 q f → RunsTo p.2 s d (badTag q.id y)) ∧
      (q.isOpen = true → f.tag = upTag p.1 q f → numberOk q f.seq.toNat = false → RunsTo p.2 s d y) ∧
      (q.isOpen = true → f.tag = upTag p.1 q f → numberOk q f.seq.toNat = true → f.seq.toNat ∈ q.upSeen →
        RunsTo p.2 s d (answerAgain p.1 q f.seq.toNat y)) ∧
      (q.isOpen = true → f.tag = upTag p.1 q f → numberOk q f.seq.toNat = true → f.seq.toNat ∉ q.upSeen →
        Accepted p.1 f (s.die d) q (noteFrame q.id f.seq.toNat y)))

/-- Reading and writing registers over a session: a READ answers with what each register reads, and zero outside the die's
space; a WRITE of a register that the role may write is that register's write, answered with status 0; it is refused whole
with status 2 without the right, and with status 3 outside the die's space. KEEPALIVE is answered, CLOSE ends the session.
Readings and choices of the model in it: log entries 168, 175. -/
def Obligations.SessionsReadAndWriteRegisters : Prop :=
  ∀ (s : State) (d : DieId) (f : PFrame) (x : Session) (y : Die) (a v : Word),
    (Accepted 0x05 f (s.die d) x y → RunsTo (.keepalive d f) s d (result x f 0 [] y)) ∧
    (Accepted 0x04 f (s.die d) x y → ∃ z, RunsTo (.close d f) s d z ∧ session z x.id = none ∧ z.regs.live = y.regs.live) ∧
    (Accepted 0x10 f (s.die d) x y →
      (f.payload.length % 4 ≠ 0 → RunsTo (.read d f) s d (result x f 3 [] y)) ∧
      (f.payload = leBytes 4 a.toNat → inSpace y a.toNat = true → RunsTo (.read d f) s d
        (result x f 0 (leBytes 4 (regRead (s.die d.other) (a.toNat - dieBase y) y).1)
          (regRead (s.die d.other) (a.toNat - dieBase y) y).2)) ∧
      (f.payload = leBytes 4 a.toNat → inSpace y a.toNat = false →
        RunsTo (.read d f) s d (result x f 0 (leBytes 4 0) y))) ∧
    (Accepted 0x11 f (s.die d) x y → f.payload = leBytes 4 a.toNat ++ leBytes 4 v.toNat →
      (x.role = 2 ∨ (inSpace y a.toNat = true ∧ mayWrite y x.role (a.toNat - dieBase y) = false) →
        RunsTo (.write d f) s d (result x f 2 [] y)) ∧
      (x.role ≠ 2 → inSpace y a.toNat = false → RunsTo (.write d f) s d (result x f 3 [] y)) ∧
      (x.role ≠ 2 → inSpace y a.toNat = true → mayWrite y x.role (a.toNat - dieBase y) = true → y.vp.pending = false →
        ∀ t, exec (.registerWrite d (BitVec.ofNat 24 (a.toNat - dieBase y)) v) (s.setDie d y) = .next t →
          exec (.write d f) s = .next (onDie d (resultWrite x f y.hst.linkUp) t)))

/-- Debug is locked by command of the register and of an operator's or a maintenance session, and unlocked to the token's
class by a good token alone; each change is reported and draws a new nonce. A command of a role that lacks it, or laid out
wrong, is answered with status 2 or 3 and does nothing. -/
def Claim.DebugIsLockedAndUnlocked : Prop :=
  ∀ (s : State) (d : DieId) (f : PFrame) (x : Session) (y : Die),
    (∃ z, RunsTo (.keyCmdLock d) s d z ∧ z.key.debug = 0 ∧ errSet z pKEY 6 = true ∧ z.freeCtr = (s.die d).freeCtr + 1 ∧
      z.phase = (s.die d).phase) ∧
    (Accepted 0x12 f (s.die d) x y →
      (x.role ≠ 1 → x.role ≠ 3 → RunsTo (.lock d f) s d (result x f 2 [] y)) ∧
      (x.role = 1 ∨ x.role = 3 → u16At f.payload 0 = 8 → 4 ≤ f.payload.length → ∃ z, RunsTo (.lock d f) s d z ∧
        z.key.debug = 0 ∧ errSet z pKEY 6 = true) ∧
      (x.role ≠ 3 → RunsTo (.unlock d f) s d (result x f 2 [] y)) ∧
      (x.role = 3 → u16At f.payload 0 = 7 → f.payload.length < 516 → RunsTo (.unlock d f) s d (result x f 3 [] y)) ∧
      (x.role = 3 → u16At f.payload 0 = 7 → 516 ≤ f.payload.length →
        (tokenOk y (slice f.payload 4 512) = true → ∃ z, RunsTo (.unlock d f) s d z ∧
          z.key.debug = byteAt (slice f.payload 4 512) 0 ∧ errSet z pKEY 6 = true) ∧
        (tokenOk y (slice f.payload 4 512) = false → ∃ z, RunsTo (.unlock d f) s d z ∧ z.key.debug = y.key.debug ∧
          z.key.nonce = y.key.nonce ∧ errSet z pKEY 7 = true)))

/-- Ownership, the trust list, flash and subscriptions: CLAIM on an unowned die and RELEASE by the owner's session in Spring
without admissions wait for the RPMB block; a container that verifies is written to flash; a reload reads the trust list in
flash again, and does nothing where flash holds none; SUBSCRIBE turns seals on and off for its session. -/
def Claim.OwnerFlashAndSubscription : Prop :=
  ∀ (s : State) (d : DieId) (f : PFrame) (x : Session) (y : Die),
    (mget (s.die d).key.flash 5 = none → RunsTo (.keyCmdReload d) s d (s.die d)) ∧
    (∀ b l, mget (s.die d).key.flash 5 = some b → tchiliOk (s.die d) 5 b = true →
      parseTrust (parseTchili b).payload = some l → ∃ z, RunsTo (.keyCmdReload d) s d z ∧ z.key.trust = some l) ∧
    (Accepted 0x12 f (s.die d) x y → x.role = 3 →
      (u16At f.payload 0 = 5 → 4 ≤ f.payload.length → owned y = false → ownerPending y = false → RunsTo (.claim d f) s d
        (rpmbQueue (.owner (h32 x.client) x.id f.seq.toNat) y)) ∧
      (u16At f.payload 0 = 6 → 4 ≤ f.payload.length → owned y = true → h32 x.client = y.key.rpmb.owner →
        y.phase = .spring → y.adm.models = [] → ownerPending y = false → RunsTo (.release d f) s d
          (rpmbQueue (.owner (zeros 32) x.id f.seq.toNat) y)) ∧
      (∀ b, u16At f.payload 0 = 4 → 4 ≤ f.payload.length → bulkWhole y 4 = some b → flashOk (bulkDone 4 y) b = true →
        (parseTchili b).typ ≠ 5 → ∃ z, RunsTo (.flashCommit d f true) s d z ∧
          mget z.key.flash (flashKey y (parseTchili b).typ) = some b ∧ z.key.trust = y.key.trust)) ∧
    (Accepted 0x12 f (s.die d) x y → x.role = 1 ∨ x.role = 2 ∨ x.role = 3 → u16At f.payload 0 = 9 →
      5 ≤ f.payload.length → byteAt f.payload 4 ≤ 1 → ∃ z, RunsTo (.subscribe d f) s d z ∧
        ∀ q, session z x.id = some q → q.sealsOn = (byteAt f.payload 4 == 1))

/-- Bulk transfer: the operator's fragment at offset 0 of a program declares its size and takes the target; a GET answers
with at most 1,400 bytes from its offset on and says whether more follow; an acknowledged seal body is released by an
operator's session, and by no other.
Readings and choices of the model in it: log entries 173, 177. -/
def Obligations.BulkTransferAndSealBodies : Prop :=
  ∀ (s : State) (d : DieId) (f : PFrame) (x : Session) (y : Die),
    (Accepted 0x20 f (s.die d) x y → f.ref.toNat = 2 → f.offset.toNat = 0 → x.role = 1 → 24 ≤ f.payload.length →
      f.payload.length ≤ u32At f.payload 20 → u32At f.payload 20 ≤ 33554432 → mget y.key.bulk 2 = none →
      extents (u32At f.payload 20) ≤ hbmFree (bulkDone 2 y) → ∃ z, RunsTo (.bulkPut d f) s d z ∧
        mget z.key.bulk 2 = some { size := u32At f.payload 20, parts := [(0, f.payload)], owner := x.id }) ∧
    (Accepted 0x21 f (s.die d) x y → 4 ≤ f.payload.length → x.role = 1 →
      ∀ b, u32At f.payload 0 ∈ [5, 7, 8, 9] → bulkContent y (u32At f.payload 0) f.ref.toNat = some b →
        RunsTo (.bulkGet d f) s d (answer 0 x.id f.seq.toNat 0 (b2n (decide (f.offset.toNat + 1400 < b.length)))
          f.offset.toNat (slice b f.offset.toNat 1400) y)) ∧
    (Accepted 0x31 f (s.die d) x y → 8 ≤ f.payload.length →
      (x.role = 1 → ∃ z, RunsTo (.sealAck d f) s d z ∧
        z.sealing.bodies = y.sealing.bodies.filter (fun b => b.no != leVal (slice f.payload 0 8))) ∧
      (x.role ≠ 1 → ∃ z, RunsTo (.sealAck d f) s d z ∧ z.sealing = y.sealing))

/-! ## Admission, weight streams and Months -/

/-- ADMIT, WITHDRAW and TURN of an operator's session: a request that passes every step of admission is pending with its
Month write queued, and one that fails a step is refused with that step's code, no model changed; a withdrawn slot is free
at once; a turn of a model that is ready waits, and a turn of any other slot is refused with code 32. -/
def Claim.AdmitWithdrawAndTurn : Prop :=
  ∀ (s : State) (d : DieId) (f : PFrame) (x : Session) (y : Die), Accepted 0x12 f (s.die d) x y → x.role = 1 →
    let e := result x f 1 [] y
    let peer := s.die d.other
    let q := parseAdmit (slice f.payload 4 64)
    let man := (bulkWhole e 1).getD []
    let image := (bulkWhole e 2).getD []
    let slot := byteAt f.payload 4
    (u16At f.payload 0 = 1 → 68 ≤ f.payload.length → y.vp.pending = true →
      RunsTo (.admitModel d f) s d (result x f 4 [] y)) ∧
    (u16At f.payload 0 = 1 → 68 ≤ f.payload.length → y.vp.pending = false → diesNames y q.dies = true →
      q.slot ∉ y.adm.peerRefused → coupledDiffers q (model peer q.slot) = false →
      (∀ es r, admitSteps e peer q man image = (0, es, r) → y.key.rpmb.month ≠ 4294967295 →
        ∃ z m, RunsTo (.admitModel d f) s d z ∧ model z q.slot = some m ∧ m.state = .rpmb ∧
          m.manifest = parseManifest man ∧ m.k = max q.k (parseManifest man).kMin ∧
          z.key.writes = e.key.writes ++ [.admission q.slot] ∧ z.cad.frags = y.cad.frags ++ es) ∧
      (∀ c es r, admitSteps e peer q man image = (c, es, r) → c ≠ 0 →
        ∃ z, RunsTo (.admitModel d f) s d z ∧ z.adm.models = y.adm.models ∧ mget z.adm.codes q.slot = some c ∧
          z.key.writes = y.key.writes ∧ z.cad.frags = y.cad.frags)) ∧
    (u16At f.payload 0 = 2 → 5 ≤ f.payload.length →
      (model y slot = none → RunsTo (.withdraw d f) s d (resultCode x f 32 y)) ∧
      (model y slot ≠ none → ∃ z, RunsTo (.withdraw d f) s d z ∧ model z slot = none)) ∧
    (u16At f.payload 0 = 3 → 5 ≤ f.payload.length →
      (model y slot = none → RunsTo (.turn d f) s d (resultCode x f 32 y)) ∧
      (∀ m, model y slot = some m → m.state ≠ .ready → RunsTo (.turn d f) s d (resultCode x f 32 y)) ∧
      (∀ m, model y slot = some m → m.state = .ready → m.pending = none → m.turn = none →
        ∃ z m', RunsTo (.turn d f) s d z ∧ model z slot = some m' ∧ m'.pending = some ⟨false, y.adm.order⟩ ∧
          m'.active = m.active))

/-- The peer die's word on a Coupled admission or turn: a completed half is noted, a refused one ends the admission, a turn
that the peer begins is begun here too. -/
def Claim.CoupledAdmissionsAndTurns : Prop :=
  ∀ (s : State) (d : DieId) (m : SpokeMsg) (x : Model),
    let slot := spA m % 64
    let w := spokeRight m (s.die d)
    model (s.die d) slot = some x → isCoupled x = true →
      (spokeOk 3 m = true → admitting x = true → spSub m = 0 →
        RunsTo (.spokeAdmit d m) s d (modModel slot (fun x => { x with peerOk := true }) w)) ∧
      (spokeOk 3 m = true → admitting x = true → spSub m ≠ 0 → ∃ z, RunsTo (.spokeAdmit d m) s d z ∧
        model z slot = none ∧ mget z.adm.codes slot = some (peerCode (spSub m) (s.die d) (s.die d.other))) ∧
      (spokeOk 2 m = true → spSub m = 2 → ∃ z x', RunsTo (.spokeTurn d m) s d z ∧ model z slot = some x' ∧
        x'.peerOk = true ∧ x'.active = x.active) ∧
      (spokeOk 2 m = true → spSub m = 1 → x.state = .ready → x.pending = none → x.turn = none →
        ∃ z x', RunsTo (.spokeTurn d m) s d z ∧ model z slot = some x' ∧ x'.pending ≠ none) ∧
      (CrcRight m → spokeOk 3 m = false → RunsTo (.spokeAdmit d m) s d w) ∧
      (CrcRight m → spokeOk 2 m = false → RunsTo (.spokeTurn d m) s d w)

/-- A confirmed RPMB write raises the Month counter and moves an admission on to the queue under the new Month, or raises a
container's floor, or sets the owner; an admission whose write takes too long ends with code 13; a retry and a lost write are
reported, and change neither queue nor counters. -/
def Claim.RpmbWritesInOrder : Prop :=
  ∀ (s : State) (d : DieId) (w : RpmbWrite) (r : List RpmbWrite), (s.die d).key.writes = w :: r →
    (∀ slot m, w = .admission slot → model (s.die d) slot = some m → ∃ z m', RunsTo (.rpmbWriteConfirm d) s d z ∧
      z.key.rpmb.month = (s.die d).key.rpmb.month + 1 ∧ z.key.writes = r ∧ model z slot = some m' ∧ m'.state = .queued ∧
      m'.active.month = (s.die d).key.rpmb.month + 1 ∧ m'.active.ready = false) ∧
    (∀ kind v, w = .svn kind v → ∃ z, RunsTo (.rpmbWriteConfirm d) s d z ∧ z.key.writes = r ∧
      z.key.rpmb = { (s.die d).key.rpmb with svn := (s.die d).key.rpmb.svn.set (kind - 1) v }) ∧
    (∀ dig sid seq, w = .owner dig sid seq → ∃ z, RunsTo (.rpmbWriteConfirm d) s d z ∧ z.key.writes = r ∧
      z.key.rpmb = { (s.die d).key.rpmb with owner := dig }) ∧
    (∀ slot m, w = .admission slot → model (s.die d) slot = some m → ∃ z, RunsTo (.rpmbAdmissionTimeout d) s d z ∧
      model z slot = none ∧ mget z.adm.codes slot = some 13 ∧ .admission slot ∉ z.key.writes) ∧
    (∃ z, RunsTo (.rpmbRetry d) s d z ∧ z.key = (s.die d).key ∧ errSet z pKEY 2 = true) ∧
    (∃ z, RunsTo (.rpmbLost d) s d z ∧ z.key = (s.die d).key ∧ errSet z pKEY 3 = true)

/-- The one weight stream: free, it goes to what is next in order, an admission begins streaming and its load ratchet
asks for the tensors by one more; a turn takes the stream and asks for its Month; a model that is ready begins a turn when
its Month is old enough; a stream that has taken too long ends its admission with code 12. -/
def Claim.WeightStreamsAndMonthTurns : Prop :=
  ∀ (s : State) (d : DieId) (slot : BitVec 6) (m : Model), model (s.die d) slot.toNat = some m →
    (nextStream (s.die d) = some (slot.toNat, false) → m.manifest.tensors ≠ [] →
      (ratchet (s.die d) m.loadRatchet).value < 18446744073709551615 → ∃ z m', RunsTo (.weightStreamStart d) s d z ∧
        model z slot.toNat = some m' ∧ m'.state = .streaming ∧
        z.adm.stream = some { slot := slot.toNat, turn := false, tensor := nextTensor m.manifest false 0,
                              startNs := (s.die d).tim.ns } ∧
        (ratchet z m.loadRatchet).value = (ratchet (s.die d) m.loadRatchet).value + 1 ∧
        (ratchet z m.loadRatchet).owed = true) ∧
    (nextStream (s.die d) = none → RunsTo (.weightStreamStart d) s d (s.die d) ∧
      RunsTo (.monthTurnStart d slot) s d (s.die d)) ∧
    (nextStream (s.die d) = some (slot.toNat, true) → (s.die d).key.rpmb.month ≠ 4294967295 →
      ∃ z m', RunsTo (.monthTurnStart d slot) s d z ∧ model z slot.toNat = some m' ∧ m'.turn = some .rpmb ∧
        m'.pending = none ∧ m'.active = m.active ∧ z.key.writes = (s.die d).key.writes ++ [.turn slot.toNat]) ∧
    (m.state = .ready → m.pending = none → m.turn = none →
      (m.periodH * 3600000000000 ≤ (s.die d).tim.ns - m.switchNs → ∃ z m', RunsTo (.monthPeriodExpiry d slot) s d z ∧
        model z slot.toNat = some m' ∧ m'.pending = some ⟨false, (s.die d).adm.order⟩ ∧ m'.active = m.active) ∧
      ((s.die d).tim.ns - m.switchNs < m.periodH * 3600000000000 → RunsTo (.monthPeriodExpiry d slot) s d (s.die d))) ∧
    (∀ st, (s.die d).adm.stream = some st → st.slot = slot.toNat → m.turn ≠ some .rpmb → m.state ≠ .ready →
      (m.loadTimeout * 1000000000 ≤ (s.die d).tim.ns - st.startNs → ∃ z, RunsTo (.loadTimeout d) s d z ∧
        model z slot.toNat = none ∧ mget z.adm.codes slot.toNat = some 12 ∧ z.adm.stream = none) ∧
      ((s.die d).tim.ns - st.startNs < m.loadTimeout * 1000000000 → RunsTo (.loadTimeout d) s d (s.die d)))


/-! ## Core instructions -/

/-- A core instruction at which a group's program stands, and which it issues in its span, writes its register with its
value modulo 2^64 (a write of g0 is discarded), goes to the next word, and changes nothing else: MOVI, ADD, ADDI, MUL, SHL,
LDB of a batch field, and LDC of a word of the constant pool. -/
def Claim.CoreInstructionsWriteTheirRegister : Prop :=
  ∀ (s : State) (d : DieId) (lead : BitVec 3) (a b c : BitVec 5) (imm : Word) (pts : List PointFault) (y : Die),
    let l := lead.toNat
    let i := imm.toNat
    let g := fun r : BitVec 5 => reg y l r.toNat
    ∀ (ins : Instr) (word cycles v : Nat),
    (ins, word, cycles, v) ∈ [(Instr.movi d ⟨lead, pts⟩ a imm, coreWord 0x01 a.toNat 0 0 i, 1, uns 64 imm.toInt),
      (.add d ⟨lead, pts⟩ a b c, coreWord 0x02 a.toNat b.toNat c.toNat 0, 1, g b + g c),
      (.addi d ⟨lead, pts⟩ a b imm, coreWord 0x03 a.toNat b.toNat 0 i, 1, g b + uns 64 imm.toInt),
      (.mul d ⟨lead, pts⟩ a b c, coreWord 0x04 a.toNat b.toNat c.toNat 0, 3, g b * g c),
      (.shl d ⟨lead, pts⟩ a b imm, coreWord 0x05 a.toNat b.toNat 0 i, 1, g b * 2 ^ (i % 64))] ∨
    ((ins, word, cycles, v) = (.ldb d ⟨lead, pts⟩ a imm, coreWord 0x07 a.toNat 0 0 i, 2, batchField y l i) ∧ i ≤ 5) ∨
    ((ins, word, cycles) = (.ldc d ⟨lead, pts⟩ a imm, coreWord 0x06 a.toNat 0 0 i, 4) ∧ (constants y l)[i]? = some v) →
    Stands l word cycles pts (s.die d) y →
    ∃ x, RunsTo ins s d x ∧ reg x l a.toNat = (if a = 0 then 0 else v % 2 ^ 64) ∧
      (∀ r, r ≠ a.toNat → reg x l r = reg y l r) ∧
      ∃ gs, x = modCore l (fun k => { k with g := gs, pc := (k.pc + 1) % 2 ^ 32 }) y

/-- Transfers and waits of the core: NOP and MARK go to the next word; JMP goes imm words from its own word; LOOP takes one
from its register, modulo 2^64, and goes imm words while it is not 0; WREC goes on once the entry is staged for every batch,
and otherwise stays; NEXT takes the next token once every batch has ended or gone on, transferring where all have ended; SYNC
waits for the engines in its mask. Nothing else changes. -/
def Claim.CoreTransfersAndWaits : Prop :=
  ∀ (s : State) (d : DieId) (lead : BitVec 3) (a : BitVec 5) (imm : Word) (mask : BitVec 6) (pts : List PointFault) (x : Die),
    let l := lead.toNat
    let z := fetchRun l (s.die d)
    let i := imm.toNat
    let v := (reg z l a.toNat + 2 ^ 64 - 1) % 2 ^ 64
    let ended := (runBatches z l).all (fun b => endsBehind b (core z l).cursor)
    let k := core x l
    let far := uns 32 ((k.pc : Int) + imm.toInt)
    let on := (k.pc + 1) % 2 ^ 32
    let bs := runBatches x l
    let goes := fun (cycles : Nat) (f : Core → Core) => modCore l f (spend l cycles x)
    (Compared l (coreWord 0x00 0 0 0 0) 1 pts (s.die d) x →
      RunsTo (.nop d ⟨lead, pts⟩) s d (goes 1 (fun k => { k with pc := on }))) ∧
    (Compared l (coreWord 0x0D 0 0 0 0) 8 pts (s.die d) x →
      RunsTo (.mark d ⟨lead, pts⟩) s d (goes 8 (fun k => { k with pc := on }))) ∧
    (Compared l (coreWord 0x09 0 0 0 i) 2 pts (s.die d) x →
      RunsTo (.jmp d ⟨lead, pts⟩ imm) s d (goes 2 (fun k => { k with pc := far }))) ∧
    (Compared l (coreWord 0x08 a.toNat 0 0 i) (if v = 0 then 1 else 2) pts (s.die d) x →
      ∃ w gs, RunsTo (.loop d ⟨lead, pts⟩ a imm) s d w ∧ reg w l a.toNat = (if a = 0 then 0 else v) ∧
        (∀ r, r ≠ a.toNat → reg w l r = reg x l r) ∧
        w = goes (if v = 0 then 1 else 2) (fun k => { k with g := gs, pc := if v = 0 then on else far })) ∧
    (Compared l (coreWord 0x0A 0 0 0 i) 1 pts (s.die d) x →
      ((∀ b ∈ bs, ∃ m, coreModel x l = some m ∧ entryStaged m b k.cursor i = true) →
        RunsTo (.wrec d ⟨lead, pts⟩ imm) s d (goes 1 (fun k => { k with pc := on }))) ∧
      (∀ b ∈ bs, ∀ m, coreModel x l = some m → entryStaged m b k.cursor i = false →
        RunsTo (.wrec d ⟨lead, pts⟩ imm) s d x)) ∧
    (Compared l (coreWord 0x0B 0 0 0 i) (if ended then 2 else 1) pts (s.die d) x →
      ((∀ b ∈ bs, endsBehind b k.cursor = true) → RunsTo (.next d ⟨lead, pts⟩ imm) s d
        (goes (if ended then 2 else 1) (fun k => { k with cursor := k.cursor + 1, pc := far }))) ∧
      ((∃ b ∈ bs, endsBehind b k.cursor = false) →
        (∀ b ∈ bs, endsBehind b k.cursor = true ∨ goesOn b k.cursor = true) →
        RunsTo (.next d ⟨lead, pts⟩ imm) s d
          (goes (if ended then 2 else 1) (fun k => { k with cursor := k.cursor + 1, pc := on }))) ∧
      (∀ b ∈ bs, endsBehind b k.cursor = false → goesOn b k.cursor = false → RunsTo (.next d ⟨lead, pts⟩ imm) s d x)) ∧
    (Compared l (coreWord 0x0C 0 0 0 mask.toNat) 1 pts (s.die d) x →
      (∀ w, drainEngines l mask.toNat 1 (spend l 1 x) = some w →
        RunsTo (.sync d ⟨lead, pts⟩ mask) s d (modCore l (fun k => { k with pc := on }) w) ∧
        w = modCore l (fun k => { k with busy := coreTime w l }) x ∧ coreTime x l + 10 ≤ coreTime w l ∧
        ∀ e, e < 6 → tst mask.toNat e = true → ∀ t ∈ mgetD (core x l).queues e [], t + 10 ≤ coreTime w l) ∧
      (drainEngines l mask.toNat 1 (spend l 1 x) = none → RunsTo (.sync d ⟨lead, pts⟩ mask) s d x))

/-- DONE waits for every engine and ends the program: the core runs for nothing and stands at word 0, and each of its
batches, none being coupled or past its commit point, has its tokens checked as far as their checks have been made. -/
def Claim.DoneEndsTheProgram : Prop :=
  ∀ (s : State) (d : DieId) (lead : BitVec 3) (pts : List PointFault) (z y : Die),
    let l := lead.toNat
    let w := passTo l y
    Stands l (coreWord 0x0E 0 0 0 0) 4 pts (s.die d) z → drainEngines l 63 4 z = some y → (core w l).run.Nodup →
    (∀ n ∈ (core w l).run, ∀ b, ticket w n = some b → b.due = false ∧ (chan w b.channel).coupled = false) →
    ∃ x, RunsTo (.done d ⟨lead, pts⟩) s d x ∧ (core x l).run = [] ∧ (core x l).pc = 0 ∧ (core x l).cursor = 0 ∧
      (core x l).queues = [] ∧ (core x l).g = (core w l).g ∧ x.chn.tab = w.chn.tab ∧ x.regs = w.regs ∧
      x.tim = w.tim ∧ (∀ e, e < 6 → ∀ t ∈ mgetD (core z l).queues e [], t + 40 ≤ coreTime y l) ∧
      (∀ n ∈ (core w l).run, ∀ b, ticket w n = some b →
        ticket x n = some { b with done := true, checked := checkedTokens x b }) ∧
      (∀ n, n ∉ (core w l).run → ticket x n = ticket w n)

/-- Where a comparison at the word at which a program stands finds the copies unequal and its value does not leave the
group, the instruction has none of its own effect: what follows the comparison is all. -/
def Claim.MismatchHoldsTheInstruction : Prop :=
  ∀ (s : State) (d : DieId) (lead : BitVec 3) (a b c : BitVec 5) (imm : Word) (mask : BitVec 6) (pts : List PointFault)
    (y : Die) (ins : Instr) (word cycles : Nat),
    let l := lead.toNat
    let z := fetchRun l (s.die d)
    let i := imm.toNat
    (ins, word, cycles) ∈ [(Instr.nop d ⟨lead, pts⟩, coreWord 0x00 0 0 0 0, 1),
      (.movi d ⟨lead, pts⟩ a imm, coreWord 0x01 a.toNat 0 0 i, 1), (.add d ⟨lead, pts⟩ a b c, coreWord 0x02 a.toNat b.toNat c.toNat 0, 1),
      (.addi d ⟨lead, pts⟩ a b imm, coreWord 0x03 a.toNat b.toNat 0 i, 1),
      (.mul d ⟨lead, pts⟩ a b c, coreWord 0x04 a.toNat b.toNat c.toNat 0, 3),
      (.shl d ⟨lead, pts⟩ a b imm, coreWord 0x05 a.toNat b.toNat 0 i, 1), (.ldc d ⟨lead, pts⟩ a imm, coreWord 0x06 a.toNat 0 0 i, 4),
      (.ldb d ⟨lead, pts⟩ a imm, coreWord 0x07 a.toNat 0 0 i, 2),
      (.loop d ⟨lead, pts⟩ a imm, coreWord 0x08 a.toNat 0 0 i, loopCycles z l a.toNat), (.jmp d ⟨lead, pts⟩ imm, coreWord 0x09 0 0 0 i, 2),
      (.wrec d ⟨lead, pts⟩ imm, coreWord 0x0A 0 0 0 i, 1), (.next d ⟨lead, pts⟩ imm, coreWord 0x0B 0 0 0 i, nextCycles z l),
      (.sync d ⟨lead, pts⟩ mask, coreWord 0x0C 0 0 0 mask.toNat, 1), (.mark d ⟨lead, pts⟩, coreWord 0x0D 0 0 0 0, 8),
      (.done d ⟨lead, pts⟩, coreWord 0x0E 0 0 0 0, 4)] →
    mayIssue z l = true → wordNow z l = some word → fitsSpan z l cycles = true →
    comparePoints l [] pts z = (y, false) → RunsTo ins s d y

/-! ## Engine instructions -/

/-- An NLE instruction, or DIG, that issues in its span takes its cycles on its engine and writes, for every batch of the
program that has the cursor token, the destination buffer of that token and no other: DQ, QNT, ADDV, NORM, ACT, ROPE their
reference arithmetic, SEL the selected id, EMB the rows of its ids, DIG the digest of a boundary. Where SEL has no selection
or EMB an id at or above vocab, the check fails with cause 11 instead. -/
def Claim.VectorInstructionsWriteTheirBuffer : Prop :=
  ∀ (s : State) (d : DieId) (lead : BitVec 3) (desc : OpDesc) (m : Model) (b : Batch) (y : Die),
    let l := lead.toNat
    let z := fetchRun l (s.die d)
    let t := (core z l).cursor
    let len := fun b => bufLen b t desc.a.toNat
    let str := fun b => (streamedX b t desc.entry.toNat).map (fun p => p.1)
    let vec := fun b => bufF32 b t desc.a.toNat
    let row := fun r : Nat => retainedRow m r 0
    let key := fun k => param m.prog desc.locus.toNat k 0
    let out := fun v : List FV => some (v.map f32b)
    Serves l m b (s.die d) → hasToken b t = true →
    ∀ (i : Instr) (eng : Nat) (cost : Batch → Nat) (v : Batch → Option (List F32)),
    ((i, eng, cost, v) = (.dq d lead desc [], 2, fun b => nleCycles l 1 1 8 z (if desc.fn = 1 then len b else (str b).length), fun b =>
        out ((if desc.fn = 1 then (buf b t desc.a.toNat).map (codeVal desc.fmt.toNat desc.scale.toInt) else str b).map rn32)) ∨
      (i, eng, cost, v) = (.qnt d lead desc [], 2, fun b => nleCycles l 1 1 12 z (len b), fun b =>
        some (quantCodes desc.fmt.toNat (quantScale desc m) (vec b))) ∨
      (i, eng, cost, v) = (.addv d lead desc [], 2, fun b => nleCycles l 1 1 8 z (max (len b) (str b).length), fun b =>
        out ((if desc.fn = 0 then List.zipWith addX (vec b) (str b)
          else if desc.fn = 1 then List.zipWith addX (str b) (row desc.tensor.toNat)
          else List.zipWith addX (vec b) (bufF32 b t desc.b.toNat)).map rn32)) ∨
      (i, eng, cost, v) = (.norm d lead desc [], 2, fun b => nleCycles l 3 1 40 z (len b), fun b =>
        out (if desc.fn = 0 then rmsnorm (vec b) (row desc.tensor.toNat) (epsOf m desc.locus.toNat)
          else layernorm (vec b) (row desc.tensor.toNat) (row desc.p0.toNat) (epsOf m desc.locus.toNat))) ∨
      (i, eng, cost, v) = (.act d lead desc [], 2, fun b =>
          if desc.fn = 0 then nleCycles l 1 1 8 z (len b) else nleCycles l 11 9 20 z (len b), fun b =>
        out (List.zipWith (actFn desc.fn.toNat) (vec b) (gateOf desc b t (vec b)))) ∨
      (i, eng, cost, v) = (.rope d lead desc [], 2, fun b => nleCycles l 11 9 24 z (len b), fun b =>
        out ((List.range desc.heads.toNat).flatMap (fun h =>
          ropeR (((vec b).drop (h * desc.dim.toNat)).take desc.dim.toNat) (posOf z b t) (key 3) (key 4)))) ∨
      (i, eng, cost, v) = (.sel d lead desc [], 2, fun b => nleCycles l 20 9 40 z (len b), fun b =>
        (selectToken (vec b) (key 9) (f32v (BitVec.ofNat 32 (key 10))) (key 11)
          (((outputOf b t).map (fun p => u32At p 12)).getD 0)).map (fun n => [BitVec.ofNat 32 n])) ∨
      (i, eng, cost, v) = (.emb d lead desc [], 2, fun b => nleCycles l 1 1 16 z
          ((embIds desc b t).length * ((m.manifest.tensors[desc.tensor.toNat]?).map (fun t => t.cols)).getD 0), fun b =>
        if (embIds desc b t).any (fun v => decide (m.manifest.vocab ≤ v)) then none
        else out ((embIds desc b t).flatMap (retainedRow m desc.tensor.toNat))) ∨
      ((i, eng, cost, v) = (.dig d lead desc [], 4, fun b => 12 * cdiv ((digBytes desc b t).length + 1) 136 + 8, fun b =>
        some (digBuf (h32 (digBytes desc b t)))) ∧ 2 ≤ desc.fn.toNat)) →
    Issues l eng i desc (together z l (fun b => if hasToken b t then cost b else 0)) (s.die d) y →
    ∃ x b', RunsTo i s d x ∧ (core x l).pc = ((core z l).pc + 1) % 2 ^ 32 ∧ (core x l).queues = (core y l).queues ∧
      x.tim = y.tim ∧ EngineFrame z x ∧ ticket x b.serial = some b' ∧
      (∀ w, v b = some w → ∃ bufs, b' = { b with bufs := bufs } ∧ mgetD bufs (t * 65536 + desc.dst.toNat) [] = w ∧
        ∀ k, k ≠ t * 65536 + desc.dst.toNat → mgetD bufs k [] = mgetD b.bufs k []) ∧
      (v b = none → b' = addFail t 11 b)

/-- The fast forms NORMF and ACTF complete likewise, writing the destination buffer and no other and counting each use.
DIG of a batch's own records changes no ticket. -/
def Claim.FastFormsAndRecordDigests : Prop :=
  ∀ (s : State) (d : DieId) (lead : BitVec 3) (desc : OpDesc) (m : Model) (b : Batch) (y : Die),
    let l := lead.toNat
    let z := fetchRun l (s.die d)
    let t := (core z l).cursor
    let len := fun b => bufLen b t desc.a.toNat
    Serves l m b (s.die d) → hasToken b t = true →
    (∀ (i : Instr) (cost : Batch → Nat),
      (i, cost) = (.normf d lead desc [], fun b => nleCycles l 3 1 24 z (len b)) ∨
      (i, cost) = (.actf d lead desc [], fun b => nleCycles l 1 1 20 z (len b)) →
      Issues l 2 i desc (together z l (fun b => if hasToken b t then cost b else 0)) (s.die d) y →
      ∃ x bufs, RunsTo i s d x ∧ (core x l).pc = ((core z l).pc + 1) % 2 ^ 32 ∧ x.tim = y.tim ∧ EngineFrame z x ∧
        ticket x b.serial = some { b with bufs := bufs } ∧
        (∀ k, k ≠ t * 65536 + desc.dst.toNat → mgetD bufs k [] = mgetD b.bufs k []) ∧
        (let n := fun q : Die => mgetD q.regs.cnt (wkey pNLE 0x080) 0
         n z < n x ∨ 4294967295 ≤ n x)) ∧
    (desc.fn.toNat ≤ 1 → Issues l 4 (.dig d lead desc []) desc
        (together z l (fun b => if hasToken b t then 12 * cdiv ((digBytes desc b t).length + 1) 136 + 8 else 0)) (s.die d) y →
      ∃ x, RunsTo (.dig d lead desc []) s d x ∧ (core x l).pc = ((core z l).pc + 1) % 2 ^ 32 ∧ x.tim = y.tim ∧
        EngineFrame z x ∧ x.chn = z.chn)

/-- A check that issues in its span takes its cycles on its engine and fails the batch exactly where its comparison does,
with its cause: BAND 3, OCMP 11, SHDC 10, ACMP 4, DCMP 7 for a canary's output digest and 10 for another, at the cursor
token; LDPC and CRC 8 at token 0. A batch that passes has no new failed check.
Readings and choices of the model in it: log entries 63, 81, 82. -/
def Obligations.ChecksFailTheBatchTheyShould : Prop :=
  ∀ (s : State) (d : DieId) (lead : BitVec 3) (desc : OpDesc) (m : Model) (b : Batch) (y : Die),
    let l := lead.toNat
    let z := fetchRun l (s.die d)
    let t := (core z l).cursor
    let has := fun b => hasToken b t
    let own := bufDig (buf b t desc.a.toNat)
    let want := ((m.prog.consts.drop desc.p0.toNat).take 4).flatMap (leBytes 8)
    let entry := radioRecs b desc.entry.toNat
    Serves l m b (s.die d) →
    ∀ (i : Instr) (eng : Nat) (cost : Batch → Nat) (tok cause : Nat) (bad : Bool),
    ((∃ o pe, opAt m desc.locus.toNat = some o ∧ (tokenPlan m)[desc.entry.toNat]? = some pe ∧ has b = true ∧
        (i, eng, tok, cause) = (.band d lead desc [], 2, t, 3) ∧
        cost = (fun b => if has b then nleCycles l 1 1 12 z (streamedX b t desc.entry.toNat).length else 0) ∧
        bad = (bandOf desc b o (sgn 8 pe.scale) t).any (fun v => !v)) ∨
      (has b = true ∧ (i, eng, tok, cause) = (.ocmp d lead desc [], 2, t, 11) ∧
        cost = (fun b => if has b then nleCycles l 1 1 8 z (bufLen b t desc.a.toNat) else 0) ∧
        bad = (outputOf b t).any (fun p => !outputEqual p (buf b t desc.a.toNat))) ∨
      (has b = true ∧ shdcReady desc z l = true ∧ (i, eng, tok, cause) = (.shdc d lead desc [], 4, t, 10) ∧
        cost = (fun b => if has b then 4 else 0) ∧
        bad = if desc.fn = 1 then shardDigestOf b t 1 != some own
          else (boundaryOf z b t).any (fun v => v.1 == 1 && !(own == v.2 && shardDigestOf b t 0 == some v.2))) ∨
      (∃ o, opAt m desc.locus.toNat = some o ∧ has b = true ∧ (i, eng, tok, cause) = (.acmp d lead desc [], 2, t, 4) ∧
        cost = (fun b => if has b then nleCycles l 1 1 12 z (bufLen b t desc.a.toNat) else 0) ∧
        bad = (headsIn m.manifest.dHead (bufLen b t desc.a.toNat) (buf b t desc.a.toNat)).any
          (fun h => !acmpOk m (acmpHead desc b m o t h))) ∨
      ((i, eng, tok) = (.dcmp d lead desc [], 4, t) ∧ cost = (fun _ => 4) ∧ cause = (if desc.fn = 0 then 7 else 10) ∧
        bad = if desc.fn = 0 then b.canary && outputDigest b != want else own != want) ∨
      ((i, eng, tok, cause) = (.ldpc d lead desc [], 2, 0, 8) ∧ cost = (fun b => ldpcCycles l desc z b m) ∧
        bad = entry.any (fun r => !ldpcOk b r.payload)) ∨
      ((i, eng, tok, cause) = (.crc d lead desc [], 2, 0, 8) ∧ cost = (fun b => crcCycles l desc z b m) ∧
        bad = (entry.any (fun r => !crcOk (if byteAt r.payload 4 = 1 then crc24A else crc24B) (tbBits r.payload)) ||
          !blocksOk (entry.filter (fun r => byteAt r.payload 4 == 2))))) →
    Issues l eng i desc (together z l cost) (s.die d) y →
    ∃ x b', RunsTo i s d x ∧ (core x l).pc = ((core z l).pc + 1) % 2 ^ 32 ∧ (core x l).queues = (core y l).queues ∧
      x.tim = y.tim ∧ EngineFrame z x ∧ ticket x b.serial = some b' ∧
      (bad = true → (tok, cause) ∈ b'.fails) ∧ (∀ f, f ∈ b'.fails ↔ f ∈ b.fails ∨ (bad = true ∧ f = (tok, cause)))

/-- A residue or a banded pass, of tokens that have all been staged, that issues in its span takes its cycles on its engine and
checks each token that it holds: the token fails, with cause 1 or 2, exactly where a comparison of it or, in a banded pass,
one of its records' block scales does; and the check counts as made. The program goes to its next word behind the last pass.
A pass over a table with an uncorrectable word reports it, makes the batch late with cause 21 and fails no token. FFTC fails
its radio batch with cause 2 where a comparison of one of its instances with a held frame does.
Readings and choices of the model in it: log entries 81, 82, 88, 189. -/
def Obligations.TablePassesCheckTheirTokens : Prop :=
  ∀ (s : State) (d : DieId) (lead : BitVec 3) (desc : OpDesc) (m : Model) (b : Batch) (y : Die),
    let l := lead.toNat
    let z := fetchRun l (s.die d)
    let k := core z l
    let ps := passesOf desc k.cursor (runBatches z l)
    Serves l m b (s.die d) →
    (∀ (p : List (Nat × Nat)) (i : Instr) (eng cause page : Nat) (cyc : Die → Model → Nat → Nat) (bad : Nat → Prop)
        (tb : Tables) (o : OpE) (n : Nat) (w : TensorE),
      opTables b m desc.locus.toNat = some (tb, o, n, w) → ps.1[k.passNo]? = some p → p ≠ [] →
      ((i, eng, cause, page, cyc) = (.rchk d lead desc [], 0, 1, pRES, residueCycles l desc) ∧
          (∀ t, bad t ↔ ∃ p ∈ residueOf desc b m tb o n w t, p.1 ≠ p.2) ∨
        (i, eng, cause, page, cyc) = (.bchk d lead desc [], 1, 2, pBND, bandedCycles l desc) ∧
          (∀ t, bad t ↔ badScales b t desc.entry.toNat ≠ [] ∨ ∃ r ∈ bandedOf (lanesOf z l 1) desc b m tb o n w t, r.ok = false)) →
      Issues l eng i desc (cyc z m p.length) (s.die d) y →
      ∃ x b', RunsTo i s d x ∧ (core x l).queues = (core y l).queues ∧ x.tim = y.tim ∧
        (badWords m tb n w = 0 → (∃ t, (b.serial, t) ∈ p) → EngineFrame z x) ∧
        (if ps.2 = true ∧ k.passNo + 1 = ps.1.length then (core x l).pc = (k.pc + 1) % 2 ^ 32 ∧ (core x l).passNo = 0
          else (core x l).pc = k.pc ∧ (core x l).passNo = k.passNo + 1) ∧
        ticket x b.serial = some b' ∧
        (badWords m tb n w = 0 → (∀ f, f ∈ b'.fails ↔ f ∈ b.fails ∨ ∃ t, (b.serial, t) ∈ p ∧ bad t ∧ f = (t, cause)) ∧
          ∀ t, (b.serial, t) ∈ p → 2 * o.locus ∈ mgetD b'.made t []) ∧
        (badWords m tb n w ≠ 0 → (∃ t, (b.serial, t) ∈ p) → errSet x page 5 = true ∧ 21 ∈ b'.lates ∧ b'.fails = b.fails)) ∧
    (∀ (tb : Tables) (o : OpE), opAt m desc.locus.toNat = some o → tablesOf m b.month = some tb →
      Issues l 1 (.fftc d lead desc []) desc (together z l (fun b => fftcCycles l desc z b m)) (s.die d) y →
      ∃ x b', RunsTo (.fftc d lead desc []) s d x ∧ (core x l).pc = (k.pc + 1) % 2 ^ 32 ∧
        (core x l).queues = (core y l).queues ∧ x.tim = y.tim ∧ EngineFrame z x ∧ ticket x b.serial = some b' ∧
        ∀ f, f ∈ b'.fails ↔ f ∈ b.fails ∨ f = (0, 2) ∧ ∃ rs ∈ instances b desc.entry.toNat, ∃ r ∈ rs.head?, ∃ h,
          fftHeld z b r.payload = some h ∧ ∃ q ∈ fftOf (lanesOf z l 1) m o tb h rs r.payload, q.2.ok = false)

/-- KVAPP, where it issues in its span, writes the rows of every stored KV head of its token at the token's position, K and
V, moves the end of the appended positions behind it, and leaves every other byte of the ledger as it was; without a ledger
it only takes its cycles. -/
def Claim.KvappWritesTheLedgerRows : Prop :=
  ∀ (s : State) (d : DieId) (lead : BitVec 3) (desc : OpDesc) (m : Model) (b : Batch) (y : Die),
    let l := lead.toNat
    let z := fetchRun l (s.die d)
    let t := (core z l).cursor
    let c := chan z b.channel
    let pos := posOf z b t
    let layer := locLayer desc.locus.toNat
    let addr := fun gs kind => rowAddr m.manifest c.density pos layer gs kind
    let n := rowLen m.manifest
    let bytes := fun g kind => fitTo n (packElems m.manifest.kvFmt (kvScale m layer kind)
      (((bufF32 b t (if kind = 0 then desc.a.toNat else desc.b.toNat)).drop (g * m.manifest.dHead)).take m.manifest.dHead))
    Serves l m b (s.die d) → hasToken b t = true → (∀ e ∈ runBatches z l, e.channel = b.channel → e.serial = b.serial) →
    Issues l 3 (.kvapp d lead desc []) desc (together z l (fun b => if hasToken b t then cdiv (kvBytes z b m) 512 + 16 else 0))
      (s.die d) y →
    ∃ x, RunsTo (.kvapp d lead desc []) s d x ∧ (core x l).pc = ((core z l).pc + 1) % 2 ^ 32 ∧
      (core x l).queues = (core y l).queues ∧ x.tim = y.tim ∧ EngineFrame z x ∧ ticket x b.serial = some b ∧
      (c.density = 0 → chan x b.channel = c) ∧
      (c.density ≠ 0 → b.channel ∈ z.chn.tab.map (fun e => e.1) → Memory.wf c.ledger = true →
        ∃ cells, chan x b.channel = { c with ledger := cells, append := max c.append (pos + 1) } ∧
          (∀ g gs kind, g < m.manifest.nKv → storedHead c.density g = some gs → kind < 2 →
            cellsRead cells (addr gs kind) n = bytes g kind) ∧
          (∀ a, (∀ g gs kind, g < m.manifest.nKv → storedHead c.density g = some gs → kind < 2 →
            a < addr gs kind ∨ addr gs kind + n ≤ a) → cellRead cells a = cellRead c.ledger a))

/-- ATTN, where it issues in its span on a channel with a ledger, runs the heads that the sample selects, as far as S_max
leaves room, and writes them behind their numbers to its buffer; more selections than S_max make the batch LATE with cause
22 and set attn_overrun, a VOID position in front of the token fails it with cause 5, and a score that is not finite fails it
with cause 4. -/
def Claim.AttentionRunsTheSelectedHeads : Prop :=
  ∀ (s : State) (d : DieId) (lead : BitVec 3) (desc : OpDesc) (m : Model) (b : Batch) (y : Die),
    let l := lead.toNat
    let z := fetchRun l (s.die d)
    let t := (core z l).cursor
    let c := chan z b.channel
    let pos := posOf z b t
    let layer := locLayer desc.locus.toNat
    let heads := selectedHeads z b m layer pos
    let room := c.host.sMax - b.selRun
    let from0 := attendFrom m layer pos
    let rows := fun gs kind => (List.range (pos + 1 - from0)).map (fun i => readRow z b.channel m (from0 + i) layer gs kind)
    let head := fun h => (storedHead c.density (h * m.manifest.nKv / max 1 (queryHeads m))).bind (fun gs =>
      attend (((bufF32 b t desc.a.toNat).drop (h * m.manifest.dHead)).take m.manifest.dHead) (rows gs 0) (rows gs 1)
        (f32v (BitVec.ofNat 32 (layerParam m 5 layer))))
    Serves l m b (s.die d) → hasToken b t = true → c.density ≠ 0 → b.overrun = none →
    Issues l 3 (.attn d lead desc []) desc (together z l (fun b => if hasToken b t then attnCycles l desc z b m t else 0))
      (s.die d) y →
    ∃ x b', RunsTo (.attn d lead desc []) s d x ∧ (core x l).pc = ((core z l).pc + 1) % 2 ^ 32 ∧
      (core x l).queues = (core y l).queues ∧ x.tim = y.tim ∧ EngineFrame z x ∧ x.chn.tab = z.chn.tab ∧
      ticket x b.serial = some b' ∧ b'.selRun = b.selRun + min room heads.length ∧
      (room < heads.length → b'.overrun = some t ∧ 22 ∈ b'.lates ∧ errSet x pCWE 7 = true) ∧
      (heads.length ≤ room → b'.overrun = none ∧ b'.lates = b.lates) ∧
      (c.voidPos ≤ pos → (t, 5) ∈ b'.fails) ∧
      ((∃ h ∈ heads.take room, head h = none) → (t, 4) ∈ b'.fails) ∧
      (pos < c.voidPos → (∀ h ∈ heads.take room, head h ≠ none) → b'.fails = b.fails) ∧
      mgetD b'.bufs (t * 65536 + desc.dst.toNat) [] = (heads.take room).flatMap (fun h =>
        match head h with
        | some o => BitVec.ofNat 32 h :: o.map f32b
        | none => [])

/-! ## Units and groups -/

/-- A commanded retirement puts a unit that is active or spare out of service, a number above the highest taking the highest;
where the unit serves and a spare may follow, the lowest-numbered spare takes its place and its known-answer test is awaited,
whose pass ends the substitution. A commanded self-test waits once for the next self-test segment. -/
def Claim.UnitsRetireAndAreTested : Prop :=
  ∀ (s : State) (d : DieId) (tile : BitVec 5) (unit : BitVec 9) (cor : BitVec 3) (blk u : Nat) (r t : Instr),
    (blk, u, r, t) ∈ [(8, min 19 tile.toNat, Instr.resCmdRetire d tile, Instr.resCmdSelfTest d tile),
      (9, min 25 tile.toNat, .bndCmdRetire d tile, .bndCmdSelfTest d tile),
      (10, min 25 tile.toNat, .nleCmdRetire d tile, .nleCmdSelfTest d tile),
      (11, min 25 tile.toNat, .cweCmdRetire d tile, .cweCmdSelfTest d tile),
      (12, unit.toNat, .sntCmdRetire d unit, .sntCmdSelfTest d unit),
      (13, cor.toNat, .shkCmdRetire d cor, .shkCmdSelfTest d cor)] →
    let a := s.die d
    (unitState a blk u = 1 ∨ (unitState a blk u = 2 ∧ blk ≠ 13) → ∃ x, RunsTo r s d x ∧ unitState x blk u = 3) ∧
    (∀ n v, unitState a blk u = 1 → blk ≠ 13 → logicalOf a blk u = some n → spareOf a blk = some v →
      field a (unitPage blk) 0x040 0 = 1 → logicalOf a blk v = none → v < 512 → ∃ x, RunsTo r s d x ∧ unitState x blk u = 3 ∧ unitState x blk v = 1 ∧
        logicalOf x blk v = some n ∧ errSet x (unitPage blk) 1 = true ∧ errSet x (unitPage blk) 2 = true ∧
        (blk, n, v) ∈ x.vp.substituting ∧
        ∃ w, RunsTo (.spareSubstitutionDone d (BitVec.ofNat 5 blk) (BitVec.ofNat 9 v) true) (s.setDie d x) d w ∧
          (∀ k, (blk, k, v) ∉ w.vp.substituting) ∧ unitState w blk v = 1) ∧
    (∃ x, RunsTo t s d x ∧ (testLead a blk u, blk, u) ∈ x.cad.tests ∧ x = { a with cad := { a.cad with tests := x.cad.tests } } ∧
      ((testLead a blk u, blk, u) ∈ a.cad.tests → x = a))

/-- VP_CMD retires the whole group of a pipeline in service, and queues a comparator test of it; at a batch boundary a Trike
group begins to copy state to each odd member, and the end of the copy puts it back in step, counted. -/
def Claim.GroupsRetireAndResynchronise : Prop :=
  ∀ (s : State) (d : DieId) (p : BitVec 3),
    let a := s.die d
    let n := (pipe a p.toNat).lead
    ((pipe a p.toNat).enabled = true → (pipe a p.toNat).retired = false →
      (∃ x, RunsTo (.vpCmdRetire d p) s d x ∧ (∀ k ∈ members a n, (pipe x k).retired = true) ∧ members x n = []) ∧
      RunsTo (.vpCmdInject d p) s d { a with cad := { a.cad with tests := a.cad.tests ++ [(n, 7, 0)] } }) ∧
    ((core a p.toNat).run = [] → ∃ x, RunsTo (.trikeResync d p) s d x ∧ (∀ k ∈ members a p.toNat,
        (pipe a k).resync = true → (pipe x k).resyncRun = true) ∧
      ∃ ps, x = { a with vp := { a.vp with pipes := ps } }) ∧
    (∃ x, RunsTo (.trikeResyncDone d p) s d x ∧ (∀ k ∈ members a p.toNat, (pipe x k).resyncRun = false ∧
        ((pipe a k).resyncRun = true → (pipe x k).resync = false)) ∧
      ∃ ps cs, x = { a with vp := { a.vp with pipes := ps }, regs := { a.regs with cnt := cs } })

/-! ## Verdicts -/

/-- A verdict given to a batch at a commit point, where the batch is done and not coupled, or at its verdict time: a record of
the verdict and cause that the rules of R82 and R248 decide enters the channel's ring at its head and the open seal period,
each period whose boundary has come having ended before, and the ticket is released. FAIL goes before LATE before PASS, and the lowest cause of its class is reported. -/
def Claim.VerdictsAreCommitted : Prop :=
  ∀ (s : State) (d : DieId) (i : BitVec 13) (e : TtEntry) (t : Nat) (b : Batch) (c : Instr) (w : Die),
    let z := s.die d
    let y := toCommit w
    entryAt z i.toNat = some e → e.kind = 2 →
    (c = .commitPoint d ⟨i, []⟩ ∧ windowAt z e e.commit = some t ∧
        w = toCycle ((e.start + e.commit) % slotCycles z.tim.mu) z ∧ b.done = true ∧ (chan w b.channel).coupled = false ∨
      c = .verdictTime d ⟨i, []⟩ ∧ windowAt z e e.verdict = some t ∧ w = toCycle ((e.start + e.verdict) % slotCycles z.tim.mu) z) →
    windowTickets w e t = [b] → ticket y b.serial = some b → b.channel ∈ y.chn.tab.map (fun e => e.1) →
    let v := verdictOf y b
    let q := chan y b.channel
    let record := recordBytes y b v.1 v.2 (h32 ([0x03] ++ inputDigest y b ++ outputDigest b))
    (∃ x, RunsTo c s d x ∧ ticket x b.serial = none ∧ (chan x b.channel).ringHead = (q.ringHead + 1) % 2 ^ 32 ∧
      mget (chan x b.channel).ring (q.ringHead % 2 ^ q.host.ringLog2) = some record ∧
      (y.sealing.running = true → y.sealing.leaves.length + 1 < 16777216 →
        ∃ l, x.sealing.leaves = y.sealing.leaves ++ [l] ∧ l.record = record) ∧
      x.phase = z.phase ∧ x.tim = y.tim ∧ x.wlk = z.wlk) ∧
    (let own := decideOwn y b
     let lates := b.lates ++ (if b.closed && b.endLate then [16] else []) ++ (if incomplete y b then [17] else [])
        ++ (if b.closed && b.complete && !b.done then [24] else [])
     let fails := b.fails.map (fun f => f.2) ++ (if canaryWrong y b then [7] else [])
     (fails ≠ [] → own.1 = 2 ∧ own.2 ∈ fails ∧ ∀ k ∈ fails, own.2 ≤ k) ∧
     (fails = [] → lates ≠ [] → own.1 = 3 ∧ own.2 ∈ lates ∧ ∀ k ∈ lates, own.2 ≤ k) ∧
     (fails = [] → lates = [] → own = (1, 0)))

/-- At a commit point a batch that is not done waits for a verdict as soon as it is, with nothing else changed but that an
abandoned model that no ticket holds goes; at V of an
active radio slot that no batch names, a record LATE, cause 17, of that slot enters the ring, the slot's verdict counting as written; at
the declaration cutoff the first coupled batch of a channel that has not declared does, as LATE 17 where its checks have not
ended. -/
def Claim.LateSlotsAndDeclarations : Prop :=
  ∀ (s : State) (d : DieId),
    let z := s.die d
    (∀ (i : BitVec 13) (e : TtEntry) (t : Nat) (b : Batch),
      let y := toCycle ((e.start + e.commit) % slotCycles z.tim.mu) z
      entryAt z i.toNat = some e → e.kind = 2 → windowAt z e e.commit = some t → windowTickets y e t = [b] →
      b.done = false → RunsTo (.commitPoint d ⟨i, []⟩) s d (finishAll (modTicket b.serial (fun b => { b with due := true }) y))) ∧
    (∀ (c : BitVec 15) (slot : Word) (m : Model),
      let q := chan z c.toNat
      q.state = .opened → q.host.kind = 2 → model z q.host.slot = some m →
      (∀ b ∈ chanTickets z c.toNat, b.first ≠ some slot.toNat) → (∀ b ∈ z.chn.tickets, b.serial < z.chn.serial) →
      slotOwed z c.toNat slot.toNat = true → c.toNat ∈ z.chn.tab.map (fun e => e.1) →
      ∃ x r, RunsTo (.radioSlotLate d ⟨c, []⟩ slot) s d x ∧ (chan x c.toNat).ringHead = (q.ringHead + 1) % 2 ^ 32 ∧
        mget (chan x c.toNat).ring (q.ringHead % 2 ^ q.host.ringLog2) = some r ∧ byteAt r 0 = 3 ∧ byteAt r 21 = 17 ∧
        u32At r 8 = slot.toNat ∧ slot.toNat ∈ (chan x c.toNat).verdictSlots) ∧
    (∀ (c : BitVec 15) (b : Batch),
      (chan z c.toNat).coupled = true →
      (chanTickets z c.toNat).find? (fun b => b.window.isSome && b.decl.isNone) = some b → ticket z b.serial = some b →
      ∃ x, RunsTo (.declareCutoff d c) s d x ∧ ticket x b.serial = some { b with
        decl := some (if b.done then ownDecl z b else { ownDecl z b with verdict := 3, cause := 17 }) })

/-! ## The timetable's entries -/

/-- The entries of the active timetable, each taken in its slot at its cycle: a window opens on the batches of its channel,
binding them to its times; a segment lets its group's program issue, for its channel or pool, and does not begin while
another use holds the group; the end of a span stops it; a
test pulse is handed to the Warden channel and counted; a canary that finds a credit goes downstream with its digest kept,
and one that finds none waits, counting as missed in its own slot only. -/
def Claim.TimetableEntriesTakeEffect : Prop :=
  ∀ (s : State) (d : DieId) (i : BitVec 13) (e : TtEntry),
    let z := s.die d
    let y := beginEntry e z
    let lead := (pipe z e.group).lead
    (entryNow z i.toNat 2 = some e → (chan z e.target).host.kind ≠ 3 → ∃ x, RunsTo (.windowStart d i) s d x ∧ x.tim = y.tim ∧
      (∀ b ∈ windowBatches y e, ticket y b.serial = some b → ∃ w : Window, ticket x b.serial = some { b with window := some w } ∧
        w.entry = e ∧ w.start = e.start ∧ w.commit = e.commit ∧ w.verdict = e.verdict ∧ w.slotNs = slotBegin y) ∧
      (∀ n, (∀ b ∈ windowBatches y e, b.serial ≠ n) → ticket x n = ticket z n)) ∧
    (entryNow z i.toNat 1 = some e → groupBusy z lead = true → RunsTo (.segmentStart d i) s d z) ∧
    (entryNow z i.toNat 1 = some e → leads z lead = true → groupBusy z lead = false →
      (spanPast e y = true → RunsTo (.segmentStart d i) s d y) ∧
      (spanPast e y = false →
        let target := if 32768 ≤ e.target then 32768 + e.target % 256 else e.target
        (∀ k, mget (pipe z lead).saved target = some k → k.target = target) →
        ∃ x u, RunsTo (.segmentStart d i) s d x ∧ x.tim = y.tim ∧ (core x lead).inSpan = true ∧ (core x lead).target = target ∧
          x.cad.spans = z.cad.spans ++ [(lead, i.toNat, u)] ∧ x.chn.tickets = z.chn.tickets)) ∧
    (entryAt z i.toNat = some e → (∃ g u, (g, i.toNat, u) ∈ z.cad.spans) → ∃ x, RunsTo (.spanEnd d i) s d x ∧
      x.tim = (toCycle (e.start + e.len) z).tim ∧ x.cad.spans = z.cad.spans.filter (fun q => q.2.1 != i.toNat) ∧
      (e.kind = 1 → (core x lead).inSpan = false) ∧
      (e.kind = 7 → ∀ r ∈ x.sntb.runs, r.image = e.target → r.leadA ≠ lead ∧ r.leadB ≠ lead)) ∧
    (entryNow z i.toNat 6 = some e → ∃ x, RunsTo (.testpulse d i) s d x ∧ x.tim = y.tim ∧
      x.wdn = { z.wdn with events := z.wdn.events ++ [.pulse (e.target % 16)] }) ∧
    (entryAt z i.toNat = some e → e.kind = 3 → (entryNow z i.toNat 3 = some e ∨ (e.target, e.stream) ∈ z.cad.canaryWait) →
      field z pCAD 0x040 0 ≠ 0 → (chan z e.target).state = .opened → (chan z e.target).host.canary = true →
      ∃ x, RunsTo (.canary d i) s d x ∧ x.tim = (toCycle e.start z).tim ∧
        (z.wlk.state = .up → 0 < dsCredit z.wlk 0 → (e.target, e.stream) ∉ x.cad.canaryWait ∧
          ∃ h bytes, x.wlk = { z.wlk with dsTx0 := z.wlk.dsTx0 ++ [{ stream := e.stream, no := none, left := bytes, begun := false }] } ∧
            (e.target ∈ z.chn.tab.map (fun e => e.1) →
              (chan x e.target).canaryDigs = (chan z e.target).canaryDigs ++ [h] ∧
              (chan x e.target).canaryLate = (chan z e.target).canaryLate ++ [entryNow z i.toNat 3 != some e] ∧
              (chan x e.target).canaryOut = (chan z e.target).canaryOut + 1)) ∧
        (z.wlk.state ≠ .up ∨ dsCredit z.wlk 0 = 0 → x.wlk = z.wlk ∧ (e.target, e.stream) ∈ x.cad.canaryWait ∧
          (entryNow z i.toNat 3 = some e →
            mgetD x.cad.misses e.stream 0 = mgetD z.cad.misses e.stream 0 + 1 ∧ errSet x pCAD 4 = true) ∧
          (entryNow z i.toNat 3 ≠ some e → x.cad.misses = z.cad.misses ∧ errSet x pCAD 4 = errSet z pCAD 4)))

/-- Self-test, rebuild and Sentinel entries: a self-test that fits takes its span and the next item, a commanded one first,
and one that does not is skipped and counted; a rebuild span works on the stream of its model, and meets the uncorrectable
word of what it has built; a Sentinel span starts a run on both of its groups; none of them begins while another use holds the
group; the end of a run that agreed writes its batch's output, and one that differed is reported, with
the units of both groups tested at the second time.
Readings and choices of the model in it: log entries 76, 91, 94. -/
def Obligations.TestsRebuildsAndSentinelRuns : Prop :=
  ∀ (s : State) (d : DieId) (i : BitVec 13) (e : TtEntry),
    let z := s.die d
    let y := beginEntry e z
    let lead := (pipe z e.group).lead
    let now := max e.start (cyclesSince y (slotBegin y))
    let fits := spanPast e y = false ∧ now + e.len ≤ testLimit y lead now
    (groupBusy z lead = true → (entryNow z i.toNat 4 = some e → ∀ passed unit, RunsTo (.selftest d ⟨i, []⟩ passed unit) s d z) ∧
      (entryNow z i.toNat 5 = some e → ∀ ecc, RunsTo (.rebuild d ⟨i, []⟩ ecc) s d z) ∧
      (entryNow z i.toNat 7 = some e → RunsTo (.sentinel d i) s d z)) ∧
    (entryNow z i.toNat 4 = some e → leads z lead = true → groupBusy z lead = false → ∀ unit : BitVec 9,
      (fits → ∀ passed, passed = true → ∃ x u, RunsTo (.selftest d ⟨i, []⟩ passed unit) s d x ∧ x.tim = y.tim ∧
        x.cad.spans = z.cad.spans ++ [(lead, i.toNat, u)] ∧ mgetD x.cad.skips lead 0 = 0 ∧ x.vp = z.vp ∧
        (∀ t, z.cad.tests.find? (fun t => t.1 == lead) = some t → x.cad.tests = z.cad.tests.erase t ∧ x.cad.rot = z.cad.rot) ∧
        (z.cad.tests.find? (fun t => t.1 == lead) = none → x.cad.tests = z.cad.tests ∧
          mgetD x.cad.rot lead 0 = mgetD z.cad.rot lead 0 % (rotation z lead).length + 1)) ∧
      (¬fits → ∀ passed, mgetD z.cad.skips lead 0 ≤ 2 → ∃ x, RunsTo (.selftest d ⟨i, []⟩ passed unit) s d x ∧ x.tim = y.tim ∧
        x.cad = { z.cad with skips := mset z.cad.skips lead (mgetD z.cad.skips lead 0 + 1) } ∧ x.vp = z.vp ∧
        errSet x pCAD (if mgetD z.cad.skips lead 0 = 2 then 2 else 1) = true)) ∧
    (entryNow z i.toNat 5 = some e → leads z lead = true → groupBusy z lead = false → spanPast e y = false →
      ∀ st, z.adm.stream = some st → ∀ ecc,
      (st.slot ≠ e.target → ∃ x u, RunsTo (.rebuild d ⟨i, []⟩ ecc) s d x ∧ x.tim = y.tim ∧ x.adm = z.adm ∧
        x.cad.spans = z.cad.spans ++ [(lead, i.toNat, u)]) ∧
      (st.slot = e.target → ∀ m, model z e.target = some m → m.turn ≠ some .rpmb →
        ∃ x u, RunsTo (.rebuild d ⟨i, []⟩ ecc) s d x ∧ x = buildSpan st m ecc (addSpan i.toNat lead e y) ∧
        (addSpan i.toNat lead e y).cad.spans = z.cad.spans ++ [(lead, i.toNat, u)] ∧
        (ecc = true → errSet x (buildPage m st.tensor) 5 = true) ∧
        (ecc = false → m.manifest.kind ≠ 2 → z.wrd.chunks = [] → x.adm = z.adm))) ∧
    (∀ f, entryNow z i.toNat 7 = some e → leads z lead = true → groupBusy z lead = false →
      leads z (pipe z f.group).lead = true → groupBusy z (pipe z f.group).lead = false → spanPast e y = false → sntPartner z e = some f →
      e.group < 3 → (image z e.target).state = 2 → groupUnits z 12 lead ≠ 0 → groupUnits z 12 (pipe z f.group).lead ≠ 0 →
      z.sntb.runs = [] → let bs := (sntDue y e.target).take (e.len / max 1 (u32At (image z e.target).payload 12))
      bs ≠ [] → ∃ x, RunsTo (.sentinel d i) s d x ∧ x.tim = y.tim ∧
        x.sntb = { z.sntb with runs := [{ image := e.target, leadA := lead, leadB := (pipe z f.group).lead, batches := bs }] }) ∧
    (∀ (im : BitVec 4) (r : SntRun) (b : Batch) (h : Held) (n : Nat) (bs : List Nat), z.sntb.runs = [r] → r.image = im.toNat →
      r.batches = n :: bs → leads z r.leadA = true → leads z r.leadB = true → ticket z n = some b → b.serial = n → b.due = false →
      z.ing.sentinel.find? (fun h => h.serial == n + 1 && h.chan == b.channel) = some h →
      (∃ x, RunsTo (.sentinelRunComplete d im ⟨false, [], []⟩) s d x ∧ x.sntb.runs = [{ r with batches := bs.filter (fun q => q != n) }] ∧
        ∃ b', ticket x n = some b' ∧ b'.done = true ∧ b'.lead = r.leadA ∧
          b'.lastOut = sntEval (image z im.toNat).payload h.payload (Config.sntTail (image z im.toNat).payload h.payload)) ∧
      (∃ x, RunsTo (.sentinelRunComplete d im ⟨true, [], []⟩) s d x ∧ x.sntb.runs = z.sntb.runs ∧ errSet x pSNT 0 = true ∧
        ticket x n = some { b with repeats := true } ∧
        mget x.sntb.mismatchAt (6 * r.leadA + r.leadB) = some z.tim.up ∧
        ((∃ t, mget z.sntb.mismatchAt (6 * r.leadA + r.leadB) = some t ∧ within z (field z pSNT 0x040 16) t = true) →
          (r.leadA, 12, 512) ∈ x.cad.tests ∧ (r.leadB, 12, 512) ∈ x.cad.tests)))

/-- CAD's own commands: an acceptable full timetable in the load area becomes the standby timetable, and another is refused
with its reason captured; a swap is taken only with a standby timetable and no open channel; a discard drops the standby
timetable and a waiting swap, unless a hand-over waits. -/
def Claim.CadCommands : Prop :=
  ∀ (s : State) (d : DieId),
    let z := s.die d
    (∀ t, judgeFull z = .ok t → RunsTo (.cadCmdLoadStandby d) s d { z with cad := { z.cad with standby := some t } }) ∧
    (∀ r n, judgeFull z = .error (r, n) → ∃ x, RunsTo (.cadCmdLoadStandby d) s d x ∧ x.cad = z.cad ∧ errSet x pCAD 6 = true ∧
      (capFree z pCAD 0x04C = true → capOf x pCAD 0x04C = 2147483648 + n % 8192 * 16 + r)) ∧
    ((∃ t, z.cad.standby = some t) → (∀ c ∈ z.chn.tab, c.2.state ≠ .opened) →
      RunsTo (.cadCmdSwap d) s d { z with cad := { z.cad with swap := true } }) ∧
    (z.cad.standby = none ∨ (∃ c ∈ z.chn.tab, c.2.state = .opened) → RunsTo (.cadCmdSwap d) s d z) ∧
    (z.vp.pending = false → RunsTo (.cadCmdDiscard d) s d { z with cad := { z.cad with standby := none, swap := false } }) ∧
    (z.vp.pending = true → RunsTo (.cadCmdDiscard d) s d z)

/-! ## Seals -/

/-- Seal periods: at a symbol count that is a multiple of the period in force, not the one it began at, the open period ends
and the next begins with the next number; its header, table and body wait for a signature engine, the two alternating. A
signature that passes its checks releases the front seal; a failing one leaves it waiting, noted against its engine. -/
def Claim.SealPeriodsEndAndAreSigned : Prop :=
  ∀ (s : State) (d : DieId),
    let z := s.die d
    (z.sealing.running = true → z.sealing.effPeriod ≠ 0 → symIndex z % z.sealing.effPeriod = 0 →
      symIndex z ≠ z.sealing.startIdx → ∃ x w, RunsTo (.sealPeriodBoundary d) s d x ∧ x.sealing.running = true ∧
        x.sealing.leaves = [] ∧ x.sealing.startIdx = symIndex z ∧ x.sealing.nextNo = z.sealing.nextNo + 1 ∧
        x.sealing.waiting = z.sealing.waiting ++ [w] ∧ w.no = z.sealing.nextNo ∧
        w.header = sealHeader z false (modelTable z.sealing.leaves) ∧ w.sig = edSign z.key.idSecret (ascii "HW2240 seal") w.header ∧
        w.body = z.sealing.leaves.flatMap (fun l => l.record ++ l.inDig ++ l.outDig) ∧ w.engine = nextSigEngine z ∧
        x.sealing.prev = h32 (w.header ++ w.sig)) ∧
    (z.sealing.running = false ∨ symIndex z % z.sealing.effPeriod ≠ 0 ∨ symIndex z = z.sealing.startIdx →
      RunsTo (.sealPeriodBoundary d) s d z) ∧
    (∀ w r, z.sealing.waiting = w :: r → enginesUp z ≠ 0 →
      (∃ x, RunsTo (.sealSigned d true true) s d x ∧ x.sealing.waiting = r ∧ x.sealing.lastNo = w.no ∧
        x.sealing.lastDig = h32 (w.header ++ w.sig) ∧
        (w.no, w.header ++ w.sig) ∈ x.sealing.headers) ∧
      (∀ verify, enginesUp z = 2 → mget z.sig.codeAt w.engine = none → ∃ x, RunsTo (.sealSigned d false verify) s d x ∧
        x.sealing.waiting = { w with failed := w.engine :: w.failed, engine :=
          if z.sig.state[1 - w.engine]? = some 1 then 1 - w.engine else w.engine } :: r ∧
        mget x.sig.codeAt w.engine = some z.tim.up ∧ errSet x pSIG 0 = true))

/-- SIG_CMD: a cut ends the running period at the next slot boundary; a commanded retirement takes one of two signature
engines out of service, its waiting seals going to the other, and is ignored for the last one. A background hash of a
resident Sentinel image counts its permutations, and one that differs retires the image. -/
def Claim.SealCommandsAndImageHash : Prop :=
  ∀ (s : State) (d : DieId) (im : BitVec 4),
    let z := s.die d
    (z.sealing.running = true → RunsTo (.sigCmdCut d) s d { z with sealing := { z.sealing with cutPend := true } }) ∧
    (z.sealing.running = false → RunsTo (.sigCmdCut d) s d z) ∧
    (∀ c e, (c, e) ∈ [(Instr.sigCmdRetire0 d, 0), (.sigCmdRetire1 d, 1)] →
      (z.sig.state = [1, 1] → ∃ x, RunsTo c s d x ∧ x.sig = { z.sig with state := z.sig.state.set e 3 } ∧
        errSet x pSIG 2 = true ∧ (∀ w ∈ x.sealing.waiting, w.engine ≠ e) ∧ x.sealing.waiting.length = z.sealing.waiting.length) ∧
      (enginesUp z ≠ 2 → RunsTo c s d z)) ∧
    ((image z im.toNat).state = 2 → RunsTo (.imageRehash d im true) s d (countPerms (image z im.toNat).payload.length z) ∧
      ∃ x, RunsTo (.imageRehash d im false) s d x ∧ (image x im.toNat).state = 3 ∧
        ∀ c, (chan z c).host.kind = 3 → (chan z c).host.slot = 64 + im.toNat → chanLive (chan x c) = false)

/-! ## Pairing and debug -/

/-- VP_PAIR_CMD and the hand-over: a start is validated at once and, accepted, waits; refused, it says why and raises
handover_refused; while one waits another is ignored. The hand-over that finds the die drained puts the target pairing and
the standby timetable in force together, on both dies at once where the pairing of a coupled channel changes and the two have
drained for the same target, and otherwise does nothing.
Readings and choices of the model in it: log entries 113, 114, 115. -/
def Obligations.HandOverOfThePairing : Prop :=
  ∀ (s : State) (d : DieId) (target : BitVec 2),
    let z := s.die d
    let t := min 2 target.toNat
    (z.vp.pending = true → RunsTo (.vpPairCmdStart d target) s d z) ∧
    (z.vp.pending = false → pairResult z t = 1 → ∃ x, RunsTo (.vpPairCmdStart d target) s d x ∧
      x.vp = { z.vp with target := t, result := 1, pending := true } ∧ x.cad = z.cad ∧ x.chn = z.chn ∧ x.errs = z.errs) ∧
    (z.vp.pending = false → pairResult z t ≠ 1 → enabledPipes z ≠ [] → ∃ x, RunsTo (.vpPairCmdStart d target) s d x ∧
      x.vp = { z.vp with target := t, result := pairResult z t, pending := false } ∧ errSet x (dieVpPage z) 7 = true) ∧
    (∀ tt, z.cad.standby = some tt → drained z = true → coupledChange z z.vp.target = false →
      ∃ x, RunsTo (.handoverTakeEffect d) s d x ∧ x.vp.current = z.vp.target ∧ x.vp.pending = false ∧
        x.vp.draining = false ∧ x.vp.result = 0 ∧ x.cad.standby = none ∧ x.cad.spans = [] ∧
        x.cad.active = { tt with entries := liveEntries z tt.entries, isDefault := false } ∧ x.phase = z.phase) ∧
    (∀ tt, z.cad.standby = some tt → drained z = true → coupledChange z z.vp.target = true →
      let p := s.die d.other
      (agreed z p = true → ∃ t, exec (.handoverTakeEffect d) s = .next t ∧ (t.die d).vp.current = z.vp.target ∧
        (t.die d).vp.pending = false ∧ (∀ pt, p.cad.standby = some pt → (t.die d.other).vp.current = z.vp.target ∧
          (t.die d.other).vp.pending = false) ∧ t.pkg = s.pkg) ∧
      (agreed z p = false → RunsTo (.handoverTakeEffect d) s d z)) ∧
    (drained z = false → RunsTo (.handoverTakeEffect d) s d z)

/-- Debug of a group: with the port locked nothing happens; unlocked, DBG_CTRL.group names the group, a group in service
without an open channel halts, a step runs the word that its program counter names and changes only its core, a resume ends the
halt, a replay of a complete log whose Month is still there runs the log again on the group's core and reports the class of its
first difference, none in a group of one, and arming names the channel whose next batch is captured.
Readings and choices of the model in it: log entries 116, 198. -/
def Obligations.DebugOfAGroup : Prop :=
  ∀ (s : State) (d : DieId) (g : BitVec 3) (ended : ReplayEnd) (c : BitVec 15),
    let z := s.die d
    let l := dbgLead z
    (debugOpen z = false → RunsTo (.dbgCtrlHalt d g) s d z ∧ RunsTo (.dbgCtrlStep ⟨d, []⟩) s d z ∧ RunsTo (.dbgCtrlResume d) s d z ∧
      RunsTo (.dbgCtrlReplay d ended) s d z ∧ RunsTo (.dbgLogCfgArm d c) s d z) ∧
    (debugOpen z = true →
      (∀ lead, groupNamed z g.toNat = some lead → (∀ k ∈ openChans z, groupServes z lead (chan z k) = false) →
        ∃ x, RunsTo (.dbgCtrlHalt d g) s d x ∧ x.dbg = z.dbg ∧ (core x lead).halted = true ∧ x.chn = z.chn ∧
          field x pDBG 0x040 0 = g.toNat) ∧
      (groupNamed z g.toNat = none ∨ (∃ lead, groupNamed z g.toNat = some lead ∧
          ∃ k ∈ openChans z, groupServes z lead (chan z k) = true) → ∃ x, RunsTo (.dbgCtrlHalt d g) s d x ∧
          x.dbg = { z.dbg with refused := true } ∧ x.vp = z.vp ∧ field x pDBG 0x040 0 = g.toNat) ∧
      (dbgHalted z = true → ∀ m w, haltedModel z l = some m → m.prog.code[(core z l).pc]? = some w →
        ∃ x ps n, RunsTo (.dbgCtrlStep ⟨d, []⟩) s d x ∧ x = stepWord l w m.prog.consts z ∧
          x = { z with vp := { z.vp with pipes := ps }, freeCtr := n } ∧
          (wOp w = 0x02 → leads z l = true → wA w ≠ 0 →
            reg x l (wA w) = (reg z l (wB w) + reg z l (wC w)) % 2 ^ 64 ∧
            (core x l).pc = ((core z l).pc + 1) % 2 ^ 32)) ∧
      (dbgHalted z = true → ∃ x, RunsTo (.dbgCtrlResume d) s d x ∧ (core x l).halted = false) ∧
      (dbgHalted z = false → RunsTo (.dbgCtrlStep ⟨d, []⟩) s d z ∧ RunsTo (.dbgCtrlResume d) s d z) ∧
      (dbgHalted z = true → z.dbg.complete = true → z.dbg.truncated = false → logMonthThere z = true →
        ∀ m, model z z.dbg.logSlot = some m →
        let stops := ended.diff ≠ 0 ∧ 2 ≤ (members z l).length
        let r := replayCore (if stops then ended.after.toNat else 16777216) m z
        let cls := if stops ∧ r.2 = false then ended.diff.toNat else 0
        RunsTo (.dbgCtrlReplay d ended) s d (modCore l (fun k => { r.1 with run := k.run, queues := k.queues, busy := k.busy })
          { z with dbg := { z.dbg with diverged := decide (cls ≠ 0), cls := cls } })) ∧
      (dbgHalted z = false ∨ z.dbg.complete = false ∨ z.dbg.truncated = true ∨ logMonthThere z = false →
        RunsTo (.dbgCtrlReplay d ended) s d { z with dbg := { z.dbg with refused := true } }) ∧
      (∃ x, RunsTo (.dbgLogCfgArm d c) s d x ∧ field x pDBG 0x04C 0 = c.toNat ∧ field x pDBG 0x04C 15 = 1 ∧ x.dbg = z.dbg))

/-! ## Spoke -/

/-- Messages of the peer die, each whole and of its type: its declaration is kept with its batch, or for a batch that has not
begun; its phase and the pairing that it asks for are noted; an echo brings Spoke up; the skew of its slot boundary is noted,
reported above 40 ns, and on a die B with a Coupled admission stepped over at the first such message, after a step of
die A and where the counts differ, and slewed away otherwise. A right transmission of a message
that is not its type's changes nothing more; a wrong CRC is retried three times, and a fourth failure takes Spoke down. A phase
other than Summer and a failed Spoke leave the coupled batches in flight alone and forget the peer's early declarations. An own echo goes out; a timeout takes Spoke
down.
Readings and choices of the model in it: log entries 112, 118, 188. -/
def Obligations.SpokeMessages : Prop :=
  ∀ (s : State) (d : DieId) (m : SpokeMsg) (skew : BitVec 16),
    let z := s.die d
    let w := spokeRight m z
    let alone := fun b : Batch => if (chan z b.channel).coupled then { b with alone := true } else b
    (∀ k c, (k, c) ∈ [(1, Instr.declare d m), (4, .spokePhase d m), (5, .spokeSlot d m skew), (6, .spokePair d m),
        (7, .spokeEcho d m), (2, .spokeTurn d m), (3, .spokeAdmit d m)] →
      (CrcRight m → spokeOk k m = false → RunsTo c s d w) ∧
      (¬ CrcRight m → z.spk.tries < 3 → ∃ x, RunsTo c s d x ∧ x.spk = { z.spk with tries := z.spk.tries + 1 } ∧
        errSet x pSPK 1 = true ∧ x.chn = z.chn ∧ x.adm = z.adm ∧ x.tim = z.tim) ∧
      (¬ CrcRight m → 3 ≤ z.spk.tries → ∃ x, RunsTo c s d x ∧ x.spk.up = false ∧ x.spk.down = true ∧ x.spk.tries = 0 ∧
        errSet x pSPK 2 = true)) ∧
    (spokeOk 1 m = true → 1 ≤ spSub m → spSub m ≤ 3 → (chan z (spChan m)).coupled = true → chanLive (chan z (spChan m)) = true →
      (∀ b, (chanTickets z (spChan m)).find? (fun b => b.batchNo == spA m && !b.canary) = some b → ticket z b.serial = some b →
        b.peer = none → ∃ x, RunsTo (.declare d m) s d x ∧ ticket x b.serial = some { b with peer := some (spDecl m) } ∧
          x.spk = w.spk) ∧
      ((chanTickets z (spChan m)).find? (fun b => b.batchNo == spA m && !b.canary) = none →
        0 ≤ slotDiff (spA m) (chan z (spChan m)).wrd.nextBatch → ∃ x, RunsTo (.declare d m) s d x ∧
          (spChan m, spDecl m) ∈ x.spk.early ∧ x.chn = z.chn)) ∧
    (spokeOk 4 m = true → spSub m = 3 → RunsTo (.spokePhase d m) s d { w with spk := { w.spk with peerPhase := 3 } }) ∧
    (spokeOk 4 m = true → spSub m ≤ 4 → spSub m ≠ 3 → RunsTo (.spokePhase d m) s d { w with
      spk := { w.spk with peerPhase := spSub m, early := [] }, chn := { w.chn with tickets := w.chn.tickets.map alone } }) ∧
    (spokeOk 6 m = true → spSub m ≤ 2 →
      RunsTo (.spokePair d m) s d { w with spk := { w.spk with peerPair := some (spSub m) } }) ∧
    (spokeOk 7 m = true → RunsTo (.spokeEcho d m) s d { w with spk := { w.spk with up := true, down := false } }) ∧
    (spokeOk 5 m = true → ∃ x, RunsTo (.spokeSlot d m skew) s d x ∧ x.spk = { w.spk with skewNs := skew.toInt } ∧
      (40 < skew.toInt.natAbs → errSet x pSPK 3 = true) ∧
      (z.which = .a ∨ holdsCoupled z = false ∨ z.spk.down = true → x.tim = { z.tim with following := false }) ∧
      (z.which = .b → holdsCoupled z = true → z.spk.down = false →
        let off := slotDiff (spA m) (nearSlot z)
        let steps := (s.die d.other).tim.steps
        let held := z.tim.following = true ∧ steps = z.tim.peerSteps
        (¬held ∨ off ≠ 0 ∧ z.tim.step = none → x.tim = { markAir z.tim with
          following := true, peerSteps := steps, slew := 0
          step := some ({ offset := off * (slotNs z.tim.mu : Int) - skew.toInt, mu := (z.tim.step.map (fun t => t.mu)).getD z.tim.mu
                          decided := z.tim.up } : AirStep) }) ∧
        (held → off = 0 → x.tim = { markAir z.tim with slew := -skew.toInt }) ∧
        (held → off ≠ 0 → z.tim.step ≠ none → x.tim = z.tim))) ∧
    (∃ b, RunsTo (.spokeEchoTx d) s d { z with out := .spoke b :: z.out } ∧ byteAt b 0 = 7 ∧ b.length = 96) ∧
    (∃ x, RunsTo (.spokeTimeout d) s d x ∧ x.spk.up = false ∧ x.spk.down = true ∧ x.spk.tries = 0 ∧
      x.tim = { z.tim with following := false } ∧ x.chn.tickets = z.chn.tickets.map alone ∧ x.spk.early = [] ∧
      errSet x pSPK 2 = true ∧
      ∀ e ∈ z.adm.models, isCoupled e.2 = true → admitting e.2 = true → e.2.peerOk = false → model x e.1 = none)

/-! ## Channels and ratchets -/

/-- A create that the die accepts, of a channel without a Coupled half, reserves the id with the clamped descriptor and the
ledger density that fits, to be opened at a slot boundary; its fragment joins the timetable's. One whose slot does not serve,
or whose fragment is refused, reports its code and changes no channel; during a hand-over it does nothing.
Readings and choices of the model in it: log entries 105, 106. -/
def Obligations.ChannelsAreCreated : Prop :=
  ∀ (s : State) (d : DieId) (c : BitVec 15),
    let z := s.die d
    let peer := s.die d.other
    let b := descBuf z
    let h := parseChan ((model z (min 79 (byteAt b 2))).map (fun m => m.manifest)) b
    let n := c.toNat
    (z.vp.pending = true → RunsTo (.chnCmdCreate d c) s d z) ∧
    (z.vp.pending = false → (chan z n).pend = none → (chan z n).state ≠ .free → ∃ x, RunsTo (.chnCmdCreate d c) s d x ∧
      capOf x pCHN 0x044 = 32 + 256 * n + 8388608 ∧ x.chn = z.chn) ∧
    (z.vp.pending = false → (chan z n).pend = none → (chan z n).state = .free → holdsId peer n = false →
      (h.kind = 3 ∨ ∀ m, model z h.slot = some m → isCoupled m = false) →
      (∀ k, createRefusal z peer h false = .error k → ∃ x, RunsTo (.chnCmdCreate d c) s d x ∧
        capOf x pCHN 0x044 = k + 256 * n + 8388608 ∧ x.chn = z.chn ∧ x.cad = z.cad) ∧
      (∀ k, createRefusal z peer h false = .ok k →
        (∀ r, judgeFragment z 2 n (some { id := n, host := h, coupled := false, model := model z h.slot }) none = .error r →
          ∃ x, RunsTo (.chnCmdCreate d c) s d x ∧ capOf x pCHN 0x044 = 9 + 256 * n + 8388608 ∧ x.chn = z.chn ∧ x.cad = z.cad) ∧
        (∀ es, judgeFragment z 2 n (some { id := n, host := h, coupled := false, model := model z h.slot }) none = .ok es →
          ∃ x, RunsTo (.chnCmdCreate d c) s d x ∧ capOf x pCHN 0x044 = 1 + 256 * n + 8388608 ∧
            chan x n = { host := h, coupled := false, density := k
                         alphaRep := if k = 2 then h.alpha / 2 else h.alpha, pend := some .create } ∧
            (∀ c', c' ≠ n → chan x c' = chan z c') ∧ x.cad.frags = z.cad.frags ++ es ∧
            (∀ r, named x r = (named z r || decide (ledgerRatchet h = some r))))))

/-- Pause, resume, close and free wait for the slot boundary in the states that allow them and are refused with code 32 in
the others, and with 33 behind another waiting command, but for a close behind a pause; a retirement takes a live channel out
of service at once. Other channels stay as they were. -/
def Claim.ChannelCommandsByState : Prop :=
  ∀ (s : State) (d : DieId) (c : BitVec 15),
    let z := s.die d
    let n := c.toNat
    let q := chan z n
    let stat := fun (x : Die) op code => capOf x pCHN 0x044 = code + 256 * n + 8388608 * op
    (∀ (i : Instr) (op : Nat) (p : ChanPend) (ok : Bool),
      (i, op, p, ok) ∈ [(Instr.chnCmdPause d c, 2, ChanPend.pause, decide (q.state = .opened)),
        (.chnCmdResume d c, 3, .resume, decide (q.state = .paused)),
        (.chnCmdClose d c, 4, .close, decide (q.state = .opened ∨ q.state = .paused)),
        (.chnCmdFree d c, 6, .free, decide (q.state = .closed ∨ q.state = .retired))] →
      (q.pend = none ∨ q.pend = some .pause ∧ p = .close → ok = true → ∃ x, RunsTo i s d x ∧ stat x op 1 ∧
        chan x n = { q with pend := some p } ∧ (∀ c', c' ≠ n → chan x c' = chan z c') ∧ x.chn.tickets = z.chn.tickets ∧
        x.cad = z.cad ∧ x.phase = z.phase) ∧
      (q.pend = none ∨ q.pend = some .pause ∧ p = .close → ok = false → ∃ x, RunsTo i s d x ∧ stat x op 32 ∧ x.chn = z.chn) ∧
      (q.pend ≠ none → ¬(q.pend = some .pause ∧ p = .close) → ∃ x, RunsTo i s d x ∧ stat x op 33 ∧ x.chn = z.chn)) ∧
    (q.pend = none ∨ q.pend = some .pause →
      (chanLive q = true → ∃ x, RunsTo (.chnCmdRetire d c) s d x ∧ stat x 5 0 ∧ (chan x n).state = .retired ∧
        (chan x n).endCause = 2 ∧ (chan x n).pend = none ∧ (chan x n).ledger = []) ∧
      (chanLive q = false → ∃ x, RunsTo (.chnCmdRetire d c) s d x ∧ stat x 5 32 ∧ x.chn = z.chn))

/-- Read puts the descriptor into CHN_DESC_BUF word for word; save of a paused channel with a ledger makes its signed image,
restore brings a fitting image back into an empty ledger and refuses all else with code 35, the ledger left empty; each is refused
with 33 behind a waiting command; a new ring tail is taken up to
the head and clamps to the nearer end of what is unread. -/
def Claim.ChannelReadSaveRestoreAndRing : Prop :=
  ∀ (s : State) (d : DieId) (c : BitVec 15) (tail : Word),
    let z := s.die d
    let n := c.toNat
    let q := chan z n
    let stat := fun (x : Die) op code => capOf x pCHN 0x044 = code + 256 * n + 8388608 * op
    let emptied := { q with ledger := [], validEnd := 0, append := 0, voidPos := 4294967295, wrd := { q.wrd with append := 0 } }
    (q.pend = none → ∃ x, RunsTo (.chnCmdRead d c) s d x ∧ stat x 7 0 ∧ x.chn = z.chn ∧
      ∀ k, k < 64 → field x pCHN (0x100 + 4 * k) 0 = u32At (descBytes q) (4 * k)) ∧
    (q.pend ≠ none → ∀ i op, (i, op) ∈ [(Instr.chnCmdRead d c, 7), (.chnCmdSave d c, 8), (.chnCmdRestore d c, 9)] →
      ∃ x, RunsTo i s d x ∧ stat x op 33 ∧ x.chn = z.chn) ∧
    (∀ m, q.pend = none → q.state = .paused → model z q.host.slot = some m →
      (q.density ≠ 0 → ∃ x, RunsTo (.chnCmdSave d c) s d x ∧ stat x 8 0 ∧ x.key.image = ledgerImage z m.manifest q ∧
        x.chn = z.chn) ∧
      (q.density = 0 ∨ q.validEnd ≠ 0 ∨ q.append ≠ 0 ∨ bulkWhole z 6 = none →
        ∃ x, RunsTo (.chnCmdRestore d c) s d x ∧ stat x 9 35 ∧ chan x n = emptied) ∧
      (q.density ≠ 0 → q.validEnd = 0 → q.append = 0 → ∀ b, bulkWhole z 6 = some b →
        (imageFits z m.manifest q b = true → ∃ x, RunsTo (.chnCmdRestore d c) s d x ∧ stat x 9 0 ∧
          (chan x n).validEnd = u32At b 8 ∧ (chan x n).append = u32At b 8 ∧ (chan x n).voidPos = 4294967295 ∧
          (chan x n).ledger = cellsWrite [] 0 (slice b 256 (cdiv (u32At b 8) 256 * unitLen m.manifest q.density))) ∧
        (imageFits z m.manifest q b = false → ∃ x, RunsTo (.chnCmdRestore d c) s d x ∧ stat x 9 35 ∧
          chan x n = emptied))) ∧
    (q.state ≠ .paused → q.pend = none → (∃ x, RunsTo (.chnCmdSave d c) s d x ∧ stat x 8 32 ∧ x.chn = z.chn) ∧
      ∃ x, RunsTo (.chnCmdRestore d c) s d x ∧ stat x 9 32 ∧ x.chn = z.chn) ∧
    (n ∈ z.chn.tab.map (fun e => e.1) →
      let step := (tail.toNat + 2 ^ 32 - q.ringTail) % 2 ^ 32
      let room := (q.ringHead + 2 ^ 32 - q.ringTail) % 2 ^ 32
      ∃ x, RunsTo (.chnRingTail d c tail) s d x ∧ (∀ c', c' ≠ n → chan x c' = chan z c') ∧
        chan x n = { q with ringTail := if step ≤ room then tail.toNat
          else if step - room ≤ 2 ^ 32 - step then q.ringHead else q.ringTail })

/-- Ratchet registers: an owner is written only while nothing names the ratchet; the low half of a value is held until the
high half is written, and both apply together, raising a ratchet that host software owns and no other, and never lowering
one. -/
def Claim.RatchetRegisters : Prop :=
  ∀ (s : State) (d : DieId) (r : BitVec 12) (o : BitVec 2) (v : Word),
    let z := s.die d
    let n := r.toNat
    let lo := mgetD z.rat.loHeld (n / 1024) ((ratchet z n).value % 4294967296)
    let new := v.toNat * 2 ^ 32 + lo
    (named z n = false → ∃ x, RunsTo (.ratCfgOwner d r o) s d x ∧ ratchet x n = { ratchet z n with owner := o.toNat } ∧
      ∀ k, k ≠ n → ratchet x k = ratchet z k) ∧
    (named z n = true → RunsTo (.ratCfgOwner d r o) s d z) ∧
    (∃ x, RunsTo (.ratValLo d r v) s d x ∧ mget x.rat.loHeld (n / 1024) = some v.toNat ∧ x.rat.tab = z.rat.tab) ∧
    (lo < 2 ^ 32 → ∃ x, RunsTo (.ratValHi d r v) s d x ∧ (∀ k, k ≠ n → ratchet x k = ratchet z k) ∧
      (ownerOf z n = 3 → (ratchet z n).value < new → (ratchet x n).value = new ∧ (ratchet x n).owed = true) ∧
      (ownerOf z n ≠ 3 ∨ new ≤ (ratchet z n).value → ratchet x n = ratchet z n ∧ errSet x (ratPage n) 0 = true))

/-- Sentinel images: a load in Spring or Summer of a container that passes its checks makes an empty image slot loading, and
reports the code of the first check that fails; a completed load makes it resident; an unload is refused while a channel
names the image and frees its slot otherwise. -/
def Claim.SentinelImagesLoadAndUnload : Prop :=
  ∀ (s : State) (d : DieId) (im : BitVec 4),
    let z := s.die d
    let n := im.toNat
    ((z.phase = .spring ∨ z.phase = .summer) → (image z n).state ≠ 1 → (image z n).state ≠ 2 →
      (bulkWhole z 4 = none → ∃ x, RunsTo (.sntCmdLoad d im) s d x ∧ x.sntb = { z.sntb with result := 2 }) ∧
      (∀ b, bulkWhole z 4 = some b →
        (∀ k, imageRefusal z b = some k → ∃ x, RunsTo (.sntCmdLoad d im) s d x ∧ x.sntb = { z.sntb with result := k }) ∧
        (imageRefusal z b = none → ∃ x, RunsTo (.sntCmdLoad d im) s d x ∧ x.sntb.result = 1 ∧ (image x n).state = 1 ∧
          (image x n).payload = (parseTchili b).payload ∧ (image x n).digest = (parseTchili b).digest ∧
          ∀ k, k ≠ n → image x k = image z k))) ∧
    ((image z n).state = 1 ∨ (image z n).state = 2 →
      RunsTo (.sntCmdLoad d im) s d { z with sntb := { z.sntb with result := 32 } }) ∧
    ((image z n).state = 1 → ∃ x, RunsTo (.sentinelImageResident d im) s d x ∧ image x n = { image z n with state := 2 } ∧
      x.sntb.result = 0) ∧
    (imageNamed z n = true → RunsTo (.sntCmdUnload d im) s d { z with sntb := { z.sntb with result := 32 } }) ∧
    (imageNamed z n = false → ∃ x, RunsTo (.sntCmdUnload d im) s d x ∧ (image x n).state = 0 ∧ x.sntb.result = 0 ∧
      ∀ k, k ≠ n → image x k = image z k)

/-! ## The ingress tap and the host port -/

/-- A frame at an ingress port: with the port down nothing happens; a wrong FCS, no matching stream, a wrong form, a wrong
CRC and a stale counter each discard it, set their bit and leave the streams as they were. One that passes, its age within
bounds while PTP is locked, moves its stream's expected counter behind its own and, with the link UP and room downstream,
goes stamped into the queue; else bit 7 is set.
Readings and choices of the model in it: log entries 103, 104. -/
def Obligations.FramesAreTappedAndStamped : Prop :=
  ∀ (s : State) (d : DieId) (port : Bool) (f : EthFrame) (c : Instr),
    c = .sensorEnvelope d port f ∨ c = .ecpriIqData d port f →
    let z := s.die d
    let p := b2n port
    let e := ethBody f.bytes
    let key := frameKey e
    let read := fun k => if key.1 = 1 then readEnvelope z p k e.body else readEcpri e.body
    let dropped := fun bit => ∃ x, RunsTo c s d x ∧ errSet x (ingPage p) bit = true ∧ x.ing = z.ing ∧ x.wlk = z.wlk ∧
      x.chn = z.chn ∧ x.tim = z.tim
    (portUp z p = false ∨ (f.fcsOk = true ∧ macTakes z p f.bytes = false) → RunsTo c s d z) ∧
    (portUp z p = true → f.fcsOk = false → dropped 0) ∧
    (portUp z p = true → f.fcsOk = true → macTakes z p f.bytes = true →
      (matchStream z p key = none → dropped 1) ∧
      (∀ k, matchStream z p key = some k → (read k = none → dropped 2) ∧
        (∀ t, read k = some t → (t.crcOk = false → dropped 3) ∧
          (t.crcOk = true → (frameCounter (stream z k) key.1 t.counter = none → dropped 4) ∧
            (∀ n gap, frameCounter (stream z k) key.1 t.counter = some (n, gap) →
              let locked := z.tim.ptp = .locked
              let age := fun a : Nat => (z.tim.ns : Int) - (a : Int)
              let within := fun a => -(1000 * (strm z k 0x060 16 : Int)) ≤ age a ∧ age a ≤ 1000 * (strm z k 0x060 0 : Int)
              (∀ a, t.capture = some a → locked → ¬within a → dropped 6) ∧
              (∀ at_ unsure, (t.capture = some at_ ∧ locked ∧ within at_ ∧ unsure = false) ∨
                  (at_ = z.tim.ns - strm z k 0x064 0 ∧ (t.capture = none ∧ unsure = false ∨
                    t.capture ≠ none ∧ ¬locked ∧ unsure = true)) →
                let bytes := stampFrame k false (unsure || timeUncertain z) n at_ (timAt z at_) t.payload
                  (stampDigest k false n t.payload)
                ∃ x, RunsTo c s d x ∧ x.wlk = z.wlk ∧ x.tim = z.tim ∧ (stream x k).expected = (n + 1) % 2 ^ 32 ∧
                  (stream x k).primed = true ∧
                  (z.wlk.state = .up → downBytes z + bytes.length ≤ 1048576 → (∃ q, x.ing.queue = z.ing.queue ++ [q] ∧
                    q.bytes = bytes ∧ q.stream = k ∧ q.arrived = z.tim.ns) ∧ (stream x k).fwd = (stream z k).fwd + 1) ∧
                  (z.wlk.state ≠ .up ∨ 1048576 < downBytes z + bytes.length → x.ing.queue = z.ing.queue ∧
                    errSet x (ingPage p) 7 = true)))))))

/-- The front stamped frame goes to the link while it is UP with a credit on VC 0, and waits otherwise; an ingress or host
link that changes is noted, its loss raised, and the host port's link is known to the other die too; the gate list's admin
bank is committed for the first start of its cycle that is not past; the ns counter runs to the end of a gate interval, up to which
one entry of the list holds and at which another begins, and the committed bank takes over at its time; a
recovery that times out takes any next number.
Readings and choices of the model in it: log entry 126. -/
def Obligations.ForwardingLinksAndGates : Prop :=
  ∀ (s : State) (d : DieId) (up : Bool),
    let z := s.die d
    (∀ f r, z.ing.queue = f :: r →
      (z.wlk.state = .up → 0 < dsCredit z.wlk 0 → ∃ x, RunsTo (.stampedFrameForward d) s d x ∧ x.ing = { z.ing with queue := r } ∧
        x.wlk = { z.wlk with dsTx0 := z.wlk.dsTx0 ++ [{ stream := f.stream, no := f.no, left := f.bytes, begun := false }] }) ∧
      (z.wlk.state ≠ .up ∨ dsCredit z.wlk 0 = 0 → RunsTo (.stampedFrameForward d) s d z)) ∧
    (∀ port, ∃ x, RunsTo (.ingLinkChange d port up) s d x ∧
      x.ing = (if port then { z.ing with up1 := up } else { z.ing with up0 := up }) ∧
      (up = true → x.errs = z.errs) ∧ (up = false → errSet x (ingPage (b2n port)) 9 = true)) ∧
    (let now := up && z.regs.enabled.contains pHST
     Runs (.hstLinkChange d up) s (fun t => (t.die d).hst.linkUp = now ∧
      t.die d.other = { s.die d.other with hst := { (s.die d.other).hst with peerLink := now } } ∧
      (z.hst.linkUp = true → now = false → errSet (t.die d) pHST 0 = true))) ∧
    (let base := field z pHST 0x05C 0 + 4294967296 * field z pHST 0x060 0
     let cycle := max 1 (field z pHST 0x058 0)
     ∃ at_, RunsTo (.hstQbvCfgSwap d) s d { z with hst := { z.hst with swapAt := some at_ } } ∧ base ≤ at_ ∧ z.tim.ns ≤ at_ ∧
      (at_ - base) % cycle = 0 ∧ (at_ = base ∨ at_ < z.tim.ns + cycle)) ∧
    (let ns := (z.tim.ns + (intervalEnd z - z.tim.ns)) % 2 ^ 64
     ∃ x, RunsTo (.qbvGateIntervalEnd d) s d x ∧ x.tim.ns = ns ∧
      (∀ t, z.hst.swapAt = some t → t ≤ ns → x.hst.operBank = 1 - z.hst.operBank ∧ x.hst.cycleNs = t ∧ x.hst.swapAt = none ∧
        x.hst.operN = max 1 (field z pHST 0x054 1) ∧ x.hst.operCycle = max 1 (field z pHST 0x058 0)) ∧
      (z.hst.swapAt = none → x.hst.operBank = z.hst.operBank ∧ x.hst.cycleNs = z.hst.cycleNs ∧ x.hst.operN = z.hst.operN ∧
        x.hst.operCycle = z.hst.operCycle)) ∧
    (let ends := z.tim.ns + intervalLeft z z.tim.ns
     (∀ v, z.tim.ns ≤ v → v < ends → (gateAt z v).1 = (gateAt z z.tim.ns).1) ∧
      (z.tim.ns < ends → gateStart z (gateAt z ends).1 = (gateAt z ends).2)) ∧
    RunsTo (.recoveryResetTimeout d) s d { z with hst := { z.hst with recovSeq := none, history := [] } }

/-! ## Time -/

/-- Air-time on the pins: an edge of the source in use counts as good with a good word and, once locked, within 2 µs; the
third good one in a row locks, the third bad or missing one in a row loses the lock and is raised; on another source an edge
changes nothing. A word is good where its form is right and its frame number follows; a bad one is raised. -/
def Claim.AirTimeFollowsThePins : Prop :=
  ∀ (s : State) (d : DieId),
    let z := s.die d
    let t := z.tim
    let e := edgeError t
    let good := wordStands t
    (z.phase = .frost ∨ srcOf z = 0 ∨ srcOf z = 2 → RunsTo (.atFrame d) s d z) ∧
    (z.phase ≠ .frost → srcOf z = 1 → t.inUse = 1 →
      (t.at_ = .acquire → ∃ x, RunsTo (.atFrame d) s d x ∧ x.tim.edgeErr = e ∧ x.tim.lastEdge = some t.up ∧
        (good = true → gapGood t = true → 2 ≤ t.goodEdges → x.tim.at_ = .locked ∧ x.tim.badEdges = 0) ∧
        (good = true → gapGood t = true → t.goodEdges < 2 → x.tim.at_ = .acquire ∧ x.tim.goodEdges = t.goodEdges + 1) ∧
        (good = true → gapGood t = false → x.tim.at_ = .acquire ∧ x.tim.goodEdges = 1) ∧
        (good = false → x.tim.at_ = .acquire ∧ x.tim.goodEdges = 0)) ∧
      (t.at_ = .locked → ∃ x, RunsTo (.atFrame d) s d x ∧ x.tim.edgeErr = e ∧ x.tim.lastEdge = some t.up ∧
        (e.natAbs ≤ 2000 → followsPeer z = false → good = true ∨ t.badEdges < 2 → x.tim.slew = -e) ∧
        (e.natAbs ≤ 2000 → good = true → x.tim.at_ = .locked ∧ x.tim.badEdges = 0) ∧
        (2000 < e.natAbs ∨ good = false → t.badEdges < 2 → x.tim.at_ = .locked ∧ x.tim.badEdges = t.badEdges + 1) ∧
        (2000 < e.natAbs ∨ good = false → 2 ≤ t.badEdges → x.tim.at_ = .holdover ∧ errSet x pTIM 0 = true)) ∧
      (t.at_ = .locked → t.badEdges < 2 →
        RunsTo (.atFrameMissing d) s d { z with tim := { t with badEdges := t.badEdges + 1 } }) ∧
      (t.at_ = .locked → 2 ≤ t.badEdges → ∃ x, RunsTo (.atFrameMissing d) s d x ∧ x.tim.at_ = .holdover ∧
        errSet x pTIM 0 = true) ∧
      (t.at_ = .acquire → RunsTo (.atFrameMissing d) s d { z with tim := { t with goodEdges := 0 } })) ∧
    (t.inUse ≠ 1 → RunsTo (.atFrameMissing d) s d z) ∧
    (∀ (w : Word) (ok : Bool), z.phase ≠ .frost →
      let n := fld w.toNat 0 10 + 1024 * fld w.toNat 10 10
      let form := ok = true ∧ fld w.toNat 20 2 = field z pTIM 0x058 2 ∧ fld w.toNat 22 10 = 0
      let next := ∀ p, t.word = some p → n = (p + 1) % 1048576
      (form ∧ next → RunsTo (.atSfn d w ok) s d
        { z with tim := { t with word := some n, wordGood := true, wordAt := t.up } }) ∧
      (¬(form ∧ next) → ∃ x, RunsTo (.atSfn d w ok) s d x ∧ errSet x pTIM 2 = true ∧ x.tim.wordGood = false)) ∧
    (srcOf z = 0 → RunsTo (.timCmdAtReacquire d) s d z) ∧
    (srcOf z ≠ 0 → ∃ x, RunsTo (.timCmdAtReacquire d) s d x ∧ x.tim.at_ = .acquire ∧ x.tim.goodEdges = 0 ∧
      x.tim.inUse = (if t.inUse ≠ 0 then t.inUse else if srcOf z = 2 then 2 else 1)) ∧
    (z.phase ≠ .frost → t.inUse = 2 → ∃ x, RunsTo (.ptpFrameEdge d) s d x ∧ x.tim.ns = (t.ns + toPtpFrame z) % 2 ^ 64 ∧
      x.tim.up = t.up + cdiv (toPtpFrame z * airRate) (nsRate t) ∧ x.tim.lastEdge = some x.tim.up) ∧
    (z.phase = .frost ∨ t.inUse ≠ 2 → RunsTo (.ptpFrameEdge d) s d z)

/-- PTP messages that the port takes: a two-step Sync waits for its Follow_Up; a Sync with its times gives the offset from
which the servo of R341 moves, stepping the counter while UNLOCKED above 1 µs, locking at the sixteenth good offset, leaving
LOCKED at the eighth above ten times lock_ns; a better Announce, or any once the master is silent, makes its sender the master; a measured path delay is kept
and, beyond the threshold, freezes the servo.
Readings and choices of the model in it: log entries 119, 120, 121. -/
def Obligations.PtpMessagesMoveTheServo : Prop :=
  ∀ (s : State) (d : DieId) (y : Die),
    let z := s.die d
    let lock := lockNs y
    (∀ c, ((∃ m, c = .ptpSync d m ∨ c = .ptpFollowUp d m ∨ c = .ptpDelayResp d m ∨ c = .ptpPdelayReq d m ∨
        c = .ptpPdelayResp d m) ∨ ∃ m, c = .ptpAnnounce d m) → ptpTake z = (false, y) → RunsTo c s d y) ∧
    (ptpTake z = (true, y) →
      (∀ m, fromMaster m y = false ∨ intervalOk m = false → RunsTo (.ptpSync d m) s d y) ∧
      (∀ m, fromMaster m y = true → intervalOk m = true → m.twoStep = true → ∃ x, RunsTo (.ptpSync d m) s d x ∧
        x.tim = { y.tim with
          syncAt := some y.tim.up, syncGap := intervalNs m, syncMissed := 0, silent := false
          syncSeq := some (m.seq.toNat, arrivalNs m y, corrNs m) }) ∧
      (∀ m c t1 t2, fromMaster m y = true →
        (c = .ptpSync d m ∧ intervalOk m = true ∧ m.twoStep = false ∧ t1 = (m.origin.toNat : Int) + corrNs m ∧
            t2 = arrivalNs m y ∨
          ∃ k, c = .ptpFollowUp d m ∧ y.tim.syncSeq = some (m.seq.toNat, t2, k) ∧
            t1 = (m.origin.toNat : Int) + k + corrNs m) →
        let o : Int := (t2 : Int) - t1 - (delayNs y.tim : Int) - sgn 32 (field y pTIM 0x07C 0)
        ∃ x, RunsTo c s d x ∧ x.tim.offset = o ∧ x.tim.syncT1 = t1 ∧ x.tim.syncT2 = t2 ∧ x.tim.syncSeq = none ∧
          (y.tim.ptp = .unlocked → 1000 < o.natAbs → x.tim.ptp = .unlocked ∧ x.tim.ns = uns 64 ((y.tim.ns : Int) - o) ∧
            errSet x pTIM 6 = true) ∧
          (y.tim.ptp = .unlocked → o.natAbs ≤ 1000 → o.natAbs ≤ lock → 15 ≤ y.tim.ptpGood → x.tim.ptp = .locked ∧
            x.tim.dRef = delay8 y.tim) ∧
          (y.tim.ptp = .unlocked → o.natAbs ≤ 1000 → o.natAbs ≤ lock → y.tim.ptpGood < 15 → x.tim.ptp = .unlocked ∧
            x.tim.ptpGood = y.tim.ptpGood + 1) ∧
          (y.tim.ptp = .locked → 10 * lock < o.natAbs → 7 ≤ y.tim.ptpBad → x.tim.ptp = .unlocked ∧ errSet x pTIM 3 = true) ∧
          (y.tim.ptp = .locked → o.natAbs ≤ 10 * lock → x.tim.ptp = .locked ∧ x.tim.ptpBad = 0) ∧
          (y.tim.ptp = .holdover → x.tim.ptp = if o.natAbs ≤ lock then .locked else .unlocked) ∧
          (y.tim.ptp = .frozen → x.tim.ptp = .frozen)) ∧
      (∀ m, m.domain.toNat = field y pTIM 0x074 8 →
        (y.tim.master = none → RunsTo (.ptpAnnounce d m) s d { y with tim := { y.tim with master := some m, silent := false } }) ∧
        (∀ a, y.tim.master = some a → (a.port = m.port ∨ y.tim.silent = true ∨ betterMaster m a = true →
            RunsTo (.ptpAnnounce d m) s d
              { y with tim := { y.tim with master := some m, silent := y.tim.silent && decide (a.port = m.port) } }) ∧
          (a.port ≠ m.port → y.tim.silent = false → betterMaster m a = false → RunsTo (.ptpAnnounce d m) s d y))) ∧
      (∀ m c t v, y.hst.reqT = some t → m.seq.toNat = y.tim.reqSeq →
        (c = .ptpDelayResp d m ∧ field y pTIM 0x074 1 = 0 ∧ fromMaster m y = true ∧
            v = (y.tim.syncT2 - y.tim.syncT1 + (m.origin.toNat : Int) - corrNs m - (t : Int)) / 2 ∨
          c = .ptpPdelayResp d m ∧ field y pTIM 0x074 1 = 1 ∧ m.domain.toNat = field y pTIM 0x074 8 ∧
            v = ((arrivalNs m y : Int) - (t : Int) - corrNs m) / 2) →
        ∃ x, RunsTo c s d x ∧ x.tim.delays = (v.toNat :: y.tim.delays).take 8 ∧ x.hst.reqT = none ∧
          (let away := delayAway { y.tim with delays := (v.toNat :: y.tim.delays).take 8 }
           (y.tim.ptp = .locked → 8 * field y pTIM 0x078 0 < away → x.tim.ptp = .frozen ∧ errSet x pTIM 4 = true) ∧
           (y.tim.ptp = .locked → away ≤ 8 * field y pTIM 0x078 0 → x.tim.ptp = .locked) ∧
           (y.tim.ptp = .frozen → away ≤ 4 * field y pTIM 0x078 0 → 15 ≤ y.tim.delayGood → x.tim.ptp = .locked) ∧
           (y.tim.ptp = .frozen → 4 * field y pTIM 0x078 0 < away → x.tim.ptp = .frozen ∧ x.tim.delayGood = 0))) ∧
      (∀ m, field y pTIM 0x074 1 = 1 → m.domain.toNat = field y pTIM 0x074 8 → ∃ x, RunsTo (.ptpPdelayReq d m) s d x ∧
        x.tim = y.tim ∧ (portFree y = true → x.out = .ptp
          { kind := 2, as_ := true, domain := m.domain.toNat, seq := m.seq.toNat, origin := 0
            corr := corrNs m - (arrivalNs m y : Int) + (y.tim.ns : Int) } :: y.out)))

/-- Time commands: a delay request goes to the port with the next number, and leaves a free one at once with its time kept; no Sync for four intervals puts a running
servo into HOLDOVER and counts four; a frozen servo takes its delay as it is on command; a written step moves the ns counter
only while PTP is disabled; the high half of a trigger's target arms it; a due trigger fires, is captured and reported, and
a single one disarms. -/
def Claim.NsCounterAndTriggers : Prop :=
  ∀ (s : State) (d : DieId),
    let z := s.die d
    let t := z.tim
    (ptpRuns z = true → ∃ x, RunsTo (.ptpDelayReqTx d) s d x ∧ x.tim = { t with reqSeq := (t.reqSeq + 1) % 65536 } ∧
      (portFree z = true → x.hst.reqT = some t.ns ∧ x.out = .ptp
        { kind := field z pTIM 0x074 1, as_ := field z pTIM 0x074 1 == 1, domain := field z pTIM 0x074 8
          seq := (t.reqSeq + 1) % 65536, origin := t.ns, corr := 0 } :: z.out)) ∧
    (ptpRuns z = false → RunsTo (.ptpDelayReqTx d) s d z) ∧
    (t.ptp = .locked ∨ t.ptp = .unlocked → ∃ x, RunsTo (.ptpSyncTimeout d) s d x ∧ x.tim.ptp = .holdover ∧
      x.tim.silent = true ∧ errSet x pTIM 3 = true ∧ mgetD x.regs.cnt (wkey pTIM 0x0B4) 0 = min 4294967295 (mgetD z.regs.cnt (wkey pTIM 0x0B4) 0 + 4)) ∧
    (t.ptp = .disabled → RunsTo (.ptpSyncTimeout d) s d z) ∧
    (t.ptp = .frozen → ∃ x, RunsTo (.timCmdAsymAccept d) s d x ∧ x.tim.dRef = delay8 t ∧
      x.tim.ptp = if t.offset.natAbs ≤ lockNs z then .locked else .unlocked) ∧
    (t.ptp ≠ .frozen → RunsTo (.timCmdAsymAccept d) s d z) ∧
    (∀ v : W64, (t.ptp = .disabled → z.phase ≠ .frost → ∃ x, RunsTo (.timStep d v) s d x ∧
        x.tim = jumping (fun t => { t with ns := uns 64 ((t.ns : Int) + v.toInt) }) t ∧ x.tim.air = t.air ∧ errSet x pTIM 6 = true) ∧
      (t.ptp ≠ .disabled → RunsTo (.timStep d v) s d z)) ∧
    (∀ (v : Word), field z pTIM 0x090 0 < t.trigs.length → ∃ x, RunsTo (.timTrigTgtHi d v) s d x ∧
      trigger x (field z pTIM 0x090 0) = { trigger z (field z pTIM 0x090 0) with
        target := (trigger z (field z pTIM 0x090 0)).lo + 4294967296 * v.toNat, armed := true } ∧
      ∀ k, k ≠ field z pTIM 0x090 0 → trigger x k = trigger z k) ∧
    (∀ i, i < t.trigs.length → ∀ b : BitVec 3, b.toNat = i →
      (trigDue z (trigger z i) = true → ∃ x, RunsTo (.triggerFire d b) s d x ∧ x.tim.fired = t.fired ||| 2 ^ i ∧
        (trigger x i).capSlot = slotCount z ∧ (trigger x i).capNs = t.ns % 2 ^ 32 ∧
        ((trigger z i).period = 0 → (trigger x i).armed = false ∧ (trigger x i).mode = 0) ∧
        ((trigger z i).period ≠ 0 → (trigger x i).target = nextTarget z (trigger z i) ∧
          (trigger x i).armed = (trigger z i).armed)) ∧
      (trigDue z (trigger z i) = false → RunsTo (.triggerFire d b) s d z))

/-! ## The Warden channel -/

/-- A cycle of a running Warden channel counts, takes what it samples, and sends its frame; while the channel is not ACTIVE
every safe output is off after it, and in ACTIVE an output is on only for a zone's use, and a zone that moves has every input
of it closed and no host stop. A channel that is down does nothing.
Readings and choices of the model in it: log entry 130. -/
def Obligations.WardenCycleIsSafe : Prop :=
  ∀ (s : State) (d : DieId) (smp : WdnSample),
    let z := s.die d
    (wdnRuns z = false → RunsTo (.wardenCycle d smp) s d z) ∧
    (wdnRuns z = true → ∃ x, RunsTo (.wardenCycle d smp) s d x ∧ x.wdn.cycle = z.wdn.cycle + 1 ∧
      x.wdn.readback = smp.readback.toNat ∧ x.wdn.edm = smp.edm.toNat ∧ x.wdn.switches = smp.switches.toNat ∧
      x.wdn.events = [] ∧ x.wdn.sst = sstNow x.wdn ∧ x.wdn.tx = some (xframe x) ∧
      x.phase = z.phase ∧ x.tim = z.tim ∧ x.chn = z.chn ∧ x.wdn.hostStop = z.wdn.hostStop ∧
      (∀ o, o < 4 → tst x.wdn.cmd o = true → x.wdn.state = .active ∧ zoneOfOutput x.wdn o ≠ none) ∧
      (z.wdn.state = .active → ∀ n, n < 4 → ((zone x.wdn n).state = .run ∨ (zone x.wdn n).state = .freewheel) →
        inputsClosed x.wdn n = true ∧ tst x.wdn.hostStop n = false))

/-- Hardwired faults and host commands of a Warden channel: a failed dark test pulse, an input's discrepancy, an EDM that does
not follow, a crosslink that is silent, a clock count outside 920 to 1,080 frames, a failed profile check and a switch word
that differs while the channel is ACTIVE put the zones concerned into KICKSTAND and set their bits; a passed pulse or check, a
count in range and the word in force do not. A host stop brakes its zones, and its release starts none.
Readings and choices of the model in it: log entry 4. -/
def Obligations.WardenFaultsAndStops : Prop :=
  ∀ (s : State) (d : DieId),
    let z := s.die d
    let w := z.wdn
    let out := fun (x : Die) n => (zone w n).state ≠ .unused → (zone x.wdn n).state = .kickstand
    (∀ o : BitVec 2,
      (w.testing = some o.toNat → (∃ x, RunsTo (.darkTestPulseEnd d o true) s d x ∧ x.wdn.testing = none ∧
          x.wdn.pulseEnd = some w.cycle ∧ x.wdn.zones = w.zones) ∧
        ∃ x, RunsTo (.darkTestPulseEnd d o false) s d x ∧ x.wdn.testing = none ∧ errSet x pWDN 1 = true ∧
          ∀ n, zoneOfOutput w o.toNat = some n → out x n) ∧
      (w.testing ≠ some o.toNat → ∀ ok, RunsTo (.darkTestPulseEnd d o ok) s d z) ∧
      (tst w.cmd o.toNat = true → ∃ x, RunsTo (.tpIntervalExpiry d o) s d x ∧ tst x.wdn.pulseReq o.toNat = true ∧
        x.wdn.zones = w.zones) ∧
      (tst w.cmd o.toNat = false → RunsTo (.tpIntervalExpiry d o) s d z) ∧
      (tst w.edmWait o.toNat = true → w.testing ≠ some o.toNat → ∃ x, RunsTo (.edmTimeout d o) s d x ∧
        errSet x pWDN 2 = true ∧ ∀ n, zoneOfOutput w o.toNat = some n → out x n) ∧
      (tst w.edmWait o.toNat = false → RunsTo (.edmTimeout d o) s d z)) ∧
    (∀ i : BitVec 3,
      (w.state = .active → tst w.discRun i.toNat = true → ∃ x, RunsTo (.discrepancyTimeout d i) s d x ∧
        errSet x pWDN 0 = true ∧ ∀ n, n < 4 → tst (zByte w n 2) i.toNat = true → out x n) ∧
      (tst w.discRun i.toNat = false → RunsTo (.discrepancyTimeout d i) s d z)) ∧
    (wdnRuns z = true →
      (∃ x, RunsTo (.crosslinkTimeout d) s d x ∧ x.wdn.xlinkUp = false ∧ errSet x pWDN 9 = true ∧ ∀ n, n < 4 → out x n) ∧
      (920 ≤ w.frames → w.frames ≤ 1080 → ∃ x, RunsTo (.clockCountWindow d) s d x ∧ x.wdn.frames = 0 ∧ 10 ∉ x.wdn.conds ∧
        x.wdn.zones = w.zones) ∧
      (w.frames < 920 ∨ 1080 < w.frames → ∃ x, RunsTo (.clockCountWindow d) s d x ∧ x.wdn.frames = 0 ∧ 10 ∈ x.wdn.conds ∧
        errSet x pWDN 10 = true ∧ ∀ n, n < 4 → out x n) ∧
      (w.state ≠ .selfFault → ∃ x, RunsTo (.profileCrcCheck d false) s d x ∧ x.wdn.state = .selfFault ∧ x.wdn.cmd = w.cmd ∧
        x.wdn.sst = w.sst ∧ errSet x pWDN 12 = true ∧ ∀ n, n < 4 → out x n)) ∧
    RunsTo (.profileCrcCheck d true) s d z ∧
    (wdnRuns z = false → RunsTo (.crosslinkTimeout d) s d z ∧ RunsTo (.clockCountWindow d) s d z ∧
      RunsTo (.profileCrcCheck d false) s d z) ∧
    (∀ v : BitVec 16,
      (w.state ≠ .active → RunsTo (.switchWordChange d v) s d { z with wdn := { w with switches := v.toNat } }) ∧
      (w.state = .active → v.toNat = w.word → RunsTo (.switchWordChange d v) s d { z with wdn := { w with switches := v.toNat } }) ∧
      (w.state = .active → v.toNat ≠ w.word → Runs (.switchWordChange d v) s (fun t => ∀ e n, n < 4 →
        (s.die e).wdn.state = .active → (zone (s.die e).wdn n).state ≠ .unused →
        (zone (t.die e).wdn n).state = .kickstand ∧ errSet (t.die e) pWDN 11 = true))) ∧
    (∀ mask : BitVec 4,
      (∃ x, RunsTo (.wdnCmdStop d mask) s d x ∧ x.wdn.hostStop = w.hostStop ||| mask.toNat ∧ ∀ n, n < 4 →
        (tst mask.toNat n = true → (zone w n).state = .run ∨ (zone w n).state = .freewheel → (zone x.wdn n).state = .brake) ∧
        ((tst mask.toNat n = false ∨ ((zone w n).state ≠ .run ∧ (zone w n).state ≠ .freewheel)) → zone x.wdn n = zone w n)) ∧
      RunsTo (.wdnCmdRelease d mask) s d { z with wdn := { w with hostStop := w.hostStop &&& (0xF ^^^ mask.toNat) } })

/-- Reset, start-up, ticks, watchdogs and the encoder of a Warden channel: the second channel's acceptance of a reset pulse
within 500 ms acts on both, KICKSTAND going no further than BRAKE and only with every cause gone; start-up ends ACTIVE with
the used zones in BRAKE, or in a configuration or self fault; a lost tick and an expired stage take inference away from
their zones; FREEWHEEL ends in BRAKE; an edge moves the quadrature count.
Readings and choices of the model in it: log entries 5, 137. -/
def Obligations.WardenResetStartUpAndWatchdogs : Prop :=
  ∀ (s : State) (d : DieId),
    let z := s.die d
    let w := z.wdn
    let p := s.die d.other
    (wdnRuns z = true →
      ((∀ t, p.wdn.resetAt = some t → 500000000 < p.tim.up - t) → RunsTo (.wdnReset d) s d
        { z with wdn := { w with resetAt := some z.tim.up } }) ∧
      (∀ t, p.wdn.resetAt = some t → p.tim.up - t ≤ 500000000 → Runs (.wdnReset d) s (fun t => ∀ e,
        (t.die e).wdn.resetAt = none ∧ ∀ n, n < 4 → n < (s.die e).wdn.zones.length →
          let old := zone (s.die e).wdn n
          let new := zone (t.die e).wdn n
          (old.state = .brake → new = { old with resetOk := true }) ∧
          (old.state = .kickstand → causesGone (s.die e).wdn n = true → new = { old with state := .brake, resetOk := false }) ∧
          (old.state = .kickstand → causesGone (s.die e).wdn n = false → new = old) ∧
          (old.state ≠ .brake → old.state ≠ .kickstand → new = old))) ∧
      (∃ x, RunsTo (.tickLoss d) s d x ∧ x.wdn.tickOk = false ∧ errSet x pWDN 8 = true ∧
        (∀ e ∈ x.wdn.watches, e.2.expired = true ∧ e.2.passes = 0) ∧
        ∀ n, n < 4 → watchesOf w n ≠ [] → (zone w n).state = .run → (zone x.wdn n).state = .freewheel ∨
          (zone x.wdn n).state = .brake) ∧
      (symIndex z ≠ w.sym → ∃ x, RunsTo (.symbolTick d) s d x ∧ x.tim = z.tim ∧ x.wdn.sym = symIndex z ∧ x.wdn.tickOk = true) ∧
      (symIndex z = w.sym → ∃ x, RunsTo (.symbolTick d) s d x ∧ x.tim = pass (toNextSymbol z.tim) z.tim ∧
        x.wdn.tickOk = true)) ∧
    (wdnRuns z = false → RunsTo (.wdnReset d) s d z ∧ RunsTo (.tickLoss d) s d z ∧ RunsTo (.symbolTick d) s d z) ∧
    (∀ (i : BitVec 4) (q : Watch), mget w.watches i.toNat = some q →
      (q.isOpen = true → ∃ x, RunsTo (.watchdogExpiry d i 1) s d x ∧ errSet x pWDN 7 = true ∧
        (∃ q', mget x.wdn.watches i.toNat = some q' ∧ q'.expired = true ∧ q'.passes = 0 ∧ q'.stage = 1) ∧
        ((zone w q.zone).state = .run → (zone x.wdn q.zone).state = .freewheel ∨ (zone x.wdn q.zone).state = .brake)) ∧
      (q.isOpen = false → ∀ st, RunsTo (.watchdogExpiry d i st) s d z)) ∧
    (∀ n : BitVec 2, n.toNat < w.zones.length →
      ∀ c k, (c, k) ∈ [(Instr.freewheelExpiry d n, 8), (.sentinelPermitStale d n, 9)] →
      ((zone w n.toNat).state = .freewheel → ∃ x, RunsTo c s d x ∧ zone x.wdn n.toNat =
        { zone w n.toNat with state := .brake, cause := k, index := n.toNat, resetOk := false }) ∧
      ((zone w n.toNat).state ≠ .freewheel → RunsTo c s d z)) ∧
    (wdnRuns z = true → w.state = .start →
      let word := (w.rx.map (fun f => f.word)).getD (65535 - w.word)
      (configOf z word p.wdn.table = none → ∀ ok, ∃ x, RunsTo (.wardenStartUpDone d ok) s d x ∧ x.wdn.state = .cfgFault ∧
        errSet x pWDN 11 = true) ∧
      (∀ b, configOf z word p.wdn.table = some b →
        (∀ ok, ok = false ∨ w.readback ≠ 0 →
          ∃ x, RunsTo (.wardenStartUpDone d ok) s d x ∧ x.wdn.state = .selfFault ∧ errSet x pWDN 12 = true) ∧
        (w.readback = 0 → ∃ x, RunsTo (.wardenStartUpDone d true) s d x ∧ x.wdn.state = .active ∧ x.wdn.profile = b ∧ x.wdn.cmd = w.cmd ∧
          ∀ n, n < 4 → (zoneUsed b n = false → (zone x.wdn n).state = .unused) ∧
            (zoneUsed b n = true → (zone x.wdn n).state = if edmClosed x.wdn n then .brake else .kickstand)))) ∧
    (w.state ≠ .start → ∀ ok, RunsTo (.wardenStartUpDone d ok) s d z) ∧
    (∀ a b c : Bool,
      (wdnRuns z = false → RunsTo (.encoderInputEdge d a b c) s d z) ∧
      (wdnRuns z = true → encUsed w = false → RunsTo (.encoderInputEdge d a b c) s d
        { z with wdn := { w with encA := a, encB := b, encZ := c } }) ∧
      (wdnRuns z = true → encUsed w = true → c = false →
        (a = w.encA ∨ b = w.encB → RunsTo (.encoderInputEdge d a b c) s d { z with wdn := { w with
          encA := a, encB := b, encZ := c, counts := w.counts + quadStep w.encA w.encB a b } }) ∧
        (a ≠ w.encA → b ≠ w.encB → ∃ x, RunsTo (.encoderInputEdge d a b c) s d x ∧ errSet x pWDN 3 = true ∧
          ∀ n ∈ encZones w, (zone x.wdn n).state = .kickstand)))

/-! ## Peloton -/

/-- A Peloton port: every message on a port that is down does nothing, and one that is not whole is discarded and raised. A
port that may carry a link comes up with DISC and ECHO, and its loss is raised; DISC names the neighbour, ECHO is answered,
and its answer gives the latency; a newer TOPO is kept. Forming begins the next epoch, and its quiet end gives the ids by
rank of the digests.
Readings and choices of the model in it: log entries 143, 147. -/
def Obligations.PelotonPortsAndFormation : Prop :=
  ∀ (s : State) (d : DieId) (port : BitVec 2) (m : PelMsg) (y : Die),
    let z := s.die d
    let p := port.toNat
    (∀ k c, PelotonMessage d port m k c →
      ((pelPort z p).up = false ∨ pelServes z p = false → RunsTo c s d z) ∧
      ((pelPort z p).up = true → pelServes z p = true → pelWhole k m = false → ∃ x, RunsTo c s d x ∧ x.pel = z.pel ∧
        errSet x (pelPage p) 1 = true)) ∧
    (pelServes z p = true → p < z.pel.ports.length → (pelPort z p).up = false → ∃ x, RunsTo (.pelLinkChange d port true) s d x ∧
      (pelPort x p).up = true ∧ (pelPort x p).nbr = none ∧ (pelPort x p).echo ≠ none) ∧
    ((pelPort z p).up = true → p < 3 → ∃ x, RunsTo (.pelLinkChange d port false) s d x ∧ (pelPort x p).up = false ∧
      (pelPort x p).nbr = none ∧ errSet x (pelPage p) 0 = true) ∧
    ((pelPort z p).up = true → ∃ x a b, RunsTo (.discTx d port) s d x ∧ x.out = .pel p b :: .pel p a :: z.out ∧
      byteAt a 0 = 1 ∧ byteAt b 0 = 3 ∧ (pelPort x p).echo = some ((z.pel.seq + 1) % 2 ^ 32, z.tim.up)) ∧
    ((pelPort z p).up = false → RunsTo (.discTx d port) s d z) ∧
    (Delivered 1 p m z y → ∃ x, RunsTo (.disc d port m) s d x ∧
      (pelPort x p).nbr = some (slice m.body 0 32, byteAt m.body 32) ∧ (pelPort x p).up = true) ∧
    (Delivered 3 p m z y → ∃ x b, RunsTo (.pelotonEcho d port m) s d x ∧ x.out = .pel p b :: z.out ∧ byteAt b 0 = 4 ∧
      x.pel.ports = z.pel.ports) ∧
    (∀ k t, Delivered 4 p m z y → (pelPort z p).echo = some (k, t) →
      (u32At m.body 0 = k → ∃ x, RunsTo (.echoReply d port m) s d x ∧ (pelPort x p).echo = none ∧
        (pelPort x p).latency = min 4095 (((z.tim.up - t) * 11 + 5) / 10)) ∧
      (u32At m.body 0 ≠ k → RunsTo (.echoReply d port m) s d y)) ∧
    (Delivered 2 p m z y → m.epoch ≠ 0 → (readTopo m.body).digest ≠ z.key.device →
      let old := z.pel.topo.find? (fun o => o.digest == (readTopo m.body).digest)
      ((∀ o, old = some o → o.version < (readTopo m.body).version) → ∃ x, RunsTo (.topo d port m) s d x ∧
        x.pel.topo = readTopo m.body :: z.pel.topo.filter (fun o => o.digest != (readTopo m.body).digest)) ∧
      ((∃ o, old = some o ∧ (readTopo m.body).version ≤ o.version) → RunsTo (.topo d port m) s d y)) ∧
    (∃ x, RunsTo (.pelCmdForm d) s d x ∧ x.pel.epoch = (z.pel.epoch + 1) % 2 ^ 32 ∧ x.pel.forming = true ∧ x.pel.ids = [] ∧
      ∀ g, g < 16 → (pelGate z g).state = 1 → (pelGate x g).state = 3) ∧
    (z.pel.forming = true → ∃ x, RunsTo (.formationQuiet d) s d x ∧ x.pel.forming = false ∧
      x.pel.ids = ((z.pel.topo.map (fun t => t.digest)).mergeSort (fun a b => beVal a ≤ beVal b)).take 128 ∧
      (128 < z.pel.topo.length → errSet x pPEL 2 = true)) ∧
    (z.pel.forming = false → RunsTo (.formationQuiet d) s d z)

/-- Gates: a member that is not the root waits in the next round and sends its arrival; the root notes each arrival and, at
the last of its members, begins the countdown; a release gives a member its own countdown, at whose end it is released with
the slot captured and reported; an abort, and a timeout at the root, end the round and are raised.
Readings and choices of the model in it: log entries 142, 144, 145, 146. -/
def Obligations.GatesArriveAndRelease : Prop :=
  ∀ (s : State) (d : DieId) (port : BitVec 2) (gate : BitVec 4) (m : PelMsg) (y : Die),
    let z := s.die d
    let p := port.toNat
    let g := gate.toNat
    let q := pelGate z g
    let h := byteAt m.body 0
    z.pel.gates.length = 16 →
    (∀ me root, ownId z = some me → (gateMembers z g).head? = some root → root ≠ me → gateOn z g = true →
      me ∈ gateMembers z g → ¬(q.state = 1 ∧ q.own = true) → ∃ x, RunsTo (.pelGateCmdArrive d gate) s d x ∧
        (pelGate x g).state = 1 ∧ (pelGate x g).own = true ∧ (pelGate x g).endsAt = none ∧
        (pelGate x g).round = (if q.state = 1 then q.round else (q.round + 1) % 256)) ∧
    (gateOn z g = false → RunsTo (.pelGateCmdArrive d gate) s d z) ∧
    (∀ me, Delivered 5 p m z y → ownId z = some me → (gateMembers z h).head? = some me → gateOn z h = true → h < 16 →
      (pelGate z h).state = 1 → (pelGate z h).round = byteAt m.body 1 → (pelGate z h).endsAt = none →
      m.src.toNat ∈ gateMembers z h → (∀ k ∈ gateMembers z h, k ≠ me → routeTo z k ≠ none) →
      ∃ x, RunsTo (.gateArrive d port m) s d x ∧ m.src.toNat ∈ (pelGate x h).arrived ∧ (pelGate x h).state = 1 ∧
        ((∃ k ∈ gateMembers z h, k ≠ m.src.toNat ∧ k ∉ (pelGate z h).arrived) → (pelGate x h).endsAt = none) ∧
        ((∀ k ∈ gateMembers z h, k = m.src.toNat ∨ k ∈ (pelGate z h).arrived) → (pelGate x h).endsAt ≠ none)) ∧
    (∀ me, Delivered 6 p m z y → ownId z = some me → me ∈ maskIds (slice m.body 8 16) → gateOn z h = true → h < 16 →
      ∃ x, RunsTo (.gateRelease d port m) s d x ∧ (pelGate x h).state = 1 ∧ (pelGate x h).round = byteAt m.body 1 ∧
        (pelGate x h).endsAt = some (z.tim.up + cyclesNs (u32At m.body 4 - (pelPort z p).latency))) ∧
    (∀ t, q.endsAt = some t → ∃ x, RunsTo (.gateCountdownExpiry d gate) s d x ∧ (pelGate x g).state = 2 ∧
      (pelGate x g).endsAt = none ∧ (pelGate x g).own = false ∧ (pelGate x g).arrived = [] ∧
      (pelGate x g).capSlot = slotCountOf (pass (t - z.tim.up) z.tim) ∧ x.tim.up = max t z.tim.up) ∧
    (q.endsAt = none → RunsTo (.gateCountdownExpiry d gate) s d z) ∧
    (Delivered 7 p m z y → (gateOn z h = true → h < 16 → ∃ x, RunsTo (.gateAbort d port m) s d x ∧ (pelGate x h).state = 3 ∧
        (pelGate x h).round = byteAt m.body 1 ∧ errSet x pPEL 4 = true) ∧
      (gateOn z h = false → RunsTo (.gateAbort d port m) s d y)) ∧
    (∀ me, ownId z = some me → (gateMembers z g).head? = some me → q.state = 1 → q.endsAt = none →
      ∃ x, RunsTo (.gateTimeout d gate) s d x ∧ (pelGate x g).state = 3 ∧ errSet x pPEL 4 = true) ∧
    (q.state ≠ 1 ∨ q.endsAt ≠ none → RunsTo (.gateTimeout d gate) s d z)

/-- Chains: an entry whose channel and peers are right is loaded, and another refused; entries are read, cleared, and moved
to their standby peer at a slot boundary on command; a peer's CHAIN_OPEN gives a link its keys, a right CHAIN_AUTH opens it
and a wrong one is raised; a tagged message under an open link's key keeps the link up and a BOUNDARY stores its digest, and
one with a wrong tag is counted and raised; CHAIN_ALIVE goes out, in every state, tagged
on each open link of an entry, and changes no entry; a silent link goes down.
Readings and choices of the model in it: log entries 148, 149, 150, 152. -/
def Obligations.ChainsOfAShardedModel : Prop :=
  ∀ (s : State) (d : DieId) (port : BitVec 2) (entry : BitVec 4) (m : PelMsg) (y : Die),
    let z := s.die d
    let p := port.toNat
    let e := entry.toNat
    let b := patch (chainBuf z) 4 [BitVec.ofNat 8 (byteAt (chainBuf z) 4 % 2)]
    let q := chan z (u16At b 0 % 32768)
    let right := byteAt b 2 < byteAt b 3 ∧ byteAt b 3 ≤ 64 ∧ (byteAt b 2 = 0 ↔ peerAt b 8 = none) ∧
      (byteAt b 2 + 1 = byteAt b 3 ↔ peerAt b 40 = none)
    (chanLive q = true → q.host.kind = 1 → right → ∃ x c, RunsTo (.pelChainCmdLoad d entry) s d x ∧ x.pel.result = 0 ∧
      mget x.pel.chains e = some c ∧ c.bytes = b ∧ c.prev.map (fun l => l.peer) = peerAt b 8 ∧
      c.next.map (fun l => l.peer) = peerAt b 40 ∧ c.digests = []) ∧
    (chanLive q = false ∨ q.host.kind ≠ 1 →
      RunsTo (.pelChainCmdLoad d entry) s d { z with pel := { z.pel with result := 32 } }) ∧
    (chanLive q = true → q.host.kind = 1 → ¬right →
      RunsTo (.pelChainCmdLoad d entry) s d { z with pel := { z.pel with result := 2 } }) ∧
    (mget z.pel.chains e = none → ∀ c ∈ [Instr.pelChainCmdClear d entry, .pelChainCmdRead d entry,
        .pelChainCmdSwitchPrev d entry, .pelChainCmdSwitchNext d entry],
      RunsTo c s d { z with pel := { z.pel with result := 32 } }) ∧
    (∃ x, RunsTo (.chainAliveTx d entry) s d x ∧ x.pel.chains = z.pel.chains ∧ x.chn = z.chn ∧ x.tim = z.tim ∧ x.phase = z.phase ∧
      (mget z.pel.chains e = none → x = z) ∧
      (∀ c l dst p h, mget z.pel.chains e = some c → c.prev = none → c.next = some l → l.isOpen = true →
        idOf z l.peer = some dst → routeTo z dst = some (p, h) → ∃ b, x.out = .pel p b :: z.out ∧ byteAt b 0 = 11 ∧
          slice b 16 2 = leBytes 2 (chainChan c) ∧ slice b 176 16 = fitTo 16 (pelTag l.key (b.take 176)))) ∧
    (mget z.pel.chains e = none → ∀ next, RunsTo (.chainTimeout d entry next) s d z) ∧
    (∀ c, mget z.pel.chains e = some c →
      (∃ x, RunsTo (.pelChainCmdClear d entry) s d x ∧ mget x.pel.chains e = none ∧ x.pel.result = 0) ∧
      (∃ x, RunsTo (.pelChainCmdRead d entry) s d x ∧ x.pel = { z.pel with result := 0 } ∧
        ∀ k, k < 40 → field x pPEL (0x100 + 4 * k) 0 = u32At c.bytes (4 * k)) ∧
      (∀ next i, (next, i) ∈ [(false, Instr.pelChainCmdSwitchPrev d entry), (true, .pelChainCmdSwitchNext d entry)] →
        (standby next c = none → RunsTo i s d { z with pel := { z.pel with result := 32 } }) ∧
        (standby next c ≠ none → ∃ x c', RunsTo i s d x ∧ x.pel.result = 1 ∧ mget x.pel.chains e = some c' ∧
          c' = (if next then { c with swNext := true } else { c with swPrev := true }))) ∧
      (∃ x, RunsTo (.chainAliveTx d entry) s d x ∧ x.pel.chains = z.pel.chains ∧
        ((∀ l, (c.prev = some l ∨ c.next = some l) → l.isOpen = false) → x = z)) ∧
      (∀ next l, chainLink next c = some l → ∃ x c' l', RunsTo (.chainTimeout d entry next) s d x ∧ errSet x pPEL 5 = true ∧
        mget x.pel.chains e = some c' ∧ chainLink next c' = some l' ∧ l'.isOpen = false ∧ l'.peer = l.peer ∧
        c'.bytes = c.bytes)) ∧
    (∀ peer, Delivered 8 p m z y → z.pel.ids[m.src.toNat]? = some peer →
      (linksTo z peer = [] ∨ (∃ l ∈ linksTo z peer, l.2.2.got = m.body) → RunsTo (.chainOpen d port m) s d y) ∧
      (∀ k c l, z.pel.chains = [(k, c)] → c.prev = none → c.next = some l → l.peer = peer → l.got = [] → l.sent ≠ [] →
        m.body ≠ [] → ∃ x c' l', RunsTo (.chainOpen d port m) s d x ∧ mget x.pel.chains k = some c' ∧ c'.next = some l' ∧
          l'.got = m.body ∧ l'.sent = l.sent ∧ l'.isOpen = l.isOpen ∧
          l'.t = h32 (if (ownId z).getD 0 ≤ (idOf z peer).getD 0 then l.sent ++ m.body else m.body ++ l.sent))) ∧
    (∀ peer k c l, Delivered 9 p m z y → z.pel.ids[m.src.toNat]? = some peer → z.pel.chains = [(k, c)] → c.prev = none →
      c.next = some l → l.peer = peer → l.isOpen = false → l.t ≠ [] →
      let good := h32 (slice l.got 56 57) = peer ∧
        edVerify (slice l.got 56 57) (ascii "HW2240 peloton") l.t (m.body.take 114) = true
      (good → ∃ x c', RunsTo (.chainAuth d port m) s d x ∧ mget x.pel.chains k = some c' ∧
        c'.next = some { l with isOpen := true, last := z.tim.up }) ∧
      (¬good → ∃ x, RunsTo (.chainAuth d port m) s d x ∧ x.pel = z.pel ∧ errSet x pPEL 6 = true)) ∧
    (∀ k c, (k, c) ∈ [(10, Instr.boundary d port m), (11, .chainAlive d port m)] → Delivered k p m z y →
      tagLink k m z = none → ∃ x, RunsTo c s d x ∧ x.pel = z.pel ∧ errSet x pPEL 7 = true) ∧
    (∀ k c l, z.pel.chains = [(k, c)] → c.prev = some l →
      (Delivered 11 p m z y → tagLink 11 m z = some (k, false, l) → ∃ x c', RunsTo (.chainAlive d port m) s d x ∧
        mget x.pel.chains k = some c' ∧ c' = { c with prev := some { l with last := z.tim.up } }) ∧
      (Delivered 10 p m z y → tagLink 10 m z = some (k, false, l) → chainChan c = u16At m.body 0 →
        ∃ x c', RunsTo (.boundary d port m) s d x ∧ mget x.pel.chains k = some c' ∧
          c'.prev = some { l with last := z.tim.up } ∧
          c'.digests = storeDigest (u32At m.body 4) (byteAt m.body 9 % 2, slice m.body 16 32) c.digests))

/-! ## Rules stated whole -/

/-- Each listed page names its block and its instance in BLK_ID, by the codes of R466; the unlisted pages read as zero
everywhere; and the bit of FCU_SRC that a page's unmasked event sets is the page's number. -/
def Obligations.PagesIdentifyThemselves : Prop :=
  ∀ (peer d : Die),
    (∀ row ∈ ([(0x000, 1, 0x01), (0x001, 1, 0x02), (0x002, 1, 0x03), (0x003, 1, 0x04), (0x004, 1, 0x05), (0x005, 4, 0x06),
        (0x010, 6, 0x07), (0x018, 1, 0x08), (0x019, 1, 0x09), (0x01A, 1, 0x0A), (0x01B, 1, 0x0B), (0x01C, 1, 0x0C),
        (0x01D, 1, 0x0D), (0x01E, 1, 0x0E), (0x01F, 1, 0x0F), (0x020, 1, 0x10), (0x021, 1, 0x11), (0x022, 2, 0x12),
        (0x024, 1, 0x13), (0x025, 3, 0x14), (0x028, 1, 0x15), (0x029, 1, 0x16), (0x02A, 1, 0x17), (0x02B, 1, 0x18),
        (0x030, 2, 0x19), (0x03F, 1, 0x1A)] : List (Nat × Nat × Nat)),
      ∀ k, k < row.2.1 →
        (pageDark d (row.1 + k) = false → ∃ v, regRead peer ((row.1 + k) * 4096) d = (v, d) ∧ v % 256 = row.2.2 ∧
          v / 256 % 16 = k) ∧
        (pageDark d (row.1 + k) = true → row.2.2 = 0x07 ∧ (d.vp.pipes[k]?).map (fun p => p.enabled) ≠ some true ∨
          row.2.2 = 0x1A ∧ debugOpen d = false)) ∧
    (∀ page off, 0x009 ≤ page ∧ page ≤ 0x00F ∨ page = 0x016 ∨ page = 0x017 ∨ 0x02C ≤ page ∧ page ≤ 0x02F ∨
        0x032 ≤ page ∧ page ≤ 0x03E → off < 4096 → regRead peer (page * 4096 + off) d = (0, d)) ∧
    (∀ (s : State) (i : DieId) (e : ErrEvent), e ∈ (s.die i).fcu.pend → tst (errPage (s.die i) e.page).mask e.bit = false →
      e.page < 64 → ∃ x, RunsTo (.fcuSourceLatch i) s i x ∧
        tst ((regRead peer 0x001040 x).1 + 4294967296 * (regRead peer 0x001044 x).1) e.page = true)

/-- The first accepted frame after a stream's enabling sets the expected counter, whatever its own is. After that the signed
32-bit distance d of the frame's counter from the expected one decides: 0 is in order, a positive d is accepted with d
missing frames counted and the gap bit set, a negative d is stale. The 8-bit counter of an eCPRI frame is first extended
past the expected one, by at most 127. Only an accepted frame sets the expected counter, to its own plus one. -/
def Obligations.FrameCountersDecide : Prop :=
  ∀ (s : State) (d : DieId) (port : Bool) (f : EthFrame) (c : Instr) (k : Nat) (t : TapFrame),
    c = .sensorEnvelope d port f ∨ c = .ecpriIqData d port f →
    let z := s.die d
    let p := b2n port
    let key := frameKey (ethBody f.bytes)
    let st := stream z k
    let aged := ∀ a, t.capture = some a → z.tim.ptp = .locked →
      -(1000 * (strm z k 0x060 16 : Int)) ≤ (z.tim.ns : Int) - (a : Int) ∧
        (z.tim.ns : Int) - (a : Int) ≤ 1000 * (strm z k 0x060 0 : Int)
    let missing := fun q : Die => mgetD q.regs.cnt (wkey (ingPage p) 0x0A4) 0
    let taken := fun (n : Nat) (gap : Nat) => ∃ x, RunsTo c s d x ∧ (stream x k).expected = (n + 1) % 4294967296 ∧
      (stream x k).primed = true ∧ (∀ j, j ≠ k → (stream x j).expected = (stream z j).expected) ∧
      (gap = 0 → missing x = missing z ∧ errSet x (ingPage p) 5 = errSet z (ingPage p) 5) ∧
      (0 < gap → missing x = min 4294967295 (missing z + gap) ∧ errSet x (ingPage p) 5 = true)
    let stale := ∃ x, RunsTo c s d x ∧ x.ing = z.ing ∧ errSet x (ingPage p) 4 = true
    (∀ was, k < 16 → streamOn z k = true → streamOn was k = false → (stream (resetStreams was z) k).primed = false) ∧
    (portUp z p = true → f.fcsOk = true → macTakes z p f.bytes = true → matchStream z p key = some k →
      (if key.1 = 1 then readEnvelope z p k (ethBody f.bytes).body else readEcpri (ethBody f.bytes).body) = some t →
      t.crcOk = true →
      (st.primed = false → aged → taken t.counter 0) ∧
      (st.primed = true → key.1 = 1 →
        let gap := (BitVec.ofNat 32 t.counter - BitVec.ofNat 32 st.expected).toInt
        (0 ≤ gap → aged → taken t.counter gap.toNat) ∧ (gap < 0 → stale)) ∧
      (st.primed = true → key.1 = 2 →
        let gap := ((t.counter : Int) - (st.expected : Int) % 256) % 256
        (gap < 128 → aged → taken (st.expected + gap.toNat) gap.toNat) ∧ (128 ≤ gap → stale)) ∧
      (¬aged → ∃ x, RunsTo c s d x ∧ x.ing = z.ing))

/-! ## Commands that always complete -/

/-- COMMIT_POINT completes at every commit point of a window: where the copies of the group agree, each of its batches that is
done and not coupled has its verdict and gives its ticket back, and each other waits for its verdict until it is done; where they
do not agree, no batch commits, and at a first mismatch each that was done is to run again. At any other time nothing happens. -/
def Claim.CommitPointCompletes : Prop :=
  ∀ (s : State) (d : DieId) (i : BitVec 13) (pts : List PointFault),
    let z := s.die d
    (entryAt z i.toNat = none → RunsTo (.commitPoint d ⟨i, pts⟩) s d z) ∧
    (∀ e, entryAt z i.toNat = some e → e.kind ≠ 2 ∨ windowAt z e e.commit = none → RunsTo (.commitPoint d ⟨i, pts⟩) s d z) ∧
    (∀ e t, entryAt z i.toNat = some e → e.kind = 2 → windowAt z e e.commit = some t →
      (z.chn.tickets.map (fun b => b.serial)).Nodup →
      let y := toCycle ((e.start + e.commit) % slotCycles z.tim.mu) z
      let bs := windowTickets y e t
      let ready := (bs.filter (mayCommit y)).map (fun b => b.serial)
      let w := comparePoints (pipe y e.group).lead ready pts
        (bs.foldl (fun d b => modTicket b.serial (fun b => { b with due := true }) d) y)
      ∃ x, RunsTo (.commitPoint d ⟨i, pts⟩) s d x ∧ x.phase = z.phase ∧ x.which = z.which ∧
        (w.2 = true → ∀ b ∈ bs, (mayCommit y b = true → ticket x b.serial = none) ∧
          (mayCommit y b = false → ticket x b.serial = some { b with due := true })) ∧
        (w.2 = false → x.chn.tickets = w.1.chn.tickets ∧
          ∀ cls, pts = [.differs cls] → (pipe y (pipe y e.group).lead).mismatchAt = none → ∀ b ∈ bs, mayCommit y b = true →
            ticket x b.serial = some (restartBatch { b with due := true })))

/-- VERDICT_TIME completes at every verdict time of a window: each batch of the window that has no verdict yet gets one and
gives its ticket back, whether or not the copies of the group agree. At any other time nothing happens. -/
def Claim.VerdictTimeCompletes : Prop :=
  ∀ (s : State) (d : DieId) (i : BitVec 13) (pts : List PointFault),
    let z := s.die d
    (entryAt z i.toNat = none → RunsTo (.verdictTime d ⟨i, pts⟩) s d z) ∧
    (∀ e, entryAt z i.toNat = some e → e.kind ≠ 2 ∨ windowAt z e e.verdict = none → RunsTo (.verdictTime d ⟨i, pts⟩) s d z) ∧
    (∀ e t, entryAt z i.toNat = some e → e.kind = 2 → windowAt z e e.verdict = some t →
      (z.chn.tickets.map (fun b => b.serial)).Nodup →
      ∃ x, RunsTo (.verdictTime d ⟨i, pts⟩) s d x ∧ x.phase = z.phase ∧ x.which = z.which ∧
        ∀ b ∈ windowTickets (toCycle ((e.start + e.verdict) % slotCycles z.tim.mu) z) e t, ticket x b.serial = none)

/-- RADIO_SLOT_LATE completes: on a channel that is no open radio channel nothing happens; on one that is, where the copies agree,
each batch of the slot gets its verdict and gives its ticket back, every other ticket stays, and a slot that still owes one counts as written. -/
def Claim.RadioSlotLateCompletes : Prop :=
  ∀ (s : State) (d : DieId) (c : BitVec 15) (pts : List PointFault) (slot : Word),
    let z := s.die d
    let q := chan z c.toNat
    (q.state ≠ .opened ∨ q.host.kind ≠ 2 → RunsTo (.radioSlotLate d ⟨c, pts⟩ slot) s d z) ∧
    (∃ x, RunsTo (.radioSlotLate d ⟨c, pts⟩ slot) s d x ∧ x.phase = z.phase ∧ x.which = z.which) ∧
    (q.state = .opened → q.host.kind = 2 → (z.chn.tickets.map (fun b => b.serial)).Nodup →
      (∀ b ∈ z.chn.tickets, b.serial < z.chn.serial) →
      ∃ x, RunsTo (.radioSlotLate d ⟨c, []⟩ slot) s d x ∧
        (∀ b ∈ z.chn.tickets, b.channel = c.toNat → b.first = some slot.toNat → ticket x b.serial = none) ∧
        (∀ b ∈ z.chn.tickets, b.channel ≠ c.toNat ∨ b.first ≠ some slot.toNat → ticket x b.serial = some b) ∧
        ((∀ b ∈ z.chn.tickets, b.channel = c.toNat → b.first ≠ some slot.toNat) → slotOwed z c.toNat slot.toNat = true →
          c.toNat ∈ z.chn.tab.map (fun e => e.1) → slotWritten (chan x c.toNat) slot.toNat = true))

/-- DECLARE_CUTOFF completes: on a coupled channel the first batch in a window that has not declared does, once, with what the
die has found where its checks have ended and as LATE 17 where they have not, and the message leaves over Spoke; otherwise
nothing happens. -/
def Claim.DeclareCutoffCompletes : Prop :=
  ∀ (s : State) (d : DieId) (c : BitVec 15),
    let z := s.die d
    let next := (chanTickets z c.toNat).find? (fun b => b.window.isSome && b.decl.isNone)
    ((chan z c.toNat).coupled = false ∨ next = none → RunsTo (.declareCutoff d c) s d z) ∧
    (∀ b, (chan z c.toNat).coupled = true → next = some b → (z.chn.tickets.map (fun b => b.serial)).Nodup →
      let v := if b.done then ownDecl z b else { ownDecl z b with verdict := 3, cause := 17 }
      ∃ x, RunsTo (.declareCutoff d c) s d x ∧ ticket x b.serial = some { b with decl := some v } ∧
        (∀ n, n ≠ b.serial → ticket x n = ticket z n) ∧ x.phase = z.phase ∧ x.chn.tab = z.chn.tab ∧
        ∃ m, x.out = .spoke m :: z.out)

/-- WARDEN_CYCLE completes in every state of the channel: a channel that is down or held does nothing; a running one counts the
cycle, takes what it samples, and has its frame to send. -/
def Claim.WardenCycleCompletes : Prop :=
  ∀ (s : State) (d : DieId) (smp : WdnSample),
    let z := s.die d
    (wdnRuns z = false → RunsTo (.wardenCycle d smp) s d z) ∧
    (wdnRuns z = true → ∃ x, RunsTo (.wardenCycle d smp) s d x ∧ x.wdn.cycle = z.wdn.cycle + 1 ∧
      x.wdn.readback = smp.readback.toNat ∧ x.wdn.switches = smp.switches.toNat ∧ x.wdn.events = [] ∧ x.wdn.tx.isSome = true ∧
      (z.wdn.state ≠ .active → ∀ o, o < 4 → tst x.wdn.cmd o = false) ∧ x.phase = z.phase ∧ x.which = z.which)

/-- WRITE completes: a frame of address and value pairs that the session's role may write, all in the die's space, is the
register writes in the frame's order, and the session has its RESULT. -/
def Claim.WriteCompletes : Prop :=
  ∀ (s : State) (d : DieId) (f : PFrame) (x : Session) (y : Die) (ps : List (Word × Word)),
    Accepted 0x11 f (s.die d) x y → x.role ≠ 2 → ps.length ≤ 64 →
    f.payload = ps.flatMap (fun p => leBytes 4 p.1.toNat ++ leBytes 4 p.2.toNat) →
    (∀ p ∈ ps, inSpace y p.1.toNat = true ∧ mayWrite y x.role (p.1.toNat - dieBase y) = true) →
    (y.vp.pending = true → ∀ p ∈ ps, isCreate (p.1.toNat - dieBase y) p.2.toNat = false) →
    exec (.write d f) s = .next (onDie d (resultWrite x f y.hst.linkUp)
      (ps.foldl (fun s p => regWrite d (p.1.toNat - dieBase y) p.2 s) (s.setDie d y)))

/-! ## Claims that belong together -/

/-- All of the claims `Claim.ResetPulseByItsLength`, `Claim.RailEvents`, `Claim.SysclkOutOfRangeAndBack`,
`Claim.RefclkLossAndReturn`. Readings and choices of the model in it: log entries 16, 17, 18, 19, 20, 21. -/
def Obligations.ResetRailsAndClocks : Prop := Claim.ResetPulseByItsLength ∧ Claim.RailEvents ∧ Claim.SysclkOutOfRangeAndBack ∧ Claim.RefclkLossAndReturn

/-- All of the claims `Claim.ResetReleaseStartsThaw`, `Claim.ThawEndsInSpringOrFails`, `Claim.AutumnEndsInSpringOrHolds`.
Readings and choices of the model in it: log entries 22, 33. -/
def Obligations.BootAndAutumnEnd : Prop := Claim.ResetReleaseStartsThaw ∧ Claim.ThawEndsInSpringOrFails ∧ Claim.AutumnEndsInSpringOrHolds

/-- Both of the claims `Claim.SourceLatchTakesUnmaskedEvents`, `Claim.FaultPinForms`. Readings and choices of the model in
it: log entries 8, 38. -/
def Obligations.FaultUnitAndPin : Prop := Claim.SourceLatchTakesUnmaskedEvents ∧ Claim.FaultPinForms

/-- Both of the claims `Claim.ClearingAndForcingErrorBits`, `Claim.StallsAndTemperatures`. Readings and choices of the
model in it: log entries 36, 39, 190. -/
def Obligations.ErrorBitsStallsAndTemperatures : Prop := Claim.ClearingAndForcingErrorBits ∧ Claim.StallsAndTemperatures

/-- Both of the claims `Claim.BlockEnableWrites`, `Claim.StrictModeIsStaged`. Readings and choices of the model in it: log
entries 159, 160, 161. -/
def Obligations.BlockEnablesAndStrictMode : Prop := Claim.BlockEnableWrites ∧ Claim.StrictModeIsStaged

/-- Both of the claims `Claim.ScrubReadsTrackRows`, `Claim.UncorrectableWordsByRegion`. Readings and choices of the model
in it: log entries 41, 42, 43, 45. -/
def Obligations.ScrubAndUncorrectableWords : Prop := Claim.ScrubReadsTrackRows ∧ Claim.UncorrectableWordsByRegion

/-- Both of the claims `Claim.RowsAreRewrittenAndSpared`, `Claim.ExtensionRecordsInOrder`. Readings and choices of the
model in it: log entries 29, 44. -/
def Obligations.RowsSparesAndExtensions : Prop := Claim.RowsAreRewrittenAndSpared ∧ Claim.ExtensionRecordsInOrder

/-- Both of the claims `Claim.LinkTrainingStates`, `Claim.LinkRestoreAndRetire`. Readings and choices of the model in it:
log entries 4, 54, 191. -/
def Obligations.LinkTrainsAndRestores : Prop := Claim.LinkTrainingStates ∧ Claim.LinkRestoreAndRetire

/-- Both of the claims `Claim.LinkRetrains`, `Claim.LinkResyncKeepsReplay`. Readings and choices of the model in it: log
entries 50, 51. -/
def Obligations.LinkRetrainsAndResyncs : Prop := Claim.LinkRetrains ∧ Claim.LinkResyncKeepsReplay

/-- Both of the claims `Claim.FlitsArrive`, `Claim.HelloBringsTheLinkUp`. Readings and choices of the model in it: log
entries 46, 47, 48, 49, 192, 193. -/
def Obligations.FlitsArriveAndHello : Prop := Claim.FlitsArrive ∧ Claim.HelloBringsTheLinkUp

/-- Both of the claims `Claim.FlitsLeave`, `Claim.OwedBumpsGoDownstream`. Readings and choices of the model in it: log
entry 53. -/
def Obligations.FlitsAndBumpsLeave : Prop := Claim.FlitsLeave ∧ Claim.OwedBumpsGoDownstream

/-- Both of the claims `Claim.DepartingAndUnknownRecords`, `Claim.WaitingRecordsAreTriedAgain`. Readings and choices of
the model in it: log entries 58, 60. -/
def Obligations.RecordsWithoutABatch : Prop := Claim.DepartingAndUnknownRecords ∧ Claim.WaitingRecordsAreTriedAgain

/-- Both of the claims `Claim.DebugIsLockedAndUnlocked`, `Claim.OwnerFlashAndSubscription`. Readings and choices of the
model in it: log entries 40, 110, 176, 179, 181. -/
def Obligations.DebugOwnerFlashAndSubscription : Prop := Claim.DebugIsLockedAndUnlocked ∧ Claim.OwnerFlashAndSubscription

/-- Both of the claims `Claim.AdmitWithdrawAndTurn`, `Claim.CoupledAdmissionsAndTurns`. Readings and choices of the model
in it: log entries 72, 73, 74, 172, 195. -/
def Obligations.AdmissionsWithdrawalsAndTurns : Prop := Claim.AdmitWithdrawAndTurn ∧ Claim.CoupledAdmissionsAndTurns

/-- Both of the claims `Claim.RpmbWritesInOrder`, `Claim.WeightStreamsAndMonthTurns`. Readings and choices of the model in
it: log entry 75. -/
def Obligations.RpmbWritesAndWeightStreams : Prop := Claim.RpmbWritesInOrder ∧ Claim.WeightStreamsAndMonthTurns

/-- All of the claims `Claim.CoreInstructionsWriteTheirRegister`, `Claim.CoreTransfersAndWaits`,
`Claim.DoneEndsTheProgram`, `Claim.MismatchHoldsTheInstruction`. Readings and choices of the model in it: log entries
82, 83, 84, 85, 198. -/
def Obligations.CoreInstructions : Prop := Claim.CoreInstructionsWriteTheirRegister ∧ Claim.CoreTransfersAndWaits ∧ Claim.DoneEndsTheProgram ∧ Claim.MismatchHoldsTheInstruction

/-- Both of the claims `Claim.VectorInstructionsWriteTheirBuffer`, `Claim.FastFormsAndRecordDigests`. Readings and choices
of the model in it: log entries 81, 82, 86. -/
def Obligations.VectorAndFastInstructions : Prop := Claim.VectorInstructionsWriteTheirBuffer ∧ Claim.FastFormsAndRecordDigests

/-- Both of the claims `Claim.KvappWritesTheLedgerRows`, `Claim.AttentionRunsTheSelectedHeads`. Readings and choices of
the model in it: log entries 81, 82, 89. -/
def Obligations.LedgerAndAttentionInstructions : Prop := Claim.KvappWritesTheLedgerRows ∧ Claim.AttentionRunsTheSelectedHeads

/-- Both of the claims `Claim.UnitsRetireAndAreTested`, `Claim.GroupsRetireAndResynchronise`. Readings and choices of the
model in it: log entries 79, 80. -/
def Obligations.UnitsAndGroupsInService : Prop := Claim.UnitsRetireAndAreTested ∧ Claim.GroupsRetireAndResynchronise

/-- All of the claims `Claim.CommitPointCompletes`, `Claim.VerdictTimeCompletes`, `Claim.RadioSlotLateCompletes`,
`Claim.DeclareCutoffCompletes`, `Claim.WardenCycleCompletes`, `Claim.WriteCompletes`. Readings and choices of the
model in it: log entries 68, 69, 96, 198. -/
def Obligations.TimedVerdictsAndWritesComplete : Prop := Claim.CommitPointCompletes ∧ Claim.VerdictTimeCompletes ∧ Claim.RadioSlotLateCompletes ∧ Claim.DeclareCutoffCompletes ∧ Claim.WardenCycleCompletes ∧ Claim.WriteCompletes

/-- Both of the claims `Claim.VerdictsAreCommitted`, `Claim.LateSlotsAndDeclarations`. Readings and choices of the model
in it: log entries 68, 69, 96. -/
def Obligations.VerdictsLateSlotsAndDeclarations : Prop := Claim.VerdictsAreCommitted ∧ Claim.LateSlotsAndDeclarations

/-- Both of the claims `Claim.TimetableEntriesTakeEffect`, `Claim.CadCommands`. Readings and choices of the model in it:
log entries 91, 95, 101. -/
def Obligations.TimetableEntriesAndCadCommands : Prop := Claim.TimetableEntriesTakeEffect ∧ Claim.CadCommands

/-- Both of the claims `Claim.SealPeriodsEndAndAreSigned`, `Claim.SealCommandsAndImageHash`. Readings and choices of the
model in it: log entries 97, 99. -/
def Obligations.SealsAndImageHashes : Prop := Claim.SealPeriodsEndAndAreSigned ∧ Claim.SealCommandsAndImageHash

/-- Both of the claims `Claim.ChannelCommandsByState`, `Claim.ChannelReadSaveRestoreAndRing`. Readings and choices of the
model in it: log entries 107, 108. -/
def Obligations.ChannelCommands : Prop := Claim.ChannelCommandsByState ∧ Claim.ChannelReadSaveRestoreAndRing

/-- Both of the claims `Claim.AirTimeFollowsThePins`, `Claim.NsCounterAndTriggers`. Readings and choices of the model in
it: log entries 5, 122, 123. -/
def Obligations.TimeFollowsPinsAndTriggers : Prop := Claim.AirTimeFollowsThePins ∧ Claim.NsCounterAndTriggers

/-- Both of the claims `Claim.RatchetRegisters`, `Claim.SentinelImagesLoadAndUnload`. -/
def Obligations.RatchetsAndSentinelImages : Prop := Claim.RatchetRegisters ∧ Claim.SentinelImagesLoadAndUnload
end

