-- ==== Sys2Proof/Laws/Maps.lean ====
section
/-! SUPPORT. Laws of the sorted maps: what a key reads after a store, a removal or a change of every value. -/

namespace Sys2Proof.Machine

variable {α : Type}

@[simp] theorem mget_nil (k : Nat) : mget ([] : AMap α) k = none := rfl

theorem mget_mset (m : AMap α) (k j : Nat) (v : α) : mget (mset m k v) j = if j = k then some v else mget m j := by
  induction m with
  | nil => by_cases h : k = j <;> simp [mset, mget, h, eq_comm]
  | cons e r ih =>
    obtain ⟨a, w⟩ := e
    simp only [mset]
    split
    · by_cases h : j = k
      · simp [mget, h]
      · simp [mget, h, Ne.symm h]
    · split
      · subst_vars
        by_cases h : j = a
        · simp [mget, h]
        · simp [mget, h, Ne.symm h]
      · rename_i h1 h2
        simp only [mget, ih]
        by_cases h : j = k
        · subst h; simp [Ne.symm h2]
        · simp [h]

/-- A stored key reads as what was stored. -/
@[simp] theorem mget_mset_same (m : AMap α) (k : Nat) (v : α) : mget (mset m k v) k = some v := by simp [mget_mset]

/-- A store leaves every other key alone. -/
theorem mget_mset_other (m : AMap α) {k j : Nat} (h : j ≠ k) (v : α) : mget (mset m k v) j = mget m j := by
  simp [mget_mset, h]

@[simp] theorem mgetD_mset_same (m : AMap α) (k : Nat) (v d : α) : mgetD (mset m k v) k d = v := by simp [mgetD]

theorem mgetD_mset_other (m : AMap α) {k j : Nat} (h : j ≠ k) (v d : α) : mgetD (mset m k v) j d = mgetD m j d := by
  simp [mgetD, mget_mset_other m h]

/-- Storing under a key does not show once the key is removed. -/
theorem mdel_mset (m : AMap α) (k : Nat) (v : α) : mdel (mset m k v) k = mdel m k := by
  induction m with
  | nil => simp [mset, mdel]
  | cons p r ih =>
    obtain ⟨k', v'⟩ := p
    simp only [mset]
    split
    · simp [mdel]
    · split
      · rename_i h; subst h; simp [mdel]
      · simp only [mdel, List.filter_cons] at ih ⊢
        rw [ih]

/-- A removed key reads as absent. -/
theorem mget_mdel (m : AMap α) (k j : Nat) : mget (mdel m k) j = if j = k then none else mget m j := by
  induction m with
  | nil => simp [mdel]
  | cons e r ih =>
    obtain ⟨a, w⟩ := e
    simp only [mdel, List.filter_cons] at ih ⊢
    by_cases h : a = k
    · subst h
      simp only [bne_self_eq_false, Bool.false_eq_true, if_false, ih, mget]
      split
      · rfl
      · rename_i hj; rw [if_neg (Ne.symm hj)]
    · simp only [bne_iff_ne, ne_eq, h, not_false_eq_true, if_true, mget, ih]
      split
      · subst_vars; simp [h]
      · rfl

@[simp] theorem mget_mmap (m : AMap α) (f : α → α) (k : Nat) : mget (mmap m f) k = (mget m k).map f := by
  induction m with
  | nil => rfl
  | cons e r ih =>
    simp only [mmap, List.map_cons, mget] at ih ⊢
    split
    · rfl
    · exact ih

/-- Changing the value under a key changes that key alone. -/
theorem mget_mmod (m : AMap α) (k j : Nat) (f : α → α) :
    mget (mmod m k f) j = if j = k then (mget m j).map f else mget m j := by
  induction m with
  | nil => simp [mmod]
  | cons e r ih =>
    obtain ⟨a, w⟩ := e
    simp only [mmod, List.map_cons] at ih ⊢
    by_cases h : a = k
    · subst h
      simp only [if_true, mget]
      split
      · subst_vars; simp
      · rename_i hj; rw [ih, if_neg (Ne.symm hj)]
    · simp only [h, if_false, mget]
      split
      · subst_vars; simp [h]
      · exact ih

end Sys2Proof.Machine
end

