-- ==== Sys2Proof/Laws/Ops.lean ====
section
/-! SUPPORT. Laws of the shared operations: what each of them can change, said once, and what it leaves. -/

namespace Sys2Proof.Machine

/-! ## Dies -/

@[simp] theorem State.die_setDie_same (s : State) (d : DieId) (x : Die) : (s.setDie d x).die d = x := by cases d <;> rfl

theorem State.die_setDie_other (s : State) {d e : DieId} (h : e ≠ d) (x : Die) : (s.setDie d x).die e = s.die e := by
  cases d <;> cases e <;> first | rfl | exact absurd rfl h

@[simp] theorem State.setDie_pkg (s : State) (d : DieId) (x : Die) : (s.setDie d x).pkg = s.pkg := by cases d <;> rfl

@[simp] theorem State.setDie_pending (s : State) (d : DieId) (x : Die) : (s.setDie d x).pending = s.pending := by
  cases d <;> rfl

@[simp] theorem onDie_die_same (d : DieId) (f : Die → Die) (s : State) : (onDie d f s).die d = f (s.die d) := by
  simp [onDie]

theorem onDie_die_other {d e : DieId} (h : e ≠ d) (f : Die → Die) (s : State) : (onDie d f s).die e = s.die e :=
  State.die_setDie_other s h _

@[simp] theorem onDie_pkg (d : DieId) (f : Die → Die) (s : State) : (onDie d f s).pkg = s.pkg := by simp [onDie]

@[simp] theorem onDie_pending (d : DieId) (f : Die → Die) (s : State) : (onDie d f s).pending = s.pending := by
  simp [onDie]

/-- A command of one die has a next state, in which only that die differs. -/
theorem runDie_eq (d : DieId) (f : Die → Die) (s : State) : runDie d f s = .next (s.setDie d (f (s.die d))) := rfl

/-! ## BLK_ERR -/

@[simp] theorem errPage_setErrPage (p : Nat) (e : ErrPage) (d : Die) : errPage (setErrPage p e d) p = e := by
  simp [errPage, setErrPage]

theorem errPage_setErrPage_other {p q : Nat} (h : q ≠ p) (e : ErrPage) (d : Die) :
    errPage (setErrPage p e d) q = errPage d q := by
  simp [errPage, setErrPage, mgetD_mset_other _ h]

/-- One event changes the error pages and FCU's list of events, and nothing else. -/
theorem raiseBit_parts (p : Nat) (forced : Bool) (d : Die) (b : Nat) :
    ∃ e l, raiseBit p forced d b = { d with errs := e, fcu := { d.fcu with pend := l } } := by
  unfold raiseBit
  dsimp only
  split
  · split
    · exact ⟨_, d.fcu.pend, rfl⟩
    · exact ⟨d.errs, d.fcu.pend, rfl⟩
  · exact ⟨_, _, rfl⟩

theorem foldl_raiseBit_parts (p : Nat) (forced : Bool) (bs : List Nat) (d : Die) :
    ∃ e l, bs.foldl (raiseBit p forced) d = { d with errs := e, fcu := { d.fcu with pend := l } } := by
  induction bs generalizing d with
  | nil => exact ⟨d.errs, d.fcu.pend, rfl⟩
  | cons b r ih =>
    obtain ⟨e, l, h⟩ := raiseBit_parts p forced d b
    obtain ⟨e', l', h'⟩ := ih (raiseBit p forced d b)
    exact ⟨e', l', by rw [List.foldl_cons, h', h]⟩

/-- Events on a page change the error pages and FCU's list of events, and nothing else. -/
theorem raiseAll_parts (p : Nat) (bs : List Nat) (forced : Bool) (d : Die) :
    ∃ e l, raiseAll p bs forced d = { d with errs := e, fcu := { d.fcu with pend := l } } := by
  unfold raiseAll
  split
  · exact ⟨d.errs, d.fcu.pend, rfl⟩
  · exact foldl_raiseBit_parts _ _ _ _

theorem raise_parts (p b : Nat) (d : Die) :
    ∃ e l, raise p b d = { d with errs := e, fcu := { d.fcu with pend := l } } := raiseAll_parts p [b] false d

/-- A real event on a bit that its page has sets the bit. -/
theorem errSet_raise (p b : Nat) (d : Die) (hp : pageAbsent d p = false) (hs : (sevOf p b).isSome = true) :
    errSet (raise p b d) p b = true := by
  have hr : rankBits p [b] = [b] := by simp [rankBits]
  simp only [raise, raiseAll, hp, Bool.false_eq_true, if_false, List.filter_cons, hs, if_true, List.filter_nil, hr,
    List.foldl_cons, List.foldl_nil, raiseBit]
  split
  · rename_i h
    split
    · simpa [errSet] using h
    · exact h
  · rename_i h
    have h' : (errPage d p).err.testBit b = false := by simpa [tst] using h
    have : ((errPage d p).err + 2 ^ b).testBit b = true := by
      rw [Nat.add_comm, Nat.testBit_two_pow_add_eq, h']; rfl
    split <;> simpa [errSet, errPage, setErrPage, tst] using this

/-! ## Counters, captures and fields -/

/-- Counting changes one counter of the register file. -/
theorem count_parts (p off : Nat) (d : Die) : ∃ c, count p off d = { d with regs := { d.regs with cnt := c } } := ⟨_, rfl⟩

theorem countN_parts (p off n : Nat) (d : Die) : ∃ c, countN p off n d = { d with regs := { d.regs with cnt := c } } :=
  ⟨_, rfl⟩

theorem peak_parts (p off v : Nat) (d : Die) : ∃ c, peak p off v d = { d with regs := { d.regs with cnt := c } } := ⟨_, rfl⟩

theorem setCap_parts (p off v : Nat) (d : Die) : ∃ c, setCap p off v d = { d with regs := { d.regs with cap := c } } :=
  ⟨_, rfl⟩

theorem setField_parts (sel p off lo v : Nat) (d : Die) :
    ∃ c, setField sel p off lo v d = { d with regs := { d.regs with live := c } } := ⟨_, rfl⟩

/-- A value put in force reads back. -/
@[simp] theorem fieldSel_setField (sel p off lo v : Nat) (d : Die) : fieldSel (setField sel p off lo v d) sel p off lo = v := by
  simp [fieldSel, setField]

@[simp] theorem capOf_setCap (p off v : Nat) (d : Die) : capOf (setCap p off v d) p off = v := by simp [capOf, setCap]

/-! ## What a die sends -/

theorem emit_parts (o : Out) (d : Die) : emit o d = { d with out := o :: d.out } := rfl

theorem drew_parts (d : Die) : drew d = { d with freeCtr := d.freeCtr + 1 } := rfl

theorem tellWarden_parts (e : WdnEvent) (d : Die) :
    tellWarden e d = { d with wdn := { d.wdn with events := d.wdn.events ++ [e] } } := rfl

/-- A die with what sending changes taken away: the host port, counters, error pages and what it has sent. -/
def muted (d : Die) : Die :=
  { d with hst := {}, regs := { d.regs with cnt := [] }, errs := [], fcu := { d.fcu with pend := [] }, out := [] }

/-- A die differs from another only in what sending changes. -/
def Sends (d x : Die) : Prop := muted x = muted d

theorem Sends.refl (d : Die) : Sends d d := rfl

theorem Sends.trans {d x y : Die} (first : Sends d x) (then_ : Sends x y) : Sends d y := Eq.trans then_ first

/-- The parts that sending sets, named. -/
theorem Sends.parts {d x : Die} (sent : Sends d x) : ∃ h c e l o,
    x = { d with hst := h, regs := { d.regs with cnt := c }, errs := e, fcu := { d.fcu with pend := l }, out := o } :=
  ⟨x.hst, x.regs.cnt, x.errs, x.fcu.pend, x.out, congrArg (fun y : Die =>
    { y with hst := x.hst, regs := { y.regs with cnt := x.regs.cnt }, errs := x.errs
             fcu := { y.fcu with pend := x.fcu.pend }, out := x.out }) sent⟩

theorem sends_updHst (f : Hst → Hst) (d : Die) : Sends d (updHst f d) := rfl

theorem sends_count (p off : Nat) (d : Die) : Sends d (count p off d) := rfl

theorem sends_emit (o : Out) (d : Die) : Sends d (emit o d) := rfl

theorem sends_raise (p n : Nat) (d : Die) : Sends d (raise p n d) := by
  obtain ⟨e, l, h⟩ := raise_parts p n d
  rw [Sends, h, muted, muted]

theorem sends_peerDrop (d : Die) : Sends d (peerDrop d) := (sends_count pHST 0x084 d).trans (sends_raise pHST 2 _)

theorem sends_leave (w : Waiting) (v : Nat) (d : Die) : Sends d (leave w v d) := by
  unfold leave
  split
  · split
    · split
      · exact (sends_count _ _ _).trans (sends_emit _ _)
      · exact ((sends_count _ _ _).trans (sends_updHst _ _)).trans (sends_emit _ _)
    · split <;> exact (sends_count _ _ _).trans (sends_emit _ _)
  · split
    · exact sends_peerDrop d
    · exact Sends.refl d

theorem sends_serve (u k s : Nat) (d : Die) : Sends d (serve u k s d) := by
  induction k generalizing s d with
  | zero => exact Sends.refl d
  | succ k ih =>
    unfold serve
    split
    · exact Sends.refl d
    · split
      · split
        · exact ((sends_updHst _ _).trans (sends_leave _ _ _)).trans (ih _ _)
        · exact Sends.refl d
      · split
        · exact ih _ _
        · exact Sends.refl d

theorem sends_flushEgress (d : Die) : Sends d (flushEgress d) := by
  unfold flushEgress
  split
  · split
    · exact ((sends_serve _ _ _ _).trans (sends_updHst _ _)).trans (sends_serve _ _ _ _)
    · exact sends_serve _ _ _ _
  · exact sends_serve _ _ _ _

theorem sends_replicate (cls : Nat) (b : Bytes) (d : Die) : Sends d (replicate cls b d) := by
  unfold replicate
  extract_lets seq d1 d2
  have h1 : Sends d d1 := sends_updHst _ _
  have h2 : Sends d d2 := by
    refine h1.trans ?_
    simp only [d2]
    split
    · exact sends_updHst _ _
    · exact sends_peerDrop _
  split
  · exact h2.trans (sends_updHst _ _)
  · exact h2.trans (sends_peerDrop _)

/-- A frame for the host port changes the port, counters, error pages and what the die has sent. -/
theorem sends_sendRaw (cls : Nat) (b : Bytes) (d : Die) : Sends d (sendRaw cls b d) := by
  unfold sendRaw
  split
  · split
    · exact (sends_replicate cls b d).trans (sends_flushEgress _)
    · split
      · exact (sends_updHst _ d).trans (sends_flushEgress _)
      · exact Sends.refl d
  · exact Sends.refl d

theorem sendRaw_parts (cls : Nat) (b : Bytes) (d : Die) :
    ∃ h c e l o, sendRaw cls b d =
      { d with hst := h, regs := { d.regs with cnt := c }, errs := e, fcu := { d.fcu with pend := l }, out := o } :=
  (sends_sendRaw cls b d).parts

/-- A Pannier frame to a session changes, beside what `sendRaw` changes, the sessions. -/
theorem sendFrame_parts (id typ status flags ref offset : Nat) (payload : Bytes) (d : Die) :
    ∃ h c e l o k, sendFrame id typ status flags ref offset payload d =
      { d with hst := h, regs := { d.regs with cnt := c }, errs := e, fcu := { d.fcu with pend := l }, out := o
               key := { d.key with sessions := k } } := by
  unfold sendFrame
  split
  · exact ⟨d.hst, d.regs.cnt, d.errs, d.fcu.pend, d.out, d.key.sessions, rfl⟩
  · obtain ⟨h, c, e, l, o, hh⟩ := sendRaw_parts (frameClass typ)
      (frameBytes typ id _ status flags ref offset payload _) (modSession id (fun s => { s with downSeq := s.downSeq + 1 }) d)
    exact ⟨h, c, e, l, o, _, by rw [hh]; rfl⟩

/-- An event to host software changes, beside the sessions, what its frames change. -/
theorem sendEvent_parts (code data : Nat) (d : Die) :
    ∃ h c e l o k, sendEvent code data d =
      { d with hst := h, regs := { d.regs with cnt := c }, errs := e, fcu := { d.fcu with pend := l }, out := o
               key := { d.key with sessions := k } } := by
  unfold sendEvent
  generalize d.key.sessions.filter _ = ss
  extract_lets payload
  clear_value payload
  induction ss generalizing d with
  | nil => exact ⟨d.hst, d.regs.cnt, d.errs, d.fcu.pend, d.out, d.key.sessions, rfl⟩
  | cons s r ih =>
    have one := sendFrame_parts s.id 0x40 0 0 0 0 payload d
    have rest := ih (sendFrame s.id 0x40 0 0 0 0 payload d)
    rw [List.foldl_cons]
    generalize sendFrame s.id 0x40 0 0 0 0 payload d = x at one rest
    rcases one with ⟨_, _, _, _, _, _, rfl⟩
    exact rest

end Sys2Proof.Machine
end

