-- ==== Sys2Proof/Laws/State.lean ====
section
/-! SUPPORT. The fields of a die after each operation that changes a part of it: one lemma per field and operation. -/

namespace Sys2Proof.Machine

/-! ## updRegs -/

@[simp] theorem updRegs_which (f : RegFile → RegFile) (d : Die) : (updRegs f d).which = d.which := rfl
@[simp] theorem updRegs_phase (f : RegFile → RegFile) (d : Die) : (updRegs f d).phase = d.phase := rfl
@[simp] theorem updRegs_phaseSlot (f : RegFile → RegFile) (d : Die) : (updRegs f d).phaseSlot = d.phaseSlot := rfl
@[simp] theorem updRegs_regs (f : RegFile → RegFile) (d : Die) : (updRegs f d).regs = f d.regs := rfl
@[simp] theorem updRegs_errs (f : RegFile → RegFile) (d : Die) : (updRegs f d).errs = d.errs := rfl
@[simp] theorem updRegs_wlk (f : RegFile → RegFile) (d : Die) : (updRegs f d).wlk = d.wlk := rfl
@[simp] theorem updRegs_wrd (f : RegFile → RegFile) (d : Die) : (updRegs f d).wrd = d.wrd := rfl
@[simp] theorem updRegs_chn (f : RegFile → RegFile) (d : Die) : (updRegs f d).chn = d.chn := rfl
@[simp] theorem updRegs_rat (f : RegFile → RegFile) (d : Die) : (updRegs f d).rat = d.rat := rfl
@[simp] theorem updRegs_adm (f : RegFile → RegFile) (d : Die) : (updRegs f d).adm = d.adm := rfl
@[simp] theorem updRegs_cad (f : RegFile → RegFile) (d : Die) : (updRegs f d).cad = d.cad := rfl
@[simp] theorem updRegs_sealing (f : RegFile → RegFile) (d : Die) : (updRegs f d).sealing = d.sealing := rfl
@[simp] theorem updRegs_res (f : RegFile → RegFile) (d : Die) : (updRegs f d).res = d.res := rfl
@[simp] theorem updRegs_bnd (f : RegFile → RegFile) (d : Die) : (updRegs f d).bnd = d.bnd := rfl
@[simp] theorem updRegs_nle (f : RegFile → RegFile) (d : Die) : (updRegs f d).nle = d.nle := rfl
@[simp] theorem updRegs_cwe (f : RegFile → RegFile) (d : Die) : (updRegs f d).cwe = d.cwe := rfl
@[simp] theorem updRegs_snt (f : RegFile → RegFile) (d : Die) : (updRegs f d).snt = d.snt := rfl
@[simp] theorem updRegs_shk (f : RegFile → RegFile) (d : Die) : (updRegs f d).shk = d.shk := rfl
@[simp] theorem updRegs_sig (f : RegFile → RegFile) (d : Die) : (updRegs f d).sig = d.sig := rfl
@[simp] theorem updRegs_vp (f : RegFile → RegFile) (d : Die) : (updRegs f d).vp = d.vp := rfl
@[simp] theorem updRegs_spk (f : RegFile → RegFile) (d : Die) : (updRegs f d).spk = d.spk := rfl
@[simp] theorem updRegs_dbg (f : RegFile → RegFile) (d : Die) : (updRegs f d).dbg = d.dbg := rfl
@[simp] theorem updRegs_sntb (f : RegFile → RegFile) (d : Die) : (updRegs f d).sntb = d.sntb := rfl
@[simp] theorem updRegs_tim (f : RegFile → RegFile) (d : Die) : (updRegs f d).tim = d.tim := rfl
@[simp] theorem updRegs_hst (f : RegFile → RegFile) (d : Die) : (updRegs f d).hst = d.hst := rfl
@[simp] theorem updRegs_ing (f : RegFile → RegFile) (d : Die) : (updRegs f d).ing = d.ing := rfl
@[simp] theorem updRegs_wdn (f : RegFile → RegFile) (d : Die) : (updRegs f d).wdn = d.wdn := rfl
@[simp] theorem updRegs_fcu (f : RegFile → RegFile) (d : Die) : (updRegs f d).fcu = d.fcu := rfl
@[simp] theorem updRegs_mem (f : RegFile → RegFile) (d : Die) : (updRegs f d).mem = d.mem := rfl
@[simp] theorem updRegs_key (f : RegFile → RegFile) (d : Die) : (updRegs f d).key = d.key := rfl
@[simp] theorem updRegs_pel (f : RegFile → RegFile) (d : Die) : (updRegs f d).pel = d.pel := rfl
@[simp] theorem updRegs_descs (f : RegFile → RegFile) (d : Die) : (updRegs f d).descs = d.descs := rfl
@[simp] theorem updRegs_freeCtr (f : RegFile → RegFile) (d : Die) : (updRegs f d).freeCtr = d.freeCtr := rfl
@[simp] theorem updRegs_out (f : RegFile → RegFile) (d : Die) : (updRegs f d).out = d.out := rfl

/-! ## updFcu -/

@[simp] theorem updFcu_which (f : Fcu → Fcu) (d : Die) : (updFcu f d).which = d.which := rfl
@[simp] theorem updFcu_phase (f : Fcu → Fcu) (d : Die) : (updFcu f d).phase = d.phase := rfl
@[simp] theorem updFcu_phaseSlot (f : Fcu → Fcu) (d : Die) : (updFcu f d).phaseSlot = d.phaseSlot := rfl
@[simp] theorem updFcu_regs (f : Fcu → Fcu) (d : Die) : (updFcu f d).regs = d.regs := rfl
@[simp] theorem updFcu_errs (f : Fcu → Fcu) (d : Die) : (updFcu f d).errs = d.errs := rfl
@[simp] theorem updFcu_wlk (f : Fcu → Fcu) (d : Die) : (updFcu f d).wlk = d.wlk := rfl
@[simp] theorem updFcu_wrd (f : Fcu → Fcu) (d : Die) : (updFcu f d).wrd = d.wrd := rfl
@[simp] theorem updFcu_chn (f : Fcu → Fcu) (d : Die) : (updFcu f d).chn = d.chn := rfl
@[simp] theorem updFcu_rat (f : Fcu → Fcu) (d : Die) : (updFcu f d).rat = d.rat := rfl
@[simp] theorem updFcu_adm (f : Fcu → Fcu) (d : Die) : (updFcu f d).adm = d.adm := rfl
@[simp] theorem updFcu_cad (f : Fcu → Fcu) (d : Die) : (updFcu f d).cad = d.cad := rfl
@[simp] theorem updFcu_sealing (f : Fcu → Fcu) (d : Die) : (updFcu f d).sealing = d.sealing := rfl
@[simp] theorem updFcu_res (f : Fcu → Fcu) (d : Die) : (updFcu f d).res = d.res := rfl
@[simp] theorem updFcu_bnd (f : Fcu → Fcu) (d : Die) : (updFcu f d).bnd = d.bnd := rfl
@[simp] theorem updFcu_nle (f : Fcu → Fcu) (d : Die) : (updFcu f d).nle = d.nle := rfl
@[simp] theorem updFcu_cwe (f : Fcu → Fcu) (d : Die) : (updFcu f d).cwe = d.cwe := rfl
@[simp] theorem updFcu_snt (f : Fcu → Fcu) (d : Die) : (updFcu f d).snt = d.snt := rfl
@[simp] theorem updFcu_shk (f : Fcu → Fcu) (d : Die) : (updFcu f d).shk = d.shk := rfl
@[simp] theorem updFcu_sig (f : Fcu → Fcu) (d : Die) : (updFcu f d).sig = d.sig := rfl
@[simp] theorem updFcu_vp (f : Fcu → Fcu) (d : Die) : (updFcu f d).vp = d.vp := rfl
@[simp] theorem updFcu_spk (f : Fcu → Fcu) (d : Die) : (updFcu f d).spk = d.spk := rfl
@[simp] theorem updFcu_dbg (f : Fcu → Fcu) (d : Die) : (updFcu f d).dbg = d.dbg := rfl
@[simp] theorem updFcu_sntb (f : Fcu → Fcu) (d : Die) : (updFcu f d).sntb = d.sntb := rfl
@[simp] theorem updFcu_tim (f : Fcu → Fcu) (d : Die) : (updFcu f d).tim = d.tim := rfl
@[simp] theorem updFcu_hst (f : Fcu → Fcu) (d : Die) : (updFcu f d).hst = d.hst := rfl
@[simp] theorem updFcu_ing (f : Fcu → Fcu) (d : Die) : (updFcu f d).ing = d.ing := rfl
@[simp] theorem updFcu_wdn (f : Fcu → Fcu) (d : Die) : (updFcu f d).wdn = d.wdn := rfl
@[simp] theorem updFcu_fcu (f : Fcu → Fcu) (d : Die) : (updFcu f d).fcu = f d.fcu := rfl
@[simp] theorem updFcu_mem (f : Fcu → Fcu) (d : Die) : (updFcu f d).mem = d.mem := rfl
@[simp] theorem updFcu_key (f : Fcu → Fcu) (d : Die) : (updFcu f d).key = d.key := rfl
@[simp] theorem updFcu_pel (f : Fcu → Fcu) (d : Die) : (updFcu f d).pel = d.pel := rfl
@[simp] theorem updFcu_descs (f : Fcu → Fcu) (d : Die) : (updFcu f d).descs = d.descs := rfl
@[simp] theorem updFcu_freeCtr (f : Fcu → Fcu) (d : Die) : (updFcu f d).freeCtr = d.freeCtr := rfl
@[simp] theorem updFcu_out (f : Fcu → Fcu) (d : Die) : (updFcu f d).out = d.out := rfl

/-! ## updMem -/

@[simp] theorem updMem_which (f : MemHealth → MemHealth) (d : Die) : (updMem f d).which = d.which := rfl
@[simp] theorem updMem_phase (f : MemHealth → MemHealth) (d : Die) : (updMem f d).phase = d.phase := rfl
@[simp] theorem updMem_phaseSlot (f : MemHealth → MemHealth) (d : Die) : (updMem f d).phaseSlot = d.phaseSlot := rfl
@[simp] theorem updMem_regs (f : MemHealth → MemHealth) (d : Die) : (updMem f d).regs = d.regs := rfl
@[simp] theorem updMem_errs (f : MemHealth → MemHealth) (d : Die) : (updMem f d).errs = d.errs := rfl
@[simp] theorem updMem_wlk (f : MemHealth → MemHealth) (d : Die) : (updMem f d).wlk = d.wlk := rfl
@[simp] theorem updMem_wrd (f : MemHealth → MemHealth) (d : Die) : (updMem f d).wrd = d.wrd := rfl
@[simp] theorem updMem_chn (f : MemHealth → MemHealth) (d : Die) : (updMem f d).chn = d.chn := rfl
@[simp] theorem updMem_rat (f : MemHealth → MemHealth) (d : Die) : (updMem f d).rat = d.rat := rfl
@[simp] theorem updMem_adm (f : MemHealth → MemHealth) (d : Die) : (updMem f d).adm = d.adm := rfl
@[simp] theorem updMem_cad (f : MemHealth → MemHealth) (d : Die) : (updMem f d).cad = d.cad := rfl
@[simp] theorem updMem_sealing (f : MemHealth → MemHealth) (d : Die) : (updMem f d).sealing = d.sealing := rfl
@[simp] theorem updMem_res (f : MemHealth → MemHealth) (d : Die) : (updMem f d).res = d.res := rfl
@[simp] theorem updMem_bnd (f : MemHealth → MemHealth) (d : Die) : (updMem f d).bnd = d.bnd := rfl
@[simp] theorem updMem_nle (f : MemHealth → MemHealth) (d : Die) : (updMem f d).nle = d.nle := rfl
@[simp] theorem updMem_cwe (f : MemHealth → MemHealth) (d : Die) : (updMem f d).cwe = d.cwe := rfl
@[simp] theorem updMem_snt (f : MemHealth → MemHealth) (d : Die) : (updMem f d).snt = d.snt := rfl
@[simp] theorem updMem_shk (f : MemHealth → MemHealth) (d : Die) : (updMem f d).shk = d.shk := rfl
@[simp] theorem updMem_sig (f : MemHealth → MemHealth) (d : Die) : (updMem f d).sig = d.sig := rfl
@[simp] theorem updMem_vp (f : MemHealth → MemHealth) (d : Die) : (updMem f d).vp = d.vp := rfl
@[simp] theorem updMem_spk (f : MemHealth → MemHealth) (d : Die) : (updMem f d).spk = d.spk := rfl
@[simp] theorem updMem_dbg (f : MemHealth → MemHealth) (d : Die) : (updMem f d).dbg = d.dbg := rfl
@[simp] theorem updMem_sntb (f : MemHealth → MemHealth) (d : Die) : (updMem f d).sntb = d.sntb := rfl
@[simp] theorem updMem_tim (f : MemHealth → MemHealth) (d : Die) : (updMem f d).tim = d.tim := rfl
@[simp] theorem updMem_hst (f : MemHealth → MemHealth) (d : Die) : (updMem f d).hst = d.hst := rfl
@[simp] theorem updMem_ing (f : MemHealth → MemHealth) (d : Die) : (updMem f d).ing = d.ing := rfl
@[simp] theorem updMem_wdn (f : MemHealth → MemHealth) (d : Die) : (updMem f d).wdn = d.wdn := rfl
@[simp] theorem updMem_fcu (f : MemHealth → MemHealth) (d : Die) : (updMem f d).fcu = d.fcu := rfl
@[simp] theorem updMem_mem (f : MemHealth → MemHealth) (d : Die) : (updMem f d).mem = f d.mem := rfl
@[simp] theorem updMem_key (f : MemHealth → MemHealth) (d : Die) : (updMem f d).key = d.key := rfl
@[simp] theorem updMem_pel (f : MemHealth → MemHealth) (d : Die) : (updMem f d).pel = d.pel := rfl
@[simp] theorem updMem_descs (f : MemHealth → MemHealth) (d : Die) : (updMem f d).descs = d.descs := rfl
@[simp] theorem updMem_freeCtr (f : MemHealth → MemHealth) (d : Die) : (updMem f d).freeCtr = d.freeCtr := rfl
@[simp] theorem updMem_out (f : MemHealth → MemHealth) (d : Die) : (updMem f d).out = d.out := rfl

/-! ## updWlk -/

@[simp] theorem updWlk_which (f : Wlk → Wlk) (d : Die) : (updWlk f d).which = d.which := rfl
@[simp] theorem updWlk_phase (f : Wlk → Wlk) (d : Die) : (updWlk f d).phase = d.phase := rfl
@[simp] theorem updWlk_phaseSlot (f : Wlk → Wlk) (d : Die) : (updWlk f d).phaseSlot = d.phaseSlot := rfl
@[simp] theorem updWlk_regs (f : Wlk → Wlk) (d : Die) : (updWlk f d).regs = d.regs := rfl
@[simp] theorem updWlk_errs (f : Wlk → Wlk) (d : Die) : (updWlk f d).errs = d.errs := rfl
@[simp] theorem updWlk_wlk (f : Wlk → Wlk) (d : Die) : (updWlk f d).wlk = f d.wlk := rfl
@[simp] theorem updWlk_wrd (f : Wlk → Wlk) (d : Die) : (updWlk f d).wrd = d.wrd := rfl
@[simp] theorem updWlk_chn (f : Wlk → Wlk) (d : Die) : (updWlk f d).chn = d.chn := rfl
@[simp] theorem updWlk_rat (f : Wlk → Wlk) (d : Die) : (updWlk f d).rat = d.rat := rfl
@[simp] theorem updWlk_adm (f : Wlk → Wlk) (d : Die) : (updWlk f d).adm = d.adm := rfl
@[simp] theorem updWlk_cad (f : Wlk → Wlk) (d : Die) : (updWlk f d).cad = d.cad := rfl
@[simp] theorem updWlk_sealing (f : Wlk → Wlk) (d : Die) : (updWlk f d).sealing = d.sealing := rfl
@[simp] theorem updWlk_res (f : Wlk → Wlk) (d : Die) : (updWlk f d).res = d.res := rfl
@[simp] theorem updWlk_bnd (f : Wlk → Wlk) (d : Die) : (updWlk f d).bnd = d.bnd := rfl
@[simp] theorem updWlk_nle (f : Wlk → Wlk) (d : Die) : (updWlk f d).nle = d.nle := rfl
@[simp] theorem updWlk_cwe (f : Wlk → Wlk) (d : Die) : (updWlk f d).cwe = d.cwe := rfl
@[simp] theorem updWlk_snt (f : Wlk → Wlk) (d : Die) : (updWlk f d).snt = d.snt := rfl
@[simp] theorem updWlk_shk (f : Wlk → Wlk) (d : Die) : (updWlk f d).shk = d.shk := rfl
@[simp] theorem updWlk_sig (f : Wlk → Wlk) (d : Die) : (updWlk f d).sig = d.sig := rfl
@[simp] theorem updWlk_vp (f : Wlk → Wlk) (d : Die) : (updWlk f d).vp = d.vp := rfl
@[simp] theorem updWlk_spk (f : Wlk → Wlk) (d : Die) : (updWlk f d).spk = d.spk := rfl
@[simp] theorem updWlk_dbg (f : Wlk → Wlk) (d : Die) : (updWlk f d).dbg = d.dbg := rfl
@[simp] theorem updWlk_sntb (f : Wlk → Wlk) (d : Die) : (updWlk f d).sntb = d.sntb := rfl
@[simp] theorem updWlk_tim (f : Wlk → Wlk) (d : Die) : (updWlk f d).tim = d.tim := rfl
@[simp] theorem updWlk_hst (f : Wlk → Wlk) (d : Die) : (updWlk f d).hst = d.hst := rfl
@[simp] theorem updWlk_ing (f : Wlk → Wlk) (d : Die) : (updWlk f d).ing = d.ing := rfl
@[simp] theorem updWlk_wdn (f : Wlk → Wlk) (d : Die) : (updWlk f d).wdn = d.wdn := rfl
@[simp] theorem updWlk_fcu (f : Wlk → Wlk) (d : Die) : (updWlk f d).fcu = d.fcu := rfl
@[simp] theorem updWlk_mem (f : Wlk → Wlk) (d : Die) : (updWlk f d).mem = d.mem := rfl
@[simp] theorem updWlk_key (f : Wlk → Wlk) (d : Die) : (updWlk f d).key = d.key := rfl
@[simp] theorem updWlk_pel (f : Wlk → Wlk) (d : Die) : (updWlk f d).pel = d.pel := rfl
@[simp] theorem updWlk_descs (f : Wlk → Wlk) (d : Die) : (updWlk f d).descs = d.descs := rfl
@[simp] theorem updWlk_freeCtr (f : Wlk → Wlk) (d : Die) : (updWlk f d).freeCtr = d.freeCtr := rfl
@[simp] theorem updWlk_out (f : Wlk → Wlk) (d : Die) : (updWlk f d).out = d.out := rfl

/-! ## updWrd -/

@[simp] theorem updWrd_which (f : Wrd → Wrd) (d : Die) : (updWrd f d).which = d.which := rfl
@[simp] theorem updWrd_phase (f : Wrd → Wrd) (d : Die) : (updWrd f d).phase = d.phase := rfl
@[simp] theorem updWrd_phaseSlot (f : Wrd → Wrd) (d : Die) : (updWrd f d).phaseSlot = d.phaseSlot := rfl
@[simp] theorem updWrd_regs (f : Wrd → Wrd) (d : Die) : (updWrd f d).regs = d.regs := rfl
@[simp] theorem updWrd_errs (f : Wrd → Wrd) (d : Die) : (updWrd f d).errs = d.errs := rfl
@[simp] theorem updWrd_wlk (f : Wrd → Wrd) (d : Die) : (updWrd f d).wlk = d.wlk := rfl
@[simp] theorem updWrd_wrd (f : Wrd → Wrd) (d : Die) : (updWrd f d).wrd = f d.wrd := rfl
@[simp] theorem updWrd_chn (f : Wrd → Wrd) (d : Die) : (updWrd f d).chn = d.chn := rfl
@[simp] theorem updWrd_rat (f : Wrd → Wrd) (d : Die) : (updWrd f d).rat = d.rat := rfl
@[simp] theorem updWrd_adm (f : Wrd → Wrd) (d : Die) : (updWrd f d).adm = d.adm := rfl
@[simp] theorem updWrd_cad (f : Wrd → Wrd) (d : Die) : (updWrd f d).cad = d.cad := rfl
@[simp] theorem updWrd_sealing (f : Wrd → Wrd) (d : Die) : (updWrd f d).sealing = d.sealing := rfl
@[simp] theorem updWrd_res (f : Wrd → Wrd) (d : Die) : (updWrd f d).res = d.res := rfl
@[simp] theorem updWrd_bnd (f : Wrd → Wrd) (d : Die) : (updWrd f d).bnd = d.bnd := rfl
@[simp] theorem updWrd_nle (f : Wrd → Wrd) (d : Die) : (updWrd f d).nle = d.nle := rfl
@[simp] theorem updWrd_cwe (f : Wrd → Wrd) (d : Die) : (updWrd f d).cwe = d.cwe := rfl
@[simp] theorem updWrd_snt (f : Wrd → Wrd) (d : Die) : (updWrd f d).snt = d.snt := rfl
@[simp] theorem updWrd_shk (f : Wrd → Wrd) (d : Die) : (updWrd f d).shk = d.shk := rfl
@[simp] theorem updWrd_sig (f : Wrd → Wrd) (d : Die) : (updWrd f d).sig = d.sig := rfl
@[simp] theorem updWrd_vp (f : Wrd → Wrd) (d : Die) : (updWrd f d).vp = d.vp := rfl
@[simp] theorem updWrd_spk (f : Wrd → Wrd) (d : Die) : (updWrd f d).spk = d.spk := rfl
@[simp] theorem updWrd_dbg (f : Wrd → Wrd) (d : Die) : (updWrd f d).dbg = d.dbg := rfl
@[simp] theorem updWrd_sntb (f : Wrd → Wrd) (d : Die) : (updWrd f d).sntb = d.sntb := rfl
@[simp] theorem updWrd_tim (f : Wrd → Wrd) (d : Die) : (updWrd f d).tim = d.tim := rfl
@[simp] theorem updWrd_hst (f : Wrd → Wrd) (d : Die) : (updWrd f d).hst = d.hst := rfl
@[simp] theorem updWrd_ing (f : Wrd → Wrd) (d : Die) : (updWrd f d).ing = d.ing := rfl
@[simp] theorem updWrd_wdn (f : Wrd → Wrd) (d : Die) : (updWrd f d).wdn = d.wdn := rfl
@[simp] theorem updWrd_fcu (f : Wrd → Wrd) (d : Die) : (updWrd f d).fcu = d.fcu := rfl
@[simp] theorem updWrd_mem (f : Wrd → Wrd) (d : Die) : (updWrd f d).mem = d.mem := rfl
@[simp] theorem updWrd_key (f : Wrd → Wrd) (d : Die) : (updWrd f d).key = d.key := rfl
@[simp] theorem updWrd_pel (f : Wrd → Wrd) (d : Die) : (updWrd f d).pel = d.pel := rfl
@[simp] theorem updWrd_descs (f : Wrd → Wrd) (d : Die) : (updWrd f d).descs = d.descs := rfl
@[simp] theorem updWrd_freeCtr (f : Wrd → Wrd) (d : Die) : (updWrd f d).freeCtr = d.freeCtr := rfl
@[simp] theorem updWrd_out (f : Wrd → Wrd) (d : Die) : (updWrd f d).out = d.out := rfl

/-! ## updChn -/

@[simp] theorem updChn_which (f : Chn → Chn) (d : Die) : (updChn f d).which = d.which := rfl
@[simp] theorem updChn_phase (f : Chn → Chn) (d : Die) : (updChn f d).phase = d.phase := rfl
@[simp] theorem updChn_phaseSlot (f : Chn → Chn) (d : Die) : (updChn f d).phaseSlot = d.phaseSlot := rfl
@[simp] theorem updChn_regs (f : Chn → Chn) (d : Die) : (updChn f d).regs = d.regs := rfl
@[simp] theorem updChn_errs (f : Chn → Chn) (d : Die) : (updChn f d).errs = d.errs := rfl
@[simp] theorem updChn_wlk (f : Chn → Chn) (d : Die) : (updChn f d).wlk = d.wlk := rfl
@[simp] theorem updChn_wrd (f : Chn → Chn) (d : Die) : (updChn f d).wrd = d.wrd := rfl
@[simp] theorem updChn_chn (f : Chn → Chn) (d : Die) : (updChn f d).chn = f d.chn := rfl
@[simp] theorem updChn_rat (f : Chn → Chn) (d : Die) : (updChn f d).rat = d.rat := rfl
@[simp] theorem updChn_adm (f : Chn → Chn) (d : Die) : (updChn f d).adm = d.adm := rfl
@[simp] theorem updChn_cad (f : Chn → Chn) (d : Die) : (updChn f d).cad = d.cad := rfl
@[simp] theorem updChn_sealing (f : Chn → Chn) (d : Die) : (updChn f d).sealing = d.sealing := rfl
@[simp] theorem updChn_res (f : Chn → Chn) (d : Die) : (updChn f d).res = d.res := rfl
@[simp] theorem updChn_bnd (f : Chn → Chn) (d : Die) : (updChn f d).bnd = d.bnd := rfl
@[simp] theorem updChn_nle (f : Chn → Chn) (d : Die) : (updChn f d).nle = d.nle := rfl
@[simp] theorem updChn_cwe (f : Chn → Chn) (d : Die) : (updChn f d).cwe = d.cwe := rfl
@[simp] theorem updChn_snt (f : Chn → Chn) (d : Die) : (updChn f d).snt = d.snt := rfl
@[simp] theorem updChn_shk (f : Chn → Chn) (d : Die) : (updChn f d).shk = d.shk := rfl
@[simp] theorem updChn_sig (f : Chn → Chn) (d : Die) : (updChn f d).sig = d.sig := rfl
@[simp] theorem updChn_vp (f : Chn → Chn) (d : Die) : (updChn f d).vp = d.vp := rfl
@[simp] theorem updChn_spk (f : Chn → Chn) (d : Die) : (updChn f d).spk = d.spk := rfl
@[simp] theorem updChn_dbg (f : Chn → Chn) (d : Die) : (updChn f d).dbg = d.dbg := rfl
@[simp] theorem updChn_sntb (f : Chn → Chn) (d : Die) : (updChn f d).sntb = d.sntb := rfl
@[simp] theorem updChn_tim (f : Chn → Chn) (d : Die) : (updChn f d).tim = d.tim := rfl
@[simp] theorem updChn_hst (f : Chn → Chn) (d : Die) : (updChn f d).hst = d.hst := rfl
@[simp] theorem updChn_ing (f : Chn → Chn) (d : Die) : (updChn f d).ing = d.ing := rfl
@[simp] theorem updChn_wdn (f : Chn → Chn) (d : Die) : (updChn f d).wdn = d.wdn := rfl
@[simp] theorem updChn_fcu (f : Chn → Chn) (d : Die) : (updChn f d).fcu = d.fcu := rfl
@[simp] theorem updChn_mem (f : Chn → Chn) (d : Die) : (updChn f d).mem = d.mem := rfl
@[simp] theorem updChn_key (f : Chn → Chn) (d : Die) : (updChn f d).key = d.key := rfl
@[simp] theorem updChn_pel (f : Chn → Chn) (d : Die) : (updChn f d).pel = d.pel := rfl
@[simp] theorem updChn_descs (f : Chn → Chn) (d : Die) : (updChn f d).descs = d.descs := rfl
@[simp] theorem updChn_freeCtr (f : Chn → Chn) (d : Die) : (updChn f d).freeCtr = d.freeCtr := rfl
@[simp] theorem updChn_out (f : Chn → Chn) (d : Die) : (updChn f d).out = d.out := rfl

/-! ## updRat -/

@[simp] theorem updRat_which (f : Rat → Rat) (d : Die) : (updRat f d).which = d.which := rfl
@[simp] theorem updRat_phase (f : Rat → Rat) (d : Die) : (updRat f d).phase = d.phase := rfl
@[simp] theorem updRat_phaseSlot (f : Rat → Rat) (d : Die) : (updRat f d).phaseSlot = d.phaseSlot := rfl
@[simp] theorem updRat_regs (f : Rat → Rat) (d : Die) : (updRat f d).regs = d.regs := rfl
@[simp] theorem updRat_errs (f : Rat → Rat) (d : Die) : (updRat f d).errs = d.errs := rfl
@[simp] theorem updRat_wlk (f : Rat → Rat) (d : Die) : (updRat f d).wlk = d.wlk := rfl
@[simp] theorem updRat_wrd (f : Rat → Rat) (d : Die) : (updRat f d).wrd = d.wrd := rfl
@[simp] theorem updRat_chn (f : Rat → Rat) (d : Die) : (updRat f d).chn = d.chn := rfl
@[simp] theorem updRat_rat (f : Rat → Rat) (d : Die) : (updRat f d).rat = f d.rat := rfl
@[simp] theorem updRat_adm (f : Rat → Rat) (d : Die) : (updRat f d).adm = d.adm := rfl
@[simp] theorem updRat_cad (f : Rat → Rat) (d : Die) : (updRat f d).cad = d.cad := rfl
@[simp] theorem updRat_sealing (f : Rat → Rat) (d : Die) : (updRat f d).sealing = d.sealing := rfl
@[simp] theorem updRat_res (f : Rat → Rat) (d : Die) : (updRat f d).res = d.res := rfl
@[simp] theorem updRat_bnd (f : Rat → Rat) (d : Die) : (updRat f d).bnd = d.bnd := rfl
@[simp] theorem updRat_nle (f : Rat → Rat) (d : Die) : (updRat f d).nle = d.nle := rfl
@[simp] theorem updRat_cwe (f : Rat → Rat) (d : Die) : (updRat f d).cwe = d.cwe := rfl
@[simp] theorem updRat_snt (f : Rat → Rat) (d : Die) : (updRat f d).snt = d.snt := rfl
@[simp] theorem updRat_shk (f : Rat → Rat) (d : Die) : (updRat f d).shk = d.shk := rfl
@[simp] theorem updRat_sig (f : Rat → Rat) (d : Die) : (updRat f d).sig = d.sig := rfl
@[simp] theorem updRat_vp (f : Rat → Rat) (d : Die) : (updRat f d).vp = d.vp := rfl
@[simp] theorem updRat_spk (f : Rat → Rat) (d : Die) : (updRat f d).spk = d.spk := rfl
@[simp] theorem updRat_dbg (f : Rat → Rat) (d : Die) : (updRat f d).dbg = d.dbg := rfl
@[simp] theorem updRat_sntb (f : Rat → Rat) (d : Die) : (updRat f d).sntb = d.sntb := rfl
@[simp] theorem updRat_tim (f : Rat → Rat) (d : Die) : (updRat f d).tim = d.tim := rfl
@[simp] theorem updRat_hst (f : Rat → Rat) (d : Die) : (updRat f d).hst = d.hst := rfl
@[simp] theorem updRat_ing (f : Rat → Rat) (d : Die) : (updRat f d).ing = d.ing := rfl
@[simp] theorem updRat_wdn (f : Rat → Rat) (d : Die) : (updRat f d).wdn = d.wdn := rfl
@[simp] theorem updRat_fcu (f : Rat → Rat) (d : Die) : (updRat f d).fcu = d.fcu := rfl
@[simp] theorem updRat_mem (f : Rat → Rat) (d : Die) : (updRat f d).mem = d.mem := rfl
@[simp] theorem updRat_key (f : Rat → Rat) (d : Die) : (updRat f d).key = d.key := rfl
@[simp] theorem updRat_pel (f : Rat → Rat) (d : Die) : (updRat f d).pel = d.pel := rfl
@[simp] theorem updRat_descs (f : Rat → Rat) (d : Die) : (updRat f d).descs = d.descs := rfl
@[simp] theorem updRat_freeCtr (f : Rat → Rat) (d : Die) : (updRat f d).freeCtr = d.freeCtr := rfl
@[simp] theorem updRat_out (f : Rat → Rat) (d : Die) : (updRat f d).out = d.out := rfl

/-! ## updAdm -/

@[simp] theorem updAdm_which (f : Adm → Adm) (d : Die) : (updAdm f d).which = d.which := rfl
@[simp] theorem updAdm_phase (f : Adm → Adm) (d : Die) : (updAdm f d).phase = d.phase := rfl
@[simp] theorem updAdm_phaseSlot (f : Adm → Adm) (d : Die) : (updAdm f d).phaseSlot = d.phaseSlot := rfl
@[simp] theorem updAdm_regs (f : Adm → Adm) (d : Die) : (updAdm f d).regs = d.regs := rfl
@[simp] theorem updAdm_errs (f : Adm → Adm) (d : Die) : (updAdm f d).errs = d.errs := rfl
@[simp] theorem updAdm_wlk (f : Adm → Adm) (d : Die) : (updAdm f d).wlk = d.wlk := rfl
@[simp] theorem updAdm_wrd (f : Adm → Adm) (d : Die) : (updAdm f d).wrd = d.wrd := rfl
@[simp] theorem updAdm_chn (f : Adm → Adm) (d : Die) : (updAdm f d).chn = d.chn := rfl
@[simp] theorem updAdm_rat (f : Adm → Adm) (d : Die) : (updAdm f d).rat = d.rat := rfl
@[simp] theorem updAdm_adm (f : Adm → Adm) (d : Die) : (updAdm f d).adm = f d.adm := rfl
@[simp] theorem updAdm_cad (f : Adm → Adm) (d : Die) : (updAdm f d).cad = d.cad := rfl
@[simp] theorem updAdm_sealing (f : Adm → Adm) (d : Die) : (updAdm f d).sealing = d.sealing := rfl
@[simp] theorem updAdm_res (f : Adm → Adm) (d : Die) : (updAdm f d).res = d.res := rfl
@[simp] theorem updAdm_bnd (f : Adm → Adm) (d : Die) : (updAdm f d).bnd = d.bnd := rfl
@[simp] theorem updAdm_nle (f : Adm → Adm) (d : Die) : (updAdm f d).nle = d.nle := rfl
@[simp] theorem updAdm_cwe (f : Adm → Adm) (d : Die) : (updAdm f d).cwe = d.cwe := rfl
@[simp] theorem updAdm_snt (f : Adm → Adm) (d : Die) : (updAdm f d).snt = d.snt := rfl
@[simp] theorem updAdm_shk (f : Adm → Adm) (d : Die) : (updAdm f d).shk = d.shk := rfl
@[simp] theorem updAdm_sig (f : Adm → Adm) (d : Die) : (updAdm f d).sig = d.sig := rfl
@[simp] theorem updAdm_vp (f : Adm → Adm) (d : Die) : (updAdm f d).vp = d.vp := rfl
@[simp] theorem updAdm_spk (f : Adm → Adm) (d : Die) : (updAdm f d).spk = d.spk := rfl
@[simp] theorem updAdm_dbg (f : Adm → Adm) (d : Die) : (updAdm f d).dbg = d.dbg := rfl
@[simp] theorem updAdm_sntb (f : Adm → Adm) (d : Die) : (updAdm f d).sntb = d.sntb := rfl
@[simp] theorem updAdm_tim (f : Adm → Adm) (d : Die) : (updAdm f d).tim = d.tim := rfl
@[simp] theorem updAdm_hst (f : Adm → Adm) (d : Die) : (updAdm f d).hst = d.hst := rfl
@[simp] theorem updAdm_ing (f : Adm → Adm) (d : Die) : (updAdm f d).ing = d.ing := rfl
@[simp] theorem updAdm_wdn (f : Adm → Adm) (d : Die) : (updAdm f d).wdn = d.wdn := rfl
@[simp] theorem updAdm_fcu (f : Adm → Adm) (d : Die) : (updAdm f d).fcu = d.fcu := rfl
@[simp] theorem updAdm_mem (f : Adm → Adm) (d : Die) : (updAdm f d).mem = d.mem := rfl
@[simp] theorem updAdm_key (f : Adm → Adm) (d : Die) : (updAdm f d).key = d.key := rfl
@[simp] theorem updAdm_pel (f : Adm → Adm) (d : Die) : (updAdm f d).pel = d.pel := rfl
@[simp] theorem updAdm_descs (f : Adm → Adm) (d : Die) : (updAdm f d).descs = d.descs := rfl
@[simp] theorem updAdm_freeCtr (f : Adm → Adm) (d : Die) : (updAdm f d).freeCtr = d.freeCtr := rfl
@[simp] theorem updAdm_out (f : Adm → Adm) (d : Die) : (updAdm f d).out = d.out := rfl

/-! ## updCad -/

@[simp] theorem updCad_which (f : Cad → Cad) (d : Die) : (updCad f d).which = d.which := rfl
@[simp] theorem updCad_phase (f : Cad → Cad) (d : Die) : (updCad f d).phase = d.phase := rfl
@[simp] theorem updCad_phaseSlot (f : Cad → Cad) (d : Die) : (updCad f d).phaseSlot = d.phaseSlot := rfl
@[simp] theorem updCad_regs (f : Cad → Cad) (d : Die) : (updCad f d).regs = d.regs := rfl
@[simp] theorem updCad_errs (f : Cad → Cad) (d : Die) : (updCad f d).errs = d.errs := rfl
@[simp] theorem updCad_wlk (f : Cad → Cad) (d : Die) : (updCad f d).wlk = d.wlk := rfl
@[simp] theorem updCad_wrd (f : Cad → Cad) (d : Die) : (updCad f d).wrd = d.wrd := rfl
@[simp] theorem updCad_chn (f : Cad → Cad) (d : Die) : (updCad f d).chn = d.chn := rfl
@[simp] theorem updCad_rat (f : Cad → Cad) (d : Die) : (updCad f d).rat = d.rat := rfl
@[simp] theorem updCad_adm (f : Cad → Cad) (d : Die) : (updCad f d).adm = d.adm := rfl
@[simp] theorem updCad_cad (f : Cad → Cad) (d : Die) : (updCad f d).cad = f d.cad := rfl
@[simp] theorem updCad_sealing (f : Cad → Cad) (d : Die) : (updCad f d).sealing = d.sealing := rfl
@[simp] theorem updCad_res (f : Cad → Cad) (d : Die) : (updCad f d).res = d.res := rfl
@[simp] theorem updCad_bnd (f : Cad → Cad) (d : Die) : (updCad f d).bnd = d.bnd := rfl
@[simp] theorem updCad_nle (f : Cad → Cad) (d : Die) : (updCad f d).nle = d.nle := rfl
@[simp] theorem updCad_cwe (f : Cad → Cad) (d : Die) : (updCad f d).cwe = d.cwe := rfl
@[simp] theorem updCad_snt (f : Cad → Cad) (d : Die) : (updCad f d).snt = d.snt := rfl
@[simp] theorem updCad_shk (f : Cad → Cad) (d : Die) : (updCad f d).shk = d.shk := rfl
@[simp] theorem updCad_sig (f : Cad → Cad) (d : Die) : (updCad f d).sig = d.sig := rfl
@[simp] theorem updCad_vp (f : Cad → Cad) (d : Die) : (updCad f d).vp = d.vp := rfl
@[simp] theorem updCad_spk (f : Cad → Cad) (d : Die) : (updCad f d).spk = d.spk := rfl
@[simp] theorem updCad_dbg (f : Cad → Cad) (d : Die) : (updCad f d).dbg = d.dbg := rfl
@[simp] theorem updCad_sntb (f : Cad → Cad) (d : Die) : (updCad f d).sntb = d.sntb := rfl
@[simp] theorem updCad_tim (f : Cad → Cad) (d : Die) : (updCad f d).tim = d.tim := rfl
@[simp] theorem updCad_hst (f : Cad → Cad) (d : Die) : (updCad f d).hst = d.hst := rfl
@[simp] theorem updCad_ing (f : Cad → Cad) (d : Die) : (updCad f d).ing = d.ing := rfl
@[simp] theorem updCad_wdn (f : Cad → Cad) (d : Die) : (updCad f d).wdn = d.wdn := rfl
@[simp] theorem updCad_fcu (f : Cad → Cad) (d : Die) : (updCad f d).fcu = d.fcu := rfl
@[simp] theorem updCad_mem (f : Cad → Cad) (d : Die) : (updCad f d).mem = d.mem := rfl
@[simp] theorem updCad_key (f : Cad → Cad) (d : Die) : (updCad f d).key = d.key := rfl
@[simp] theorem updCad_pel (f : Cad → Cad) (d : Die) : (updCad f d).pel = d.pel := rfl
@[simp] theorem updCad_descs (f : Cad → Cad) (d : Die) : (updCad f d).descs = d.descs := rfl
@[simp] theorem updCad_freeCtr (f : Cad → Cad) (d : Die) : (updCad f d).freeCtr = d.freeCtr := rfl
@[simp] theorem updCad_out (f : Cad → Cad) (d : Die) : (updCad f d).out = d.out := rfl

/-! ## updSealing -/

@[simp] theorem updSealing_which (f : Sealing → Sealing) (d : Die) : (updSealing f d).which = d.which := rfl
@[simp] theorem updSealing_phase (f : Sealing → Sealing) (d : Die) : (updSealing f d).phase = d.phase := rfl
@[simp] theorem updSealing_phaseSlot (f : Sealing → Sealing) (d : Die) : (updSealing f d).phaseSlot = d.phaseSlot := rfl
@[simp] theorem updSealing_regs (f : Sealing → Sealing) (d : Die) : (updSealing f d).regs = d.regs := rfl
@[simp] theorem updSealing_errs (f : Sealing → Sealing) (d : Die) : (updSealing f d).errs = d.errs := rfl
@[simp] theorem updSealing_wlk (f : Sealing → Sealing) (d : Die) : (updSealing f d).wlk = d.wlk := rfl
@[simp] theorem updSealing_wrd (f : Sealing → Sealing) (d : Die) : (updSealing f d).wrd = d.wrd := rfl
@[simp] theorem updSealing_chn (f : Sealing → Sealing) (d : Die) : (updSealing f d).chn = d.chn := rfl
@[simp] theorem updSealing_rat (f : Sealing → Sealing) (d : Die) : (updSealing f d).rat = d.rat := rfl
@[simp] theorem updSealing_adm (f : Sealing → Sealing) (d : Die) : (updSealing f d).adm = d.adm := rfl
@[simp] theorem updSealing_cad (f : Sealing → Sealing) (d : Die) : (updSealing f d).cad = d.cad := rfl
@[simp] theorem updSealing_sealing (f : Sealing → Sealing) (d : Die) : (updSealing f d).sealing = f d.sealing := rfl
@[simp] theorem updSealing_res (f : Sealing → Sealing) (d : Die) : (updSealing f d).res = d.res := rfl
@[simp] theorem updSealing_bnd (f : Sealing → Sealing) (d : Die) : (updSealing f d).bnd = d.bnd := rfl
@[simp] theorem updSealing_nle (f : Sealing → Sealing) (d : Die) : (updSealing f d).nle = d.nle := rfl
@[simp] theorem updSealing_cwe (f : Sealing → Sealing) (d : Die) : (updSealing f d).cwe = d.cwe := rfl
@[simp] theorem updSealing_snt (f : Sealing → Sealing) (d : Die) : (updSealing f d).snt = d.snt := rfl
@[simp] theorem updSealing_shk (f : Sealing → Sealing) (d : Die) : (updSealing f d).shk = d.shk := rfl
@[simp] theorem updSealing_sig (f : Sealing → Sealing) (d : Die) : (updSealing f d).sig = d.sig := rfl
@[simp] theorem updSealing_vp (f : Sealing → Sealing) (d : Die) : (updSealing f d).vp = d.vp := rfl
@[simp] theorem updSealing_spk (f : Sealing → Sealing) (d : Die) : (updSealing f d).spk = d.spk := rfl
@[simp] theorem updSealing_dbg (f : Sealing → Sealing) (d : Die) : (updSealing f d).dbg = d.dbg := rfl
@[simp] theorem updSealing_sntb (f : Sealing → Sealing) (d : Die) : (updSealing f d).sntb = d.sntb := rfl
@[simp] theorem updSealing_tim (f : Sealing → Sealing) (d : Die) : (updSealing f d).tim = d.tim := rfl
@[simp] theorem updSealing_hst (f : Sealing → Sealing) (d : Die) : (updSealing f d).hst = d.hst := rfl
@[simp] theorem updSealing_ing (f : Sealing → Sealing) (d : Die) : (updSealing f d).ing = d.ing := rfl
@[simp] theorem updSealing_wdn (f : Sealing → Sealing) (d : Die) : (updSealing f d).wdn = d.wdn := rfl
@[simp] theorem updSealing_fcu (f : Sealing → Sealing) (d : Die) : (updSealing f d).fcu = d.fcu := rfl
@[simp] theorem updSealing_mem (f : Sealing → Sealing) (d : Die) : (updSealing f d).mem = d.mem := rfl
@[simp] theorem updSealing_key (f : Sealing → Sealing) (d : Die) : (updSealing f d).key = d.key := rfl
@[simp] theorem updSealing_pel (f : Sealing → Sealing) (d : Die) : (updSealing f d).pel = d.pel := rfl
@[simp] theorem updSealing_descs (f : Sealing → Sealing) (d : Die) : (updSealing f d).descs = d.descs := rfl
@[simp] theorem updSealing_freeCtr (f : Sealing → Sealing) (d : Die) : (updSealing f d).freeCtr = d.freeCtr := rfl
@[simp] theorem updSealing_out (f : Sealing → Sealing) (d : Die) : (updSealing f d).out = d.out := rfl

/-! ## updVp -/

@[simp] theorem updVp_which (f : Vp → Vp) (d : Die) : (updVp f d).which = d.which := rfl
@[simp] theorem updVp_phase (f : Vp → Vp) (d : Die) : (updVp f d).phase = d.phase := rfl
@[simp] theorem updVp_phaseSlot (f : Vp → Vp) (d : Die) : (updVp f d).phaseSlot = d.phaseSlot := rfl
@[simp] theorem updVp_regs (f : Vp → Vp) (d : Die) : (updVp f d).regs = d.regs := rfl
@[simp] theorem updVp_errs (f : Vp → Vp) (d : Die) : (updVp f d).errs = d.errs := rfl
@[simp] theorem updVp_wlk (f : Vp → Vp) (d : Die) : (updVp f d).wlk = d.wlk := rfl
@[simp] theorem updVp_wrd (f : Vp → Vp) (d : Die) : (updVp f d).wrd = d.wrd := rfl
@[simp] theorem updVp_chn (f : Vp → Vp) (d : Die) : (updVp f d).chn = d.chn := rfl
@[simp] theorem updVp_rat (f : Vp → Vp) (d : Die) : (updVp f d).rat = d.rat := rfl
@[simp] theorem updVp_adm (f : Vp → Vp) (d : Die) : (updVp f d).adm = d.adm := rfl
@[simp] theorem updVp_cad (f : Vp → Vp) (d : Die) : (updVp f d).cad = d.cad := rfl
@[simp] theorem updVp_sealing (f : Vp → Vp) (d : Die) : (updVp f d).sealing = d.sealing := rfl
@[simp] theorem updVp_res (f : Vp → Vp) (d : Die) : (updVp f d).res = d.res := rfl
@[simp] theorem updVp_bnd (f : Vp → Vp) (d : Die) : (updVp f d).bnd = d.bnd := rfl
@[simp] theorem updVp_nle (f : Vp → Vp) (d : Die) : (updVp f d).nle = d.nle := rfl
@[simp] theorem updVp_cwe (f : Vp → Vp) (d : Die) : (updVp f d).cwe = d.cwe := rfl
@[simp] theorem updVp_snt (f : Vp → Vp) (d : Die) : (updVp f d).snt = d.snt := rfl
@[simp] theorem updVp_shk (f : Vp → Vp) (d : Die) : (updVp f d).shk = d.shk := rfl
@[simp] theorem updVp_sig (f : Vp → Vp) (d : Die) : (updVp f d).sig = d.sig := rfl
@[simp] theorem updVp_vp (f : Vp → Vp) (d : Die) : (updVp f d).vp = f d.vp := rfl
@[simp] theorem updVp_spk (f : Vp → Vp) (d : Die) : (updVp f d).spk = d.spk := rfl
@[simp] theorem updVp_dbg (f : Vp → Vp) (d : Die) : (updVp f d).dbg = d.dbg := rfl
@[simp] theorem updVp_sntb (f : Vp → Vp) (d : Die) : (updVp f d).sntb = d.sntb := rfl
@[simp] theorem updVp_tim (f : Vp → Vp) (d : Die) : (updVp f d).tim = d.tim := rfl
@[simp] theorem updVp_hst (f : Vp → Vp) (d : Die) : (updVp f d).hst = d.hst := rfl
@[simp] theorem updVp_ing (f : Vp → Vp) (d : Die) : (updVp f d).ing = d.ing := rfl
@[simp] theorem updVp_wdn (f : Vp → Vp) (d : Die) : (updVp f d).wdn = d.wdn := rfl
@[simp] theorem updVp_fcu (f : Vp → Vp) (d : Die) : (updVp f d).fcu = d.fcu := rfl
@[simp] theorem updVp_mem (f : Vp → Vp) (d : Die) : (updVp f d).mem = d.mem := rfl
@[simp] theorem updVp_key (f : Vp → Vp) (d : Die) : (updVp f d).key = d.key := rfl
@[simp] theorem updVp_pel (f : Vp → Vp) (d : Die) : (updVp f d).pel = d.pel := rfl
@[simp] theorem updVp_descs (f : Vp → Vp) (d : Die) : (updVp f d).descs = d.descs := rfl
@[simp] theorem updVp_freeCtr (f : Vp → Vp) (d : Die) : (updVp f d).freeCtr = d.freeCtr := rfl
@[simp] theorem updVp_out (f : Vp → Vp) (d : Die) : (updVp f d).out = d.out := rfl

/-! ## updSpk -/

@[simp] theorem updSpk_which (f : Spk → Spk) (d : Die) : (updSpk f d).which = d.which := rfl
@[simp] theorem updSpk_phase (f : Spk → Spk) (d : Die) : (updSpk f d).phase = d.phase := rfl
@[simp] theorem updSpk_phaseSlot (f : Spk → Spk) (d : Die) : (updSpk f d).phaseSlot = d.phaseSlot := rfl
@[simp] theorem updSpk_regs (f : Spk → Spk) (d : Die) : (updSpk f d).regs = d.regs := rfl
@[simp] theorem updSpk_errs (f : Spk → Spk) (d : Die) : (updSpk f d).errs = d.errs := rfl
@[simp] theorem updSpk_wlk (f : Spk → Spk) (d : Die) : (updSpk f d).wlk = d.wlk := rfl
@[simp] theorem updSpk_wrd (f : Spk → Spk) (d : Die) : (updSpk f d).wrd = d.wrd := rfl
@[simp] theorem updSpk_chn (f : Spk → Spk) (d : Die) : (updSpk f d).chn = d.chn := rfl
@[simp] theorem updSpk_rat (f : Spk → Spk) (d : Die) : (updSpk f d).rat = d.rat := rfl
@[simp] theorem updSpk_adm (f : Spk → Spk) (d : Die) : (updSpk f d).adm = d.adm := rfl
@[simp] theorem updSpk_cad (f : Spk → Spk) (d : Die) : (updSpk f d).cad = d.cad := rfl
@[simp] theorem updSpk_sealing (f : Spk → Spk) (d : Die) : (updSpk f d).sealing = d.sealing := rfl
@[simp] theorem updSpk_res (f : Spk → Spk) (d : Die) : (updSpk f d).res = d.res := rfl
@[simp] theorem updSpk_bnd (f : Spk → Spk) (d : Die) : (updSpk f d).bnd = d.bnd := rfl
@[simp] theorem updSpk_nle (f : Spk → Spk) (d : Die) : (updSpk f d).nle = d.nle := rfl
@[simp] theorem updSpk_cwe (f : Spk → Spk) (d : Die) : (updSpk f d).cwe = d.cwe := rfl
@[simp] theorem updSpk_snt (f : Spk → Spk) (d : Die) : (updSpk f d).snt = d.snt := rfl
@[simp] theorem updSpk_shk (f : Spk → Spk) (d : Die) : (updSpk f d).shk = d.shk := rfl
@[simp] theorem updSpk_sig (f : Spk → Spk) (d : Die) : (updSpk f d).sig = d.sig := rfl
@[simp] theorem updSpk_vp (f : Spk → Spk) (d : Die) : (updSpk f d).vp = d.vp := rfl
@[simp] theorem updSpk_spk (f : Spk → Spk) (d : Die) : (updSpk f d).spk = f d.spk := rfl
@[simp] theorem updSpk_dbg (f : Spk → Spk) (d : Die) : (updSpk f d).dbg = d.dbg := rfl
@[simp] theorem updSpk_sntb (f : Spk → Spk) (d : Die) : (updSpk f d).sntb = d.sntb := rfl
@[simp] theorem updSpk_tim (f : Spk → Spk) (d : Die) : (updSpk f d).tim = d.tim := rfl
@[simp] theorem updSpk_hst (f : Spk → Spk) (d : Die) : (updSpk f d).hst = d.hst := rfl
@[simp] theorem updSpk_ing (f : Spk → Spk) (d : Die) : (updSpk f d).ing = d.ing := rfl
@[simp] theorem updSpk_wdn (f : Spk → Spk) (d : Die) : (updSpk f d).wdn = d.wdn := rfl
@[simp] theorem updSpk_fcu (f : Spk → Spk) (d : Die) : (updSpk f d).fcu = d.fcu := rfl
@[simp] theorem updSpk_mem (f : Spk → Spk) (d : Die) : (updSpk f d).mem = d.mem := rfl
@[simp] theorem updSpk_key (f : Spk → Spk) (d : Die) : (updSpk f d).key = d.key := rfl
@[simp] theorem updSpk_pel (f : Spk → Spk) (d : Die) : (updSpk f d).pel = d.pel := rfl
@[simp] theorem updSpk_descs (f : Spk → Spk) (d : Die) : (updSpk f d).descs = d.descs := rfl
@[simp] theorem updSpk_freeCtr (f : Spk → Spk) (d : Die) : (updSpk f d).freeCtr = d.freeCtr := rfl
@[simp] theorem updSpk_out (f : Spk → Spk) (d : Die) : (updSpk f d).out = d.out := rfl

/-! ## updDbg -/

@[simp] theorem updDbg_which (f : Dbg → Dbg) (d : Die) : (updDbg f d).which = d.which := rfl
@[simp] theorem updDbg_phase (f : Dbg → Dbg) (d : Die) : (updDbg f d).phase = d.phase := rfl
@[simp] theorem updDbg_phaseSlot (f : Dbg → Dbg) (d : Die) : (updDbg f d).phaseSlot = d.phaseSlot := rfl
@[simp] theorem updDbg_regs (f : Dbg → Dbg) (d : Die) : (updDbg f d).regs = d.regs := rfl
@[simp] theorem updDbg_errs (f : Dbg → Dbg) (d : Die) : (updDbg f d).errs = d.errs := rfl
@[simp] theorem updDbg_wlk (f : Dbg → Dbg) (d : Die) : (updDbg f d).wlk = d.wlk := rfl
@[simp] theorem updDbg_wrd (f : Dbg → Dbg) (d : Die) : (updDbg f d).wrd = d.wrd := rfl
@[simp] theorem updDbg_chn (f : Dbg → Dbg) (d : Die) : (updDbg f d).chn = d.chn := rfl
@[simp] theorem updDbg_rat (f : Dbg → Dbg) (d : Die) : (updDbg f d).rat = d.rat := rfl
@[simp] theorem updDbg_adm (f : Dbg → Dbg) (d : Die) : (updDbg f d).adm = d.adm := rfl
@[simp] theorem updDbg_cad (f : Dbg → Dbg) (d : Die) : (updDbg f d).cad = d.cad := rfl
@[simp] theorem updDbg_sealing (f : Dbg → Dbg) (d : Die) : (updDbg f d).sealing = d.sealing := rfl
@[simp] theorem updDbg_res (f : Dbg → Dbg) (d : Die) : (updDbg f d).res = d.res := rfl
@[simp] theorem updDbg_bnd (f : Dbg → Dbg) (d : Die) : (updDbg f d).bnd = d.bnd := rfl
@[simp] theorem updDbg_nle (f : Dbg → Dbg) (d : Die) : (updDbg f d).nle = d.nle := rfl
@[simp] theorem updDbg_cwe (f : Dbg → Dbg) (d : Die) : (updDbg f d).cwe = d.cwe := rfl
@[simp] theorem updDbg_snt (f : Dbg → Dbg) (d : Die) : (updDbg f d).snt = d.snt := rfl
@[simp] theorem updDbg_shk (f : Dbg → Dbg) (d : Die) : (updDbg f d).shk = d.shk := rfl
@[simp] theorem updDbg_sig (f : Dbg → Dbg) (d : Die) : (updDbg f d).sig = d.sig := rfl
@[simp] theorem updDbg_vp (f : Dbg → Dbg) (d : Die) : (updDbg f d).vp = d.vp := rfl
@[simp] theorem updDbg_spk (f : Dbg → Dbg) (d : Die) : (updDbg f d).spk = d.spk := rfl
@[simp] theorem updDbg_dbg (f : Dbg → Dbg) (d : Die) : (updDbg f d).dbg = f d.dbg := rfl
@[simp] theorem updDbg_sntb (f : Dbg → Dbg) (d : Die) : (updDbg f d).sntb = d.sntb := rfl
@[simp] theorem updDbg_tim (f : Dbg → Dbg) (d : Die) : (updDbg f d).tim = d.tim := rfl
@[simp] theorem updDbg_hst (f : Dbg → Dbg) (d : Die) : (updDbg f d).hst = d.hst := rfl
@[simp] theorem updDbg_ing (f : Dbg → Dbg) (d : Die) : (updDbg f d).ing = d.ing := rfl
@[simp] theorem updDbg_wdn (f : Dbg → Dbg) (d : Die) : (updDbg f d).wdn = d.wdn := rfl
@[simp] theorem updDbg_fcu (f : Dbg → Dbg) (d : Die) : (updDbg f d).fcu = d.fcu := rfl
@[simp] theorem updDbg_mem (f : Dbg → Dbg) (d : Die) : (updDbg f d).mem = d.mem := rfl
@[simp] theorem updDbg_key (f : Dbg → Dbg) (d : Die) : (updDbg f d).key = d.key := rfl
@[simp] theorem updDbg_pel (f : Dbg → Dbg) (d : Die) : (updDbg f d).pel = d.pel := rfl
@[simp] theorem updDbg_descs (f : Dbg → Dbg) (d : Die) : (updDbg f d).descs = d.descs := rfl
@[simp] theorem updDbg_freeCtr (f : Dbg → Dbg) (d : Die) : (updDbg f d).freeCtr = d.freeCtr := rfl
@[simp] theorem updDbg_out (f : Dbg → Dbg) (d : Die) : (updDbg f d).out = d.out := rfl

/-! ## updTim -/

@[simp] theorem updTim_which (f : Tim → Tim) (d : Die) : (updTim f d).which = d.which := rfl
@[simp] theorem updTim_phase (f : Tim → Tim) (d : Die) : (updTim f d).phase = d.phase := rfl
@[simp] theorem updTim_phaseSlot (f : Tim → Tim) (d : Die) : (updTim f d).phaseSlot = d.phaseSlot := rfl
@[simp] theorem updTim_regs (f : Tim → Tim) (d : Die) : (updTim f d).regs = d.regs := rfl
@[simp] theorem updTim_errs (f : Tim → Tim) (d : Die) : (updTim f d).errs = d.errs := rfl
@[simp] theorem updTim_wlk (f : Tim → Tim) (d : Die) : (updTim f d).wlk = d.wlk := rfl
@[simp] theorem updTim_wrd (f : Tim → Tim) (d : Die) : (updTim f d).wrd = d.wrd := rfl
@[simp] theorem updTim_chn (f : Tim → Tim) (d : Die) : (updTim f d).chn = d.chn := rfl
@[simp] theorem updTim_rat (f : Tim → Tim) (d : Die) : (updTim f d).rat = d.rat := rfl
@[simp] theorem updTim_adm (f : Tim → Tim) (d : Die) : (updTim f d).adm = d.adm := rfl
@[simp] theorem updTim_cad (f : Tim → Tim) (d : Die) : (updTim f d).cad = d.cad := rfl
@[simp] theorem updTim_sealing (f : Tim → Tim) (d : Die) : (updTim f d).sealing = d.sealing := rfl
@[simp] theorem updTim_res (f : Tim → Tim) (d : Die) : (updTim f d).res = d.res := rfl
@[simp] theorem updTim_bnd (f : Tim → Tim) (d : Die) : (updTim f d).bnd = d.bnd := rfl
@[simp] theorem updTim_nle (f : Tim → Tim) (d : Die) : (updTim f d).nle = d.nle := rfl
@[simp] theorem updTim_cwe (f : Tim → Tim) (d : Die) : (updTim f d).cwe = d.cwe := rfl
@[simp] theorem updTim_snt (f : Tim → Tim) (d : Die) : (updTim f d).snt = d.snt := rfl
@[simp] theorem updTim_shk (f : Tim → Tim) (d : Die) : (updTim f d).shk = d.shk := rfl
@[simp] theorem updTim_sig (f : Tim → Tim) (d : Die) : (updTim f d).sig = d.sig := rfl
@[simp] theorem updTim_vp (f : Tim → Tim) (d : Die) : (updTim f d).vp = d.vp := rfl
@[simp] theorem updTim_spk (f : Tim → Tim) (d : Die) : (updTim f d).spk = d.spk := rfl
@[simp] theorem updTim_dbg (f : Tim → Tim) (d : Die) : (updTim f d).dbg = d.dbg := rfl
@[simp] theorem updTim_sntb (f : Tim → Tim) (d : Die) : (updTim f d).sntb = d.sntb := rfl
@[simp] theorem updTim_tim (f : Tim → Tim) (d : Die) : (updTim f d).tim = f d.tim := rfl
@[simp] theorem updTim_hst (f : Tim → Tim) (d : Die) : (updTim f d).hst = d.hst := rfl
@[simp] theorem updTim_ing (f : Tim → Tim) (d : Die) : (updTim f d).ing = d.ing := rfl
@[simp] theorem updTim_wdn (f : Tim → Tim) (d : Die) : (updTim f d).wdn = d.wdn := rfl
@[simp] theorem updTim_fcu (f : Tim → Tim) (d : Die) : (updTim f d).fcu = d.fcu := rfl
@[simp] theorem updTim_mem (f : Tim → Tim) (d : Die) : (updTim f d).mem = d.mem := rfl
@[simp] theorem updTim_key (f : Tim → Tim) (d : Die) : (updTim f d).key = d.key := rfl
@[simp] theorem updTim_pel (f : Tim → Tim) (d : Die) : (updTim f d).pel = d.pel := rfl
@[simp] theorem updTim_descs (f : Tim → Tim) (d : Die) : (updTim f d).descs = d.descs := rfl
@[simp] theorem updTim_freeCtr (f : Tim → Tim) (d : Die) : (updTim f d).freeCtr = d.freeCtr := rfl
@[simp] theorem updTim_out (f : Tim → Tim) (d : Die) : (updTim f d).out = d.out := rfl

/-! ## updHst -/

@[simp] theorem updHst_which (f : Hst → Hst) (d : Die) : (updHst f d).which = d.which := rfl
@[simp] theorem updHst_phase (f : Hst → Hst) (d : Die) : (updHst f d).phase = d.phase := rfl
@[simp] theorem updHst_phaseSlot (f : Hst → Hst) (d : Die) : (updHst f d).phaseSlot = d.phaseSlot := rfl
@[simp] theorem updHst_regs (f : Hst → Hst) (d : Die) : (updHst f d).regs = d.regs := rfl
@[simp] theorem updHst_errs (f : Hst → Hst) (d : Die) : (updHst f d).errs = d.errs := rfl
@[simp] theorem updHst_wlk (f : Hst → Hst) (d : Die) : (updHst f d).wlk = d.wlk := rfl
@[simp] theorem updHst_wrd (f : Hst → Hst) (d : Die) : (updHst f d).wrd = d.wrd := rfl
@[simp] theorem updHst_chn (f : Hst → Hst) (d : Die) : (updHst f d).chn = d.chn := rfl
@[simp] theorem updHst_rat (f : Hst → Hst) (d : Die) : (updHst f d).rat = d.rat := rfl
@[simp] theorem updHst_adm (f : Hst → Hst) (d : Die) : (updHst f d).adm = d.adm := rfl
@[simp] theorem updHst_cad (f : Hst → Hst) (d : Die) : (updHst f d).cad = d.cad := rfl
@[simp] theorem updHst_sealing (f : Hst → Hst) (d : Die) : (updHst f d).sealing = d.sealing := rfl
@[simp] theorem updHst_res (f : Hst → Hst) (d : Die) : (updHst f d).res = d.res := rfl
@[simp] theorem updHst_bnd (f : Hst → Hst) (d : Die) : (updHst f d).bnd = d.bnd := rfl
@[simp] theorem updHst_nle (f : Hst → Hst) (d : Die) : (updHst f d).nle = d.nle := rfl
@[simp] theorem updHst_cwe (f : Hst → Hst) (d : Die) : (updHst f d).cwe = d.cwe := rfl
@[simp] theorem updHst_snt (f : Hst → Hst) (d : Die) : (updHst f d).snt = d.snt := rfl
@[simp] theorem updHst_shk (f : Hst → Hst) (d : Die) : (updHst f d).shk = d.shk := rfl
@[simp] theorem updHst_sig (f : Hst → Hst) (d : Die) : (updHst f d).sig = d.sig := rfl
@[simp] theorem updHst_vp (f : Hst → Hst) (d : Die) : (updHst f d).vp = d.vp := rfl
@[simp] theorem updHst_spk (f : Hst → Hst) (d : Die) : (updHst f d).spk = d.spk := rfl
@[simp] theorem updHst_dbg (f : Hst → Hst) (d : Die) : (updHst f d).dbg = d.dbg := rfl
@[simp] theorem updHst_sntb (f : Hst → Hst) (d : Die) : (updHst f d).sntb = d.sntb := rfl
@[simp] theorem updHst_tim (f : Hst → Hst) (d : Die) : (updHst f d).tim = d.tim := rfl
@[simp] theorem updHst_hst (f : Hst → Hst) (d : Die) : (updHst f d).hst = f d.hst := rfl
@[simp] theorem updHst_ing (f : Hst → Hst) (d : Die) : (updHst f d).ing = d.ing := rfl
@[simp] theorem updHst_wdn (f : Hst → Hst) (d : Die) : (updHst f d).wdn = d.wdn := rfl
@[simp] theorem updHst_fcu (f : Hst → Hst) (d : Die) : (updHst f d).fcu = d.fcu := rfl
@[simp] theorem updHst_mem (f : Hst → Hst) (d : Die) : (updHst f d).mem = d.mem := rfl
@[simp] theorem updHst_key (f : Hst → Hst) (d : Die) : (updHst f d).key = d.key := rfl
@[simp] theorem updHst_pel (f : Hst → Hst) (d : Die) : (updHst f d).pel = d.pel := rfl
@[simp] theorem updHst_descs (f : Hst → Hst) (d : Die) : (updHst f d).descs = d.descs := rfl
@[simp] theorem updHst_freeCtr (f : Hst → Hst) (d : Die) : (updHst f d).freeCtr = d.freeCtr := rfl
@[simp] theorem updHst_out (f : Hst → Hst) (d : Die) : (updHst f d).out = d.out := rfl

/-! ## updKey -/

@[simp] theorem updKey_which (f : KeyBlk → KeyBlk) (d : Die) : (updKey f d).which = d.which := rfl
@[simp] theorem updKey_phase (f : KeyBlk → KeyBlk) (d : Die) : (updKey f d).phase = d.phase := rfl
@[simp] theorem updKey_phaseSlot (f : KeyBlk → KeyBlk) (d : Die) : (updKey f d).phaseSlot = d.phaseSlot := rfl
@[simp] theorem updKey_regs (f : KeyBlk → KeyBlk) (d : Die) : (updKey f d).regs = d.regs := rfl
@[simp] theorem updKey_errs (f : KeyBlk → KeyBlk) (d : Die) : (updKey f d).errs = d.errs := rfl
@[simp] theorem updKey_wlk (f : KeyBlk → KeyBlk) (d : Die) : (updKey f d).wlk = d.wlk := rfl
@[simp] theorem updKey_wrd (f : KeyBlk → KeyBlk) (d : Die) : (updKey f d).wrd = d.wrd := rfl
@[simp] theorem updKey_chn (f : KeyBlk → KeyBlk) (d : Die) : (updKey f d).chn = d.chn := rfl
@[simp] theorem updKey_rat (f : KeyBlk → KeyBlk) (d : Die) : (updKey f d).rat = d.rat := rfl
@[simp] theorem updKey_adm (f : KeyBlk → KeyBlk) (d : Die) : (updKey f d).adm = d.adm := rfl
@[simp] theorem updKey_cad (f : KeyBlk → KeyBlk) (d : Die) : (updKey f d).cad = d.cad := rfl
@[simp] theorem updKey_sealing (f : KeyBlk → KeyBlk) (d : Die) : (updKey f d).sealing = d.sealing := rfl
@[simp] theorem updKey_res (f : KeyBlk → KeyBlk) (d : Die) : (updKey f d).res = d.res := rfl
@[simp] theorem updKey_bnd (f : KeyBlk → KeyBlk) (d : Die) : (updKey f d).bnd = d.bnd := rfl
@[simp] theorem updKey_nle (f : KeyBlk → KeyBlk) (d : Die) : (updKey f d).nle = d.nle := rfl
@[simp] theorem updKey_cwe (f : KeyBlk → KeyBlk) (d : Die) : (updKey f d).cwe = d.cwe := rfl
@[simp] theorem updKey_snt (f : KeyBlk → KeyBlk) (d : Die) : (updKey f d).snt = d.snt := rfl
@[simp] theorem updKey_shk (f : KeyBlk → KeyBlk) (d : Die) : (updKey f d).shk = d.shk := rfl
@[simp] theorem updKey_sig (f : KeyBlk → KeyBlk) (d : Die) : (updKey f d).sig = d.sig := rfl
@[simp] theorem updKey_vp (f : KeyBlk → KeyBlk) (d : Die) : (updKey f d).vp = d.vp := rfl
@[simp] theorem updKey_spk (f : KeyBlk → KeyBlk) (d : Die) : (updKey f d).spk = d.spk := rfl
@[simp] theorem updKey_dbg (f : KeyBlk → KeyBlk) (d : Die) : (updKey f d).dbg = d.dbg := rfl
@[simp] theorem updKey_sntb (f : KeyBlk → KeyBlk) (d : Die) : (updKey f d).sntb = d.sntb := rfl
@[simp] theorem updKey_tim (f : KeyBlk → KeyBlk) (d : Die) : (updKey f d).tim = d.tim := rfl
@[simp] theorem updKey_hst (f : KeyBlk → KeyBlk) (d : Die) : (updKey f d).hst = d.hst := rfl
@[simp] theorem updKey_ing (f : KeyBlk → KeyBlk) (d : Die) : (updKey f d).ing = d.ing := rfl
@[simp] theorem updKey_wdn (f : KeyBlk → KeyBlk) (d : Die) : (updKey f d).wdn = d.wdn := rfl
@[simp] theorem updKey_fcu (f : KeyBlk → KeyBlk) (d : Die) : (updKey f d).fcu = d.fcu := rfl
@[simp] theorem updKey_mem (f : KeyBlk → KeyBlk) (d : Die) : (updKey f d).mem = d.mem := rfl
@[simp] theorem updKey_key (f : KeyBlk → KeyBlk) (d : Die) : (updKey f d).key = f d.key := rfl
@[simp] theorem updKey_pel (f : KeyBlk → KeyBlk) (d : Die) : (updKey f d).pel = d.pel := rfl
@[simp] theorem updKey_descs (f : KeyBlk → KeyBlk) (d : Die) : (updKey f d).descs = d.descs := rfl
@[simp] theorem updKey_freeCtr (f : KeyBlk → KeyBlk) (d : Die) : (updKey f d).freeCtr = d.freeCtr := rfl
@[simp] theorem updKey_out (f : KeyBlk → KeyBlk) (d : Die) : (updKey f d).out = d.out := rfl

/-! ## updSnt -/

@[simp] theorem updSnt_which (f : Snt → Snt) (d : Die) : (updSnt f d).which = d.which := rfl
@[simp] theorem updSnt_phase (f : Snt → Snt) (d : Die) : (updSnt f d).phase = d.phase := rfl
@[simp] theorem updSnt_phaseSlot (f : Snt → Snt) (d : Die) : (updSnt f d).phaseSlot = d.phaseSlot := rfl
@[simp] theorem updSnt_regs (f : Snt → Snt) (d : Die) : (updSnt f d).regs = d.regs := rfl
@[simp] theorem updSnt_errs (f : Snt → Snt) (d : Die) : (updSnt f d).errs = d.errs := rfl
@[simp] theorem updSnt_wlk (f : Snt → Snt) (d : Die) : (updSnt f d).wlk = d.wlk := rfl
@[simp] theorem updSnt_wrd (f : Snt → Snt) (d : Die) : (updSnt f d).wrd = d.wrd := rfl
@[simp] theorem updSnt_chn (f : Snt → Snt) (d : Die) : (updSnt f d).chn = d.chn := rfl
@[simp] theorem updSnt_rat (f : Snt → Snt) (d : Die) : (updSnt f d).rat = d.rat := rfl
@[simp] theorem updSnt_adm (f : Snt → Snt) (d : Die) : (updSnt f d).adm = d.adm := rfl
@[simp] theorem updSnt_cad (f : Snt → Snt) (d : Die) : (updSnt f d).cad = d.cad := rfl
@[simp] theorem updSnt_sealing (f : Snt → Snt) (d : Die) : (updSnt f d).sealing = d.sealing := rfl
@[simp] theorem updSnt_res (f : Snt → Snt) (d : Die) : (updSnt f d).res = d.res := rfl
@[simp] theorem updSnt_bnd (f : Snt → Snt) (d : Die) : (updSnt f d).bnd = d.bnd := rfl
@[simp] theorem updSnt_nle (f : Snt → Snt) (d : Die) : (updSnt f d).nle = d.nle := rfl
@[simp] theorem updSnt_cwe (f : Snt → Snt) (d : Die) : (updSnt f d).cwe = d.cwe := rfl
@[simp] theorem updSnt_snt (f : Snt → Snt) (d : Die) : (updSnt f d).snt = d.snt := rfl
@[simp] theorem updSnt_shk (f : Snt → Snt) (d : Die) : (updSnt f d).shk = d.shk := rfl
@[simp] theorem updSnt_sig (f : Snt → Snt) (d : Die) : (updSnt f d).sig = d.sig := rfl
@[simp] theorem updSnt_vp (f : Snt → Snt) (d : Die) : (updSnt f d).vp = d.vp := rfl
@[simp] theorem updSnt_spk (f : Snt → Snt) (d : Die) : (updSnt f d).spk = d.spk := rfl
@[simp] theorem updSnt_dbg (f : Snt → Snt) (d : Die) : (updSnt f d).dbg = d.dbg := rfl
@[simp] theorem updSnt_sntb (f : Snt → Snt) (d : Die) : (updSnt f d).sntb = f d.sntb := rfl
@[simp] theorem updSnt_tim (f : Snt → Snt) (d : Die) : (updSnt f d).tim = d.tim := rfl
@[simp] theorem updSnt_hst (f : Snt → Snt) (d : Die) : (updSnt f d).hst = d.hst := rfl
@[simp] theorem updSnt_ing (f : Snt → Snt) (d : Die) : (updSnt f d).ing = d.ing := rfl
@[simp] theorem updSnt_wdn (f : Snt → Snt) (d : Die) : (updSnt f d).wdn = d.wdn := rfl
@[simp] theorem updSnt_fcu (f : Snt → Snt) (d : Die) : (updSnt f d).fcu = d.fcu := rfl
@[simp] theorem updSnt_mem (f : Snt → Snt) (d : Die) : (updSnt f d).mem = d.mem := rfl
@[simp] theorem updSnt_key (f : Snt → Snt) (d : Die) : (updSnt f d).key = d.key := rfl
@[simp] theorem updSnt_pel (f : Snt → Snt) (d : Die) : (updSnt f d).pel = d.pel := rfl
@[simp] theorem updSnt_descs (f : Snt → Snt) (d : Die) : (updSnt f d).descs = d.descs := rfl
@[simp] theorem updSnt_freeCtr (f : Snt → Snt) (d : Die) : (updSnt f d).freeCtr = d.freeCtr := rfl
@[simp] theorem updSnt_out (f : Snt → Snt) (d : Die) : (updSnt f d).out = d.out := rfl

/-! ## updIng -/

@[simp] theorem updIng_which (f : Ing → Ing) (d : Die) : (updIng f d).which = d.which := rfl
@[simp] theorem updIng_phase (f : Ing → Ing) (d : Die) : (updIng f d).phase = d.phase := rfl
@[simp] theorem updIng_phaseSlot (f : Ing → Ing) (d : Die) : (updIng f d).phaseSlot = d.phaseSlot := rfl
@[simp] theorem updIng_regs (f : Ing → Ing) (d : Die) : (updIng f d).regs = d.regs := rfl
@[simp] theorem updIng_errs (f : Ing → Ing) (d : Die) : (updIng f d).errs = d.errs := rfl
@[simp] theorem updIng_wlk (f : Ing → Ing) (d : Die) : (updIng f d).wlk = d.wlk := rfl
@[simp] theorem updIng_wrd (f : Ing → Ing) (d : Die) : (updIng f d).wrd = d.wrd := rfl
@[simp] theorem updIng_chn (f : Ing → Ing) (d : Die) : (updIng f d).chn = d.chn := rfl
@[simp] theorem updIng_rat (f : Ing → Ing) (d : Die) : (updIng f d).rat = d.rat := rfl
@[simp] theorem updIng_adm (f : Ing → Ing) (d : Die) : (updIng f d).adm = d.adm := rfl
@[simp] theorem updIng_cad (f : Ing → Ing) (d : Die) : (updIng f d).cad = d.cad := rfl
@[simp] theorem updIng_sealing (f : Ing → Ing) (d : Die) : (updIng f d).sealing = d.sealing := rfl
@[simp] theorem updIng_res (f : Ing → Ing) (d : Die) : (updIng f d).res = d.res := rfl
@[simp] theorem updIng_bnd (f : Ing → Ing) (d : Die) : (updIng f d).bnd = d.bnd := rfl
@[simp] theorem updIng_nle (f : Ing → Ing) (d : Die) : (updIng f d).nle = d.nle := rfl
@[simp] theorem updIng_cwe (f : Ing → Ing) (d : Die) : (updIng f d).cwe = d.cwe := rfl
@[simp] theorem updIng_snt (f : Ing → Ing) (d : Die) : (updIng f d).snt = d.snt := rfl
@[simp] theorem updIng_shk (f : Ing → Ing) (d : Die) : (updIng f d).shk = d.shk := rfl
@[simp] theorem updIng_sig (f : Ing → Ing) (d : Die) : (updIng f d).sig = d.sig := rfl
@[simp] theorem updIng_vp (f : Ing → Ing) (d : Die) : (updIng f d).vp = d.vp := rfl
@[simp] theorem updIng_spk (f : Ing → Ing) (d : Die) : (updIng f d).spk = d.spk := rfl
@[simp] theorem updIng_dbg (f : Ing → Ing) (d : Die) : (updIng f d).dbg = d.dbg := rfl
@[simp] theorem updIng_sntb (f : Ing → Ing) (d : Die) : (updIng f d).sntb = d.sntb := rfl
@[simp] theorem updIng_tim (f : Ing → Ing) (d : Die) : (updIng f d).tim = d.tim := rfl
@[simp] theorem updIng_hst (f : Ing → Ing) (d : Die) : (updIng f d).hst = d.hst := rfl
@[simp] theorem updIng_ing (f : Ing → Ing) (d : Die) : (updIng f d).ing = f d.ing := rfl
@[simp] theorem updIng_wdn (f : Ing → Ing) (d : Die) : (updIng f d).wdn = d.wdn := rfl
@[simp] theorem updIng_fcu (f : Ing → Ing) (d : Die) : (updIng f d).fcu = d.fcu := rfl
@[simp] theorem updIng_mem (f : Ing → Ing) (d : Die) : (updIng f d).mem = d.mem := rfl
@[simp] theorem updIng_key (f : Ing → Ing) (d : Die) : (updIng f d).key = d.key := rfl
@[simp] theorem updIng_pel (f : Ing → Ing) (d : Die) : (updIng f d).pel = d.pel := rfl
@[simp] theorem updIng_descs (f : Ing → Ing) (d : Die) : (updIng f d).descs = d.descs := rfl
@[simp] theorem updIng_freeCtr (f : Ing → Ing) (d : Die) : (updIng f d).freeCtr = d.freeCtr := rfl
@[simp] theorem updIng_out (f : Ing → Ing) (d : Die) : (updIng f d).out = d.out := rfl

/-! ## updWdn -/

@[simp] theorem updWdn_which (f : Wdn → Wdn) (d : Die) : (updWdn f d).which = d.which := rfl
@[simp] theorem updWdn_phase (f : Wdn → Wdn) (d : Die) : (updWdn f d).phase = d.phase := rfl
@[simp] theorem updWdn_phaseSlot (f : Wdn → Wdn) (d : Die) : (updWdn f d).phaseSlot = d.phaseSlot := rfl
@[simp] theorem updWdn_regs (f : Wdn → Wdn) (d : Die) : (updWdn f d).regs = d.regs := rfl
@[simp] theorem updWdn_errs (f : Wdn → Wdn) (d : Die) : (updWdn f d).errs = d.errs := rfl
@[simp] theorem updWdn_wlk (f : Wdn → Wdn) (d : Die) : (updWdn f d).wlk = d.wlk := rfl
@[simp] theorem updWdn_wrd (f : Wdn → Wdn) (d : Die) : (updWdn f d).wrd = d.wrd := rfl
@[simp] theorem updWdn_chn (f : Wdn → Wdn) (d : Die) : (updWdn f d).chn = d.chn := rfl
@[simp] theorem updWdn_rat (f : Wdn → Wdn) (d : Die) : (updWdn f d).rat = d.rat := rfl
@[simp] theorem updWdn_adm (f : Wdn → Wdn) (d : Die) : (updWdn f d).adm = d.adm := rfl
@[simp] theorem updWdn_cad (f : Wdn → Wdn) (d : Die) : (updWdn f d).cad = d.cad := rfl
@[simp] theorem updWdn_sealing (f : Wdn → Wdn) (d : Die) : (updWdn f d).sealing = d.sealing := rfl
@[simp] theorem updWdn_res (f : Wdn → Wdn) (d : Die) : (updWdn f d).res = d.res := rfl
@[simp] theorem updWdn_bnd (f : Wdn → Wdn) (d : Die) : (updWdn f d).bnd = d.bnd := rfl
@[simp] theorem updWdn_nle (f : Wdn → Wdn) (d : Die) : (updWdn f d).nle = d.nle := rfl
@[simp] theorem updWdn_cwe (f : Wdn → Wdn) (d : Die) : (updWdn f d).cwe = d.cwe := rfl
@[simp] theorem updWdn_snt (f : Wdn → Wdn) (d : Die) : (updWdn f d).snt = d.snt := rfl
@[simp] theorem updWdn_shk (f : Wdn → Wdn) (d : Die) : (updWdn f d).shk = d.shk := rfl
@[simp] theorem updWdn_sig (f : Wdn → Wdn) (d : Die) : (updWdn f d).sig = d.sig := rfl
@[simp] theorem updWdn_vp (f : Wdn → Wdn) (d : Die) : (updWdn f d).vp = d.vp := rfl
@[simp] theorem updWdn_spk (f : Wdn → Wdn) (d : Die) : (updWdn f d).spk = d.spk := rfl
@[simp] theorem updWdn_dbg (f : Wdn → Wdn) (d : Die) : (updWdn f d).dbg = d.dbg := rfl
@[simp] theorem updWdn_sntb (f : Wdn → Wdn) (d : Die) : (updWdn f d).sntb = d.sntb := rfl
@[simp] theorem updWdn_tim (f : Wdn → Wdn) (d : Die) : (updWdn f d).tim = d.tim := rfl
@[simp] theorem updWdn_hst (f : Wdn → Wdn) (d : Die) : (updWdn f d).hst = d.hst := rfl
@[simp] theorem updWdn_ing (f : Wdn → Wdn) (d : Die) : (updWdn f d).ing = d.ing := rfl
@[simp] theorem updWdn_wdn (f : Wdn → Wdn) (d : Die) : (updWdn f d).wdn = f d.wdn := rfl
@[simp] theorem updWdn_fcu (f : Wdn → Wdn) (d : Die) : (updWdn f d).fcu = d.fcu := rfl
@[simp] theorem updWdn_mem (f : Wdn → Wdn) (d : Die) : (updWdn f d).mem = d.mem := rfl
@[simp] theorem updWdn_key (f : Wdn → Wdn) (d : Die) : (updWdn f d).key = d.key := rfl
@[simp] theorem updWdn_pel (f : Wdn → Wdn) (d : Die) : (updWdn f d).pel = d.pel := rfl
@[simp] theorem updWdn_descs (f : Wdn → Wdn) (d : Die) : (updWdn f d).descs = d.descs := rfl
@[simp] theorem updWdn_freeCtr (f : Wdn → Wdn) (d : Die) : (updWdn f d).freeCtr = d.freeCtr := rfl
@[simp] theorem updWdn_out (f : Wdn → Wdn) (d : Die) : (updWdn f d).out = d.out := rfl

/-! ## updPel -/

@[simp] theorem updPel_which (f : Pel → Pel) (d : Die) : (updPel f d).which = d.which := rfl
@[simp] theorem updPel_phase (f : Pel → Pel) (d : Die) : (updPel f d).phase = d.phase := rfl
@[simp] theorem updPel_phaseSlot (f : Pel → Pel) (d : Die) : (updPel f d).phaseSlot = d.phaseSlot := rfl
@[simp] theorem updPel_regs (f : Pel → Pel) (d : Die) : (updPel f d).regs = d.regs := rfl
@[simp] theorem updPel_errs (f : Pel → Pel) (d : Die) : (updPel f d).errs = d.errs := rfl
@[simp] theorem updPel_wlk (f : Pel → Pel) (d : Die) : (updPel f d).wlk = d.wlk := rfl
@[simp] theorem updPel_wrd (f : Pel → Pel) (d : Die) : (updPel f d).wrd = d.wrd := rfl
@[simp] theorem updPel_chn (f : Pel → Pel) (d : Die) : (updPel f d).chn = d.chn := rfl
@[simp] theorem updPel_rat (f : Pel → Pel) (d : Die) : (updPel f d).rat = d.rat := rfl
@[simp] theorem updPel_adm (f : Pel → Pel) (d : Die) : (updPel f d).adm = d.adm := rfl
@[simp] theorem updPel_cad (f : Pel → Pel) (d : Die) : (updPel f d).cad = d.cad := rfl
@[simp] theorem updPel_sealing (f : Pel → Pel) (d : Die) : (updPel f d).sealing = d.sealing := rfl
@[simp] theorem updPel_res (f : Pel → Pel) (d : Die) : (updPel f d).res = d.res := rfl
@[simp] theorem updPel_bnd (f : Pel → Pel) (d : Die) : (updPel f d).bnd = d.bnd := rfl
@[simp] theorem updPel_nle (f : Pel → Pel) (d : Die) : (updPel f d).nle = d.nle := rfl
@[simp] theorem updPel_cwe (f : Pel → Pel) (d : Die) : (updPel f d).cwe = d.cwe := rfl
@[simp] theorem updPel_snt (f : Pel → Pel) (d : Die) : (updPel f d).snt = d.snt := rfl
@[simp] theorem updPel_shk (f : Pel → Pel) (d : Die) : (updPel f d).shk = d.shk := rfl
@[simp] theorem updPel_sig (f : Pel → Pel) (d : Die) : (updPel f d).sig = d.sig := rfl
@[simp] theorem updPel_vp (f : Pel → Pel) (d : Die) : (updPel f d).vp = d.vp := rfl
@[simp] theorem updPel_spk (f : Pel → Pel) (d : Die) : (updPel f d).spk = d.spk := rfl
@[simp] theorem updPel_dbg (f : Pel → Pel) (d : Die) : (updPel f d).dbg = d.dbg := rfl
@[simp] theorem updPel_sntb (f : Pel → Pel) (d : Die) : (updPel f d).sntb = d.sntb := rfl
@[simp] theorem updPel_tim (f : Pel → Pel) (d : Die) : (updPel f d).tim = d.tim := rfl
@[simp] theorem updPel_hst (f : Pel → Pel) (d : Die) : (updPel f d).hst = d.hst := rfl
@[simp] theorem updPel_ing (f : Pel → Pel) (d : Die) : (updPel f d).ing = d.ing := rfl
@[simp] theorem updPel_wdn (f : Pel → Pel) (d : Die) : (updPel f d).wdn = d.wdn := rfl
@[simp] theorem updPel_fcu (f : Pel → Pel) (d : Die) : (updPel f d).fcu = d.fcu := rfl
@[simp] theorem updPel_mem (f : Pel → Pel) (d : Die) : (updPel f d).mem = d.mem := rfl
@[simp] theorem updPel_key (f : Pel → Pel) (d : Die) : (updPel f d).key = d.key := rfl
@[simp] theorem updPel_pel (f : Pel → Pel) (d : Die) : (updPel f d).pel = f d.pel := rfl
@[simp] theorem updPel_descs (f : Pel → Pel) (d : Die) : (updPel f d).descs = d.descs := rfl
@[simp] theorem updPel_freeCtr (f : Pel → Pel) (d : Die) : (updPel f d).freeCtr = d.freeCtr := rfl
@[simp] theorem updPel_out (f : Pel → Pel) (d : Die) : (updPel f d).out = d.out := rfl

/-! ## setErrPage -/

@[simp] theorem setErrPage_which (p : Nat) (e : ErrPage) (d : Die) : (setErrPage p e d).which = d.which := rfl
@[simp] theorem setErrPage_phase (p : Nat) (e : ErrPage) (d : Die) : (setErrPage p e d).phase = d.phase := rfl
@[simp] theorem setErrPage_phaseSlot (p : Nat) (e : ErrPage) (d : Die) : (setErrPage p e d).phaseSlot = d.phaseSlot :=
  rfl
@[simp] theorem setErrPage_regs (p : Nat) (e : ErrPage) (d : Die) : (setErrPage p e d).regs = d.regs := rfl
@[simp] theorem setErrPage_wlk (p : Nat) (e : ErrPage) (d : Die) : (setErrPage p e d).wlk = d.wlk := rfl
@[simp] theorem setErrPage_wrd (p : Nat) (e : ErrPage) (d : Die) : (setErrPage p e d).wrd = d.wrd := rfl
@[simp] theorem setErrPage_chn (p : Nat) (e : ErrPage) (d : Die) : (setErrPage p e d).chn = d.chn := rfl
@[simp] theorem setErrPage_rat (p : Nat) (e : ErrPage) (d : Die) : (setErrPage p e d).rat = d.rat := rfl
@[simp] theorem setErrPage_adm (p : Nat) (e : ErrPage) (d : Die) : (setErrPage p e d).adm = d.adm := rfl
@[simp] theorem setErrPage_cad (p : Nat) (e : ErrPage) (d : Die) : (setErrPage p e d).cad = d.cad := rfl
@[simp] theorem setErrPage_sealing (p : Nat) (e : ErrPage) (d : Die) : (setErrPage p e d).sealing = d.sealing := rfl
@[simp] theorem setErrPage_res (p : Nat) (e : ErrPage) (d : Die) : (setErrPage p e d).res = d.res := rfl
@[simp] theorem setErrPage_bnd (p : Nat) (e : ErrPage) (d : Die) : (setErrPage p e d).bnd = d.bnd := rfl
@[simp] theorem setErrPage_nle (p : Nat) (e : ErrPage) (d : Die) : (setErrPage p e d).nle = d.nle := rfl
@[simp] theorem setErrPage_cwe (p : Nat) (e : ErrPage) (d : Die) : (setErrPage p e d).cwe = d.cwe := rfl
@[simp] theorem setErrPage_snt (p : Nat) (e : ErrPage) (d : Die) : (setErrPage p e d).snt = d.snt := rfl
@[simp] theorem setErrPage_shk (p : Nat) (e : ErrPage) (d : Die) : (setErrPage p e d).shk = d.shk := rfl
@[simp] theorem setErrPage_sig (p : Nat) (e : ErrPage) (d : Die) : (setErrPage p e d).sig = d.sig := rfl
@[simp] theorem setErrPage_vp (p : Nat) (e : ErrPage) (d : Die) : (setErrPage p e d).vp = d.vp := rfl
@[simp] theorem setErrPage_spk (p : Nat) (e : ErrPage) (d : Die) : (setErrPage p e d).spk = d.spk := rfl
@[simp] theorem setErrPage_dbg (p : Nat) (e : ErrPage) (d : Die) : (setErrPage p e d).dbg = d.dbg := rfl
@[simp] theorem setErrPage_sntb (p : Nat) (e : ErrPage) (d : Die) : (setErrPage p e d).sntb = d.sntb := rfl
@[simp] theorem setErrPage_tim (p : Nat) (e : ErrPage) (d : Die) : (setErrPage p e d).tim = d.tim := rfl
@[simp] theorem setErrPage_hst (p : Nat) (e : ErrPage) (d : Die) : (setErrPage p e d).hst = d.hst := rfl
@[simp] theorem setErrPage_ing (p : Nat) (e : ErrPage) (d : Die) : (setErrPage p e d).ing = d.ing := rfl
@[simp] theorem setErrPage_wdn (p : Nat) (e : ErrPage) (d : Die) : (setErrPage p e d).wdn = d.wdn := rfl
@[simp] theorem setErrPage_fcu (p : Nat) (e : ErrPage) (d : Die) : (setErrPage p e d).fcu = d.fcu := rfl
@[simp] theorem setErrPage_mem (p : Nat) (e : ErrPage) (d : Die) : (setErrPage p e d).mem = d.mem := rfl
@[simp] theorem setErrPage_key (p : Nat) (e : ErrPage) (d : Die) : (setErrPage p e d).key = d.key := rfl
@[simp] theorem setErrPage_pel (p : Nat) (e : ErrPage) (d : Die) : (setErrPage p e d).pel = d.pel := rfl
@[simp] theorem setErrPage_descs (p : Nat) (e : ErrPage) (d : Die) : (setErrPage p e d).descs = d.descs := rfl
@[simp] theorem setErrPage_freeCtr (p : Nat) (e : ErrPage) (d : Die) : (setErrPage p e d).freeCtr = d.freeCtr := rfl
@[simp] theorem setErrPage_out (p : Nat) (e : ErrPage) (d : Die) : (setErrPage p e d).out = d.out := rfl

/-! ## clearErr -/

@[simp] theorem clearErr_which (p m : Nat) (d : Die) : (clearErr p m d).which = d.which := rfl
@[simp] theorem clearErr_phase (p m : Nat) (d : Die) : (clearErr p m d).phase = d.phase := rfl
@[simp] theorem clearErr_phaseSlot (p m : Nat) (d : Die) : (clearErr p m d).phaseSlot = d.phaseSlot := rfl
@[simp] theorem clearErr_regs (p m : Nat) (d : Die) : (clearErr p m d).regs = d.regs := rfl
@[simp] theorem clearErr_wlk (p m : Nat) (d : Die) : (clearErr p m d).wlk = d.wlk := rfl
@[simp] theorem clearErr_wrd (p m : Nat) (d : Die) : (clearErr p m d).wrd = d.wrd := rfl
@[simp] theorem clearErr_chn (p m : Nat) (d : Die) : (clearErr p m d).chn = d.chn := rfl
@[simp] theorem clearErr_rat (p m : Nat) (d : Die) : (clearErr p m d).rat = d.rat := rfl
@[simp] theorem clearErr_adm (p m : Nat) (d : Die) : (clearErr p m d).adm = d.adm := rfl
@[simp] theorem clearErr_cad (p m : Nat) (d : Die) : (clearErr p m d).cad = d.cad := rfl
@[simp] theorem clearErr_sealing (p m : Nat) (d : Die) : (clearErr p m d).sealing = d.sealing := rfl
@[simp] theorem clearErr_res (p m : Nat) (d : Die) : (clearErr p m d).res = d.res := rfl
@[simp] theorem clearErr_bnd (p m : Nat) (d : Die) : (clearErr p m d).bnd = d.bnd := rfl
@[simp] theorem clearErr_nle (p m : Nat) (d : Die) : (clearErr p m d).nle = d.nle := rfl
@[simp] theorem clearErr_cwe (p m : Nat) (d : Die) : (clearErr p m d).cwe = d.cwe := rfl
@[simp] theorem clearErr_snt (p m : Nat) (d : Die) : (clearErr p m d).snt = d.snt := rfl
@[simp] theorem clearErr_shk (p m : Nat) (d : Die) : (clearErr p m d).shk = d.shk := rfl
@[simp] theorem clearErr_sig (p m : Nat) (d : Die) : (clearErr p m d).sig = d.sig := rfl
@[simp] theorem clearErr_vp (p m : Nat) (d : Die) : (clearErr p m d).vp = d.vp := rfl
@[simp] theorem clearErr_spk (p m : Nat) (d : Die) : (clearErr p m d).spk = d.spk := rfl
@[simp] theorem clearErr_dbg (p m : Nat) (d : Die) : (clearErr p m d).dbg = d.dbg := rfl
@[simp] theorem clearErr_sntb (p m : Nat) (d : Die) : (clearErr p m d).sntb = d.sntb := rfl
@[simp] theorem clearErr_tim (p m : Nat) (d : Die) : (clearErr p m d).tim = d.tim := rfl
@[simp] theorem clearErr_hst (p m : Nat) (d : Die) : (clearErr p m d).hst = d.hst := rfl
@[simp] theorem clearErr_ing (p m : Nat) (d : Die) : (clearErr p m d).ing = d.ing := rfl
@[simp] theorem clearErr_wdn (p m : Nat) (d : Die) : (clearErr p m d).wdn = d.wdn := rfl
@[simp] theorem clearErr_fcu (p m : Nat) (d : Die) : (clearErr p m d).fcu = d.fcu := rfl
@[simp] theorem clearErr_mem (p m : Nat) (d : Die) : (clearErr p m d).mem = d.mem := rfl
@[simp] theorem clearErr_key (p m : Nat) (d : Die) : (clearErr p m d).key = d.key := rfl
@[simp] theorem clearErr_pel (p m : Nat) (d : Die) : (clearErr p m d).pel = d.pel := rfl
@[simp] theorem clearErr_descs (p m : Nat) (d : Die) : (clearErr p m d).descs = d.descs := rfl
@[simp] theorem clearErr_freeCtr (p m : Nat) (d : Die) : (clearErr p m d).freeCtr = d.freeCtr := rfl
@[simp] theorem clearErr_out (p m : Nat) (d : Die) : (clearErr p m d).out = d.out := rfl

/-! ## count -/

@[simp] theorem count_which (p off : Nat) (d : Die) : (count p off d).which = d.which := rfl
@[simp] theorem count_phase (p off : Nat) (d : Die) : (count p off d).phase = d.phase := rfl
@[simp] theorem count_phaseSlot (p off : Nat) (d : Die) : (count p off d).phaseSlot = d.phaseSlot := rfl
@[simp] theorem count_regs_live (p off : Nat) (d : Die) : (count p off d).regs.live = d.regs.live := rfl
@[simp] theorem count_regs_staged (p off : Nat) (d : Die) : (count p off d).regs.staged = d.regs.staged := rfl
@[simp] theorem count_regs_late (p off : Nat) (d : Die) : (count p off d).regs.late = d.regs.late := rfl
@[simp] theorem count_regs_held (p off : Nat) (d : Die) : (count p off d).regs.held = d.regs.held := rfl
@[simp] theorem count_regs_cap (p off : Nat) (d : Die) : (count p off d).regs.cap = d.regs.cap := rfl
@[simp] theorem count_regs_enabled (p off : Nat) (d : Die) : (count p off d).regs.enabled = d.regs.enabled := rfl
@[simp] theorem count_errs (p off : Nat) (d : Die) : (count p off d).errs = d.errs := rfl
@[simp] theorem count_wlk (p off : Nat) (d : Die) : (count p off d).wlk = d.wlk := rfl
@[simp] theorem count_wrd (p off : Nat) (d : Die) : (count p off d).wrd = d.wrd := rfl
@[simp] theorem count_chn (p off : Nat) (d : Die) : (count p off d).chn = d.chn := rfl
@[simp] theorem count_rat (p off : Nat) (d : Die) : (count p off d).rat = d.rat := rfl
@[simp] theorem count_adm (p off : Nat) (d : Die) : (count p off d).adm = d.adm := rfl
@[simp] theorem count_cad (p off : Nat) (d : Die) : (count p off d).cad = d.cad := rfl
@[simp] theorem count_sealing (p off : Nat) (d : Die) : (count p off d).sealing = d.sealing := rfl
@[simp] theorem count_res (p off : Nat) (d : Die) : (count p off d).res = d.res := rfl
@[simp] theorem count_bnd (p off : Nat) (d : Die) : (count p off d).bnd = d.bnd := rfl
@[simp] theorem count_nle (p off : Nat) (d : Die) : (count p off d).nle = d.nle := rfl
@[simp] theorem count_cwe (p off : Nat) (d : Die) : (count p off d).cwe = d.cwe := rfl
@[simp] theorem count_snt (p off : Nat) (d : Die) : (count p off d).snt = d.snt := rfl
@[simp] theorem count_shk (p off : Nat) (d : Die) : (count p off d).shk = d.shk := rfl
@[simp] theorem count_sig (p off : Nat) (d : Die) : (count p off d).sig = d.sig := rfl
@[simp] theorem count_vp (p off : Nat) (d : Die) : (count p off d).vp = d.vp := rfl
@[simp] theorem count_spk (p off : Nat) (d : Die) : (count p off d).spk = d.spk := rfl
@[simp] theorem count_dbg (p off : Nat) (d : Die) : (count p off d).dbg = d.dbg := rfl
@[simp] theorem count_sntb (p off : Nat) (d : Die) : (count p off d).sntb = d.sntb := rfl
@[simp] theorem count_tim (p off : Nat) (d : Die) : (count p off d).tim = d.tim := rfl
@[simp] theorem count_hst (p off : Nat) (d : Die) : (count p off d).hst = d.hst := rfl
@[simp] theorem count_ing (p off : Nat) (d : Die) : (count p off d).ing = d.ing := rfl
@[simp] theorem count_wdn (p off : Nat) (d : Die) : (count p off d).wdn = d.wdn := rfl
@[simp] theorem count_fcu (p off : Nat) (d : Die) : (count p off d).fcu = d.fcu := rfl
@[simp] theorem count_mem (p off : Nat) (d : Die) : (count p off d).mem = d.mem := rfl
@[simp] theorem count_key (p off : Nat) (d : Die) : (count p off d).key = d.key := rfl
@[simp] theorem count_pel (p off : Nat) (d : Die) : (count p off d).pel = d.pel := rfl
@[simp] theorem count_descs (p off : Nat) (d : Die) : (count p off d).descs = d.descs := rfl
@[simp] theorem count_freeCtr (p off : Nat) (d : Die) : (count p off d).freeCtr = d.freeCtr := rfl
@[simp] theorem count_out (p off : Nat) (d : Die) : (count p off d).out = d.out := rfl

/-! ## countN -/

@[simp] theorem countN_which (p off n : Nat) (d : Die) : (countN p off n d).which = d.which := rfl
@[simp] theorem countN_phase (p off n : Nat) (d : Die) : (countN p off n d).phase = d.phase := rfl
@[simp] theorem countN_phaseSlot (p off n : Nat) (d : Die) : (countN p off n d).phaseSlot = d.phaseSlot := rfl
@[simp] theorem countN_regs_live (p off n : Nat) (d : Die) : (countN p off n d).regs.live = d.regs.live := rfl
@[simp] theorem countN_regs_staged (p off n : Nat) (d : Die) : (countN p off n d).regs.staged = d.regs.staged := rfl
@[simp] theorem countN_regs_late (p off n : Nat) (d : Die) : (countN p off n d).regs.late = d.regs.late := rfl
@[simp] theorem countN_regs_held (p off n : Nat) (d : Die) : (countN p off n d).regs.held = d.regs.held := rfl
@[simp] theorem countN_regs_cap (p off n : Nat) (d : Die) : (countN p off n d).regs.cap = d.regs.cap := rfl
@[simp] theorem countN_regs_enabled (p off n : Nat) (d : Die) : (countN p off n d).regs.enabled = d.regs.enabled := rfl
@[simp] theorem countN_errs (p off n : Nat) (d : Die) : (countN p off n d).errs = d.errs := rfl
@[simp] theorem countN_wlk (p off n : Nat) (d : Die) : (countN p off n d).wlk = d.wlk := rfl
@[simp] theorem countN_wrd (p off n : Nat) (d : Die) : (countN p off n d).wrd = d.wrd := rfl
@[simp] theorem countN_chn (p off n : Nat) (d : Die) : (countN p off n d).chn = d.chn := rfl
@[simp] theorem countN_rat (p off n : Nat) (d : Die) : (countN p off n d).rat = d.rat := rfl
@[simp] theorem countN_adm (p off n : Nat) (d : Die) : (countN p off n d).adm = d.adm := rfl
@[simp] theorem countN_cad (p off n : Nat) (d : Die) : (countN p off n d).cad = d.cad := rfl
@[simp] theorem countN_sealing (p off n : Nat) (d : Die) : (countN p off n d).sealing = d.sealing := rfl
@[simp] theorem countN_res (p off n : Nat) (d : Die) : (countN p off n d).res = d.res := rfl
@[simp] theorem countN_bnd (p off n : Nat) (d : Die) : (countN p off n d).bnd = d.bnd := rfl
@[simp] theorem countN_nle (p off n : Nat) (d : Die) : (countN p off n d).nle = d.nle := rfl
@[simp] theorem countN_cwe (p off n : Nat) (d : Die) : (countN p off n d).cwe = d.cwe := rfl
@[simp] theorem countN_snt (p off n : Nat) (d : Die) : (countN p off n d).snt = d.snt := rfl
@[simp] theorem countN_shk (p off n : Nat) (d : Die) : (countN p off n d).shk = d.shk := rfl
@[simp] theorem countN_sig (p off n : Nat) (d : Die) : (countN p off n d).sig = d.sig := rfl
@[simp] theorem countN_vp (p off n : Nat) (d : Die) : (countN p off n d).vp = d.vp := rfl
@[simp] theorem countN_spk (p off n : Nat) (d : Die) : (countN p off n d).spk = d.spk := rfl
@[simp] theorem countN_dbg (p off n : Nat) (d : Die) : (countN p off n d).dbg = d.dbg := rfl
@[simp] theorem countN_sntb (p off n : Nat) (d : Die) : (countN p off n d).sntb = d.sntb := rfl
@[simp] theorem countN_tim (p off n : Nat) (d : Die) : (countN p off n d).tim = d.tim := rfl
@[simp] theorem countN_hst (p off n : Nat) (d : Die) : (countN p off n d).hst = d.hst := rfl
@[simp] theorem countN_ing (p off n : Nat) (d : Die) : (countN p off n d).ing = d.ing := rfl
@[simp] theorem countN_wdn (p off n : Nat) (d : Die) : (countN p off n d).wdn = d.wdn := rfl
@[simp] theorem countN_fcu (p off n : Nat) (d : Die) : (countN p off n d).fcu = d.fcu := rfl
@[simp] theorem countN_mem (p off n : Nat) (d : Die) : (countN p off n d).mem = d.mem := rfl
@[simp] theorem countN_key (p off n : Nat) (d : Die) : (countN p off n d).key = d.key := rfl
@[simp] theorem countN_pel (p off n : Nat) (d : Die) : (countN p off n d).pel = d.pel := rfl
@[simp] theorem countN_descs (p off n : Nat) (d : Die) : (countN p off n d).descs = d.descs := rfl
@[simp] theorem countN_freeCtr (p off n : Nat) (d : Die) : (countN p off n d).freeCtr = d.freeCtr := rfl
@[simp] theorem countN_out (p off n : Nat) (d : Die) : (countN p off n d).out = d.out := rfl

/-! ## peak -/

@[simp] theorem peak_which (p off v : Nat) (d : Die) : (peak p off v d).which = d.which := rfl
@[simp] theorem peak_phase (p off v : Nat) (d : Die) : (peak p off v d).phase = d.phase := rfl
@[simp] theorem peak_phaseSlot (p off v : Nat) (d : Die) : (peak p off v d).phaseSlot = d.phaseSlot := rfl
@[simp] theorem peak_regs_live (p off v : Nat) (d : Die) : (peak p off v d).regs.live = d.regs.live := rfl
@[simp] theorem peak_regs_staged (p off v : Nat) (d : Die) : (peak p off v d).regs.staged = d.regs.staged := rfl
@[simp] theorem peak_regs_late (p off v : Nat) (d : Die) : (peak p off v d).regs.late = d.regs.late := rfl
@[simp] theorem peak_regs_held (p off v : Nat) (d : Die) : (peak p off v d).regs.held = d.regs.held := rfl
@[simp] theorem peak_regs_cap (p off v : Nat) (d : Die) : (peak p off v d).regs.cap = d.regs.cap := rfl
@[simp] theorem peak_regs_enabled (p off v : Nat) (d : Die) : (peak p off v d).regs.enabled = d.regs.enabled := rfl
@[simp] theorem peak_errs (p off v : Nat) (d : Die) : (peak p off v d).errs = d.errs := rfl
@[simp] theorem peak_wlk (p off v : Nat) (d : Die) : (peak p off v d).wlk = d.wlk := rfl
@[simp] theorem peak_wrd (p off v : Nat) (d : Die) : (peak p off v d).wrd = d.wrd := rfl
@[simp] theorem peak_chn (p off v : Nat) (d : Die) : (peak p off v d).chn = d.chn := rfl
@[simp] theorem peak_rat (p off v : Nat) (d : Die) : (peak p off v d).rat = d.rat := rfl
@[simp] theorem peak_adm (p off v : Nat) (d : Die) : (peak p off v d).adm = d.adm := rfl
@[simp] theorem peak_cad (p off v : Nat) (d : Die) : (peak p off v d).cad = d.cad := rfl
@[simp] theorem peak_sealing (p off v : Nat) (d : Die) : (peak p off v d).sealing = d.sealing := rfl
@[simp] theorem peak_res (p off v : Nat) (d : Die) : (peak p off v d).res = d.res := rfl
@[simp] theorem peak_bnd (p off v : Nat) (d : Die) : (peak p off v d).bnd = d.bnd := rfl
@[simp] theorem peak_nle (p off v : Nat) (d : Die) : (peak p off v d).nle = d.nle := rfl
@[simp] theorem peak_cwe (p off v : Nat) (d : Die) : (peak p off v d).cwe = d.cwe := rfl
@[simp] theorem peak_snt (p off v : Nat) (d : Die) : (peak p off v d).snt = d.snt := rfl
@[simp] theorem peak_shk (p off v : Nat) (d : Die) : (peak p off v d).shk = d.shk := rfl
@[simp] theorem peak_sig (p off v : Nat) (d : Die) : (peak p off v d).sig = d.sig := rfl
@[simp] theorem peak_vp (p off v : Nat) (d : Die) : (peak p off v d).vp = d.vp := rfl
@[simp] theorem peak_spk (p off v : Nat) (d : Die) : (peak p off v d).spk = d.spk := rfl
@[simp] theorem peak_dbg (p off v : Nat) (d : Die) : (peak p off v d).dbg = d.dbg := rfl
@[simp] theorem peak_sntb (p off v : Nat) (d : Die) : (peak p off v d).sntb = d.sntb := rfl
@[simp] theorem peak_tim (p off v : Nat) (d : Die) : (peak p off v d).tim = d.tim := rfl
@[simp] theorem peak_hst (p off v : Nat) (d : Die) : (peak p off v d).hst = d.hst := rfl
@[simp] theorem peak_ing (p off v : Nat) (d : Die) : (peak p off v d).ing = d.ing := rfl
@[simp] theorem peak_wdn (p off v : Nat) (d : Die) : (peak p off v d).wdn = d.wdn := rfl
@[simp] theorem peak_fcu (p off v : Nat) (d : Die) : (peak p off v d).fcu = d.fcu := rfl
@[simp] theorem peak_mem (p off v : Nat) (d : Die) : (peak p off v d).mem = d.mem := rfl
@[simp] theorem peak_key (p off v : Nat) (d : Die) : (peak p off v d).key = d.key := rfl
@[simp] theorem peak_pel (p off v : Nat) (d : Die) : (peak p off v d).pel = d.pel := rfl
@[simp] theorem peak_descs (p off v : Nat) (d : Die) : (peak p off v d).descs = d.descs := rfl
@[simp] theorem peak_freeCtr (p off v : Nat) (d : Die) : (peak p off v d).freeCtr = d.freeCtr := rfl
@[simp] theorem peak_out (p off v : Nat) (d : Die) : (peak p off v d).out = d.out := rfl

/-! ## setCap -/

@[simp] theorem setCap_which (p off v : Nat) (d : Die) : (setCap p off v d).which = d.which := rfl
@[simp] theorem setCap_phase (p off v : Nat) (d : Die) : (setCap p off v d).phase = d.phase := rfl
@[simp] theorem setCap_phaseSlot (p off v : Nat) (d : Die) : (setCap p off v d).phaseSlot = d.phaseSlot := rfl
@[simp] theorem setCap_regs_live (p off v : Nat) (d : Die) : (setCap p off v d).regs.live = d.regs.live := rfl
@[simp] theorem setCap_regs_staged (p off v : Nat) (d : Die) : (setCap p off v d).regs.staged = d.regs.staged := rfl
@[simp] theorem setCap_regs_late (p off v : Nat) (d : Die) : (setCap p off v d).regs.late = d.regs.late := rfl
@[simp] theorem setCap_regs_held (p off v : Nat) (d : Die) : (setCap p off v d).regs.held = d.regs.held := rfl
@[simp] theorem setCap_regs_cnt (p off v : Nat) (d : Die) : (setCap p off v d).regs.cnt = d.regs.cnt := rfl
@[simp] theorem setCap_regs_enabled (p off v : Nat) (d : Die) : (setCap p off v d).regs.enabled = d.regs.enabled := rfl
@[simp] theorem setCap_errs (p off v : Nat) (d : Die) : (setCap p off v d).errs = d.errs := rfl
@[simp] theorem setCap_wlk (p off v : Nat) (d : Die) : (setCap p off v d).wlk = d.wlk := rfl
@[simp] theorem setCap_wrd (p off v : Nat) (d : Die) : (setCap p off v d).wrd = d.wrd := rfl
@[simp] theorem setCap_chn (p off v : Nat) (d : Die) : (setCap p off v d).chn = d.chn := rfl
@[simp] theorem setCap_rat (p off v : Nat) (d : Die) : (setCap p off v d).rat = d.rat := rfl
@[simp] theorem setCap_adm (p off v : Nat) (d : Die) : (setCap p off v d).adm = d.adm := rfl
@[simp] theorem setCap_cad (p off v : Nat) (d : Die) : (setCap p off v d).cad = d.cad := rfl
@[simp] theorem setCap_sealing (p off v : Nat) (d : Die) : (setCap p off v d).sealing = d.sealing := rfl
@[simp] theorem setCap_res (p off v : Nat) (d : Die) : (setCap p off v d).res = d.res := rfl
@[simp] theorem setCap_bnd (p off v : Nat) (d : Die) : (setCap p off v d).bnd = d.bnd := rfl
@[simp] theorem setCap_nle (p off v : Nat) (d : Die) : (setCap p off v d).nle = d.nle := rfl
@[simp] theorem setCap_cwe (p off v : Nat) (d : Die) : (setCap p off v d).cwe = d.cwe := rfl
@[simp] theorem setCap_snt (p off v : Nat) (d : Die) : (setCap p off v d).snt = d.snt := rfl
@[simp] theorem setCap_shk (p off v : Nat) (d : Die) : (setCap p off v d).shk = d.shk := rfl
@[simp] theorem setCap_sig (p off v : Nat) (d : Die) : (setCap p off v d).sig = d.sig := rfl
@[simp] theorem setCap_vp (p off v : Nat) (d : Die) : (setCap p off v d).vp = d.vp := rfl
@[simp] theorem setCap_spk (p off v : Nat) (d : Die) : (setCap p off v d).spk = d.spk := rfl
@[simp] theorem setCap_dbg (p off v : Nat) (d : Die) : (setCap p off v d).dbg = d.dbg := rfl
@[simp] theorem setCap_sntb (p off v : Nat) (d : Die) : (setCap p off v d).sntb = d.sntb := rfl
@[simp] theorem setCap_tim (p off v : Nat) (d : Die) : (setCap p off v d).tim = d.tim := rfl
@[simp] theorem setCap_hst (p off v : Nat) (d : Die) : (setCap p off v d).hst = d.hst := rfl
@[simp] theorem setCap_ing (p off v : Nat) (d : Die) : (setCap p off v d).ing = d.ing := rfl
@[simp] theorem setCap_wdn (p off v : Nat) (d : Die) : (setCap p off v d).wdn = d.wdn := rfl
@[simp] theorem setCap_fcu (p off v : Nat) (d : Die) : (setCap p off v d).fcu = d.fcu := rfl
@[simp] theorem setCap_mem (p off v : Nat) (d : Die) : (setCap p off v d).mem = d.mem := rfl
@[simp] theorem setCap_key (p off v : Nat) (d : Die) : (setCap p off v d).key = d.key := rfl
@[simp] theorem setCap_pel (p off v : Nat) (d : Die) : (setCap p off v d).pel = d.pel := rfl
@[simp] theorem setCap_descs (p off v : Nat) (d : Die) : (setCap p off v d).descs = d.descs := rfl
@[simp] theorem setCap_freeCtr (p off v : Nat) (d : Die) : (setCap p off v d).freeCtr = d.freeCtr := rfl
@[simp] theorem setCap_out (p off v : Nat) (d : Die) : (setCap p off v d).out = d.out := rfl

/-! ## setField -/

@[simp] theorem setField_which (sel p off lo v : Nat) (d : Die) : (setField sel p off lo v d).which = d.which := rfl
@[simp] theorem setField_phase (sel p off lo v : Nat) (d : Die) : (setField sel p off lo v d).phase = d.phase := rfl
@[simp] theorem setField_phaseSlot (sel p off lo v : Nat) (d : Die) :
    (setField sel p off lo v d).phaseSlot = d.phaseSlot :=
  rfl
@[simp] theorem setField_regs_staged (sel p off lo v : Nat) (d : Die) :
    (setField sel p off lo v d).regs.staged = d.regs.staged :=
  rfl
@[simp] theorem setField_regs_late (sel p off lo v : Nat) (d : Die) :
    (setField sel p off lo v d).regs.late = d.regs.late :=
  rfl
@[simp] theorem setField_regs_held (sel p off lo v : Nat) (d : Die) :
    (setField sel p off lo v d).regs.held = d.regs.held :=
  rfl
@[simp] theorem setField_regs_cnt (sel p off lo v : Nat) (d : Die) :
    (setField sel p off lo v d).regs.cnt = d.regs.cnt :=
  rfl
@[simp] theorem setField_regs_cap (sel p off lo v : Nat) (d : Die) :
    (setField sel p off lo v d).regs.cap = d.regs.cap :=
  rfl
@[simp] theorem setField_regs_enabled (sel p off lo v : Nat) (d : Die) :
    (setField sel p off lo v d).regs.enabled = d.regs.enabled :=
  rfl
@[simp] theorem setField_errs (sel p off lo v : Nat) (d : Die) : (setField sel p off lo v d).errs = d.errs := rfl
@[simp] theorem setField_wlk (sel p off lo v : Nat) (d : Die) : (setField sel p off lo v d).wlk = d.wlk := rfl
@[simp] theorem setField_wrd (sel p off lo v : Nat) (d : Die) : (setField sel p off lo v d).wrd = d.wrd := rfl
@[simp] theorem setField_chn (sel p off lo v : Nat) (d : Die) : (setField sel p off lo v d).chn = d.chn := rfl
@[simp] theorem setField_rat (sel p off lo v : Nat) (d : Die) : (setField sel p off lo v d).rat = d.rat := rfl
@[simp] theorem setField_adm (sel p off lo v : Nat) (d : Die) : (setField sel p off lo v d).adm = d.adm := rfl
@[simp] theorem setField_cad (sel p off lo v : Nat) (d : Die) : (setField sel p off lo v d).cad = d.cad := rfl
@[simp] theorem setField_sealing (sel p off lo v : Nat) (d : Die) : (setField sel p off lo v d).sealing = d.sealing :=
  rfl
@[simp] theorem setField_res (sel p off lo v : Nat) (d : Die) : (setField sel p off lo v d).res = d.res := rfl
@[simp] theorem setField_bnd (sel p off lo v : Nat) (d : Die) : (setField sel p off lo v d).bnd = d.bnd := rfl
@[simp] theorem setField_nle (sel p off lo v : Nat) (d : Die) : (setField sel p off lo v d).nle = d.nle := rfl
@[simp] theorem setField_cwe (sel p off lo v : Nat) (d : Die) : (setField sel p off lo v d).cwe = d.cwe := rfl
@[simp] theorem setField_snt (sel p off lo v : Nat) (d : Die) : (setField sel p off lo v d).snt = d.snt := rfl
@[simp] theorem setField_shk (sel p off lo v : Nat) (d : Die) : (setField sel p off lo v d).shk = d.shk := rfl
@[simp] theorem setField_sig (sel p off lo v : Nat) (d : Die) : (setField sel p off lo v d).sig = d.sig := rfl
@[simp] theorem setField_vp (sel p off lo v : Nat) (d : Die) : (setField sel p off lo v d).vp = d.vp := rfl
@[simp] theorem setField_spk (sel p off lo v : Nat) (d : Die) : (setField sel p off lo v d).spk = d.spk := rfl
@[simp] theorem setField_dbg (sel p off lo v : Nat) (d : Die) : (setField sel p off lo v d).dbg = d.dbg := rfl
@[simp] theorem setField_sntb (sel p off lo v : Nat) (d : Die) : (setField sel p off lo v d).sntb = d.sntb := rfl
@[simp] theorem setField_tim (sel p off lo v : Nat) (d : Die) : (setField sel p off lo v d).tim = d.tim := rfl
@[simp] theorem setField_hst (sel p off lo v : Nat) (d : Die) : (setField sel p off lo v d).hst = d.hst := rfl
@[simp] theorem setField_ing (sel p off lo v : Nat) (d : Die) : (setField sel p off lo v d).ing = d.ing := rfl
@[simp] theorem setField_wdn (sel p off lo v : Nat) (d : Die) : (setField sel p off lo v d).wdn = d.wdn := rfl
@[simp] theorem setField_fcu (sel p off lo v : Nat) (d : Die) : (setField sel p off lo v d).fcu = d.fcu := rfl
@[simp] theorem setField_mem (sel p off lo v : Nat) (d : Die) : (setField sel p off lo v d).mem = d.mem := rfl
@[simp] theorem setField_key (sel p off lo v : Nat) (d : Die) : (setField sel p off lo v d).key = d.key := rfl
@[simp] theorem setField_pel (sel p off lo v : Nat) (d : Die) : (setField sel p off lo v d).pel = d.pel := rfl
@[simp] theorem setField_descs (sel p off lo v : Nat) (d : Die) : (setField sel p off lo v d).descs = d.descs := rfl
@[simp] theorem setField_freeCtr (sel p off lo v : Nat) (d : Die) : (setField sel p off lo v d).freeCtr = d.freeCtr :=
  rfl
@[simp] theorem setField_out (sel p off lo v : Nat) (d : Die) : (setField sel p off lo v d).out = d.out := rfl

/-! ## emit -/

@[simp] theorem emit_which (o : Out) (d : Die) : (emit o d).which = d.which := rfl
@[simp] theorem emit_phase (o : Out) (d : Die) : (emit o d).phase = d.phase := rfl
@[simp] theorem emit_phaseSlot (o : Out) (d : Die) : (emit o d).phaseSlot = d.phaseSlot := rfl
@[simp] theorem emit_regs (o : Out) (d : Die) : (emit o d).regs = d.regs := rfl
@[simp] theorem emit_errs (o : Out) (d : Die) : (emit o d).errs = d.errs := rfl
@[simp] theorem emit_wlk (o : Out) (d : Die) : (emit o d).wlk = d.wlk := rfl
@[simp] theorem emit_wrd (o : Out) (d : Die) : (emit o d).wrd = d.wrd := rfl
@[simp] theorem emit_chn (o : Out) (d : Die) : (emit o d).chn = d.chn := rfl
@[simp] theorem emit_rat (o : Out) (d : Die) : (emit o d).rat = d.rat := rfl
@[simp] theorem emit_adm (o : Out) (d : Die) : (emit o d).adm = d.adm := rfl
@[simp] theorem emit_cad (o : Out) (d : Die) : (emit o d).cad = d.cad := rfl
@[simp] theorem emit_sealing (o : Out) (d : Die) : (emit o d).sealing = d.sealing := rfl
@[simp] theorem emit_res (o : Out) (d : Die) : (emit o d).res = d.res := rfl
@[simp] theorem emit_bnd (o : Out) (d : Die) : (emit o d).bnd = d.bnd := rfl
@[simp] theorem emit_nle (o : Out) (d : Die) : (emit o d).nle = d.nle := rfl
@[simp] theorem emit_cwe (o : Out) (d : Die) : (emit o d).cwe = d.cwe := rfl
@[simp] theorem emit_snt (o : Out) (d : Die) : (emit o d).snt = d.snt := rfl
@[simp] theorem emit_shk (o : Out) (d : Die) : (emit o d).shk = d.shk := rfl
@[simp] theorem emit_sig (o : Out) (d : Die) : (emit o d).sig = d.sig := rfl
@[simp] theorem emit_vp (o : Out) (d : Die) : (emit o d).vp = d.vp := rfl
@[simp] theorem emit_spk (o : Out) (d : Die) : (emit o d).spk = d.spk := rfl
@[simp] theorem emit_dbg (o : Out) (d : Die) : (emit o d).dbg = d.dbg := rfl
@[simp] theorem emit_sntb (o : Out) (d : Die) : (emit o d).sntb = d.sntb := rfl
@[simp] theorem emit_tim (o : Out) (d : Die) : (emit o d).tim = d.tim := rfl
@[simp] theorem emit_hst (o : Out) (d : Die) : (emit o d).hst = d.hst := rfl
@[simp] theorem emit_ing (o : Out) (d : Die) : (emit o d).ing = d.ing := rfl
@[simp] theorem emit_wdn (o : Out) (d : Die) : (emit o d).wdn = d.wdn := rfl
@[simp] theorem emit_fcu (o : Out) (d : Die) : (emit o d).fcu = d.fcu := rfl
@[simp] theorem emit_mem (o : Out) (d : Die) : (emit o d).mem = d.mem := rfl
@[simp] theorem emit_key (o : Out) (d : Die) : (emit o d).key = d.key := rfl
@[simp] theorem emit_pel (o : Out) (d : Die) : (emit o d).pel = d.pel := rfl
@[simp] theorem emit_descs (o : Out) (d : Die) : (emit o d).descs = d.descs := rfl
@[simp] theorem emit_freeCtr (o : Out) (d : Die) : (emit o d).freeCtr = d.freeCtr := rfl

/-! ## drew -/

@[simp] theorem drew_which (d : Die) : (drew d).which = d.which := rfl
@[simp] theorem drew_phase (d : Die) : (drew d).phase = d.phase := rfl
@[simp] theorem drew_phaseSlot (d : Die) : (drew d).phaseSlot = d.phaseSlot := rfl
@[simp] theorem drew_regs (d : Die) : (drew d).regs = d.regs := rfl
@[simp] theorem drew_errs (d : Die) : (drew d).errs = d.errs := rfl
@[simp] theorem drew_wlk (d : Die) : (drew d).wlk = d.wlk := rfl
@[simp] theorem drew_wrd (d : Die) : (drew d).wrd = d.wrd := rfl
@[simp] theorem drew_chn (d : Die) : (drew d).chn = d.chn := rfl
@[simp] theorem drew_rat (d : Die) : (drew d).rat = d.rat := rfl
@[simp] theorem drew_adm (d : Die) : (drew d).adm = d.adm := rfl
@[simp] theorem drew_cad (d : Die) : (drew d).cad = d.cad := rfl
@[simp] theorem drew_sealing (d : Die) : (drew d).sealing = d.sealing := rfl
@[simp] theorem drew_res (d : Die) : (drew d).res = d.res := rfl
@[simp] theorem drew_bnd (d : Die) : (drew d).bnd = d.bnd := rfl
@[simp] theorem drew_nle (d : Die) : (drew d).nle = d.nle := rfl
@[simp] theorem drew_cwe (d : Die) : (drew d).cwe = d.cwe := rfl
@[simp] theorem drew_snt (d : Die) : (drew d).snt = d.snt := rfl
@[simp] theorem drew_shk (d : Die) : (drew d).shk = d.shk := rfl
@[simp] theorem drew_sig (d : Die) : (drew d).sig = d.sig := rfl
@[simp] theorem drew_vp (d : Die) : (drew d).vp = d.vp := rfl
@[simp] theorem drew_spk (d : Die) : (drew d).spk = d.spk := rfl
@[simp] theorem drew_dbg (d : Die) : (drew d).dbg = d.dbg := rfl
@[simp] theorem drew_sntb (d : Die) : (drew d).sntb = d.sntb := rfl
@[simp] theorem drew_tim (d : Die) : (drew d).tim = d.tim := rfl
@[simp] theorem drew_hst (d : Die) : (drew d).hst = d.hst := rfl
@[simp] theorem drew_ing (d : Die) : (drew d).ing = d.ing := rfl
@[simp] theorem drew_wdn (d : Die) : (drew d).wdn = d.wdn := rfl
@[simp] theorem drew_fcu (d : Die) : (drew d).fcu = d.fcu := rfl
@[simp] theorem drew_mem (d : Die) : (drew d).mem = d.mem := rfl
@[simp] theorem drew_key (d : Die) : (drew d).key = d.key := rfl
@[simp] theorem drew_pel (d : Die) : (drew d).pel = d.pel := rfl
@[simp] theorem drew_descs (d : Die) : (drew d).descs = d.descs := rfl
@[simp] theorem drew_out (d : Die) : (drew d).out = d.out := rfl

/-! ## tellWarden -/

@[simp] theorem tellWarden_which (e : WdnEvent) (d : Die) : (tellWarden e d).which = d.which := rfl
@[simp] theorem tellWarden_phase (e : WdnEvent) (d : Die) : (tellWarden e d).phase = d.phase := rfl
@[simp] theorem tellWarden_phaseSlot (e : WdnEvent) (d : Die) : (tellWarden e d).phaseSlot = d.phaseSlot := rfl
@[simp] theorem tellWarden_regs (e : WdnEvent) (d : Die) : (tellWarden e d).regs = d.regs := rfl
@[simp] theorem tellWarden_errs (e : WdnEvent) (d : Die) : (tellWarden e d).errs = d.errs := rfl
@[simp] theorem tellWarden_wlk (e : WdnEvent) (d : Die) : (tellWarden e d).wlk = d.wlk := rfl
@[simp] theorem tellWarden_wrd (e : WdnEvent) (d : Die) : (tellWarden e d).wrd = d.wrd := rfl
@[simp] theorem tellWarden_chn (e : WdnEvent) (d : Die) : (tellWarden e d).chn = d.chn := rfl
@[simp] theorem tellWarden_rat (e : WdnEvent) (d : Die) : (tellWarden e d).rat = d.rat := rfl
@[simp] theorem tellWarden_adm (e : WdnEvent) (d : Die) : (tellWarden e d).adm = d.adm := rfl
@[simp] theorem tellWarden_cad (e : WdnEvent) (d : Die) : (tellWarden e d).cad = d.cad := rfl
@[simp] theorem tellWarden_sealing (e : WdnEvent) (d : Die) : (tellWarden e d).sealing = d.sealing := rfl
@[simp] theorem tellWarden_res (e : WdnEvent) (d : Die) : (tellWarden e d).res = d.res := rfl
@[simp] theorem tellWarden_bnd (e : WdnEvent) (d : Die) : (tellWarden e d).bnd = d.bnd := rfl
@[simp] theorem tellWarden_nle (e : WdnEvent) (d : Die) : (tellWarden e d).nle = d.nle := rfl
@[simp] theorem tellWarden_cwe (e : WdnEvent) (d : Die) : (tellWarden e d).cwe = d.cwe := rfl
@[simp] theorem tellWarden_snt (e : WdnEvent) (d : Die) : (tellWarden e d).snt = d.snt := rfl
@[simp] theorem tellWarden_shk (e : WdnEvent) (d : Die) : (tellWarden e d).shk = d.shk := rfl
@[simp] theorem tellWarden_sig (e : WdnEvent) (d : Die) : (tellWarden e d).sig = d.sig := rfl
@[simp] theorem tellWarden_vp (e : WdnEvent) (d : Die) : (tellWarden e d).vp = d.vp := rfl
@[simp] theorem tellWarden_spk (e : WdnEvent) (d : Die) : (tellWarden e d).spk = d.spk := rfl
@[simp] theorem tellWarden_dbg (e : WdnEvent) (d : Die) : (tellWarden e d).dbg = d.dbg := rfl
@[simp] theorem tellWarden_sntb (e : WdnEvent) (d : Die) : (tellWarden e d).sntb = d.sntb := rfl
@[simp] theorem tellWarden_tim (e : WdnEvent) (d : Die) : (tellWarden e d).tim = d.tim := rfl
@[simp] theorem tellWarden_hst (e : WdnEvent) (d : Die) : (tellWarden e d).hst = d.hst := rfl
@[simp] theorem tellWarden_ing (e : WdnEvent) (d : Die) : (tellWarden e d).ing = d.ing := rfl
@[simp] theorem tellWarden_wdn_state (e : WdnEvent) (d : Die) : (tellWarden e d).wdn.state = d.wdn.state := rfl
@[simp] theorem tellWarden_wdn_down (e : WdnEvent) (d : Die) : (tellWarden e d).wdn.down = d.wdn.down := rfl
@[simp] theorem tellWarden_wdn_table (e : WdnEvent) (d : Die) : (tellWarden e d).wdn.table = d.wdn.table := rfl
@[simp] theorem tellWarden_wdn_profile (e : WdnEvent) (d : Die) : (tellWarden e d).wdn.profile = d.wdn.profile := rfl
@[simp] theorem tellWarden_wdn_word (e : WdnEvent) (d : Die) : (tellWarden e d).wdn.word = d.wdn.word := rfl
@[simp] theorem tellWarden_wdn_switches (e : WdnEvent) (d : Die) : (tellWarden e d).wdn.switches = d.wdn.switches := rfl
@[simp] theorem tellWarden_wdn_switchDigest (e : WdnEvent) (d : Die) :
    (tellWarden e d).wdn.switchDigest = d.wdn.switchDigest :=
  rfl
@[simp] theorem tellWarden_wdn_conds (e : WdnEvent) (d : Die) : (tellWarden e d).wdn.conds = d.wdn.conds := rfl
@[simp] theorem tellWarden_wdn_cycle (e : WdnEvent) (d : Die) : (tellWarden e d).wdn.cycle = d.wdn.cycle := rfl
@[simp] theorem tellWarden_wdn_sides (e : WdnEvent) (d : Die) : (tellWarden e d).wdn.sides = d.wdn.sides := rfl
@[simp] theorem tellWarden_wdn_sideRun (e : WdnEvent) (d : Die) : (tellWarden e d).wdn.sideRun = d.wdn.sideRun := rfl
@[simp] theorem tellWarden_wdn_closed (e : WdnEvent) (d : Die) : (tellWarden e d).wdn.closed = d.wdn.closed := rfl
@[simp] theorem tellWarden_wdn_bothOpen (e : WdnEvent) (d : Die) : (tellWarden e d).wdn.bothOpen = d.wdn.bothOpen := rfl
@[simp] theorem tellWarden_wdn_discRun (e : WdnEvent) (d : Die) : (tellWarden e d).wdn.discRun = d.wdn.discRun := rfl
@[simp] theorem tellWarden_wdn_agreed (e : WdnEvent) (d : Die) : (tellWarden e d).wdn.agreed = d.wdn.agreed := rfl
@[simp] theorem tellWarden_wdn_cmd (e : WdnEvent) (d : Die) : (tellWarden e d).wdn.cmd = d.wdn.cmd := rfl
@[simp] theorem tellWarden_wdn_readback (e : WdnEvent) (d : Die) : (tellWarden e d).wdn.readback = d.wdn.readback := rfl
@[simp] theorem tellWarden_wdn_edm (e : WdnEvent) (d : Die) : (tellWarden e d).wdn.edm = d.wdn.edm := rfl
@[simp] theorem tellWarden_wdn_sinceCmd (e : WdnEvent) (d : Die) : (tellWarden e d).wdn.sinceCmd = d.wdn.sinceCmd := rfl
@[simp] theorem tellWarden_wdn_misRun (e : WdnEvent) (d : Die) : (tellWarden e d).wdn.misRun = d.wdn.misRun := rfl
@[simp] theorem tellWarden_wdn_pulseAt (e : WdnEvent) (d : Die) : (tellWarden e d).wdn.pulseAt = d.wdn.pulseAt := rfl
@[simp] theorem tellWarden_wdn_edmWait (e : WdnEvent) (d : Die) : (tellWarden e d).wdn.edmWait = d.wdn.edmWait := rfl
@[simp] theorem tellWarden_wdn_edmBad (e : WdnEvent) (d : Die) : (tellWarden e d).wdn.edmBad = d.wdn.edmBad := rfl
@[simp] theorem tellWarden_wdn_testing (e : WdnEvent) (d : Die) : (tellWarden e d).wdn.testing = d.wdn.testing := rfl
@[simp] theorem tellWarden_wdn_pulseReq (e : WdnEvent) (d : Die) : (tellWarden e d).wdn.pulseReq = d.wdn.pulseReq := rfl
@[simp] theorem tellWarden_wdn_pulseEnd (e : WdnEvent) (d : Die) : (tellWarden e d).wdn.pulseEnd = d.wdn.pulseEnd := rfl
@[simp] theorem tellWarden_wdn_encA (e : WdnEvent) (d : Die) : (tellWarden e d).wdn.encA = d.wdn.encA := rfl
@[simp] theorem tellWarden_wdn_encB (e : WdnEvent) (d : Die) : (tellWarden e d).wdn.encB = d.wdn.encB := rfl
@[simp] theorem tellWarden_wdn_encZ (e : WdnEvent) (d : Die) : (tellWarden e d).wdn.encZ = d.wdn.encZ := rfl
@[simp] theorem tellWarden_wdn_counts (e : WdnEvent) (d : Die) : (tellWarden e d).wdn.counts = d.wdn.counts := rfl
@[simp] theorem tellWarden_wdn_zAt (e : WdnEvent) (d : Die) : (tellWarden e d).wdn.zAt = d.wdn.zAt := rfl
@[simp] theorem tellWarden_wdn_track (e : WdnEvent) (d : Die) : (tellWarden e d).wdn.track = d.wdn.track := rfl
@[simp] theorem tellWarden_wdn_speed (e : WdnEvent) (d : Die) : (tellWarden e d).wdn.speed = d.wdn.speed := rfl
@[simp] theorem tellWarden_wdn_encRun (e : WdnEvent) (d : Die) : (tellWarden e d).wdn.encRun = d.wdn.encRun := rfl
@[simp] theorem tellWarden_wdn_referenced (e : WdnEvent) (d : Die) :
    (tellWarden e d).wdn.referenced = d.wdn.referenced :=
  rfl
@[simp] theorem tellWarden_wdn_resetAt (e : WdnEvent) (d : Die) : (tellWarden e d).wdn.resetAt = d.wdn.resetAt := rfl
@[simp] theorem tellWarden_wdn_xlinkUp (e : WdnEvent) (d : Die) : (tellWarden e d).wdn.xlinkUp = d.wdn.xlinkUp := rfl
@[simp] theorem tellWarden_wdn_frames (e : WdnEvent) (d : Die) : (tellWarden e d).wdn.frames = d.wdn.frames := rfl
@[simp] theorem tellWarden_wdn_peerCycle (e : WdnEvent) (d : Die) : (tellWarden e d).wdn.peerCycle = d.wdn.peerCycle :=
  rfl
@[simp] theorem tellWarden_wdn_rx (e : WdnEvent) (d : Die) : (tellWarden e d).wdn.rx = d.wdn.rx := rfl
@[simp] theorem tellWarden_wdn_tx (e : WdnEvent) (d : Die) : (tellWarden e d).wdn.tx = d.wdn.tx := rfl
@[simp] theorem tellWarden_wdn_sym (e : WdnEvent) (d : Die) : (tellWarden e d).wdn.sym = d.wdn.sym := rfl
@[simp] theorem tellWarden_wdn_tickOk (e : WdnEvent) (d : Die) : (tellWarden e d).wdn.tickOk = d.wdn.tickOk := rfl
@[simp] theorem tellWarden_wdn_hostStop (e : WdnEvent) (d : Die) : (tellWarden e d).wdn.hostStop = d.wdn.hostStop := rfl
@[simp] theorem tellWarden_wdn_zones (e : WdnEvent) (d : Die) : (tellWarden e d).wdn.zones = d.wdn.zones := rfl
@[simp] theorem tellWarden_wdn_watches (e : WdnEvent) (d : Die) : (tellWarden e d).wdn.watches = d.wdn.watches := rfl
@[simp] theorem tellWarden_wdn_lastCause (e : WdnEvent) (d : Die) : (tellWarden e d).wdn.lastCause = d.wdn.lastCause :=
  rfl
@[simp] theorem tellWarden_wdn_lastIndex (e : WdnEvent) (d : Die) : (tellWarden e d).wdn.lastIndex = d.wdn.lastIndex :=
  rfl
@[simp] theorem tellWarden_wdn_lastSlot (e : WdnEvent) (d : Die) : (tellWarden e d).wdn.lastSlot = d.wdn.lastSlot := rfl
@[simp] theorem tellWarden_wdn_sst (e : WdnEvent) (d : Die) : (tellWarden e d).wdn.sst = d.wdn.sst := rfl
@[simp] theorem tellWarden_fcu (e : WdnEvent) (d : Die) : (tellWarden e d).fcu = d.fcu := rfl
@[simp] theorem tellWarden_mem (e : WdnEvent) (d : Die) : (tellWarden e d).mem = d.mem := rfl
@[simp] theorem tellWarden_key (e : WdnEvent) (d : Die) : (tellWarden e d).key = d.key := rfl
@[simp] theorem tellWarden_pel (e : WdnEvent) (d : Die) : (tellWarden e d).pel = d.pel := rfl
@[simp] theorem tellWarden_descs (e : WdnEvent) (d : Die) : (tellWarden e d).descs = d.descs := rfl
@[simp] theorem tellWarden_freeCtr (e : WdnEvent) (d : Die) : (tellWarden e d).freeCtr = d.freeCtr := rfl
@[simp] theorem tellWarden_out (e : WdnEvent) (d : Die) : (tellWarden e d).out = d.out := rfl

/-! ## modPipe -/

@[simp] theorem modPipe_which (n : Nat) (f : Pipe → Pipe) (d : Die) : (modPipe n f d).which = d.which := rfl
@[simp] theorem modPipe_phase (n : Nat) (f : Pipe → Pipe) (d : Die) : (modPipe n f d).phase = d.phase := rfl
@[simp] theorem modPipe_phaseSlot (n : Nat) (f : Pipe → Pipe) (d : Die) : (modPipe n f d).phaseSlot = d.phaseSlot := rfl
@[simp] theorem modPipe_regs (n : Nat) (f : Pipe → Pipe) (d : Die) : (modPipe n f d).regs = d.regs := rfl
@[simp] theorem modPipe_errs (n : Nat) (f : Pipe → Pipe) (d : Die) : (modPipe n f d).errs = d.errs := rfl
@[simp] theorem modPipe_wlk (n : Nat) (f : Pipe → Pipe) (d : Die) : (modPipe n f d).wlk = d.wlk := rfl
@[simp] theorem modPipe_wrd (n : Nat) (f : Pipe → Pipe) (d : Die) : (modPipe n f d).wrd = d.wrd := rfl
@[simp] theorem modPipe_chn (n : Nat) (f : Pipe → Pipe) (d : Die) : (modPipe n f d).chn = d.chn := rfl
@[simp] theorem modPipe_rat (n : Nat) (f : Pipe → Pipe) (d : Die) : (modPipe n f d).rat = d.rat := rfl
@[simp] theorem modPipe_adm (n : Nat) (f : Pipe → Pipe) (d : Die) : (modPipe n f d).adm = d.adm := rfl
@[simp] theorem modPipe_cad (n : Nat) (f : Pipe → Pipe) (d : Die) : (modPipe n f d).cad = d.cad := rfl
@[simp] theorem modPipe_sealing (n : Nat) (f : Pipe → Pipe) (d : Die) : (modPipe n f d).sealing = d.sealing := rfl
@[simp] theorem modPipe_res (n : Nat) (f : Pipe → Pipe) (d : Die) : (modPipe n f d).res = d.res := rfl
@[simp] theorem modPipe_bnd (n : Nat) (f : Pipe → Pipe) (d : Die) : (modPipe n f d).bnd = d.bnd := rfl
@[simp] theorem modPipe_nle (n : Nat) (f : Pipe → Pipe) (d : Die) : (modPipe n f d).nle = d.nle := rfl
@[simp] theorem modPipe_cwe (n : Nat) (f : Pipe → Pipe) (d : Die) : (modPipe n f d).cwe = d.cwe := rfl
@[simp] theorem modPipe_snt (n : Nat) (f : Pipe → Pipe) (d : Die) : (modPipe n f d).snt = d.snt := rfl
@[simp] theorem modPipe_shk (n : Nat) (f : Pipe → Pipe) (d : Die) : (modPipe n f d).shk = d.shk := rfl
@[simp] theorem modPipe_sig (n : Nat) (f : Pipe → Pipe) (d : Die) : (modPipe n f d).sig = d.sig := rfl
@[simp] theorem modPipe_vp_current (n : Nat) (f : Pipe → Pipe) (d : Die) : (modPipe n f d).vp.current = d.vp.current :=
  rfl
@[simp] theorem modPipe_vp_target (n : Nat) (f : Pipe → Pipe) (d : Die) : (modPipe n f d).vp.target = d.vp.target := rfl
@[simp] theorem modPipe_vp_pending (n : Nat) (f : Pipe → Pipe) (d : Die) : (modPipe n f d).vp.pending = d.vp.pending :=
  rfl
@[simp] theorem modPipe_vp_draining (n : Nat) (f : Pipe → Pipe) (d : Die) :
    (modPipe n f d).vp.draining = d.vp.draining :=
  rfl
@[simp] theorem modPipe_vp_result (n : Nat) (f : Pipe → Pipe) (d : Die) : (modPipe n f d).vp.result = d.vp.result := rfl
@[simp] theorem modPipe_vp_substituting (n : Nat) (f : Pipe → Pipe) (d : Die) :
    (modPipe n f d).vp.substituting = d.vp.substituting :=
  rfl
@[simp] theorem modPipe_spk (n : Nat) (f : Pipe → Pipe) (d : Die) : (modPipe n f d).spk = d.spk := rfl
@[simp] theorem modPipe_dbg (n : Nat) (f : Pipe → Pipe) (d : Die) : (modPipe n f d).dbg = d.dbg := rfl
@[simp] theorem modPipe_sntb (n : Nat) (f : Pipe → Pipe) (d : Die) : (modPipe n f d).sntb = d.sntb := rfl
@[simp] theorem modPipe_tim (n : Nat) (f : Pipe → Pipe) (d : Die) : (modPipe n f d).tim = d.tim := rfl
@[simp] theorem modPipe_hst (n : Nat) (f : Pipe → Pipe) (d : Die) : (modPipe n f d).hst = d.hst := rfl
@[simp] theorem modPipe_ing (n : Nat) (f : Pipe → Pipe) (d : Die) : (modPipe n f d).ing = d.ing := rfl
@[simp] theorem modPipe_wdn (n : Nat) (f : Pipe → Pipe) (d : Die) : (modPipe n f d).wdn = d.wdn := rfl
@[simp] theorem modPipe_fcu (n : Nat) (f : Pipe → Pipe) (d : Die) : (modPipe n f d).fcu = d.fcu := rfl
@[simp] theorem modPipe_mem (n : Nat) (f : Pipe → Pipe) (d : Die) : (modPipe n f d).mem = d.mem := rfl
@[simp] theorem modPipe_key (n : Nat) (f : Pipe → Pipe) (d : Die) : (modPipe n f d).key = d.key := rfl
@[simp] theorem modPipe_pel (n : Nat) (f : Pipe → Pipe) (d : Die) : (modPipe n f d).pel = d.pel := rfl
@[simp] theorem modPipe_descs (n : Nat) (f : Pipe → Pipe) (d : Die) : (modPipe n f d).descs = d.descs := rfl
@[simp] theorem modPipe_freeCtr (n : Nat) (f : Pipe → Pipe) (d : Die) : (modPipe n f d).freeCtr = d.freeCtr := rfl
@[simp] theorem modPipe_out (n : Nat) (f : Pipe → Pipe) (d : Die) : (modPipe n f d).out = d.out := rfl

/-! ## setChan -/

@[simp] theorem setChan_which (c : Nat) (x : Chan) (d : Die) : (setChan c x d).which = d.which := rfl
@[simp] theorem setChan_phase (c : Nat) (x : Chan) (d : Die) : (setChan c x d).phase = d.phase := rfl
@[simp] theorem setChan_phaseSlot (c : Nat) (x : Chan) (d : Die) : (setChan c x d).phaseSlot = d.phaseSlot := rfl
@[simp] theorem setChan_regs (c : Nat) (x : Chan) (d : Die) : (setChan c x d).regs = d.regs := rfl
@[simp] theorem setChan_errs (c : Nat) (x : Chan) (d : Die) : (setChan c x d).errs = d.errs := rfl
@[simp] theorem setChan_wlk (c : Nat) (x : Chan) (d : Die) : (setChan c x d).wlk = d.wlk := rfl
@[simp] theorem setChan_wrd (c : Nat) (x : Chan) (d : Die) : (setChan c x d).wrd = d.wrd := rfl
@[simp] theorem setChan_chn_tickets (c : Nat) (x : Chan) (d : Die) : (setChan c x d).chn.tickets = d.chn.tickets := rfl
@[simp] theorem setChan_chn_serial (c : Nat) (x : Chan) (d : Die) : (setChan c x d).chn.serial = d.chn.serial := rfl
@[simp] theorem setChan_chn_cache (c : Nat) (x : Chan) (d : Die) : (setChan c x d).chn.cache = d.chn.cache := rfl
@[simp] theorem setChan_rat (c : Nat) (x : Chan) (d : Die) : (setChan c x d).rat = d.rat := rfl
@[simp] theorem setChan_adm (c : Nat) (x : Chan) (d : Die) : (setChan c x d).adm = d.adm := rfl
@[simp] theorem setChan_cad (c : Nat) (x : Chan) (d : Die) : (setChan c x d).cad = d.cad := rfl
@[simp] theorem setChan_sealing (c : Nat) (x : Chan) (d : Die) : (setChan c x d).sealing = d.sealing := rfl
@[simp] theorem setChan_res (c : Nat) (x : Chan) (d : Die) : (setChan c x d).res = d.res := rfl
@[simp] theorem setChan_bnd (c : Nat) (x : Chan) (d : Die) : (setChan c x d).bnd = d.bnd := rfl
@[simp] theorem setChan_nle (c : Nat) (x : Chan) (d : Die) : (setChan c x d).nle = d.nle := rfl
@[simp] theorem setChan_cwe (c : Nat) (x : Chan) (d : Die) : (setChan c x d).cwe = d.cwe := rfl
@[simp] theorem setChan_snt (c : Nat) (x : Chan) (d : Die) : (setChan c x d).snt = d.snt := rfl
@[simp] theorem setChan_shk (c : Nat) (x : Chan) (d : Die) : (setChan c x d).shk = d.shk := rfl
@[simp] theorem setChan_sig (c : Nat) (x : Chan) (d : Die) : (setChan c x d).sig = d.sig := rfl
@[simp] theorem setChan_vp (c : Nat) (x : Chan) (d : Die) : (setChan c x d).vp = d.vp := rfl
@[simp] theorem setChan_spk (c : Nat) (x : Chan) (d : Die) : (setChan c x d).spk = d.spk := rfl
@[simp] theorem setChan_dbg (c : Nat) (x : Chan) (d : Die) : (setChan c x d).dbg = d.dbg := rfl
@[simp] theorem setChan_sntb (c : Nat) (x : Chan) (d : Die) : (setChan c x d).sntb = d.sntb := rfl
@[simp] theorem setChan_tim (c : Nat) (x : Chan) (d : Die) : (setChan c x d).tim = d.tim := rfl
@[simp] theorem setChan_hst (c : Nat) (x : Chan) (d : Die) : (setChan c x d).hst = d.hst := rfl
@[simp] theorem setChan_ing (c : Nat) (x : Chan) (d : Die) : (setChan c x d).ing = d.ing := rfl
@[simp] theorem setChan_wdn (c : Nat) (x : Chan) (d : Die) : (setChan c x d).wdn = d.wdn := rfl
@[simp] theorem setChan_fcu (c : Nat) (x : Chan) (d : Die) : (setChan c x d).fcu = d.fcu := rfl
@[simp] theorem setChan_mem (c : Nat) (x : Chan) (d : Die) : (setChan c x d).mem = d.mem := rfl
@[simp] theorem setChan_key (c : Nat) (x : Chan) (d : Die) : (setChan c x d).key = d.key := rfl
@[simp] theorem setChan_pel (c : Nat) (x : Chan) (d : Die) : (setChan c x d).pel = d.pel := rfl
@[simp] theorem setChan_descs (c : Nat) (x : Chan) (d : Die) : (setChan c x d).descs = d.descs := rfl
@[simp] theorem setChan_freeCtr (c : Nat) (x : Chan) (d : Die) : (setChan c x d).freeCtr = d.freeCtr := rfl
@[simp] theorem setChan_out (c : Nat) (x : Chan) (d : Die) : (setChan c x d).out = d.out := rfl

/-! ## modChan -/

@[simp] theorem modChan_which (c : Nat) (f : Chan → Chan) (d : Die) : (modChan c f d).which = d.which := rfl
@[simp] theorem modChan_phase (c : Nat) (f : Chan → Chan) (d : Die) : (modChan c f d).phase = d.phase := rfl
@[simp] theorem modChan_phaseSlot (c : Nat) (f : Chan → Chan) (d : Die) : (modChan c f d).phaseSlot = d.phaseSlot := rfl
@[simp] theorem modChan_regs (c : Nat) (f : Chan → Chan) (d : Die) : (modChan c f d).regs = d.regs := rfl
@[simp] theorem modChan_errs (c : Nat) (f : Chan → Chan) (d : Die) : (modChan c f d).errs = d.errs := rfl
@[simp] theorem modChan_wlk (c : Nat) (f : Chan → Chan) (d : Die) : (modChan c f d).wlk = d.wlk := rfl
@[simp] theorem modChan_wrd (c : Nat) (f : Chan → Chan) (d : Die) : (modChan c f d).wrd = d.wrd := rfl
@[simp] theorem modChan_chn_tickets (c : Nat) (f : Chan → Chan) (d : Die) :
    (modChan c f d).chn.tickets = d.chn.tickets :=
  rfl
@[simp] theorem modChan_chn_serial (c : Nat) (f : Chan → Chan) (d : Die) : (modChan c f d).chn.serial = d.chn.serial :=
  rfl
@[simp] theorem modChan_chn_cache (c : Nat) (f : Chan → Chan) (d : Die) : (modChan c f d).chn.cache = d.chn.cache := rfl
@[simp] theorem modChan_rat (c : Nat) (f : Chan → Chan) (d : Die) : (modChan c f d).rat = d.rat := rfl
@[simp] theorem modChan_adm (c : Nat) (f : Chan → Chan) (d : Die) : (modChan c f d).adm = d.adm := rfl
@[simp] theorem modChan_cad (c : Nat) (f : Chan → Chan) (d : Die) : (modChan c f d).cad = d.cad := rfl
@[simp] theorem modChan_sealing (c : Nat) (f : Chan → Chan) (d : Die) : (modChan c f d).sealing = d.sealing := rfl
@[simp] theorem modChan_res (c : Nat) (f : Chan → Chan) (d : Die) : (modChan c f d).res = d.res := rfl
@[simp] theorem modChan_bnd (c : Nat) (f : Chan → Chan) (d : Die) : (modChan c f d).bnd = d.bnd := rfl
@[simp] theorem modChan_nle (c : Nat) (f : Chan → Chan) (d : Die) : (modChan c f d).nle = d.nle := rfl
@[simp] theorem modChan_cwe (c : Nat) (f : Chan → Chan) (d : Die) : (modChan c f d).cwe = d.cwe := rfl
@[simp] theorem modChan_snt (c : Nat) (f : Chan → Chan) (d : Die) : (modChan c f d).snt = d.snt := rfl
@[simp] theorem modChan_shk (c : Nat) (f : Chan → Chan) (d : Die) : (modChan c f d).shk = d.shk := rfl
@[simp] theorem modChan_sig (c : Nat) (f : Chan → Chan) (d : Die) : (modChan c f d).sig = d.sig := rfl
@[simp] theorem modChan_vp (c : Nat) (f : Chan → Chan) (d : Die) : (modChan c f d).vp = d.vp := rfl
@[simp] theorem modChan_spk (c : Nat) (f : Chan → Chan) (d : Die) : (modChan c f d).spk = d.spk := rfl
@[simp] theorem modChan_dbg (c : Nat) (f : Chan → Chan) (d : Die) : (modChan c f d).dbg = d.dbg := rfl
@[simp] theorem modChan_sntb (c : Nat) (f : Chan → Chan) (d : Die) : (modChan c f d).sntb = d.sntb := rfl
@[simp] theorem modChan_tim (c : Nat) (f : Chan → Chan) (d : Die) : (modChan c f d).tim = d.tim := rfl
@[simp] theorem modChan_hst (c : Nat) (f : Chan → Chan) (d : Die) : (modChan c f d).hst = d.hst := rfl
@[simp] theorem modChan_ing (c : Nat) (f : Chan → Chan) (d : Die) : (modChan c f d).ing = d.ing := rfl
@[simp] theorem modChan_wdn (c : Nat) (f : Chan → Chan) (d : Die) : (modChan c f d).wdn = d.wdn := rfl
@[simp] theorem modChan_fcu (c : Nat) (f : Chan → Chan) (d : Die) : (modChan c f d).fcu = d.fcu := rfl
@[simp] theorem modChan_mem (c : Nat) (f : Chan → Chan) (d : Die) : (modChan c f d).mem = d.mem := rfl
@[simp] theorem modChan_key (c : Nat) (f : Chan → Chan) (d : Die) : (modChan c f d).key = d.key := rfl
@[simp] theorem modChan_pel (c : Nat) (f : Chan → Chan) (d : Die) : (modChan c f d).pel = d.pel := rfl
@[simp] theorem modChan_descs (c : Nat) (f : Chan → Chan) (d : Die) : (modChan c f d).descs = d.descs := rfl
@[simp] theorem modChan_freeCtr (c : Nat) (f : Chan → Chan) (d : Die) : (modChan c f d).freeCtr = d.freeCtr := rfl
@[simp] theorem modChan_out (c : Nat) (f : Chan → Chan) (d : Die) : (modChan c f d).out = d.out := rfl

/-! ## modTicket -/

@[simp] theorem modTicket_which (n : Nat) (f : Batch → Batch) (d : Die) : (modTicket n f d).which = d.which := rfl
@[simp] theorem modTicket_phase (n : Nat) (f : Batch → Batch) (d : Die) : (modTicket n f d).phase = d.phase := rfl
@[simp] theorem modTicket_phaseSlot (n : Nat) (f : Batch → Batch) (d : Die) :
    (modTicket n f d).phaseSlot = d.phaseSlot :=
  rfl
@[simp] theorem modTicket_regs (n : Nat) (f : Batch → Batch) (d : Die) : (modTicket n f d).regs = d.regs := rfl
@[simp] theorem modTicket_errs (n : Nat) (f : Batch → Batch) (d : Die) : (modTicket n f d).errs = d.errs := rfl
@[simp] theorem modTicket_wlk (n : Nat) (f : Batch → Batch) (d : Die) : (modTicket n f d).wlk = d.wlk := rfl
@[simp] theorem modTicket_wrd (n : Nat) (f : Batch → Batch) (d : Die) : (modTicket n f d).wrd = d.wrd := rfl
@[simp] theorem modTicket_chn_tab (n : Nat) (f : Batch → Batch) (d : Die) : (modTicket n f d).chn.tab = d.chn.tab := rfl
@[simp] theorem modTicket_chn_serial (n : Nat) (f : Batch → Batch) (d : Die) :
    (modTicket n f d).chn.serial = d.chn.serial :=
  rfl
@[simp] theorem modTicket_chn_cache (n : Nat) (f : Batch → Batch) (d : Die) :
    (modTicket n f d).chn.cache = d.chn.cache :=
  rfl
@[simp] theorem modTicket_rat (n : Nat) (f : Batch → Batch) (d : Die) : (modTicket n f d).rat = d.rat := rfl
@[simp] theorem modTicket_adm (n : Nat) (f : Batch → Batch) (d : Die) : (modTicket n f d).adm = d.adm := rfl
@[simp] theorem modTicket_cad (n : Nat) (f : Batch → Batch) (d : Die) : (modTicket n f d).cad = d.cad := rfl
@[simp] theorem modTicket_sealing (n : Nat) (f : Batch → Batch) (d : Die) : (modTicket n f d).sealing = d.sealing := rfl
@[simp] theorem modTicket_res (n : Nat) (f : Batch → Batch) (d : Die) : (modTicket n f d).res = d.res := rfl
@[simp] theorem modTicket_bnd (n : Nat) (f : Batch → Batch) (d : Die) : (modTicket n f d).bnd = d.bnd := rfl
@[simp] theorem modTicket_nle (n : Nat) (f : Batch → Batch) (d : Die) : (modTicket n f d).nle = d.nle := rfl
@[simp] theorem modTicket_cwe (n : Nat) (f : Batch → Batch) (d : Die) : (modTicket n f d).cwe = d.cwe := rfl
@[simp] theorem modTicket_snt (n : Nat) (f : Batch → Batch) (d : Die) : (modTicket n f d).snt = d.snt := rfl
@[simp] theorem modTicket_shk (n : Nat) (f : Batch → Batch) (d : Die) : (modTicket n f d).shk = d.shk := rfl
@[simp] theorem modTicket_sig (n : Nat) (f : Batch → Batch) (d : Die) : (modTicket n f d).sig = d.sig := rfl
@[simp] theorem modTicket_vp (n : Nat) (f : Batch → Batch) (d : Die) : (modTicket n f d).vp = d.vp := rfl
@[simp] theorem modTicket_spk (n : Nat) (f : Batch → Batch) (d : Die) : (modTicket n f d).spk = d.spk := rfl
@[simp] theorem modTicket_dbg (n : Nat) (f : Batch → Batch) (d : Die) : (modTicket n f d).dbg = d.dbg := rfl
@[simp] theorem modTicket_sntb (n : Nat) (f : Batch → Batch) (d : Die) : (modTicket n f d).sntb = d.sntb := rfl
@[simp] theorem modTicket_tim (n : Nat) (f : Batch → Batch) (d : Die) : (modTicket n f d).tim = d.tim := rfl
@[simp] theorem modTicket_hst (n : Nat) (f : Batch → Batch) (d : Die) : (modTicket n f d).hst = d.hst := rfl
@[simp] theorem modTicket_ing (n : Nat) (f : Batch → Batch) (d : Die) : (modTicket n f d).ing = d.ing := rfl
@[simp] theorem modTicket_wdn (n : Nat) (f : Batch → Batch) (d : Die) : (modTicket n f d).wdn = d.wdn := rfl
@[simp] theorem modTicket_fcu (n : Nat) (f : Batch → Batch) (d : Die) : (modTicket n f d).fcu = d.fcu := rfl
@[simp] theorem modTicket_mem (n : Nat) (f : Batch → Batch) (d : Die) : (modTicket n f d).mem = d.mem := rfl
@[simp] theorem modTicket_key (n : Nat) (f : Batch → Batch) (d : Die) : (modTicket n f d).key = d.key := rfl
@[simp] theorem modTicket_pel (n : Nat) (f : Batch → Batch) (d : Die) : (modTicket n f d).pel = d.pel := rfl
@[simp] theorem modTicket_descs (n : Nat) (f : Batch → Batch) (d : Die) : (modTicket n f d).descs = d.descs := rfl
@[simp] theorem modTicket_freeCtr (n : Nat) (f : Batch → Batch) (d : Die) : (modTicket n f d).freeCtr = d.freeCtr := rfl
@[simp] theorem modTicket_out (n : Nat) (f : Batch → Batch) (d : Die) : (modTicket n f d).out = d.out := rfl

/-! ## dropTicket -/

@[simp] theorem dropTicket_which (n : Nat) (d : Die) : (dropTicket n d).which = d.which := rfl
@[simp] theorem dropTicket_phase (n : Nat) (d : Die) : (dropTicket n d).phase = d.phase := rfl
@[simp] theorem dropTicket_phaseSlot (n : Nat) (d : Die) : (dropTicket n d).phaseSlot = d.phaseSlot := rfl
@[simp] theorem dropTicket_regs (n : Nat) (d : Die) : (dropTicket n d).regs = d.regs := rfl
@[simp] theorem dropTicket_errs (n : Nat) (d : Die) : (dropTicket n d).errs = d.errs := rfl
@[simp] theorem dropTicket_wlk (n : Nat) (d : Die) : (dropTicket n d).wlk = d.wlk := rfl
@[simp] theorem dropTicket_wrd (n : Nat) (d : Die) : (dropTicket n d).wrd = d.wrd := rfl
@[simp] theorem dropTicket_chn_tab (n : Nat) (d : Die) : (dropTicket n d).chn.tab = d.chn.tab := rfl
@[simp] theorem dropTicket_chn_serial (n : Nat) (d : Die) : (dropTicket n d).chn.serial = d.chn.serial := rfl
@[simp] theorem dropTicket_chn_cache (n : Nat) (d : Die) : (dropTicket n d).chn.cache = d.chn.cache := rfl
@[simp] theorem dropTicket_rat (n : Nat) (d : Die) : (dropTicket n d).rat = d.rat := rfl
@[simp] theorem dropTicket_adm (n : Nat) (d : Die) : (dropTicket n d).adm = d.adm := rfl
@[simp] theorem dropTicket_cad (n : Nat) (d : Die) : (dropTicket n d).cad = d.cad := rfl
@[simp] theorem dropTicket_sealing (n : Nat) (d : Die) : (dropTicket n d).sealing = d.sealing := rfl
@[simp] theorem dropTicket_res (n : Nat) (d : Die) : (dropTicket n d).res = d.res := rfl
@[simp] theorem dropTicket_bnd (n : Nat) (d : Die) : (dropTicket n d).bnd = d.bnd := rfl
@[simp] theorem dropTicket_nle (n : Nat) (d : Die) : (dropTicket n d).nle = d.nle := rfl
@[simp] theorem dropTicket_cwe (n : Nat) (d : Die) : (dropTicket n d).cwe = d.cwe := rfl
@[simp] theorem dropTicket_snt (n : Nat) (d : Die) : (dropTicket n d).snt = d.snt := rfl
@[simp] theorem dropTicket_shk (n : Nat) (d : Die) : (dropTicket n d).shk = d.shk := rfl
@[simp] theorem dropTicket_sig (n : Nat) (d : Die) : (dropTicket n d).sig = d.sig := rfl
@[simp] theorem dropTicket_vp (n : Nat) (d : Die) : (dropTicket n d).vp = d.vp := rfl
@[simp] theorem dropTicket_spk (n : Nat) (d : Die) : (dropTicket n d).spk = d.spk := rfl
@[simp] theorem dropTicket_dbg (n : Nat) (d : Die) : (dropTicket n d).dbg = d.dbg := rfl
@[simp] theorem dropTicket_sntb (n : Nat) (d : Die) : (dropTicket n d).sntb = d.sntb := rfl
@[simp] theorem dropTicket_tim (n : Nat) (d : Die) : (dropTicket n d).tim = d.tim := rfl
@[simp] theorem dropTicket_hst (n : Nat) (d : Die) : (dropTicket n d).hst = d.hst := rfl
@[simp] theorem dropTicket_ing (n : Nat) (d : Die) : (dropTicket n d).ing = d.ing := rfl
@[simp] theorem dropTicket_wdn (n : Nat) (d : Die) : (dropTicket n d).wdn = d.wdn := rfl
@[simp] theorem dropTicket_fcu (n : Nat) (d : Die) : (dropTicket n d).fcu = d.fcu := rfl
@[simp] theorem dropTicket_mem (n : Nat) (d : Die) : (dropTicket n d).mem = d.mem := rfl
@[simp] theorem dropTicket_key (n : Nat) (d : Die) : (dropTicket n d).key = d.key := rfl
@[simp] theorem dropTicket_pel (n : Nat) (d : Die) : (dropTicket n d).pel = d.pel := rfl
@[simp] theorem dropTicket_descs (n : Nat) (d : Die) : (dropTicket n d).descs = d.descs := rfl
@[simp] theorem dropTicket_freeCtr (n : Nat) (d : Die) : (dropTicket n d).freeCtr = d.freeCtr := rfl
@[simp] theorem dropTicket_out (n : Nat) (d : Die) : (dropTicket n d).out = d.out := rfl

/-! ## modSession -/

@[simp] theorem modSession_which (n : Nat) (f : Session → Session) (d : Die) : (modSession n f d).which = d.which := rfl
@[simp] theorem modSession_phase (n : Nat) (f : Session → Session) (d : Die) : (modSession n f d).phase = d.phase := rfl
@[simp] theorem modSession_phaseSlot (n : Nat) (f : Session → Session) (d : Die) :
    (modSession n f d).phaseSlot = d.phaseSlot :=
  rfl
@[simp] theorem modSession_regs (n : Nat) (f : Session → Session) (d : Die) : (modSession n f d).regs = d.regs := rfl
@[simp] theorem modSession_errs (n : Nat) (f : Session → Session) (d : Die) : (modSession n f d).errs = d.errs := rfl
@[simp] theorem modSession_wlk (n : Nat) (f : Session → Session) (d : Die) : (modSession n f d).wlk = d.wlk := rfl
@[simp] theorem modSession_wrd (n : Nat) (f : Session → Session) (d : Die) : (modSession n f d).wrd = d.wrd := rfl
@[simp] theorem modSession_chn (n : Nat) (f : Session → Session) (d : Die) : (modSession n f d).chn = d.chn := rfl
@[simp] theorem modSession_rat (n : Nat) (f : Session → Session) (d : Die) : (modSession n f d).rat = d.rat := rfl
@[simp] theorem modSession_adm (n : Nat) (f : Session → Session) (d : Die) : (modSession n f d).adm = d.adm := rfl
@[simp] theorem modSession_cad (n : Nat) (f : Session → Session) (d : Die) : (modSession n f d).cad = d.cad := rfl
@[simp] theorem modSession_sealing (n : Nat) (f : Session → Session) (d : Die) :
    (modSession n f d).sealing = d.sealing :=
  rfl
@[simp] theorem modSession_res (n : Nat) (f : Session → Session) (d : Die) : (modSession n f d).res = d.res := rfl
@[simp] theorem modSession_bnd (n : Nat) (f : Session → Session) (d : Die) : (modSession n f d).bnd = d.bnd := rfl
@[simp] theorem modSession_nle (n : Nat) (f : Session → Session) (d : Die) : (modSession n f d).nle = d.nle := rfl
@[simp] theorem modSession_cwe (n : Nat) (f : Session → Session) (d : Die) : (modSession n f d).cwe = d.cwe := rfl
@[simp] theorem modSession_snt (n : Nat) (f : Session → Session) (d : Die) : (modSession n f d).snt = d.snt := rfl
@[simp] theorem modSession_shk (n : Nat) (f : Session → Session) (d : Die) : (modSession n f d).shk = d.shk := rfl
@[simp] theorem modSession_sig (n : Nat) (f : Session → Session) (d : Die) : (modSession n f d).sig = d.sig := rfl
@[simp] theorem modSession_vp (n : Nat) (f : Session → Session) (d : Die) : (modSession n f d).vp = d.vp := rfl
@[simp] theorem modSession_spk (n : Nat) (f : Session → Session) (d : Die) : (modSession n f d).spk = d.spk := rfl
@[simp] theorem modSession_dbg (n : Nat) (f : Session → Session) (d : Die) : (modSession n f d).dbg = d.dbg := rfl
@[simp] theorem modSession_sntb (n : Nat) (f : Session → Session) (d : Die) : (modSession n f d).sntb = d.sntb := rfl
@[simp] theorem modSession_tim (n : Nat) (f : Session → Session) (d : Die) : (modSession n f d).tim = d.tim := rfl
@[simp] theorem modSession_hst (n : Nat) (f : Session → Session) (d : Die) : (modSession n f d).hst = d.hst := rfl
@[simp] theorem modSession_ing (n : Nat) (f : Session → Session) (d : Die) : (modSession n f d).ing = d.ing := rfl
@[simp] theorem modSession_wdn (n : Nat) (f : Session → Session) (d : Die) : (modSession n f d).wdn = d.wdn := rfl
@[simp] theorem modSession_fcu (n : Nat) (f : Session → Session) (d : Die) : (modSession n f d).fcu = d.fcu := rfl
@[simp] theorem modSession_mem (n : Nat) (f : Session → Session) (d : Die) : (modSession n f d).mem = d.mem := rfl
@[simp] theorem modSession_key_seed (n : Nat) (f : Session → Session) (d : Die) :
    (modSession n f d).key.seed = d.key.seed :=
  rfl
@[simp] theorem modSession_key_idSecret (n : Nat) (f : Session → Session) (d : Die) :
    (modSession n f d).key.idSecret = d.key.idSecret :=
  rfl
@[simp] theorem modSession_key_idPublic (n : Nat) (f : Session → Session) (d : Die) :
    (modSession n f d).key.idPublic = d.key.idPublic :=
  rfl
@[simp] theorem modSession_key_device (n : Nat) (f : Session → Session) (d : Die) :
    (modSession n f d).key.device = d.key.device :=
  rfl
@[simp] theorem modSession_key_rpmb (n : Nat) (f : Session → Session) (d : Die) :
    (modSession n f d).key.rpmb = d.key.rpmb :=
  rfl
@[simp] theorem modSession_key_bind (n : Nat) (f : Session → Session) (d : Die) :
    (modSession n f d).key.bind = d.key.bind :=
  rfl
@[simp] theorem modSession_key_fwVersion (n : Nat) (f : Session → Session) (d : Die) :
    (modSession n f d).key.fwVersion = d.key.fwVersion :=
  rfl
@[simp] theorem modSession_key_fwSlot (n : Nat) (f : Session → Session) (d : Die) :
    (modSession n f d).key.fwSlot = d.key.fwSlot :=
  rfl
@[simp] theorem modSession_key_fwSvn (n : Nat) (f : Session → Session) (d : Die) :
    (modSession n f d).key.fwSvn = d.key.fwSvn :=
  rfl
@[simp] theorem modSession_key_mapPayload (n : Nat) (f : Session → Session) (d : Die) :
    (modSession n f d).key.mapPayload = d.key.mapPayload :=
  rfl
@[simp] theorem modSession_key_mapDigest (n : Nat) (f : Session → Session) (d : Die) :
    (modSession n f d).key.mapDigest = d.key.mapDigest :=
  rfl
@[simp] theorem modSession_key_ext (n : Nat) (f : Session → Session) (d : Die) :
    (modSession n f d).key.ext = d.key.ext :=
  rfl
@[simp] theorem modSession_key_grade (n : Nat) (f : Session → Session) (d : Die) :
    (modSession n f d).key.grade = d.key.grade :=
  rfl
@[simp] theorem modSession_key_pipes (n : Nat) (f : Session → Session) (d : Die) :
    (modSession n f d).key.pipes = d.key.pipes :=
  rfl
@[simp] theorem modSession_key_identityOk (n : Nat) (f : Session → Session) (d : Die) :
    (modSession n f d).key.identityOk = d.key.identityOk :=
  rfl
@[simp] theorem modSession_key_rpmbOk (n : Nat) (f : Session → Session) (d : Die) :
    (modSession n f d).key.rpmbOk = d.key.rpmbOk :=
  rfl
@[simp] theorem modSession_key_storageNew (n : Nat) (f : Session → Session) (d : Die) :
    (modSession n f d).key.storageNew = d.key.storageNew :=
  rfl
@[simp] theorem modSession_key_debug (n : Nat) (f : Session → Session) (d : Die) :
    (modSession n f d).key.debug = d.key.debug :=
  rfl
@[simp] theorem modSession_key_nonce (n : Nat) (f : Session → Session) (d : Die) :
    (modSession n f d).key.nonce = d.key.nonce :=
  rfl
@[simp] theorem modSession_key_trust (n : Nat) (f : Session → Session) (d : Die) :
    (modSession n f d).key.trust = d.key.trust :=
  rfl
@[simp] theorem modSession_key_step (n : Nat) (f : Session → Session) (d : Die) :
    (modSession n f d).key.step = d.key.step :=
  rfl
@[simp] theorem modSession_key_cause (n : Nat) (f : Session → Session) (d : Die) :
    (modSession n f d).key.cause = d.key.cause :=
  rfl
@[simp] theorem modSession_key_corrected (n : Nat) (f : Session → Session) (d : Die) :
    (modSession n f d).key.corrected = d.key.corrected :=
  rfl
@[simp] theorem modSession_key_nextId (n : Nat) (f : Session → Session) (d : Die) :
    (modSession n f d).key.nextId = d.key.nextId :=
  rfl
@[simp] theorem modSession_key_opens (n : Nat) (f : Session → Session) (d : Die) :
    (modSession n f d).key.opens = d.key.opens :=
  rfl
@[simp] theorem modSession_key_writes (n : Nat) (f : Session → Session) (d : Die) :
    (modSession n f d).key.writes = d.key.writes :=
  rfl
@[simp] theorem modSession_key_bulk (n : Nat) (f : Session → Session) (d : Die) :
    (modSession n f d).key.bulk = d.key.bulk :=
  rfl
@[simp] theorem modSession_key_image (n : Nat) (f : Session → Session) (d : Die) :
    (modSession n f d).key.image = d.key.image :=
  rfl
@[simp] theorem modSession_key_flash (n : Nat) (f : Session → Session) (d : Die) :
    (modSession n f d).key.flash = d.key.flash :=
  rfl
@[simp] theorem modSession_pel (n : Nat) (f : Session → Session) (d : Die) : (modSession n f d).pel = d.pel := rfl
@[simp] theorem modSession_descs (n : Nat) (f : Session → Session) (d : Die) : (modSession n f d).descs = d.descs := rfl
@[simp] theorem modSession_freeCtr (n : Nat) (f : Session → Session) (d : Die) :
    (modSession n f d).freeCtr = d.freeCtr :=
  rfl
@[simp] theorem modSession_out (n : Nat) (f : Session → Session) (d : Die) : (modSession n f d).out = d.out := rfl

/-! ## setRatchet -/

@[simp] theorem setRatchet_which (r : Nat) (x : Ratchet) (d : Die) : (setRatchet r x d).which = d.which := rfl
@[simp] theorem setRatchet_phase (r : Nat) (x : Ratchet) (d : Die) : (setRatchet r x d).phase = d.phase := rfl
@[simp] theorem setRatchet_phaseSlot (r : Nat) (x : Ratchet) (d : Die) : (setRatchet r x d).phaseSlot = d.phaseSlot :=
  rfl
@[simp] theorem setRatchet_regs (r : Nat) (x : Ratchet) (d : Die) : (setRatchet r x d).regs = d.regs := rfl
@[simp] theorem setRatchet_errs (r : Nat) (x : Ratchet) (d : Die) : (setRatchet r x d).errs = d.errs := rfl
@[simp] theorem setRatchet_wlk (r : Nat) (x : Ratchet) (d : Die) : (setRatchet r x d).wlk = d.wlk := rfl
@[simp] theorem setRatchet_wrd (r : Nat) (x : Ratchet) (d : Die) : (setRatchet r x d).wrd = d.wrd := rfl
@[simp] theorem setRatchet_chn (r : Nat) (x : Ratchet) (d : Die) : (setRatchet r x d).chn = d.chn := rfl
@[simp] theorem setRatchet_rat_loHeld (r : Nat) (x : Ratchet) (d : Die) :
    (setRatchet r x d).rat.loHeld = d.rat.loHeld :=
  rfl
@[simp] theorem setRatchet_rat_hiLatch (r : Nat) (x : Ratchet) (d : Die) :
    (setRatchet r x d).rat.hiLatch = d.rat.hiLatch :=
  rfl
@[simp] theorem setRatchet_adm (r : Nat) (x : Ratchet) (d : Die) : (setRatchet r x d).adm = d.adm := rfl
@[simp] theorem setRatchet_cad (r : Nat) (x : Ratchet) (d : Die) : (setRatchet r x d).cad = d.cad := rfl
@[simp] theorem setRatchet_sealing (r : Nat) (x : Ratchet) (d : Die) : (setRatchet r x d).sealing = d.sealing := rfl
@[simp] theorem setRatchet_res (r : Nat) (x : Ratchet) (d : Die) : (setRatchet r x d).res = d.res := rfl
@[simp] theorem setRatchet_bnd (r : Nat) (x : Ratchet) (d : Die) : (setRatchet r x d).bnd = d.bnd := rfl
@[simp] theorem setRatchet_nle (r : Nat) (x : Ratchet) (d : Die) : (setRatchet r x d).nle = d.nle := rfl
@[simp] theorem setRatchet_cwe (r : Nat) (x : Ratchet) (d : Die) : (setRatchet r x d).cwe = d.cwe := rfl
@[simp] theorem setRatchet_snt (r : Nat) (x : Ratchet) (d : Die) : (setRatchet r x d).snt = d.snt := rfl
@[simp] theorem setRatchet_shk (r : Nat) (x : Ratchet) (d : Die) : (setRatchet r x d).shk = d.shk := rfl
@[simp] theorem setRatchet_sig (r : Nat) (x : Ratchet) (d : Die) : (setRatchet r x d).sig = d.sig := rfl
@[simp] theorem setRatchet_vp (r : Nat) (x : Ratchet) (d : Die) : (setRatchet r x d).vp = d.vp := rfl
@[simp] theorem setRatchet_spk (r : Nat) (x : Ratchet) (d : Die) : (setRatchet r x d).spk = d.spk := rfl
@[simp] theorem setRatchet_dbg (r : Nat) (x : Ratchet) (d : Die) : (setRatchet r x d).dbg = d.dbg := rfl
@[simp] theorem setRatchet_sntb (r : Nat) (x : Ratchet) (d : Die) : (setRatchet r x d).sntb = d.sntb := rfl
@[simp] theorem setRatchet_tim (r : Nat) (x : Ratchet) (d : Die) : (setRatchet r x d).tim = d.tim := rfl
@[simp] theorem setRatchet_hst (r : Nat) (x : Ratchet) (d : Die) : (setRatchet r x d).hst = d.hst := rfl
@[simp] theorem setRatchet_ing (r : Nat) (x : Ratchet) (d : Die) : (setRatchet r x d).ing = d.ing := rfl
@[simp] theorem setRatchet_wdn (r : Nat) (x : Ratchet) (d : Die) : (setRatchet r x d).wdn = d.wdn := rfl
@[simp] theorem setRatchet_fcu (r : Nat) (x : Ratchet) (d : Die) : (setRatchet r x d).fcu = d.fcu := rfl
@[simp] theorem setRatchet_mem (r : Nat) (x : Ratchet) (d : Die) : (setRatchet r x d).mem = d.mem := rfl
@[simp] theorem setRatchet_key (r : Nat) (x : Ratchet) (d : Die) : (setRatchet r x d).key = d.key := rfl
@[simp] theorem setRatchet_pel (r : Nat) (x : Ratchet) (d : Die) : (setRatchet r x d).pel = d.pel := rfl
@[simp] theorem setRatchet_descs (r : Nat) (x : Ratchet) (d : Die) : (setRatchet r x d).descs = d.descs := rfl
@[simp] theorem setRatchet_freeCtr (r : Nat) (x : Ratchet) (d : Die) : (setRatchet r x d).freeCtr = d.freeCtr := rfl
@[simp] theorem setRatchet_out (r : Nat) (x : Ratchet) (d : Die) : (setRatchet r x d).out = d.out := rfl

/-! ## sendSpoke -/

@[simp] theorem sendSpoke_which (t u c x y z k : Nat) (p q : Bytes) (d : Die) :
    (sendSpoke t u c x y z k p q d).which = d.which :=
  rfl
@[simp] theorem sendSpoke_phase (t u c x y z k : Nat) (p q : Bytes) (d : Die) :
    (sendSpoke t u c x y z k p q d).phase = d.phase :=
  rfl
@[simp] theorem sendSpoke_phaseSlot (t u c x y z k : Nat) (p q : Bytes) (d : Die) :
    (sendSpoke t u c x y z k p q d).phaseSlot = d.phaseSlot :=
  rfl
@[simp] theorem sendSpoke_regs (t u c x y z k : Nat) (p q : Bytes) (d : Die) :
    (sendSpoke t u c x y z k p q d).regs = d.regs :=
  rfl
@[simp] theorem sendSpoke_errs (t u c x y z k : Nat) (p q : Bytes) (d : Die) :
    (sendSpoke t u c x y z k p q d).errs = d.errs :=
  rfl
@[simp] theorem sendSpoke_wlk (t u c x y z k : Nat) (p q : Bytes) (d : Die) :
    (sendSpoke t u c x y z k p q d).wlk = d.wlk :=
  rfl
@[simp] theorem sendSpoke_wrd (t u c x y z k : Nat) (p q : Bytes) (d : Die) :
    (sendSpoke t u c x y z k p q d).wrd = d.wrd :=
  rfl
@[simp] theorem sendSpoke_chn (t u c x y z k : Nat) (p q : Bytes) (d : Die) :
    (sendSpoke t u c x y z k p q d).chn = d.chn :=
  rfl
@[simp] theorem sendSpoke_rat (t u c x y z k : Nat) (p q : Bytes) (d : Die) :
    (sendSpoke t u c x y z k p q d).rat = d.rat :=
  rfl
@[simp] theorem sendSpoke_adm (t u c x y z k : Nat) (p q : Bytes) (d : Die) :
    (sendSpoke t u c x y z k p q d).adm = d.adm :=
  rfl
@[simp] theorem sendSpoke_cad (t u c x y z k : Nat) (p q : Bytes) (d : Die) :
    (sendSpoke t u c x y z k p q d).cad = d.cad :=
  rfl
@[simp] theorem sendSpoke_sealing (t u c x y z k : Nat) (p q : Bytes) (d : Die) :
    (sendSpoke t u c x y z k p q d).sealing = d.sealing :=
  rfl
@[simp] theorem sendSpoke_res (t u c x y z k : Nat) (p q : Bytes) (d : Die) :
    (sendSpoke t u c x y z k p q d).res = d.res :=
  rfl
@[simp] theorem sendSpoke_bnd (t u c x y z k : Nat) (p q : Bytes) (d : Die) :
    (sendSpoke t u c x y z k p q d).bnd = d.bnd :=
  rfl
@[simp] theorem sendSpoke_nle (t u c x y z k : Nat) (p q : Bytes) (d : Die) :
    (sendSpoke t u c x y z k p q d).nle = d.nle :=
  rfl
@[simp] theorem sendSpoke_cwe (t u c x y z k : Nat) (p q : Bytes) (d : Die) :
    (sendSpoke t u c x y z k p q d).cwe = d.cwe :=
  rfl
@[simp] theorem sendSpoke_snt (t u c x y z k : Nat) (p q : Bytes) (d : Die) :
    (sendSpoke t u c x y z k p q d).snt = d.snt :=
  rfl
@[simp] theorem sendSpoke_shk (t u c x y z k : Nat) (p q : Bytes) (d : Die) :
    (sendSpoke t u c x y z k p q d).shk = d.shk :=
  rfl
@[simp] theorem sendSpoke_sig (t u c x y z k : Nat) (p q : Bytes) (d : Die) :
    (sendSpoke t u c x y z k p q d).sig = d.sig :=
  rfl
@[simp] theorem sendSpoke_vp (t u c x y z k : Nat) (p q : Bytes) (d : Die) :
    (sendSpoke t u c x y z k p q d).vp = d.vp :=
  rfl
@[simp] theorem sendSpoke_spk (t u c x y z k : Nat) (p q : Bytes) (d : Die) :
    (sendSpoke t u c x y z k p q d).spk = d.spk :=
  rfl
@[simp] theorem sendSpoke_dbg (t u c x y z k : Nat) (p q : Bytes) (d : Die) :
    (sendSpoke t u c x y z k p q d).dbg = d.dbg :=
  rfl
@[simp] theorem sendSpoke_sntb (t u c x y z k : Nat) (p q : Bytes) (d : Die) :
    (sendSpoke t u c x y z k p q d).sntb = d.sntb :=
  rfl
@[simp] theorem sendSpoke_tim (t u c x y z k : Nat) (p q : Bytes) (d : Die) :
    (sendSpoke t u c x y z k p q d).tim = d.tim :=
  rfl
@[simp] theorem sendSpoke_hst (t u c x y z k : Nat) (p q : Bytes) (d : Die) :
    (sendSpoke t u c x y z k p q d).hst = d.hst :=
  rfl
@[simp] theorem sendSpoke_ing (t u c x y z k : Nat) (p q : Bytes) (d : Die) :
    (sendSpoke t u c x y z k p q d).ing = d.ing :=
  rfl
@[simp] theorem sendSpoke_wdn (t u c x y z k : Nat) (p q : Bytes) (d : Die) :
    (sendSpoke t u c x y z k p q d).wdn = d.wdn :=
  rfl
@[simp] theorem sendSpoke_fcu (t u c x y z k : Nat) (p q : Bytes) (d : Die) :
    (sendSpoke t u c x y z k p q d).fcu = d.fcu :=
  rfl
@[simp] theorem sendSpoke_mem (t u c x y z k : Nat) (p q : Bytes) (d : Die) :
    (sendSpoke t u c x y z k p q d).mem = d.mem :=
  rfl
@[simp] theorem sendSpoke_key (t u c x y z k : Nat) (p q : Bytes) (d : Die) :
    (sendSpoke t u c x y z k p q d).key = d.key :=
  rfl
@[simp] theorem sendSpoke_pel (t u c x y z k : Nat) (p q : Bytes) (d : Die) :
    (sendSpoke t u c x y z k p q d).pel = d.pel :=
  rfl
@[simp] theorem sendSpoke_descs (t u c x y z k : Nat) (p q : Bytes) (d : Die) :
    (sendSpoke t u c x y z k p q d).descs = d.descs :=
  rfl
@[simp] theorem sendSpoke_freeCtr (t u c x y z k : Nat) (p q : Bytes) (d : Die) :
    (sendSpoke t u c x y z k p q d).freeCtr = d.freeCtr :=
  rfl

end Sys2Proof.Machine
end

