-- ==== Sys2Proof/Laws/Fields.lean ====
section
/-! SUPPORT. The fields of a die after each operation that raises a BLK_ERR bit or sends something: what no such
operation can change. -/

namespace Sys2Proof.Machine

/-! ## What further operations change -/

theorem answer_parts (k i n s g f : Nat) (b : Bytes) (d : Die) :
    ∃ h c e l o q, answer k i n s g f b d =
      { d with hst := h, regs := { d.regs with cnt := c }, errs := e, fcu := { d.fcu with pend := l }, out := o
               key := { d.key with sessions := q } } := by
  unfold answer
  split
  · exact ⟨d.hst, d.regs.cnt, d.errs, d.fcu.pend, d.out, d.key.sessions, rfl⟩
  · extract_lets w
    obtain ⟨h, c, e, l, o, hh⟩ := sendRaw_parts k w (modSession i (fun s =>
      { s with downSeq := s.downSeq + 1, cache := ((n, w) :: s.cache).take 64 }) d)
    exact ⟨h, c, e, l, o, _, by rw [hh]; rfl⟩

theorem sendResult_parts (i n s f : Nat) (b : Bytes) (d : Die) :
    ∃ h c e l o q, sendResult i n s f b d =
      { d with hst := h, regs := { d.regs with cnt := c }, errs := e, fcu := { d.fcu with pend := l }, out := o
               key := { d.key with sessions := q } } := answer_parts 2 i n s 0 f b d

/-- What changes no more than the host port, counters, error pages, sessions and the output, step by step, changes no
more over a list. -/
theorem foldl_send_parts {α : Type} (g : Die → α → Die)
    (hg : ∀ d a, ∃ h c e l o q, g d a =
      { d with hst := h, regs := { d.regs with cnt := c }, errs := e, fcu := { d.fcu with pend := l }, out := o
               key := { d.key with sessions := q } }) (as : List α) (d : Die) :
    ∃ h c e l o q, as.foldl g d =
      { d with hst := h, regs := { d.regs with cnt := c }, errs := e, fcu := { d.fcu with pend := l }, out := o
               key := { d.key with sessions := q } } := by
  induction as generalizing d with
  | nil => exact ⟨d.hst, d.regs.cnt, d.errs, d.fcu.pend, d.out, d.key.sessions, rfl⟩
  | cons a r ih =>
    have one := hg d a
    have rest := ih (g d a)
    rw [List.foldl_cons]
    generalize g d a = x at one rest
    rcases one with ⟨_, _, _, _, _, _, rfl⟩
    exact rest

theorem sendSeal_parts (n : Nat) (b : Bytes) (d : Die) :
    ∃ h c e l o q, sendSeal n b d =
      { d with hst := h, regs := { d.regs with cnt := c }, errs := e, fcu := { d.fcu with pend := l }, out := o
               key := { d.key with sessions := q } } := by
  unfold sendSeal
  exact foldl_send_parts _ (fun d s => foldl_send_parts _ (fun d fr => sendFrame_parts _ _ _ _ _ _ _ d) _ d) _ d

theorem changePhase_parts (p : Phase) (d : Die) :
    ∃ n h c e l o q, changePhase p d =
      { d with phase := p, phaseSlot := n, hst := h, regs := { d.regs with cnt := c }, errs := e
               fcu := { d.fcu with pend := l }, out := o, key := { d.key with sessions := q } } := by
  unfold changePhase enterPhase
  split
  · rename_i hp
    exact ⟨d.phaseSlot, d.hst, d.regs.cnt, d.errs, d.fcu.pend, d.out, d.key.sessions, by rw [← hp]⟩
  · obtain ⟨h, c, e, l, o, q, hh⟩ := sendEvent_parts 3 (phaseCode p) { d with phase := p, phaseSlot := slotCount d }
    exact ⟨_, h, c, e, l, _, q, by rw [hh]; rfl⟩

@[simp] theorem changePhase_phase (p : Phase) (d : Die) : (changePhase p d).phase = p := by
  obtain ⟨_, _, _, _, _, _, _, h⟩ := changePhase_parts p d; rw [h]

theorem flushEgress_parts (d : Die) :
    ∃ h c e l o, flushEgress d =
      { d with hst := h, regs := { d.regs with cnt := c }, errs := e, fcu := { d.fcu with pend := l }, out := o } :=
  (sends_flushEgress d).parts

theorem hostLink_parts (u : Bool) (d : Die) :
    ∃ h c e l o, hostLink u d =
      { d with hst := h, regs := { d.regs with cnt := c }, errs := e, fcu := { d.fcu with pend := l }, out := o } := by
  apply Sends.parts
  unfold hostLink
  extract_lets now was d'
  have h' : Sends d d' := sends_updHst _ d
  split
  · exact h'.trans (sends_raise _ _ _)
  · split
    · exact h'.trans ((sends_updHst _ _).trans (sends_flushEgress _))
    · exact h'

theorem raiseRat_parts (o r v : Nat) (d : Die) :
    ∃ e l c t, raiseRat o r v d =
      { d with errs := e, fcu := { d.fcu with pend := l }, regs := { d.regs with cnt := c }, rat := { d.rat with tab := t } } := by
  unfold raiseRat
  extract_lets x w d'
  split
  · obtain ⟨e, l, h⟩ := raise_parts (ratPage r) 0 (count (ratPage r) 0x050 d)
    exact ⟨e, l, _, d.rat.tab, h⟩
  · split
    · obtain ⟨e, l, h⟩ := raise_parts (ratPage r) 1 d'
      exact ⟨e, l, _, _, h⟩
    · exact ⟨_, _, d.regs.cnt, _, rfl⟩

theorem pelOut_parts (p : Nat) (b : Bytes) (d : Die) :
    ∃ c o, pelOut p b d = { d with regs := { d.regs with cnt := c }, out := o } := by
  unfold pelOut
  split
  · exact ⟨_, _, rfl⟩
  · exact ⟨d.regs.cnt, d.out, rfl⟩

theorem sendNode_parts (t n : Nat) (k : Option Bytes) (b : Bytes) (d : Die) :
    ∃ e l c o q, sendNode t n k b d =
      { d with errs := e, fcu := { d.fcu with pend := l }, regs := { d.regs with cnt := c }, out := o
               pel := { d.pel with seq := q } } := by
  unfold sendNode
  split
  · obtain ⟨e, l, h⟩ := raise_parts pPEL 3 d
    exact ⟨e, l, _, _, d.pel.seq, h⟩
  · extract_lets head tag
    obtain ⟨c, o, h⟩ := pelOut_parts _ (head ++ fitTo 16 tag) (pelNext d)
    exact ⟨d.errs, d.fcu.pend, c, o, _, h⟩


/-! ## raiseBit -/

@[simp] theorem raiseBit_which (p : Nat) (forced : Bool) (d : Die) (b : Nat) :
    (raiseBit p forced d b).which = d.which :=
  by obtain ⟨_, _, h⟩ := raiseBit_parts p forced d b; rw [h]
@[simp] theorem raiseBit_phase (p : Nat) (forced : Bool) (d : Die) (b : Nat) :
    (raiseBit p forced d b).phase = d.phase :=
  by obtain ⟨_, _, h⟩ := raiseBit_parts p forced d b; rw [h]
@[simp] theorem raiseBit_phaseSlot (p : Nat) (forced : Bool) (d : Die) (b : Nat) :
    (raiseBit p forced d b).phaseSlot = d.phaseSlot :=
  by obtain ⟨_, _, h⟩ := raiseBit_parts p forced d b; rw [h]
@[simp] theorem raiseBit_regs (p : Nat) (forced : Bool) (d : Die) (b : Nat) : (raiseBit p forced d b).regs = d.regs :=
  by obtain ⟨_, _, h⟩ := raiseBit_parts p forced d b; rw [h]
@[simp] theorem raiseBit_wlk (p : Nat) (forced : Bool) (d : Die) (b : Nat) : (raiseBit p forced d b).wlk = d.wlk :=
  by obtain ⟨_, _, h⟩ := raiseBit_parts p forced d b; rw [h]
@[simp] theorem raiseBit_wrd (p : Nat) (forced : Bool) (d : Die) (b : Nat) : (raiseBit p forced d b).wrd = d.wrd :=
  by obtain ⟨_, _, h⟩ := raiseBit_parts p forced d b; rw [h]
@[simp] theorem raiseBit_chn (p : Nat) (forced : Bool) (d : Die) (b : Nat) : (raiseBit p forced d b).chn = d.chn :=
  by obtain ⟨_, _, h⟩ := raiseBit_parts p forced d b; rw [h]
@[simp] theorem raiseBit_rat (p : Nat) (forced : Bool) (d : Die) (b : Nat) : (raiseBit p forced d b).rat = d.rat :=
  by obtain ⟨_, _, h⟩ := raiseBit_parts p forced d b; rw [h]
@[simp] theorem raiseBit_adm (p : Nat) (forced : Bool) (d : Die) (b : Nat) : (raiseBit p forced d b).adm = d.adm :=
  by obtain ⟨_, _, h⟩ := raiseBit_parts p forced d b; rw [h]
@[simp] theorem raiseBit_cad (p : Nat) (forced : Bool) (d : Die) (b : Nat) : (raiseBit p forced d b).cad = d.cad :=
  by obtain ⟨_, _, h⟩ := raiseBit_parts p forced d b; rw [h]
@[simp] theorem raiseBit_sealing (p : Nat) (forced : Bool) (d : Die) (b : Nat) :
    (raiseBit p forced d b).sealing = d.sealing :=
  by obtain ⟨_, _, h⟩ := raiseBit_parts p forced d b; rw [h]
@[simp] theorem raiseBit_res (p : Nat) (forced : Bool) (d : Die) (b : Nat) : (raiseBit p forced d b).res = d.res :=
  by obtain ⟨_, _, h⟩ := raiseBit_parts p forced d b; rw [h]
@[simp] theorem raiseBit_bnd (p : Nat) (forced : Bool) (d : Die) (b : Nat) : (raiseBit p forced d b).bnd = d.bnd :=
  by obtain ⟨_, _, h⟩ := raiseBit_parts p forced d b; rw [h]
@[simp] theorem raiseBit_nle (p : Nat) (forced : Bool) (d : Die) (b : Nat) : (raiseBit p forced d b).nle = d.nle :=
  by obtain ⟨_, _, h⟩ := raiseBit_parts p forced d b; rw [h]
@[simp] theorem raiseBit_cwe (p : Nat) (forced : Bool) (d : Die) (b : Nat) : (raiseBit p forced d b).cwe = d.cwe :=
  by obtain ⟨_, _, h⟩ := raiseBit_parts p forced d b; rw [h]
@[simp] theorem raiseBit_snt (p : Nat) (forced : Bool) (d : Die) (b : Nat) : (raiseBit p forced d b).snt = d.snt :=
  by obtain ⟨_, _, h⟩ := raiseBit_parts p forced d b; rw [h]
@[simp] theorem raiseBit_shk (p : Nat) (forced : Bool) (d : Die) (b : Nat) : (raiseBit p forced d b).shk = d.shk :=
  by obtain ⟨_, _, h⟩ := raiseBit_parts p forced d b; rw [h]
@[simp] theorem raiseBit_sig (p : Nat) (forced : Bool) (d : Die) (b : Nat) : (raiseBit p forced d b).sig = d.sig :=
  by obtain ⟨_, _, h⟩ := raiseBit_parts p forced d b; rw [h]
@[simp] theorem raiseBit_vp (p : Nat) (forced : Bool) (d : Die) (b : Nat) : (raiseBit p forced d b).vp = d.vp :=
  by obtain ⟨_, _, h⟩ := raiseBit_parts p forced d b; rw [h]
@[simp] theorem raiseBit_spk (p : Nat) (forced : Bool) (d : Die) (b : Nat) : (raiseBit p forced d b).spk = d.spk :=
  by obtain ⟨_, _, h⟩ := raiseBit_parts p forced d b; rw [h]
@[simp] theorem raiseBit_dbg (p : Nat) (forced : Bool) (d : Die) (b : Nat) : (raiseBit p forced d b).dbg = d.dbg :=
  by obtain ⟨_, _, h⟩ := raiseBit_parts p forced d b; rw [h]
@[simp] theorem raiseBit_sntb (p : Nat) (forced : Bool) (d : Die) (b : Nat) : (raiseBit p forced d b).sntb = d.sntb :=
  by obtain ⟨_, _, h⟩ := raiseBit_parts p forced d b; rw [h]
@[simp] theorem raiseBit_tim (p : Nat) (forced : Bool) (d : Die) (b : Nat) : (raiseBit p forced d b).tim = d.tim :=
  by obtain ⟨_, _, h⟩ := raiseBit_parts p forced d b; rw [h]
@[simp] theorem raiseBit_hst (p : Nat) (forced : Bool) (d : Die) (b : Nat) : (raiseBit p forced d b).hst = d.hst :=
  by obtain ⟨_, _, h⟩ := raiseBit_parts p forced d b; rw [h]
@[simp] theorem raiseBit_ing (p : Nat) (forced : Bool) (d : Die) (b : Nat) : (raiseBit p forced d b).ing = d.ing :=
  by obtain ⟨_, _, h⟩ := raiseBit_parts p forced d b; rw [h]
@[simp] theorem raiseBit_wdn (p : Nat) (forced : Bool) (d : Die) (b : Nat) : (raiseBit p forced d b).wdn = d.wdn :=
  by obtain ⟨_, _, h⟩ := raiseBit_parts p forced d b; rw [h]
@[simp] theorem raiseBit_fcu_src (p : Nat) (forced : Bool) (d : Die) (b : Nat) :
    (raiseBit p forced d b).fcu.src = d.fcu.src :=
  by obtain ⟨_, _, h⟩ := raiseBit_parts p forced d b; rw [h]
@[simp] theorem raiseBit_fcu_sev (p : Nat) (forced : Bool) (d : Die) (b : Nat) :
    (raiseBit p forced d b).fcu.sev = d.fcu.sev :=
  by obtain ⟨_, _, h⟩ := raiseBit_parts p forced d b; rw [h]
@[simp] theorem raiseBit_fcu_first (p : Nat) (forced : Bool) (d : Die) (b : Nat) :
    (raiseBit p forced d b).fcu.first = d.fcu.first :=
  by obtain ⟨_, _, h⟩ := raiseBit_parts p forced d b; rw [h]
@[simp] theorem raiseBit_fcu_second (p : Nat) (forced : Bool) (d : Die) (b : Nat) :
    (raiseBit p forced d b).fcu.second = d.fcu.second :=
  by obtain ⟨_, _, h⟩ := raiseBit_parts p forced d b; rw [h]
@[simp] theorem raiseBit_fcu_echo (p : Nat) (forced : Bool) (d : Die) (b : Nat) :
    (raiseBit p forced d b).fcu.echo = d.fcu.echo :=
  by obtain ⟨_, _, h⟩ := raiseBit_parts p forced d b; rw [h]
@[simp] theorem raiseBit_fcu_asserted (p : Nat) (forced : Bool) (d : Die) (b : Nat) :
    (raiseBit p forced d b).fcu.asserted = d.fcu.asserted :=
  by obtain ⟨_, _, h⟩ := raiseBit_parts p forced d b; rw [h]
@[simp] theorem raiseBit_fcu_alive (p : Nat) (forced : Bool) (d : Die) (b : Nat) :
    (raiseBit p forced d b).fcu.alive = d.fcu.alive :=
  by obtain ⟨_, _, h⟩ := raiseBit_parts p forced d b; rw [h]
@[simp] theorem raiseBit_fcu_minRun (p : Nat) (forced : Bool) (d : Die) (b : Nat) :
    (raiseBit p forced d b).fcu.minRun = d.fcu.minRun :=
  by obtain ⟨_, _, h⟩ := raiseBit_parts p forced d b; rw [h]
@[simp] theorem raiseBit_fcu_acked (p : Nat) (forced : Bool) (d : Die) (b : Nat) :
    (raiseBit p forced d b).fcu.acked = d.fcu.acked :=
  by obtain ⟨_, _, h⟩ := raiseBit_parts p forced d b; rw [h]
@[simp] theorem raiseBit_fcu_stopped (p : Nat) (forced : Bool) (d : Die) (b : Nat) :
    (raiseBit p forced d b).fcu.stopped = d.fcu.stopped :=
  by obtain ⟨_, _, h⟩ := raiseBit_parts p forced d b; rw [h]
@[simp] theorem raiseBit_fcu_hold (p : Nat) (forced : Bool) (d : Die) (b : Nat) :
    (raiseBit p forced d b).fcu.hold = d.fcu.hold :=
  by obtain ⟨_, _, h⟩ := raiseBit_parts p forced d b; rw [h]
@[simp] theorem raiseBit_fcu_sysHold (p : Nat) (forced : Bool) (d : Die) (b : Nat) :
    (raiseBit p forced d b).fcu.sysHold = d.fcu.sysHold :=
  by obtain ⟨_, _, h⟩ := raiseBit_parts p forced d b; rw [h]
@[simp] theorem raiseBit_fcu_entries (p : Nat) (forced : Bool) (d : Die) (b : Nat) :
    (raiseBit p forced d b).fcu.entries = d.fcu.entries :=
  by obtain ⟨_, _, h⟩ := raiseBit_parts p forced d b; rw [h]
@[simp] theorem raiseBit_fcu_lastSrc (p : Nat) (forced : Bool) (d : Die) (b : Nat) :
    (raiseBit p forced d b).fcu.lastSrc = d.fcu.lastSrc :=
  by obtain ⟨_, _, h⟩ := raiseBit_parts p forced d b; rw [h]
@[simp] theorem raiseBit_fcu_held (p : Nat) (forced : Bool) (d : Die) (b : Nat) :
    (raiseBit p forced d b).fcu.held = d.fcu.held :=
  by obtain ⟨_, _, h⟩ := raiseBit_parts p forced d b; rw [h]
@[simp] theorem raiseBit_fcu_entryNs (p : Nat) (forced : Bool) (d : Die) (b : Nat) :
    (raiseBit p forced d b).fcu.entryNs = d.fcu.entryNs :=
  by obtain ⟨_, _, h⟩ := raiseBit_parts p forced d b; rw [h]
@[simp] theorem raiseBit_fcu_step (p : Nat) (forced : Bool) (d : Die) (b : Nat) :
    (raiseBit p forced d b).fcu.step = d.fcu.step :=
  by obtain ⟨_, _, h⟩ := raiseBit_parts p forced d b; rw [h]
@[simp] theorem raiseBit_fcu_clkLost (p : Nat) (forced : Bool) (d : Die) (b : Nat) :
    (raiseBit p forced d b).fcu.clkLost = d.fcu.clkLost :=
  by obtain ⟨_, _, h⟩ := raiseBit_parts p forced d b; rw [h]
@[simp] theorem raiseBit_fcu_parityBad (p : Nat) (forced : Bool) (d : Die) (b : Nat) :
    (raiseBit p forced d b).fcu.parityBad = d.fcu.parityBad :=
  by obtain ⟨_, _, h⟩ := raiseBit_parts p forced d b; rw [h]
@[simp] theorem raiseBit_fcu_railBad (p : Nat) (forced : Bool) (d : Die) (b : Nat) :
    (raiseBit p forced d b).fcu.railBad = d.fcu.railBad :=
  by obtain ⟨_, _, h⟩ := raiseBit_parts p forced d b; rw [h]
@[simp] theorem raiseBit_fcu_stalled (p : Nat) (forced : Bool) (d : Die) (b : Nat) :
    (raiseBit p forced d b).fcu.stalled = d.fcu.stalled :=
  by obtain ⟨_, _, h⟩ := raiseBit_parts p forced d b; rw [h]
@[simp] theorem raiseBit_fcu_sysclkOk (p : Nat) (forced : Bool) (d : Die) (b : Nat) :
    (raiseBit p forced d b).fcu.sysclkOk = d.fcu.sysclkOk :=
  by obtain ⟨_, _, h⟩ := raiseBit_parts p forced d b; rw [h]
@[simp] theorem raiseBit_fcu_tj (p : Nat) (forced : Bool) (d : Die) (b : Nat) :
    (raiseBit p forced d b).fcu.tj = d.fcu.tj :=
  by obtain ⟨_, _, h⟩ := raiseBit_parts p forced d b; rw [h]
@[simp] theorem raiseBit_fcu_tjPeak (p : Nat) (forced : Bool) (d : Die) (b : Nat) :
    (raiseBit p forced d b).fcu.tjPeak = d.fcu.tjPeak :=
  by obtain ⟨_, _, h⟩ := raiseBit_parts p forced d b; rw [h]
@[simp] theorem raiseBit_mem (p : Nat) (forced : Bool) (d : Die) (b : Nat) : (raiseBit p forced d b).mem = d.mem :=
  by obtain ⟨_, _, h⟩ := raiseBit_parts p forced d b; rw [h]
@[simp] theorem raiseBit_key (p : Nat) (forced : Bool) (d : Die) (b : Nat) : (raiseBit p forced d b).key = d.key :=
  by obtain ⟨_, _, h⟩ := raiseBit_parts p forced d b; rw [h]
@[simp] theorem raiseBit_pel (p : Nat) (forced : Bool) (d : Die) (b : Nat) : (raiseBit p forced d b).pel = d.pel :=
  by obtain ⟨_, _, h⟩ := raiseBit_parts p forced d b; rw [h]
@[simp] theorem raiseBit_descs (p : Nat) (forced : Bool) (d : Die) (b : Nat) :
    (raiseBit p forced d b).descs = d.descs :=
  by obtain ⟨_, _, h⟩ := raiseBit_parts p forced d b; rw [h]
@[simp] theorem raiseBit_freeCtr (p : Nat) (forced : Bool) (d : Die) (b : Nat) :
    (raiseBit p forced d b).freeCtr = d.freeCtr :=
  by obtain ⟨_, _, h⟩ := raiseBit_parts p forced d b; rw [h]
@[simp] theorem raiseBit_out (p : Nat) (forced : Bool) (d : Die) (b : Nat) : (raiseBit p forced d b).out = d.out :=
  by obtain ⟨_, _, h⟩ := raiseBit_parts p forced d b; rw [h]

/-! ## raiseAll -/

@[simp] theorem raiseAll_which (p : Nat) (bs : List Nat) (forced : Bool) (d : Die) :
    (raiseAll p bs forced d).which = d.which :=
  by obtain ⟨_, _, h⟩ := raiseAll_parts p bs forced d; rw [h]
@[simp] theorem raiseAll_phase (p : Nat) (bs : List Nat) (forced : Bool) (d : Die) :
    (raiseAll p bs forced d).phase = d.phase :=
  by obtain ⟨_, _, h⟩ := raiseAll_parts p bs forced d; rw [h]
@[simp] theorem raiseAll_phaseSlot (p : Nat) (bs : List Nat) (forced : Bool) (d : Die) :
    (raiseAll p bs forced d).phaseSlot = d.phaseSlot :=
  by obtain ⟨_, _, h⟩ := raiseAll_parts p bs forced d; rw [h]
@[simp] theorem raiseAll_regs (p : Nat) (bs : List Nat) (forced : Bool) (d : Die) :
    (raiseAll p bs forced d).regs = d.regs :=
  by obtain ⟨_, _, h⟩ := raiseAll_parts p bs forced d; rw [h]
@[simp] theorem raiseAll_wlk (p : Nat) (bs : List Nat) (forced : Bool) (d : Die) :
    (raiseAll p bs forced d).wlk = d.wlk :=
  by obtain ⟨_, _, h⟩ := raiseAll_parts p bs forced d; rw [h]
@[simp] theorem raiseAll_wrd (p : Nat) (bs : List Nat) (forced : Bool) (d : Die) :
    (raiseAll p bs forced d).wrd = d.wrd :=
  by obtain ⟨_, _, h⟩ := raiseAll_parts p bs forced d; rw [h]
@[simp] theorem raiseAll_chn (p : Nat) (bs : List Nat) (forced : Bool) (d : Die) :
    (raiseAll p bs forced d).chn = d.chn :=
  by obtain ⟨_, _, h⟩ := raiseAll_parts p bs forced d; rw [h]
@[simp] theorem raiseAll_rat (p : Nat) (bs : List Nat) (forced : Bool) (d : Die) :
    (raiseAll p bs forced d).rat = d.rat :=
  by obtain ⟨_, _, h⟩ := raiseAll_parts p bs forced d; rw [h]
@[simp] theorem raiseAll_adm (p : Nat) (bs : List Nat) (forced : Bool) (d : Die) :
    (raiseAll p bs forced d).adm = d.adm :=
  by obtain ⟨_, _, h⟩ := raiseAll_parts p bs forced d; rw [h]
@[simp] theorem raiseAll_cad (p : Nat) (bs : List Nat) (forced : Bool) (d : Die) :
    (raiseAll p bs forced d).cad = d.cad :=
  by obtain ⟨_, _, h⟩ := raiseAll_parts p bs forced d; rw [h]
@[simp] theorem raiseAll_sealing (p : Nat) (bs : List Nat) (forced : Bool) (d : Die) :
    (raiseAll p bs forced d).sealing = d.sealing :=
  by obtain ⟨_, _, h⟩ := raiseAll_parts p bs forced d; rw [h]
@[simp] theorem raiseAll_res (p : Nat) (bs : List Nat) (forced : Bool) (d : Die) :
    (raiseAll p bs forced d).res = d.res :=
  by obtain ⟨_, _, h⟩ := raiseAll_parts p bs forced d; rw [h]
@[simp] theorem raiseAll_bnd (p : Nat) (bs : List Nat) (forced : Bool) (d : Die) :
    (raiseAll p bs forced d).bnd = d.bnd :=
  by obtain ⟨_, _, h⟩ := raiseAll_parts p bs forced d; rw [h]
@[simp] theorem raiseAll_nle (p : Nat) (bs : List Nat) (forced : Bool) (d : Die) :
    (raiseAll p bs forced d).nle = d.nle :=
  by obtain ⟨_, _, h⟩ := raiseAll_parts p bs forced d; rw [h]
@[simp] theorem raiseAll_cwe (p : Nat) (bs : List Nat) (forced : Bool) (d : Die) :
    (raiseAll p bs forced d).cwe = d.cwe :=
  by obtain ⟨_, _, h⟩ := raiseAll_parts p bs forced d; rw [h]
@[simp] theorem raiseAll_snt (p : Nat) (bs : List Nat) (forced : Bool) (d : Die) :
    (raiseAll p bs forced d).snt = d.snt :=
  by obtain ⟨_, _, h⟩ := raiseAll_parts p bs forced d; rw [h]
@[simp] theorem raiseAll_shk (p : Nat) (bs : List Nat) (forced : Bool) (d : Die) :
    (raiseAll p bs forced d).shk = d.shk :=
  by obtain ⟨_, _, h⟩ := raiseAll_parts p bs forced d; rw [h]
@[simp] theorem raiseAll_sig (p : Nat) (bs : List Nat) (forced : Bool) (d : Die) :
    (raiseAll p bs forced d).sig = d.sig :=
  by obtain ⟨_, _, h⟩ := raiseAll_parts p bs forced d; rw [h]
@[simp] theorem raiseAll_vp (p : Nat) (bs : List Nat) (forced : Bool) (d : Die) : (raiseAll p bs forced d).vp = d.vp :=
  by obtain ⟨_, _, h⟩ := raiseAll_parts p bs forced d; rw [h]
@[simp] theorem raiseAll_spk (p : Nat) (bs : List Nat) (forced : Bool) (d : Die) :
    (raiseAll p bs forced d).spk = d.spk :=
  by obtain ⟨_, _, h⟩ := raiseAll_parts p bs forced d; rw [h]
@[simp] theorem raiseAll_dbg (p : Nat) (bs : List Nat) (forced : Bool) (d : Die) :
    (raiseAll p bs forced d).dbg = d.dbg :=
  by obtain ⟨_, _, h⟩ := raiseAll_parts p bs forced d; rw [h]
@[simp] theorem raiseAll_sntb (p : Nat) (bs : List Nat) (forced : Bool) (d : Die) :
    (raiseAll p bs forced d).sntb = d.sntb :=
  by obtain ⟨_, _, h⟩ := raiseAll_parts p bs forced d; rw [h]
@[simp] theorem raiseAll_tim (p : Nat) (bs : List Nat) (forced : Bool) (d : Die) :
    (raiseAll p bs forced d).tim = d.tim :=
  by obtain ⟨_, _, h⟩ := raiseAll_parts p bs forced d; rw [h]
@[simp] theorem raiseAll_hst (p : Nat) (bs : List Nat) (forced : Bool) (d : Die) :
    (raiseAll p bs forced d).hst = d.hst :=
  by obtain ⟨_, _, h⟩ := raiseAll_parts p bs forced d; rw [h]
@[simp] theorem raiseAll_ing (p : Nat) (bs : List Nat) (forced : Bool) (d : Die) :
    (raiseAll p bs forced d).ing = d.ing :=
  by obtain ⟨_, _, h⟩ := raiseAll_parts p bs forced d; rw [h]
@[simp] theorem raiseAll_wdn (p : Nat) (bs : List Nat) (forced : Bool) (d : Die) :
    (raiseAll p bs forced d).wdn = d.wdn :=
  by obtain ⟨_, _, h⟩ := raiseAll_parts p bs forced d; rw [h]
@[simp] theorem raiseAll_fcu_src (p : Nat) (bs : List Nat) (forced : Bool) (d : Die) :
    (raiseAll p bs forced d).fcu.src = d.fcu.src :=
  by obtain ⟨_, _, h⟩ := raiseAll_parts p bs forced d; rw [h]
@[simp] theorem raiseAll_fcu_sev (p : Nat) (bs : List Nat) (forced : Bool) (d : Die) :
    (raiseAll p bs forced d).fcu.sev = d.fcu.sev :=
  by obtain ⟨_, _, h⟩ := raiseAll_parts p bs forced d; rw [h]
@[simp] theorem raiseAll_fcu_first (p : Nat) (bs : List Nat) (forced : Bool) (d : Die) :
    (raiseAll p bs forced d).fcu.first = d.fcu.first :=
  by obtain ⟨_, _, h⟩ := raiseAll_parts p bs forced d; rw [h]
@[simp] theorem raiseAll_fcu_second (p : Nat) (bs : List Nat) (forced : Bool) (d : Die) :
    (raiseAll p bs forced d).fcu.second = d.fcu.second :=
  by obtain ⟨_, _, h⟩ := raiseAll_parts p bs forced d; rw [h]
@[simp] theorem raiseAll_fcu_echo (p : Nat) (bs : List Nat) (forced : Bool) (d : Die) :
    (raiseAll p bs forced d).fcu.echo = d.fcu.echo :=
  by obtain ⟨_, _, h⟩ := raiseAll_parts p bs forced d; rw [h]
@[simp] theorem raiseAll_fcu_asserted (p : Nat) (bs : List Nat) (forced : Bool) (d : Die) :
    (raiseAll p bs forced d).fcu.asserted = d.fcu.asserted :=
  by obtain ⟨_, _, h⟩ := raiseAll_parts p bs forced d; rw [h]
@[simp] theorem raiseAll_fcu_alive (p : Nat) (bs : List Nat) (forced : Bool) (d : Die) :
    (raiseAll p bs forced d).fcu.alive = d.fcu.alive :=
  by obtain ⟨_, _, h⟩ := raiseAll_parts p bs forced d; rw [h]
@[simp] theorem raiseAll_fcu_minRun (p : Nat) (bs : List Nat) (forced : Bool) (d : Die) :
    (raiseAll p bs forced d).fcu.minRun = d.fcu.minRun :=
  by obtain ⟨_, _, h⟩ := raiseAll_parts p bs forced d; rw [h]
@[simp] theorem raiseAll_fcu_acked (p : Nat) (bs : List Nat) (forced : Bool) (d : Die) :
    (raiseAll p bs forced d).fcu.acked = d.fcu.acked :=
  by obtain ⟨_, _, h⟩ := raiseAll_parts p bs forced d; rw [h]
@[simp] theorem raiseAll_fcu_stopped (p : Nat) (bs : List Nat) (forced : Bool) (d : Die) :
    (raiseAll p bs forced d).fcu.stopped = d.fcu.stopped :=
  by obtain ⟨_, _, h⟩ := raiseAll_parts p bs forced d; rw [h]
@[simp] theorem raiseAll_fcu_hold (p : Nat) (bs : List Nat) (forced : Bool) (d : Die) :
    (raiseAll p bs forced d).fcu.hold = d.fcu.hold :=
  by obtain ⟨_, _, h⟩ := raiseAll_parts p bs forced d; rw [h]
@[simp] theorem raiseAll_fcu_sysHold (p : Nat) (bs : List Nat) (forced : Bool) (d : Die) :
    (raiseAll p bs forced d).fcu.sysHold = d.fcu.sysHold :=
  by obtain ⟨_, _, h⟩ := raiseAll_parts p bs forced d; rw [h]
@[simp] theorem raiseAll_fcu_entries (p : Nat) (bs : List Nat) (forced : Bool) (d : Die) :
    (raiseAll p bs forced d).fcu.entries = d.fcu.entries :=
  by obtain ⟨_, _, h⟩ := raiseAll_parts p bs forced d; rw [h]
@[simp] theorem raiseAll_fcu_lastSrc (p : Nat) (bs : List Nat) (forced : Bool) (d : Die) :
    (raiseAll p bs forced d).fcu.lastSrc = d.fcu.lastSrc :=
  by obtain ⟨_, _, h⟩ := raiseAll_parts p bs forced d; rw [h]
@[simp] theorem raiseAll_fcu_held (p : Nat) (bs : List Nat) (forced : Bool) (d : Die) :
    (raiseAll p bs forced d).fcu.held = d.fcu.held :=
  by obtain ⟨_, _, h⟩ := raiseAll_parts p bs forced d; rw [h]
@[simp] theorem raiseAll_fcu_entryNs (p : Nat) (bs : List Nat) (forced : Bool) (d : Die) :
    (raiseAll p bs forced d).fcu.entryNs = d.fcu.entryNs :=
  by obtain ⟨_, _, h⟩ := raiseAll_parts p bs forced d; rw [h]
@[simp] theorem raiseAll_fcu_step (p : Nat) (bs : List Nat) (forced : Bool) (d : Die) :
    (raiseAll p bs forced d).fcu.step = d.fcu.step :=
  by obtain ⟨_, _, h⟩ := raiseAll_parts p bs forced d; rw [h]
@[simp] theorem raiseAll_fcu_clkLost (p : Nat) (bs : List Nat) (forced : Bool) (d : Die) :
    (raiseAll p bs forced d).fcu.clkLost = d.fcu.clkLost :=
  by obtain ⟨_, _, h⟩ := raiseAll_parts p bs forced d; rw [h]
@[simp] theorem raiseAll_fcu_parityBad (p : Nat) (bs : List Nat) (forced : Bool) (d : Die) :
    (raiseAll p bs forced d).fcu.parityBad = d.fcu.parityBad :=
  by obtain ⟨_, _, h⟩ := raiseAll_parts p bs forced d; rw [h]
@[simp] theorem raiseAll_fcu_railBad (p : Nat) (bs : List Nat) (forced : Bool) (d : Die) :
    (raiseAll p bs forced d).fcu.railBad = d.fcu.railBad :=
  by obtain ⟨_, _, h⟩ := raiseAll_parts p bs forced d; rw [h]
@[simp] theorem raiseAll_fcu_stalled (p : Nat) (bs : List Nat) (forced : Bool) (d : Die) :
    (raiseAll p bs forced d).fcu.stalled = d.fcu.stalled :=
  by obtain ⟨_, _, h⟩ := raiseAll_parts p bs forced d; rw [h]
@[simp] theorem raiseAll_fcu_sysclkOk (p : Nat) (bs : List Nat) (forced : Bool) (d : Die) :
    (raiseAll p bs forced d).fcu.sysclkOk = d.fcu.sysclkOk :=
  by obtain ⟨_, _, h⟩ := raiseAll_parts p bs forced d; rw [h]
@[simp] theorem raiseAll_fcu_tj (p : Nat) (bs : List Nat) (forced : Bool) (d : Die) :
    (raiseAll p bs forced d).fcu.tj = d.fcu.tj :=
  by obtain ⟨_, _, h⟩ := raiseAll_parts p bs forced d; rw [h]
@[simp] theorem raiseAll_fcu_tjPeak (p : Nat) (bs : List Nat) (forced : Bool) (d : Die) :
    (raiseAll p bs forced d).fcu.tjPeak = d.fcu.tjPeak :=
  by obtain ⟨_, _, h⟩ := raiseAll_parts p bs forced d; rw [h]
@[simp] theorem raiseAll_mem (p : Nat) (bs : List Nat) (forced : Bool) (d : Die) :
    (raiseAll p bs forced d).mem = d.mem :=
  by obtain ⟨_, _, h⟩ := raiseAll_parts p bs forced d; rw [h]
@[simp] theorem raiseAll_key (p : Nat) (bs : List Nat) (forced : Bool) (d : Die) :
    (raiseAll p bs forced d).key = d.key :=
  by obtain ⟨_, _, h⟩ := raiseAll_parts p bs forced d; rw [h]
@[simp] theorem raiseAll_pel (p : Nat) (bs : List Nat) (forced : Bool) (d : Die) :
    (raiseAll p bs forced d).pel = d.pel :=
  by obtain ⟨_, _, h⟩ := raiseAll_parts p bs forced d; rw [h]
@[simp] theorem raiseAll_descs (p : Nat) (bs : List Nat) (forced : Bool) (d : Die) :
    (raiseAll p bs forced d).descs = d.descs :=
  by obtain ⟨_, _, h⟩ := raiseAll_parts p bs forced d; rw [h]
@[simp] theorem raiseAll_freeCtr (p : Nat) (bs : List Nat) (forced : Bool) (d : Die) :
    (raiseAll p bs forced d).freeCtr = d.freeCtr :=
  by obtain ⟨_, _, h⟩ := raiseAll_parts p bs forced d; rw [h]
@[simp] theorem raiseAll_out (p : Nat) (bs : List Nat) (forced : Bool) (d : Die) :
    (raiseAll p bs forced d).out = d.out :=
  by obtain ⟨_, _, h⟩ := raiseAll_parts p bs forced d; rw [h]

/-! ## raise -/

@[simp] theorem raise_which (p b : Nat) (d : Die) : (raise p b d).which = d.which :=
  by obtain ⟨_, _, h⟩ := raise_parts p b d; rw [h]
@[simp] theorem raise_phase (p b : Nat) (d : Die) : (raise p b d).phase = d.phase :=
  by obtain ⟨_, _, h⟩ := raise_parts p b d; rw [h]
@[simp] theorem raise_phaseSlot (p b : Nat) (d : Die) : (raise p b d).phaseSlot = d.phaseSlot :=
  by obtain ⟨_, _, h⟩ := raise_parts p b d; rw [h]
@[simp] theorem raise_regs (p b : Nat) (d : Die) : (raise p b d).regs = d.regs :=
  by obtain ⟨_, _, h⟩ := raise_parts p b d; rw [h]
@[simp] theorem raise_wlk (p b : Nat) (d : Die) : (raise p b d).wlk = d.wlk :=
  by obtain ⟨_, _, h⟩ := raise_parts p b d; rw [h]
@[simp] theorem raise_wrd (p b : Nat) (d : Die) : (raise p b d).wrd = d.wrd :=
  by obtain ⟨_, _, h⟩ := raise_parts p b d; rw [h]
@[simp] theorem raise_chn (p b : Nat) (d : Die) : (raise p b d).chn = d.chn :=
  by obtain ⟨_, _, h⟩ := raise_parts p b d; rw [h]
@[simp] theorem raise_rat (p b : Nat) (d : Die) : (raise p b d).rat = d.rat :=
  by obtain ⟨_, _, h⟩ := raise_parts p b d; rw [h]
@[simp] theorem raise_adm (p b : Nat) (d : Die) : (raise p b d).adm = d.adm :=
  by obtain ⟨_, _, h⟩ := raise_parts p b d; rw [h]
@[simp] theorem raise_cad (p b : Nat) (d : Die) : (raise p b d).cad = d.cad :=
  by obtain ⟨_, _, h⟩ := raise_parts p b d; rw [h]
@[simp] theorem raise_sealing (p b : Nat) (d : Die) : (raise p b d).sealing = d.sealing :=
  by obtain ⟨_, _, h⟩ := raise_parts p b d; rw [h]
@[simp] theorem raise_res (p b : Nat) (d : Die) : (raise p b d).res = d.res :=
  by obtain ⟨_, _, h⟩ := raise_parts p b d; rw [h]
@[simp] theorem raise_bnd (p b : Nat) (d : Die) : (raise p b d).bnd = d.bnd :=
  by obtain ⟨_, _, h⟩ := raise_parts p b d; rw [h]
@[simp] theorem raise_nle (p b : Nat) (d : Die) : (raise p b d).nle = d.nle :=
  by obtain ⟨_, _, h⟩ := raise_parts p b d; rw [h]
@[simp] theorem raise_cwe (p b : Nat) (d : Die) : (raise p b d).cwe = d.cwe :=
  by obtain ⟨_, _, h⟩ := raise_parts p b d; rw [h]
@[simp] theorem raise_snt (p b : Nat) (d : Die) : (raise p b d).snt = d.snt :=
  by obtain ⟨_, _, h⟩ := raise_parts p b d; rw [h]
@[simp] theorem raise_shk (p b : Nat) (d : Die) : (raise p b d).shk = d.shk :=
  by obtain ⟨_, _, h⟩ := raise_parts p b d; rw [h]
@[simp] theorem raise_sig (p b : Nat) (d : Die) : (raise p b d).sig = d.sig :=
  by obtain ⟨_, _, h⟩ := raise_parts p b d; rw [h]
@[simp] theorem raise_vp (p b : Nat) (d : Die) : (raise p b d).vp = d.vp :=
  by obtain ⟨_, _, h⟩ := raise_parts p b d; rw [h]
@[simp] theorem raise_spk (p b : Nat) (d : Die) : (raise p b d).spk = d.spk :=
  by obtain ⟨_, _, h⟩ := raise_parts p b d; rw [h]
@[simp] theorem raise_dbg (p b : Nat) (d : Die) : (raise p b d).dbg = d.dbg :=
  by obtain ⟨_, _, h⟩ := raise_parts p b d; rw [h]
@[simp] theorem raise_sntb (p b : Nat) (d : Die) : (raise p b d).sntb = d.sntb :=
  by obtain ⟨_, _, h⟩ := raise_parts p b d; rw [h]
@[simp] theorem raise_tim (p b : Nat) (d : Die) : (raise p b d).tim = d.tim :=
  by obtain ⟨_, _, h⟩ := raise_parts p b d; rw [h]
@[simp] theorem raise_hst (p b : Nat) (d : Die) : (raise p b d).hst = d.hst :=
  by obtain ⟨_, _, h⟩ := raise_parts p b d; rw [h]
@[simp] theorem raise_ing (p b : Nat) (d : Die) : (raise p b d).ing = d.ing :=
  by obtain ⟨_, _, h⟩ := raise_parts p b d; rw [h]
@[simp] theorem raise_wdn (p b : Nat) (d : Die) : (raise p b d).wdn = d.wdn :=
  by obtain ⟨_, _, h⟩ := raise_parts p b d; rw [h]
@[simp] theorem raise_fcu_src (p b : Nat) (d : Die) : (raise p b d).fcu.src = d.fcu.src :=
  by obtain ⟨_, _, h⟩ := raise_parts p b d; rw [h]
@[simp] theorem raise_fcu_sev (p b : Nat) (d : Die) : (raise p b d).fcu.sev = d.fcu.sev :=
  by obtain ⟨_, _, h⟩ := raise_parts p b d; rw [h]
@[simp] theorem raise_fcu_first (p b : Nat) (d : Die) : (raise p b d).fcu.first = d.fcu.first :=
  by obtain ⟨_, _, h⟩ := raise_parts p b d; rw [h]
@[simp] theorem raise_fcu_second (p b : Nat) (d : Die) : (raise p b d).fcu.second = d.fcu.second :=
  by obtain ⟨_, _, h⟩ := raise_parts p b d; rw [h]
@[simp] theorem raise_fcu_echo (p b : Nat) (d : Die) : (raise p b d).fcu.echo = d.fcu.echo :=
  by obtain ⟨_, _, h⟩ := raise_parts p b d; rw [h]
@[simp] theorem raise_fcu_asserted (p b : Nat) (d : Die) : (raise p b d).fcu.asserted = d.fcu.asserted :=
  by obtain ⟨_, _, h⟩ := raise_parts p b d; rw [h]
@[simp] theorem raise_fcu_alive (p b : Nat) (d : Die) : (raise p b d).fcu.alive = d.fcu.alive :=
  by obtain ⟨_, _, h⟩ := raise_parts p b d; rw [h]
@[simp] theorem raise_fcu_minRun (p b : Nat) (d : Die) : (raise p b d).fcu.minRun = d.fcu.minRun :=
  by obtain ⟨_, _, h⟩ := raise_parts p b d; rw [h]
@[simp] theorem raise_fcu_acked (p b : Nat) (d : Die) : (raise p b d).fcu.acked = d.fcu.acked :=
  by obtain ⟨_, _, h⟩ := raise_parts p b d; rw [h]
@[simp] theorem raise_fcu_stopped (p b : Nat) (d : Die) : (raise p b d).fcu.stopped = d.fcu.stopped :=
  by obtain ⟨_, _, h⟩ := raise_parts p b d; rw [h]
@[simp] theorem raise_fcu_hold (p b : Nat) (d : Die) : (raise p b d).fcu.hold = d.fcu.hold :=
  by obtain ⟨_, _, h⟩ := raise_parts p b d; rw [h]
@[simp] theorem raise_fcu_sysHold (p b : Nat) (d : Die) : (raise p b d).fcu.sysHold = d.fcu.sysHold :=
  by obtain ⟨_, _, h⟩ := raise_parts p b d; rw [h]
@[simp] theorem raise_fcu_entries (p b : Nat) (d : Die) : (raise p b d).fcu.entries = d.fcu.entries :=
  by obtain ⟨_, _, h⟩ := raise_parts p b d; rw [h]
@[simp] theorem raise_fcu_lastSrc (p b : Nat) (d : Die) : (raise p b d).fcu.lastSrc = d.fcu.lastSrc :=
  by obtain ⟨_, _, h⟩ := raise_parts p b d; rw [h]
@[simp] theorem raise_fcu_held (p b : Nat) (d : Die) : (raise p b d).fcu.held = d.fcu.held :=
  by obtain ⟨_, _, h⟩ := raise_parts p b d; rw [h]
@[simp] theorem raise_fcu_entryNs (p b : Nat) (d : Die) : (raise p b d).fcu.entryNs = d.fcu.entryNs :=
  by obtain ⟨_, _, h⟩ := raise_parts p b d; rw [h]
@[simp] theorem raise_fcu_step (p b : Nat) (d : Die) : (raise p b d).fcu.step = d.fcu.step :=
  by obtain ⟨_, _, h⟩ := raise_parts p b d; rw [h]
@[simp] theorem raise_fcu_clkLost (p b : Nat) (d : Die) : (raise p b d).fcu.clkLost = d.fcu.clkLost :=
  by obtain ⟨_, _, h⟩ := raise_parts p b d; rw [h]
@[simp] theorem raise_fcu_parityBad (p b : Nat) (d : Die) : (raise p b d).fcu.parityBad = d.fcu.parityBad :=
  by obtain ⟨_, _, h⟩ := raise_parts p b d; rw [h]
@[simp] theorem raise_fcu_railBad (p b : Nat) (d : Die) : (raise p b d).fcu.railBad = d.fcu.railBad :=
  by obtain ⟨_, _, h⟩ := raise_parts p b d; rw [h]
@[simp] theorem raise_fcu_stalled (p b : Nat) (d : Die) : (raise p b d).fcu.stalled = d.fcu.stalled :=
  by obtain ⟨_, _, h⟩ := raise_parts p b d; rw [h]
@[simp] theorem raise_fcu_sysclkOk (p b : Nat) (d : Die) : (raise p b d).fcu.sysclkOk = d.fcu.sysclkOk :=
  by obtain ⟨_, _, h⟩ := raise_parts p b d; rw [h]
@[simp] theorem raise_fcu_tj (p b : Nat) (d : Die) : (raise p b d).fcu.tj = d.fcu.tj :=
  by obtain ⟨_, _, h⟩ := raise_parts p b d; rw [h]
@[simp] theorem raise_fcu_tjPeak (p b : Nat) (d : Die) : (raise p b d).fcu.tjPeak = d.fcu.tjPeak :=
  by obtain ⟨_, _, h⟩ := raise_parts p b d; rw [h]
@[simp] theorem raise_mem (p b : Nat) (d : Die) : (raise p b d).mem = d.mem :=
  by obtain ⟨_, _, h⟩ := raise_parts p b d; rw [h]
@[simp] theorem raise_key (p b : Nat) (d : Die) : (raise p b d).key = d.key :=
  by obtain ⟨_, _, h⟩ := raise_parts p b d; rw [h]
@[simp] theorem raise_pel (p b : Nat) (d : Die) : (raise p b d).pel = d.pel :=
  by obtain ⟨_, _, h⟩ := raise_parts p b d; rw [h]
@[simp] theorem raise_descs (p b : Nat) (d : Die) : (raise p b d).descs = d.descs :=
  by obtain ⟨_, _, h⟩ := raise_parts p b d; rw [h]
@[simp] theorem raise_freeCtr (p b : Nat) (d : Die) : (raise p b d).freeCtr = d.freeCtr :=
  by obtain ⟨_, _, h⟩ := raise_parts p b d; rw [h]
@[simp] theorem raise_out (p b : Nat) (d : Die) : (raise p b d).out = d.out :=
  by obtain ⟨_, _, h⟩ := raise_parts p b d; rw [h]

/-! ## sendRaw -/

@[simp] theorem sendRaw_which (k : Nat) (b : Bytes) (d : Die) : (sendRaw k b d).which = d.which :=
  by obtain ⟨_, _, _, _, _, h⟩ := sendRaw_parts k b d; rw [h]
@[simp] theorem sendRaw_phase (k : Nat) (b : Bytes) (d : Die) : (sendRaw k b d).phase = d.phase :=
  by obtain ⟨_, _, _, _, _, h⟩ := sendRaw_parts k b d; rw [h]
@[simp] theorem sendRaw_phaseSlot (k : Nat) (b : Bytes) (d : Die) : (sendRaw k b d).phaseSlot = d.phaseSlot :=
  by obtain ⟨_, _, _, _, _, h⟩ := sendRaw_parts k b d; rw [h]
@[simp] theorem sendRaw_regs_live (k : Nat) (b : Bytes) (d : Die) : (sendRaw k b d).regs.live = d.regs.live :=
  by obtain ⟨_, _, _, _, _, h⟩ := sendRaw_parts k b d; rw [h]
@[simp] theorem sendRaw_regs_staged (k : Nat) (b : Bytes) (d : Die) : (sendRaw k b d).regs.staged = d.regs.staged :=
  by obtain ⟨_, _, _, _, _, h⟩ := sendRaw_parts k b d; rw [h]
@[simp] theorem sendRaw_regs_late (k : Nat) (b : Bytes) (d : Die) : (sendRaw k b d).regs.late = d.regs.late :=
  by obtain ⟨_, _, _, _, _, h⟩ := sendRaw_parts k b d; rw [h]
@[simp] theorem sendRaw_regs_held (k : Nat) (b : Bytes) (d : Die) : (sendRaw k b d).regs.held = d.regs.held :=
  by obtain ⟨_, _, _, _, _, h⟩ := sendRaw_parts k b d; rw [h]
@[simp] theorem sendRaw_regs_cap (k : Nat) (b : Bytes) (d : Die) : (sendRaw k b d).regs.cap = d.regs.cap :=
  by obtain ⟨_, _, _, _, _, h⟩ := sendRaw_parts k b d; rw [h]
@[simp] theorem sendRaw_regs_enabled (k : Nat) (b : Bytes) (d : Die) : (sendRaw k b d).regs.enabled = d.regs.enabled :=
  by obtain ⟨_, _, _, _, _, h⟩ := sendRaw_parts k b d; rw [h]
@[simp] theorem sendRaw_wlk (k : Nat) (b : Bytes) (d : Die) : (sendRaw k b d).wlk = d.wlk :=
  by obtain ⟨_, _, _, _, _, h⟩ := sendRaw_parts k b d; rw [h]
@[simp] theorem sendRaw_wrd (k : Nat) (b : Bytes) (d : Die) : (sendRaw k b d).wrd = d.wrd :=
  by obtain ⟨_, _, _, _, _, h⟩ := sendRaw_parts k b d; rw [h]
@[simp] theorem sendRaw_chn (k : Nat) (b : Bytes) (d : Die) : (sendRaw k b d).chn = d.chn :=
  by obtain ⟨_, _, _, _, _, h⟩ := sendRaw_parts k b d; rw [h]
@[simp] theorem sendRaw_rat (k : Nat) (b : Bytes) (d : Die) : (sendRaw k b d).rat = d.rat :=
  by obtain ⟨_, _, _, _, _, h⟩ := sendRaw_parts k b d; rw [h]
@[simp] theorem sendRaw_adm (k : Nat) (b : Bytes) (d : Die) : (sendRaw k b d).adm = d.adm :=
  by obtain ⟨_, _, _, _, _, h⟩ := sendRaw_parts k b d; rw [h]
@[simp] theorem sendRaw_cad (k : Nat) (b : Bytes) (d : Die) : (sendRaw k b d).cad = d.cad :=
  by obtain ⟨_, _, _, _, _, h⟩ := sendRaw_parts k b d; rw [h]
@[simp] theorem sendRaw_sealing (k : Nat) (b : Bytes) (d : Die) : (sendRaw k b d).sealing = d.sealing :=
  by obtain ⟨_, _, _, _, _, h⟩ := sendRaw_parts k b d; rw [h]
@[simp] theorem sendRaw_res (k : Nat) (b : Bytes) (d : Die) : (sendRaw k b d).res = d.res :=
  by obtain ⟨_, _, _, _, _, h⟩ := sendRaw_parts k b d; rw [h]
@[simp] theorem sendRaw_bnd (k : Nat) (b : Bytes) (d : Die) : (sendRaw k b d).bnd = d.bnd :=
  by obtain ⟨_, _, _, _, _, h⟩ := sendRaw_parts k b d; rw [h]
@[simp] theorem sendRaw_nle (k : Nat) (b : Bytes) (d : Die) : (sendRaw k b d).nle = d.nle :=
  by obtain ⟨_, _, _, _, _, h⟩ := sendRaw_parts k b d; rw [h]
@[simp] theorem sendRaw_cwe (k : Nat) (b : Bytes) (d : Die) : (sendRaw k b d).cwe = d.cwe :=
  by obtain ⟨_, _, _, _, _, h⟩ := sendRaw_parts k b d; rw [h]
@[simp] theorem sendRaw_snt (k : Nat) (b : Bytes) (d : Die) : (sendRaw k b d).snt = d.snt :=
  by obtain ⟨_, _, _, _, _, h⟩ := sendRaw_parts k b d; rw [h]
@[simp] theorem sendRaw_shk (k : Nat) (b : Bytes) (d : Die) : (sendRaw k b d).shk = d.shk :=
  by obtain ⟨_, _, _, _, _, h⟩ := sendRaw_parts k b d; rw [h]
@[simp] theorem sendRaw_sig (k : Nat) (b : Bytes) (d : Die) : (sendRaw k b d).sig = d.sig :=
  by obtain ⟨_, _, _, _, _, h⟩ := sendRaw_parts k b d; rw [h]
@[simp] theorem sendRaw_vp (k : Nat) (b : Bytes) (d : Die) : (sendRaw k b d).vp = d.vp :=
  by obtain ⟨_, _, _, _, _, h⟩ := sendRaw_parts k b d; rw [h]
@[simp] theorem sendRaw_spk (k : Nat) (b : Bytes) (d : Die) : (sendRaw k b d).spk = d.spk :=
  by obtain ⟨_, _, _, _, _, h⟩ := sendRaw_parts k b d; rw [h]
@[simp] theorem sendRaw_dbg (k : Nat) (b : Bytes) (d : Die) : (sendRaw k b d).dbg = d.dbg :=
  by obtain ⟨_, _, _, _, _, h⟩ := sendRaw_parts k b d; rw [h]
@[simp] theorem sendRaw_sntb (k : Nat) (b : Bytes) (d : Die) : (sendRaw k b d).sntb = d.sntb :=
  by obtain ⟨_, _, _, _, _, h⟩ := sendRaw_parts k b d; rw [h]
@[simp] theorem sendRaw_tim (k : Nat) (b : Bytes) (d : Die) : (sendRaw k b d).tim = d.tim :=
  by obtain ⟨_, _, _, _, _, h⟩ := sendRaw_parts k b d; rw [h]
@[simp] theorem sendRaw_ing (k : Nat) (b : Bytes) (d : Die) : (sendRaw k b d).ing = d.ing :=
  by obtain ⟨_, _, _, _, _, h⟩ := sendRaw_parts k b d; rw [h]
@[simp] theorem sendRaw_wdn (k : Nat) (b : Bytes) (d : Die) : (sendRaw k b d).wdn = d.wdn :=
  by obtain ⟨_, _, _, _, _, h⟩ := sendRaw_parts k b d; rw [h]
@[simp] theorem sendRaw_fcu_src (k : Nat) (b : Bytes) (d : Die) : (sendRaw k b d).fcu.src = d.fcu.src :=
  by obtain ⟨_, _, _, _, _, h⟩ := sendRaw_parts k b d; rw [h]
@[simp] theorem sendRaw_fcu_sev (k : Nat) (b : Bytes) (d : Die) : (sendRaw k b d).fcu.sev = d.fcu.sev :=
  by obtain ⟨_, _, _, _, _, h⟩ := sendRaw_parts k b d; rw [h]
@[simp] theorem sendRaw_fcu_first (k : Nat) (b : Bytes) (d : Die) : (sendRaw k b d).fcu.first = d.fcu.first :=
  by obtain ⟨_, _, _, _, _, h⟩ := sendRaw_parts k b d; rw [h]
@[simp] theorem sendRaw_fcu_second (k : Nat) (b : Bytes) (d : Die) : (sendRaw k b d).fcu.second = d.fcu.second :=
  by obtain ⟨_, _, _, _, _, h⟩ := sendRaw_parts k b d; rw [h]
@[simp] theorem sendRaw_fcu_echo (k : Nat) (b : Bytes) (d : Die) : (sendRaw k b d).fcu.echo = d.fcu.echo :=
  by obtain ⟨_, _, _, _, _, h⟩ := sendRaw_parts k b d; rw [h]
@[simp] theorem sendRaw_fcu_asserted (k : Nat) (b : Bytes) (d : Die) : (sendRaw k b d).fcu.asserted = d.fcu.asserted :=
  by obtain ⟨_, _, _, _, _, h⟩ := sendRaw_parts k b d; rw [h]
@[simp] theorem sendRaw_fcu_alive (k : Nat) (b : Bytes) (d : Die) : (sendRaw k b d).fcu.alive = d.fcu.alive :=
  by obtain ⟨_, _, _, _, _, h⟩ := sendRaw_parts k b d; rw [h]
@[simp] theorem sendRaw_fcu_minRun (k : Nat) (b : Bytes) (d : Die) : (sendRaw k b d).fcu.minRun = d.fcu.minRun :=
  by obtain ⟨_, _, _, _, _, h⟩ := sendRaw_parts k b d; rw [h]
@[simp] theorem sendRaw_fcu_acked (k : Nat) (b : Bytes) (d : Die) : (sendRaw k b d).fcu.acked = d.fcu.acked :=
  by obtain ⟨_, _, _, _, _, h⟩ := sendRaw_parts k b d; rw [h]
@[simp] theorem sendRaw_fcu_stopped (k : Nat) (b : Bytes) (d : Die) : (sendRaw k b d).fcu.stopped = d.fcu.stopped :=
  by obtain ⟨_, _, _, _, _, h⟩ := sendRaw_parts k b d; rw [h]
@[simp] theorem sendRaw_fcu_hold (k : Nat) (b : Bytes) (d : Die) : (sendRaw k b d).fcu.hold = d.fcu.hold :=
  by obtain ⟨_, _, _, _, _, h⟩ := sendRaw_parts k b d; rw [h]
@[simp] theorem sendRaw_fcu_sysHold (k : Nat) (b : Bytes) (d : Die) : (sendRaw k b d).fcu.sysHold = d.fcu.sysHold :=
  by obtain ⟨_, _, _, _, _, h⟩ := sendRaw_parts k b d; rw [h]
@[simp] theorem sendRaw_fcu_entries (k : Nat) (b : Bytes) (d : Die) : (sendRaw k b d).fcu.entries = d.fcu.entries :=
  by obtain ⟨_, _, _, _, _, h⟩ := sendRaw_parts k b d; rw [h]
@[simp] theorem sendRaw_fcu_lastSrc (k : Nat) (b : Bytes) (d : Die) : (sendRaw k b d).fcu.lastSrc = d.fcu.lastSrc :=
  by obtain ⟨_, _, _, _, _, h⟩ := sendRaw_parts k b d; rw [h]
@[simp] theorem sendRaw_fcu_held (k : Nat) (b : Bytes) (d : Die) : (sendRaw k b d).fcu.held = d.fcu.held :=
  by obtain ⟨_, _, _, _, _, h⟩ := sendRaw_parts k b d; rw [h]
@[simp] theorem sendRaw_fcu_entryNs (k : Nat) (b : Bytes) (d : Die) : (sendRaw k b d).fcu.entryNs = d.fcu.entryNs :=
  by obtain ⟨_, _, _, _, _, h⟩ := sendRaw_parts k b d; rw [h]
@[simp] theorem sendRaw_fcu_step (k : Nat) (b : Bytes) (d : Die) : (sendRaw k b d).fcu.step = d.fcu.step :=
  by obtain ⟨_, _, _, _, _, h⟩ := sendRaw_parts k b d; rw [h]
@[simp] theorem sendRaw_fcu_clkLost (k : Nat) (b : Bytes) (d : Die) : (sendRaw k b d).fcu.clkLost = d.fcu.clkLost :=
  by obtain ⟨_, _, _, _, _, h⟩ := sendRaw_parts k b d; rw [h]
@[simp] theorem sendRaw_fcu_parityBad (k : Nat) (b : Bytes) (d : Die) :
    (sendRaw k b d).fcu.parityBad = d.fcu.parityBad :=
  by obtain ⟨_, _, _, _, _, h⟩ := sendRaw_parts k b d; rw [h]
@[simp] theorem sendRaw_fcu_railBad (k : Nat) (b : Bytes) (d : Die) : (sendRaw k b d).fcu.railBad = d.fcu.railBad :=
  by obtain ⟨_, _, _, _, _, h⟩ := sendRaw_parts k b d; rw [h]
@[simp] theorem sendRaw_fcu_stalled (k : Nat) (b : Bytes) (d : Die) : (sendRaw k b d).fcu.stalled = d.fcu.stalled :=
  by obtain ⟨_, _, _, _, _, h⟩ := sendRaw_parts k b d; rw [h]
@[simp] theorem sendRaw_fcu_sysclkOk (k : Nat) (b : Bytes) (d : Die) : (sendRaw k b d).fcu.sysclkOk = d.fcu.sysclkOk :=
  by obtain ⟨_, _, _, _, _, h⟩ := sendRaw_parts k b d; rw [h]
@[simp] theorem sendRaw_fcu_tj (k : Nat) (b : Bytes) (d : Die) : (sendRaw k b d).fcu.tj = d.fcu.tj :=
  by obtain ⟨_, _, _, _, _, h⟩ := sendRaw_parts k b d; rw [h]
@[simp] theorem sendRaw_fcu_tjPeak (k : Nat) (b : Bytes) (d : Die) : (sendRaw k b d).fcu.tjPeak = d.fcu.tjPeak :=
  by obtain ⟨_, _, _, _, _, h⟩ := sendRaw_parts k b d; rw [h]
@[simp] theorem sendRaw_mem (k : Nat) (b : Bytes) (d : Die) : (sendRaw k b d).mem = d.mem :=
  by obtain ⟨_, _, _, _, _, h⟩ := sendRaw_parts k b d; rw [h]
@[simp] theorem sendRaw_key (k : Nat) (b : Bytes) (d : Die) : (sendRaw k b d).key = d.key :=
  by obtain ⟨_, _, _, _, _, h⟩ := sendRaw_parts k b d; rw [h]
@[simp] theorem sendRaw_pel (k : Nat) (b : Bytes) (d : Die) : (sendRaw k b d).pel = d.pel :=
  by obtain ⟨_, _, _, _, _, h⟩ := sendRaw_parts k b d; rw [h]
@[simp] theorem sendRaw_descs (k : Nat) (b : Bytes) (d : Die) : (sendRaw k b d).descs = d.descs :=
  by obtain ⟨_, _, _, _, _, h⟩ := sendRaw_parts k b d; rw [h]
@[simp] theorem sendRaw_freeCtr (k : Nat) (b : Bytes) (d : Die) : (sendRaw k b d).freeCtr = d.freeCtr :=
  by obtain ⟨_, _, _, _, _, h⟩ := sendRaw_parts k b d; rw [h]

/-! ## sendFrame -/

@[simp] theorem sendFrame_which (i t s g r n : Nat) (b : Bytes) (d : Die) :
    (sendFrame i t s g r n b d).which = d.which :=
  by obtain ⟨_, _, _, _, _, _, h⟩ := sendFrame_parts i t s g r n b d; rw [h]
@[simp] theorem sendFrame_phase (i t s g r n : Nat) (b : Bytes) (d : Die) :
    (sendFrame i t s g r n b d).phase = d.phase :=
  by obtain ⟨_, _, _, _, _, _, h⟩ := sendFrame_parts i t s g r n b d; rw [h]
@[simp] theorem sendFrame_phaseSlot (i t s g r n : Nat) (b : Bytes) (d : Die) :
    (sendFrame i t s g r n b d).phaseSlot = d.phaseSlot :=
  by obtain ⟨_, _, _, _, _, _, h⟩ := sendFrame_parts i t s g r n b d; rw [h]
@[simp] theorem sendFrame_regs_live (i t s g r n : Nat) (b : Bytes) (d : Die) :
    (sendFrame i t s g r n b d).regs.live = d.regs.live :=
  by obtain ⟨_, _, _, _, _, _, h⟩ := sendFrame_parts i t s g r n b d; rw [h]
@[simp] theorem sendFrame_regs_staged (i t s g r n : Nat) (b : Bytes) (d : Die) :
    (sendFrame i t s g r n b d).regs.staged = d.regs.staged :=
  by obtain ⟨_, _, _, _, _, _, h⟩ := sendFrame_parts i t s g r n b d; rw [h]
@[simp] theorem sendFrame_regs_late (i t s g r n : Nat) (b : Bytes) (d : Die) :
    (sendFrame i t s g r n b d).regs.late = d.regs.late :=
  by obtain ⟨_, _, _, _, _, _, h⟩ := sendFrame_parts i t s g r n b d; rw [h]
@[simp] theorem sendFrame_regs_held (i t s g r n : Nat) (b : Bytes) (d : Die) :
    (sendFrame i t s g r n b d).regs.held = d.regs.held :=
  by obtain ⟨_, _, _, _, _, _, h⟩ := sendFrame_parts i t s g r n b d; rw [h]
@[simp] theorem sendFrame_regs_cap (i t s g r n : Nat) (b : Bytes) (d : Die) :
    (sendFrame i t s g r n b d).regs.cap = d.regs.cap :=
  by obtain ⟨_, _, _, _, _, _, h⟩ := sendFrame_parts i t s g r n b d; rw [h]
@[simp] theorem sendFrame_regs_enabled (i t s g r n : Nat) (b : Bytes) (d : Die) :
    (sendFrame i t s g r n b d).regs.enabled = d.regs.enabled :=
  by obtain ⟨_, _, _, _, _, _, h⟩ := sendFrame_parts i t s g r n b d; rw [h]
@[simp] theorem sendFrame_wlk (i t s g r n : Nat) (b : Bytes) (d : Die) : (sendFrame i t s g r n b d).wlk = d.wlk :=
  by obtain ⟨_, _, _, _, _, _, h⟩ := sendFrame_parts i t s g r n b d; rw [h]
@[simp] theorem sendFrame_wrd (i t s g r n : Nat) (b : Bytes) (d : Die) : (sendFrame i t s g r n b d).wrd = d.wrd :=
  by obtain ⟨_, _, _, _, _, _, h⟩ := sendFrame_parts i t s g r n b d; rw [h]
@[simp] theorem sendFrame_chn (i t s g r n : Nat) (b : Bytes) (d : Die) : (sendFrame i t s g r n b d).chn = d.chn :=
  by obtain ⟨_, _, _, _, _, _, h⟩ := sendFrame_parts i t s g r n b d; rw [h]
@[simp] theorem sendFrame_rat (i t s g r n : Nat) (b : Bytes) (d : Die) : (sendFrame i t s g r n b d).rat = d.rat :=
  by obtain ⟨_, _, _, _, _, _, h⟩ := sendFrame_parts i t s g r n b d; rw [h]
@[simp] theorem sendFrame_adm (i t s g r n : Nat) (b : Bytes) (d : Die) : (sendFrame i t s g r n b d).adm = d.adm :=
  by obtain ⟨_, _, _, _, _, _, h⟩ := sendFrame_parts i t s g r n b d; rw [h]
@[simp] theorem sendFrame_cad (i t s g r n : Nat) (b : Bytes) (d : Die) : (sendFrame i t s g r n b d).cad = d.cad :=
  by obtain ⟨_, _, _, _, _, _, h⟩ := sendFrame_parts i t s g r n b d; rw [h]
@[simp] theorem sendFrame_sealing (i t s g r n : Nat) (b : Bytes) (d : Die) :
    (sendFrame i t s g r n b d).sealing = d.sealing :=
  by obtain ⟨_, _, _, _, _, _, h⟩ := sendFrame_parts i t s g r n b d; rw [h]
@[simp] theorem sendFrame_res (i t s g r n : Nat) (b : Bytes) (d : Die) : (sendFrame i t s g r n b d).res = d.res :=
  by obtain ⟨_, _, _, _, _, _, h⟩ := sendFrame_parts i t s g r n b d; rw [h]
@[simp] theorem sendFrame_bnd (i t s g r n : Nat) (b : Bytes) (d : Die) : (sendFrame i t s g r n b d).bnd = d.bnd :=
  by obtain ⟨_, _, _, _, _, _, h⟩ := sendFrame_parts i t s g r n b d; rw [h]
@[simp] theorem sendFrame_nle (i t s g r n : Nat) (b : Bytes) (d : Die) : (sendFrame i t s g r n b d).nle = d.nle :=
  by obtain ⟨_, _, _, _, _, _, h⟩ := sendFrame_parts i t s g r n b d; rw [h]
@[simp] theorem sendFrame_cwe (i t s g r n : Nat) (b : Bytes) (d : Die) : (sendFrame i t s g r n b d).cwe = d.cwe :=
  by obtain ⟨_, _, _, _, _, _, h⟩ := sendFrame_parts i t s g r n b d; rw [h]
@[simp] theorem sendFrame_snt (i t s g r n : Nat) (b : Bytes) (d : Die) : (sendFrame i t s g r n b d).snt = d.snt :=
  by obtain ⟨_, _, _, _, _, _, h⟩ := sendFrame_parts i t s g r n b d; rw [h]
@[simp] theorem sendFrame_shk (i t s g r n : Nat) (b : Bytes) (d : Die) : (sendFrame i t s g r n b d).shk = d.shk :=
  by obtain ⟨_, _, _, _, _, _, h⟩ := sendFrame_parts i t s g r n b d; rw [h]
@[simp] theorem sendFrame_sig (i t s g r n : Nat) (b : Bytes) (d : Die) : (sendFrame i t s g r n b d).sig = d.sig :=
  by obtain ⟨_, _, _, _, _, _, h⟩ := sendFrame_parts i t s g r n b d; rw [h]
@[simp] theorem sendFrame_vp (i t s g r n : Nat) (b : Bytes) (d : Die) : (sendFrame i t s g r n b d).vp = d.vp :=
  by obtain ⟨_, _, _, _, _, _, h⟩ := sendFrame_parts i t s g r n b d; rw [h]
@[simp] theorem sendFrame_spk (i t s g r n : Nat) (b : Bytes) (d : Die) : (sendFrame i t s g r n b d).spk = d.spk :=
  by obtain ⟨_, _, _, _, _, _, h⟩ := sendFrame_parts i t s g r n b d; rw [h]
@[simp] theorem sendFrame_dbg (i t s g r n : Nat) (b : Bytes) (d : Die) : (sendFrame i t s g r n b d).dbg = d.dbg :=
  by obtain ⟨_, _, _, _, _, _, h⟩ := sendFrame_parts i t s g r n b d; rw [h]
@[simp] theorem sendFrame_sntb (i t s g r n : Nat) (b : Bytes) (d : Die) : (sendFrame i t s g r n b d).sntb = d.sntb :=
  by obtain ⟨_, _, _, _, _, _, h⟩ := sendFrame_parts i t s g r n b d; rw [h]
@[simp] theorem sendFrame_tim (i t s g r n : Nat) (b : Bytes) (d : Die) : (sendFrame i t s g r n b d).tim = d.tim :=
  by obtain ⟨_, _, _, _, _, _, h⟩ := sendFrame_parts i t s g r n b d; rw [h]
@[simp] theorem sendFrame_ing (i t s g r n : Nat) (b : Bytes) (d : Die) : (sendFrame i t s g r n b d).ing = d.ing :=
  by obtain ⟨_, _, _, _, _, _, h⟩ := sendFrame_parts i t s g r n b d; rw [h]
@[simp] theorem sendFrame_wdn (i t s g r n : Nat) (b : Bytes) (d : Die) : (sendFrame i t s g r n b d).wdn = d.wdn :=
  by obtain ⟨_, _, _, _, _, _, h⟩ := sendFrame_parts i t s g r n b d; rw [h]
@[simp] theorem sendFrame_fcu_src (i t s g r n : Nat) (b : Bytes) (d : Die) :
    (sendFrame i t s g r n b d).fcu.src = d.fcu.src :=
  by obtain ⟨_, _, _, _, _, _, h⟩ := sendFrame_parts i t s g r n b d; rw [h]
@[simp] theorem sendFrame_fcu_sev (i t s g r n : Nat) (b : Bytes) (d : Die) :
    (sendFrame i t s g r n b d).fcu.sev = d.fcu.sev :=
  by obtain ⟨_, _, _, _, _, _, h⟩ := sendFrame_parts i t s g r n b d; rw [h]
@[simp] theorem sendFrame_fcu_first (i t s g r n : Nat) (b : Bytes) (d : Die) :
    (sendFrame i t s g r n b d).fcu.first = d.fcu.first :=
  by obtain ⟨_, _, _, _, _, _, h⟩ := sendFrame_parts i t s g r n b d; rw [h]
@[simp] theorem sendFrame_fcu_second (i t s g r n : Nat) (b : Bytes) (d : Die) :
    (sendFrame i t s g r n b d).fcu.second = d.fcu.second :=
  by obtain ⟨_, _, _, _, _, _, h⟩ := sendFrame_parts i t s g r n b d; rw [h]
@[simp] theorem sendFrame_fcu_echo (i t s g r n : Nat) (b : Bytes) (d : Die) :
    (sendFrame i t s g r n b d).fcu.echo = d.fcu.echo :=
  by obtain ⟨_, _, _, _, _, _, h⟩ := sendFrame_parts i t s g r n b d; rw [h]
@[simp] theorem sendFrame_fcu_asserted (i t s g r n : Nat) (b : Bytes) (d : Die) :
    (sendFrame i t s g r n b d).fcu.asserted = d.fcu.asserted :=
  by obtain ⟨_, _, _, _, _, _, h⟩ := sendFrame_parts i t s g r n b d; rw [h]
@[simp] theorem sendFrame_fcu_alive (i t s g r n : Nat) (b : Bytes) (d : Die) :
    (sendFrame i t s g r n b d).fcu.alive = d.fcu.alive :=
  by obtain ⟨_, _, _, _, _, _, h⟩ := sendFrame_parts i t s g r n b d; rw [h]
@[simp] theorem sendFrame_fcu_minRun (i t s g r n : Nat) (b : Bytes) (d : Die) :
    (sendFrame i t s g r n b d).fcu.minRun = d.fcu.minRun :=
  by obtain ⟨_, _, _, _, _, _, h⟩ := sendFrame_parts i t s g r n b d; rw [h]
@[simp] theorem sendFrame_fcu_acked (i t s g r n : Nat) (b : Bytes) (d : Die) :
    (sendFrame i t s g r n b d).fcu.acked = d.fcu.acked :=
  by obtain ⟨_, _, _, _, _, _, h⟩ := sendFrame_parts i t s g r n b d; rw [h]
@[simp] theorem sendFrame_fcu_stopped (i t s g r n : Nat) (b : Bytes) (d : Die) :
    (sendFrame i t s g r n b d).fcu.stopped = d.fcu.stopped :=
  by obtain ⟨_, _, _, _, _, _, h⟩ := sendFrame_parts i t s g r n b d; rw [h]
@[simp] theorem sendFrame_fcu_hold (i t s g r n : Nat) (b : Bytes) (d : Die) :
    (sendFrame i t s g r n b d).fcu.hold = d.fcu.hold :=
  by obtain ⟨_, _, _, _, _, _, h⟩ := sendFrame_parts i t s g r n b d; rw [h]
@[simp] theorem sendFrame_fcu_sysHold (i t s g r n : Nat) (b : Bytes) (d : Die) :
    (sendFrame i t s g r n b d).fcu.sysHold = d.fcu.sysHold :=
  by obtain ⟨_, _, _, _, _, _, h⟩ := sendFrame_parts i t s g r n b d; rw [h]
@[simp] theorem sendFrame_fcu_entries (i t s g r n : Nat) (b : Bytes) (d : Die) :
    (sendFrame i t s g r n b d).fcu.entries = d.fcu.entries :=
  by obtain ⟨_, _, _, _, _, _, h⟩ := sendFrame_parts i t s g r n b d; rw [h]
@[simp] theorem sendFrame_fcu_lastSrc (i t s g r n : Nat) (b : Bytes) (d : Die) :
    (sendFrame i t s g r n b d).fcu.lastSrc = d.fcu.lastSrc :=
  by obtain ⟨_, _, _, _, _, _, h⟩ := sendFrame_parts i t s g r n b d; rw [h]
@[simp] theorem sendFrame_fcu_held (i t s g r n : Nat) (b : Bytes) (d : Die) :
    (sendFrame i t s g r n b d).fcu.held = d.fcu.held :=
  by obtain ⟨_, _, _, _, _, _, h⟩ := sendFrame_parts i t s g r n b d; rw [h]
@[simp] theorem sendFrame_fcu_entryNs (i t s g r n : Nat) (b : Bytes) (d : Die) :
    (sendFrame i t s g r n b d).fcu.entryNs = d.fcu.entryNs :=
  by obtain ⟨_, _, _, _, _, _, h⟩ := sendFrame_parts i t s g r n b d; rw [h]
@[simp] theorem sendFrame_fcu_step (i t s g r n : Nat) (b : Bytes) (d : Die) :
    (sendFrame i t s g r n b d).fcu.step = d.fcu.step :=
  by obtain ⟨_, _, _, _, _, _, h⟩ := sendFrame_parts i t s g r n b d; rw [h]
@[simp] theorem sendFrame_fcu_clkLost (i t s g r n : Nat) (b : Bytes) (d : Die) :
    (sendFrame i t s g r n b d).fcu.clkLost = d.fcu.clkLost :=
  by obtain ⟨_, _, _, _, _, _, h⟩ := sendFrame_parts i t s g r n b d; rw [h]
@[simp] theorem sendFrame_fcu_parityBad (i t s g r n : Nat) (b : Bytes) (d : Die) :
    (sendFrame i t s g r n b d).fcu.parityBad = d.fcu.parityBad :=
  by obtain ⟨_, _, _, _, _, _, h⟩ := sendFrame_parts i t s g r n b d; rw [h]
@[simp] theorem sendFrame_fcu_railBad (i t s g r n : Nat) (b : Bytes) (d : Die) :
    (sendFrame i t s g r n b d).fcu.railBad = d.fcu.railBad :=
  by obtain ⟨_, _, _, _, _, _, h⟩ := sendFrame_parts i t s g r n b d; rw [h]
@[simp] theorem sendFrame_fcu_stalled (i t s g r n : Nat) (b : Bytes) (d : Die) :
    (sendFrame i t s g r n b d).fcu.stalled = d.fcu.stalled :=
  by obtain ⟨_, _, _, _, _, _, h⟩ := sendFrame_parts i t s g r n b d; rw [h]
@[simp] theorem sendFrame_fcu_sysclkOk (i t s g r n : Nat) (b : Bytes) (d : Die) :
    (sendFrame i t s g r n b d).fcu.sysclkOk = d.fcu.sysclkOk :=
  by obtain ⟨_, _, _, _, _, _, h⟩ := sendFrame_parts i t s g r n b d; rw [h]
@[simp] theorem sendFrame_fcu_tj (i t s g r n : Nat) (b : Bytes) (d : Die) :
    (sendFrame i t s g r n b d).fcu.tj = d.fcu.tj :=
  by obtain ⟨_, _, _, _, _, _, h⟩ := sendFrame_parts i t s g r n b d; rw [h]
@[simp] theorem sendFrame_fcu_tjPeak (i t s g r n : Nat) (b : Bytes) (d : Die) :
    (sendFrame i t s g r n b d).fcu.tjPeak = d.fcu.tjPeak :=
  by obtain ⟨_, _, _, _, _, _, h⟩ := sendFrame_parts i t s g r n b d; rw [h]
@[simp] theorem sendFrame_mem (i t s g r n : Nat) (b : Bytes) (d : Die) : (sendFrame i t s g r n b d).mem = d.mem :=
  by obtain ⟨_, _, _, _, _, _, h⟩ := sendFrame_parts i t s g r n b d; rw [h]
@[simp] theorem sendFrame_key_seed (i t s g r n : Nat) (b : Bytes) (d : Die) :
    (sendFrame i t s g r n b d).key.seed = d.key.seed :=
  by obtain ⟨_, _, _, _, _, _, h⟩ := sendFrame_parts i t s g r n b d; rw [h]
@[simp] theorem sendFrame_key_idSecret (i t s g r n : Nat) (b : Bytes) (d : Die) :
    (sendFrame i t s g r n b d).key.idSecret = d.key.idSecret :=
  by obtain ⟨_, _, _, _, _, _, h⟩ := sendFrame_parts i t s g r n b d; rw [h]
@[simp] theorem sendFrame_key_idPublic (i t s g r n : Nat) (b : Bytes) (d : Die) :
    (sendFrame i t s g r n b d).key.idPublic = d.key.idPublic :=
  by obtain ⟨_, _, _, _, _, _, h⟩ := sendFrame_parts i t s g r n b d; rw [h]
@[simp] theorem sendFrame_key_device (i t s g r n : Nat) (b : Bytes) (d : Die) :
    (sendFrame i t s g r n b d).key.device = d.key.device :=
  by obtain ⟨_, _, _, _, _, _, h⟩ := sendFrame_parts i t s g r n b d; rw [h]
@[simp] theorem sendFrame_key_rpmb (i t s g r n : Nat) (b : Bytes) (d : Die) :
    (sendFrame i t s g r n b d).key.rpmb = d.key.rpmb :=
  by obtain ⟨_, _, _, _, _, _, h⟩ := sendFrame_parts i t s g r n b d; rw [h]
@[simp] theorem sendFrame_key_bind (i t s g r n : Nat) (b : Bytes) (d : Die) :
    (sendFrame i t s g r n b d).key.bind = d.key.bind :=
  by obtain ⟨_, _, _, _, _, _, h⟩ := sendFrame_parts i t s g r n b d; rw [h]
@[simp] theorem sendFrame_key_fwVersion (i t s g r n : Nat) (b : Bytes) (d : Die) :
    (sendFrame i t s g r n b d).key.fwVersion = d.key.fwVersion :=
  by obtain ⟨_, _, _, _, _, _, h⟩ := sendFrame_parts i t s g r n b d; rw [h]
@[simp] theorem sendFrame_key_fwSlot (i t s g r n : Nat) (b : Bytes) (d : Die) :
    (sendFrame i t s g r n b d).key.fwSlot = d.key.fwSlot :=
  by obtain ⟨_, _, _, _, _, _, h⟩ := sendFrame_parts i t s g r n b d; rw [h]
@[simp] theorem sendFrame_key_fwSvn (i t s g r n : Nat) (b : Bytes) (d : Die) :
    (sendFrame i t s g r n b d).key.fwSvn = d.key.fwSvn :=
  by obtain ⟨_, _, _, _, _, _, h⟩ := sendFrame_parts i t s g r n b d; rw [h]
@[simp] theorem sendFrame_key_mapPayload (i t s g r n : Nat) (b : Bytes) (d : Die) :
    (sendFrame i t s g r n b d).key.mapPayload = d.key.mapPayload :=
  by obtain ⟨_, _, _, _, _, _, h⟩ := sendFrame_parts i t s g r n b d; rw [h]
@[simp] theorem sendFrame_key_mapDigest (i t s g r n : Nat) (b : Bytes) (d : Die) :
    (sendFrame i t s g r n b d).key.mapDigest = d.key.mapDigest :=
  by obtain ⟨_, _, _, _, _, _, h⟩ := sendFrame_parts i t s g r n b d; rw [h]
@[simp] theorem sendFrame_key_ext (i t s g r n : Nat) (b : Bytes) (d : Die) :
    (sendFrame i t s g r n b d).key.ext = d.key.ext :=
  by obtain ⟨_, _, _, _, _, _, h⟩ := sendFrame_parts i t s g r n b d; rw [h]
@[simp] theorem sendFrame_key_grade (i t s g r n : Nat) (b : Bytes) (d : Die) :
    (sendFrame i t s g r n b d).key.grade = d.key.grade :=
  by obtain ⟨_, _, _, _, _, _, h⟩ := sendFrame_parts i t s g r n b d; rw [h]
@[simp] theorem sendFrame_key_pipes (i t s g r n : Nat) (b : Bytes) (d : Die) :
    (sendFrame i t s g r n b d).key.pipes = d.key.pipes :=
  by obtain ⟨_, _, _, _, _, _, h⟩ := sendFrame_parts i t s g r n b d; rw [h]
@[simp] theorem sendFrame_key_identityOk (i t s g r n : Nat) (b : Bytes) (d : Die) :
    (sendFrame i t s g r n b d).key.identityOk = d.key.identityOk :=
  by obtain ⟨_, _, _, _, _, _, h⟩ := sendFrame_parts i t s g r n b d; rw [h]
@[simp] theorem sendFrame_key_rpmbOk (i t s g r n : Nat) (b : Bytes) (d : Die) :
    (sendFrame i t s g r n b d).key.rpmbOk = d.key.rpmbOk :=
  by obtain ⟨_, _, _, _, _, _, h⟩ := sendFrame_parts i t s g r n b d; rw [h]
@[simp] theorem sendFrame_key_storageNew (i t s g r n : Nat) (b : Bytes) (d : Die) :
    (sendFrame i t s g r n b d).key.storageNew = d.key.storageNew :=
  by obtain ⟨_, _, _, _, _, _, h⟩ := sendFrame_parts i t s g r n b d; rw [h]
@[simp] theorem sendFrame_key_debug (i t s g r n : Nat) (b : Bytes) (d : Die) :
    (sendFrame i t s g r n b d).key.debug = d.key.debug :=
  by obtain ⟨_, _, _, _, _, _, h⟩ := sendFrame_parts i t s g r n b d; rw [h]
@[simp] theorem sendFrame_key_nonce (i t s g r n : Nat) (b : Bytes) (d : Die) :
    (sendFrame i t s g r n b d).key.nonce = d.key.nonce :=
  by obtain ⟨_, _, _, _, _, _, h⟩ := sendFrame_parts i t s g r n b d; rw [h]
@[simp] theorem sendFrame_key_trust (i t s g r n : Nat) (b : Bytes) (d : Die) :
    (sendFrame i t s g r n b d).key.trust = d.key.trust :=
  by obtain ⟨_, _, _, _, _, _, h⟩ := sendFrame_parts i t s g r n b d; rw [h]
@[simp] theorem sendFrame_key_step (i t s g r n : Nat) (b : Bytes) (d : Die) :
    (sendFrame i t s g r n b d).key.step = d.key.step :=
  by obtain ⟨_, _, _, _, _, _, h⟩ := sendFrame_parts i t s g r n b d; rw [h]
@[simp] theorem sendFrame_key_cause (i t s g r n : Nat) (b : Bytes) (d : Die) :
    (sendFrame i t s g r n b d).key.cause = d.key.cause :=
  by obtain ⟨_, _, _, _, _, _, h⟩ := sendFrame_parts i t s g r n b d; rw [h]
@[simp] theorem sendFrame_key_corrected (i t s g r n : Nat) (b : Bytes) (d : Die) :
    (sendFrame i t s g r n b d).key.corrected = d.key.corrected :=
  by obtain ⟨_, _, _, _, _, _, h⟩ := sendFrame_parts i t s g r n b d; rw [h]
@[simp] theorem sendFrame_key_nextId (i t s g r n : Nat) (b : Bytes) (d : Die) :
    (sendFrame i t s g r n b d).key.nextId = d.key.nextId :=
  by obtain ⟨_, _, _, _, _, _, h⟩ := sendFrame_parts i t s g r n b d; rw [h]
@[simp] theorem sendFrame_key_opens (i t s g r n : Nat) (b : Bytes) (d : Die) :
    (sendFrame i t s g r n b d).key.opens = d.key.opens :=
  by obtain ⟨_, _, _, _, _, _, h⟩ := sendFrame_parts i t s g r n b d; rw [h]
@[simp] theorem sendFrame_key_writes (i t s g r n : Nat) (b : Bytes) (d : Die) :
    (sendFrame i t s g r n b d).key.writes = d.key.writes :=
  by obtain ⟨_, _, _, _, _, _, h⟩ := sendFrame_parts i t s g r n b d; rw [h]
@[simp] theorem sendFrame_key_bulk (i t s g r n : Nat) (b : Bytes) (d : Die) :
    (sendFrame i t s g r n b d).key.bulk = d.key.bulk :=
  by obtain ⟨_, _, _, _, _, _, h⟩ := sendFrame_parts i t s g r n b d; rw [h]
@[simp] theorem sendFrame_key_image (i t s g r n : Nat) (b : Bytes) (d : Die) :
    (sendFrame i t s g r n b d).key.image = d.key.image :=
  by obtain ⟨_, _, _, _, _, _, h⟩ := sendFrame_parts i t s g r n b d; rw [h]
@[simp] theorem sendFrame_key_flash (i t s g r n : Nat) (b : Bytes) (d : Die) :
    (sendFrame i t s g r n b d).key.flash = d.key.flash :=
  by obtain ⟨_, _, _, _, _, _, h⟩ := sendFrame_parts i t s g r n b d; rw [h]
@[simp] theorem sendFrame_pel (i t s g r n : Nat) (b : Bytes) (d : Die) : (sendFrame i t s g r n b d).pel = d.pel :=
  by obtain ⟨_, _, _, _, _, _, h⟩ := sendFrame_parts i t s g r n b d; rw [h]
@[simp] theorem sendFrame_descs (i t s g r n : Nat) (b : Bytes) (d : Die) :
    (sendFrame i t s g r n b d).descs = d.descs :=
  by obtain ⟨_, _, _, _, _, _, h⟩ := sendFrame_parts i t s g r n b d; rw [h]
@[simp] theorem sendFrame_freeCtr (i t s g r n : Nat) (b : Bytes) (d : Die) :
    (sendFrame i t s g r n b d).freeCtr = d.freeCtr :=
  by obtain ⟨_, _, _, _, _, _, h⟩ := sendFrame_parts i t s g r n b d; rw [h]

/-! ## answer -/

@[simp] theorem answer_which (k i n s g f : Nat) (b : Bytes) (d : Die) : (answer k i n s g f b d).which = d.which :=
  by obtain ⟨_, _, _, _, _, _, h⟩ := answer_parts k i n s g f b d; rw [h]
@[simp] theorem answer_phase (k i n s g f : Nat) (b : Bytes) (d : Die) : (answer k i n s g f b d).phase = d.phase :=
  by obtain ⟨_, _, _, _, _, _, h⟩ := answer_parts k i n s g f b d; rw [h]
@[simp] theorem answer_phaseSlot (k i n s g f : Nat) (b : Bytes) (d : Die) :
    (answer k i n s g f b d).phaseSlot = d.phaseSlot :=
  by obtain ⟨_, _, _, _, _, _, h⟩ := answer_parts k i n s g f b d; rw [h]
@[simp] theorem answer_regs_live (k i n s g f : Nat) (b : Bytes) (d : Die) :
    (answer k i n s g f b d).regs.live = d.regs.live :=
  by obtain ⟨_, _, _, _, _, _, h⟩ := answer_parts k i n s g f b d; rw [h]
@[simp] theorem answer_regs_staged (k i n s g f : Nat) (b : Bytes) (d : Die) :
    (answer k i n s g f b d).regs.staged = d.regs.staged :=
  by obtain ⟨_, _, _, _, _, _, h⟩ := answer_parts k i n s g f b d; rw [h]
@[simp] theorem answer_regs_late (k i n s g f : Nat) (b : Bytes) (d : Die) :
    (answer k i n s g f b d).regs.late = d.regs.late :=
  by obtain ⟨_, _, _, _, _, _, h⟩ := answer_parts k i n s g f b d; rw [h]
@[simp] theorem answer_regs_held (k i n s g f : Nat) (b : Bytes) (d : Die) :
    (answer k i n s g f b d).regs.held = d.regs.held :=
  by obtain ⟨_, _, _, _, _, _, h⟩ := answer_parts k i n s g f b d; rw [h]
@[simp] theorem answer_regs_cap (k i n s g f : Nat) (b : Bytes) (d : Die) :
    (answer k i n s g f b d).regs.cap = d.regs.cap :=
  by obtain ⟨_, _, _, _, _, _, h⟩ := answer_parts k i n s g f b d; rw [h]
@[simp] theorem answer_regs_enabled (k i n s g f : Nat) (b : Bytes) (d : Die) :
    (answer k i n s g f b d).regs.enabled = d.regs.enabled :=
  by obtain ⟨_, _, _, _, _, _, h⟩ := answer_parts k i n s g f b d; rw [h]
@[simp] theorem answer_wlk (k i n s g f : Nat) (b : Bytes) (d : Die) : (answer k i n s g f b d).wlk = d.wlk :=
  by obtain ⟨_, _, _, _, _, _, h⟩ := answer_parts k i n s g f b d; rw [h]
@[simp] theorem answer_wrd (k i n s g f : Nat) (b : Bytes) (d : Die) : (answer k i n s g f b d).wrd = d.wrd :=
  by obtain ⟨_, _, _, _, _, _, h⟩ := answer_parts k i n s g f b d; rw [h]
@[simp] theorem answer_chn (k i n s g f : Nat) (b : Bytes) (d : Die) : (answer k i n s g f b d).chn = d.chn :=
  by obtain ⟨_, _, _, _, _, _, h⟩ := answer_parts k i n s g f b d; rw [h]
@[simp] theorem answer_rat (k i n s g f : Nat) (b : Bytes) (d : Die) : (answer k i n s g f b d).rat = d.rat :=
  by obtain ⟨_, _, _, _, _, _, h⟩ := answer_parts k i n s g f b d; rw [h]
@[simp] theorem answer_adm (k i n s g f : Nat) (b : Bytes) (d : Die) : (answer k i n s g f b d).adm = d.adm :=
  by obtain ⟨_, _, _, _, _, _, h⟩ := answer_parts k i n s g f b d; rw [h]
@[simp] theorem answer_cad (k i n s g f : Nat) (b : Bytes) (d : Die) : (answer k i n s g f b d).cad = d.cad :=
  by obtain ⟨_, _, _, _, _, _, h⟩ := answer_parts k i n s g f b d; rw [h]
@[simp] theorem answer_sealing (k i n s g f : Nat) (b : Bytes) (d : Die) :
    (answer k i n s g f b d).sealing = d.sealing :=
  by obtain ⟨_, _, _, _, _, _, h⟩ := answer_parts k i n s g f b d; rw [h]
@[simp] theorem answer_res (k i n s g f : Nat) (b : Bytes) (d : Die) : (answer k i n s g f b d).res = d.res :=
  by obtain ⟨_, _, _, _, _, _, h⟩ := answer_parts k i n s g f b d; rw [h]
@[simp] theorem answer_bnd (k i n s g f : Nat) (b : Bytes) (d : Die) : (answer k i n s g f b d).bnd = d.bnd :=
  by obtain ⟨_, _, _, _, _, _, h⟩ := answer_parts k i n s g f b d; rw [h]
@[simp] theorem answer_nle (k i n s g f : Nat) (b : Bytes) (d : Die) : (answer k i n s g f b d).nle = d.nle :=
  by obtain ⟨_, _, _, _, _, _, h⟩ := answer_parts k i n s g f b d; rw [h]
@[simp] theorem answer_cwe (k i n s g f : Nat) (b : Bytes) (d : Die) : (answer k i n s g f b d).cwe = d.cwe :=
  by obtain ⟨_, _, _, _, _, _, h⟩ := answer_parts k i n s g f b d; rw [h]
@[simp] theorem answer_snt (k i n s g f : Nat) (b : Bytes) (d : Die) : (answer k i n s g f b d).snt = d.snt :=
  by obtain ⟨_, _, _, _, _, _, h⟩ := answer_parts k i n s g f b d; rw [h]
@[simp] theorem answer_shk (k i n s g f : Nat) (b : Bytes) (d : Die) : (answer k i n s g f b d).shk = d.shk :=
  by obtain ⟨_, _, _, _, _, _, h⟩ := answer_parts k i n s g f b d; rw [h]
@[simp] theorem answer_sig (k i n s g f : Nat) (b : Bytes) (d : Die) : (answer k i n s g f b d).sig = d.sig :=
  by obtain ⟨_, _, _, _, _, _, h⟩ := answer_parts k i n s g f b d; rw [h]
@[simp] theorem answer_vp (k i n s g f : Nat) (b : Bytes) (d : Die) : (answer k i n s g f b d).vp = d.vp :=
  by obtain ⟨_, _, _, _, _, _, h⟩ := answer_parts k i n s g f b d; rw [h]
@[simp] theorem answer_spk (k i n s g f : Nat) (b : Bytes) (d : Die) : (answer k i n s g f b d).spk = d.spk :=
  by obtain ⟨_, _, _, _, _, _, h⟩ := answer_parts k i n s g f b d; rw [h]
@[simp] theorem answer_dbg (k i n s g f : Nat) (b : Bytes) (d : Die) : (answer k i n s g f b d).dbg = d.dbg :=
  by obtain ⟨_, _, _, _, _, _, h⟩ := answer_parts k i n s g f b d; rw [h]
@[simp] theorem answer_sntb (k i n s g f : Nat) (b : Bytes) (d : Die) : (answer k i n s g f b d).sntb = d.sntb :=
  by obtain ⟨_, _, _, _, _, _, h⟩ := answer_parts k i n s g f b d; rw [h]
@[simp] theorem answer_tim (k i n s g f : Nat) (b : Bytes) (d : Die) : (answer k i n s g f b d).tim = d.tim :=
  by obtain ⟨_, _, _, _, _, _, h⟩ := answer_parts k i n s g f b d; rw [h]
@[simp] theorem answer_ing (k i n s g f : Nat) (b : Bytes) (d : Die) : (answer k i n s g f b d).ing = d.ing :=
  by obtain ⟨_, _, _, _, _, _, h⟩ := answer_parts k i n s g f b d; rw [h]
@[simp] theorem answer_wdn (k i n s g f : Nat) (b : Bytes) (d : Die) : (answer k i n s g f b d).wdn = d.wdn :=
  by obtain ⟨_, _, _, _, _, _, h⟩ := answer_parts k i n s g f b d; rw [h]
@[simp] theorem answer_fcu_src (k i n s g f : Nat) (b : Bytes) (d : Die) :
    (answer k i n s g f b d).fcu.src = d.fcu.src :=
  by obtain ⟨_, _, _, _, _, _, h⟩ := answer_parts k i n s g f b d; rw [h]
@[simp] theorem answer_fcu_sev (k i n s g f : Nat) (b : Bytes) (d : Die) :
    (answer k i n s g f b d).fcu.sev = d.fcu.sev :=
  by obtain ⟨_, _, _, _, _, _, h⟩ := answer_parts k i n s g f b d; rw [h]
@[simp] theorem answer_fcu_first (k i n s g f : Nat) (b : Bytes) (d : Die) :
    (answer k i n s g f b d).fcu.first = d.fcu.first :=
  by obtain ⟨_, _, _, _, _, _, h⟩ := answer_parts k i n s g f b d; rw [h]
@[simp] theorem answer_fcu_second (k i n s g f : Nat) (b : Bytes) (d : Die) :
    (answer k i n s g f b d).fcu.second = d.fcu.second :=
  by obtain ⟨_, _, _, _, _, _, h⟩ := answer_parts k i n s g f b d; rw [h]
@[simp] theorem answer_fcu_echo (k i n s g f : Nat) (b : Bytes) (d : Die) :
    (answer k i n s g f b d).fcu.echo = d.fcu.echo :=
  by obtain ⟨_, _, _, _, _, _, h⟩ := answer_parts k i n s g f b d; rw [h]
@[simp] theorem answer_fcu_asserted (k i n s g f : Nat) (b : Bytes) (d : Die) :
    (answer k i n s g f b d).fcu.asserted = d.fcu.asserted :=
  by obtain ⟨_, _, _, _, _, _, h⟩ := answer_parts k i n s g f b d; rw [h]
@[simp] theorem answer_fcu_alive (k i n s g f : Nat) (b : Bytes) (d : Die) :
    (answer k i n s g f b d).fcu.alive = d.fcu.alive :=
  by obtain ⟨_, _, _, _, _, _, h⟩ := answer_parts k i n s g f b d; rw [h]
@[simp] theorem answer_fcu_minRun (k i n s g f : Nat) (b : Bytes) (d : Die) :
    (answer k i n s g f b d).fcu.minRun = d.fcu.minRun :=
  by obtain ⟨_, _, _, _, _, _, h⟩ := answer_parts k i n s g f b d; rw [h]
@[simp] theorem answer_fcu_acked (k i n s g f : Nat) (b : Bytes) (d : Die) :
    (answer k i n s g f b d).fcu.acked = d.fcu.acked :=
  by obtain ⟨_, _, _, _, _, _, h⟩ := answer_parts k i n s g f b d; rw [h]
@[simp] theorem answer_fcu_stopped (k i n s g f : Nat) (b : Bytes) (d : Die) :
    (answer k i n s g f b d).fcu.stopped = d.fcu.stopped :=
  by obtain ⟨_, _, _, _, _, _, h⟩ := answer_parts k i n s g f b d; rw [h]
@[simp] theorem answer_fcu_hold (k i n s g f : Nat) (b : Bytes) (d : Die) :
    (answer k i n s g f b d).fcu.hold = d.fcu.hold :=
  by obtain ⟨_, _, _, _, _, _, h⟩ := answer_parts k i n s g f b d; rw [h]
@[simp] theorem answer_fcu_sysHold (k i n s g f : Nat) (b : Bytes) (d : Die) :
    (answer k i n s g f b d).fcu.sysHold = d.fcu.sysHold :=
  by obtain ⟨_, _, _, _, _, _, h⟩ := answer_parts k i n s g f b d; rw [h]
@[simp] theorem answer_fcu_entries (k i n s g f : Nat) (b : Bytes) (d : Die) :
    (answer k i n s g f b d).fcu.entries = d.fcu.entries :=
  by obtain ⟨_, _, _, _, _, _, h⟩ := answer_parts k i n s g f b d; rw [h]
@[simp] theorem answer_fcu_lastSrc (k i n s g f : Nat) (b : Bytes) (d : Die) :
    (answer k i n s g f b d).fcu.lastSrc = d.fcu.lastSrc :=
  by obtain ⟨_, _, _, _, _, _, h⟩ := answer_parts k i n s g f b d; rw [h]
@[simp] theorem answer_fcu_held (k i n s g f : Nat) (b : Bytes) (d : Die) :
    (answer k i n s g f b d).fcu.held = d.fcu.held :=
  by obtain ⟨_, _, _, _, _, _, h⟩ := answer_parts k i n s g f b d; rw [h]
@[simp] theorem answer_fcu_entryNs (k i n s g f : Nat) (b : Bytes) (d : Die) :
    (answer k i n s g f b d).fcu.entryNs = d.fcu.entryNs :=
  by obtain ⟨_, _, _, _, _, _, h⟩ := answer_parts k i n s g f b d; rw [h]
@[simp] theorem answer_fcu_step (k i n s g f : Nat) (b : Bytes) (d : Die) :
    (answer k i n s g f b d).fcu.step = d.fcu.step :=
  by obtain ⟨_, _, _, _, _, _, h⟩ := answer_parts k i n s g f b d; rw [h]
@[simp] theorem answer_fcu_clkLost (k i n s g f : Nat) (b : Bytes) (d : Die) :
    (answer k i n s g f b d).fcu.clkLost = d.fcu.clkLost :=
  by obtain ⟨_, _, _, _, _, _, h⟩ := answer_parts k i n s g f b d; rw [h]
@[simp] theorem answer_fcu_parityBad (k i n s g f : Nat) (b : Bytes) (d : Die) :
    (answer k i n s g f b d).fcu.parityBad = d.fcu.parityBad :=
  by obtain ⟨_, _, _, _, _, _, h⟩ := answer_parts k i n s g f b d; rw [h]
@[simp] theorem answer_fcu_railBad (k i n s g f : Nat) (b : Bytes) (d : Die) :
    (answer k i n s g f b d).fcu.railBad = d.fcu.railBad :=
  by obtain ⟨_, _, _, _, _, _, h⟩ := answer_parts k i n s g f b d; rw [h]
@[simp] theorem answer_fcu_stalled (k i n s g f : Nat) (b : Bytes) (d : Die) :
    (answer k i n s g f b d).fcu.stalled = d.fcu.stalled :=
  by obtain ⟨_, _, _, _, _, _, h⟩ := answer_parts k i n s g f b d; rw [h]
@[simp] theorem answer_fcu_sysclkOk (k i n s g f : Nat) (b : Bytes) (d : Die) :
    (answer k i n s g f b d).fcu.sysclkOk = d.fcu.sysclkOk :=
  by obtain ⟨_, _, _, _, _, _, h⟩ := answer_parts k i n s g f b d; rw [h]
@[simp] theorem answer_fcu_tj (k i n s g f : Nat) (b : Bytes) (d : Die) : (answer k i n s g f b d).fcu.tj = d.fcu.tj :=
  by obtain ⟨_, _, _, _, _, _, h⟩ := answer_parts k i n s g f b d; rw [h]
@[simp] theorem answer_fcu_tjPeak (k i n s g f : Nat) (b : Bytes) (d : Die) :
    (answer k i n s g f b d).fcu.tjPeak = d.fcu.tjPeak :=
  by obtain ⟨_, _, _, _, _, _, h⟩ := answer_parts k i n s g f b d; rw [h]
@[simp] theorem answer_mem (k i n s g f : Nat) (b : Bytes) (d : Die) : (answer k i n s g f b d).mem = d.mem :=
  by obtain ⟨_, _, _, _, _, _, h⟩ := answer_parts k i n s g f b d; rw [h]
@[simp] theorem answer_key_seed (k i n s g f : Nat) (b : Bytes) (d : Die) :
    (answer k i n s g f b d).key.seed = d.key.seed :=
  by obtain ⟨_, _, _, _, _, _, h⟩ := answer_parts k i n s g f b d; rw [h]
@[simp] theorem answer_key_idSecret (k i n s g f : Nat) (b : Bytes) (d : Die) :
    (answer k i n s g f b d).key.idSecret = d.key.idSecret :=
  by obtain ⟨_, _, _, _, _, _, h⟩ := answer_parts k i n s g f b d; rw [h]
@[simp] theorem answer_key_idPublic (k i n s g f : Nat) (b : Bytes) (d : Die) :
    (answer k i n s g f b d).key.idPublic = d.key.idPublic :=
  by obtain ⟨_, _, _, _, _, _, h⟩ := answer_parts k i n s g f b d; rw [h]
@[simp] theorem answer_key_device (k i n s g f : Nat) (b : Bytes) (d : Die) :
    (answer k i n s g f b d).key.device = d.key.device :=
  by obtain ⟨_, _, _, _, _, _, h⟩ := answer_parts k i n s g f b d; rw [h]
@[simp] theorem answer_key_rpmb (k i n s g f : Nat) (b : Bytes) (d : Die) :
    (answer k i n s g f b d).key.rpmb = d.key.rpmb :=
  by obtain ⟨_, _, _, _, _, _, h⟩ := answer_parts k i n s g f b d; rw [h]
@[simp] theorem answer_key_bind (k i n s g f : Nat) (b : Bytes) (d : Die) :
    (answer k i n s g f b d).key.bind = d.key.bind :=
  by obtain ⟨_, _, _, _, _, _, h⟩ := answer_parts k i n s g f b d; rw [h]
@[simp] theorem answer_key_fwVersion (k i n s g f : Nat) (b : Bytes) (d : Die) :
    (answer k i n s g f b d).key.fwVersion = d.key.fwVersion :=
  by obtain ⟨_, _, _, _, _, _, h⟩ := answer_parts k i n s g f b d; rw [h]
@[simp] theorem answer_key_fwSlot (k i n s g f : Nat) (b : Bytes) (d : Die) :
    (answer k i n s g f b d).key.fwSlot = d.key.fwSlot :=
  by obtain ⟨_, _, _, _, _, _, h⟩ := answer_parts k i n s g f b d; rw [h]
@[simp] theorem answer_key_fwSvn (k i n s g f : Nat) (b : Bytes) (d : Die) :
    (answer k i n s g f b d).key.fwSvn = d.key.fwSvn :=
  by obtain ⟨_, _, _, _, _, _, h⟩ := answer_parts k i n s g f b d; rw [h]
@[simp] theorem answer_key_mapPayload (k i n s g f : Nat) (b : Bytes) (d : Die) :
    (answer k i n s g f b d).key.mapPayload = d.key.mapPayload :=
  by obtain ⟨_, _, _, _, _, _, h⟩ := answer_parts k i n s g f b d; rw [h]
@[simp] theorem answer_key_mapDigest (k i n s g f : Nat) (b : Bytes) (d : Die) :
    (answer k i n s g f b d).key.mapDigest = d.key.mapDigest :=
  by obtain ⟨_, _, _, _, _, _, h⟩ := answer_parts k i n s g f b d; rw [h]
@[simp] theorem answer_key_ext (k i n s g f : Nat) (b : Bytes) (d : Die) :
    (answer k i n s g f b d).key.ext = d.key.ext :=
  by obtain ⟨_, _, _, _, _, _, h⟩ := answer_parts k i n s g f b d; rw [h]
@[simp] theorem answer_key_grade (k i n s g f : Nat) (b : Bytes) (d : Die) :
    (answer k i n s g f b d).key.grade = d.key.grade :=
  by obtain ⟨_, _, _, _, _, _, h⟩ := answer_parts k i n s g f b d; rw [h]
@[simp] theorem answer_key_pipes (k i n s g f : Nat) (b : Bytes) (d : Die) :
    (answer k i n s g f b d).key.pipes = d.key.pipes :=
  by obtain ⟨_, _, _, _, _, _, h⟩ := answer_parts k i n s g f b d; rw [h]
@[simp] theorem answer_key_identityOk (k i n s g f : Nat) (b : Bytes) (d : Die) :
    (answer k i n s g f b d).key.identityOk = d.key.identityOk :=
  by obtain ⟨_, _, _, _, _, _, h⟩ := answer_parts k i n s g f b d; rw [h]
@[simp] theorem answer_key_rpmbOk (k i n s g f : Nat) (b : Bytes) (d : Die) :
    (answer k i n s g f b d).key.rpmbOk = d.key.rpmbOk :=
  by obtain ⟨_, _, _, _, _, _, h⟩ := answer_parts k i n s g f b d; rw [h]
@[simp] theorem answer_key_storageNew (k i n s g f : Nat) (b : Bytes) (d : Die) :
    (answer k i n s g f b d).key.storageNew = d.key.storageNew :=
  by obtain ⟨_, _, _, _, _, _, h⟩ := answer_parts k i n s g f b d; rw [h]
@[simp] theorem answer_key_debug (k i n s g f : Nat) (b : Bytes) (d : Die) :
    (answer k i n s g f b d).key.debug = d.key.debug :=
  by obtain ⟨_, _, _, _, _, _, h⟩ := answer_parts k i n s g f b d; rw [h]
@[simp] theorem answer_key_nonce (k i n s g f : Nat) (b : Bytes) (d : Die) :
    (answer k i n s g f b d).key.nonce = d.key.nonce :=
  by obtain ⟨_, _, _, _, _, _, h⟩ := answer_parts k i n s g f b d; rw [h]
@[simp] theorem answer_key_trust (k i n s g f : Nat) (b : Bytes) (d : Die) :
    (answer k i n s g f b d).key.trust = d.key.trust :=
  by obtain ⟨_, _, _, _, _, _, h⟩ := answer_parts k i n s g f b d; rw [h]
@[simp] theorem answer_key_step (k i n s g f : Nat) (b : Bytes) (d : Die) :
    (answer k i n s g f b d).key.step = d.key.step :=
  by obtain ⟨_, _, _, _, _, _, h⟩ := answer_parts k i n s g f b d; rw [h]
@[simp] theorem answer_key_cause (k i n s g f : Nat) (b : Bytes) (d : Die) :
    (answer k i n s g f b d).key.cause = d.key.cause :=
  by obtain ⟨_, _, _, _, _, _, h⟩ := answer_parts k i n s g f b d; rw [h]
@[simp] theorem answer_key_corrected (k i n s g f : Nat) (b : Bytes) (d : Die) :
    (answer k i n s g f b d).key.corrected = d.key.corrected :=
  by obtain ⟨_, _, _, _, _, _, h⟩ := answer_parts k i n s g f b d; rw [h]
@[simp] theorem answer_key_nextId (k i n s g f : Nat) (b : Bytes) (d : Die) :
    (answer k i n s g f b d).key.nextId = d.key.nextId :=
  by obtain ⟨_, _, _, _, _, _, h⟩ := answer_parts k i n s g f b d; rw [h]
@[simp] theorem answer_key_opens (k i n s g f : Nat) (b : Bytes) (d : Die) :
    (answer k i n s g f b d).key.opens = d.key.opens :=
  by obtain ⟨_, _, _, _, _, _, h⟩ := answer_parts k i n s g f b d; rw [h]
@[simp] theorem answer_key_writes (k i n s g f : Nat) (b : Bytes) (d : Die) :
    (answer k i n s g f b d).key.writes = d.key.writes :=
  by obtain ⟨_, _, _, _, _, _, h⟩ := answer_parts k i n s g f b d; rw [h]
@[simp] theorem answer_key_bulk (k i n s g f : Nat) (b : Bytes) (d : Die) :
    (answer k i n s g f b d).key.bulk = d.key.bulk :=
  by obtain ⟨_, _, _, _, _, _, h⟩ := answer_parts k i n s g f b d; rw [h]
@[simp] theorem answer_key_image (k i n s g f : Nat) (b : Bytes) (d : Die) :
    (answer k i n s g f b d).key.image = d.key.image :=
  by obtain ⟨_, _, _, _, _, _, h⟩ := answer_parts k i n s g f b d; rw [h]
@[simp] theorem answer_key_flash (k i n s g f : Nat) (b : Bytes) (d : Die) :
    (answer k i n s g f b d).key.flash = d.key.flash :=
  by obtain ⟨_, _, _, _, _, _, h⟩ := answer_parts k i n s g f b d; rw [h]
@[simp] theorem answer_pel (k i n s g f : Nat) (b : Bytes) (d : Die) : (answer k i n s g f b d).pel = d.pel :=
  by obtain ⟨_, _, _, _, _, _, h⟩ := answer_parts k i n s g f b d; rw [h]
@[simp] theorem answer_descs (k i n s g f : Nat) (b : Bytes) (d : Die) : (answer k i n s g f b d).descs = d.descs :=
  by obtain ⟨_, _, _, _, _, _, h⟩ := answer_parts k i n s g f b d; rw [h]
@[simp] theorem answer_freeCtr (k i n s g f : Nat) (b : Bytes) (d : Die) :
    (answer k i n s g f b d).freeCtr = d.freeCtr :=
  by obtain ⟨_, _, _, _, _, _, h⟩ := answer_parts k i n s g f b d; rw [h]

/-! ## sendResult -/

@[simp] theorem sendResult_which (i n s f : Nat) (b : Bytes) (d : Die) : (sendResult i n s f b d).which = d.which :=
  by obtain ⟨_, _, _, _, _, _, h⟩ := sendResult_parts i n s f b d; rw [h]
@[simp] theorem sendResult_phase (i n s f : Nat) (b : Bytes) (d : Die) : (sendResult i n s f b d).phase = d.phase :=
  by obtain ⟨_, _, _, _, _, _, h⟩ := sendResult_parts i n s f b d; rw [h]
@[simp] theorem sendResult_phaseSlot (i n s f : Nat) (b : Bytes) (d : Die) :
    (sendResult i n s f b d).phaseSlot = d.phaseSlot :=
  by obtain ⟨_, _, _, _, _, _, h⟩ := sendResult_parts i n s f b d; rw [h]
@[simp] theorem sendResult_regs_live (i n s f : Nat) (b : Bytes) (d : Die) :
    (sendResult i n s f b d).regs.live = d.regs.live :=
  by obtain ⟨_, _, _, _, _, _, h⟩ := sendResult_parts i n s f b d; rw [h]
@[simp] theorem sendResult_regs_staged (i n s f : Nat) (b : Bytes) (d : Die) :
    (sendResult i n s f b d).regs.staged = d.regs.staged :=
  by obtain ⟨_, _, _, _, _, _, h⟩ := sendResult_parts i n s f b d; rw [h]
@[simp] theorem sendResult_regs_late (i n s f : Nat) (b : Bytes) (d : Die) :
    (sendResult i n s f b d).regs.late = d.regs.late :=
  by obtain ⟨_, _, _, _, _, _, h⟩ := sendResult_parts i n s f b d; rw [h]
@[simp] theorem sendResult_regs_held (i n s f : Nat) (b : Bytes) (d : Die) :
    (sendResult i n s f b d).regs.held = d.regs.held :=
  by obtain ⟨_, _, _, _, _, _, h⟩ := sendResult_parts i n s f b d; rw [h]
@[simp] theorem sendResult_regs_cap (i n s f : Nat) (b : Bytes) (d : Die) :
    (sendResult i n s f b d).regs.cap = d.regs.cap :=
  by obtain ⟨_, _, _, _, _, _, h⟩ := sendResult_parts i n s f b d; rw [h]
@[simp] theorem sendResult_regs_enabled (i n s f : Nat) (b : Bytes) (d : Die) :
    (sendResult i n s f b d).regs.enabled = d.regs.enabled :=
  by obtain ⟨_, _, _, _, _, _, h⟩ := sendResult_parts i n s f b d; rw [h]
@[simp] theorem sendResult_wlk (i n s f : Nat) (b : Bytes) (d : Die) : (sendResult i n s f b d).wlk = d.wlk :=
  by obtain ⟨_, _, _, _, _, _, h⟩ := sendResult_parts i n s f b d; rw [h]
@[simp] theorem sendResult_wrd (i n s f : Nat) (b : Bytes) (d : Die) : (sendResult i n s f b d).wrd = d.wrd :=
  by obtain ⟨_, _, _, _, _, _, h⟩ := sendResult_parts i n s f b d; rw [h]
@[simp] theorem sendResult_chn (i n s f : Nat) (b : Bytes) (d : Die) : (sendResult i n s f b d).chn = d.chn :=
  by obtain ⟨_, _, _, _, _, _, h⟩ := sendResult_parts i n s f b d; rw [h]
@[simp] theorem sendResult_rat (i n s f : Nat) (b : Bytes) (d : Die) : (sendResult i n s f b d).rat = d.rat :=
  by obtain ⟨_, _, _, _, _, _, h⟩ := sendResult_parts i n s f b d; rw [h]
@[simp] theorem sendResult_adm (i n s f : Nat) (b : Bytes) (d : Die) : (sendResult i n s f b d).adm = d.adm :=
  by obtain ⟨_, _, _, _, _, _, h⟩ := sendResult_parts i n s f b d; rw [h]
@[simp] theorem sendResult_cad (i n s f : Nat) (b : Bytes) (d : Die) : (sendResult i n s f b d).cad = d.cad :=
  by obtain ⟨_, _, _, _, _, _, h⟩ := sendResult_parts i n s f b d; rw [h]
@[simp] theorem sendResult_sealing (i n s f : Nat) (b : Bytes) (d : Die) :
    (sendResult i n s f b d).sealing = d.sealing :=
  by obtain ⟨_, _, _, _, _, _, h⟩ := sendResult_parts i n s f b d; rw [h]
@[simp] theorem sendResult_res (i n s f : Nat) (b : Bytes) (d : Die) : (sendResult i n s f b d).res = d.res :=
  by obtain ⟨_, _, _, _, _, _, h⟩ := sendResult_parts i n s f b d; rw [h]
@[simp] theorem sendResult_bnd (i n s f : Nat) (b : Bytes) (d : Die) : (sendResult i n s f b d).bnd = d.bnd :=
  by obtain ⟨_, _, _, _, _, _, h⟩ := sendResult_parts i n s f b d; rw [h]
@[simp] theorem sendResult_nle (i n s f : Nat) (b : Bytes) (d : Die) : (sendResult i n s f b d).nle = d.nle :=
  by obtain ⟨_, _, _, _, _, _, h⟩ := sendResult_parts i n s f b d; rw [h]
@[simp] theorem sendResult_cwe (i n s f : Nat) (b : Bytes) (d : Die) : (sendResult i n s f b d).cwe = d.cwe :=
  by obtain ⟨_, _, _, _, _, _, h⟩ := sendResult_parts i n s f b d; rw [h]
@[simp] theorem sendResult_snt (i n s f : Nat) (b : Bytes) (d : Die) : (sendResult i n s f b d).snt = d.snt :=
  by obtain ⟨_, _, _, _, _, _, h⟩ := sendResult_parts i n s f b d; rw [h]
@[simp] theorem sendResult_shk (i n s f : Nat) (b : Bytes) (d : Die) : (sendResult i n s f b d).shk = d.shk :=
  by obtain ⟨_, _, _, _, _, _, h⟩ := sendResult_parts i n s f b d; rw [h]
@[simp] theorem sendResult_sig (i n s f : Nat) (b : Bytes) (d : Die) : (sendResult i n s f b d).sig = d.sig :=
  by obtain ⟨_, _, _, _, _, _, h⟩ := sendResult_parts i n s f b d; rw [h]
@[simp] theorem sendResult_vp (i n s f : Nat) (b : Bytes) (d : Die) : (sendResult i n s f b d).vp = d.vp :=
  by obtain ⟨_, _, _, _, _, _, h⟩ := sendResult_parts i n s f b d; rw [h]
@[simp] theorem sendResult_spk (i n s f : Nat) (b : Bytes) (d : Die) : (sendResult i n s f b d).spk = d.spk :=
  by obtain ⟨_, _, _, _, _, _, h⟩ := sendResult_parts i n s f b d; rw [h]
@[simp] theorem sendResult_dbg (i n s f : Nat) (b : Bytes) (d : Die) : (sendResult i n s f b d).dbg = d.dbg :=
  by obtain ⟨_, _, _, _, _, _, h⟩ := sendResult_parts i n s f b d; rw [h]
@[simp] theorem sendResult_sntb (i n s f : Nat) (b : Bytes) (d : Die) : (sendResult i n s f b d).sntb = d.sntb :=
  by obtain ⟨_, _, _, _, _, _, h⟩ := sendResult_parts i n s f b d; rw [h]
@[simp] theorem sendResult_tim (i n s f : Nat) (b : Bytes) (d : Die) : (sendResult i n s f b d).tim = d.tim :=
  by obtain ⟨_, _, _, _, _, _, h⟩ := sendResult_parts i n s f b d; rw [h]
@[simp] theorem sendResult_ing (i n s f : Nat) (b : Bytes) (d : Die) : (sendResult i n s f b d).ing = d.ing :=
  by obtain ⟨_, _, _, _, _, _, h⟩ := sendResult_parts i n s f b d; rw [h]
@[simp] theorem sendResult_wdn (i n s f : Nat) (b : Bytes) (d : Die) : (sendResult i n s f b d).wdn = d.wdn :=
  by obtain ⟨_, _, _, _, _, _, h⟩ := sendResult_parts i n s f b d; rw [h]
@[simp] theorem sendResult_fcu_src (i n s f : Nat) (b : Bytes) (d : Die) :
    (sendResult i n s f b d).fcu.src = d.fcu.src :=
  by obtain ⟨_, _, _, _, _, _, h⟩ := sendResult_parts i n s f b d; rw [h]
@[simp] theorem sendResult_fcu_sev (i n s f : Nat) (b : Bytes) (d : Die) :
    (sendResult i n s f b d).fcu.sev = d.fcu.sev :=
  by obtain ⟨_, _, _, _, _, _, h⟩ := sendResult_parts i n s f b d; rw [h]
@[simp] theorem sendResult_fcu_first (i n s f : Nat) (b : Bytes) (d : Die) :
    (sendResult i n s f b d).fcu.first = d.fcu.first :=
  by obtain ⟨_, _, _, _, _, _, h⟩ := sendResult_parts i n s f b d; rw [h]
@[simp] theorem sendResult_fcu_second (i n s f : Nat) (b : Bytes) (d : Die) :
    (sendResult i n s f b d).fcu.second = d.fcu.second :=
  by obtain ⟨_, _, _, _, _, _, h⟩ := sendResult_parts i n s f b d; rw [h]
@[simp] theorem sendResult_fcu_echo (i n s f : Nat) (b : Bytes) (d : Die) :
    (sendResult i n s f b d).fcu.echo = d.fcu.echo :=
  by obtain ⟨_, _, _, _, _, _, h⟩ := sendResult_parts i n s f b d; rw [h]
@[simp] theorem sendResult_fcu_asserted (i n s f : Nat) (b : Bytes) (d : Die) :
    (sendResult i n s f b d).fcu.asserted = d.fcu.asserted :=
  by obtain ⟨_, _, _, _, _, _, h⟩ := sendResult_parts i n s f b d; rw [h]
@[simp] theorem sendResult_fcu_alive (i n s f : Nat) (b : Bytes) (d : Die) :
    (sendResult i n s f b d).fcu.alive = d.fcu.alive :=
  by obtain ⟨_, _, _, _, _, _, h⟩ := sendResult_parts i n s f b d; rw [h]
@[simp] theorem sendResult_fcu_minRun (i n s f : Nat) (b : Bytes) (d : Die) :
    (sendResult i n s f b d).fcu.minRun = d.fcu.minRun :=
  by obtain ⟨_, _, _, _, _, _, h⟩ := sendResult_parts i n s f b d; rw [h]
@[simp] theorem sendResult_fcu_acked (i n s f : Nat) (b : Bytes) (d : Die) :
    (sendResult i n s f b d).fcu.acked = d.fcu.acked :=
  by obtain ⟨_, _, _, _, _, _, h⟩ := sendResult_parts i n s f b d; rw [h]
@[simp] theorem sendResult_fcu_stopped (i n s f : Nat) (b : Bytes) (d : Die) :
    (sendResult i n s f b d).fcu.stopped = d.fcu.stopped :=
  by obtain ⟨_, _, _, _, _, _, h⟩ := sendResult_parts i n s f b d; rw [h]
@[simp] theorem sendResult_fcu_hold (i n s f : Nat) (b : Bytes) (d : Die) :
    (sendResult i n s f b d).fcu.hold = d.fcu.hold :=
  by obtain ⟨_, _, _, _, _, _, h⟩ := sendResult_parts i n s f b d; rw [h]
@[simp] theorem sendResult_fcu_sysHold (i n s f : Nat) (b : Bytes) (d : Die) :
    (sendResult i n s f b d).fcu.sysHold = d.fcu.sysHold :=
  by obtain ⟨_, _, _, _, _, _, h⟩ := sendResult_parts i n s f b d; rw [h]
@[simp] theorem sendResult_fcu_entries (i n s f : Nat) (b : Bytes) (d : Die) :
    (sendResult i n s f b d).fcu.entries = d.fcu.entries :=
  by obtain ⟨_, _, _, _, _, _, h⟩ := sendResult_parts i n s f b d; rw [h]
@[simp] theorem sendResult_fcu_lastSrc (i n s f : Nat) (b : Bytes) (d : Die) :
    (sendResult i n s f b d).fcu.lastSrc = d.fcu.lastSrc :=
  by obtain ⟨_, _, _, _, _, _, h⟩ := sendResult_parts i n s f b d; rw [h]
@[simp] theorem sendResult_fcu_held (i n s f : Nat) (b : Bytes) (d : Die) :
    (sendResult i n s f b d).fcu.held = d.fcu.held :=
  by obtain ⟨_, _, _, _, _, _, h⟩ := sendResult_parts i n s f b d; rw [h]
@[simp] theorem sendResult_fcu_entryNs (i n s f : Nat) (b : Bytes) (d : Die) :
    (sendResult i n s f b d).fcu.entryNs = d.fcu.entryNs :=
  by obtain ⟨_, _, _, _, _, _, h⟩ := sendResult_parts i n s f b d; rw [h]
@[simp] theorem sendResult_fcu_step (i n s f : Nat) (b : Bytes) (d : Die) :
    (sendResult i n s f b d).fcu.step = d.fcu.step :=
  by obtain ⟨_, _, _, _, _, _, h⟩ := sendResult_parts i n s f b d; rw [h]
@[simp] theorem sendResult_fcu_clkLost (i n s f : Nat) (b : Bytes) (d : Die) :
    (sendResult i n s f b d).fcu.clkLost = d.fcu.clkLost :=
  by obtain ⟨_, _, _, _, _, _, h⟩ := sendResult_parts i n s f b d; rw [h]
@[simp] theorem sendResult_fcu_parityBad (i n s f : Nat) (b : Bytes) (d : Die) :
    (sendResult i n s f b d).fcu.parityBad = d.fcu.parityBad :=
  by obtain ⟨_, _, _, _, _, _, h⟩ := sendResult_parts i n s f b d; rw [h]
@[simp] theorem sendResult_fcu_railBad (i n s f : Nat) (b : Bytes) (d : Die) :
    (sendResult i n s f b d).fcu.railBad = d.fcu.railBad :=
  by obtain ⟨_, _, _, _, _, _, h⟩ := sendResult_parts i n s f b d; rw [h]
@[simp] theorem sendResult_fcu_stalled (i n s f : Nat) (b : Bytes) (d : Die) :
    (sendResult i n s f b d).fcu.stalled = d.fcu.stalled :=
  by obtain ⟨_, _, _, _, _, _, h⟩ := sendResult_parts i n s f b d; rw [h]
@[simp] theorem sendResult_fcu_sysclkOk (i n s f : Nat) (b : Bytes) (d : Die) :
    (sendResult i n s f b d).fcu.sysclkOk = d.fcu.sysclkOk :=
  by obtain ⟨_, _, _, _, _, _, h⟩ := sendResult_parts i n s f b d; rw [h]
@[simp] theorem sendResult_fcu_tj (i n s f : Nat) (b : Bytes) (d : Die) : (sendResult i n s f b d).fcu.tj = d.fcu.tj :=
  by obtain ⟨_, _, _, _, _, _, h⟩ := sendResult_parts i n s f b d; rw [h]
@[simp] theorem sendResult_fcu_tjPeak (i n s f : Nat) (b : Bytes) (d : Die) :
    (sendResult i n s f b d).fcu.tjPeak = d.fcu.tjPeak :=
  by obtain ⟨_, _, _, _, _, _, h⟩ := sendResult_parts i n s f b d; rw [h]
@[simp] theorem sendResult_mem (i n s f : Nat) (b : Bytes) (d : Die) : (sendResult i n s f b d).mem = d.mem :=
  by obtain ⟨_, _, _, _, _, _, h⟩ := sendResult_parts i n s f b d; rw [h]
@[simp] theorem sendResult_key_seed (i n s f : Nat) (b : Bytes) (d : Die) :
    (sendResult i n s f b d).key.seed = d.key.seed :=
  by obtain ⟨_, _, _, _, _, _, h⟩ := sendResult_parts i n s f b d; rw [h]
@[simp] theorem sendResult_key_idSecret (i n s f : Nat) (b : Bytes) (d : Die) :
    (sendResult i n s f b d).key.idSecret = d.key.idSecret :=
  by obtain ⟨_, _, _, _, _, _, h⟩ := sendResult_parts i n s f b d; rw [h]
@[simp] theorem sendResult_key_idPublic (i n s f : Nat) (b : Bytes) (d : Die) :
    (sendResult i n s f b d).key.idPublic = d.key.idPublic :=
  by obtain ⟨_, _, _, _, _, _, h⟩ := sendResult_parts i n s f b d; rw [h]
@[simp] theorem sendResult_key_device (i n s f : Nat) (b : Bytes) (d : Die) :
    (sendResult i n s f b d).key.device = d.key.device :=
  by obtain ⟨_, _, _, _, _, _, h⟩ := sendResult_parts i n s f b d; rw [h]
@[simp] theorem sendResult_key_rpmb (i n s f : Nat) (b : Bytes) (d : Die) :
    (sendResult i n s f b d).key.rpmb = d.key.rpmb :=
  by obtain ⟨_, _, _, _, _, _, h⟩ := sendResult_parts i n s f b d; rw [h]
@[simp] theorem sendResult_key_bind (i n s f : Nat) (b : Bytes) (d : Die) :
    (sendResult i n s f b d).key.bind = d.key.bind :=
  by obtain ⟨_, _, _, _, _, _, h⟩ := sendResult_parts i n s f b d; rw [h]
@[simp] theorem sendResult_key_fwVersion (i n s f : Nat) (b : Bytes) (d : Die) :
    (sendResult i n s f b d).key.fwVersion = d.key.fwVersion :=
  by obtain ⟨_, _, _, _, _, _, h⟩ := sendResult_parts i n s f b d; rw [h]
@[simp] theorem sendResult_key_fwSlot (i n s f : Nat) (b : Bytes) (d : Die) :
    (sendResult i n s f b d).key.fwSlot = d.key.fwSlot :=
  by obtain ⟨_, _, _, _, _, _, h⟩ := sendResult_parts i n s f b d; rw [h]
@[simp] theorem sendResult_key_fwSvn (i n s f : Nat) (b : Bytes) (d : Die) :
    (sendResult i n s f b d).key.fwSvn = d.key.fwSvn :=
  by obtain ⟨_, _, _, _, _, _, h⟩ := sendResult_parts i n s f b d; rw [h]
@[simp] theorem sendResult_key_mapPayload (i n s f : Nat) (b : Bytes) (d : Die) :
    (sendResult i n s f b d).key.mapPayload = d.key.mapPayload :=
  by obtain ⟨_, _, _, _, _, _, h⟩ := sendResult_parts i n s f b d; rw [h]
@[simp] theorem sendResult_key_mapDigest (i n s f : Nat) (b : Bytes) (d : Die) :
    (sendResult i n s f b d).key.mapDigest = d.key.mapDigest :=
  by obtain ⟨_, _, _, _, _, _, h⟩ := sendResult_parts i n s f b d; rw [h]
@[simp] theorem sendResult_key_ext (i n s f : Nat) (b : Bytes) (d : Die) :
    (sendResult i n s f b d).key.ext = d.key.ext :=
  by obtain ⟨_, _, _, _, _, _, h⟩ := sendResult_parts i n s f b d; rw [h]
@[simp] theorem sendResult_key_grade (i n s f : Nat) (b : Bytes) (d : Die) :
    (sendResult i n s f b d).key.grade = d.key.grade :=
  by obtain ⟨_, _, _, _, _, _, h⟩ := sendResult_parts i n s f b d; rw [h]
@[simp] theorem sendResult_key_pipes (i n s f : Nat) (b : Bytes) (d : Die) :
    (sendResult i n s f b d).key.pipes = d.key.pipes :=
  by obtain ⟨_, _, _, _, _, _, h⟩ := sendResult_parts i n s f b d; rw [h]
@[simp] theorem sendResult_key_identityOk (i n s f : Nat) (b : Bytes) (d : Die) :
    (sendResult i n s f b d).key.identityOk = d.key.identityOk :=
  by obtain ⟨_, _, _, _, _, _, h⟩ := sendResult_parts i n s f b d; rw [h]
@[simp] theorem sendResult_key_rpmbOk (i n s f : Nat) (b : Bytes) (d : Die) :
    (sendResult i n s f b d).key.rpmbOk = d.key.rpmbOk :=
  by obtain ⟨_, _, _, _, _, _, h⟩ := sendResult_parts i n s f b d; rw [h]
@[simp] theorem sendResult_key_storageNew (i n s f : Nat) (b : Bytes) (d : Die) :
    (sendResult i n s f b d).key.storageNew = d.key.storageNew :=
  by obtain ⟨_, _, _, _, _, _, h⟩ := sendResult_parts i n s f b d; rw [h]
@[simp] theorem sendResult_key_debug (i n s f : Nat) (b : Bytes) (d : Die) :
    (sendResult i n s f b d).key.debug = d.key.debug :=
  by obtain ⟨_, _, _, _, _, _, h⟩ := sendResult_parts i n s f b d; rw [h]
@[simp] theorem sendResult_key_nonce (i n s f : Nat) (b : Bytes) (d : Die) :
    (sendResult i n s f b d).key.nonce = d.key.nonce :=
  by obtain ⟨_, _, _, _, _, _, h⟩ := sendResult_parts i n s f b d; rw [h]
@[simp] theorem sendResult_key_trust (i n s f : Nat) (b : Bytes) (d : Die) :
    (sendResult i n s f b d).key.trust = d.key.trust :=
  by obtain ⟨_, _, _, _, _, _, h⟩ := sendResult_parts i n s f b d; rw [h]
@[simp] theorem sendResult_key_step (i n s f : Nat) (b : Bytes) (d : Die) :
    (sendResult i n s f b d).key.step = d.key.step :=
  by obtain ⟨_, _, _, _, _, _, h⟩ := sendResult_parts i n s f b d; rw [h]
@[simp] theorem sendResult_key_cause (i n s f : Nat) (b : Bytes) (d : Die) :
    (sendResult i n s f b d).key.cause = d.key.cause :=
  by obtain ⟨_, _, _, _, _, _, h⟩ := sendResult_parts i n s f b d; rw [h]
@[simp] theorem sendResult_key_corrected (i n s f : Nat) (b : Bytes) (d : Die) :
    (sendResult i n s f b d).key.corrected = d.key.corrected :=
  by obtain ⟨_, _, _, _, _, _, h⟩ := sendResult_parts i n s f b d; rw [h]
@[simp] theorem sendResult_key_nextId (i n s f : Nat) (b : Bytes) (d : Die) :
    (sendResult i n s f b d).key.nextId = d.key.nextId :=
  by obtain ⟨_, _, _, _, _, _, h⟩ := sendResult_parts i n s f b d; rw [h]
@[simp] theorem sendResult_key_opens (i n s f : Nat) (b : Bytes) (d : Die) :
    (sendResult i n s f b d).key.opens = d.key.opens :=
  by obtain ⟨_, _, _, _, _, _, h⟩ := sendResult_parts i n s f b d; rw [h]
@[simp] theorem sendResult_key_writes (i n s f : Nat) (b : Bytes) (d : Die) :
    (sendResult i n s f b d).key.writes = d.key.writes :=
  by obtain ⟨_, _, _, _, _, _, h⟩ := sendResult_parts i n s f b d; rw [h]
@[simp] theorem sendResult_key_bulk (i n s f : Nat) (b : Bytes) (d : Die) :
    (sendResult i n s f b d).key.bulk = d.key.bulk :=
  by obtain ⟨_, _, _, _, _, _, h⟩ := sendResult_parts i n s f b d; rw [h]
@[simp] theorem sendResult_key_image (i n s f : Nat) (b : Bytes) (d : Die) :
    (sendResult i n s f b d).key.image = d.key.image :=
  by obtain ⟨_, _, _, _, _, _, h⟩ := sendResult_parts i n s f b d; rw [h]
@[simp] theorem sendResult_key_flash (i n s f : Nat) (b : Bytes) (d : Die) :
    (sendResult i n s f b d).key.flash = d.key.flash :=
  by obtain ⟨_, _, _, _, _, _, h⟩ := sendResult_parts i n s f b d; rw [h]
@[simp] theorem sendResult_pel (i n s f : Nat) (b : Bytes) (d : Die) : (sendResult i n s f b d).pel = d.pel :=
  by obtain ⟨_, _, _, _, _, _, h⟩ := sendResult_parts i n s f b d; rw [h]
@[simp] theorem sendResult_descs (i n s f : Nat) (b : Bytes) (d : Die) : (sendResult i n s f b d).descs = d.descs :=
  by obtain ⟨_, _, _, _, _, _, h⟩ := sendResult_parts i n s f b d; rw [h]
@[simp] theorem sendResult_freeCtr (i n s f : Nat) (b : Bytes) (d : Die) :
    (sendResult i n s f b d).freeCtr = d.freeCtr :=
  by obtain ⟨_, _, _, _, _, _, h⟩ := sendResult_parts i n s f b d; rw [h]

/-! ## sendEvent -/

@[simp] theorem sendEvent_which (c v : Nat) (d : Die) : (sendEvent c v d).which = d.which :=
  by obtain ⟨_, _, _, _, _, _, h⟩ := sendEvent_parts c v d; rw [h]
@[simp] theorem sendEvent_phase (c v : Nat) (d : Die) : (sendEvent c v d).phase = d.phase :=
  by obtain ⟨_, _, _, _, _, _, h⟩ := sendEvent_parts c v d; rw [h]
@[simp] theorem sendEvent_phaseSlot (c v : Nat) (d : Die) : (sendEvent c v d).phaseSlot = d.phaseSlot :=
  by obtain ⟨_, _, _, _, _, _, h⟩ := sendEvent_parts c v d; rw [h]
@[simp] theorem sendEvent_regs_live (c v : Nat) (d : Die) : (sendEvent c v d).regs.live = d.regs.live :=
  by obtain ⟨_, _, _, _, _, _, h⟩ := sendEvent_parts c v d; rw [h]
@[simp] theorem sendEvent_regs_staged (c v : Nat) (d : Die) : (sendEvent c v d).regs.staged = d.regs.staged :=
  by obtain ⟨_, _, _, _, _, _, h⟩ := sendEvent_parts c v d; rw [h]
@[simp] theorem sendEvent_regs_late (c v : Nat) (d : Die) : (sendEvent c v d).regs.late = d.regs.late :=
  by obtain ⟨_, _, _, _, _, _, h⟩ := sendEvent_parts c v d; rw [h]
@[simp] theorem sendEvent_regs_held (c v : Nat) (d : Die) : (sendEvent c v d).regs.held = d.regs.held :=
  by obtain ⟨_, _, _, _, _, _, h⟩ := sendEvent_parts c v d; rw [h]
@[simp] theorem sendEvent_regs_cap (c v : Nat) (d : Die) : (sendEvent c v d).regs.cap = d.regs.cap :=
  by obtain ⟨_, _, _, _, _, _, h⟩ := sendEvent_parts c v d; rw [h]
@[simp] theorem sendEvent_regs_enabled (c v : Nat) (d : Die) : (sendEvent c v d).regs.enabled = d.regs.enabled :=
  by obtain ⟨_, _, _, _, _, _, h⟩ := sendEvent_parts c v d; rw [h]
@[simp] theorem sendEvent_wlk (c v : Nat) (d : Die) : (sendEvent c v d).wlk = d.wlk :=
  by obtain ⟨_, _, _, _, _, _, h⟩ := sendEvent_parts c v d; rw [h]
@[simp] theorem sendEvent_wrd (c v : Nat) (d : Die) : (sendEvent c v d).wrd = d.wrd :=
  by obtain ⟨_, _, _, _, _, _, h⟩ := sendEvent_parts c v d; rw [h]
@[simp] theorem sendEvent_chn (c v : Nat) (d : Die) : (sendEvent c v d).chn = d.chn :=
  by obtain ⟨_, _, _, _, _, _, h⟩ := sendEvent_parts c v d; rw [h]
@[simp] theorem sendEvent_rat (c v : Nat) (d : Die) : (sendEvent c v d).rat = d.rat :=
  by obtain ⟨_, _, _, _, _, _, h⟩ := sendEvent_parts c v d; rw [h]
@[simp] theorem sendEvent_adm (c v : Nat) (d : Die) : (sendEvent c v d).adm = d.adm :=
  by obtain ⟨_, _, _, _, _, _, h⟩ := sendEvent_parts c v d; rw [h]
@[simp] theorem sendEvent_cad (c v : Nat) (d : Die) : (sendEvent c v d).cad = d.cad :=
  by obtain ⟨_, _, _, _, _, _, h⟩ := sendEvent_parts c v d; rw [h]
@[simp] theorem sendEvent_sealing (c v : Nat) (d : Die) : (sendEvent c v d).sealing = d.sealing :=
  by obtain ⟨_, _, _, _, _, _, h⟩ := sendEvent_parts c v d; rw [h]
@[simp] theorem sendEvent_res (c v : Nat) (d : Die) : (sendEvent c v d).res = d.res :=
  by obtain ⟨_, _, _, _, _, _, h⟩ := sendEvent_parts c v d; rw [h]
@[simp] theorem sendEvent_bnd (c v : Nat) (d : Die) : (sendEvent c v d).bnd = d.bnd :=
  by obtain ⟨_, _, _, _, _, _, h⟩ := sendEvent_parts c v d; rw [h]
@[simp] theorem sendEvent_nle (c v : Nat) (d : Die) : (sendEvent c v d).nle = d.nle :=
  by obtain ⟨_, _, _, _, _, _, h⟩ := sendEvent_parts c v d; rw [h]
@[simp] theorem sendEvent_cwe (c v : Nat) (d : Die) : (sendEvent c v d).cwe = d.cwe :=
  by obtain ⟨_, _, _, _, _, _, h⟩ := sendEvent_parts c v d; rw [h]
@[simp] theorem sendEvent_snt (c v : Nat) (d : Die) : (sendEvent c v d).snt = d.snt :=
  by obtain ⟨_, _, _, _, _, _, h⟩ := sendEvent_parts c v d; rw [h]
@[simp] theorem sendEvent_shk (c v : Nat) (d : Die) : (sendEvent c v d).shk = d.shk :=
  by obtain ⟨_, _, _, _, _, _, h⟩ := sendEvent_parts c v d; rw [h]
@[simp] theorem sendEvent_sig (c v : Nat) (d : Die) : (sendEvent c v d).sig = d.sig :=
  by obtain ⟨_, _, _, _, _, _, h⟩ := sendEvent_parts c v d; rw [h]
@[simp] theorem sendEvent_vp (c v : Nat) (d : Die) : (sendEvent c v d).vp = d.vp :=
  by obtain ⟨_, _, _, _, _, _, h⟩ := sendEvent_parts c v d; rw [h]
@[simp] theorem sendEvent_spk (c v : Nat) (d : Die) : (sendEvent c v d).spk = d.spk :=
  by obtain ⟨_, _, _, _, _, _, h⟩ := sendEvent_parts c v d; rw [h]
@[simp] theorem sendEvent_dbg (c v : Nat) (d : Die) : (sendEvent c v d).dbg = d.dbg :=
  by obtain ⟨_, _, _, _, _, _, h⟩ := sendEvent_parts c v d; rw [h]
@[simp] theorem sendEvent_sntb (c v : Nat) (d : Die) : (sendEvent c v d).sntb = d.sntb :=
  by obtain ⟨_, _, _, _, _, _, h⟩ := sendEvent_parts c v d; rw [h]
@[simp] theorem sendEvent_tim (c v : Nat) (d : Die) : (sendEvent c v d).tim = d.tim :=
  by obtain ⟨_, _, _, _, _, _, h⟩ := sendEvent_parts c v d; rw [h]
@[simp] theorem sendEvent_ing (c v : Nat) (d : Die) : (sendEvent c v d).ing = d.ing :=
  by obtain ⟨_, _, _, _, _, _, h⟩ := sendEvent_parts c v d; rw [h]
@[simp] theorem sendEvent_wdn (c v : Nat) (d : Die) : (sendEvent c v d).wdn = d.wdn :=
  by obtain ⟨_, _, _, _, _, _, h⟩ := sendEvent_parts c v d; rw [h]
@[simp] theorem sendEvent_fcu_src (c v : Nat) (d : Die) : (sendEvent c v d).fcu.src = d.fcu.src :=
  by obtain ⟨_, _, _, _, _, _, h⟩ := sendEvent_parts c v d; rw [h]
@[simp] theorem sendEvent_fcu_sev (c v : Nat) (d : Die) : (sendEvent c v d).fcu.sev = d.fcu.sev :=
  by obtain ⟨_, _, _, _, _, _, h⟩ := sendEvent_parts c v d; rw [h]
@[simp] theorem sendEvent_fcu_first (c v : Nat) (d : Die) : (sendEvent c v d).fcu.first = d.fcu.first :=
  by obtain ⟨_, _, _, _, _, _, h⟩ := sendEvent_parts c v d; rw [h]
@[simp] theorem sendEvent_fcu_second (c v : Nat) (d : Die) : (sendEvent c v d).fcu.second = d.fcu.second :=
  by obtain ⟨_, _, _, _, _, _, h⟩ := sendEvent_parts c v d; rw [h]
@[simp] theorem sendEvent_fcu_echo (c v : Nat) (d : Die) : (sendEvent c v d).fcu.echo = d.fcu.echo :=
  by obtain ⟨_, _, _, _, _, _, h⟩ := sendEvent_parts c v d; rw [h]
@[simp] theorem sendEvent_fcu_asserted (c v : Nat) (d : Die) : (sendEvent c v d).fcu.asserted = d.fcu.asserted :=
  by obtain ⟨_, _, _, _, _, _, h⟩ := sendEvent_parts c v d; rw [h]
@[simp] theorem sendEvent_fcu_alive (c v : Nat) (d : Die) : (sendEvent c v d).fcu.alive = d.fcu.alive :=
  by obtain ⟨_, _, _, _, _, _, h⟩ := sendEvent_parts c v d; rw [h]
@[simp] theorem sendEvent_fcu_minRun (c v : Nat) (d : Die) : (sendEvent c v d).fcu.minRun = d.fcu.minRun :=
  by obtain ⟨_, _, _, _, _, _, h⟩ := sendEvent_parts c v d; rw [h]
@[simp] theorem sendEvent_fcu_acked (c v : Nat) (d : Die) : (sendEvent c v d).fcu.acked = d.fcu.acked :=
  by obtain ⟨_, _, _, _, _, _, h⟩ := sendEvent_parts c v d; rw [h]
@[simp] theorem sendEvent_fcu_stopped (c v : Nat) (d : Die) : (sendEvent c v d).fcu.stopped = d.fcu.stopped :=
  by obtain ⟨_, _, _, _, _, _, h⟩ := sendEvent_parts c v d; rw [h]
@[simp] theorem sendEvent_fcu_hold (c v : Nat) (d : Die) : (sendEvent c v d).fcu.hold = d.fcu.hold :=
  by obtain ⟨_, _, _, _, _, _, h⟩ := sendEvent_parts c v d; rw [h]
@[simp] theorem sendEvent_fcu_sysHold (c v : Nat) (d : Die) : (sendEvent c v d).fcu.sysHold = d.fcu.sysHold :=
  by obtain ⟨_, _, _, _, _, _, h⟩ := sendEvent_parts c v d; rw [h]
@[simp] theorem sendEvent_fcu_entries (c v : Nat) (d : Die) : (sendEvent c v d).fcu.entries = d.fcu.entries :=
  by obtain ⟨_, _, _, _, _, _, h⟩ := sendEvent_parts c v d; rw [h]
@[simp] theorem sendEvent_fcu_lastSrc (c v : Nat) (d : Die) : (sendEvent c v d).fcu.lastSrc = d.fcu.lastSrc :=
  by obtain ⟨_, _, _, _, _, _, h⟩ := sendEvent_parts c v d; rw [h]
@[simp] theorem sendEvent_fcu_held (c v : Nat) (d : Die) : (sendEvent c v d).fcu.held = d.fcu.held :=
  by obtain ⟨_, _, _, _, _, _, h⟩ := sendEvent_parts c v d; rw [h]
@[simp] theorem sendEvent_fcu_entryNs (c v : Nat) (d : Die) : (sendEvent c v d).fcu.entryNs = d.fcu.entryNs :=
  by obtain ⟨_, _, _, _, _, _, h⟩ := sendEvent_parts c v d; rw [h]
@[simp] theorem sendEvent_fcu_step (c v : Nat) (d : Die) : (sendEvent c v d).fcu.step = d.fcu.step :=
  by obtain ⟨_, _, _, _, _, _, h⟩ := sendEvent_parts c v d; rw [h]
@[simp] theorem sendEvent_fcu_clkLost (c v : Nat) (d : Die) : (sendEvent c v d).fcu.clkLost = d.fcu.clkLost :=
  by obtain ⟨_, _, _, _, _, _, h⟩ := sendEvent_parts c v d; rw [h]
@[simp] theorem sendEvent_fcu_parityBad (c v : Nat) (d : Die) : (sendEvent c v d).fcu.parityBad = d.fcu.parityBad :=
  by obtain ⟨_, _, _, _, _, _, h⟩ := sendEvent_parts c v d; rw [h]
@[simp] theorem sendEvent_fcu_railBad (c v : Nat) (d : Die) : (sendEvent c v d).fcu.railBad = d.fcu.railBad :=
  by obtain ⟨_, _, _, _, _, _, h⟩ := sendEvent_parts c v d; rw [h]
@[simp] theorem sendEvent_fcu_stalled (c v : Nat) (d : Die) : (sendEvent c v d).fcu.stalled = d.fcu.stalled :=
  by obtain ⟨_, _, _, _, _, _, h⟩ := sendEvent_parts c v d; rw [h]
@[simp] theorem sendEvent_fcu_sysclkOk (c v : Nat) (d : Die) : (sendEvent c v d).fcu.sysclkOk = d.fcu.sysclkOk :=
  by obtain ⟨_, _, _, _, _, _, h⟩ := sendEvent_parts c v d; rw [h]
@[simp] theorem sendEvent_fcu_tj (c v : Nat) (d : Die) : (sendEvent c v d).fcu.tj = d.fcu.tj :=
  by obtain ⟨_, _, _, _, _, _, h⟩ := sendEvent_parts c v d; rw [h]
@[simp] theorem sendEvent_fcu_tjPeak (c v : Nat) (d : Die) : (sendEvent c v d).fcu.tjPeak = d.fcu.tjPeak :=
  by obtain ⟨_, _, _, _, _, _, h⟩ := sendEvent_parts c v d; rw [h]
@[simp] theorem sendEvent_mem (c v : Nat) (d : Die) : (sendEvent c v d).mem = d.mem :=
  by obtain ⟨_, _, _, _, _, _, h⟩ := sendEvent_parts c v d; rw [h]
@[simp] theorem sendEvent_key_seed (c v : Nat) (d : Die) : (sendEvent c v d).key.seed = d.key.seed :=
  by obtain ⟨_, _, _, _, _, _, h⟩ := sendEvent_parts c v d; rw [h]
@[simp] theorem sendEvent_key_idSecret (c v : Nat) (d : Die) : (sendEvent c v d).key.idSecret = d.key.idSecret :=
  by obtain ⟨_, _, _, _, _, _, h⟩ := sendEvent_parts c v d; rw [h]
@[simp] theorem sendEvent_key_idPublic (c v : Nat) (d : Die) : (sendEvent c v d).key.idPublic = d.key.idPublic :=
  by obtain ⟨_, _, _, _, _, _, h⟩ := sendEvent_parts c v d; rw [h]
@[simp] theorem sendEvent_key_device (c v : Nat) (d : Die) : (sendEvent c v d).key.device = d.key.device :=
  by obtain ⟨_, _, _, _, _, _, h⟩ := sendEvent_parts c v d; rw [h]
@[simp] theorem sendEvent_key_rpmb (c v : Nat) (d : Die) : (sendEvent c v d).key.rpmb = d.key.rpmb :=
  by obtain ⟨_, _, _, _, _, _, h⟩ := sendEvent_parts c v d; rw [h]
@[simp] theorem sendEvent_key_bind (c v : Nat) (d : Die) : (sendEvent c v d).key.bind = d.key.bind :=
  by obtain ⟨_, _, _, _, _, _, h⟩ := sendEvent_parts c v d; rw [h]
@[simp] theorem sendEvent_key_fwVersion (c v : Nat) (d : Die) : (sendEvent c v d).key.fwVersion = d.key.fwVersion :=
  by obtain ⟨_, _, _, _, _, _, h⟩ := sendEvent_parts c v d; rw [h]
@[simp] theorem sendEvent_key_fwSlot (c v : Nat) (d : Die) : (sendEvent c v d).key.fwSlot = d.key.fwSlot :=
  by obtain ⟨_, _, _, _, _, _, h⟩ := sendEvent_parts c v d; rw [h]
@[simp] theorem sendEvent_key_fwSvn (c v : Nat) (d : Die) : (sendEvent c v d).key.fwSvn = d.key.fwSvn :=
  by obtain ⟨_, _, _, _, _, _, h⟩ := sendEvent_parts c v d; rw [h]
@[simp] theorem sendEvent_key_mapPayload (c v : Nat) (d : Die) : (sendEvent c v d).key.mapPayload = d.key.mapPayload :=
  by obtain ⟨_, _, _, _, _, _, h⟩ := sendEvent_parts c v d; rw [h]
@[simp] theorem sendEvent_key_mapDigest (c v : Nat) (d : Die) : (sendEvent c v d).key.mapDigest = d.key.mapDigest :=
  by obtain ⟨_, _, _, _, _, _, h⟩ := sendEvent_parts c v d; rw [h]
@[simp] theorem sendEvent_key_ext (c v : Nat) (d : Die) : (sendEvent c v d).key.ext = d.key.ext :=
  by obtain ⟨_, _, _, _, _, _, h⟩ := sendEvent_parts c v d; rw [h]
@[simp] theorem sendEvent_key_grade (c v : Nat) (d : Die) : (sendEvent c v d).key.grade = d.key.grade :=
  by obtain ⟨_, _, _, _, _, _, h⟩ := sendEvent_parts c v d; rw [h]
@[simp] theorem sendEvent_key_pipes (c v : Nat) (d : Die) : (sendEvent c v d).key.pipes = d.key.pipes :=
  by obtain ⟨_, _, _, _, _, _, h⟩ := sendEvent_parts c v d; rw [h]
@[simp] theorem sendEvent_key_identityOk (c v : Nat) (d : Die) : (sendEvent c v d).key.identityOk = d.key.identityOk :=
  by obtain ⟨_, _, _, _, _, _, h⟩ := sendEvent_parts c v d; rw [h]
@[simp] theorem sendEvent_key_rpmbOk (c v : Nat) (d : Die) : (sendEvent c v d).key.rpmbOk = d.key.rpmbOk :=
  by obtain ⟨_, _, _, _, _, _, h⟩ := sendEvent_parts c v d; rw [h]
@[simp] theorem sendEvent_key_storageNew (c v : Nat) (d : Die) : (sendEvent c v d).key.storageNew = d.key.storageNew :=
  by obtain ⟨_, _, _, _, _, _, h⟩ := sendEvent_parts c v d; rw [h]
@[simp] theorem sendEvent_key_debug (c v : Nat) (d : Die) : (sendEvent c v d).key.debug = d.key.debug :=
  by obtain ⟨_, _, _, _, _, _, h⟩ := sendEvent_parts c v d; rw [h]
@[simp] theorem sendEvent_key_nonce (c v : Nat) (d : Die) : (sendEvent c v d).key.nonce = d.key.nonce :=
  by obtain ⟨_, _, _, _, _, _, h⟩ := sendEvent_parts c v d; rw [h]
@[simp] theorem sendEvent_key_trust (c v : Nat) (d : Die) : (sendEvent c v d).key.trust = d.key.trust :=
  by obtain ⟨_, _, _, _, _, _, h⟩ := sendEvent_parts c v d; rw [h]
@[simp] theorem sendEvent_key_step (c v : Nat) (d : Die) : (sendEvent c v d).key.step = d.key.step :=
  by obtain ⟨_, _, _, _, _, _, h⟩ := sendEvent_parts c v d; rw [h]
@[simp] theorem sendEvent_key_cause (c v : Nat) (d : Die) : (sendEvent c v d).key.cause = d.key.cause :=
  by obtain ⟨_, _, _, _, _, _, h⟩ := sendEvent_parts c v d; rw [h]
@[simp] theorem sendEvent_key_corrected (c v : Nat) (d : Die) : (sendEvent c v d).key.corrected = d.key.corrected :=
  by obtain ⟨_, _, _, _, _, _, h⟩ := sendEvent_parts c v d; rw [h]
@[simp] theorem sendEvent_key_nextId (c v : Nat) (d : Die) : (sendEvent c v d).key.nextId = d.key.nextId :=
  by obtain ⟨_, _, _, _, _, _, h⟩ := sendEvent_parts c v d; rw [h]
@[simp] theorem sendEvent_key_opens (c v : Nat) (d : Die) : (sendEvent c v d).key.opens = d.key.opens :=
  by obtain ⟨_, _, _, _, _, _, h⟩ := sendEvent_parts c v d; rw [h]
@[simp] theorem sendEvent_key_writes (c v : Nat) (d : Die) : (sendEvent c v d).key.writes = d.key.writes :=
  by obtain ⟨_, _, _, _, _, _, h⟩ := sendEvent_parts c v d; rw [h]
@[simp] theorem sendEvent_key_bulk (c v : Nat) (d : Die) : (sendEvent c v d).key.bulk = d.key.bulk :=
  by obtain ⟨_, _, _, _, _, _, h⟩ := sendEvent_parts c v d; rw [h]
@[simp] theorem sendEvent_key_image (c v : Nat) (d : Die) : (sendEvent c v d).key.image = d.key.image :=
  by obtain ⟨_, _, _, _, _, _, h⟩ := sendEvent_parts c v d; rw [h]
@[simp] theorem sendEvent_key_flash (c v : Nat) (d : Die) : (sendEvent c v d).key.flash = d.key.flash :=
  by obtain ⟨_, _, _, _, _, _, h⟩ := sendEvent_parts c v d; rw [h]
@[simp] theorem sendEvent_pel (c v : Nat) (d : Die) : (sendEvent c v d).pel = d.pel :=
  by obtain ⟨_, _, _, _, _, _, h⟩ := sendEvent_parts c v d; rw [h]
@[simp] theorem sendEvent_descs (c v : Nat) (d : Die) : (sendEvent c v d).descs = d.descs :=
  by obtain ⟨_, _, _, _, _, _, h⟩ := sendEvent_parts c v d; rw [h]
@[simp] theorem sendEvent_freeCtr (c v : Nat) (d : Die) : (sendEvent c v d).freeCtr = d.freeCtr :=
  by obtain ⟨_, _, _, _, _, _, h⟩ := sendEvent_parts c v d; rw [h]

/-! ## sendSeal -/

@[simp] theorem sendSeal_which (n : Nat) (b : Bytes) (d : Die) : (sendSeal n b d).which = d.which :=
  by obtain ⟨_, _, _, _, _, _, h⟩ := sendSeal_parts n b d; rw [h]
@[simp] theorem sendSeal_phase (n : Nat) (b : Bytes) (d : Die) : (sendSeal n b d).phase = d.phase :=
  by obtain ⟨_, _, _, _, _, _, h⟩ := sendSeal_parts n b d; rw [h]
@[simp] theorem sendSeal_phaseSlot (n : Nat) (b : Bytes) (d : Die) : (sendSeal n b d).phaseSlot = d.phaseSlot :=
  by obtain ⟨_, _, _, _, _, _, h⟩ := sendSeal_parts n b d; rw [h]
@[simp] theorem sendSeal_regs_live (n : Nat) (b : Bytes) (d : Die) : (sendSeal n b d).regs.live = d.regs.live :=
  by obtain ⟨_, _, _, _, _, _, h⟩ := sendSeal_parts n b d; rw [h]
@[simp] theorem sendSeal_regs_staged (n : Nat) (b : Bytes) (d : Die) : (sendSeal n b d).regs.staged = d.regs.staged :=
  by obtain ⟨_, _, _, _, _, _, h⟩ := sendSeal_parts n b d; rw [h]
@[simp] theorem sendSeal_regs_late (n : Nat) (b : Bytes) (d : Die) : (sendSeal n b d).regs.late = d.regs.late :=
  by obtain ⟨_, _, _, _, _, _, h⟩ := sendSeal_parts n b d; rw [h]
@[simp] theorem sendSeal_regs_held (n : Nat) (b : Bytes) (d : Die) : (sendSeal n b d).regs.held = d.regs.held :=
  by obtain ⟨_, _, _, _, _, _, h⟩ := sendSeal_parts n b d; rw [h]
@[simp] theorem sendSeal_regs_cap (n : Nat) (b : Bytes) (d : Die) : (sendSeal n b d).regs.cap = d.regs.cap :=
  by obtain ⟨_, _, _, _, _, _, h⟩ := sendSeal_parts n b d; rw [h]
@[simp] theorem sendSeal_regs_enabled (n : Nat) (b : Bytes) (d : Die) :
    (sendSeal n b d).regs.enabled = d.regs.enabled :=
  by obtain ⟨_, _, _, _, _, _, h⟩ := sendSeal_parts n b d; rw [h]
@[simp] theorem sendSeal_wlk (n : Nat) (b : Bytes) (d : Die) : (sendSeal n b d).wlk = d.wlk :=
  by obtain ⟨_, _, _, _, _, _, h⟩ := sendSeal_parts n b d; rw [h]
@[simp] theorem sendSeal_wrd (n : Nat) (b : Bytes) (d : Die) : (sendSeal n b d).wrd = d.wrd :=
  by obtain ⟨_, _, _, _, _, _, h⟩ := sendSeal_parts n b d; rw [h]
@[simp] theorem sendSeal_chn (n : Nat) (b : Bytes) (d : Die) : (sendSeal n b d).chn = d.chn :=
  by obtain ⟨_, _, _, _, _, _, h⟩ := sendSeal_parts n b d; rw [h]
@[simp] theorem sendSeal_rat (n : Nat) (b : Bytes) (d : Die) : (sendSeal n b d).rat = d.rat :=
  by obtain ⟨_, _, _, _, _, _, h⟩ := sendSeal_parts n b d; rw [h]
@[simp] theorem sendSeal_adm (n : Nat) (b : Bytes) (d : Die) : (sendSeal n b d).adm = d.adm :=
  by obtain ⟨_, _, _, _, _, _, h⟩ := sendSeal_parts n b d; rw [h]
@[simp] theorem sendSeal_cad (n : Nat) (b : Bytes) (d : Die) : (sendSeal n b d).cad = d.cad :=
  by obtain ⟨_, _, _, _, _, _, h⟩ := sendSeal_parts n b d; rw [h]
@[simp] theorem sendSeal_sealing (n : Nat) (b : Bytes) (d : Die) : (sendSeal n b d).sealing = d.sealing :=
  by obtain ⟨_, _, _, _, _, _, h⟩ := sendSeal_parts n b d; rw [h]
@[simp] theorem sendSeal_res (n : Nat) (b : Bytes) (d : Die) : (sendSeal n b d).res = d.res :=
  by obtain ⟨_, _, _, _, _, _, h⟩ := sendSeal_parts n b d; rw [h]
@[simp] theorem sendSeal_bnd (n : Nat) (b : Bytes) (d : Die) : (sendSeal n b d).bnd = d.bnd :=
  by obtain ⟨_, _, _, _, _, _, h⟩ := sendSeal_parts n b d; rw [h]
@[simp] theorem sendSeal_nle (n : Nat) (b : Bytes) (d : Die) : (sendSeal n b d).nle = d.nle :=
  by obtain ⟨_, _, _, _, _, _, h⟩ := sendSeal_parts n b d; rw [h]
@[simp] theorem sendSeal_cwe (n : Nat) (b : Bytes) (d : Die) : (sendSeal n b d).cwe = d.cwe :=
  by obtain ⟨_, _, _, _, _, _, h⟩ := sendSeal_parts n b d; rw [h]
@[simp] theorem sendSeal_snt (n : Nat) (b : Bytes) (d : Die) : (sendSeal n b d).snt = d.snt :=
  by obtain ⟨_, _, _, _, _, _, h⟩ := sendSeal_parts n b d; rw [h]
@[simp] theorem sendSeal_shk (n : Nat) (b : Bytes) (d : Die) : (sendSeal n b d).shk = d.shk :=
  by obtain ⟨_, _, _, _, _, _, h⟩ := sendSeal_parts n b d; rw [h]
@[simp] theorem sendSeal_sig (n : Nat) (b : Bytes) (d : Die) : (sendSeal n b d).sig = d.sig :=
  by obtain ⟨_, _, _, _, _, _, h⟩ := sendSeal_parts n b d; rw [h]
@[simp] theorem sendSeal_vp (n : Nat) (b : Bytes) (d : Die) : (sendSeal n b d).vp = d.vp :=
  by obtain ⟨_, _, _, _, _, _, h⟩ := sendSeal_parts n b d; rw [h]
@[simp] theorem sendSeal_spk (n : Nat) (b : Bytes) (d : Die) : (sendSeal n b d).spk = d.spk :=
  by obtain ⟨_, _, _, _, _, _, h⟩ := sendSeal_parts n b d; rw [h]
@[simp] theorem sendSeal_dbg (n : Nat) (b : Bytes) (d : Die) : (sendSeal n b d).dbg = d.dbg :=
  by obtain ⟨_, _, _, _, _, _, h⟩ := sendSeal_parts n b d; rw [h]
@[simp] theorem sendSeal_sntb (n : Nat) (b : Bytes) (d : Die) : (sendSeal n b d).sntb = d.sntb :=
  by obtain ⟨_, _, _, _, _, _, h⟩ := sendSeal_parts n b d; rw [h]
@[simp] theorem sendSeal_tim (n : Nat) (b : Bytes) (d : Die) : (sendSeal n b d).tim = d.tim :=
  by obtain ⟨_, _, _, _, _, _, h⟩ := sendSeal_parts n b d; rw [h]
@[simp] theorem sendSeal_ing (n : Nat) (b : Bytes) (d : Die) : (sendSeal n b d).ing = d.ing :=
  by obtain ⟨_, _, _, _, _, _, h⟩ := sendSeal_parts n b d; rw [h]
@[simp] theorem sendSeal_wdn (n : Nat) (b : Bytes) (d : Die) : (sendSeal n b d).wdn = d.wdn :=
  by obtain ⟨_, _, _, _, _, _, h⟩ := sendSeal_parts n b d; rw [h]
@[simp] theorem sendSeal_fcu_src (n : Nat) (b : Bytes) (d : Die) : (sendSeal n b d).fcu.src = d.fcu.src :=
  by obtain ⟨_, _, _, _, _, _, h⟩ := sendSeal_parts n b d; rw [h]
@[simp] theorem sendSeal_fcu_sev (n : Nat) (b : Bytes) (d : Die) : (sendSeal n b d).fcu.sev = d.fcu.sev :=
  by obtain ⟨_, _, _, _, _, _, h⟩ := sendSeal_parts n b d; rw [h]
@[simp] theorem sendSeal_fcu_first (n : Nat) (b : Bytes) (d : Die) : (sendSeal n b d).fcu.first = d.fcu.first :=
  by obtain ⟨_, _, _, _, _, _, h⟩ := sendSeal_parts n b d; rw [h]
@[simp] theorem sendSeal_fcu_second (n : Nat) (b : Bytes) (d : Die) : (sendSeal n b d).fcu.second = d.fcu.second :=
  by obtain ⟨_, _, _, _, _, _, h⟩ := sendSeal_parts n b d; rw [h]
@[simp] theorem sendSeal_fcu_echo (n : Nat) (b : Bytes) (d : Die) : (sendSeal n b d).fcu.echo = d.fcu.echo :=
  by obtain ⟨_, _, _, _, _, _, h⟩ := sendSeal_parts n b d; rw [h]
@[simp] theorem sendSeal_fcu_asserted (n : Nat) (b : Bytes) (d : Die) :
    (sendSeal n b d).fcu.asserted = d.fcu.asserted :=
  by obtain ⟨_, _, _, _, _, _, h⟩ := sendSeal_parts n b d; rw [h]
@[simp] theorem sendSeal_fcu_alive (n : Nat) (b : Bytes) (d : Die) : (sendSeal n b d).fcu.alive = d.fcu.alive :=
  by obtain ⟨_, _, _, _, _, _, h⟩ := sendSeal_parts n b d; rw [h]
@[simp] theorem sendSeal_fcu_minRun (n : Nat) (b : Bytes) (d : Die) : (sendSeal n b d).fcu.minRun = d.fcu.minRun :=
  by obtain ⟨_, _, _, _, _, _, h⟩ := sendSeal_parts n b d; rw [h]
@[simp] theorem sendSeal_fcu_acked (n : Nat) (b : Bytes) (d : Die) : (sendSeal n b d).fcu.acked = d.fcu.acked :=
  by obtain ⟨_, _, _, _, _, _, h⟩ := sendSeal_parts n b d; rw [h]
@[simp] theorem sendSeal_fcu_stopped (n : Nat) (b : Bytes) (d : Die) : (sendSeal n b d).fcu.stopped = d.fcu.stopped :=
  by obtain ⟨_, _, _, _, _, _, h⟩ := sendSeal_parts n b d; rw [h]
@[simp] theorem sendSeal_fcu_hold (n : Nat) (b : Bytes) (d : Die) : (sendSeal n b d).fcu.hold = d.fcu.hold :=
  by obtain ⟨_, _, _, _, _, _, h⟩ := sendSeal_parts n b d; rw [h]
@[simp] theorem sendSeal_fcu_sysHold (n : Nat) (b : Bytes) (d : Die) : (sendSeal n b d).fcu.sysHold = d.fcu.sysHold :=
  by obtain ⟨_, _, _, _, _, _, h⟩ := sendSeal_parts n b d; rw [h]
@[simp] theorem sendSeal_fcu_entries (n : Nat) (b : Bytes) (d : Die) : (sendSeal n b d).fcu.entries = d.fcu.entries :=
  by obtain ⟨_, _, _, _, _, _, h⟩ := sendSeal_parts n b d; rw [h]
@[simp] theorem sendSeal_fcu_lastSrc (n : Nat) (b : Bytes) (d : Die) : (sendSeal n b d).fcu.lastSrc = d.fcu.lastSrc :=
  by obtain ⟨_, _, _, _, _, _, h⟩ := sendSeal_parts n b d; rw [h]
@[simp] theorem sendSeal_fcu_held (n : Nat) (b : Bytes) (d : Die) : (sendSeal n b d).fcu.held = d.fcu.held :=
  by obtain ⟨_, _, _, _, _, _, h⟩ := sendSeal_parts n b d; rw [h]
@[simp] theorem sendSeal_fcu_entryNs (n : Nat) (b : Bytes) (d : Die) : (sendSeal n b d).fcu.entryNs = d.fcu.entryNs :=
  by obtain ⟨_, _, _, _, _, _, h⟩ := sendSeal_parts n b d; rw [h]
@[simp] theorem sendSeal_fcu_step (n : Nat) (b : Bytes) (d : Die) : (sendSeal n b d).fcu.step = d.fcu.step :=
  by obtain ⟨_, _, _, _, _, _, h⟩ := sendSeal_parts n b d; rw [h]
@[simp] theorem sendSeal_fcu_clkLost (n : Nat) (b : Bytes) (d : Die) : (sendSeal n b d).fcu.clkLost = d.fcu.clkLost :=
  by obtain ⟨_, _, _, _, _, _, h⟩ := sendSeal_parts n b d; rw [h]
@[simp] theorem sendSeal_fcu_parityBad (n : Nat) (b : Bytes) (d : Die) :
    (sendSeal n b d).fcu.parityBad = d.fcu.parityBad :=
  by obtain ⟨_, _, _, _, _, _, h⟩ := sendSeal_parts n b d; rw [h]
@[simp] theorem sendSeal_fcu_railBad (n : Nat) (b : Bytes) (d : Die) : (sendSeal n b d).fcu.railBad = d.fcu.railBad :=
  by obtain ⟨_, _, _, _, _, _, h⟩ := sendSeal_parts n b d; rw [h]
@[simp] theorem sendSeal_fcu_stalled (n : Nat) (b : Bytes) (d : Die) : (sendSeal n b d).fcu.stalled = d.fcu.stalled :=
  by obtain ⟨_, _, _, _, _, _, h⟩ := sendSeal_parts n b d; rw [h]
@[simp] theorem sendSeal_fcu_sysclkOk (n : Nat) (b : Bytes) (d : Die) :
    (sendSeal n b d).fcu.sysclkOk = d.fcu.sysclkOk :=
  by obtain ⟨_, _, _, _, _, _, h⟩ := sendSeal_parts n b d; rw [h]
@[simp] theorem sendSeal_fcu_tj (n : Nat) (b : Bytes) (d : Die) : (sendSeal n b d).fcu.tj = d.fcu.tj :=
  by obtain ⟨_, _, _, _, _, _, h⟩ := sendSeal_parts n b d; rw [h]
@[simp] theorem sendSeal_fcu_tjPeak (n : Nat) (b : Bytes) (d : Die) : (sendSeal n b d).fcu.tjPeak = d.fcu.tjPeak :=
  by obtain ⟨_, _, _, _, _, _, h⟩ := sendSeal_parts n b d; rw [h]
@[simp] theorem sendSeal_mem (n : Nat) (b : Bytes) (d : Die) : (sendSeal n b d).mem = d.mem :=
  by obtain ⟨_, _, _, _, _, _, h⟩ := sendSeal_parts n b d; rw [h]
@[simp] theorem sendSeal_key_seed (n : Nat) (b : Bytes) (d : Die) : (sendSeal n b d).key.seed = d.key.seed :=
  by obtain ⟨_, _, _, _, _, _, h⟩ := sendSeal_parts n b d; rw [h]
@[simp] theorem sendSeal_key_idSecret (n : Nat) (b : Bytes) (d : Die) :
    (sendSeal n b d).key.idSecret = d.key.idSecret :=
  by obtain ⟨_, _, _, _, _, _, h⟩ := sendSeal_parts n b d; rw [h]
@[simp] theorem sendSeal_key_idPublic (n : Nat) (b : Bytes) (d : Die) :
    (sendSeal n b d).key.idPublic = d.key.idPublic :=
  by obtain ⟨_, _, _, _, _, _, h⟩ := sendSeal_parts n b d; rw [h]
@[simp] theorem sendSeal_key_device (n : Nat) (b : Bytes) (d : Die) : (sendSeal n b d).key.device = d.key.device :=
  by obtain ⟨_, _, _, _, _, _, h⟩ := sendSeal_parts n b d; rw [h]
@[simp] theorem sendSeal_key_rpmb (n : Nat) (b : Bytes) (d : Die) : (sendSeal n b d).key.rpmb = d.key.rpmb :=
  by obtain ⟨_, _, _, _, _, _, h⟩ := sendSeal_parts n b d; rw [h]
@[simp] theorem sendSeal_key_bind (n : Nat) (b : Bytes) (d : Die) : (sendSeal n b d).key.bind = d.key.bind :=
  by obtain ⟨_, _, _, _, _, _, h⟩ := sendSeal_parts n b d; rw [h]
@[simp] theorem sendSeal_key_fwVersion (n : Nat) (b : Bytes) (d : Die) :
    (sendSeal n b d).key.fwVersion = d.key.fwVersion :=
  by obtain ⟨_, _, _, _, _, _, h⟩ := sendSeal_parts n b d; rw [h]
@[simp] theorem sendSeal_key_fwSlot (n : Nat) (b : Bytes) (d : Die) : (sendSeal n b d).key.fwSlot = d.key.fwSlot :=
  by obtain ⟨_, _, _, _, _, _, h⟩ := sendSeal_parts n b d; rw [h]
@[simp] theorem sendSeal_key_fwSvn (n : Nat) (b : Bytes) (d : Die) : (sendSeal n b d).key.fwSvn = d.key.fwSvn :=
  by obtain ⟨_, _, _, _, _, _, h⟩ := sendSeal_parts n b d; rw [h]
@[simp] theorem sendSeal_key_mapPayload (n : Nat) (b : Bytes) (d : Die) :
    (sendSeal n b d).key.mapPayload = d.key.mapPayload :=
  by obtain ⟨_, _, _, _, _, _, h⟩ := sendSeal_parts n b d; rw [h]
@[simp] theorem sendSeal_key_mapDigest (n : Nat) (b : Bytes) (d : Die) :
    (sendSeal n b d).key.mapDigest = d.key.mapDigest :=
  by obtain ⟨_, _, _, _, _, _, h⟩ := sendSeal_parts n b d; rw [h]
@[simp] theorem sendSeal_key_ext (n : Nat) (b : Bytes) (d : Die) : (sendSeal n b d).key.ext = d.key.ext :=
  by obtain ⟨_, _, _, _, _, _, h⟩ := sendSeal_parts n b d; rw [h]
@[simp] theorem sendSeal_key_grade (n : Nat) (b : Bytes) (d : Die) : (sendSeal n b d).key.grade = d.key.grade :=
  by obtain ⟨_, _, _, _, _, _, h⟩ := sendSeal_parts n b d; rw [h]
@[simp] theorem sendSeal_key_pipes (n : Nat) (b : Bytes) (d : Die) : (sendSeal n b d).key.pipes = d.key.pipes :=
  by obtain ⟨_, _, _, _, _, _, h⟩ := sendSeal_parts n b d; rw [h]
@[simp] theorem sendSeal_key_identityOk (n : Nat) (b : Bytes) (d : Die) :
    (sendSeal n b d).key.identityOk = d.key.identityOk :=
  by obtain ⟨_, _, _, _, _, _, h⟩ := sendSeal_parts n b d; rw [h]
@[simp] theorem sendSeal_key_rpmbOk (n : Nat) (b : Bytes) (d : Die) : (sendSeal n b d).key.rpmbOk = d.key.rpmbOk :=
  by obtain ⟨_, _, _, _, _, _, h⟩ := sendSeal_parts n b d; rw [h]
@[simp] theorem sendSeal_key_storageNew (n : Nat) (b : Bytes) (d : Die) :
    (sendSeal n b d).key.storageNew = d.key.storageNew :=
  by obtain ⟨_, _, _, _, _, _, h⟩ := sendSeal_parts n b d; rw [h]
@[simp] theorem sendSeal_key_debug (n : Nat) (b : Bytes) (d : Die) : (sendSeal n b d).key.debug = d.key.debug :=
  by obtain ⟨_, _, _, _, _, _, h⟩ := sendSeal_parts n b d; rw [h]
@[simp] theorem sendSeal_key_nonce (n : Nat) (b : Bytes) (d : Die) : (sendSeal n b d).key.nonce = d.key.nonce :=
  by obtain ⟨_, _, _, _, _, _, h⟩ := sendSeal_parts n b d; rw [h]
@[simp] theorem sendSeal_key_trust (n : Nat) (b : Bytes) (d : Die) : (sendSeal n b d).key.trust = d.key.trust :=
  by obtain ⟨_, _, _, _, _, _, h⟩ := sendSeal_parts n b d; rw [h]
@[simp] theorem sendSeal_key_step (n : Nat) (b : Bytes) (d : Die) : (sendSeal n b d).key.step = d.key.step :=
  by obtain ⟨_, _, _, _, _, _, h⟩ := sendSeal_parts n b d; rw [h]
@[simp] theorem sendSeal_key_cause (n : Nat) (b : Bytes) (d : Die) : (sendSeal n b d).key.cause = d.key.cause :=
  by obtain ⟨_, _, _, _, _, _, h⟩ := sendSeal_parts n b d; rw [h]
@[simp] theorem sendSeal_key_corrected (n : Nat) (b : Bytes) (d : Die) :
    (sendSeal n b d).key.corrected = d.key.corrected :=
  by obtain ⟨_, _, _, _, _, _, h⟩ := sendSeal_parts n b d; rw [h]
@[simp] theorem sendSeal_key_nextId (n : Nat) (b : Bytes) (d : Die) : (sendSeal n b d).key.nextId = d.key.nextId :=
  by obtain ⟨_, _, _, _, _, _, h⟩ := sendSeal_parts n b d; rw [h]
@[simp] theorem sendSeal_key_opens (n : Nat) (b : Bytes) (d : Die) : (sendSeal n b d).key.opens = d.key.opens :=
  by obtain ⟨_, _, _, _, _, _, h⟩ := sendSeal_parts n b d; rw [h]
@[simp] theorem sendSeal_key_writes (n : Nat) (b : Bytes) (d : Die) : (sendSeal n b d).key.writes = d.key.writes :=
  by obtain ⟨_, _, _, _, _, _, h⟩ := sendSeal_parts n b d; rw [h]
@[simp] theorem sendSeal_key_bulk (n : Nat) (b : Bytes) (d : Die) : (sendSeal n b d).key.bulk = d.key.bulk :=
  by obtain ⟨_, _, _, _, _, _, h⟩ := sendSeal_parts n b d; rw [h]
@[simp] theorem sendSeal_key_image (n : Nat) (b : Bytes) (d : Die) : (sendSeal n b d).key.image = d.key.image :=
  by obtain ⟨_, _, _, _, _, _, h⟩ := sendSeal_parts n b d; rw [h]
@[simp] theorem sendSeal_key_flash (n : Nat) (b : Bytes) (d : Die) : (sendSeal n b d).key.flash = d.key.flash :=
  by obtain ⟨_, _, _, _, _, _, h⟩ := sendSeal_parts n b d; rw [h]
@[simp] theorem sendSeal_pel (n : Nat) (b : Bytes) (d : Die) : (sendSeal n b d).pel = d.pel :=
  by obtain ⟨_, _, _, _, _, _, h⟩ := sendSeal_parts n b d; rw [h]
@[simp] theorem sendSeal_descs (n : Nat) (b : Bytes) (d : Die) : (sendSeal n b d).descs = d.descs :=
  by obtain ⟨_, _, _, _, _, _, h⟩ := sendSeal_parts n b d; rw [h]
@[simp] theorem sendSeal_freeCtr (n : Nat) (b : Bytes) (d : Die) : (sendSeal n b d).freeCtr = d.freeCtr :=
  by obtain ⟨_, _, _, _, _, _, h⟩ := sendSeal_parts n b d; rw [h]

/-! ## changePhase -/

@[simp] theorem changePhase_which (p : Phase) (d : Die) : (changePhase p d).which = d.which :=
  by obtain ⟨_, _, _, _, _, _, _, h⟩ := changePhase_parts p d; rw [h]
@[simp] theorem changePhase_regs_live (p : Phase) (d : Die) : (changePhase p d).regs.live = d.regs.live :=
  by obtain ⟨_, _, _, _, _, _, _, h⟩ := changePhase_parts p d; rw [h]
@[simp] theorem changePhase_regs_staged (p : Phase) (d : Die) : (changePhase p d).regs.staged = d.regs.staged :=
  by obtain ⟨_, _, _, _, _, _, _, h⟩ := changePhase_parts p d; rw [h]
@[simp] theorem changePhase_regs_late (p : Phase) (d : Die) : (changePhase p d).regs.late = d.regs.late :=
  by obtain ⟨_, _, _, _, _, _, _, h⟩ := changePhase_parts p d; rw [h]
@[simp] theorem changePhase_regs_held (p : Phase) (d : Die) : (changePhase p d).regs.held = d.regs.held :=
  by obtain ⟨_, _, _, _, _, _, _, h⟩ := changePhase_parts p d; rw [h]
@[simp] theorem changePhase_regs_cap (p : Phase) (d : Die) : (changePhase p d).regs.cap = d.regs.cap :=
  by obtain ⟨_, _, _, _, _, _, _, h⟩ := changePhase_parts p d; rw [h]
@[simp] theorem changePhase_regs_enabled (p : Phase) (d : Die) : (changePhase p d).regs.enabled = d.regs.enabled :=
  by obtain ⟨_, _, _, _, _, _, _, h⟩ := changePhase_parts p d; rw [h]
@[simp] theorem changePhase_wlk (p : Phase) (d : Die) : (changePhase p d).wlk = d.wlk :=
  by obtain ⟨_, _, _, _, _, _, _, h⟩ := changePhase_parts p d; rw [h]
@[simp] theorem changePhase_wrd (p : Phase) (d : Die) : (changePhase p d).wrd = d.wrd :=
  by obtain ⟨_, _, _, _, _, _, _, h⟩ := changePhase_parts p d; rw [h]
@[simp] theorem changePhase_chn (p : Phase) (d : Die) : (changePhase p d).chn = d.chn :=
  by obtain ⟨_, _, _, _, _, _, _, h⟩ := changePhase_parts p d; rw [h]
@[simp] theorem changePhase_rat (p : Phase) (d : Die) : (changePhase p d).rat = d.rat :=
  by obtain ⟨_, _, _, _, _, _, _, h⟩ := changePhase_parts p d; rw [h]
@[simp] theorem changePhase_adm (p : Phase) (d : Die) : (changePhase p d).adm = d.adm :=
  by obtain ⟨_, _, _, _, _, _, _, h⟩ := changePhase_parts p d; rw [h]
@[simp] theorem changePhase_cad (p : Phase) (d : Die) : (changePhase p d).cad = d.cad :=
  by obtain ⟨_, _, _, _, _, _, _, h⟩ := changePhase_parts p d; rw [h]
@[simp] theorem changePhase_sealing (p : Phase) (d : Die) : (changePhase p d).sealing = d.sealing :=
  by obtain ⟨_, _, _, _, _, _, _, h⟩ := changePhase_parts p d; rw [h]
@[simp] theorem changePhase_res (p : Phase) (d : Die) : (changePhase p d).res = d.res :=
  by obtain ⟨_, _, _, _, _, _, _, h⟩ := changePhase_parts p d; rw [h]
@[simp] theorem changePhase_bnd (p : Phase) (d : Die) : (changePhase p d).bnd = d.bnd :=
  by obtain ⟨_, _, _, _, _, _, _, h⟩ := changePhase_parts p d; rw [h]
@[simp] theorem changePhase_nle (p : Phase) (d : Die) : (changePhase p d).nle = d.nle :=
  by obtain ⟨_, _, _, _, _, _, _, h⟩ := changePhase_parts p d; rw [h]
@[simp] theorem changePhase_cwe (p : Phase) (d : Die) : (changePhase p d).cwe = d.cwe :=
  by obtain ⟨_, _, _, _, _, _, _, h⟩ := changePhase_parts p d; rw [h]
@[simp] theorem changePhase_snt (p : Phase) (d : Die) : (changePhase p d).snt = d.snt :=
  by obtain ⟨_, _, _, _, _, _, _, h⟩ := changePhase_parts p d; rw [h]
@[simp] theorem changePhase_shk (p : Phase) (d : Die) : (changePhase p d).shk = d.shk :=
  by obtain ⟨_, _, _, _, _, _, _, h⟩ := changePhase_parts p d; rw [h]
@[simp] theorem changePhase_sig (p : Phase) (d : Die) : (changePhase p d).sig = d.sig :=
  by obtain ⟨_, _, _, _, _, _, _, h⟩ := changePhase_parts p d; rw [h]
@[simp] theorem changePhase_vp (p : Phase) (d : Die) : (changePhase p d).vp = d.vp :=
  by obtain ⟨_, _, _, _, _, _, _, h⟩ := changePhase_parts p d; rw [h]
@[simp] theorem changePhase_spk (p : Phase) (d : Die) : (changePhase p d).spk = d.spk :=
  by obtain ⟨_, _, _, _, _, _, _, h⟩ := changePhase_parts p d; rw [h]
@[simp] theorem changePhase_dbg (p : Phase) (d : Die) : (changePhase p d).dbg = d.dbg :=
  by obtain ⟨_, _, _, _, _, _, _, h⟩ := changePhase_parts p d; rw [h]
@[simp] theorem changePhase_sntb (p : Phase) (d : Die) : (changePhase p d).sntb = d.sntb :=
  by obtain ⟨_, _, _, _, _, _, _, h⟩ := changePhase_parts p d; rw [h]
@[simp] theorem changePhase_tim (p : Phase) (d : Die) : (changePhase p d).tim = d.tim :=
  by obtain ⟨_, _, _, _, _, _, _, h⟩ := changePhase_parts p d; rw [h]
@[simp] theorem changePhase_ing (p : Phase) (d : Die) : (changePhase p d).ing = d.ing :=
  by obtain ⟨_, _, _, _, _, _, _, h⟩ := changePhase_parts p d; rw [h]
@[simp] theorem changePhase_wdn (p : Phase) (d : Die) : (changePhase p d).wdn = d.wdn :=
  by obtain ⟨_, _, _, _, _, _, _, h⟩ := changePhase_parts p d; rw [h]
@[simp] theorem changePhase_fcu_src (p : Phase) (d : Die) : (changePhase p d).fcu.src = d.fcu.src :=
  by obtain ⟨_, _, _, _, _, _, _, h⟩ := changePhase_parts p d; rw [h]
@[simp] theorem changePhase_fcu_sev (p : Phase) (d : Die) : (changePhase p d).fcu.sev = d.fcu.sev :=
  by obtain ⟨_, _, _, _, _, _, _, h⟩ := changePhase_parts p d; rw [h]
@[simp] theorem changePhase_fcu_first (p : Phase) (d : Die) : (changePhase p d).fcu.first = d.fcu.first :=
  by obtain ⟨_, _, _, _, _, _, _, h⟩ := changePhase_parts p d; rw [h]
@[simp] theorem changePhase_fcu_second (p : Phase) (d : Die) : (changePhase p d).fcu.second = d.fcu.second :=
  by obtain ⟨_, _, _, _, _, _, _, h⟩ := changePhase_parts p d; rw [h]
@[simp] theorem changePhase_fcu_echo (p : Phase) (d : Die) : (changePhase p d).fcu.echo = d.fcu.echo :=
  by obtain ⟨_, _, _, _, _, _, _, h⟩ := changePhase_parts p d; rw [h]
@[simp] theorem changePhase_fcu_asserted (p : Phase) (d : Die) : (changePhase p d).fcu.asserted = d.fcu.asserted :=
  by obtain ⟨_, _, _, _, _, _, _, h⟩ := changePhase_parts p d; rw [h]
@[simp] theorem changePhase_fcu_alive (p : Phase) (d : Die) : (changePhase p d).fcu.alive = d.fcu.alive :=
  by obtain ⟨_, _, _, _, _, _, _, h⟩ := changePhase_parts p d; rw [h]
@[simp] theorem changePhase_fcu_minRun (p : Phase) (d : Die) : (changePhase p d).fcu.minRun = d.fcu.minRun :=
  by obtain ⟨_, _, _, _, _, _, _, h⟩ := changePhase_parts p d; rw [h]
@[simp] theorem changePhase_fcu_acked (p : Phase) (d : Die) : (changePhase p d).fcu.acked = d.fcu.acked :=
  by obtain ⟨_, _, _, _, _, _, _, h⟩ := changePhase_parts p d; rw [h]
@[simp] theorem changePhase_fcu_stopped (p : Phase) (d : Die) : (changePhase p d).fcu.stopped = d.fcu.stopped :=
  by obtain ⟨_, _, _, _, _, _, _, h⟩ := changePhase_parts p d; rw [h]
@[simp] theorem changePhase_fcu_hold (p : Phase) (d : Die) : (changePhase p d).fcu.hold = d.fcu.hold :=
  by obtain ⟨_, _, _, _, _, _, _, h⟩ := changePhase_parts p d; rw [h]
@[simp] theorem changePhase_fcu_sysHold (p : Phase) (d : Die) : (changePhase p d).fcu.sysHold = d.fcu.sysHold :=
  by obtain ⟨_, _, _, _, _, _, _, h⟩ := changePhase_parts p d; rw [h]
@[simp] theorem changePhase_fcu_entries (p : Phase) (d : Die) : (changePhase p d).fcu.entries = d.fcu.entries :=
  by obtain ⟨_, _, _, _, _, _, _, h⟩ := changePhase_parts p d; rw [h]
@[simp] theorem changePhase_fcu_lastSrc (p : Phase) (d : Die) : (changePhase p d).fcu.lastSrc = d.fcu.lastSrc :=
  by obtain ⟨_, _, _, _, _, _, _, h⟩ := changePhase_parts p d; rw [h]
@[simp] theorem changePhase_fcu_held (p : Phase) (d : Die) : (changePhase p d).fcu.held = d.fcu.held :=
  by obtain ⟨_, _, _, _, _, _, _, h⟩ := changePhase_parts p d; rw [h]
@[simp] theorem changePhase_fcu_entryNs (p : Phase) (d : Die) : (changePhase p d).fcu.entryNs = d.fcu.entryNs :=
  by obtain ⟨_, _, _, _, _, _, _, h⟩ := changePhase_parts p d; rw [h]
@[simp] theorem changePhase_fcu_step (p : Phase) (d : Die) : (changePhase p d).fcu.step = d.fcu.step :=
  by obtain ⟨_, _, _, _, _, _, _, h⟩ := changePhase_parts p d; rw [h]
@[simp] theorem changePhase_fcu_clkLost (p : Phase) (d : Die) : (changePhase p d).fcu.clkLost = d.fcu.clkLost :=
  by obtain ⟨_, _, _, _, _, _, _, h⟩ := changePhase_parts p d; rw [h]
@[simp] theorem changePhase_fcu_parityBad (p : Phase) (d : Die) : (changePhase p d).fcu.parityBad = d.fcu.parityBad :=
  by obtain ⟨_, _, _, _, _, _, _, h⟩ := changePhase_parts p d; rw [h]
@[simp] theorem changePhase_fcu_railBad (p : Phase) (d : Die) : (changePhase p d).fcu.railBad = d.fcu.railBad :=
  by obtain ⟨_, _, _, _, _, _, _, h⟩ := changePhase_parts p d; rw [h]
@[simp] theorem changePhase_fcu_stalled (p : Phase) (d : Die) : (changePhase p d).fcu.stalled = d.fcu.stalled :=
  by obtain ⟨_, _, _, _, _, _, _, h⟩ := changePhase_parts p d; rw [h]
@[simp] theorem changePhase_fcu_sysclkOk (p : Phase) (d : Die) : (changePhase p d).fcu.sysclkOk = d.fcu.sysclkOk :=
  by obtain ⟨_, _, _, _, _, _, _, h⟩ := changePhase_parts p d; rw [h]
@[simp] theorem changePhase_fcu_tj (p : Phase) (d : Die) : (changePhase p d).fcu.tj = d.fcu.tj :=
  by obtain ⟨_, _, _, _, _, _, _, h⟩ := changePhase_parts p d; rw [h]
@[simp] theorem changePhase_fcu_tjPeak (p : Phase) (d : Die) : (changePhase p d).fcu.tjPeak = d.fcu.tjPeak :=
  by obtain ⟨_, _, _, _, _, _, _, h⟩ := changePhase_parts p d; rw [h]
@[simp] theorem changePhase_mem (p : Phase) (d : Die) : (changePhase p d).mem = d.mem :=
  by obtain ⟨_, _, _, _, _, _, _, h⟩ := changePhase_parts p d; rw [h]
@[simp] theorem changePhase_key_seed (p : Phase) (d : Die) : (changePhase p d).key.seed = d.key.seed :=
  by obtain ⟨_, _, _, _, _, _, _, h⟩ := changePhase_parts p d; rw [h]
@[simp] theorem changePhase_key_idSecret (p : Phase) (d : Die) : (changePhase p d).key.idSecret = d.key.idSecret :=
  by obtain ⟨_, _, _, _, _, _, _, h⟩ := changePhase_parts p d; rw [h]
@[simp] theorem changePhase_key_idPublic (p : Phase) (d : Die) : (changePhase p d).key.idPublic = d.key.idPublic :=
  by obtain ⟨_, _, _, _, _, _, _, h⟩ := changePhase_parts p d; rw [h]
@[simp] theorem changePhase_key_device (p : Phase) (d : Die) : (changePhase p d).key.device = d.key.device :=
  by obtain ⟨_, _, _, _, _, _, _, h⟩ := changePhase_parts p d; rw [h]
@[simp] theorem changePhase_key_rpmb (p : Phase) (d : Die) : (changePhase p d).key.rpmb = d.key.rpmb :=
  by obtain ⟨_, _, _, _, _, _, _, h⟩ := changePhase_parts p d; rw [h]
@[simp] theorem changePhase_key_bind (p : Phase) (d : Die) : (changePhase p d).key.bind = d.key.bind :=
  by obtain ⟨_, _, _, _, _, _, _, h⟩ := changePhase_parts p d; rw [h]
@[simp] theorem changePhase_key_fwVersion (p : Phase) (d : Die) : (changePhase p d).key.fwVersion = d.key.fwVersion :=
  by obtain ⟨_, _, _, _, _, _, _, h⟩ := changePhase_parts p d; rw [h]
@[simp] theorem changePhase_key_fwSlot (p : Phase) (d : Die) : (changePhase p d).key.fwSlot = d.key.fwSlot :=
  by obtain ⟨_, _, _, _, _, _, _, h⟩ := changePhase_parts p d; rw [h]
@[simp] theorem changePhase_key_fwSvn (p : Phase) (d : Die) : (changePhase p d).key.fwSvn = d.key.fwSvn :=
  by obtain ⟨_, _, _, _, _, _, _, h⟩ := changePhase_parts p d; rw [h]
@[simp] theorem changePhase_key_mapPayload (p : Phase) (d : Die) :
    (changePhase p d).key.mapPayload = d.key.mapPayload :=
  by obtain ⟨_, _, _, _, _, _, _, h⟩ := changePhase_parts p d; rw [h]
@[simp] theorem changePhase_key_mapDigest (p : Phase) (d : Die) : (changePhase p d).key.mapDigest = d.key.mapDigest :=
  by obtain ⟨_, _, _, _, _, _, _, h⟩ := changePhase_parts p d; rw [h]
@[simp] theorem changePhase_key_ext (p : Phase) (d : Die) : (changePhase p d).key.ext = d.key.ext :=
  by obtain ⟨_, _, _, _, _, _, _, h⟩ := changePhase_parts p d; rw [h]
@[simp] theorem changePhase_key_grade (p : Phase) (d : Die) : (changePhase p d).key.grade = d.key.grade :=
  by obtain ⟨_, _, _, _, _, _, _, h⟩ := changePhase_parts p d; rw [h]
@[simp] theorem changePhase_key_pipes (p : Phase) (d : Die) : (changePhase p d).key.pipes = d.key.pipes :=
  by obtain ⟨_, _, _, _, _, _, _, h⟩ := changePhase_parts p d; rw [h]
@[simp] theorem changePhase_key_identityOk (p : Phase) (d : Die) :
    (changePhase p d).key.identityOk = d.key.identityOk :=
  by obtain ⟨_, _, _, _, _, _, _, h⟩ := changePhase_parts p d; rw [h]
@[simp] theorem changePhase_key_rpmbOk (p : Phase) (d : Die) : (changePhase p d).key.rpmbOk = d.key.rpmbOk :=
  by obtain ⟨_, _, _, _, _, _, _, h⟩ := changePhase_parts p d; rw [h]
@[simp] theorem changePhase_key_storageNew (p : Phase) (d : Die) :
    (changePhase p d).key.storageNew = d.key.storageNew :=
  by obtain ⟨_, _, _, _, _, _, _, h⟩ := changePhase_parts p d; rw [h]
@[simp] theorem changePhase_key_debug (p : Phase) (d : Die) : (changePhase p d).key.debug = d.key.debug :=
  by obtain ⟨_, _, _, _, _, _, _, h⟩ := changePhase_parts p d; rw [h]
@[simp] theorem changePhase_key_nonce (p : Phase) (d : Die) : (changePhase p d).key.nonce = d.key.nonce :=
  by obtain ⟨_, _, _, _, _, _, _, h⟩ := changePhase_parts p d; rw [h]
@[simp] theorem changePhase_key_trust (p : Phase) (d : Die) : (changePhase p d).key.trust = d.key.trust :=
  by obtain ⟨_, _, _, _, _, _, _, h⟩ := changePhase_parts p d; rw [h]
@[simp] theorem changePhase_key_step (p : Phase) (d : Die) : (changePhase p d).key.step = d.key.step :=
  by obtain ⟨_, _, _, _, _, _, _, h⟩ := changePhase_parts p d; rw [h]
@[simp] theorem changePhase_key_cause (p : Phase) (d : Die) : (changePhase p d).key.cause = d.key.cause :=
  by obtain ⟨_, _, _, _, _, _, _, h⟩ := changePhase_parts p d; rw [h]
@[simp] theorem changePhase_key_corrected (p : Phase) (d : Die) : (changePhase p d).key.corrected = d.key.corrected :=
  by obtain ⟨_, _, _, _, _, _, _, h⟩ := changePhase_parts p d; rw [h]
@[simp] theorem changePhase_key_nextId (p : Phase) (d : Die) : (changePhase p d).key.nextId = d.key.nextId :=
  by obtain ⟨_, _, _, _, _, _, _, h⟩ := changePhase_parts p d; rw [h]
@[simp] theorem changePhase_key_opens (p : Phase) (d : Die) : (changePhase p d).key.opens = d.key.opens :=
  by obtain ⟨_, _, _, _, _, _, _, h⟩ := changePhase_parts p d; rw [h]
@[simp] theorem changePhase_key_writes (p : Phase) (d : Die) : (changePhase p d).key.writes = d.key.writes :=
  by obtain ⟨_, _, _, _, _, _, _, h⟩ := changePhase_parts p d; rw [h]
@[simp] theorem changePhase_key_bulk (p : Phase) (d : Die) : (changePhase p d).key.bulk = d.key.bulk :=
  by obtain ⟨_, _, _, _, _, _, _, h⟩ := changePhase_parts p d; rw [h]
@[simp] theorem changePhase_key_image (p : Phase) (d : Die) : (changePhase p d).key.image = d.key.image :=
  by obtain ⟨_, _, _, _, _, _, _, h⟩ := changePhase_parts p d; rw [h]
@[simp] theorem changePhase_key_flash (p : Phase) (d : Die) : (changePhase p d).key.flash = d.key.flash :=
  by obtain ⟨_, _, _, _, _, _, _, h⟩ := changePhase_parts p d; rw [h]
@[simp] theorem changePhase_pel (p : Phase) (d : Die) : (changePhase p d).pel = d.pel :=
  by obtain ⟨_, _, _, _, _, _, _, h⟩ := changePhase_parts p d; rw [h]
@[simp] theorem changePhase_descs (p : Phase) (d : Die) : (changePhase p d).descs = d.descs :=
  by obtain ⟨_, _, _, _, _, _, _, h⟩ := changePhase_parts p d; rw [h]
@[simp] theorem changePhase_freeCtr (p : Phase) (d : Die) : (changePhase p d).freeCtr = d.freeCtr :=
  by obtain ⟨_, _, _, _, _, _, _, h⟩ := changePhase_parts p d; rw [h]

/-! ## flushEgress -/

@[simp] theorem flushEgress_which (d : Die) : (flushEgress d).which = d.which :=
  by obtain ⟨_, _, _, _, _, h⟩ := flushEgress_parts d; rw [h]
@[simp] theorem flushEgress_phase (d : Die) : (flushEgress d).phase = d.phase :=
  by obtain ⟨_, _, _, _, _, h⟩ := flushEgress_parts d; rw [h]
@[simp] theorem flushEgress_phaseSlot (d : Die) : (flushEgress d).phaseSlot = d.phaseSlot :=
  by obtain ⟨_, _, _, _, _, h⟩ := flushEgress_parts d; rw [h]
@[simp] theorem flushEgress_regs_live (d : Die) : (flushEgress d).regs.live = d.regs.live :=
  by obtain ⟨_, _, _, _, _, h⟩ := flushEgress_parts d; rw [h]
@[simp] theorem flushEgress_regs_staged (d : Die) : (flushEgress d).regs.staged = d.regs.staged :=
  by obtain ⟨_, _, _, _, _, h⟩ := flushEgress_parts d; rw [h]
@[simp] theorem flushEgress_regs_late (d : Die) : (flushEgress d).regs.late = d.regs.late :=
  by obtain ⟨_, _, _, _, _, h⟩ := flushEgress_parts d; rw [h]
@[simp] theorem flushEgress_regs_held (d : Die) : (flushEgress d).regs.held = d.regs.held :=
  by obtain ⟨_, _, _, _, _, h⟩ := flushEgress_parts d; rw [h]
@[simp] theorem flushEgress_regs_cap (d : Die) : (flushEgress d).regs.cap = d.regs.cap :=
  by obtain ⟨_, _, _, _, _, h⟩ := flushEgress_parts d; rw [h]
@[simp] theorem flushEgress_regs_enabled (d : Die) : (flushEgress d).regs.enabled = d.regs.enabled :=
  by obtain ⟨_, _, _, _, _, h⟩ := flushEgress_parts d; rw [h]
@[simp] theorem flushEgress_wlk (d : Die) : (flushEgress d).wlk = d.wlk :=
  by obtain ⟨_, _, _, _, _, h⟩ := flushEgress_parts d; rw [h]
@[simp] theorem flushEgress_wrd (d : Die) : (flushEgress d).wrd = d.wrd :=
  by obtain ⟨_, _, _, _, _, h⟩ := flushEgress_parts d; rw [h]
@[simp] theorem flushEgress_chn (d : Die) : (flushEgress d).chn = d.chn :=
  by obtain ⟨_, _, _, _, _, h⟩ := flushEgress_parts d; rw [h]
@[simp] theorem flushEgress_rat (d : Die) : (flushEgress d).rat = d.rat :=
  by obtain ⟨_, _, _, _, _, h⟩ := flushEgress_parts d; rw [h]
@[simp] theorem flushEgress_adm (d : Die) : (flushEgress d).adm = d.adm :=
  by obtain ⟨_, _, _, _, _, h⟩ := flushEgress_parts d; rw [h]
@[simp] theorem flushEgress_cad (d : Die) : (flushEgress d).cad = d.cad :=
  by obtain ⟨_, _, _, _, _, h⟩ := flushEgress_parts d; rw [h]
@[simp] theorem flushEgress_sealing (d : Die) : (flushEgress d).sealing = d.sealing :=
  by obtain ⟨_, _, _, _, _, h⟩ := flushEgress_parts d; rw [h]
@[simp] theorem flushEgress_res (d : Die) : (flushEgress d).res = d.res :=
  by obtain ⟨_, _, _, _, _, h⟩ := flushEgress_parts d; rw [h]
@[simp] theorem flushEgress_bnd (d : Die) : (flushEgress d).bnd = d.bnd :=
  by obtain ⟨_, _, _, _, _, h⟩ := flushEgress_parts d; rw [h]
@[simp] theorem flushEgress_nle (d : Die) : (flushEgress d).nle = d.nle :=
  by obtain ⟨_, _, _, _, _, h⟩ := flushEgress_parts d; rw [h]
@[simp] theorem flushEgress_cwe (d : Die) : (flushEgress d).cwe = d.cwe :=
  by obtain ⟨_, _, _, _, _, h⟩ := flushEgress_parts d; rw [h]
@[simp] theorem flushEgress_snt (d : Die) : (flushEgress d).snt = d.snt :=
  by obtain ⟨_, _, _, _, _, h⟩ := flushEgress_parts d; rw [h]
@[simp] theorem flushEgress_shk (d : Die) : (flushEgress d).shk = d.shk :=
  by obtain ⟨_, _, _, _, _, h⟩ := flushEgress_parts d; rw [h]
@[simp] theorem flushEgress_sig (d : Die) : (flushEgress d).sig = d.sig :=
  by obtain ⟨_, _, _, _, _, h⟩ := flushEgress_parts d; rw [h]
@[simp] theorem flushEgress_vp (d : Die) : (flushEgress d).vp = d.vp :=
  by obtain ⟨_, _, _, _, _, h⟩ := flushEgress_parts d; rw [h]
@[simp] theorem flushEgress_spk (d : Die) : (flushEgress d).spk = d.spk :=
  by obtain ⟨_, _, _, _, _, h⟩ := flushEgress_parts d; rw [h]
@[simp] theorem flushEgress_dbg (d : Die) : (flushEgress d).dbg = d.dbg :=
  by obtain ⟨_, _, _, _, _, h⟩ := flushEgress_parts d; rw [h]
@[simp] theorem flushEgress_sntb (d : Die) : (flushEgress d).sntb = d.sntb :=
  by obtain ⟨_, _, _, _, _, h⟩ := flushEgress_parts d; rw [h]
@[simp] theorem flushEgress_tim (d : Die) : (flushEgress d).tim = d.tim :=
  by obtain ⟨_, _, _, _, _, h⟩ := flushEgress_parts d; rw [h]
@[simp] theorem flushEgress_ing (d : Die) : (flushEgress d).ing = d.ing :=
  by obtain ⟨_, _, _, _, _, h⟩ := flushEgress_parts d; rw [h]
@[simp] theorem flushEgress_wdn (d : Die) : (flushEgress d).wdn = d.wdn :=
  by obtain ⟨_, _, _, _, _, h⟩ := flushEgress_parts d; rw [h]
@[simp] theorem flushEgress_fcu_src (d : Die) : (flushEgress d).fcu.src = d.fcu.src :=
  by obtain ⟨_, _, _, _, _, h⟩ := flushEgress_parts d; rw [h]
@[simp] theorem flushEgress_fcu_sev (d : Die) : (flushEgress d).fcu.sev = d.fcu.sev :=
  by obtain ⟨_, _, _, _, _, h⟩ := flushEgress_parts d; rw [h]
@[simp] theorem flushEgress_fcu_first (d : Die) : (flushEgress d).fcu.first = d.fcu.first :=
  by obtain ⟨_, _, _, _, _, h⟩ := flushEgress_parts d; rw [h]
@[simp] theorem flushEgress_fcu_second (d : Die) : (flushEgress d).fcu.second = d.fcu.second :=
  by obtain ⟨_, _, _, _, _, h⟩ := flushEgress_parts d; rw [h]
@[simp] theorem flushEgress_fcu_echo (d : Die) : (flushEgress d).fcu.echo = d.fcu.echo :=
  by obtain ⟨_, _, _, _, _, h⟩ := flushEgress_parts d; rw [h]
@[simp] theorem flushEgress_fcu_asserted (d : Die) : (flushEgress d).fcu.asserted = d.fcu.asserted :=
  by obtain ⟨_, _, _, _, _, h⟩ := flushEgress_parts d; rw [h]
@[simp] theorem flushEgress_fcu_alive (d : Die) : (flushEgress d).fcu.alive = d.fcu.alive :=
  by obtain ⟨_, _, _, _, _, h⟩ := flushEgress_parts d; rw [h]
@[simp] theorem flushEgress_fcu_minRun (d : Die) : (flushEgress d).fcu.minRun = d.fcu.minRun :=
  by obtain ⟨_, _, _, _, _, h⟩ := flushEgress_parts d; rw [h]
@[simp] theorem flushEgress_fcu_acked (d : Die) : (flushEgress d).fcu.acked = d.fcu.acked :=
  by obtain ⟨_, _, _, _, _, h⟩ := flushEgress_parts d; rw [h]
@[simp] theorem flushEgress_fcu_stopped (d : Die) : (flushEgress d).fcu.stopped = d.fcu.stopped :=
  by obtain ⟨_, _, _, _, _, h⟩ := flushEgress_parts d; rw [h]
@[simp] theorem flushEgress_fcu_hold (d : Die) : (flushEgress d).fcu.hold = d.fcu.hold :=
  by obtain ⟨_, _, _, _, _, h⟩ := flushEgress_parts d; rw [h]
@[simp] theorem flushEgress_fcu_sysHold (d : Die) : (flushEgress d).fcu.sysHold = d.fcu.sysHold :=
  by obtain ⟨_, _, _, _, _, h⟩ := flushEgress_parts d; rw [h]
@[simp] theorem flushEgress_fcu_entries (d : Die) : (flushEgress d).fcu.entries = d.fcu.entries :=
  by obtain ⟨_, _, _, _, _, h⟩ := flushEgress_parts d; rw [h]
@[simp] theorem flushEgress_fcu_lastSrc (d : Die) : (flushEgress d).fcu.lastSrc = d.fcu.lastSrc :=
  by obtain ⟨_, _, _, _, _, h⟩ := flushEgress_parts d; rw [h]
@[simp] theorem flushEgress_fcu_held (d : Die) : (flushEgress d).fcu.held = d.fcu.held :=
  by obtain ⟨_, _, _, _, _, h⟩ := flushEgress_parts d; rw [h]
@[simp] theorem flushEgress_fcu_entryNs (d : Die) : (flushEgress d).fcu.entryNs = d.fcu.entryNs :=
  by obtain ⟨_, _, _, _, _, h⟩ := flushEgress_parts d; rw [h]
@[simp] theorem flushEgress_fcu_step (d : Die) : (flushEgress d).fcu.step = d.fcu.step :=
  by obtain ⟨_, _, _, _, _, h⟩ := flushEgress_parts d; rw [h]
@[simp] theorem flushEgress_fcu_clkLost (d : Die) : (flushEgress d).fcu.clkLost = d.fcu.clkLost :=
  by obtain ⟨_, _, _, _, _, h⟩ := flushEgress_parts d; rw [h]
@[simp] theorem flushEgress_fcu_parityBad (d : Die) : (flushEgress d).fcu.parityBad = d.fcu.parityBad :=
  by obtain ⟨_, _, _, _, _, h⟩ := flushEgress_parts d; rw [h]
@[simp] theorem flushEgress_fcu_railBad (d : Die) : (flushEgress d).fcu.railBad = d.fcu.railBad :=
  by obtain ⟨_, _, _, _, _, h⟩ := flushEgress_parts d; rw [h]
@[simp] theorem flushEgress_fcu_stalled (d : Die) : (flushEgress d).fcu.stalled = d.fcu.stalled :=
  by obtain ⟨_, _, _, _, _, h⟩ := flushEgress_parts d; rw [h]
@[simp] theorem flushEgress_fcu_sysclkOk (d : Die) : (flushEgress d).fcu.sysclkOk = d.fcu.sysclkOk :=
  by obtain ⟨_, _, _, _, _, h⟩ := flushEgress_parts d; rw [h]
@[simp] theorem flushEgress_fcu_tj (d : Die) : (flushEgress d).fcu.tj = d.fcu.tj :=
  by obtain ⟨_, _, _, _, _, h⟩ := flushEgress_parts d; rw [h]
@[simp] theorem flushEgress_fcu_tjPeak (d : Die) : (flushEgress d).fcu.tjPeak = d.fcu.tjPeak :=
  by obtain ⟨_, _, _, _, _, h⟩ := flushEgress_parts d; rw [h]
@[simp] theorem flushEgress_mem (d : Die) : (flushEgress d).mem = d.mem :=
  by obtain ⟨_, _, _, _, _, h⟩ := flushEgress_parts d; rw [h]
@[simp] theorem flushEgress_key (d : Die) : (flushEgress d).key = d.key :=
  by obtain ⟨_, _, _, _, _, h⟩ := flushEgress_parts d; rw [h]
@[simp] theorem flushEgress_pel (d : Die) : (flushEgress d).pel = d.pel :=
  by obtain ⟨_, _, _, _, _, h⟩ := flushEgress_parts d; rw [h]
@[simp] theorem flushEgress_descs (d : Die) : (flushEgress d).descs = d.descs :=
  by obtain ⟨_, _, _, _, _, h⟩ := flushEgress_parts d; rw [h]
@[simp] theorem flushEgress_freeCtr (d : Die) : (flushEgress d).freeCtr = d.freeCtr :=
  by obtain ⟨_, _, _, _, _, h⟩ := flushEgress_parts d; rw [h]

/-! ## hostLink -/

@[simp] theorem hostLink_which (u : Bool) (d : Die) : (hostLink u d).which = d.which :=
  by obtain ⟨_, _, _, _, _, h⟩ := hostLink_parts u d; rw [h]
@[simp] theorem hostLink_phase (u : Bool) (d : Die) : (hostLink u d).phase = d.phase :=
  by obtain ⟨_, _, _, _, _, h⟩ := hostLink_parts u d; rw [h]
@[simp] theorem hostLink_phaseSlot (u : Bool) (d : Die) : (hostLink u d).phaseSlot = d.phaseSlot :=
  by obtain ⟨_, _, _, _, _, h⟩ := hostLink_parts u d; rw [h]
@[simp] theorem hostLink_regs_live (u : Bool) (d : Die) : (hostLink u d).regs.live = d.regs.live :=
  by obtain ⟨_, _, _, _, _, h⟩ := hostLink_parts u d; rw [h]
@[simp] theorem hostLink_regs_staged (u : Bool) (d : Die) : (hostLink u d).regs.staged = d.regs.staged :=
  by obtain ⟨_, _, _, _, _, h⟩ := hostLink_parts u d; rw [h]
@[simp] theorem hostLink_regs_late (u : Bool) (d : Die) : (hostLink u d).regs.late = d.regs.late :=
  by obtain ⟨_, _, _, _, _, h⟩ := hostLink_parts u d; rw [h]
@[simp] theorem hostLink_regs_held (u : Bool) (d : Die) : (hostLink u d).regs.held = d.regs.held :=
  by obtain ⟨_, _, _, _, _, h⟩ := hostLink_parts u d; rw [h]
@[simp] theorem hostLink_regs_cap (u : Bool) (d : Die) : (hostLink u d).regs.cap = d.regs.cap :=
  by obtain ⟨_, _, _, _, _, h⟩ := hostLink_parts u d; rw [h]
@[simp] theorem hostLink_regs_enabled (u : Bool) (d : Die) : (hostLink u d).regs.enabled = d.regs.enabled :=
  by obtain ⟨_, _, _, _, _, h⟩ := hostLink_parts u d; rw [h]
@[simp] theorem hostLink_wlk (u : Bool) (d : Die) : (hostLink u d).wlk = d.wlk :=
  by obtain ⟨_, _, _, _, _, h⟩ := hostLink_parts u d; rw [h]
@[simp] theorem hostLink_wrd (u : Bool) (d : Die) : (hostLink u d).wrd = d.wrd :=
  by obtain ⟨_, _, _, _, _, h⟩ := hostLink_parts u d; rw [h]
@[simp] theorem hostLink_chn (u : Bool) (d : Die) : (hostLink u d).chn = d.chn :=
  by obtain ⟨_, _, _, _, _, h⟩ := hostLink_parts u d; rw [h]
@[simp] theorem hostLink_rat (u : Bool) (d : Die) : (hostLink u d).rat = d.rat :=
  by obtain ⟨_, _, _, _, _, h⟩ := hostLink_parts u d; rw [h]
@[simp] theorem hostLink_adm (u : Bool) (d : Die) : (hostLink u d).adm = d.adm :=
  by obtain ⟨_, _, _, _, _, h⟩ := hostLink_parts u d; rw [h]
@[simp] theorem hostLink_cad (u : Bool) (d : Die) : (hostLink u d).cad = d.cad :=
  by obtain ⟨_, _, _, _, _, h⟩ := hostLink_parts u d; rw [h]
@[simp] theorem hostLink_sealing (u : Bool) (d : Die) : (hostLink u d).sealing = d.sealing :=
  by obtain ⟨_, _, _, _, _, h⟩ := hostLink_parts u d; rw [h]
@[simp] theorem hostLink_res (u : Bool) (d : Die) : (hostLink u d).res = d.res :=
  by obtain ⟨_, _, _, _, _, h⟩ := hostLink_parts u d; rw [h]
@[simp] theorem hostLink_bnd (u : Bool) (d : Die) : (hostLink u d).bnd = d.bnd :=
  by obtain ⟨_, _, _, _, _, h⟩ := hostLink_parts u d; rw [h]
@[simp] theorem hostLink_nle (u : Bool) (d : Die) : (hostLink u d).nle = d.nle :=
  by obtain ⟨_, _, _, _, _, h⟩ := hostLink_parts u d; rw [h]
@[simp] theorem hostLink_cwe (u : Bool) (d : Die) : (hostLink u d).cwe = d.cwe :=
  by obtain ⟨_, _, _, _, _, h⟩ := hostLink_parts u d; rw [h]
@[simp] theorem hostLink_snt (u : Bool) (d : Die) : (hostLink u d).snt = d.snt :=
  by obtain ⟨_, _, _, _, _, h⟩ := hostLink_parts u d; rw [h]
@[simp] theorem hostLink_shk (u : Bool) (d : Die) : (hostLink u d).shk = d.shk :=
  by obtain ⟨_, _, _, _, _, h⟩ := hostLink_parts u d; rw [h]
@[simp] theorem hostLink_sig (u : Bool) (d : Die) : (hostLink u d).sig = d.sig :=
  by obtain ⟨_, _, _, _, _, h⟩ := hostLink_parts u d; rw [h]
@[simp] theorem hostLink_vp (u : Bool) (d : Die) : (hostLink u d).vp = d.vp :=
  by obtain ⟨_, _, _, _, _, h⟩ := hostLink_parts u d; rw [h]
@[simp] theorem hostLink_spk (u : Bool) (d : Die) : (hostLink u d).spk = d.spk :=
  by obtain ⟨_, _, _, _, _, h⟩ := hostLink_parts u d; rw [h]
@[simp] theorem hostLink_dbg (u : Bool) (d : Die) : (hostLink u d).dbg = d.dbg :=
  by obtain ⟨_, _, _, _, _, h⟩ := hostLink_parts u d; rw [h]
@[simp] theorem hostLink_sntb (u : Bool) (d : Die) : (hostLink u d).sntb = d.sntb :=
  by obtain ⟨_, _, _, _, _, h⟩ := hostLink_parts u d; rw [h]
@[simp] theorem hostLink_tim (u : Bool) (d : Die) : (hostLink u d).tim = d.tim :=
  by obtain ⟨_, _, _, _, _, h⟩ := hostLink_parts u d; rw [h]
@[simp] theorem hostLink_ing (u : Bool) (d : Die) : (hostLink u d).ing = d.ing :=
  by obtain ⟨_, _, _, _, _, h⟩ := hostLink_parts u d; rw [h]
@[simp] theorem hostLink_wdn (u : Bool) (d : Die) : (hostLink u d).wdn = d.wdn :=
  by obtain ⟨_, _, _, _, _, h⟩ := hostLink_parts u d; rw [h]
@[simp] theorem hostLink_fcu_src (u : Bool) (d : Die) : (hostLink u d).fcu.src = d.fcu.src :=
  by obtain ⟨_, _, _, _, _, h⟩ := hostLink_parts u d; rw [h]
@[simp] theorem hostLink_fcu_sev (u : Bool) (d : Die) : (hostLink u d).fcu.sev = d.fcu.sev :=
  by obtain ⟨_, _, _, _, _, h⟩ := hostLink_parts u d; rw [h]
@[simp] theorem hostLink_fcu_first (u : Bool) (d : Die) : (hostLink u d).fcu.first = d.fcu.first :=
  by obtain ⟨_, _, _, _, _, h⟩ := hostLink_parts u d; rw [h]
@[simp] theorem hostLink_fcu_second (u : Bool) (d : Die) : (hostLink u d).fcu.second = d.fcu.second :=
  by obtain ⟨_, _, _, _, _, h⟩ := hostLink_parts u d; rw [h]
@[simp] theorem hostLink_fcu_echo (u : Bool) (d : Die) : (hostLink u d).fcu.echo = d.fcu.echo :=
  by obtain ⟨_, _, _, _, _, h⟩ := hostLink_parts u d; rw [h]
@[simp] theorem hostLink_fcu_asserted (u : Bool) (d : Die) : (hostLink u d).fcu.asserted = d.fcu.asserted :=
  by obtain ⟨_, _, _, _, _, h⟩ := hostLink_parts u d; rw [h]
@[simp] theorem hostLink_fcu_alive (u : Bool) (d : Die) : (hostLink u d).fcu.alive = d.fcu.alive :=
  by obtain ⟨_, _, _, _, _, h⟩ := hostLink_parts u d; rw [h]
@[simp] theorem hostLink_fcu_minRun (u : Bool) (d : Die) : (hostLink u d).fcu.minRun = d.fcu.minRun :=
  by obtain ⟨_, _, _, _, _, h⟩ := hostLink_parts u d; rw [h]
@[simp] theorem hostLink_fcu_acked (u : Bool) (d : Die) : (hostLink u d).fcu.acked = d.fcu.acked :=
  by obtain ⟨_, _, _, _, _, h⟩ := hostLink_parts u d; rw [h]
@[simp] theorem hostLink_fcu_stopped (u : Bool) (d : Die) : (hostLink u d).fcu.stopped = d.fcu.stopped :=
  by obtain ⟨_, _, _, _, _, h⟩ := hostLink_parts u d; rw [h]
@[simp] theorem hostLink_fcu_hold (u : Bool) (d : Die) : (hostLink u d).fcu.hold = d.fcu.hold :=
  by obtain ⟨_, _, _, _, _, h⟩ := hostLink_parts u d; rw [h]
@[simp] theorem hostLink_fcu_sysHold (u : Bool) (d : Die) : (hostLink u d).fcu.sysHold = d.fcu.sysHold :=
  by obtain ⟨_, _, _, _, _, h⟩ := hostLink_parts u d; rw [h]
@[simp] theorem hostLink_fcu_entries (u : Bool) (d : Die) : (hostLink u d).fcu.entries = d.fcu.entries :=
  by obtain ⟨_, _, _, _, _, h⟩ := hostLink_parts u d; rw [h]
@[simp] theorem hostLink_fcu_lastSrc (u : Bool) (d : Die) : (hostLink u d).fcu.lastSrc = d.fcu.lastSrc :=
  by obtain ⟨_, _, _, _, _, h⟩ := hostLink_parts u d; rw [h]
@[simp] theorem hostLink_fcu_held (u : Bool) (d : Die) : (hostLink u d).fcu.held = d.fcu.held :=
  by obtain ⟨_, _, _, _, _, h⟩ := hostLink_parts u d; rw [h]
@[simp] theorem hostLink_fcu_entryNs (u : Bool) (d : Die) : (hostLink u d).fcu.entryNs = d.fcu.entryNs :=
  by obtain ⟨_, _, _, _, _, h⟩ := hostLink_parts u d; rw [h]
@[simp] theorem hostLink_fcu_step (u : Bool) (d : Die) : (hostLink u d).fcu.step = d.fcu.step :=
  by obtain ⟨_, _, _, _, _, h⟩ := hostLink_parts u d; rw [h]
@[simp] theorem hostLink_fcu_clkLost (u : Bool) (d : Die) : (hostLink u d).fcu.clkLost = d.fcu.clkLost :=
  by obtain ⟨_, _, _, _, _, h⟩ := hostLink_parts u d; rw [h]
@[simp] theorem hostLink_fcu_parityBad (u : Bool) (d : Die) : (hostLink u d).fcu.parityBad = d.fcu.parityBad :=
  by obtain ⟨_, _, _, _, _, h⟩ := hostLink_parts u d; rw [h]
@[simp] theorem hostLink_fcu_railBad (u : Bool) (d : Die) : (hostLink u d).fcu.railBad = d.fcu.railBad :=
  by obtain ⟨_, _, _, _, _, h⟩ := hostLink_parts u d; rw [h]
@[simp] theorem hostLink_fcu_stalled (u : Bool) (d : Die) : (hostLink u d).fcu.stalled = d.fcu.stalled :=
  by obtain ⟨_, _, _, _, _, h⟩ := hostLink_parts u d; rw [h]
@[simp] theorem hostLink_fcu_sysclkOk (u : Bool) (d : Die) : (hostLink u d).fcu.sysclkOk = d.fcu.sysclkOk :=
  by obtain ⟨_, _, _, _, _, h⟩ := hostLink_parts u d; rw [h]
@[simp] theorem hostLink_fcu_tj (u : Bool) (d : Die) : (hostLink u d).fcu.tj = d.fcu.tj :=
  by obtain ⟨_, _, _, _, _, h⟩ := hostLink_parts u d; rw [h]
@[simp] theorem hostLink_fcu_tjPeak (u : Bool) (d : Die) : (hostLink u d).fcu.tjPeak = d.fcu.tjPeak :=
  by obtain ⟨_, _, _, _, _, h⟩ := hostLink_parts u d; rw [h]
@[simp] theorem hostLink_mem (u : Bool) (d : Die) : (hostLink u d).mem = d.mem :=
  by obtain ⟨_, _, _, _, _, h⟩ := hostLink_parts u d; rw [h]
@[simp] theorem hostLink_key (u : Bool) (d : Die) : (hostLink u d).key = d.key :=
  by obtain ⟨_, _, _, _, _, h⟩ := hostLink_parts u d; rw [h]
@[simp] theorem hostLink_pel (u : Bool) (d : Die) : (hostLink u d).pel = d.pel :=
  by obtain ⟨_, _, _, _, _, h⟩ := hostLink_parts u d; rw [h]
@[simp] theorem hostLink_descs (u : Bool) (d : Die) : (hostLink u d).descs = d.descs :=
  by obtain ⟨_, _, _, _, _, h⟩ := hostLink_parts u d; rw [h]
@[simp] theorem hostLink_freeCtr (u : Bool) (d : Die) : (hostLink u d).freeCtr = d.freeCtr :=
  by obtain ⟨_, _, _, _, _, h⟩ := hostLink_parts u d; rw [h]

/-! ## raiseRat -/

@[simp] theorem raiseRat_which (o r v : Nat) (d : Die) : (raiseRat o r v d).which = d.which :=
  by obtain ⟨_, _, _, _, h⟩ := raiseRat_parts o r v d; rw [h]
@[simp] theorem raiseRat_phase (o r v : Nat) (d : Die) : (raiseRat o r v d).phase = d.phase :=
  by obtain ⟨_, _, _, _, h⟩ := raiseRat_parts o r v d; rw [h]
@[simp] theorem raiseRat_phaseSlot (o r v : Nat) (d : Die) : (raiseRat o r v d).phaseSlot = d.phaseSlot :=
  by obtain ⟨_, _, _, _, h⟩ := raiseRat_parts o r v d; rw [h]
@[simp] theorem raiseRat_regs_live (o r v : Nat) (d : Die) : (raiseRat o r v d).regs.live = d.regs.live :=
  by obtain ⟨_, _, _, _, h⟩ := raiseRat_parts o r v d; rw [h]
@[simp] theorem raiseRat_regs_staged (o r v : Nat) (d : Die) : (raiseRat o r v d).regs.staged = d.regs.staged :=
  by obtain ⟨_, _, _, _, h⟩ := raiseRat_parts o r v d; rw [h]
@[simp] theorem raiseRat_regs_late (o r v : Nat) (d : Die) : (raiseRat o r v d).regs.late = d.regs.late :=
  by obtain ⟨_, _, _, _, h⟩ := raiseRat_parts o r v d; rw [h]
@[simp] theorem raiseRat_regs_held (o r v : Nat) (d : Die) : (raiseRat o r v d).regs.held = d.regs.held :=
  by obtain ⟨_, _, _, _, h⟩ := raiseRat_parts o r v d; rw [h]
@[simp] theorem raiseRat_regs_cap (o r v : Nat) (d : Die) : (raiseRat o r v d).regs.cap = d.regs.cap :=
  by obtain ⟨_, _, _, _, h⟩ := raiseRat_parts o r v d; rw [h]
@[simp] theorem raiseRat_regs_enabled (o r v : Nat) (d : Die) : (raiseRat o r v d).regs.enabled = d.regs.enabled :=
  by obtain ⟨_, _, _, _, h⟩ := raiseRat_parts o r v d; rw [h]
@[simp] theorem raiseRat_wlk (o r v : Nat) (d : Die) : (raiseRat o r v d).wlk = d.wlk :=
  by obtain ⟨_, _, _, _, h⟩ := raiseRat_parts o r v d; rw [h]
@[simp] theorem raiseRat_wrd (o r v : Nat) (d : Die) : (raiseRat o r v d).wrd = d.wrd :=
  by obtain ⟨_, _, _, _, h⟩ := raiseRat_parts o r v d; rw [h]
@[simp] theorem raiseRat_chn (o r v : Nat) (d : Die) : (raiseRat o r v d).chn = d.chn :=
  by obtain ⟨_, _, _, _, h⟩ := raiseRat_parts o r v d; rw [h]
@[simp] theorem raiseRat_rat_loHeld (o r v : Nat) (d : Die) : (raiseRat o r v d).rat.loHeld = d.rat.loHeld :=
  by obtain ⟨_, _, _, _, h⟩ := raiseRat_parts o r v d; rw [h]
@[simp] theorem raiseRat_rat_hiLatch (o r v : Nat) (d : Die) : (raiseRat o r v d).rat.hiLatch = d.rat.hiLatch :=
  by obtain ⟨_, _, _, _, h⟩ := raiseRat_parts o r v d; rw [h]
@[simp] theorem raiseRat_adm (o r v : Nat) (d : Die) : (raiseRat o r v d).adm = d.adm :=
  by obtain ⟨_, _, _, _, h⟩ := raiseRat_parts o r v d; rw [h]
@[simp] theorem raiseRat_cad (o r v : Nat) (d : Die) : (raiseRat o r v d).cad = d.cad :=
  by obtain ⟨_, _, _, _, h⟩ := raiseRat_parts o r v d; rw [h]
@[simp] theorem raiseRat_sealing (o r v : Nat) (d : Die) : (raiseRat o r v d).sealing = d.sealing :=
  by obtain ⟨_, _, _, _, h⟩ := raiseRat_parts o r v d; rw [h]
@[simp] theorem raiseRat_res (o r v : Nat) (d : Die) : (raiseRat o r v d).res = d.res :=
  by obtain ⟨_, _, _, _, h⟩ := raiseRat_parts o r v d; rw [h]
@[simp] theorem raiseRat_bnd (o r v : Nat) (d : Die) : (raiseRat o r v d).bnd = d.bnd :=
  by obtain ⟨_, _, _, _, h⟩ := raiseRat_parts o r v d; rw [h]
@[simp] theorem raiseRat_nle (o r v : Nat) (d : Die) : (raiseRat o r v d).nle = d.nle :=
  by obtain ⟨_, _, _, _, h⟩ := raiseRat_parts o r v d; rw [h]
@[simp] theorem raiseRat_cwe (o r v : Nat) (d : Die) : (raiseRat o r v d).cwe = d.cwe :=
  by obtain ⟨_, _, _, _, h⟩ := raiseRat_parts o r v d; rw [h]
@[simp] theorem raiseRat_snt (o r v : Nat) (d : Die) : (raiseRat o r v d).snt = d.snt :=
  by obtain ⟨_, _, _, _, h⟩ := raiseRat_parts o r v d; rw [h]
@[simp] theorem raiseRat_shk (o r v : Nat) (d : Die) : (raiseRat o r v d).shk = d.shk :=
  by obtain ⟨_, _, _, _, h⟩ := raiseRat_parts o r v d; rw [h]
@[simp] theorem raiseRat_sig (o r v : Nat) (d : Die) : (raiseRat o r v d).sig = d.sig :=
  by obtain ⟨_, _, _, _, h⟩ := raiseRat_parts o r v d; rw [h]
@[simp] theorem raiseRat_vp (o r v : Nat) (d : Die) : (raiseRat o r v d).vp = d.vp :=
  by obtain ⟨_, _, _, _, h⟩ := raiseRat_parts o r v d; rw [h]
@[simp] theorem raiseRat_spk (o r v : Nat) (d : Die) : (raiseRat o r v d).spk = d.spk :=
  by obtain ⟨_, _, _, _, h⟩ := raiseRat_parts o r v d; rw [h]
@[simp] theorem raiseRat_dbg (o r v : Nat) (d : Die) : (raiseRat o r v d).dbg = d.dbg :=
  by obtain ⟨_, _, _, _, h⟩ := raiseRat_parts o r v d; rw [h]
@[simp] theorem raiseRat_sntb (o r v : Nat) (d : Die) : (raiseRat o r v d).sntb = d.sntb :=
  by obtain ⟨_, _, _, _, h⟩ := raiseRat_parts o r v d; rw [h]
@[simp] theorem raiseRat_tim (o r v : Nat) (d : Die) : (raiseRat o r v d).tim = d.tim :=
  by obtain ⟨_, _, _, _, h⟩ := raiseRat_parts o r v d; rw [h]
@[simp] theorem raiseRat_hst (o r v : Nat) (d : Die) : (raiseRat o r v d).hst = d.hst :=
  by obtain ⟨_, _, _, _, h⟩ := raiseRat_parts o r v d; rw [h]
@[simp] theorem raiseRat_ing (o r v : Nat) (d : Die) : (raiseRat o r v d).ing = d.ing :=
  by obtain ⟨_, _, _, _, h⟩ := raiseRat_parts o r v d; rw [h]
@[simp] theorem raiseRat_wdn (o r v : Nat) (d : Die) : (raiseRat o r v d).wdn = d.wdn :=
  by obtain ⟨_, _, _, _, h⟩ := raiseRat_parts o r v d; rw [h]
@[simp] theorem raiseRat_fcu_src (o r v : Nat) (d : Die) : (raiseRat o r v d).fcu.src = d.fcu.src :=
  by obtain ⟨_, _, _, _, h⟩ := raiseRat_parts o r v d; rw [h]
@[simp] theorem raiseRat_fcu_sev (o r v : Nat) (d : Die) : (raiseRat o r v d).fcu.sev = d.fcu.sev :=
  by obtain ⟨_, _, _, _, h⟩ := raiseRat_parts o r v d; rw [h]
@[simp] theorem raiseRat_fcu_first (o r v : Nat) (d : Die) : (raiseRat o r v d).fcu.first = d.fcu.first :=
  by obtain ⟨_, _, _, _, h⟩ := raiseRat_parts o r v d; rw [h]
@[simp] theorem raiseRat_fcu_second (o r v : Nat) (d : Die) : (raiseRat o r v d).fcu.second = d.fcu.second :=
  by obtain ⟨_, _, _, _, h⟩ := raiseRat_parts o r v d; rw [h]
@[simp] theorem raiseRat_fcu_echo (o r v : Nat) (d : Die) : (raiseRat o r v d).fcu.echo = d.fcu.echo :=
  by obtain ⟨_, _, _, _, h⟩ := raiseRat_parts o r v d; rw [h]
@[simp] theorem raiseRat_fcu_asserted (o r v : Nat) (d : Die) : (raiseRat o r v d).fcu.asserted = d.fcu.asserted :=
  by obtain ⟨_, _, _, _, h⟩ := raiseRat_parts o r v d; rw [h]
@[simp] theorem raiseRat_fcu_alive (o r v : Nat) (d : Die) : (raiseRat o r v d).fcu.alive = d.fcu.alive :=
  by obtain ⟨_, _, _, _, h⟩ := raiseRat_parts o r v d; rw [h]
@[simp] theorem raiseRat_fcu_minRun (o r v : Nat) (d : Die) : (raiseRat o r v d).fcu.minRun = d.fcu.minRun :=
  by obtain ⟨_, _, _, _, h⟩ := raiseRat_parts o r v d; rw [h]
@[simp] theorem raiseRat_fcu_acked (o r v : Nat) (d : Die) : (raiseRat o r v d).fcu.acked = d.fcu.acked :=
  by obtain ⟨_, _, _, _, h⟩ := raiseRat_parts o r v d; rw [h]
@[simp] theorem raiseRat_fcu_stopped (o r v : Nat) (d : Die) : (raiseRat o r v d).fcu.stopped = d.fcu.stopped :=
  by obtain ⟨_, _, _, _, h⟩ := raiseRat_parts o r v d; rw [h]
@[simp] theorem raiseRat_fcu_hold (o r v : Nat) (d : Die) : (raiseRat o r v d).fcu.hold = d.fcu.hold :=
  by obtain ⟨_, _, _, _, h⟩ := raiseRat_parts o r v d; rw [h]
@[simp] theorem raiseRat_fcu_sysHold (o r v : Nat) (d : Die) : (raiseRat o r v d).fcu.sysHold = d.fcu.sysHold :=
  by obtain ⟨_, _, _, _, h⟩ := raiseRat_parts o r v d; rw [h]
@[simp] theorem raiseRat_fcu_entries (o r v : Nat) (d : Die) : (raiseRat o r v d).fcu.entries = d.fcu.entries :=
  by obtain ⟨_, _, _, _, h⟩ := raiseRat_parts o r v d; rw [h]
@[simp] theorem raiseRat_fcu_lastSrc (o r v : Nat) (d : Die) : (raiseRat o r v d).fcu.lastSrc = d.fcu.lastSrc :=
  by obtain ⟨_, _, _, _, h⟩ := raiseRat_parts o r v d; rw [h]
@[simp] theorem raiseRat_fcu_held (o r v : Nat) (d : Die) : (raiseRat o r v d).fcu.held = d.fcu.held :=
  by obtain ⟨_, _, _, _, h⟩ := raiseRat_parts o r v d; rw [h]
@[simp] theorem raiseRat_fcu_entryNs (o r v : Nat) (d : Die) : (raiseRat o r v d).fcu.entryNs = d.fcu.entryNs :=
  by obtain ⟨_, _, _, _, h⟩ := raiseRat_parts o r v d; rw [h]
@[simp] theorem raiseRat_fcu_step (o r v : Nat) (d : Die) : (raiseRat o r v d).fcu.step = d.fcu.step :=
  by obtain ⟨_, _, _, _, h⟩ := raiseRat_parts o r v d; rw [h]
@[simp] theorem raiseRat_fcu_clkLost (o r v : Nat) (d : Die) : (raiseRat o r v d).fcu.clkLost = d.fcu.clkLost :=
  by obtain ⟨_, _, _, _, h⟩ := raiseRat_parts o r v d; rw [h]
@[simp] theorem raiseRat_fcu_parityBad (o r v : Nat) (d : Die) : (raiseRat o r v d).fcu.parityBad = d.fcu.parityBad :=
  by obtain ⟨_, _, _, _, h⟩ := raiseRat_parts o r v d; rw [h]
@[simp] theorem raiseRat_fcu_railBad (o r v : Nat) (d : Die) : (raiseRat o r v d).fcu.railBad = d.fcu.railBad :=
  by obtain ⟨_, _, _, _, h⟩ := raiseRat_parts o r v d; rw [h]
@[simp] theorem raiseRat_fcu_stalled (o r v : Nat) (d : Die) : (raiseRat o r v d).fcu.stalled = d.fcu.stalled :=
  by obtain ⟨_, _, _, _, h⟩ := raiseRat_parts o r v d; rw [h]
@[simp] theorem raiseRat_fcu_sysclkOk (o r v : Nat) (d : Die) : (raiseRat o r v d).fcu.sysclkOk = d.fcu.sysclkOk :=
  by obtain ⟨_, _, _, _, h⟩ := raiseRat_parts o r v d; rw [h]
@[simp] theorem raiseRat_fcu_tj (o r v : Nat) (d : Die) : (raiseRat o r v d).fcu.tj = d.fcu.tj :=
  by obtain ⟨_, _, _, _, h⟩ := raiseRat_parts o r v d; rw [h]
@[simp] theorem raiseRat_fcu_tjPeak (o r v : Nat) (d : Die) : (raiseRat o r v d).fcu.tjPeak = d.fcu.tjPeak :=
  by obtain ⟨_, _, _, _, h⟩ := raiseRat_parts o r v d; rw [h]
@[simp] theorem raiseRat_mem (o r v : Nat) (d : Die) : (raiseRat o r v d).mem = d.mem :=
  by obtain ⟨_, _, _, _, h⟩ := raiseRat_parts o r v d; rw [h]
@[simp] theorem raiseRat_key (o r v : Nat) (d : Die) : (raiseRat o r v d).key = d.key :=
  by obtain ⟨_, _, _, _, h⟩ := raiseRat_parts o r v d; rw [h]
@[simp] theorem raiseRat_pel (o r v : Nat) (d : Die) : (raiseRat o r v d).pel = d.pel :=
  by obtain ⟨_, _, _, _, h⟩ := raiseRat_parts o r v d; rw [h]
@[simp] theorem raiseRat_descs (o r v : Nat) (d : Die) : (raiseRat o r v d).descs = d.descs :=
  by obtain ⟨_, _, _, _, h⟩ := raiseRat_parts o r v d; rw [h]
@[simp] theorem raiseRat_freeCtr (o r v : Nat) (d : Die) : (raiseRat o r v d).freeCtr = d.freeCtr :=
  by obtain ⟨_, _, _, _, h⟩ := raiseRat_parts o r v d; rw [h]
@[simp] theorem raiseRat_out (o r v : Nat) (d : Die) : (raiseRat o r v d).out = d.out :=
  by obtain ⟨_, _, _, _, h⟩ := raiseRat_parts o r v d; rw [h]

/-! ## pelOut -/

@[simp] theorem pelOut_which (p : Nat) (b : Bytes) (d : Die) : (pelOut p b d).which = d.which :=
  by obtain ⟨_, _, h⟩ := pelOut_parts p b d; rw [h]
@[simp] theorem pelOut_phase (p : Nat) (b : Bytes) (d : Die) : (pelOut p b d).phase = d.phase :=
  by obtain ⟨_, _, h⟩ := pelOut_parts p b d; rw [h]
@[simp] theorem pelOut_phaseSlot (p : Nat) (b : Bytes) (d : Die) : (pelOut p b d).phaseSlot = d.phaseSlot :=
  by obtain ⟨_, _, h⟩ := pelOut_parts p b d; rw [h]
@[simp] theorem pelOut_regs_live (p : Nat) (b : Bytes) (d : Die) : (pelOut p b d).regs.live = d.regs.live :=
  by obtain ⟨_, _, h⟩ := pelOut_parts p b d; rw [h]
@[simp] theorem pelOut_regs_staged (p : Nat) (b : Bytes) (d : Die) : (pelOut p b d).regs.staged = d.regs.staged :=
  by obtain ⟨_, _, h⟩ := pelOut_parts p b d; rw [h]
@[simp] theorem pelOut_regs_late (p : Nat) (b : Bytes) (d : Die) : (pelOut p b d).regs.late = d.regs.late :=
  by obtain ⟨_, _, h⟩ := pelOut_parts p b d; rw [h]
@[simp] theorem pelOut_regs_held (p : Nat) (b : Bytes) (d : Die) : (pelOut p b d).regs.held = d.regs.held :=
  by obtain ⟨_, _, h⟩ := pelOut_parts p b d; rw [h]
@[simp] theorem pelOut_regs_cap (p : Nat) (b : Bytes) (d : Die) : (pelOut p b d).regs.cap = d.regs.cap :=
  by obtain ⟨_, _, h⟩ := pelOut_parts p b d; rw [h]
@[simp] theorem pelOut_regs_enabled (p : Nat) (b : Bytes) (d : Die) : (pelOut p b d).regs.enabled = d.regs.enabled :=
  by obtain ⟨_, _, h⟩ := pelOut_parts p b d; rw [h]
@[simp] theorem pelOut_errs (p : Nat) (b : Bytes) (d : Die) : (pelOut p b d).errs = d.errs :=
  by obtain ⟨_, _, h⟩ := pelOut_parts p b d; rw [h]
@[simp] theorem pelOut_wlk (p : Nat) (b : Bytes) (d : Die) : (pelOut p b d).wlk = d.wlk :=
  by obtain ⟨_, _, h⟩ := pelOut_parts p b d; rw [h]
@[simp] theorem pelOut_wrd (p : Nat) (b : Bytes) (d : Die) : (pelOut p b d).wrd = d.wrd :=
  by obtain ⟨_, _, h⟩ := pelOut_parts p b d; rw [h]
@[simp] theorem pelOut_chn (p : Nat) (b : Bytes) (d : Die) : (pelOut p b d).chn = d.chn :=
  by obtain ⟨_, _, h⟩ := pelOut_parts p b d; rw [h]
@[simp] theorem pelOut_rat (p : Nat) (b : Bytes) (d : Die) : (pelOut p b d).rat = d.rat :=
  by obtain ⟨_, _, h⟩ := pelOut_parts p b d; rw [h]
@[simp] theorem pelOut_adm (p : Nat) (b : Bytes) (d : Die) : (pelOut p b d).adm = d.adm :=
  by obtain ⟨_, _, h⟩ := pelOut_parts p b d; rw [h]
@[simp] theorem pelOut_cad (p : Nat) (b : Bytes) (d : Die) : (pelOut p b d).cad = d.cad :=
  by obtain ⟨_, _, h⟩ := pelOut_parts p b d; rw [h]
@[simp] theorem pelOut_sealing (p : Nat) (b : Bytes) (d : Die) : (pelOut p b d).sealing = d.sealing :=
  by obtain ⟨_, _, h⟩ := pelOut_parts p b d; rw [h]
@[simp] theorem pelOut_res (p : Nat) (b : Bytes) (d : Die) : (pelOut p b d).res = d.res :=
  by obtain ⟨_, _, h⟩ := pelOut_parts p b d; rw [h]
@[simp] theorem pelOut_bnd (p : Nat) (b : Bytes) (d : Die) : (pelOut p b d).bnd = d.bnd :=
  by obtain ⟨_, _, h⟩ := pelOut_parts p b d; rw [h]
@[simp] theorem pelOut_nle (p : Nat) (b : Bytes) (d : Die) : (pelOut p b d).nle = d.nle :=
  by obtain ⟨_, _, h⟩ := pelOut_parts p b d; rw [h]
@[simp] theorem pelOut_cwe (p : Nat) (b : Bytes) (d : Die) : (pelOut p b d).cwe = d.cwe :=
  by obtain ⟨_, _, h⟩ := pelOut_parts p b d; rw [h]
@[simp] theorem pelOut_snt (p : Nat) (b : Bytes) (d : Die) : (pelOut p b d).snt = d.snt :=
  by obtain ⟨_, _, h⟩ := pelOut_parts p b d; rw [h]
@[simp] theorem pelOut_shk (p : Nat) (b : Bytes) (d : Die) : (pelOut p b d).shk = d.shk :=
  by obtain ⟨_, _, h⟩ := pelOut_parts p b d; rw [h]
@[simp] theorem pelOut_sig (p : Nat) (b : Bytes) (d : Die) : (pelOut p b d).sig = d.sig :=
  by obtain ⟨_, _, h⟩ := pelOut_parts p b d; rw [h]
@[simp] theorem pelOut_vp (p : Nat) (b : Bytes) (d : Die) : (pelOut p b d).vp = d.vp :=
  by obtain ⟨_, _, h⟩ := pelOut_parts p b d; rw [h]
@[simp] theorem pelOut_spk (p : Nat) (b : Bytes) (d : Die) : (pelOut p b d).spk = d.spk :=
  by obtain ⟨_, _, h⟩ := pelOut_parts p b d; rw [h]
@[simp] theorem pelOut_dbg (p : Nat) (b : Bytes) (d : Die) : (pelOut p b d).dbg = d.dbg :=
  by obtain ⟨_, _, h⟩ := pelOut_parts p b d; rw [h]
@[simp] theorem pelOut_sntb (p : Nat) (b : Bytes) (d : Die) : (pelOut p b d).sntb = d.sntb :=
  by obtain ⟨_, _, h⟩ := pelOut_parts p b d; rw [h]
@[simp] theorem pelOut_tim (p : Nat) (b : Bytes) (d : Die) : (pelOut p b d).tim = d.tim :=
  by obtain ⟨_, _, h⟩ := pelOut_parts p b d; rw [h]
@[simp] theorem pelOut_hst (p : Nat) (b : Bytes) (d : Die) : (pelOut p b d).hst = d.hst :=
  by obtain ⟨_, _, h⟩ := pelOut_parts p b d; rw [h]
@[simp] theorem pelOut_ing (p : Nat) (b : Bytes) (d : Die) : (pelOut p b d).ing = d.ing :=
  by obtain ⟨_, _, h⟩ := pelOut_parts p b d; rw [h]
@[simp] theorem pelOut_wdn (p : Nat) (b : Bytes) (d : Die) : (pelOut p b d).wdn = d.wdn :=
  by obtain ⟨_, _, h⟩ := pelOut_parts p b d; rw [h]
@[simp] theorem pelOut_fcu (p : Nat) (b : Bytes) (d : Die) : (pelOut p b d).fcu = d.fcu :=
  by obtain ⟨_, _, h⟩ := pelOut_parts p b d; rw [h]
@[simp] theorem pelOut_mem (p : Nat) (b : Bytes) (d : Die) : (pelOut p b d).mem = d.mem :=
  by obtain ⟨_, _, h⟩ := pelOut_parts p b d; rw [h]
@[simp] theorem pelOut_key (p : Nat) (b : Bytes) (d : Die) : (pelOut p b d).key = d.key :=
  by obtain ⟨_, _, h⟩ := pelOut_parts p b d; rw [h]
@[simp] theorem pelOut_pel (p : Nat) (b : Bytes) (d : Die) : (pelOut p b d).pel = d.pel :=
  by obtain ⟨_, _, h⟩ := pelOut_parts p b d; rw [h]
@[simp] theorem pelOut_descs (p : Nat) (b : Bytes) (d : Die) : (pelOut p b d).descs = d.descs :=
  by obtain ⟨_, _, h⟩ := pelOut_parts p b d; rw [h]
@[simp] theorem pelOut_freeCtr (p : Nat) (b : Bytes) (d : Die) : (pelOut p b d).freeCtr = d.freeCtr :=
  by obtain ⟨_, _, h⟩ := pelOut_parts p b d; rw [h]

/-! ## sendNode -/

@[simp] theorem sendNode_which (t n : Nat) (k : Option Bytes) (b : Bytes) (d : Die) :
    (sendNode t n k b d).which = d.which :=
  by obtain ⟨_, _, _, _, _, h⟩ := sendNode_parts t n k b d; rw [h]
@[simp] theorem sendNode_phase (t n : Nat) (k : Option Bytes) (b : Bytes) (d : Die) :
    (sendNode t n k b d).phase = d.phase :=
  by obtain ⟨_, _, _, _, _, h⟩ := sendNode_parts t n k b d; rw [h]
@[simp] theorem sendNode_phaseSlot (t n : Nat) (k : Option Bytes) (b : Bytes) (d : Die) :
    (sendNode t n k b d).phaseSlot = d.phaseSlot :=
  by obtain ⟨_, _, _, _, _, h⟩ := sendNode_parts t n k b d; rw [h]
@[simp] theorem sendNode_regs_live (t n : Nat) (k : Option Bytes) (b : Bytes) (d : Die) :
    (sendNode t n k b d).regs.live = d.regs.live :=
  by obtain ⟨_, _, _, _, _, h⟩ := sendNode_parts t n k b d; rw [h]
@[simp] theorem sendNode_regs_staged (t n : Nat) (k : Option Bytes) (b : Bytes) (d : Die) :
    (sendNode t n k b d).regs.staged = d.regs.staged :=
  by obtain ⟨_, _, _, _, _, h⟩ := sendNode_parts t n k b d; rw [h]
@[simp] theorem sendNode_regs_late (t n : Nat) (k : Option Bytes) (b : Bytes) (d : Die) :
    (sendNode t n k b d).regs.late = d.regs.late :=
  by obtain ⟨_, _, _, _, _, h⟩ := sendNode_parts t n k b d; rw [h]
@[simp] theorem sendNode_regs_held (t n : Nat) (k : Option Bytes) (b : Bytes) (d : Die) :
    (sendNode t n k b d).regs.held = d.regs.held :=
  by obtain ⟨_, _, _, _, _, h⟩ := sendNode_parts t n k b d; rw [h]
@[simp] theorem sendNode_regs_cap (t n : Nat) (k : Option Bytes) (b : Bytes) (d : Die) :
    (sendNode t n k b d).regs.cap = d.regs.cap :=
  by obtain ⟨_, _, _, _, _, h⟩ := sendNode_parts t n k b d; rw [h]
@[simp] theorem sendNode_regs_enabled (t n : Nat) (k : Option Bytes) (b : Bytes) (d : Die) :
    (sendNode t n k b d).regs.enabled = d.regs.enabled :=
  by obtain ⟨_, _, _, _, _, h⟩ := sendNode_parts t n k b d; rw [h]
@[simp] theorem sendNode_wlk (t n : Nat) (k : Option Bytes) (b : Bytes) (d : Die) : (sendNode t n k b d).wlk = d.wlk :=
  by obtain ⟨_, _, _, _, _, h⟩ := sendNode_parts t n k b d; rw [h]
@[simp] theorem sendNode_wrd (t n : Nat) (k : Option Bytes) (b : Bytes) (d : Die) : (sendNode t n k b d).wrd = d.wrd :=
  by obtain ⟨_, _, _, _, _, h⟩ := sendNode_parts t n k b d; rw [h]
@[simp] theorem sendNode_chn (t n : Nat) (k : Option Bytes) (b : Bytes) (d : Die) : (sendNode t n k b d).chn = d.chn :=
  by obtain ⟨_, _, _, _, _, h⟩ := sendNode_parts t n k b d; rw [h]
@[simp] theorem sendNode_rat (t n : Nat) (k : Option Bytes) (b : Bytes) (d : Die) : (sendNode t n k b d).rat = d.rat :=
  by obtain ⟨_, _, _, _, _, h⟩ := sendNode_parts t n k b d; rw [h]
@[simp] theorem sendNode_adm (t n : Nat) (k : Option Bytes) (b : Bytes) (d : Die) : (sendNode t n k b d).adm = d.adm :=
  by obtain ⟨_, _, _, _, _, h⟩ := sendNode_parts t n k b d; rw [h]
@[simp] theorem sendNode_cad (t n : Nat) (k : Option Bytes) (b : Bytes) (d : Die) : (sendNode t n k b d).cad = d.cad :=
  by obtain ⟨_, _, _, _, _, h⟩ := sendNode_parts t n k b d; rw [h]
@[simp] theorem sendNode_sealing (t n : Nat) (k : Option Bytes) (b : Bytes) (d : Die) :
    (sendNode t n k b d).sealing = d.sealing :=
  by obtain ⟨_, _, _, _, _, h⟩ := sendNode_parts t n k b d; rw [h]
@[simp] theorem sendNode_res (t n : Nat) (k : Option Bytes) (b : Bytes) (d : Die) : (sendNode t n k b d).res = d.res :=
  by obtain ⟨_, _, _, _, _, h⟩ := sendNode_parts t n k b d; rw [h]
@[simp] theorem sendNode_bnd (t n : Nat) (k : Option Bytes) (b : Bytes) (d : Die) : (sendNode t n k b d).bnd = d.bnd :=
  by obtain ⟨_, _, _, _, _, h⟩ := sendNode_parts t n k b d; rw [h]
@[simp] theorem sendNode_nle (t n : Nat) (k : Option Bytes) (b : Bytes) (d : Die) : (sendNode t n k b d).nle = d.nle :=
  by obtain ⟨_, _, _, _, _, h⟩ := sendNode_parts t n k b d; rw [h]
@[simp] theorem sendNode_cwe (t n : Nat) (k : Option Bytes) (b : Bytes) (d : Die) : (sendNode t n k b d).cwe = d.cwe :=
  by obtain ⟨_, _, _, _, _, h⟩ := sendNode_parts t n k b d; rw [h]
@[simp] theorem sendNode_snt (t n : Nat) (k : Option Bytes) (b : Bytes) (d : Die) : (sendNode t n k b d).snt = d.snt :=
  by obtain ⟨_, _, _, _, _, h⟩ := sendNode_parts t n k b d; rw [h]
@[simp] theorem sendNode_shk (t n : Nat) (k : Option Bytes) (b : Bytes) (d : Die) : (sendNode t n k b d).shk = d.shk :=
  by obtain ⟨_, _, _, _, _, h⟩ := sendNode_parts t n k b d; rw [h]
@[simp] theorem sendNode_sig (t n : Nat) (k : Option Bytes) (b : Bytes) (d : Die) : (sendNode t n k b d).sig = d.sig :=
  by obtain ⟨_, _, _, _, _, h⟩ := sendNode_parts t n k b d; rw [h]
@[simp] theorem sendNode_vp (t n : Nat) (k : Option Bytes) (b : Bytes) (d : Die) : (sendNode t n k b d).vp = d.vp :=
  by obtain ⟨_, _, _, _, _, h⟩ := sendNode_parts t n k b d; rw [h]
@[simp] theorem sendNode_spk (t n : Nat) (k : Option Bytes) (b : Bytes) (d : Die) : (sendNode t n k b d).spk = d.spk :=
  by obtain ⟨_, _, _, _, _, h⟩ := sendNode_parts t n k b d; rw [h]
@[simp] theorem sendNode_dbg (t n : Nat) (k : Option Bytes) (b : Bytes) (d : Die) : (sendNode t n k b d).dbg = d.dbg :=
  by obtain ⟨_, _, _, _, _, h⟩ := sendNode_parts t n k b d; rw [h]
@[simp] theorem sendNode_sntb (t n : Nat) (k : Option Bytes) (b : Bytes) (d : Die) :
    (sendNode t n k b d).sntb = d.sntb :=
  by obtain ⟨_, _, _, _, _, h⟩ := sendNode_parts t n k b d; rw [h]
@[simp] theorem sendNode_tim (t n : Nat) (k : Option Bytes) (b : Bytes) (d : Die) : (sendNode t n k b d).tim = d.tim :=
  by obtain ⟨_, _, _, _, _, h⟩ := sendNode_parts t n k b d; rw [h]
@[simp] theorem sendNode_hst (t n : Nat) (k : Option Bytes) (b : Bytes) (d : Die) : (sendNode t n k b d).hst = d.hst :=
  by obtain ⟨_, _, _, _, _, h⟩ := sendNode_parts t n k b d; rw [h]
@[simp] theorem sendNode_ing (t n : Nat) (k : Option Bytes) (b : Bytes) (d : Die) : (sendNode t n k b d).ing = d.ing :=
  by obtain ⟨_, _, _, _, _, h⟩ := sendNode_parts t n k b d; rw [h]
@[simp] theorem sendNode_wdn (t n : Nat) (k : Option Bytes) (b : Bytes) (d : Die) : (sendNode t n k b d).wdn = d.wdn :=
  by obtain ⟨_, _, _, _, _, h⟩ := sendNode_parts t n k b d; rw [h]
@[simp] theorem sendNode_fcu_src (t n : Nat) (k : Option Bytes) (b : Bytes) (d : Die) :
    (sendNode t n k b d).fcu.src = d.fcu.src :=
  by obtain ⟨_, _, _, _, _, h⟩ := sendNode_parts t n k b d; rw [h]
@[simp] theorem sendNode_fcu_sev (t n : Nat) (k : Option Bytes) (b : Bytes) (d : Die) :
    (sendNode t n k b d).fcu.sev = d.fcu.sev :=
  by obtain ⟨_, _, _, _, _, h⟩ := sendNode_parts t n k b d; rw [h]
@[simp] theorem sendNode_fcu_first (t n : Nat) (k : Option Bytes) (b : Bytes) (d : Die) :
    (sendNode t n k b d).fcu.first = d.fcu.first :=
  by obtain ⟨_, _, _, _, _, h⟩ := sendNode_parts t n k b d; rw [h]
@[simp] theorem sendNode_fcu_second (t n : Nat) (k : Option Bytes) (b : Bytes) (d : Die) :
    (sendNode t n k b d).fcu.second = d.fcu.second :=
  by obtain ⟨_, _, _, _, _, h⟩ := sendNode_parts t n k b d; rw [h]
@[simp] theorem sendNode_fcu_echo (t n : Nat) (k : Option Bytes) (b : Bytes) (d : Die) :
    (sendNode t n k b d).fcu.echo = d.fcu.echo :=
  by obtain ⟨_, _, _, _, _, h⟩ := sendNode_parts t n k b d; rw [h]
@[simp] theorem sendNode_fcu_asserted (t n : Nat) (k : Option Bytes) (b : Bytes) (d : Die) :
    (sendNode t n k b d).fcu.asserted = d.fcu.asserted :=
  by obtain ⟨_, _, _, _, _, h⟩ := sendNode_parts t n k b d; rw [h]
@[simp] theorem sendNode_fcu_alive (t n : Nat) (k : Option Bytes) (b : Bytes) (d : Die) :
    (sendNode t n k b d).fcu.alive = d.fcu.alive :=
  by obtain ⟨_, _, _, _, _, h⟩ := sendNode_parts t n k b d; rw [h]
@[simp] theorem sendNode_fcu_minRun (t n : Nat) (k : Option Bytes) (b : Bytes) (d : Die) :
    (sendNode t n k b d).fcu.minRun = d.fcu.minRun :=
  by obtain ⟨_, _, _, _, _, h⟩ := sendNode_parts t n k b d; rw [h]
@[simp] theorem sendNode_fcu_acked (t n : Nat) (k : Option Bytes) (b : Bytes) (d : Die) :
    (sendNode t n k b d).fcu.acked = d.fcu.acked :=
  by obtain ⟨_, _, _, _, _, h⟩ := sendNode_parts t n k b d; rw [h]
@[simp] theorem sendNode_fcu_stopped (t n : Nat) (k : Option Bytes) (b : Bytes) (d : Die) :
    (sendNode t n k b d).fcu.stopped = d.fcu.stopped :=
  by obtain ⟨_, _, _, _, _, h⟩ := sendNode_parts t n k b d; rw [h]
@[simp] theorem sendNode_fcu_hold (t n : Nat) (k : Option Bytes) (b : Bytes) (d : Die) :
    (sendNode t n k b d).fcu.hold = d.fcu.hold :=
  by obtain ⟨_, _, _, _, _, h⟩ := sendNode_parts t n k b d; rw [h]
@[simp] theorem sendNode_fcu_sysHold (t n : Nat) (k : Option Bytes) (b : Bytes) (d : Die) :
    (sendNode t n k b d).fcu.sysHold = d.fcu.sysHold :=
  by obtain ⟨_, _, _, _, _, h⟩ := sendNode_parts t n k b d; rw [h]
@[simp] theorem sendNode_fcu_entries (t n : Nat) (k : Option Bytes) (b : Bytes) (d : Die) :
    (sendNode t n k b d).fcu.entries = d.fcu.entries :=
  by obtain ⟨_, _, _, _, _, h⟩ := sendNode_parts t n k b d; rw [h]
@[simp] theorem sendNode_fcu_lastSrc (t n : Nat) (k : Option Bytes) (b : Bytes) (d : Die) :
    (sendNode t n k b d).fcu.lastSrc = d.fcu.lastSrc :=
  by obtain ⟨_, _, _, _, _, h⟩ := sendNode_parts t n k b d; rw [h]
@[simp] theorem sendNode_fcu_held (t n : Nat) (k : Option Bytes) (b : Bytes) (d : Die) :
    (sendNode t n k b d).fcu.held = d.fcu.held :=
  by obtain ⟨_, _, _, _, _, h⟩ := sendNode_parts t n k b d; rw [h]
@[simp] theorem sendNode_fcu_entryNs (t n : Nat) (k : Option Bytes) (b : Bytes) (d : Die) :
    (sendNode t n k b d).fcu.entryNs = d.fcu.entryNs :=
  by obtain ⟨_, _, _, _, _, h⟩ := sendNode_parts t n k b d; rw [h]
@[simp] theorem sendNode_fcu_step (t n : Nat) (k : Option Bytes) (b : Bytes) (d : Die) :
    (sendNode t n k b d).fcu.step = d.fcu.step :=
  by obtain ⟨_, _, _, _, _, h⟩ := sendNode_parts t n k b d; rw [h]
@[simp] theorem sendNode_fcu_clkLost (t n : Nat) (k : Option Bytes) (b : Bytes) (d : Die) :
    (sendNode t n k b d).fcu.clkLost = d.fcu.clkLost :=
  by obtain ⟨_, _, _, _, _, h⟩ := sendNode_parts t n k b d; rw [h]
@[simp] theorem sendNode_fcu_parityBad (t n : Nat) (k : Option Bytes) (b : Bytes) (d : Die) :
    (sendNode t n k b d).fcu.parityBad = d.fcu.parityBad :=
  by obtain ⟨_, _, _, _, _, h⟩ := sendNode_parts t n k b d; rw [h]
@[simp] theorem sendNode_fcu_railBad (t n : Nat) (k : Option Bytes) (b : Bytes) (d : Die) :
    (sendNode t n k b d).fcu.railBad = d.fcu.railBad :=
  by obtain ⟨_, _, _, _, _, h⟩ := sendNode_parts t n k b d; rw [h]
@[simp] theorem sendNode_fcu_stalled (t n : Nat) (k : Option Bytes) (b : Bytes) (d : Die) :
    (sendNode t n k b d).fcu.stalled = d.fcu.stalled :=
  by obtain ⟨_, _, _, _, _, h⟩ := sendNode_parts t n k b d; rw [h]
@[simp] theorem sendNode_fcu_sysclkOk (t n : Nat) (k : Option Bytes) (b : Bytes) (d : Die) :
    (sendNode t n k b d).fcu.sysclkOk = d.fcu.sysclkOk :=
  by obtain ⟨_, _, _, _, _, h⟩ := sendNode_parts t n k b d; rw [h]
@[simp] theorem sendNode_fcu_tj (t n : Nat) (k : Option Bytes) (b : Bytes) (d : Die) :
    (sendNode t n k b d).fcu.tj = d.fcu.tj :=
  by obtain ⟨_, _, _, _, _, h⟩ := sendNode_parts t n k b d; rw [h]
@[simp] theorem sendNode_fcu_tjPeak (t n : Nat) (k : Option Bytes) (b : Bytes) (d : Die) :
    (sendNode t n k b d).fcu.tjPeak = d.fcu.tjPeak :=
  by obtain ⟨_, _, _, _, _, h⟩ := sendNode_parts t n k b d; rw [h]
@[simp] theorem sendNode_mem (t n : Nat) (k : Option Bytes) (b : Bytes) (d : Die) : (sendNode t n k b d).mem = d.mem :=
  by obtain ⟨_, _, _, _, _, h⟩ := sendNode_parts t n k b d; rw [h]
@[simp] theorem sendNode_key (t n : Nat) (k : Option Bytes) (b : Bytes) (d : Die) : (sendNode t n k b d).key = d.key :=
  by obtain ⟨_, _, _, _, _, h⟩ := sendNode_parts t n k b d; rw [h]
@[simp] theorem sendNode_pel_ports (t n : Nat) (k : Option Bytes) (b : Bytes) (d : Die) :
    (sendNode t n k b d).pel.ports = d.pel.ports :=
  by obtain ⟨_, _, _, _, _, h⟩ := sendNode_parts t n k b d; rw [h]
@[simp] theorem sendNode_pel_epoch (t n : Nat) (k : Option Bytes) (b : Bytes) (d : Die) :
    (sendNode t n k b d).pel.epoch = d.pel.epoch :=
  by obtain ⟨_, _, _, _, _, h⟩ := sendNode_parts t n k b d; rw [h]
@[simp] theorem sendNode_pel_forming (t n : Nat) (k : Option Bytes) (b : Bytes) (d : Die) :
    (sendNode t n k b d).pel.forming = d.pel.forming :=
  by obtain ⟨_, _, _, _, _, h⟩ := sendNode_parts t n k b d; rw [h]
@[simp] theorem sendNode_pel_version (t n : Nat) (k : Option Bytes) (b : Bytes) (d : Die) :
    (sendNode t n k b d).pel.version = d.pel.version :=
  by obtain ⟨_, _, _, _, _, h⟩ := sendNode_parts t n k b d; rw [h]
@[simp] theorem sendNode_pel_topo (t n : Nat) (k : Option Bytes) (b : Bytes) (d : Die) :
    (sendNode t n k b d).pel.topo = d.pel.topo :=
  by obtain ⟨_, _, _, _, _, h⟩ := sendNode_parts t n k b d; rw [h]
@[simp] theorem sendNode_pel_ids (t n : Nat) (k : Option Bytes) (b : Bytes) (d : Die) :
    (sendNode t n k b d).pel.ids = d.pel.ids :=
  by obtain ⟨_, _, _, _, _, h⟩ := sendNode_parts t n k b d; rw [h]
@[simp] theorem sendNode_pel_gates (t n : Nat) (k : Option Bytes) (b : Bytes) (d : Die) :
    (sendNode t n k b d).pel.gates = d.pel.gates :=
  by obtain ⟨_, _, _, _, _, h⟩ := sendNode_parts t n k b d; rw [h]
@[simp] theorem sendNode_pel_chains (t n : Nat) (k : Option Bytes) (b : Bytes) (d : Die) :
    (sendNode t n k b d).pel.chains = d.pel.chains :=
  by obtain ⟨_, _, _, _, _, h⟩ := sendNode_parts t n k b d; rw [h]
@[simp] theorem sendNode_pel_result (t n : Nat) (k : Option Bytes) (b : Bytes) (d : Die) :
    (sendNode t n k b d).pel.result = d.pel.result :=
  by obtain ⟨_, _, _, _, _, h⟩ := sendNode_parts t n k b d; rw [h]
@[simp] theorem sendNode_descs (t n : Nat) (k : Option Bytes) (b : Bytes) (d : Die) :
    (sendNode t n k b d).descs = d.descs :=
  by obtain ⟨_, _, _, _, _, h⟩ := sendNode_parts t n k b d; rw [h]
@[simp] theorem sendNode_freeCtr (t n : Nat) (k : Option Bytes) (b : Bytes) (d : Die) :
    (sendNode t n k b d).freeCtr = d.freeCtr :=
  by obtain ⟨_, _, _, _, _, h⟩ := sendNode_parts t n k b d; rw [h]

end Sys2Proof.Machine
end

