-- ==== Sys2Proof/Laws/Memory.lean ====
section
/-! SUPPORT. Laws of a ledger's memory: the canonical form that every operation keeps, and what a byte reads after a
write (R168, R169). -/

namespace Sys2Proof.Machine

/-- The canonical form as a statement: addresses strictly rising, no zero byte listed. -/
theorem Memory.wf_iff (m : List Host.Cell) :
    Memory.wf m = true ↔ m.Pairwise (fun a b => a.1 < b.1) ∧ ∀ c ∈ m, c.2 ≠ 0 := by
  induction m with
  | nil => simp [Memory.wf]
  | cons c r ih =>
    obtain ⟨a, v⟩ := c
    cases r with
    | nil => simp [Memory.wf]
    | cons e r =>
      obtain ⟨b, w⟩ := e
      simp only [Memory.wf, Bool.and_eq_true, decide_eq_true_eq, bne_iff_ne, ih]
      constructor
      · rintro ⟨⟨hv, hab⟩, hp, hz⟩
        refine ⟨List.pairwise_cons.2 ⟨?_, hp⟩, ?_⟩
        · intro x hx
          rcases List.mem_cons.1 hx with rfl | hx
          · exact hab
          · exact lt_trans hab ((List.pairwise_cons.1 hp).1 x hx)
        · intro x hx
          rcases List.mem_cons.1 hx with rfl | hx
          · exact hv
          · exact hz x hx
      · rintro ⟨hp, hz⟩
        obtain ⟨h1, h2⟩ := List.pairwise_cons.1 hp
        exact ⟨⟨hz _ List.mem_cons_self, h1 _ List.mem_cons_self⟩, h2,
          fun x hx => hz x (List.mem_cons_of_mem _ hx)⟩

/-- The addresses that a write can leave listed. -/
theorem cellWrite_mem (m : List Host.Cell) (a : Nat) (v : Byte) {c : Host.Cell} (h : c ∈ cellWrite m a v) :
    c = (a, v) ∧ v ≠ 0 ∨ c ∈ m := by
  induction m with
  | nil =>
    simp only [cellWrite] at h
    split at h <;> simp_all
  | cons e r ih =>
    simp only [cellWrite] at h
    split at h
    · split at h
      · exact .inr h
      · rename_i hv; rcases List.mem_cons.1 h with rfl | h
        · exact .inl ⟨rfl, hv⟩
        · exact .inr h
    · split at h
      · split at h
        · exact .inr (List.mem_cons_of_mem _ h)
        · rename_i hv; rcases List.mem_cons.1 h with rfl | h
          · exact .inl ⟨rfl, hv⟩
          · exact .inr (List.mem_cons_of_mem _ h)
      · rcases List.mem_cons.1 h with rfl | h
        · exact .inr List.mem_cons_self
        · rcases ih h with h | h
          · exact .inl h
          · exact .inr (List.mem_cons_of_mem _ h)

/-- A write keeps the canonical form. -/
theorem cellWrite_wf (m : List Host.Cell) (a : Nat) (v : Byte) (h : Memory.wf m = true) :
    Memory.wf (cellWrite m a v) = true := by
  rw [Memory.wf_iff] at h ⊢
  refine ⟨?_, fun c hc => ?_⟩
  · obtain ⟨hp, -⟩ := h
    induction m with
    | nil => simp only [cellWrite]; split <;> simp
    | cons e r ih =>
      obtain ⟨b, w⟩ := e
      obtain ⟨h1, h2⟩ := List.pairwise_cons.1 hp
      simp only [cellWrite]
      split
      · split
        · exact hp
        · refine List.pairwise_cons.2 ⟨fun x hx => ?_, hp⟩
          rename_i hab _
          rcases List.mem_cons.1 hx with rfl | hx
          · exact hab
          · exact lt_trans hab (h1 x hx)
      · split
        · split
          · exact h2
          · subst_vars; exact List.pairwise_cons.2 ⟨h1, h2⟩
        · refine List.pairwise_cons.2 ⟨fun x hx => ?_, ih h2⟩
          rcases cellWrite_mem r a v hx with ⟨rfl, -⟩ | hx
          · dsimp only; omega
          · exact h1 x hx
  · rcases cellWrite_mem m a v hc with ⟨rfl, hv⟩ | hc
    · exact hv
    · exact h.2 c hc

/-- Writing a byte string keeps the canonical form. -/
theorem cellsWrite_wf (m : List Host.Cell) (a : Nat) (bs : Bytes) (h : Memory.wf m = true) :
    Memory.wf (cellsWrite m a bs) = true := by
  induction bs generalizing m a with
  | nil => exact h
  | cons b r ih => exact ih _ _ (cellWrite_wf m a b h)

/-- Blanking the rows from a position on keeps the canonical form. -/
theorem blankFrom_wf (m : Manifest) (density n : Nat) (cells : List Host.Cell) (h : Memory.wf cells = true) :
    Memory.wf (blankFrom m density n cells) = true := by
  rw [Memory.wf_iff] at h ⊢
  exact ⟨h.1.filter _, fun c hc => h.2 c (List.mem_of_mem_filter hc)⟩

end Sys2Proof.Machine
end

