-- ==== Sys2Proof/Laws/Quiet.lean ====
section
/-! SUPPORT. What the ends of batches, channels and admissions can never change: the parts of a die that `quiet` keeps. -/

namespace Sys2Proof.Machine

/-- A die without the parts that verdicts, channels, admissions, counters and messages change. -/
def quiet (d : Die) : Die := { d with
  regs := { d.regs with cnt := [], cap := [], live := mdel d.regs.live (fkey 0 pDBG 0x04C 15) }, dbg := {}, errs := [], fcu := { d.fcu with pend := [] }
  wrd := {}, chn := {}, rat := {}, adm := {}, cad := { d.cad with frags := [], removals := [], misses := [] }
  sealing := {}, vp := { d.vp with pipes := [] }, sntb := { d.sntb with runs := [] }, hst := {}, ing := {}, wdn := {}
  mem := { d.mem with withdrawn := [] }, key := { d.key with sessions := [], writes := [] }, pel := {}, descs := [], freeCtr := 0
  spk := { d.spk with early := [] }, out := [] }

/-! ## What `quiet` keeps -/

theorem quiet_which {d x : Die} (h : quiet x = quiet d) : x.which = d.which := show (quiet x).which = (quiet d).which by rw [h]
theorem quiet_phase {d x : Die} (h : quiet x = quiet d) : x.phase = d.phase := show (quiet x).phase = (quiet d).phase by rw [h]
theorem quiet_wlk {d x : Die} (h : quiet x = quiet d) : x.wlk = d.wlk := show (quiet x).wlk = (quiet d).wlk by rw [h]
theorem quiet_tim {d x : Die} (h : quiet x = quiet d) : x.tim = d.tim := show (quiet x).tim = (quiet d).tim by rw [h]
theorem quiet_spk {d x : Die} (h : quiet x = quiet d) : x.spk.up = d.spk.up :=
  show (quiet x).spk.up = (quiet d).spk.up by rw [h]
theorem quiet_res {d x : Die} (h : quiet x = quiet d) : x.res = d.res := show (quiet x).res = (quiet d).res by rw [h]
theorem quiet_sig {d x : Die} (h : quiet x = quiet d) : x.sig = d.sig := show (quiet x).sig = (quiet d).sig by rw [h]
/-- Every field in force but the arming of the debug log, which ends with the batch that it captures. -/
theorem quiet_live {d x : Die} (h : quiet x = quiet d) :
    mdel x.regs.live (fkey 0 pDBG 0x04C 15) = mdel d.regs.live (fkey 0 pDBG 0x04C 15) :=
  show (quiet x).regs.live = (quiet d).regs.live by rw [h]
theorem quiet_staged {d x : Die} (h : quiet x = quiet d) : x.regs.staged = d.regs.staged :=
  show (quiet x).regs.staged = (quiet d).regs.staged by rw [h]
theorem quiet_held {d x : Die} (h : quiet x = quiet d) : x.regs.held = d.regs.held :=
  show (quiet x).regs.held = (quiet d).regs.held by rw [h]
theorem quiet_enabled {d x : Die} (h : quiet x = quiet d) : x.regs.enabled = d.regs.enabled :=
  show (quiet x).regs.enabled = (quiet d).regs.enabled by rw [h]
theorem quiet_field {d x : Die} (h : quiet x = quiet d) (p o l : Nat) (hk : fkey 0 p o l ≠ fkey 0 pDBG 0x04C 15) :
    field x p o l = field d p o l := by
  have := congrArg (fun m => mget m (fkey 0 p o l)) (quiet_live h)
  simp only [mget_mdel, hk, if_false] at this
  simp [field, fieldSel, mgetD, this]
theorem quiet_pairing {d x : Die} (h : quiet x = quiet d) : x.vp.current = d.vp.current :=
  show (quiet x).vp.current = (quiet d).vp.current by rw [h]
theorem quiet_spans {d x : Die} (h : quiet x = quiet d) : x.cad.spans = d.cad.spans :=
  show (quiet x).cad.spans = (quiet d).cad.spans by rw [h]
theorem quiet_debug {d x : Die} (h : quiet x = quiet d) : x.key.debug = d.key.debug :=
  show (quiet x).key.debug = (quiet d).key.debug by rw [h]

/-- What holds of each step holds over a list. -/
theorem quiet_foldl {α : Type} (f : Die → α → Die) (hf : ∀ d a, quiet (f d a) = quiet d) (as : List α) (d : Die) :
    quiet (as.foldl f d) = quiet d := by
  induction as generalizing d with
  | nil => rfl
  | cons a r ih => rw [List.foldl_cons, ih, hf]

/-! ## Parts -/

@[simp] theorem quiet_updChn (f : Chn → Chn) (d : Die) : quiet (updChn f d) = quiet d := rfl
@[simp] theorem quiet_updAdm (f : Adm → Adm) (d : Die) : quiet (updAdm f d) = quiet d := rfl
@[simp] theorem quiet_updRat (f : Rat → Rat) (d : Die) : quiet (updRat f d) = quiet d := rfl
@[simp] theorem quiet_updWrd (f : Wrd → Wrd) (d : Die) : quiet (updWrd f d) = quiet d := rfl
@[simp] theorem quiet_updIng (f : Ing → Ing) (d : Die) : quiet (updIng f d) = quiet d := rfl
@[simp] theorem quiet_updHst (f : Hst → Hst) (d : Die) : quiet (updHst f d) = quiet d := rfl
@[simp] theorem quiet_updWdn (f : Wdn → Wdn) (d : Die) : quiet (updWdn f d) = quiet d := rfl
@[simp] theorem quiet_updPel (f : Pel → Pel) (d : Die) : quiet (updPel f d) = quiet d := rfl
@[simp] theorem quiet_updSealing (f : Sealing → Sealing) (d : Die) : quiet (updSealing f d) = quiet d := rfl
@[simp] theorem quiet_count (p o : Nat) (d : Die) : quiet (count p o d) = quiet d := rfl
@[simp] theorem quiet_countN (p o n : Nat) (d : Die) : quiet (countN p o n d) = quiet d := rfl
@[simp] theorem quiet_peak (p o v : Nat) (d : Die) : quiet (peak p o v d) = quiet d := rfl
@[simp] theorem quiet_setCap (p o v : Nat) (d : Die) : quiet (setCap p o v d) = quiet d := rfl
@[simp] theorem quiet_setErrPage (p : Nat) (e : ErrPage) (d : Die) : quiet (setErrPage p e d) = quiet d := rfl
@[simp] theorem quiet_emit (o : Out) (d : Die) : quiet (emit o d) = quiet d := rfl
@[simp] theorem quiet_drew (d : Die) : quiet (drew d) = quiet d := rfl
@[simp] theorem quiet_tellWarden (e : WdnEvent) (d : Die) : quiet (tellWarden e d) = quiet d := rfl
@[simp] theorem quiet_countPerms (n : Nat) (d : Die) : quiet (countPerms n d) = quiet d := rfl
@[simp] theorem quiet_setChan (c : Nat) (x : Chan) (d : Die) : quiet (setChan c x d) = quiet d := rfl
@[simp] theorem quiet_modChan (c : Nat) (f : Chan → Chan) (d : Die) : quiet (modChan c f d) = quiet d := rfl
@[simp] theorem quiet_modArr (c : Nat) (f : Arrival → Arrival) (d : Die) : quiet (modArr c f d) = quiet d := rfl
@[simp] theorem quiet_modTicket (n : Nat) (f : Batch → Batch) (d : Die) : quiet (modTicket n f d) = quiet d := rfl
@[simp] theorem quiet_dropTicket (n : Nat) (d : Die) : quiet (dropTicket n d) = quiet d := rfl
@[simp] theorem quiet_modModel (n : Nat) (f : Model → Model) (d : Die) : quiet (modModel n f d) = quiet d := rfl
@[simp] theorem quiet_setRatchet (r : Nat) (x : Ratchet) (d : Die) : quiet (setRatchet r x d) = quiet d := rfl
@[simp] theorem quiet_dropHeld (c : Nat) (d : Die) : quiet (dropHeld c d) = quiet d := rfl
@[simp] theorem quiet_updEarly (f : Spk → List (Nat × Decl)) (d : Die) :
    quiet (updSpk (fun s => { s with early := f s }) d) = quiet d := rfl
@[simp] theorem quiet_setDescs (m : AMap OpDesc) (d : Die) : quiet { d with descs := m } = quiet d := rfl
@[simp] theorem quiet_modPipe (n : Nat) (f : Pipe → Pipe) (d : Die) : quiet (modPipe n f d) = quiet d := rfl
@[simp] theorem quiet_sendSpoke (t u c x y z k : Nat) (p q : Bytes) (d : Die) :
    quiet (sendSpoke t u c x y z k p q d) = quiet d := rfl
@[simp] theorem quiet_releaseExtents (k o : Nat) (d : Die) : quiet (releaseExtents k o d) = quiet d := rfl
@[simp] theorem quiet_dropTag (k o : Nat) (d : Die) : quiet (dropTag k o d) = quiet d := rfl
@[simp] theorem quiet_rpmbQueue (w : RpmbWrite) (d : Die) : quiet (rpmbQueue w d) = quiet d := rfl
@[simp] theorem quiet_modSession (n : Nat) (f : Session → Session) (d : Die) : quiet (modSession n f d) = quiet d := rfl
@[simp] theorem quiet_freeFrames (b : Batch) (d : Die) : quiet (freeFrames b d) = quiet d := rfl
@[simp] theorem quiet_noteSlot (b : Batch) (d : Die) : quiet (noteSlot b d) = quiet d := by
  unfold noteSlot; dsimp only; split <;> rfl
@[simp] theorem quiet_endCapture (n : Nat) (d : Die) : quiet (endCapture n d) = quiet d := by
  unfold endCapture
  split
  · simp [quiet, setField, updDbg, mdel_mset]
  · rfl
@[simp] theorem quiet_leaveRuns (n : Nat) (d : Die) : quiet (leaveRuns n d) = quiet d := rfl
@[simp] theorem quiet_pelNext (d : Die) : quiet (pelNext d) = quiet d := rfl

/-! ## Events and messages -/

@[simp] theorem quiet_raiseAll (p : Nat) (bs : List Nat) (f : Bool) (d : Die) : quiet (raiseAll p bs f d) = quiet d := by
  obtain ⟨e, l, h⟩ := raiseAll_parts p bs f d; rw [h]; rfl

@[simp] theorem quiet_raise (p b : Nat) (d : Die) : quiet (raise p b d) = quiet d := quiet_raiseAll p [b] false d

@[simp] theorem quiet_sendEvent (c v : Nat) (d : Die) : quiet (sendEvent c v d) = quiet d := by
  obtain ⟨_, _, _, _, _, _, h⟩ := sendEvent_parts c v d; rw [h]; rfl

@[simp] theorem quiet_sendResult (i n s f : Nat) (b : Bytes) (d : Die) : quiet (sendResult i n s f b d) = quiet d := by
  obtain ⟨_, _, _, _, _, _, h⟩ := sendResult_parts i n s f b d; rw [h]; rfl

@[simp] theorem quiet_sendSeal (n : Nat) (b : Bytes) (d : Die) : quiet (sendSeal n b d) = quiet d := by
  obtain ⟨_, _, _, _, _, _, h⟩ := sendSeal_parts n b d; rw [h]; rfl

@[simp] theorem quiet_flushEgress (d : Die) : quiet (flushEgress d) = quiet d := by
  obtain ⟨_, _, _, _, _, h⟩ := flushEgress_parts d; rw [h]; rfl

@[simp] theorem quiet_sendNode (t n : Nat) (k : Option Bytes) (b : Bytes) (d : Die) :
    quiet (sendNode t n k b d) = quiet d := by
  obtain ⟨_, _, _, _, _, h⟩ := sendNode_parts t n k b d; rw [h]; rfl

@[simp] theorem quiet_raiseRat (o r v : Nat) (d : Die) : quiet (raiseRat o r v d) = quiet d := by
  obtain ⟨_, _, _, _, h⟩ := raiseRat_parts o r v d; rw [h]; rfl

/-! ## Batches -/

@[simp] theorem quiet_startPeriod (d : Die) : quiet (startPeriod d) = quiet d := by
  unfold startPeriod; dsimp only; split <;> simp

@[simp] theorem quiet_closePeriod (c : Bool) (d : Die) : quiet (closePeriod c d) = quiet d := by
  unfold closePeriod; dsimp only; split <;> simp

@[simp] theorem quiet_turnPeriod (c : Bool) (d : Die) : quiet (turnPeriod c d) = quiet d := by
  unfold turnPeriod; split <;> simp

@[simp] theorem quiet_turnDue (d : Die) : quiet (turnDue d) = quiet d := by
  unfold turnDue; split <;> simp

@[simp] theorem quiet_addLeaf (l : Leaf) (d : Die) : quiet (addLeaf l d) = quiet d := by
  unfold addLeaf; dsimp only; split
  · split <;> simp
  · simp

@[simp] theorem quiet_requestTurn (s : Nat) (f : Bool) (d : Die) : quiet (requestTurn s f d) = quiet d := by
  unfold requestTurn; dsimp only
  split
  · rfl
  · split
    · rfl
    · split
      · split <;> simp
      · simp
      · rfl

@[simp] theorem quiet_freeOldMonth (s : Nat) (d : Die) : quiet (freeOldMonth s d) = quiet d := rfl

@[simp] theorem quiet_bumpLedger (s : Bool) (c : Nat) (d : Die) : quiet (bumpLedger s c d) = quiet d := by
  unfold bumpLedger; dsimp only
  split
  · rfl
  · repeat' split
    all_goals simp

@[simp] theorem quiet_markLedger (b : Batch) (d : Die) : quiet (markLedger b d) = quiet d := by
  unfold markLedger; dsimp only
  split
  · rfl
  · split <;> simp

@[simp] theorem quiet_lowerLedger (c p : Nat) (d : Die) : quiet (lowerLedger c p d) = quiet d := by
  unfold lowerLedger; dsimp only; repeat' split
  all_goals simp

@[simp] theorem quiet_writeRing (c : Nat) (r : Bytes) (d : Die) : quiet (writeRing c r d) = quiet d := by
  unfold writeRing; dsimp only; split <;> simp

@[simp] theorem quiet_capture (c : Nat) (e : Nat × Nat × Nat × Nat × Nat) (d : Die) : quiet (capture c e d) = quiet d := by
  unfold capture; dsimp only; split
  · split <;> simp
  · rfl

@[simp] theorem quiet_sendPermit (b : Batch) (d : Die) : quiet (sendPermit b d) = quiet d := by
  unfold sendPermit; dsimp only; split <;> simp

@[simp] theorem quiet_updMisses (f : Cad → AMap Nat) (d : Die) :
    quiet (updCad (fun c => { c with misses := f c }) d) = quiet d := rfl

@[simp] theorem quiet_updRemovals (f : Cad → List (Nat × Nat)) (d : Die) :
    quiet (updCad (fun c => { c with removals := f c }) d) = quiet d := rfl

@[simp] theorem quiet_canaryDone (b : Batch) (v : Nat) (d : Die) : quiet (canaryDone b v d) = quiet d := by
  unfold canaryDone
  split
  · extract_lets x s d1 n d2
    have h1 : quiet d1 = quiet d := by simp [d1]
    have h2 : quiet d2 = quiet d := by simp [d2, h1, quiet_updMisses (fun c => mset c.misses s n)]
    split
    · exact h1
    · split
      · split <;> simp [h2]
      · simp [h1, quiet_updMisses (fun c => mset c.misses s 0)]
  · rfl

@[simp] theorem quiet_sendBoundary (c : Chain) (p : Nat) (g : Option Bytes) (d : Die) :
    quiet (sendBoundary c p g d) = quiet d := by
  unfold sendBoundary
  split
  · rfl
  · split <;> simp

@[simp] theorem quiet_sendBoundaries (b : Batch) (p : Bool) (d : Die) : quiet (sendBoundaries b p d) = quiet d := by
  unfold sendBoundaries
  split
  · exact quiet_foldl _ (fun d t => quiet_sendBoundary _ _ _ d) _ d
  · rfl

@[simp] theorem quiet_declare (n : Nat) (v : Decl) (d : Die) : quiet (declare n v d) = quiet d := by
  unfold declare
  split
  · rfl
  · split <;> simp

/-- A commit leaves everything alone that `quiet` keeps. -/
@[simp] theorem quiet_commit (n v k : Nat) (e : Bool) (d : Die) : quiet (commit n v k e d) = quiet d := by
  unfold commit
  split
  · rfl
  · rename_i b hb
    extract_lets c x inD outD io record leaf slot permit d1 own d2 d3 d4 d5 d6 d7 d8 d9 newest d10 d11 d12
    have h1 : quiet d1 = quiet d := by simp [d1]
    have h2 : quiet d2 = quiet d := by simp only [d2]; split <;> simp [h1]
    have h3 : quiet d3 = quiet d := by simp [d3, h2]
    have h4 : quiet d4 = quiet d := by simp only [d4]; split <;> simp [h3]
    have h5 : quiet d5 = quiet d := by simp [d5, h4]
    have h6 : quiet d6 = quiet d := by
      simp only [d6]; split
      · rw [quiet_foldl _ (fun d e => quiet_capture c e d) _ d5, h5]
      · exact h5
    have h7 : quiet d7 = quiet d := by simp only [d7]; split <;> simp [h6]
    have h8 : quiet d8 = quiet d := by simp only [d8]; split <;> simp [h7]
    have h9 : quiet d9 = quiet d := by simp [d9, h8]
    have h10 : quiet d10 = quiet d := by simp only [d10]; split <;> simp [h9]
    have h11 : quiet d11 = quiet d := by simp [d11, h10]
    have h12 : quiet d12 = quiet d := by simp [d12, h11]
    split <;> simp [h12]

@[simp] theorem quiet_endTicket (v k : Nat) (d : Die) (n : Nat) : quiet (endTicket v k d n) = quiet d := by
  unfold endTicket
  split
  · rfl
  · exact quiet_commit n v _ true d

@[simp] theorem quiet_countCoupled (b : Batch) (k : Nat) (d : Die) : quiet (countCoupled b k d) = quiet d := by
  unfold countCoupled; dsimp only
  split
  · split <;> split <;> simp
  · rfl

@[simp] theorem quiet_verdictNow (n : Nat) (d : Die) : quiet (verdictNow n d) = quiet d := by
  unfold verdictNow
  split
  · rfl
  · simp

/-! ## Channels -/

theorem quiet_endTickets (v k : Nat) (ns : List Nat) (d : Die) : quiet (ns.foldl (endTicket v k) d) = quiet d :=
  quiet_foldl _ (fun d n => quiet_endTicket v k d n) ns d

@[simp] theorem quiet_retireChan (ec v k c : Nat) (d : Die) : quiet (retireChan ec v k c d) = quiet d := by
  unfold retireChan; dsimp only
  split
  · split <;> simp [quiet_endTickets, quiet_updRemovals (fun q => q.removals ++ [(2, c)])]
  · rfl

@[simp] theorem quiet_retireWhere (p : Chan → Bool) (ec v k : Nat) (d : Die) : quiet (retireWhere p ec v k d) = quiet d := by
  unfold retireWhere
  exact quiet_foldl _ (fun d c => quiet_retireChan ec v k c d) _ d

@[simp] theorem quiet_chnStat (o c k : Nat) (d : Die) : quiet (chnStat o c k d) = quiet d := by
  unfold chnStat; dsimp only; split <;> simp

@[simp] theorem quiet_chnDone (o c k : Nat) (d : Die) : quiet (chnDone o c k d) = quiet d := by
  unfold chnDone; split <;> simp

@[simp] theorem quiet_openChan (c : Nat) (d : Die) : quiet (openChan c d) = quiet d := by
  unfold openChan; dsimp only; split <;> simp

@[simp] theorem quiet_closeChan (c : Nat) (d : Die) : quiet (closeChan c d) = quiet d := by
  unfold closeChan; dsimp only
  split <;> simp [quiet_endTickets, quiet_updRemovals (fun q => q.removals ++ [(2, c)])]

@[simp] theorem quiet_freeChan (c : Nat) (d : Die) : quiet (freeChan c d) = quiet d := by
  simp [freeChan, quiet_updEarly (fun q => q.early.filter _)]

@[simp] theorem quiet_updFrags (f : Cad → List TtEntry) (d : Die) :
    quiet (updCad (fun c => { c with frags := f c }) d) = quiet d := rfl

@[simp] theorem quiet_dropCreate (c k : Nat) (d : Die) : quiet (dropCreate c k d) = quiet d := by
  unfold dropCreate; dsimp only
  split
  · simp [quiet_updFrags (fun q => q.frags.filter _)]
  · rfl

@[simp] theorem quiet_chanBoundary (p d : Die) (c : Nat) : quiet (chanBoundary p d c) = quiet d := by
  unfold chanBoundary; dsimp only
  split
  · rfl
  · split
    · simp
    · split <;> simp
  · split
    · split <;> simp
    · rfl
  all_goals simp

@[simp] theorem quiet_chansBoundary (p d : Die) : quiet (chansBoundary p d) = quiet d :=
  quiet_foldl _ (fun d c => quiet_chanBoundary p d c) _ d

/-! ## Admissions -/

@[simp] theorem quiet_reportSlot (s c : Nat) (d : Die) : quiet (reportSlot s c d) = quiet d := by simp [reportSlot]

@[simp] theorem quiet_stopStream (s : Nat) (d : Die) : quiet (stopStream s d) = quiet d := by
  unfold stopStream
  split
  · split
    · simp
    · rfl
  · rfl

@[simp] theorem quiet_updWrites (f : KeyBlk → List RpmbWrite) (d : Die) :
    quiet (updKey (fun k => { k with writes := f k }) d) = quiet d := rfl

@[simp] theorem quiet_freeSlot (s : Nat) (d : Die) : quiet (freeSlot s d) = quiet d := by
  unfold freeSlot; simp [quiet_updWrites (fun k => k.writes.filter _)]

@[simp] theorem quiet_clearPeer (s : Nat) (d : Die) : quiet (clearPeer s d) = quiet d := rfl

@[simp] theorem quiet_endAdmission (s c : Nat) (t : Bool) (d : Die) : quiet (endAdmission s c t d) = quiet d := by
  unfold endAdmission tellRefusal; dsimp only
  repeat' split
  all_goals first | rfl | simp

@[simp] theorem quiet_withdrawModel (s : Nat) (d : Die) : quiet (withdrawModel s d) = quiet d := by simp [withdrawModel]

@[simp] theorem quiet_finishAbandoned (s : Nat) (d : Die) : quiet (finishAbandoned s d) = quiet d := by
  unfold finishAbandoned
  split
  · split
    · split <;> simp
    · rfl
  · rfl

@[simp] theorem quiet_abandonTurn (s c : Nat) (d : Die) : quiet (abandonTurn s c d) = quiet d := by
  unfold abandonTurn; simp [quiet_updWrites (fun k => k.writes.filter _)]

@[simp] theorem quiet_failStream (s c : Nat) (d : Die) : quiet (failStream s c d) = quiet d := by
  unfold failStream
  split
  · split <;> simp
  · rfl

@[simp] theorem quiet_requestStream (s : Nat) (t : Bool) (d : Die) : quiet (requestStream s t d) = quiet d := by
  unfold requestStream; dsimp only; repeat' split
  all_goals first | rfl | simp

@[simp] theorem quiet_streamDone (s : Nat) (d : Die) : quiet (streamDone s d) = quiet d := by
  unfold streamDone; dsimp only
  split
  · rfl
  · repeat' split
    all_goals simp

@[simp] theorem quiet_monthsBoundary (d : Die) : quiet (monthsBoundary d) = quiet d := by
  unfold monthsBoundary
  refine quiet_foldl _ ?_ _ d
  intro d s
  dsimp only
  split
  · rfl
  · split
    · simp
    · split <;> simp

end Sys2Proof.Machine
end

