-- ==== Sys2Proof/WellFormed.lean ====
section
/-! DEFINITION. Well-formed commands: every operand names something that the block has, and everything that arrives has the
size its rule gives it. A sender outside can send a command that is not well-formed; the block then does with it what its
meaning says. -/

namespace Sys2Proof

/-- Units of a block that can be retired and spared: RES tiles (chapter 05), BND and NLE tiles (chapter 06), CWE tiles (R183), SNT
units (R302), SHK cores (chapter 09). -/
def unitsOf (blk : Nat) : Nat :=
  if blk = 0x08 then 20 else if blk = 0x09 ∨ blk = 0x0A ∨ blk = 0x0B then 26 else if blk = 0x0C then 512
  else if blk = 0x0D then 8 else 0

/-- A flit is 528 bytes long (R34, R35). -/
def Flit.wf (f : Flit) : Bool := f.bytes.length == 528

/-- A record lies on one of the three virtual channels, and its payload fills whole 16-byte units (R55). -/
def RecIn.wf (r : RecIn) : Bool := decide (r.vc.toNat < 3) && r.payload.length % 16 == 0

/-- A Spoke message is 96 bytes long (R247). -/
def SpokeMsg.wf (m : SpokeMsg) : Bool := m.body.length == 96

/-- A comparison point's class is one of those that VP_MISMATCH_POINT names, a delay register's parity apart, and the member
that differs is a pipeline (R252). -/
def PointFault.wf : PointFault → Bool
  | .differs cls => decide (1 ≤ cls.toNat) && decide (cls.toNat ≤ 6)
  | .delayParity => true
  | .disagree => true
  | .odd member cls => decide (member.toNat < 6) && decide (1 ≤ cls.toNat) && decide (cls.toNat ≤ 6)

/-- A Pannier frame has a 32-byte tag and a payload whose length its header can give (R427). -/
def PFrame.wf (f : PFrame) : Bool := f.tag.length == 32 && decide (f.payload.length < 65536)

/-- A Peloton message that arrived whole has its 160 bytes of body and its 16 bytes of tag (R441). -/
def PelMsg.wf (m : PelMsg) : Bool := !m.fcsOk || (m.body.length == 160 && m.tag.length == 16)

/-- A word of scratch SRAM names no HBM channel or bank (R397). -/
def MemWord.wf (w : MemWord) : Bool := w.kind == .hbm || (w.chan == 0 && !w.pc && w.bank == 0)

/-- A resource table gives the state of every unit (R413). -/
def UnitTable.wf (u : UnitTable) : Bool :=
  u.res.length == unitsOf 0x08 && u.bnd.length == unitsOf 0x09 && u.nle.length == unitsOf 0x0A
    && u.cwe.length == unitsOf 0x0B && u.snt.length == unitsOf 0x0C && u.shk.length == unitsOf 0x0D && u.sig.length == 2

/-- What a die reads at boot is complete: the unit table, and a cause that R426 lists for a failed test. -/
def BootReads.wf (b : BootReads) : Bool := b.units.wf && decide (b.testFail.toNat ≤ 9)

/-- Every operand of a command is one that the block's rules give. -/
def Instr.wf : Instr → Bool
  | .resetNPulse _ => true
  | .resetRelease _ boot => boot.wf
  | .railOutOfRange _ => true
  | .railUndervoltage _ => true
  | .sysclkOutOfRange _ => true
  | .refclkLoss => true
  | .junctionTempCrossing _ _ => true
  | .hbmTempCrossing _ => true
  | .fcuSourceLatch _ => true
  | .autumnReinitDone _ _ => true
  | .autumnTimeout _ => true
  | .fcuSrcClear _ _ _ => true
  | .fcuAck _ _ => true
  | .faultNMinPulseExpiry _ => true
  | .faultNHalfPeriod _ => true
  | .fabricStall _ => true
  | .blkErrClear _ _ _ => true
  | .blkErrForce _ _ _ => true
  | .blkCtrlEnableWrite _ _ _ => true
  | .registerWrite _ addr _ => addr.toNat % 4 == 0
  | .slotBoundary _ => true
  | .symbolTick _ => true
  | .scrubRead _ at_ _ _ _ => at_.wf
  | .scrubPassOverrun _ _ => true
  | .rowRewrite _ at_ => at_.wf
  | .rowSpareDone _ at_ _ => at_.wf
  | .unitMapExtensionWrite _ _ => true
  | .extensionWriteRetry _ _ => true
  | .flitSlotTx _ _ _ => true
  | .dataFlit _ flit => flit.wf
  | .idleFlit _ flit => flit.wf
  | .hello _ flit => flit.wf
  | .helloTx _ => true
  | .lanesLocked _ => true
  | .adaptTimeout _ locked => decide (locked.toNat < 3)
  | .flitLock _ => true
  | .flitHuntTimeout _ => true
  | .helloTimeout _ => true
  | .retrainLimitExpiry _ => true
  | .nakRepeatLimit _ => true
  | .flitLockLost _ => true
  | .cdrLockLost _ => true
  | .fecErrorThreshold _ _ => true
  | .creditProgressTimeout _ => true
  | .wlkCmdRetrain _ => true
  | .wlkCmdResync _ => true
  | .wlkCmdRestore _ => true
  | .wlkCmdRetire _ => true
  | .stampedFrameForward _ => true
  | .layerOut _ r => r.wf
  | .layerIn _ r => r.wf
  | .attnOut _ r => r.wf
  | .tokenEnd _ r => r.wf
  | .batchEnd _ r => r.wf
  | .output _ r => r.wf
  | .radioFft _ r => r.wf
  | .radioLdpc _ r => r.wf
  | .radioTb _ r => r.wf
  | .shardDigest _ r => r.wf
  | .weightChunk _ r => r.wf
  | .ratchetBump _ r => r.wf
  | .heartbeat _ r => r.wf
  | .heartbeatTimeout _ => true
  | .stagingRoomFree _ lead => decide (lead.toNat < 6)
  | .ticketAvailable _ => true
  | .admitModel _ f => f.wf
  | .spokeAdmit _ m => m.wf
  | .weightStreamStart _ => true
  | .rpmbWriteConfirm _ => true
  | .rpmbAdmissionTimeout _ => true
  | .rpmbRetry _ => true
  | .rpmbLost _ => true
  | .loadTimeout _ => true
  | .withdraw _ f => f.wf
  | .turn _ f => f.wf
  | .monthPeriodExpiry _ _ => true
  | .monthTurnStart _ _ => true
  | .spokeTurn _ m => m.wf
  | .nop _ ⟨lead, pts⟩ => decide (lead.toNat < 6) && pts.all PointFault.wf
  | .movi _ ⟨lead, pts⟩ _ _ => decide (lead.toNat < 6) && pts.all PointFault.wf
  | .add _ ⟨lead, pts⟩ _ _ _ => decide (lead.toNat < 6) && pts.all PointFault.wf
  | .addi _ ⟨lead, pts⟩ _ _ _ => decide (lead.toNat < 6) && pts.all PointFault.wf
  | .mul _ ⟨lead, pts⟩ _ _ _ => decide (lead.toNat < 6) && pts.all PointFault.wf
  | .shl _ ⟨lead, pts⟩ _ _ _ => decide (lead.toNat < 6) && pts.all PointFault.wf
  | .ldc _ ⟨lead, pts⟩ _ _ => decide (lead.toNat < 6) && pts.all PointFault.wf
  | .ldb _ ⟨lead, pts⟩ _ _ => decide (lead.toNat < 6) && pts.all PointFault.wf
  | .loop _ ⟨lead, pts⟩ _ _ => decide (lead.toNat < 6) && pts.all PointFault.wf
  | .jmp _ ⟨lead, pts⟩ _ => decide (lead.toNat < 6) && pts.all PointFault.wf
  | .wrec _ ⟨lead, pts⟩ _ => decide (lead.toNat < 6) && pts.all PointFault.wf
  | .next _ ⟨lead, pts⟩ _ => decide (lead.toNat < 6) && pts.all PointFault.wf
  | .sync _ ⟨lead, pts⟩ _ => decide (lead.toNat < 6) && pts.all PointFault.wf
  | .mark _ ⟨lead, pts⟩ => decide (lead.toNat < 6) && pts.all PointFault.wf
  | .done _ ⟨lead, pts⟩ => decide (lead.toNat < 6) && pts.all PointFault.wf
  | .rchk _ lead _ _ => decide (lead.toNat < 6)
  | .bchk _ lead _ _ => decide (lead.toNat < 6)
  | .fftc _ lead _ _ => decide (lead.toNat < 6)
  | .ldpc _ lead _ _ => decide (lead.toNat < 6)
  | .crc _ lead _ _ => decide (lead.toNat < 6)
  | .dq _ lead _ _ => decide (lead.toNat < 6)
  | .qnt _ lead _ _ => decide (lead.toNat < 6)
  | .addv _ lead _ _ => decide (lead.toNat < 6)
  | .norm _ lead _ _ => decide (lead.toNat < 6)
  | .normf _ lead _ _ => decide (lead.toNat < 6)
  | .act _ lead _ _ => decide (lead.toNat < 6)
  | .actf _ lead _ _ => decide (lead.toNat < 6)
  | .rope _ lead _ _ => decide (lead.toNat < 6)
  | .band _ lead _ _ => decide (lead.toNat < 6)
  | .sel _ lead _ _ => decide (lead.toNat < 6)
  | .ocmp _ lead _ _ => decide (lead.toNat < 6)
  | .emb _ lead _ _ => decide (lead.toNat < 6)
  | .kvapp _ lead _ _ => decide (lead.toNat < 6)
  | .attn _ lead _ _ => decide (lead.toNat < 6)
  | .acmp _ lead _ _ => decide (lead.toNat < 6)
  | .dig _ lead _ _ => decide (lead.toNat < 6)
  | .dcmp _ lead _ _ => decide (lead.toNat < 6)
  | .shdc _ lead _ _ => decide (lead.toNat < 6)
  | .spareSubstitutionDone _ blk unit _ => decide (unit.toNat < unitsOf blk.toNat)
  | .trikeResync _ lead => decide (lead.toNat < 6)
  | .trikeResyncDone _ lead => decide (lead.toNat < 6)
  | .commitPoint _ ⟨_, pts⟩ => pts.all PointFault.wf
  | .verdictTime _ ⟨_, pts⟩ => pts.all PointFault.wf
  | .radioSlotLate _ _ _ => true
  | .declareCutoff _ _ => true
  | .sealPeriodBoundary _ => true
  | .sealSigned _ _ _ => true
  | .sigCmdCut _ => true
  | .sigCmdRetire0 _ => true
  | .sigCmdRetire1 _ => true
  | .imageRehash _ _ _ => true
  | .vpPairCmdStart _ _ => true
  | .handoverTakeEffect _ => true
  | .vpCmdInject _ pipe => decide (pipe.toNat < 6)
  | .vpCmdRetire _ pipe => decide (pipe.toNat < 6)
  | .dbgCtrlHalt _ group => decide (group.toNat < 6)
  | .dbgCtrlStep ⟨_, pts⟩ => pts.all PointFault.wf
  | .dbgCtrlResume _ => true
  | .dbgCtrlReplay _ _ => true
  | .dbgLogCfgArm _ _ => true
  | .declare _ m => m.wf
  | .spokePhase _ m => m.wf
  | .spokeSlot _ m _ => m.wf
  | .spokePair _ m => m.wf
  | .spokeEcho _ m => m.wf
  | .spokeEchoTx _ => true
  | .spokeTimeout _ => true
  | .windowStart _ _ => true
  | .segmentStart _ _ => true
  | .spanEnd _ _ => true
  | .selftest _ ⟨_, pts⟩ _ _ => pts.all PointFault.wf
  | .canary _ _ => true
  | .testpulse _ _ => true
  | .rebuild _ _ _ => true
  | .sentinel _ _ => true
  | .sentinelRunComplete _ _ _ => true
  | .cadCmdLoadStandby _ => true
  | .cadCmdSwap _ => true
  | .cadCmdDiscard _ => true
  | .chnCmdCreate _ _ => true
  | .chnCmdPause _ _ => true
  | .chnCmdResume _ _ => true
  | .chnCmdClose _ _ => true
  | .chnCmdRetire _ _ => true
  | .chnCmdFree _ _ => true
  | .chnCmdRead _ _ => true
  | .chnCmdSave _ _ => true
  | .chnCmdRestore _ _ => true
  | .chnRingTail _ _ _ => true
  | .ratCfgOwner _ _ _ => true
  | .ratValLo _ _ _ => true
  | .ratValHi _ _ _ => true
  | .ratchetBumpDownstream _ _ => true
  | .sntCmdLoad _ _ => true
  | .sntCmdUnload _ _ => true
  | .sntCmdRetire _ _ => true
  | .sntCmdSelfTest _ _ => true
  | .resCmdRetire _ tile => decide (tile.toNat < 20)
  | .resCmdSelfTest _ tile => decide (tile.toNat < 20)
  | .bndCmdRetire _ tile => decide (tile.toNat < 26)
  | .bndCmdSelfTest _ tile => decide (tile.toNat < 26)
  | .nleCmdRetire _ tile => decide (tile.toNat < 26)
  | .nleCmdSelfTest _ tile => decide (tile.toNat < 26)
  | .cweCmdRetire _ tile => decide (tile.toNat < 26)
  | .cweCmdSelfTest _ tile => decide (tile.toNat < 26)
  | .shkCmdRetire _ _ => true
  | .shkCmdSelfTest _ _ => true
  | .glbModeStrict _ _ => true
  | .sensorEnvelope _ _ _ => true
  | .ecpriIqData _ _ _ => true
  | .ingLinkChange _ _ _ => true
  | .hstLinkChange _ _ => true
  | .pelLinkChange _ port _ => decide (port.toNat < 3)
  | .atFrame _ => true
  | .atSfn _ _ _ => true
  | .atFrameMissing _ => true
  | .ptpSync _ m => m.source.length == 10
  | .ptpFollowUp _ m => m.source.length == 10
  | .ptpAnnounce _ m => m.port.length == 10
  | .ptpDelayReqTx _ => true
  | .ptpDelayResp _ m => m.source.length == 10
  | .ptpPdelayReq _ m => m.source.length == 10
  | .ptpPdelayResp _ m => m.source.length == 10
  | .ptpSyncTimeout _ => true
  | .timStep _ _ => true
  | .timCmdAsymAccept _ => true
  | .timCmdAtReacquire _ => true
  | .timTrigTgtHi _ _ => true
  | .triggerFire _ _ => true
  | .hstQbvCfgSwap _ => true
  | .wardenCycle _ _ => true
  | .darkTestPulseEnd _ _ _ => true
  | .tpIntervalExpiry _ _ => true
  | .discrepancyTimeout _ _ => true
  | .edmTimeout _ _ => true
  | .crosslinkTimeout _ => true
  | .clockCountWindow _ => true
  | .profileCrcCheck _ _ => true
  | .switchWordChange _ _ => true
  | .wdnReset _ => true
  | .wdnCmdStop _ _ => true
  | .wdnCmdRelease _ _ => true
  | .tickLoss _ => true
  | .watchdogExpiry _ _ stage => decide (1 ≤ stage.toNat) && decide (stage.toNat ≤ 4)
  | .freewheelExpiry _ _ => true
  | .sentinelPermitStale _ _ => true
  | .wardenStartUpDone _ _ => true
  | .pannierOpen _ f => f.wf
  | .confirm _ f => f.wf
  | .confirmTimeout _ _ => true
  | .close _ f => f.wf
  | .keepalive _ f => f.wf
  | .sessionIdleTimeout _ _ => true
  | .tagFailLimit _ _ => true
  | .read _ f => f.wf
  | .write _ f => f.wf
  | .bulkPut _ f => f.wf
  | .bulkGet _ f => f.wf
  | .sealAck _ f => f.wf
  | .flashCommit _ f _ => f.wf
  | .claim _ f => f.wf
  | .release _ f => f.wf
  | .unlock _ f => f.wf
  | .lock _ f => f.wf
  | .subscribe _ f => f.wf
  | .keyCmdLock _ => true
  | .keyCmdReload _ => true
  | .disc _ port m => decide (port.toNat < 3) && m.wf
  | .discTx _ port => decide (port.toNat < 3)
  | .pelotonEcho _ port m => decide (port.toNat < 3) && m.wf
  | .echoReply _ port m => decide (port.toNat < 3) && m.wf
  | .topo _ port m => decide (port.toNat < 3) && m.wf
  | .pelCmdForm _ => true
  | .formationQuiet _ => true
  | .pelGateCmdArrive _ _ => true
  | .gateArrive _ port m => decide (port.toNat < 3) && m.wf
  | .gateRelease _ port m => decide (port.toNat < 3) && m.wf
  | .gateCountdownExpiry _ _ => true
  | .gateAbort _ port m => decide (port.toNat < 3) && m.wf
  | .gateTimeout _ _ => true
  | .pelChainCmdLoad _ _ => true
  | .pelChainCmdClear _ _ => true
  | .pelChainCmdRead _ _ => true
  | .pelChainCmdSwitchPrev _ _ => true
  | .pelChainCmdSwitchNext _ _ => true
  | .chainOpen _ port m => decide (port.toNat < 3) && m.wf
  | .chainAuth _ port m => decide (port.toNat < 3) && m.wf
  | .boundary _ port m => decide (port.toNat < 3) && m.wf
  | .chainAlive _ port m => decide (port.toNat < 3) && m.wf
  | .chainAliveTx _ _ => true
  | .chainTimeout _ _ _ => true
  | .thawSequenceComplete _ passed cause => passed || (decide (1 ≤ cause.toNat) && decide (cause.toNat ≤ 9))
  | .ptpFrameEdge _ => true
  | .encoderInputEdge _ _ _ _ => true
  | .controlFabricHeartbeat _ => true
  | .sysclkReturns _ => true
  | .refclkReturns => true
  | .railReturnsToRange _ => true
  | .qbvGateIntervalEnd _ => true
  | .recoveryResetTimeout _ => true
  | .sentinelImageResident _ _ => true

end Sys2Proof
end

