-- ==== Sys2Proof/Tests/Slice0.lean ====
section
/-! SUPPORT. Tests of the model: ill-formed commands refused, effects with results from the spec, and the states that meet the
premises of the statements (the theorems named wit_ after a statement). -/

namespace Sys2Proof.Tests
open Sys2Proof Sys2Proof.Machine

set_option Elab.async false

/-- The machine after reset with die A changed. -/
def onA (f : Die → Die) : State := State.reset.setDie .a (f (State.reset.die .a))

/-- The machine after reset with die A in a phase and changed. -/
def inPhase (p : Phase) (f : Die → Die) : State := onA (fun d => f { d with phase := p })

/-- Die A in Spring. -/
def spring (f : Die → Die) : State := inPhase .spring f

/-- Die A in Spring with its link in a state, on both halves, with page WLK enabled. -/
def linkIn (st : LinkState) (f : Wlk → Wlk) : State :=
  spring (fun d => { d with wlk := f { d.wlk with state := st, halves := 3 }, regs := { d.regs with enabled := [pWLK] } })

/-- A model of one die, READY, with a manifest and a program. -/
def modelOf (m : Manifest) (p : Program) : Model :=
  { state := .ready, manifest := m, prog := p, k := 1, share := 0, dies := 1, loadChannel := 0, loadRatchet := 0
    loadTimeout := 1, periodH := 1, graceH := 1, session := 1, order := 1 }

/-- A word of the stack, and one of the scratch SRAM. -/
def hbmWord : MemWord := ⟨.hbm, 0, false, 0, 5, 3⟩
def sramWord : MemWord := ⟨.sram, 0, false, 0, 5, 3⟩

/-- Die A in Spring with memory health changed. -/
def withMem (f : MemHealth → MemHealth) : State := spring (fun d => { d with mem := f d.mem })

/-- Die A in Spring with channel 4 OPEN and one ticket of it. -/
def withTicket (x : Chan) (b : Batch) : State :=
  spring (fun d => { d with chn := { d.chn with tab := [(4, { x with state := .opened })], tickets := [{ b with channel := 4, serial := 1 }], serial := 1 } })

/-- A record of a type on a virtual channel, for channel 4, with the right header check. -/
def recOf (rtype : Nat) (vc : BitVec 2) (chan : BitVec 16) (seq locus : Word) (payload : Bytes) : RecIn :=
  let r : RecIn := ⟨vc, 0, BitVec.ofNat 16 (1 + payload.length / 16), chan, seq, locus, 0, payload⟩
  { r with hcheck := BitVec.ofNat 16 (crc16 (headBytes rtype r)) }

/-- A plan of one LAYER_OUT of 16 INT8 elements, a TOKEN_END and a BATCH_END. -/
def planOne : Program := { plan := [⟨1, 1, 0, 1, 0x1000, 16, 16⟩, ⟨4, 0, 0, 1, 0, 0, 0⟩, ⟨5, 0, 0, 1, 0, 0, 0⟩] }

/-- Die A in Spring with the link UP, a model in slot 0, channel 4 of it OPEN, and one ticket of it. -/
def withBatch (x : Chan) (b : Batch) : State :=
  spring (fun d => { d with
    wlk := { d.wlk with state := .up, halves := 3 }
    adm := { d.adm with models := [(0, modelOf { nLayers := 1 } planOne)] }
    vp := { d.vp with pipes := [{}, { lead := 1 }, { lead := 2 }] }
    chn := { d.chn with tab := [(4, { x with state := .opened })], tickets := [{ b with channel := 4, serial := 1 }], serial := 1 } })

/-- The LAYER_OUT, the TOKEN_END and the BATCH_END of a batch of one token at position 0. -/
def layerRec : RecIn := recOf 1 0 4 0 0x1000 (leBytes 4 0 ++ leBytes 4 0 ++ leBytes 4 16 ++ [1, 0, 0, 0] ++ List.replicate 16 7)
def tokenRec : RecIn := recOf 4 0 4 1 0 (leBytes 4 0 ++ leBytes 4 1 ++ leBytes 8 0)
def endRec : RecIn := recOf 5 0 4 2 0 (leBytes 4 0 ++ leBytes 4 0 ++ leBytes 4 1 ++ leBytes 4 0)

/-- Die A in Spring with the host port up and one session of a role open. -/
def theSession (role : Nat) : Session :=
  { id := 7, role := role, isOpen := true, client := List.replicate 57 1, kUp := List.replicate 32 2, kDown := List.replicate 32 3 }
def hosted (q : Session) (f : Die → Die) : State :=
  spring (fun d => f { d with regs := { d.regs with enabled := [pHST] }, hst := { d.hst with linkUp := true }
                              key := { d.key with sessions := [q] } })

/-- A request of that session, with its tag. -/
def plainFrame (payload : Bytes) : PFrame := ⟨0, 0, none, false, 7, 1, 0, 0, 0, payload, []⟩
def request (typ : Nat) (q : Session) (f : PFrame) : PFrame := { f with tag := upTag typ q f }

/-- Die A with a program running in its span on group 0, for the one ticket of channel 4. -/
def running (m : Model) (x : Chan) (b : Batch) (k : Core) : State :=
  spring (fun d => { d with
    wlk := { d.wlk with state := .up, halves := 3 }
    adm := { d.adm with models := [(0, m)] }
    vp := { d.vp with pipes := [{ core := { k with target := 4, run := [1], inSpan := true } }, { lead := 1 }, { lead := 2 }] }
    cad := { d.cad with active := { d.cad.active with entries := [{ kind := 1, group := 0, target := 4, slot := 0, start := 0, len := 100000 }] }
                        spans := [(0, 0, 1000000)] }
    chn := { d.chn with tab := [(4, { x with state := .opened })], tickets := [{ b with channel := 4, serial := 1 }], serial := 1 } })

/-- Die A in Spring with CAD running a timetable of one entry, for channel 4 and its one ticket. -/
def timed (e : TtEntry) (x : Chan) (b : Batch) (f : Die → Die) : State :=
  spring (fun d => f { d with
    wlk := { d.wlk with state := .up, halves := 3 }
    adm := { d.adm with models := [(0, modelOf { nLayers := 1 } planOne)] }
    vp := { d.vp with pipes := [{}, { lead := 1 }, { lead := 2 }, { lead := 3 }] }
    cad := { d.cad with running := true, active := { d.cad.active with entries := [e] } }
    sealing := { d.sealing with running := true }
    chn := { d.chn with tab := [(4, { x with state := .opened })], tickets := [{ b with channel := 4, serial := 1 }], serial := 2 } })

/-- What boot reads where the PUF gives nothing. -/
def badPuf : BootReads :=
  { pufSeed := [], pufCorrected := 0, pufOk := false, unitMap := [], units := ⟨63, [], [], [], [], [], [], [], [], [], [], [], []⟩
    extRecords := [], fwA := [], fwB := [], fwVersionA := 0, fwVersionB := 0, rpmbKeyed := true, rpmbOk := true
    rpmbBlock := [], rpmbCid := [], bootNoOk := true, trustList := [], wardenTable := [], hbmTrained := 255, pprOk := true
    zeroOk := true, pprLeft := 0, testFail := 0, sentinels := [] }


/-- Reset leaves both dies in Frost. -/
theorem test_reset_phase : (State.reset.die .a).phase = .frost := by decide

/-! ## Premises of the statements: each theorem shows states and operands that meet the premises of its clauses -/

/-- Die A of a state. -/
def dA (s : State) : Die := s.die .a

theorem wit_StepRunsTheFrontCommand : ∃ s : State, s.pending = [.refclkLoss] := ⟨{ State.reset with pending := [.refclkLoss] }, rfl⟩

theorem wit_EmptyQueueLetsOneCyclePass : State.reset.pending = [] ∧ (dA State.reset).phase = .frost ∧
    (spring id).pending = [] ∧ (dA (spring id)).phase ≠ .frost := by decide

theorem wit_EveryCommandRunsOnItsDies : DieId.b ∉ touches (.fabricStall .a) ∧ changesPackage (.fabricStall .a) = false := by decide

theorem wit_EveryStepKeepsRailsDistinct : RailsDistinct ({ railsOut := [.vdd .a], railsLow := [.vdd .a] } : Package) ∧
    ∃ t, step { State.reset with pkg := { railsOut := [.vdd .a], railsLow := [.vdd .a] } } = .next t :=
  ⟨by unfold RailsDistinct; decide, _, rfl⟩

theorem wit_EveryStepKeepsPositionsAndLedgers : Positions State.reset ∧ LedgersCanonical State.reset.dieA ∧
    LedgersCanonical State.reset.dieB ∧ ∃ t, step State.reset = .next t :=
  ⟨⟨rfl, rfl⟩, (fun _ h => nomatch h), (fun _ h => nomatch h), _, rfl⟩

/-- The bounds where the clauses of a pulse's length meet. -/
theorem wit_ResetPulseByItsLength : 999 < 1000 ∧ 10000 ≤ 10000 ∧ 1000 ≤ 1000 ∧ 1000 < 10000 ∧ 9999 < 10000 := by decide

theorem wit_RailEvents : supplies (.vdd .a) .b = false ∧ supplies (.vdd .a) .a = true ∧ (dA (spring id)).phase ≠ .frost ∧
    railsBad { railsOut := [.hbmVpp] } .a = true ∧ railsBad {} .a = false ∧ DieId.b ∉ railHeld (.vddSys .a) := by decide

theorem wit_SysclkOutOfRangeAndBack :
    let d := dA (spring (fun d => { d with fcu := { d.fcu with sysHold := true } }))
    d.phase ≠ .frost ∧ d.fcu.sysHold = true ∧ d.phase = .spring := by decide

theorem wit_RefclkLossAndReturn : (dA State.reset).phase = .frost ∧ (dA (spring id)).phase ≠ .frost := by decide

theorem wit_ResetReleaseStartsThaw : mayThaw State.reset.pkg (dA State.reset) = true ∧ badPuf.pufOk = false ∧
    mayThaw { refclkOk := false } (dA State.reset) = false := by decide

theorem wit_ThawEndsInSpringOrFails :
    let d := dA (inPhase .thaw (fun d => { d with key := { d.key with step := 9 } }))
    d.phase = .thaw ∧ d.key.cause = 0 ∧ d.fcu.held = false ∧ d.key.step = 9 := by decide

theorem wit_AutumnEndsInSpringOrHolds : (dA (inPhase .autumn id)).phase = .autumn ∧ (dA (inPhase .autumn id)).fcu.held = false := by
  decide

theorem wit_SourceLatchTakesUnmaskedEvents :
    let d := dA (spring (fun d => { d with fcu := { d.fcu with pend := [⟨3, 8, false⟩] }, chn := { d.chn with tab := [(4, { state := .opened })] } }))
    d.phase = .spring ∧ tst (errPage d 3).mask 8 = false ∧ sevOf 3 8 = some 4 ∧ d.fcu.pend = [⟨3, 8, false⟩] ∧
      chanLive (chan d 4) = true ∧
      let m := dA (spring (fun d => { d with errs := [(3, { mask := 1 })], fcu := { d.fcu with pend := [⟨3, 0, false⟩] } }))
      ∀ e ∈ m.fcu.pend, tst (errPage m e.page).mask e.bit = true := by decide

theorem wit_FaultPinForms : (0 : Word).toNat % 2 = 0 ∧ (1 : Word).toNat % 2 = 1 ∧
    (dA State.reset).fcu.alive = false ∧ sourceAt (dA State.reset) (pulseMin (dA State.reset)) = false ∧
    (dA State.reset).fcu.asserted = true ∧
    sourceAt (dA (onA (fun d => { d with fcu := { d.fcu with sev := [(1, 4)] } }))) (pulseMin (dA State.reset)) = true ∧
    (let d := dA (onA (fun d => { d with fcu := { d.fcu with alive := true, sev := [(1, 3)] } }))
     d.fcu.alive = true ∧ latchedAt d 3 = true) ∧
    (let d := dA (onA (fun d => { d with fcu := { d.fcu with alive := true } }))
     d.fcu.alive = true ∧ latchedAt d 3 = false) := by decide

theorem wit_ClearingAndForcingErrorBits : forceAllowed (dA (spring id)) = false ∧ forceAllowed (dA (inPhase .thaw id)) = true ∧
    pageAbsent (dA (inPhase .thaw id)) 3 = false ∧ (1 : Word).toNat &&& errBits 3 ≠ 0 ∧ 0 < (sevTable (blkCode 3)).length ∧
    tst (1 : Word).toNat 0 = true := by decide

/-- Also at the bounds of the temperatures. -/
theorem wit_StallsAndTemperatures :
    let d := dA (spring id)
    d.phase ≠ .frost ∧ tjMax d - 5 ≤ (100 : BitVec 9).toInt ∧ d.fcu.tj < tjMax d - 5 ∧ tjMax d + 5 ≤ (130 : BitVec 9).toInt ∧
      d.fcu.tj < tjMax d + 5 ∧ (99 : BitVec 9).toInt < tjMax d - 5 ∧ (85 : Byte).toNat ≤ 85 ∧ 85 < (86 : Byte).toNat ∧
      d.mem.tempC ≤ 85 := by decide

theorem wit_BlockEnableWrites :
    hasEnable 0x20 = true ∧ (dA (spring id)).phase ≠ .frost ∧ (1 : Word).toNat % 2 = 1 ∧ 0x20 ∉ (dA (spring id)).regs.enabled ∧
      (dA (spring id)).wlk.state = .off ∧ (0 : Word).toNat % 2 = 0 ∧
    (let d := dA (spring (fun d => { d with regs := { d.regs with enabled := [0x20, 0x24] } }))
     0x24 ∈ d.regs.enabled ∧ mayDisable d 0x24 = true) ∧
    (let d := dA (linkIn .up id)
     0x20 ∈ d.regs.enabled ∧ mayDisable d 0x20 = false) ∧
    (let d := dA (spring (fun d => { d with regs := { d.regs with held := [(fkey 0 0x22 0x40 0, 7)] } }))
     d.regs.held = [(fkey 0 0x22 0x40 0, 7)] ∧ fkey 0 0x22 0x40 0 / 131072 % 64 = 0x22 ∧ 0x22 ∉ d.regs.enabled) := by decide

/-- A register of each effect class that holds one field and acts on nothing: Live 0x003040, Staged 0x001054, Static
0x020040; a Staged write early in a slot and in its last 100 ns; and a dark page. -/
theorem wit_RegisterWriteByEffectClass :
    let d := dA (spring id)
    let e := dA (spring (fun d => { d with tim := { d.tim with slotDone := some 0 } }))
    let m := dA (spring (fun d => { d with adm := { d.adm with models := [(0, modelOf { strictReq := true } {})] } }))
    d.phase ≠ .frost ∧ pageDark d 0 = false ∧ pageDark d 0x3F = true ∧ 0x020 ≤ 0x4C ∧
      (rwAt pGLB 0x4C).map (fun f => f.eff) = [.staged] ∧ 100 < toNextSlot e.tim ∧ toNextSlot d.tim ≤ 100 ∧
      fieldLocked d pGLB 0x4C 0 0 = false ∧ fieldLocked m pGLB 0x4C 0 0 = true ∧
      (rwAt pWLK 0x40).map (fun f => f.eff) = [.static] ∧ pWLK ∉ d.regs.enabled ∧ pWLK ∈ (dA (linkIn .up id)).regs.enabled ∧
      (rwAt pSIG 0x44).length = 0 := by decide

theorem wit_ActingRegistersAreTheirCommands : (dA (spring id)).phase ≠ .frost := by decide

theorem wit_StrictModeIsStaged :
    let d := dA (spring (fun d => { d with tim := { d.tim with slotDone := some 0 } }))
    let m := dA (spring (fun d => { d with adm := { d.adm with models := [(0, modelOf { strictReq := true } {})] } }))
    let p := dA (spring (fun d => { d with regs := { d.regs with staged := [(fkey 0 pGLB 0x04C 0, 1)] } }))
    d.phase ≠ .frost ∧ strictDiscarded m 0 = true ∧ strictDiscarded d 1 = false ∧ 100 < toNextSlot d.tim ∧
      p.phase = .spring ∧ p.regs.staged = [(fkey 0 pGLB 0x04C 0, b2n true)] ∧ p.regs.late = [] := by decide

theorem wit_SlotBoundaryWork :
    let d := dA (spring (fun d => { d with tim := { d.tim with air := 499999 } }))
    (dA State.reset).phase = .frost ∧ d.phase = .spring ∧ d.tim.step = none ∧ d.tim.mu ≤ 3 ∧ d.tim.air + 1000000 < 2 ^ 64 := by
  decide


/-! ### Memory and link -/

/-- Memory health with one tracked row, spares left, and the row's pass before. -/
def tracked (rewritten : Bool) : State := withMem (fun m => { m with
  track := [⟨.hbm, rowKey hbmWord, 3, 9, 1, 0, 0, rewritten⟩], passHbm := 1, pprLeft := 1 })

theorem wit_ScrubReadsTrackRows :
    let m := (dA (spring id)).mem
    let t := (dA (tracked false)).mem
    let u := (dA (tracked true)).mem
    m.sparing.contains (hbmWord.kind, rowKey hbmWord) = false ∧ m.stuckInService.contains (hbmWord.kind, rowKey hbmWord) = false ∧
      m.track.find? (fun e => e.kind == hbmWord.kind && e.row == rowKey hbmWord) = none ∧ m.track.length < 1024 ∧
      t.track.find? (fun e => e.kind == hbmWord.kind && e.row == rowKey hbmWord) = t.track.head? ∧
      (t.track.map (fun e => (e.rewritten, e.word, e.synd))) = [(false, hbmWord.word.toNat, (9 : Byte).toNat)] ∧
      (t.track.map (fun e => e.passNo + 1)) = [passOf t .hbm] ∧
      (u.track.map (fun e => e.rewritten)) = [true] ∧ 0 < u.pprLeft ∧ 5 ≤ (5 : BitVec 3).toNat ∧ 0 < (1 : BitVec 3).toNat := by decide

set_option maxRecDepth 100000 in
/-- Also at the position where the clauses meet: a word at append is beyond the ledger. -/
theorem wit_UncorrectableWordsByRegion :
    let d := dA (withTicket { append := 6, validEnd := 6 } { staged := [⟨1, layerRec, 0, 0⟩] })
    (mget d.chn.tab 4).isSome = true ∧ (5 : Word).toNat < (chan d 4).append ∧ (chan d 4).append ≤ (6 : Word).toNat ∧
      ((chanTickets d 4).find? (fun b => !b.staged.isEmpty)).map (fun b => b.serial) = some 1 ∧
      ((chanTickets d 4).head?).map (fun b => b.serial) = some 1 ∧ ticket d 1 = (chanTickets d 4).head? ∧
      chanLive (chan d 4) = true := by decide

theorem wit_RowsAreRewrittenAndSpared :
    let m := (dA (withMem (fun m => { m with rewriteQ := [(.hbm, rowKey hbmWord)] }))).mem
    let p := dA (withMem (fun m => { m with sparing := [(.hbm, rowKey hbmWord)], pprLeft := 2 }))
    (hbmWord.kind, rowKey hbmWord) ∈ m.rewriteQ ∧ (hbmWord.kind, rowKey hbmWord) ∉ p.mem.rewriteQ ∧
      (hbmWord.kind, rowKey hbmWord) ∈ p.mem.sparing ∧ (hbmWord.kind, rowKey hbmWord) ∉ m.sparing ∧
      p.key.ext.length + p.mem.extQ.length < 1024 ∧ hbmWord.kind = .hbm ∧ 2 ≤ p.mem.pprLeft := by decide

theorem wit_ExtensionRecordsInOrder :
    (dA (withMem (fun m => { m with extQ := [[1, 2, 3], [4]], extRetry := true }))).mem.extQ = [1, 2, 3] :: [[4]] ∧
      (dA (withMem (fun m => { m with extQ := [[1, 2, 3], [4]], extRetry := true }))).mem.extRetry = true := by decide

theorem wit_LinkTrainingStates :
    (dA (linkIn .adapt id)).wlk.state = .adapt ∧ (dA (linkIn .adapt id)).wlk.halves < 4 ∧
      (1 : BitVec 2).toNat &&& (dA (linkIn .adapt id)).wlk.halves ≠ 0 ∧ (0 : BitVec 2).toNat &&& (dA (linkIn .adapt id)).wlk.halves = 0 ∧
      (dA (linkIn .flitHunt id)).wlk.state = .flitHunt ∧ (dA (linkIn .hello id)).wlk.state = .hello ∧
      (dA (linkIn .up id)).wlk.state = .up ∧
      (let d := { dA (linkIn .hello id) with tim := { (dA (linkIn .hello id)).tim with up := 200000000 } }
       within d (field d pWLK 0x050 0) d.wlk.leftAt = false) ∧
      (let d := { dA (linkIn .hello id) with tim := { (dA (linkIn .hello id)).tim with up := 1000000 } }
       within d (field d pWLK 0x050 0) d.wlk.leftAt = true) := by decide

theorem wit_LinkRetrains :
    let d := dA (linkIn .up id)
    let e := dA (linkIn .up (fun w => { w with retrains := [0, 0, 0, 0] }))
    let h := dA (linkIn .up (fun w => { w with halves := 1 }))
    d.wlk.state = .up ∧ (d.wlk.retrains.filter (fun t => within d 1000 t)).length < 4 ∧
      4 ≤ (e.wlk.retrains.filter (fun t => within e 1000 t)).length ∧ d.wlk.halves = 3 ∧ h.wlk.halves = 2 ^ b2n false ∧
      (h.wlk.retrains.filter (fun t => within h 1000 t)).length < 4 ∧ (dA (linkIn .hello id)).wlk.state ≠ .up := by decide

theorem wit_LinkResyncKeepsReplay :
    (dA (linkIn .up id)).wlk.state = .up ∧ dsWaiting (dA (linkIn .up id)) = false ∧
      dsWaiting (dA (linkIn .up (fun w => { w with dsTx1 := List.replicate 32 0 }))) = true := by decide

theorem wit_LinkRestoreAndRetire :
    let d := dA (spring (fun d => { d with
      phase := .summer, wlk := { d.wlk with state := .up, halves := 3 }, chn := { d.chn with tab := [(4, { state := .paused })] } }))
    (dA (linkIn .off id)).wlk.state = .off ∧ linkAllowed (dA (linkIn .off id)) = true ∧ linkAllowed (dA (spring id)) = false ∧
      d.wlk.state ≠ .off ∧ d.wlk.state ≠ .retired ∧ chanLive (chan d 4) = true ∧ (chan d 4).host.kind ≠ 3 := by decide

/-- A flit of a type with its right CRC. -/
def flitOf (typ vc fseq units : Nat) (payload : Bytes) : Flit := ⟨flitBytes typ vc fseq 4095 units 0 0 payload, 0, 0⟩

set_option maxRecDepth 100000 in
theorem wit_FlitsArrive :
    let d := dA (linkIn .up (fun w => { w with upGrant := ⟨384, 64, 16⟩ }))
    let w := d.wlk
    let f := flitOf 1 0 0 2 (List.replicate 32 7)
    let g := flitOf 1 0 5 2 (List.replicate 32 7)
    (dA (linkIn .adapt id)).wlk.state ≠ .up ∧ (dA (linkIn .adapt id)).wlk.state ≠ .hello ∧ w.state = .up ∧
      (dA (linkIn .hello id)).wlk.state = .hello ∧
      flCrcOk f.bytes = true ∧ f.fecOk = true ∧ flReservedOk f.bytes = true ∧ flType f.bytes = 1 ∧ flSeq f.bytes = w.rxNext ∧
      v3get w.upTaken (flVc f.bytes) < v3get w.upGrant (flVc f.bytes) + v3get w.upFreed (flVc f.bytes) ∧
      flCrcOk g.bytes = true ∧ flReservedOk g.bytes = true ∧ flType g.bytes = 1 ∧ flSeq g.bytes ≠ w.rxNext ∧ w.rxAny = false ∧
      flType (flitOf 2 0 0 0 []).bytes = 2 ∧ flCrcOk (flitOf 2 0 0 0 []).bytes = true ∧
      flReservedOk (flitOf 2 0 0 0 []).bytes = true ∧ flReservedOk (flitOf 1 3 0 2 []).bytes = false ∧ w.badRun < 3 := by
  decide +kernel

set_option maxRecDepth 100000 in
/-- A HELLO of version 1.00 with both halves, 256 flits and the credits of the peer. -/
def helloFlit : Flit :=
  flitOf 3 0 0 0 (leBytes 2 0x100 ++ [2, 0, 3, 2] ++ leBytes 2 256 ++ leBytes 2 5 ++ leBytes 2 64 ++ leBytes 2 8 ++ leBytes 2 0 ++
    List.replicate 32 9 ++ zeros 464)
def helloState : State := linkIn .hello (fun w => { w with helloSent := true })

set_option maxRecDepth 100000 in
theorem wit_HelloBringsTheLinkUp :
    (dA helloState).wlk.state = .hello ∧ flCrcOk helloFlit.bytes = true ∧ helloFlit.fecOk = true ∧
      flReservedOk helloFlit.bytes = true ∧ flType helloFlit.bytes = 3 ∧
      helloMismatch (dA helloState).wlk (flPayload helloFlit.bytes) = false ∧ helloFieldsOk (flPayload helloFlit.bytes) = true ∧
      (dA helloState).wlk.halves &&& (3 - heMask (flPayload helloFlit.bytes)) = 0 ∧ (dA helloState).wlk.wasUp = false := by
  and_intros <;> decide +kernel

theorem wit_FlitsLeave :
    let d := dA (linkIn .up (fun w => { w with resend := [⟨0, 1, 2, [], []⟩] }))
    let e := dA (linkIn .up (fun w => { w with dsTx1 := List.replicate 32 0, peerDepth := 8, dsGrant := ⟨1, 1, 0⟩ }))
    tst d.wlk.halves (b2n true) = true ∧ d.wlk.state = .up ∧ d.wlk.resend ≠ [] ∧
      tst (dA (linkIn .up (fun w => { w with halves := 1 }))).wlk.halves (b2n true) = false ∧
      e.wlk.resend = [] ∧ e.wlk.unacked.length < min 1024 e.wlk.peerDepth ∧ e.wlk.dsTx1 ≠ [] ∧ 0 < dsCredit e.wlk 1 ∧
      (dA (linkIn .up id)).wlk.dsTx0 = [] ∧ (dA (linkIn .up id)).wlk.dsTx1 = [] ∧
      (dA (linkIn .hello id)).wlk.state = .hello ∧ (dA (linkIn .up id)).wlk.state ≠ .hello := by decide

theorem wit_OwedBumpsGoDownstream :
    let d := dA (spring (fun d => { d with
      wlk := { d.wlk with state := .up, dsGrant := ⟨0, 1, 0⟩ }, rat := { d.rat with tab := [(7, { value := 3, owed := true })] } }))
    (ratchet d 7).owed = true ∧ d.wlk.state = .up ∧ 0 < dsCredit d.wlk 1 ∧ (ratchet d 8).owed = false := by decide

/-! ### Records -/

/-- The batch of one token behind its LAYER_OUT, and behind its TOKEN_END. -/
def behindLayer : State := withBatch { wrd := { nextSeq := 1, entry := 1, tile := 0, pos := some 0, tokRecs := 1 } } { first := some 0, recs := 1 }
def behindToken : State := withBatch { wrd := { nextSeq := 2, entry := 0, tile := 0, pos := some 0, tokRecs := 0 } } { first := some 0, recs := 2, tokens := 1 }

theorem wit_RecordsJoinTheOpenBatch_layer :
    Met 1 layerRec (dA (withBatch {} {})) ∧ Joins layerRec (modelOf { nLayers := 1 } planOne) { channel := 4, serial := 1 } (dA (withBatch {} {})) ∧
      recordCauses 1 layerRec (modelOf { nLayers := 1 } planOne) (dA (withBatch {} {})) = [] ∧
      stageRoom (dA (withBatch {} {})) 0 layerRec = true := by
  and_intros <;> decide +kernel

theorem wit_RecordsJoinTheOpenBatch_end :
    Met 5 endRec (dA behindToken) ∧
      Joins endRec (modelOf { nLayers := 1 } planOne) { channel := 4, serial := 1, first := some 0, recs := 2, tokens := 1 } (dA behindToken) ∧
      recordCauses 5 endRec (modelOf { nLayers := 1 } planOne) (dA behindToken) = [] ∧ stageRoom (dA behindToken) 0 endRec = true := by
  and_intros <;> decide +kernel

/-- A TOKEN_END of a wrong count of records. -/
def wrongToken : RecIn := recOf 4 0 4 1 0 (leBytes 4 0 ++ leBytes 4 9 ++ leBytes 8 0)

theorem wit_DepartingAndUnknownRecords :
    Met 4 wrongToken (dA behindLayer) ∧
      Joins wrongToken (modelOf { nLayers := 1 } planOne) { channel := 4, serial := 1, first := some 0, recs := 1 } (dA behindLayer) ∧
      recordCauses 4 wrongToken (modelOf { nLayers := 1 } planOne) (dA behindLayer) ≠ [] ∧
      (Met 1 layerRec (dA (spring id)) ∧ chanLive (chan (dA (spring id)) (recChan layerRec)) = false ∧ layerRec.vc.toNat < 2) := by
  and_intros <;> decide +kernel

/-- A WEIGHT_CHUNK, a bump of ratchet 7, and a HEARTBEAT. -/
def chunkRec : RecIn := recOf 11 0 4 0 0 (leBytes 4 0 ++ leBytes 8 0 ++ leBytes 4 16 ++ List.replicate 16 1)
def lateChunk : RecIn := { chunkRec with seq := 3, hcheck := BitVec.ofNat 16 (crc16 (headBytes 11 { chunkRec with seq := 3 })) }
def bumpRec (v : Nat) : RecIn := recOf 12 2 0 0 0 (leBytes 2 7 ++ zeros 6 ++ leBytes 8 v)
def beatRec : RecIn := recOf 13 2 0 0 0 (leBytes 4 7 ++ leBytes 4 6 ++ zeros 8)
def streaming : Model := { modelOf { tensors := [⟨0, 1, 8, 8, 64, 0, []⟩] } planOne with state := .streaming, loadChannel := 4 }
def streamOf : Stream := ⟨0, false, 0, 0, 0, [], 0⟩
def chunked : State := spring (fun d => { d with
  wlk := { d.wlk with state := .up }, adm := { d.adm with stream := some streamOf, models := [(0, streaming)] } })
def owned7 (owner : Nat) : State := spring (fun d => { d with rat := { d.rat with tab := [(7, { value := 3, owner := owner })] } })

theorem wit_ChunksBumpsAndHeartbeats :
    Met 11 chunkRec (dA chunked) ∧ (dA chunked).adm.stream = some streamOf ∧ model (dA chunked) 0 = some streaming ∧
      streaming.turn ≠ some .rpmb ∧ streaming.loadChannel = recChan chunkRec ∧ layoutCauses 11 true (cutRecord chunkRec) = [] ∧
      chunkRec.flags = 0 ∧ chunkRec.seq.toNat = chunkSeq (dA chunked) 4 streamOf ∧
      chunkNan ⟨0, 1, 8, 8, 64, 0, []⟩ 0 (slice (cutRecord chunkRec).payload 16 16) = false ∧
      streaming.state ≠ .ready ∧ u32At (cutRecord chunkRec).payload 0 = streamOf.tensor ∧ u64At (cutRecord chunkRec).payload 4 = streamOf.offset ∧
      streamOf.offset + u32At (cutRecord chunkRec).payload 12 < 64 ∧ stageRoom (dA chunked) (rebuildLead (dA chunked) 0) chunkRec = true ∧
      (dA chunked).wlk.state = .up ∧ (dA (spring id)).wlk.state ≠ .up := by
  and_intros <;> decide +kernel

/-- A chunk out of order of its seq. -/
theorem wit_ChunksBumpsAndHeartbeats_seq : Met 11 lateChunk (dA chunked) ∧ lateChunk.seq.toNat ≠ chunkSeq (dA chunked) 4 streamOf := by
  and_intros <;> decide +kernel

/-- Also at the value that is no larger: the clauses of a bump meet at the ratchet's own value. -/
theorem wit_ChunksBumpsAndHeartbeats_vc2 :
    Met 12 (bumpRec 4) (dA (owned7 2)) ∧ layoutCauses 12 true (cutRecord (bumpRec 4)) = [] ∧ ownerOf (dA (owned7 2)) 7 = 2 ∧
      (ratchet (dA (owned7 2)) 7).value < u64At (bumpRec 4).payload 8 ∧ u64At (bumpRec 3).payload 8 ≤ (ratchet (dA (owned7 2)) 7).value ∧
      ownerOf (dA (owned7 1)) 7 ≠ 2 ∧ Met 13 beatRec (dA (spring id)) ∧ layoutCauses 13 true (cutRecord beatRec) = [] := by
  and_intros <;> decide +kernel

/-- A record that waits and can be taken now, and one that cannot, its channel's tickets being all taken. -/
theorem wit_WaitingRecordsAreTriedAgain :
    headOk 1 layerRec = true ∧ stageFill (dA (withBatch {} {})) 0 < 262144 ∧ (dA (withBatch {} {})).wrd.wait = ⟨[], [], []⟩ ∧
      (tryRecord 1 layerRec (dA (withBatch {} {}))).isSome = true ∧
      tryRecord 1 layerRec (dA (withBatch {} { closed := true })) = none ∧
      lacksTicket (dA (withBatch {} { closed := true })) 1 layerRec = true ∧ lacksTicket (dA (withBatch {} {})) 1 layerRec = false := by
  and_intros <;> decide +kernel


/-! ### Pannier -/

/-- What stands between two other byte strings. -/
theorem slice_mid (a b c : Bytes) (n k : Nat) (ha : a.length = n) (hb : b.length = k) : slice (a ++ b ++ c) n k = b := by
  subst ha hb
  simp [slice, List.append_assoc]

/-- The neutral point as a key, and as the signature under it. -/
def keyOne : Bytes := leBytes 57 1
def sigOne : Bytes := leBytes 57 1 ++ zeros 57

theorem edMul_zero (k : Nat) : edMul k edZero = edZero := by
  have h : ∀ (l : List Bool), l.foldl (fun a t => let a2 := edAdd a a; if t then edAdd a2 edZero else a2) edZero = edZero := by
    intro l
    induction l with
    | nil => rfl
    | cons b t ih =>
      have e : edAdd edZero edZero = edZero := by decide +kernel
      simp only [List.foldl_cons, e, ite_self, ih]
  exact h _

theorem keyOne_signs (ctx msg : Bytes) : edVerify keyOne ctx msg sigOne = true := by
  have h1 : edDecode keyOne = some edZero := by decide +kernel
  have h2 : edDecode (sigOne.take 57) = some edZero := by decide +kernel
  have h3 : leVal (sigOne.drop 57) = 0 := by decide +kernel
  have h4 : sigOne.length = 114 := by decide +kernel
  have h5 : edMul 0 edBase = edZero := by decide +kernel
  simp only [edVerify, h1, h2, h3, h4, h5, edMul_zero]
  decide +kernel

/-- No signature of no bytes is good. -/
theorem noBytes_sign_nothing (ctx msg : Bytes) : edVerify keyOne ctx msg [] = false := by
  have h1 : edDecode keyOne = some edZero := by decide +kernel
  have h2 : edDecode (([] : Bytes).take 57) = none := by decide +kernel
  simp only [edVerify, h1, h2]

/-- Die A with a session takes a frame of it that carries the right tag, and has not had its number. -/
def takes (q : Session) (g : Die → Die) (f : PFrame) : Bool :=
  let r := arrives f (dA (hosted q g))
  r.1 && decide (session r.2 f.session.toNat = some q) && q.isOpen && numberOk q f.seq.toNat && !q.upSeen.contains f.seq.toNat

/-- Die A after it has noted the frame. -/
def noted (q : Session) (g : Die → Die) (f : PFrame) : Die := noteFrame q.id f.seq.toNat (arrives f (dA (hosted q g))).2

theorem hosted_accepts (typ : Nat) (q : Session) (g : Die → Die) (f : PFrame) (h : takes q g f = true) :
    Accepted typ (request typ q f) (dA (hosted q g)) q (noted q g f) := by
  have e : arrives (request typ q f) (dA (hosted q g)) = arrives f (dA (hosted q g)) := rfl
  have t : upTag typ q (request typ q f) = (request typ q f).tag := rfl
  simp only [takes, Bool.and_eq_true, decide_eq_true_eq, Bool.not_eq_true'] at h
  obtain ⟨⟨⟨⟨h1, h2⟩, h3⟩, h4⟩, h5⟩ := h
  unfold Accepted takeRequest noted
  rw [e]
  generalize hr : arrives f (dA (hosted q g)) = r at h1 h2 ⊢
  obtain ⟨b, y⟩ := r
  obtain rfl : b = true := h1
  have h2' : session y (request typ q f).session.toNat = some q := h2
  have h4' : numberOk q (request typ q f).seq.toNat = true := h4
  have h5' : q.upSeen.contains (request typ q f).seq.toNat = false := h5
  simp only [h2', h3, h4', h5', t]
  simp [request]

/-- An OPEN of a role, of a length. -/
def openOf (role : Byte) (n : Nat) : PFrame := plainFrame ([role] ++ zeros n)
def confirming : Session := { theSession 3 with isOpen := false, client := keyOne }
/-- Die A with sixteen answered OPENs in the last second. -/
def opened16 : State := hosted (theSession 1) (fun d => { d with key := { d.key with opens := List.replicate 16 0 } })
/-- Die A, owned by another key. -/
def ownedBy (dig : Bytes) (d : Die) : Die := { d with key := { d.key with rpmb := { d.key.rpmb with owner := dig } } }

theorem wit_SessionsOpenAndEnd_open :
    (arrives (openOf 1 143) (dA opened16)).1 = true ∧
      16 ≤ ((arrives (openOf 1 143) (dA opened16)).2.key.opens.filter (fun t => decide
        ((arrives (openOf 1 143) (dA opened16)).2.tim.up - t < 1000000000))).length ∧
      (arrives (openOf 1 143) (dA (hosted (theSession 1) id))).1 = true ∧
      (arrives (openOf 1 143) (dA (hosted (theSession 1) id))).2.key.opens = [] ∧
      openAllowed (arrives (openOf 1 143) (dA (hosted (theSession 1) id))).2 (openOf 1 143).payload = true ∧
      openAllowed (arrives (openOf 4 143) (dA (hosted (theSession 1) id))).2 (openOf 4 143).payload = false := by decide +kernel

theorem wit_SessionsOpenAndEnd_confirm (p : Bytes) :
    (request 3 confirming (plainFrame p)).tag = upTag 3 confirming (request 3 confirming (plainFrame p)) ∧
      edVerify confirming.client (ascii "HW2240 pannier client") confirming.t sigOne = true ∧
      edVerify confirming.client (ascii "HW2240 pannier client") confirming.t [] = false :=
  ⟨rfl, keyOne_signs _ _, noBytes_sign_nothing _ _⟩

theorem wit_SessionsOpenAndEnd_confirmed :
    (arrives (plainFrame sigOne) (dA (hosted confirming id))).1 = true ∧
      session (arrives (plainFrame sigOne) (dA (hosted confirming id))).2 7 = some confirming ∧ confirming.isOpen = false ∧
      (plainFrame sigOne).seq.toNat = 1 ∧ (plainFrame sigOne).session.toNat = 7 ∧
      owned (arrives (plainFrame sigOne) (dA (hosted confirming id))).2 = false ∧
      (arrives (plainFrame []) (dA (hosted confirming id))).1 = true ∧
      session (arrives (plainFrame []) (dA (hosted confirming id))).2 7 = some confirming := by decide +kernel

/-- Where no die owns, any key is enrolled for maintenance. -/
theorem wit_SessionsOpenAndEnd_enrolled (d : Die) (h : owned d = false) : enrolled d confirming.role (h32 confirming.client) = true := by
  simp [enrolled, confirming, theSession, h]

theorem wit_SessionsOpenAndEnd_end :
    session (dA (hosted confirming id)) (7 : BitVec 16).toNat = some confirming ∧
      session (dA (hosted (theSession 1) id)) (7 : BitVec 16).toNat = some (theSession 1) ∧ (theSession 1).isOpen = true ∧
      16 ≤ ((List.replicate 16 0).filter (fun t => within (dA (hosted (theSession 1) id)) 1000 t)).length ∧
      ((List.replicate 15 0).filter (fun t => within (dA (hosted (theSession 1) id)) 1000 t)).length < 16 := by decide +kernel

/-- A session that has had number 1, and one whose numbers have gone on beyond 64. -/
def heard1 : Session := { theSession 1 with upHigh := 1, upSeen := [1], cache := [(1, [1, 2])] }
def far65 : Session := { theSession 1 with upHigh := 65 }
def far66 : Session := { theSession 1 with upHigh := 66 }

theorem wit_RequestsAreActedOnOnce :
    (arrives (plainFrame []) (dA (hosted (theSession 1) id))).1 = true ∧
      session (arrives (plainFrame []) (dA (hosted { theSession 1 with id := 9 } id))).2 7 = none ∧
      session (arrives (plainFrame []) (dA (hosted { theSession 1 with isOpen := false } id))).2 7 = some { theSession 1 with isOpen := false } ∧
      session (arrives (plainFrame []) (dA (hosted (theSession 1) id))).2 7 = some (theSession 1) ∧
      (plainFrame []).tag ≠ upTag 0x10 (theSession 1) (plainFrame []) ∧
      session (arrives (plainFrame []) (dA (hosted far66 id))).2 7 = some far66 ∧ numberOk far66 1 = false ∧
      session (arrives (plainFrame []) (dA (hosted far65 id))).2 7 = some far65 ∧ numberOk far65 1 = true ∧
      session (arrives (plainFrame []) (dA (hosted heard1 id))).2 7 = some heard1 ∧ numberOk heard1 1 = true ∧ 1 ∈ heard1.upSeen ∧
      1 ∉ (theSession 1).upSeen := by decide +kernel

/-- A READ of one address, and a WRITE. -/
def readOf (a : Word) : PFrame := plainFrame (leBytes 4 a.toNat)
def writeOf (a v : Word) : PFrame := plainFrame (leBytes 4 a.toNat ++ leBytes 4 v.toNat)

theorem wit_SessionsReadAndWriteRegisters_accepted (typ : Nat) :
    Accepted typ (request typ (theSession 1) (plainFrame [])) (dA (hosted (theSession 1) id)) (theSession 1) (noted (theSession 1) id (plainFrame [])) ∧
      Accepted typ (request typ (theSession 1) (plainFrame [1])) (dA (hosted (theSession 1) id)) (theSession 1) (noted (theSession 1) id (plainFrame [1])) ∧
      Accepted typ (request typ (theSession 1) (readOf 0x1040)) (dA (hosted (theSession 1) id)) (theSession 1) (noted (theSession 1) id (readOf 0x1040)) ∧
      Accepted typ (request typ (theSession 1) (writeOf 0x2058 1)) (dA (hosted (theSession 1) id)) (theSession 1) (noted (theSession 1) id (writeOf 0x2058 1)) ∧
      Accepted typ (request typ (theSession 2) (writeOf 0x2058 1)) (dA (hosted (theSession 2) id)) (theSession 2) (noted (theSession 2) id (writeOf 0x2058 1)) := by
  refine ⟨?_, ?_, ?_, ?_, ?_⟩ <;> exact hosted_accepts _ _ _ _ (by decide +kernel)

/-- The frame of one pair, accepted above, as a list of pairs. -/
theorem wit_WriteCompletes :
    (writeOf 0x2058 1).payload = ([(0x2058, 1)] : List (Word × Word)).flatMap (fun p => leBytes 4 p.1.toNat ++ leBytes 4 p.2.toNat) ∧
      ([(0x2058, 1)] : List (Word × Word)).length ≤ 64 := by decide +kernel

/-- The first address outside die A's space is one end. -/
theorem wit_SessionsReadAndWriteRegisters :
    [(1 : Byte)].length % 4 ≠ 0 ∧ inSpace (noted (theSession 1) id (readOf 0x1040)) 0x1040 = true ∧
      inSpace (noted (theSession 1) id (readOf 0x1000000)) 0x1000000 = false ∧
      inSpace (noted (theSession 1) id (readOf 0xFFFFFF)) 0xFFFFFF = true ∧ (theSession 2).role = 2 ∧ (theSession 1).role ≠ 2 ∧
      mayWrite (noted (theSession 1) id (writeOf 0x2058 1)) 1 0x2058 = true ∧
      mayWrite (noted (theSession 3) id (writeOf 0x2058 1)) 3 0x2058 = false ∧
      (noted (theSession 1) id (writeOf 0x2058 1)).vp.pending = false ∧
      dieBase (noted (theSession 1) id (writeOf 0x2058 1)) = 0 := by decide +kernel


/-- Taking a frame leaves what the RPMB block holds. -/
theorem noted_rpmb (q : Session) (g : Die → Die) (f : PFrame) : (noted q g f).key.rpmb = (dA (hosted q g)).key.rpmb := by
  have hk : ∀ d : Die, (arrives f d).2.key = d.key := by
    intro d
    have hr : ∀ (n : Nat) (d : Die), (recover n d).2.key = d.key := by
      intro n d
      simp only [recover]
      repeat' split
      all_goals simp [updHst, count]
    have hq : ∀ (v p n : Nat) (d : Die), (qciTake v p n d).2.key = d.key := by
      intro v p n d
      simp only [qciTake]
      split <;> simp [updHst, count, raise_key]
    simp only [arrives, hostTake]
    have e := hq f.vid.toNat f.pcp.toNat (pannierSize f) (count pHST 0x078 d)
    generalize qciTake f.vid.toNat f.pcp.toNat (pannierSize f) (count pHST 0x078 d) = r at e
    obtain ⟨b, y⟩ := r
    have e : y.key = d.key := e
    repeat' split
    all_goals first | rfl | grind
  simp [noted, noteFrame, modSession, updKey, hk]

/-- Die A, owned by the neutral point. -/
def ownedOne : Die → Die := ownedBy (h32 keyOne)

/-- An unlock token of class 1 for that owner, with a signature. -/
def token (sig : Bytes) : Bytes :=
  [1, 0, 0, 0] ++ zeros 32 ++ zeros 16 ++ leBytes 4 0 ++ keyOne ++ zeros 7 ++ sig ++ zeros 22 ++ zeros 256

def noSig : Bytes := List.replicate 114 255

/-- A command of a kind to the die. -/
def cmdOf (k : Nat) (p : Bytes) : PFrame := plainFrame (leBytes 2 k ++ zeros 2 ++ p)

theorem ownedBy_owner (q : Session) (dig : Bytes) : (dA (hosted q (ownedBy dig))).key.rpmb.owner = dig := rfl
theorem ownedOne_owner (q : Session) (f : PFrame) : (noted q ownedOne f).key.rpmb.owner = h32 keyOne := by
  rw [noted_rpmb]; exact ownedBy_owner q _

theorem ownedOne_owned (q : Session) (f : PFrame) : owned (noted q ownedOne f) = true := by
  have h : allZero (h32 keyOne) = false := by decide +kernel
  simp only [owned, ownedOne_owner, h, Bool.not_false]

theorem wit_DebugIsLockedAndUnlocked_token :
    tokenOk (noted (theSession 3) ownedOne (cmdOf 7 (token sigOne))) (token sigOne) = true ∧
      tokenOk (noted (theSession 3) ownedOne (cmdOf 7 (token noSig))) (token noSig) = false := by
  have h1 : slice (token sigOne) 56 57 = keyOne := by decide +kernel
  have h2 : slice (token sigOne) 120 114 = sigOne := by decide +kernel
  have h3 : slice (token noSig) 56 57 = keyOne := by decide +kernel
  have h5 : slice (token noSig) 120 114 = noSig := by decide +kernel
  have h6 : edDecode (noSig.take 57) = none := by decide +kernel
  have h7 : ∀ c m, edVerify keyOne c m noSig = false := by
    intro c m
    have h8 : edDecode keyOne = some edZero := by decide +kernel
    simp only [edVerify, h6, h8]
  refine ⟨?_, ?_⟩
  · simp only [tokenOk, h1, h2, ownedOne_owner, ownedOne_owned, keyOne_signs, beq_self_eq_true]
    decide +kernel
  · simp only [tokenOk, h3, h5, h7, Bool.and_false, Bool.false_and]

theorem wit_DebugIsLockedAndUnlocked_accepted (typ : Nat) :
    (∀ r ∈ [1, 2, 3], Accepted typ (request typ (theSession r) (cmdOf 8 [])) (dA (hosted (theSession r) id)) (theSession r)
        (noted (theSession r) id (cmdOf 8 []))) ∧
      Accepted typ (request typ (theSession 3) (cmdOf 7 [])) (dA (hosted (theSession 3) id)) (theSession 3)
        (noted (theSession 3) id (cmdOf 7 [])) ∧
      Accepted typ (request typ (theSession 3) (cmdOf 7 (token sigOne))) (dA (hosted (theSession 3) ownedOne)) (theSession 3)
        (noted (theSession 3) ownedOne (cmdOf 7 (token sigOne))) ∧
      Accepted typ (request typ (theSession 3) (cmdOf 7 (token noSig))) (dA (hosted (theSession 3) ownedOne)) (theSession 3)
        (noted (theSession 3) ownedOne (cmdOf 7 (token noSig))) := by
  have h : ∀ r ∈ [1, 2, 3], takes (theSession r) id (cmdOf 8 []) = true := by decide +kernel
  exact ⟨fun r hr => hosted_accepts _ _ _ _ (h r hr), hosted_accepts _ _ _ _ (by decide +kernel),
    hosted_accepts _ _ _ _ (by decide +kernel), hosted_accepts _ _ _ _ (by decide +kernel)⟩

/-- The lengths where the clauses of UNLOCK meet are 516 and one less. -/
theorem wit_DebugIsLockedAndUnlocked :
    u16At (cmdOf 8 []).payload 0 = 8 ∧ 4 ≤ (cmdOf 8 []).payload.length ∧ u16At (cmdOf 7 []).payload 0 = 7 ∧
      (cmdOf 7 ((token sigOne).dropLast)).payload.length = 515 ∧ (cmdOf 7 (token sigOne)).payload.length = 516 ∧
      slice (cmdOf 7 (token sigOne)).payload 4 512 = token sigOne := by decide +kernel

/-- A container of a type, signed by that owner, and a trust list of one key. -/
def containerHead (typ n : Nat) : Bytes :=
  leBytes 4 0x4C484354 ++ leBytes 2 0x100 ++ [BitVec.ofNat 8 typ, 0] ++ leBytes 4 0 ++ leBytes 4 n
def containerOf (typ : Nat) (p : Bytes) : Bytes :=
  containerHead typ p.length ++ h32 p ++ (zeros 32 ++ zeros 32 ++ keyOne ++ [2] ++ zeros 22 ++ zeros 256 ++ sigOne ++ zeros 14 ++ p)
def trustOne : Bytes := leBytes 4 0x54535254 ++ leBytes 2 0x100 ++ leBytes 2 1 ++ zeros 8 ++ ([2] ++ zeros 7 ++ List.replicate 32 5)
def withFlash (d : Die) : Die := ownedOne { d with key := { d.key with flash := [(5, containerOf 5 trustOne)] } }
def withTarget4 (d : Die) : Die :=
  ownedOne { d with key := { d.key with bulk := [(4, { size := 579, parts := [(0, containerOf 3 [1, 2, 3])], owner := 7 })] } }

/-- A container of that owner verifies on a die of the owner where its floor is 0. -/
theorem container_verifies (d : Die) (typ : Nat) (p : Bytes) (hd : (h32 p).length = 32)
    (hc : (parseTchili (containerOf typ p)).payload = p ∧ (parseTchili (containerOf typ p)).signer = keyOne ∧
      slice (containerOf typ p) 448 114 = sigOne ∧ (parseTchili (containerOf typ p)).kind = 2 ∧
      tchiliForm (containerOf typ p) = true ∧ (parseTchili (containerOf typ p)).typ = typ ∧ typ ≠ 1 ∧ typ ≠ 4 ∧
      allZero (parseTchili (containerOf typ p)).bindA = true ∧ (parseTchili (containerOf typ p)).svn = 0)
    (ho : d.key.rpmb.owner = h32 keyOne) (hw : d.which = .a ∧ (d.key.rpmb.svn[typ - 1]?).getD 0 = 0) : tchiliOk d typ (containerOf typ p) = true := by
  obtain ⟨c1, c2, c3, c4, c5, c6, t1, t4, c8, c9⟩ := hc
  have e : (parseTchili (containerOf typ p)).digest = h32 p := slice_mid _ _ _ _ _ rfl hd
  simp [tchiliOk, c1, c2, c3, c4, c5, c6, c8, c9, e, keyOne_signs, ho, bindOk, hw.1, hw.2, t1, t4]

theorem hosted_ownedOne (q : Session) (g : Die → Die) : (dA (hosted q (fun d => ownedOne (g d)))).key.rpmb.owner = h32 keyOne := by
  have h : ∀ dig, (dA (hosted q (fun d => ownedBy dig (g d)))).key.rpmb.owner = dig := fun _ => rfl
  exact h _

theorem wit_OwnerFlashAndSubscription_reload :
    mget (dA (spring id)).key.flash 5 = none ∧ mget (dA (hosted (theSession 3) withFlash)).key.flash 5 = some (containerOf 5 trustOne) ∧
      tchiliOk (dA (hosted (theSession 3) withFlash)) 5 (containerOf 5 trustOne) = true ∧
      parseTrust (parseTchili (containerOf 5 trustOne)).payload = some [(2, List.replicate 32 5)] := by
  refine ⟨by decide, ?_, container_verifies _ 5 _ ?_ ⟨?_, ?_, ?_, ?_, ?_, ?_, ?_, ?_, ?_, ?_⟩ (hosted_ownedOne _ _) ?_, ?_⟩
  · have h : ∀ c : Bytes, mget (dA (hosted (theSession 3) (fun d => ownedOne { d with key := { d.key with flash := [(5, c)] } }))).key.flash 5 = some c :=
      fun _ => rfl
    exact h _
  all_goals decide +kernel

/-- The owner's session. -/
def ownerSession : Session := { theSession 3 with client := keyOne }

theorem hosted_noted_owner (q : Session) (g : Die → Die) (f : PFrame) :
    (noted q (fun d => ownedOne (g d)) f).key.rpmb.owner = h32 keyOne := by
  rw [noted_rpmb]; exact hosted_ownedOne q g

theorem wit_OwnerFlashAndSubscription_commit :
    bulkWhole (noted (theSession 3) withTarget4 (cmdOf 4 [])) 4 = some (containerOf 3 [1, 2, 3]) ∧
      flashOk (bulkDone 4 (noted (theSession 3) withTarget4 (cmdOf 4 []))) (containerOf 3 [1, 2, 3]) = true ∧
      (parseTchili (containerOf 3 [1, 2, 3])).typ ≠ 5 ∧ u16At (cmdOf 4 []).payload 0 = 4 ∧ 4 ≤ (cmdOf 4 []).payload.length := by
  have t : (parseTchili (containerOf 3 [1, 2, 3])).typ = 3 := by decide +kernel
  have o : (bulkDone 4 (noted (theSession 3) withTarget4 (cmdOf 4 []))).key.rpmb.owner = h32 keyOne := hosted_noted_owner _ _ _
  have v : tchiliOk (bulkDone 4 (noted (theSession 3) withTarget4 (cmdOf 4 []))) 3 (containerOf 3 [1, 2, 3]) = true := by
    refine container_verifies _ 3 _ ?_ ⟨?_, ?_, ?_, ?_, ?_, ?_, ?_, ?_, ?_, ?_⟩ o ?_
    all_goals decide +kernel
  refine ⟨by decide +kernel, ?_, ?_, ?_, ?_⟩
  · simp only [flashOk, t, v, Bool.true_and]; decide
  · rw [t]; decide
  · decide
  · decide

theorem wit_OwnerFlashAndSubscription_accepted (typ : Nat) :
    Accepted typ (request typ (theSession 3) (cmdOf 5 [])) (dA (hosted (theSession 3) id)) (theSession 3) (noted (theSession 3) id (cmdOf 5 [])) ∧
      Accepted typ (request typ ownerSession (cmdOf 6 [])) (dA (hosted ownerSession ownedOne)) ownerSession
        (noted ownerSession ownedOne (cmdOf 6 [])) ∧
      Accepted typ (request typ (theSession 3) (cmdOf 4 [])) (dA (hosted (theSession 3) withTarget4)) (theSession 3)
        (noted (theSession 3) withTarget4 (cmdOf 4 [])) ∧
      Accepted typ (request typ (theSession 2) (cmdOf 9 [1])) (dA (hosted (theSession 2) id)) (theSession 2)
        (noted (theSession 2) id (cmdOf 9 [1])) := by
  refine ⟨?_, ?_, ?_, ?_⟩ <;> exact hosted_accepts _ _ _ _ (by decide +kernel)

theorem wit_OwnerFlashAndSubscription :
    u16At (cmdOf 5 []).payload 0 = 5 ∧ 4 ≤ (cmdOf 5 []).payload.length ∧ owned (noted (theSession 3) id (cmdOf 5 [])) = false ∧
      ownerPending (noted (theSession 3) id (cmdOf 5 [])) = false ∧
      u16At (cmdOf 6 []).payload 0 = 6 ∧ (noted ownerSession ownedOne (cmdOf 6 [])).phase = .spring ∧
      (noted ownerSession ownedOne (cmdOf 6 [])).adm.models = [] ∧ ownerPending (noted ownerSession ownedOne (cmdOf 6 [])) = false ∧
      u16At (cmdOf 9 [1]).payload 0 = 9 ∧ 5 ≤ (cmdOf 9 [1]).payload.length ∧ byteAt (cmdOf 9 [1]).payload 4 ≤ 1 ∧
      (theSession 2).role = 2 := by decide +kernel

theorem wit_OwnerFlashAndSubscription_release : owned (noted ownerSession ownedOne (cmdOf 6 [])) = true ∧
    h32 ownerSession.client = (noted ownerSession ownedOne (cmdOf 6 [])).key.rpmb.owner :=
  ⟨ownedOne_owned _ _, (ownedOne_owner _ _).symm⟩

/-- A fragment at offset 0 of target 2 that declares its size, a GET, and bodies that are held. -/
def putOf (n : Nat) : PFrame := { plainFrame (zeros 20 ++ leBytes 4 n) with ref := 2 }
def getOf (target off ref : Nat) : PFrame :=
  { plainFrame (leBytes 4 target) with ref := BitVec.ofNat 32 ref, offset := BitVec.ofNat 64 off }
def withBodies (d : Die) : Die :=
  { d with sealing := { d.sealing with bodies := [⟨3, [1, 2, 3]⟩, ⟨4, [1]⟩] }, key := { d.key with image := List.replicate 1401 7 } }

theorem wit_BulkTransferAndSealBodies_accepted (typ : Nat) :
    (∀ n ∈ [24, 33554432], Accepted typ (request typ (theSession 1) (putOf n)) (dA (hosted (theSession 1) id)) (theSession 1)
        (noted (theSession 1) id (putOf n))) ∧
      (∀ o ∈ [0, 1, 1400], Accepted typ (request typ (theSession 1) (getOf 5 o 0)) (dA (hosted (theSession 1) withBodies)) (theSession 1)
        (noted (theSession 1) withBodies (getOf 5 o 0))) ∧
      Accepted typ (request typ (theSession 1) (getOf 8 0 3)) (dA (hosted (theSession 1) withBodies)) (theSession 1)
        (noted (theSession 1) withBodies (getOf 8 0 3)) ∧
      (∀ r ∈ [1, 2], Accepted typ (request typ (theSession r) (plainFrame (leBytes 8 3))) (dA (hosted (theSession r) withBodies)) (theSession r)
        (noted (theSession r) withBodies (plainFrame (leBytes 8 3)))) := by
  have h1 : ∀ n ∈ [24, 33554432], takes (theSession 1) id (putOf n) = true := by decide +kernel
  have h2 : ∀ o ∈ [0, 1, 1400], takes (theSession 1) withBodies (getOf 5 o 0) = true := by decide +kernel
  have h3 : ∀ r ∈ [1, 2], takes (theSession r) withBodies (plainFrame (leBytes 8 3)) = true := by decide +kernel
  exact ⟨fun n h => hosted_accepts _ _ _ _ (h1 n h), fun n h => hosted_accepts _ _ _ _ (h2 n h),
    hosted_accepts _ _ _ _ (by decide +kernel), fun n h => hosted_accepts _ _ _ _ (h3 n h)⟩

/-- The largest program is 33,554,432 bytes; at offset 1 no byte follows the fragment. -/
theorem wit_BulkTransferAndSealBodies :
    (∀ n ∈ [24, 33554432], (putOf n).ref.toNat = 2 ∧ (putOf n).offset.toNat = 0 ∧ 24 ≤ (putOf n).payload.length ∧
      (putOf n).payload.length ≤ u32At (putOf n).payload 20 ∧ u32At (putOf n).payload 20 ≤ 33554432 ∧
      mget (noted (theSession 1) id (putOf n)).key.bulk 2 = none ∧
      extents (u32At (putOf n).payload 20) ≤ hbmFree (bulkDone 2 (noted (theSession 1) id (putOf n)))) ∧
      4 ≤ (getOf 5 0 0).payload.length ∧ u32At (getOf 5 0 0).payload 0 ∈ [5, 7, 8, 9] ∧
      (bulkContent (noted (theSession 1) withBodies (getOf 5 0 0)) 5 0).isSome = true ∧
      bulkContent (noted (theSession 1) withBodies (getOf 8 0 3)) 8 3 = some [1, 2, 3] ∧
      8 ≤ (plainFrame (leBytes 8 3)).payload.length ∧ (theSession 1).role = 1 ∧ (theSession 2).role ≠ 1 := by decide +kernel


/-! ### Admission, weight streams and Months -/

/-- A model in slot 0 of die A. -/
def withModel (x : Model) (d : Die) : Die := { d with adm := { d.adm with models := [(0, x)] } }
def plainModel : Model := modelOf { nLayers := 1 } planOne

/-- A check program of one instruction, DONE, for a radio function of one CRC op. -/
def crcLocus : Nat := 0x123000
def radioImage : Bytes :=
  leBytes 4 0x50524B43 ++ leBytes 2 0x100 ++ [0, 0] ++ leBytes 4 2 ++ leBytes 4 0 ++ leBytes 4 1 ++ leBytes 4 104 ++ leBytes 4 64 ++
    leBytes 4 0 ++ leBytes 4 96 ++ leBytes 4 0 ++ leBytes 4 0 ++ zeros 20 ++ ([9, 0, 0, 1] ++ leBytes 4 crcLocus ++ zeros 8) ++
    ([5, 0, 0, 1] ++ zeros 12) ++ leBytes 8 0x0E

/-- A manifest of that radio function, signed by the neutral point. -/
def radioHead : Bytes :=
  leBytes 4 0x464E4D47 ++ leBytes 2 0x100 ++ [2, 1] ++ leBytes 4 336 ++ leBytes 4 0 ++ leBytes 4 1 ++ leBytes 4 0 ++ [1, 0] ++ zeros 38
def radioTail : Bytes :=
  zeros 32 ++ (leBytes 4 crcLocus ++ [1, 0, 0, 0, 0xFF, 0xFF] ++ zeros 6) ++ keyOne ++ zeros 7 ++ sigOne ++ zeros 14
def radioManifest : Bytes := radioHead ++ h32 radioImage ++ radioTail

/-- Die A with the manifest and the program in its bulk targets, the link UP, the signer trusted, and a
REBUILD entry for slot 0. -/
def offered (d : Die) : Die := { d with
  wlk := { d.wlk with state := .up }, vp := { d.vp with pipes := [{}] }
  cad := { d.cad with active := { d.cad.active with entries := [{ kind := 5, group := 0, target := 0, slot := 0, start := 1000, len := 60000 }] } }
  key := { d.key with trust := some [(1, h32 keyOne)], bulk := [(1, ⟨336, [(0, radioManifest)], 7⟩), (2, ⟨104, [(0, radioImage)], 7⟩)] } }

/-- The request for slot 0, of die A alone. -/
def admitHead : Bytes := [0, 1, 5, 1] ++ zeros 12
def admitOne : Bytes := admitHead ++ h32 radioManifest ++ zeros 16
def admitFrame : PFrame := cmdOf 1 admitOne

theorem h32_radioImage : (h32 radioImage).length = 32 := by decide +kernel
theorem h32_radioManifest : (h32 radioManifest).length = 32 := by decide +kernel

theorem admit_succeeds (d peer : Die) (hp : d.phase = .spring) (hl : d.wlk.state = .up) (hm : d.adm.models = []) (hw : d.which = .a)
    (ht : d.key.trust = some [(1, h32 keyOne)]) (hs : strictOn d = false)
    (hf : modelFits d (parseManifest radioManifest) 1 radioImage.length = true) (hj : judgeFragment d 1 0 none (some (0, (parseAdmit admitOne).share)) = .ok []) :
    admitSteps d peer (parseAdmit admitOne) radioManifest radioImage = (0, [], none) := by
  have d1 : ∀ b, (parseAdmit b).digest = slice b 16 32 := fun _ => rfl
  have q1 : (parseAdmit admitOne).digest = h32 radioManifest := by
    rw [d1]; exact slice_mid admitHead _ (zeros 16) _ _ rfl h32_radioManifest
  have q2 : (parseAdmit admitOne).slot = 0 ∧ (parseAdmit admitOne).dies = 1 ∧ (parseAdmit admitOne).k = 1 := by decide +kernel
  have m1 : (manifestOk radioManifest && kvOk (parseManifest radioManifest) && radioZeros (parseManifest radioManifest) &&
    radioOk (parseManifest radioManifest)) = true := by decide +kernel
  have m2 : (parseManifest radioManifest).programDigest = h32 radioImage := by
    have d2 : ∀ b, (parseManifest b).programDigest = slice b 64 32 := fun _ => rfl
    rw [d2]; exact slice_mid radioHead _ radioTail _ _ rfl h32_radioImage
  have m3 : programOk (parseManifest radioManifest) radioImage false = true := by decide +kernel
  have m4 : (parseManifest radioManifest).kind = 2 ∧ (parseManifest radioManifest).kMin = 1 ∧ (parseManifest radioManifest).strictReq = false := by
    decide +kernel
  have g1 : slice (radioManifest.drop (radioManifest.length - 192)) 0 57 = keyOne := by decide +kernel
  have g2 : slice (radioManifest.drop (radioManifest.length - 192)) 64 114 = sigOne := by decide +kernel
  simp only [Bool.and_eq_true] at m1
  obtain ⟨⟨⟨a1, a2⟩, a3⟩, a4⟩ := m1
  have s1 : manifestSigned d radioManifest = true := by
    simp [manifestSigned, ht, g1, g2, keyOne_signs]
  have n1 : diesNames d 1 = true := by simp only [diesNames, hw]; decide
  simp [admitSteps, q1, q2, m2, m3, m4, a1, a2, a3, a4, s1, n1, hp, hl, hm, hs, hf, hj, model, strictDiffers, pairingDiffers]

/-- Die A where admission is judged: it has taken the request and answered that it works on it. -/
def judged : Die := result (theSession 1) (request 0x12 (theSession 1) admitFrame) 1 [] (noted (theSession 1) offered admitFrame)

theorem wit_AdmitWithdrawAndTurn_admitted :
    admitSteps judged State.reset.dieB (parseAdmit admitOne) radioManifest radioImage = (0, [], none) :=
  by apply admit_succeeds judged <;> decide +kernel

def pendingPair (d : Die) : Die := { d with vp := { d.vp with pending := true } }

theorem wit_AdmitWithdrawAndTurn_accepted :
    (∀ g ∈ [offered, id, pendingPair], Accepted 0x12 (request 0x12 (theSession 1) admitFrame) (dA (hosted (theSession 1) g)) (theSession 1)
        (noted (theSession 1) g admitFrame)) ∧
      (∀ k ∈ [2, 3], ∀ x ∈ [plainModel, { plainModel with state := .rpmb }], ∀ g ∈ [id, withModel x],
        Accepted 0x12 (request 0x12 (theSession 1) (cmdOf k [0])) (dA (hosted (theSession 1) g)) (theSession 1)
          (noted (theSession 1) g (cmdOf k [0]))) := by
  have h1 : ∀ g ∈ [offered, id, pendingPair], takes (theSession 1) g admitFrame = true := by
    intro g hg
    simp only [List.mem_cons, List.not_mem_nil, or_false] at hg
    obtain rfl | rfl | rfl := hg <;> decide +kernel
  have h2 : ∀ k ∈ [2, 3], takes (theSession 1) id (cmdOf k [0]) = true := by decide +kernel
  have h3 : ∀ k ∈ [2, 3], ∀ x ∈ [plainModel, { plainModel with state := .rpmb }], takes (theSession 1) (withModel x) (cmdOf k [0]) = true := by
    decide +kernel
  refine ⟨fun g hg => hosted_accepts _ _ _ _ (h1 g hg), fun k hk x hx g hg => hosted_accepts _ _ _ _ ?_⟩
  simp only [List.mem_cons, List.not_mem_nil, or_false] at hg
  obtain rfl | rfl := hg
  · exact h2 k hk
  · exact h3 k hk x hx

theorem admitFrame_payload : slice admitFrame.payload 4 64 = admitOne := by
  have e : admitFrame.payload = (leBytes 2 1 ++ zeros 2) ++ admitOne ++ [] := by simp [admitFrame, cmdOf, plainFrame]
  rw [e]; exact slice_mid (leBytes 2 1 ++ zeros 2) admitOne [] _ _ rfl (by decide +kernel)

theorem wit_AdmitWithdrawAndTurn_request :
    u16At admitFrame.payload 0 = 1 ∧ 68 ≤ admitFrame.payload.length ∧
      (noted (theSession 1) pendingPair admitFrame).vp.pending = true ∧ (noted (theSession 1) offered admitFrame).vp.pending = false ∧
      diesNames (noted (theSession 1) offered admitFrame) (parseAdmit admitOne).dies = true ∧
      (noted (theSession 1) offered admitFrame).adm.peerRefused = [] ∧ coupledDiffers (parseAdmit admitOne) (model State.reset.dieB 0) = false ∧
      (noted (theSession 1) offered admitFrame).key.rpmb.month ≠ 4294967295 ∧
      (admitSteps (noted (theSession 1) id admitFrame) State.reset.dieB (parseAdmit admitOne) [] []).1 = 14 := by
  and_intros <;> decide +kernel

theorem wit_AdmitWithdrawAndTurn_targets :
    (bulkWhole judged 1).getD [] = radioManifest ∧ (bulkWhole judged 2).getD [] = radioImage := by
  refine ⟨?_, ?_⟩ <;> decide +kernel

theorem wit_AdmitWithdrawAndTurn :
    (∀ k ∈ [2, 3], u16At (cmdOf k [0]).payload 0 = k ∧ 5 ≤ (cmdOf k [0]).payload.length ∧ byteAt (cmdOf k [0]).payload 4 = 0 ∧
      model (noted (theSession 1) id (cmdOf k [0])) 0 = none ∧
      model (noted (theSession 1) (withModel plainModel) (cmdOf k [0])) 0 = some plainModel ∧
      model (noted (theSession 1) (withModel { plainModel with state := .rpmb }) (cmdOf k [0])) 0 = some { plainModel with state := .rpmb }) ∧
      plainModel.state = .ready ∧ plainModel.pending = none ∧ plainModel.turn = none := by decide +kernel


/-- A message of a kind over Spoke that concerns slot 0. -/
def spokeOf (kind sub : Nat) : SpokeMsg := ⟨0, spokeBytes kind sub 0 0 0 0 0 [] []⟩
def coupledModel : Model := { plainModel with dies := 3 }

set_option maxRecDepth 100000 in
theorem wit_CoupledAdmissionsAndTurns :
    model (dA (spring (withModel { coupledModel with state := .rpmb }))) 0 = some { coupledModel with state := .rpmb } ∧
      isCoupled coupledModel = true ∧ admitting { coupledModel with state := .rpmb } = true ∧
      spA (spokeOf 3 0) % 64 = 0 ∧ spokeOk 3 (spokeOf 3 0) = true ∧ spSub (spokeOf 3 0) = 0 ∧
      spokeOk 3 (spokeOf 3 5) = true ∧ spSub (spokeOf 3 5) ≠ 0 ∧ spokeOk 2 (spokeOf 2 2) = true ∧ spSub (spokeOf 2 2) = 2 ∧
      spokeOk 2 (spokeOf 2 1) = true ∧ spSub (spokeOf 2 1) = 1 ∧ coupledModel.state = .ready ∧ coupledModel.pending = none ∧
      coupledModel.turn = none ∧ spokeOk 3 (spokeOf 2 1) = false ∧ CrcRight (spokeOf 2 1) ∧
      spokeOk 2 (spokeOf 3 0) = false ∧ CrcRight (spokeOf 3 0) := by
  unfold CrcRight; decide +kernel

/-- Die A in Spring with RPMB writes that wait. -/
def writing (l : List RpmbWrite) (x : Model) : State := spring (fun d => withModel x { d with key := { d.key with writes := l } })

theorem wit_RpmbWritesInOrder :
    (dA (writing [.admission 0] { plainModel with state := .rpmb })).key.writes = RpmbWrite.admission 0 :: [] ∧
      model (dA (writing [.admission 0] { plainModel with state := .rpmb })) 0 = some { plainModel with state := .rpmb } ∧
      (dA (writing [.svn 2 3, .turn 0] plainModel)).key.writes = RpmbWrite.svn 2 3 :: [.turn 0] ∧
      (dA (writing [.owner [1] 7 1] plainModel)).key.writes = RpmbWrite.owner [1] 7 1 :: [] := by decide +kernel

/-- Die A with a model of one tensor, the link UP, and a stream. -/
def tensorModel : Model := modelOf { nLayers := 1, tensors := [⟨1, 1, 8, 8, 64, 0, []⟩] } planOne
def streams (m : Model) (f : Die → Die) : State := spring (fun d => f (withModel m { d with wlk := { d.wlk with state := .up } }))
def atNs (n : Nat) (d : Die) : Die := { d with tim := { d.tim with ns := n } }
def streamIn (t : Bool) (d : Die) : Die := { d with adm := { d.adm with stream := some ⟨0, t, 0, 0, 0, [], 0⟩ } }

/-- Also at the times where the clauses meet: the period of one hour and the load timeout of one second. -/
theorem wit_WeightStreamsAndMonthTurns :
    nextStream (dA (streams { tensorModel with state := .queued } id)) = some (0, false) ∧ tensorModel.manifest.tensors ≠ [] ∧
      (ratchet (dA (streams { tensorModel with state := .queued } id)) 0).value < 18446744073709551615 ∧
      nextStream (dA (streams tensorModel id)) = none ∧
      nextStream (dA (streams { tensorModel with pending := some ⟨true, 1⟩ } id)) = some (0, true) ∧
      (dA (streams { tensorModel with pending := some ⟨true, 1⟩ } id)).key.rpmb.month ≠ 4294967295 ∧
      tensorModel.state = .ready ∧ tensorModel.pending = none ∧ tensorModel.turn = none ∧
      tensorModel.periodH * 3600000000000 ≤ (dA (streams tensorModel (atNs 3600000000000))).tim.ns - tensorModel.switchNs ∧
      (dA (streams tensorModel (atNs 3599999999999))).tim.ns - tensorModel.switchNs < tensorModel.periodH * 3600000000000 ∧
      (dA (streams { tensorModel with state := .streaming } (streamIn false))).adm.stream = some ⟨0, false, 0, 0, 0, [], 0⟩ ∧
      tensorModel.loadTimeout * 1000000000 ≤
        (dA (streams { tensorModel with state := .streaming } (fun d => atNs 1000000000 (streamIn false d)))).tim.ns - 0 ∧
      (dA (streams { tensorModel with state := .streaming } (fun d => atNs 999999999 (streamIn false d)))).tim.ns - 0 <
        tensorModel.loadTimeout * 1000000000 := by decide +kernel

/-! ### Core and engine instructions -/

/-- A model whose program has constants and parameters, of two KV heads of four elements, with one retained tensor. -/
def richManifest : Manifest := { nLayers := 1, nKv := 2, dHead := 4, kvFmt := 4, vocab := 100, tensors := [⟨2, 4, 8, 8, 256, 0, []⟩] }
def richProgram : Program := { planOne with
  consts := [5, 6, 7], code := [0, 0, 0, 0]
  params := [⟨0x1000, 3, 0, 10000⟩, ⟨0x1000, 4, 0, 0⟩, ⟨0x1000, 9, 0, 0⟩, ⟨0x1000, 10, 0, 0x3F800000⟩, ⟨0x1000, 11, 0, 0⟩] }
def richModel : Model := modelOf richManifest richProgram

/-- A batch with its records of one token staged and two buffers of eight values. -/
def stagedOne : List Staged := [⟨1, layerRec, 0, 0⟩, ⟨4, tokenRec, 1, 0⟩]
def buffers : AMap (List F32) :=
  [(1, (List.range 8).map (fun n => BitVec.ofNat 32 (0x3F800000 + n * 0x100000))),
    (2, (List.range 8).map (fun n => BitVec.ofNat 32 (0x40000000 + n * 0x100000)))]
def richBatch : Batch := { staged := stagedOne, tokens := 1, bufs := buffers, channel := 4, serial := 1, first := some 0 }

/-- A model whose program holds one word, over and over. -/
def wordAt (w : Nat) (m : Model) : Model := { m with prog := { m.prog with code := List.replicate 8 w } }
def richState (w : Nat) : State := running (wordAt w richModel) {} richBatch {}

/-- The core of a group runs and stands at a word, with two registers set. -/
def coreState (w : Nat) (k : Core) (b : Batch) : State := running (wordAt w richModel) {} b k
def stands (s : State) (w cycles : Nat) : Bool :=
  let z := fetchRun 0 (dA s)
  mayIssue z 0 && wordNow z 0 == some w && fitsSpan z 0 cycles
theorem stands_where (s : State) (w cycles : Nat) (h : stands s w cycles = true) :
    Compared 0 w cycles [] (dA s) (fetchRun 0 (dA s)) ∧ Stands 0 w cycles [] (dA s) (spend 0 cycles (fetchRun 0 (dA s))) := by
  simp only [stands, Bool.and_eq_true, beq_iff_eq] at h
  exact ⟨⟨h.1.1, h.1.2, h.2, rfl⟩, _, ⟨h.1.1, h.1.2, h.2, rfl⟩, rfl⟩
def twoRegs : Core := { g := [(2, 7), (3, 9)] }

theorem wit_CoreInstructionsWriteTheirRegister :
    (∀ p ∈ [(coreWord 0x01 1 0 0 5, 1), (coreWord 0x02 1 2 3 0, 1), (coreWord 0x03 0 2 0 5, 1), (coreWord 0x04 1 2 3 0, 3),
        (coreWord 0x05 1 2 0 5, 1), (coreWord 0x07 1 0 0 5, 2), (coreWord 0x06 1 0 0 2, 4)],
      stands (coreState p.1 twoRegs {}) p.1 p.2 = true) ∧
      (5 : Word).toNat ≤ 5 ∧ (constants (fetchRun 0 (dA (coreState 0 twoRegs {}))) 0)[(2 : Word).toNat]? = some 7 := by decide +kernel

/-- A batch that ends behind the cursor, one that goes on, and one that does neither. -/
def endBatch : Batch := { staged := stagedOne ++ [⟨5, endRec, 2, 1⟩], tokens := 1, closed := true, complete := true }
def goBatch : Batch := { staged := stagedOne ++ [⟨1, layerRec, 0, 1⟩], tokens := 1 }
def openBatch : Batch := { staged := [⟨1, layerRec, 0, 0⟩] }

theorem wit_CoreTransfersAndWaits :
    (∀ p ∈ [(coreWord 0x00 0 0 0 0, 1), (coreWord 0x0D 0 0 0 0, 8), (coreWord 0x09 0 0 0 5, 2), (coreWord 0x08 2 0 0 5, 2),
        (coreWord 0x0A 0 0 0 0, 1), (coreWord 0x0C 0 0 0 1, 1)], stands (coreState p.1 twoRegs openBatch) p.1 p.2 = true) ∧
      stands (coreState (coreWord 0x08 1 0 0 5) { g := [(1, 1)] } openBatch) (coreWord 0x08 1 0 0 5) 1 = true ∧
      stands (coreState (coreWord 0x0B 0 0 0 5) {} endBatch) (coreWord 0x0B 0 0 0 5) 2 = true ∧
      (∀ b ∈ [goBatch, openBatch], stands (coreState (coreWord 0x0B 0 0 0 5) {} b) (coreWord 0x0B 0 0 0 5) 1 = true) ∧
      ((runBatches (fetchRun 0 (dA (coreState 0 {} openBatch))) 0).map (fun b => entryStaged richModel b 0 (0 : Word).toNat)) = [true] ∧
      ((runBatches (fetchRun 0 (dA (coreState 0 {} openBatch))) 0).map (fun b => entryStaged richModel b 0 (1 : Word).toNat)) = [false] ∧
      coreModel (fetchRun 0 (dA (coreState 0 {} openBatch))) 0 = some (wordAt 0 richModel) ∧
      ((runBatches (fetchRun 0 (dA (coreState 0 {} endBatch))) 0).map (fun b => endsBehind b 0)) = [true] ∧
      ((runBatches (fetchRun 0 (dA (coreState 0 {} goBatch))) 0).map (fun b => (endsBehind b 0, goesOn b 0))) = [(false, true)] ∧
      ((runBatches (fetchRun 0 (dA (coreState 0 {} openBatch))) 0).map (fun b => (endsBehind b 0, goesOn b 0))) = [(false, false)] ∧
      (∀ p ∈ [(200, true), (20000000, false)],
        (drainEngines 0 (1 : BitVec 6).toNat 1 (spend 0 1 (fetchRun 0 (dA (coreState 0 { queues := [(0, [100, p.1])] } openBatch))))).isSome = p.2) := by
  decide +kernel

/-- The program at its end, with one engine still at work. -/
def ending : State := coreState (coreWord 0x0E 0 0 0 0) { pc := 4, cursor := 2, queues := [(0, [100, 200])] } { tokens := 3 }

theorem wit_DoneEndsTheProgram :
    stands ending (coreWord 0x0E 0 0 0 0) 4 = true ∧
      ((drainEngines 0 63 4 (spend 0 4 (fetchRun 0 (dA ending)))).map (fun y =>
        let w := passTo 0 y
        ((Machine.core w 0).run, (ticket w 1).map (fun b => b.due), (chan w 4).coupled))) = some ([1], some false, false) := by
  decide +kernel

/-- The same program on a Tandem pair. -/
def paired (w : Nat) : State :=
  let s := coreState w twoRegs {}
  s.setDie .a { dA s with vp := { (dA s).vp with current := 1, pipes := (dA s).vp.pipes.modify 1 (fun p => { p with lead := 0 }) } }

theorem wit_MismatchHoldsTheInstruction :
    (∀ p ∈ [(coreWord 0x00 0 0 0 0, 1), (coreWord 0x04 1 2 3 0, 3), (coreWord 0x0E 0 0 0 0, 4)], stands (paired p.1) p.1 p.2 = true) ∧
      (comparePoints 0 [] [.differs 1] (fetchRun 0 (dA (paired 0)))).2 = false ∧
      (comparePoints 0 [] [.disagree] (fetchRun 0 (dA (paired 0)))).2 = false := by decide +kernel

/-- An engine of group 0 is free for the one batch that the program serves. -/
def engineFree (s : State) (eng op : Nat) (b : Batch) : Bool :=
  let z := fetchRun 0 (dA s)
  let w := spend 0 1 z
  mayIssue z 0 && standsAtOp z 0 op && fitsSpan z 0 1 && decide (runBatches z 0 = [b]) && (mget z.descs (descKey z 0)).isNone &&
    (queueOf w 0 eng).isEmpty && decide (coreTime w 0 + 5 * 20000 ≤ 11 * spanEndAt w 0)

/-- There an instruction of at most 20,000 cycles issues. -/
theorem issues_where_free (s : State) (eng : Nat) (i : Instr) (b : Batch) (desc : OpDesc) (cycles : Nat)
    (h : engineFree s eng (opcode i) b = true) (hc : cycles ≤ 20000) : ∃ y, Issues 0 eng i desc cycles (dA s) y := by
  simp only [engineFree, Bool.and_eq_true, decide_eq_true_eq, List.isEmpty_iff, Option.isNone_iff_eq_none] at h
  obtain ⟨⟨⟨⟨⟨⟨h1, h0⟩, h2⟩, _⟩, h3⟩, h4⟩, h5⟩ := h
  let w := noteDesc 0 desc (spend 0 1 (fetchRun 0 (dA s)))
  have h4 : queueOf w 0 eng = [] := h4
  have h5 : coreTime w 0 + 5 * 20000 ≤ 11 * spanEndAt w 0 := h5
  have h8 : (enqueue 0 eng cycles w).isSome = true := by
    have h7 : coreTime w 0 + 5 * cycles ≤ 11 * spanEndAt w 0 := by omega
    simp [enqueue, h4, h7]
  obtain ⟨y, hy⟩ := Option.isSome_iff_exists.mp h8
  exact ⟨y, h1, h0, by simp [descFits, h3], h2, hy⟩

/-- What one batch costs alone. -/
theorem together_one (s : State) (eng op : Nat) (b : Batch) (cost : Batch → Nat) (h : engineFree s eng op b = true) :
    together (fetchRun 0 (dA s)) 0 cost = cost b := by
  simp only [engineFree, Bool.and_eq_true, decide_eq_true_eq] at h
  simp [together, h.1.1.1.2, sumL]

/-- A program of a group serves one batch of a model. -/
def serving (s : State) (m : Model) (b : Batch) : Bool :=
  let z := fetchRun 0 (dA s)
  let k := Machine.core z 0
  decide k.run.Nodup && decide (b.serial ∈ k.run) && decide (ticket z b.serial = some b) && decide (coreModel z 0 = some m) &&
    decide (model z (chan z b.channel).host.slot = some m) && hasToken b 0 && k.cursor == 0

theorem serves_where_serving (s : State) (m : Model) (b : Batch) (h : serving s m b = true) :
    Serves 0 m b (dA s) ∧ hasToken b 0 = true ∧ (Machine.core (fetchRun 0 (dA s)) 0).cursor = 0 := by
  simp only [serving, Bool.and_eq_true, decide_eq_true_eq, beq_iff_eq] at h
  exact ⟨by simp only [Serves]; tauto, h.1.2, h.2⟩

/-- A descriptor: function, source buffers, destination. -/
def descOf (fn a b dst : Nat) : OpDesc :=
  ⟨0x1000, 0, 0, BitVec.ofNat 16 a, BitVec.ofNat 16 b, BitVec.ofNat 16 dst, BitVec.ofNat 8 fn, 1, 0, 2, 4, 0, 0, 0⟩

theorem wit_VectorInstructionsWriteTheirBuffer :
    (∀ op ∈ [0x30, 0x31, 0x32, 0x33, 0x35, 0x37, 0x39, 0x3B, 0x48], serving (richState op) (wordAt op richModel) richBatch = true ∧
        ∀ e ∈ [2, 4], engineFree (richState op) e op richBatch = true) ∧
      (let z := fetchRun 0 (dA (richState 0))
       nleCycles 0 1 1 16 z (4 * 8) ≤ 20000 ∧ nleCycles 0 20 9 40 z (bufLen richBatch 0 1) ≤ 20000 ∧
       nleCycles 0 11 9 24 z (bufLen richBatch 0 1) ≤ 20000 ∧ nleCycles 0 3 1 40 z (bufLen richBatch 0 1) ≤ 20000 ∧
       nleCycles 0 1 1 12 z (max (bufLen richBatch 0 1) (streamedX richBatch 0 0).length) ≤ 20000 ∧
       12 * cdiv ((digBytes (descOf 2 1 2 5) richBatch 0).length + 1) 136 + 8 ≤ 20000) ∧ 2 ≤ (descOf 2 1 2 5).fn.toNat := by decide +kernel

theorem wit_FastFormsAndRecordDigests :
    (∀ op ∈ [0x34, 0x36, 0x48], serving (richState op) (wordAt op richModel) richBatch = true ∧
        ∀ e ∈ [2, 4], engineFree (richState op) e op richBatch = true) ∧
      (let z := fetchRun 0 (dA (richState 0))
       nleCycles 0 3 1 24 z (bufLen richBatch 0 1) ≤ 20000 ∧ nleCycles 0 1 1 20 z (bufLen richBatch 0 1) ≤ 20000 ∧
       12 * cdiv ((digBytes (descOf 1 1 2 5) richBatch 0).length + 1) 136 + 8 ≤ 20000) ∧ (descOf 1 1 2 5).fn.toNat ≤ 1 := by decide +kernel

/-- A model with an op at the locus of the descriptors; a canary batch with its output staged. -/
def checkModel : Model := { richModel with manifest := { richManifest with ops := [⟨0x1000, 3, 1, 1, false, 0xFFFF, 2⟩] } }
def outRec : RecIn := recOf 6 0 4 1 0 (leBytes 4 0 ++ [1, 0, 0, 0] ++ leBytes 4 1 ++ leBytes 4 0 ++ leBytes 4 9 ++ zeros 12)
def outBatch : Batch := { richBatch with staged := stagedOne ++ [⟨6, outRec, 2, 0⟩], canary := true, bufs := buffers ++ [(3, [9#32])] }
def checkState (w : Nat) (b : Batch) : State := running (wordAt w checkModel) {} b {}

theorem wit_ChecksFailTheBatchTheyShould :
    (∀ op ∈ [0x38, 0x3A, 0x4A, 0x42, 0x49, 0x28, 0x29], ∀ b ∈ [richBatch, outBatch],
        serving (checkState op b) (wordAt op checkModel) b = true ∧ ∀ e ∈ [2, 4], engineFree (checkState op b) e op b = true) ∧
      (opAt checkModel (descOf 0 1 2 5).locus.toNat).isSome = true ∧ ((tokenPlan checkModel)[(descOf 0 1 2 5).entry.toNat]?).isSome = true ∧
      hasToken richBatch 0 = true ∧ shdcReady (descOf 1 1 2 5) (fetchRun 0 (dA (checkState 0 richBatch))) 0 = true ∧
      (let z := fetchRun 0 (dA (checkState 0 outBatch))
       nleCycles 0 1 1 12 z (max (bufLen outBatch 0 1) (streamedX outBatch 0 0).length) ≤ 20000 ∧
       ldpcCycles 0 (descOf 0 1 2 5) z outBatch checkModel ≤ 20000 ∧ crcCycles 0 (descOf 0 1 2 5) z outBatch checkModel ≤ 20000) ∧
      (outputOf outBatch 0).any (fun p => !outputEqual p (buf outBatch 0 3)) = false ∧
      (outputOf outBatch 0).any (fun p => !outputEqual p (buf outBatch 0 2)) = true := by decide +kernel

/-- A model whose op at that locus has a weight tensor, with the tables of Month 0. -/
def tableModel : Model := { richModel with
  manifest := { richManifest with tensors := [⟨1, 1, 16, 8, 128, 0x1000, []⟩], ops := [⟨0x1000, 1, 1, 1, true, 0, 2⟩] }
  active := { month := 0, proj := [(0, List.replicate 8 [1])], ready := true } }
def poisonedModel : Model := { tableModel with active := { month := 0, proj := [(0, [[2 ^ 61]])], ready := true } }
def tableState (w : Nat) (b : Batch) : State := running (wordAt w tableModel) {} b {}

theorem wit_TablePassesCheckTheirTokens :
    (∀ p ∈ [(0, 0x20), (1, 0x21), (1, 0x22)], serving (tableState p.2 richBatch) (wordAt p.2 tableModel) richBatch = true ∧
        engineFree (tableState p.2 richBatch) p.1 p.2 richBatch = true) ∧
      (opTables richBatch tableModel (descOf 0 1 2 5).locus.toNat).isSome = true ∧ passReady richBatch (descOf 0 1 2 5) 0 = true ∧
      passesOf (descOf 0 1 2 5) 0 [richBatch] = ([[(1, 0)]], true) ∧ (opAt tableModel (descOf 0 1 2 5).locus.toNat).isSome = true ∧
      (tablesOf tableModel richBatch.month).isSome = true ∧
      (opTables richBatch tableModel 0x1000).map (fun t => badWords tableModel t.1 t.2.2.1 t.2.2.2) = some 0 ∧
      (opTables richBatch poisonedModel 0x1000).map (fun t => decide (badWords poisonedModel t.1 t.2.2.1 t.2.2.2 = 0)) = some false ∧
      (let z := fetchRun 0 (dA (tableState 0 richBatch))
       residueCycles 0 (descOf 0 1 2 5) z tableModel 1 ≤ 20000 ∧ bandedCycles 0 (descOf 0 1 2 5) z tableModel 1 ≤ 20000 ∧
       fftcCycles 0 (descOf 0 1 2 5) z richBatch tableModel ≤ 20000) := by decide +kernel

/-- A channel without a ledger, one with every head, and one with every second head. -/
def kvState (w : Nat) (x : Chan) (b : Batch) : State := running (wordAt w checkModel) { x with host := { ctx := 1024, sMax := 1, alpha := 65536, kind := 1 } } b {}
def ledgered (n : Nat) : Chan := { density := n, ledger := [(3, 7)], append := 1, alphaRep := 65536 }

theorem wit_KvappWritesTheLedgerRows :
    (∀ n ∈ [0, 1, 2], serving (kvState 0x40 (ledgered n) richBatch) (wordAt 0x40 checkModel) richBatch = true ∧
      engineFree (kvState 0x40 (ledgered n) richBatch) 3 0x40 richBatch = true ∧
      cdiv (kvBytes (fetchRun 0 (dA (kvState 0x40 (ledgered n) richBatch))) richBatch checkModel) 512 + 16 ≤ 20000) ∧
      richBatch.channel ∈ (fetchRun 0 (dA (kvState 0x41 (ledgered 1) richBatch))).chn.tab.map (fun e => e.1) ∧
      Memory.wf (ledgered 1).ledger = true := by decide +kernel

theorem wit_AttentionRunsTheSelectedHeads :
    serving (kvState 0x41 (ledgered 1) richBatch) (wordAt 0x41 checkModel) richBatch = true ∧ engineFree (kvState 0x41 (ledgered 1) richBatch) 3 0x41 richBatch = true ∧
      (ledgered 1).density ≠ 0 ∧ richBatch.overrun = none ∧
      attnCycles 0 (descOf 0 1 2 5) (fetchRun 0 (dA (kvState 0x41 (ledgered 1) richBatch))) richBatch checkModel 0 ≤ 20000 ∧
      (chan (fetchRun 0 (dA (kvState 0x41 { ledgered 1 with voidPos := 0 } richBatch))) 4).voidPos ≤ 0 ∧
      0 < (chan (fetchRun 0 (dA (kvState 0x41 { ledgered 1 with voidPos := 1 } richBatch))) 4).voidPos := by decide +kernel


/-! ### Units, groups and verdicts -/

/-- Die A with units of every block, some spare, and two pipelines of their own groups. -/
def withUnits (f : Die → Die) : State := spring (fun d => f { d with
  res := { state := [1, 1, 1, 2], map := [0, 1, 2] }, bnd := { state := [1, 1, 2], map := [0, 1] }, snt := { state := [1, 2], map := [0] }
  nle := { state := [1, 1, 2], map := [0, 1] }, cwe := { state := [1, 1, 2], map := [0, 1] }
  shk := { state := [1, 1, 1, 1, 1, 1, 1, 1], map := [] }, vp := { d.vp with pipes := [{}, { lead := 1 }] } })

/-- A unit of each block that serves, with the spare that follows it; a core of SHK; and a spare of RES. -/
theorem wit_UnitsRetireAndAreTested :
    (∀ e ∈ [(8, 1, 3), (9, 1, 2), (10, 1, 2), (11, 1, 2), (12, 0, 1)], unitState (dA (withUnits id)) e.1 e.2.1 = 1 ∧
      logicalOf (dA (withUnits id)) e.1 e.2.1 = some e.2.1 ∧ spareOf (dA (withUnits id)) e.1 = some e.2.2 ∧
      field (dA (withUnits id)) (unitPage e.1) 0x040 0 = 1 ∧ logicalOf (dA (withUnits id)) e.1 e.2.2 = none ∧ e.2.2 < 512) ∧
      unitState (dA (withUnits id)) 13 2 = 1 ∧ unitState (dA (withUnits id)) 8 3 = 2 ∧
      min 19 (1 : BitVec 5).toNat = 1 ∧ min 25 (1 : BitVec 5).toNat = 1 ∧ (0 : BitVec 9).toNat = 0 ∧ (2 : BitVec 3).toNat = 2 ∧
      (testLead (dA (withUnits (fun d => { d with cad := { d.cad with tests := [(0, 13, 2)] } }))) 13 2, 13, 2) ∈
        (dA (withUnits (fun d => { d with cad := { d.cad with tests := [(0, 13, 2)] } }))).cad.tests := by decide +kernel

/-- A Trike group of three pipelines. -/
def trike (f : Pipe → Pipe) : State :=
  spring (fun d => { d with vp := { d.vp with pipes := [{ role := 3 }, f { role := 3, lead := 0 }, { role := 3, lead := 0 }, { lead := 3 }] } })

theorem wit_GroupsRetireAndResynchronise :
    (pipe (dA (withUnits id)) 1).enabled = true ∧ (pipe (dA (withUnits id)) 1).retired = false ∧
      (Machine.core (dA (trike (fun p => { p with resync := true }))) 0).run = [] ∧
      1 ∈ members (dA (trike (fun p => { p with resync := true }))) 0 ∧ (pipe (dA (trike (fun p => { p with resync := true }))) 1).resync = true ∧
      (pipe (dA (trike (fun p => { p with resync := true, resyncRun := true }))) 1).resyncRun = true := by decide +kernel

/-- A window of channel 4, and a batch bound to it. -/
def windowOne : TtEntry := { kind := 2, group := 0, target := 4, slot := 0, start := 10, arr := 100, commit := 200, verdict := 300 }
def boundBatch (b : Batch) : Batch := { b with channel := 4, serial := 1, window := some ⟨windowOne, 0, 0, 10, 100, 200, 300⟩ }
def windowed (x : Chan) (b : Batch) : State := timed windowOne x (boundBatch b) id

theorem wit_VerdictsAreCommitted :
    (∀ b ∈ [({ done := true } : Batch), { closed := true, fails := [(0, 6), (1, 3)] }, { closed := true, complete := true, done := true }],
      let z := dA (windowed {} b)
      entryAt z (0 : BitVec 13).toNat = some windowOne ∧ windowAt z windowOne windowOne.verdict = windowAt z windowOne windowOne.commit ∧
        (windowAt z windowOne windowOne.commit).isSome = true ∧
        windowTickets (toCycle 210 z) windowOne ((windowAt z windowOne 200).getD 0) = [boundBatch b] ∧
        windowTickets (toCycle 310 z) windowOne ((windowAt z windowOne 300).getD 0) = [boundBatch b] ∧
        ticket (toCycle 310 z) 1 = some (boundBatch b) ∧ ticket (toCycle 210 z) 1 = some (boundBatch b) ∧
        (chan z 4).coupled = false ∧ 4 ∈ (toCycle 310 z).chn.tab.map (fun e => e.1) ∧ (toCycle 310 z).sealing.running = true ∧
        (toCycle 310 z).sealing.leaves.length + 1 < 16777216) ∧
      windowOne.kind = 2 ∧ (windowOne.start + windowOne.commit) % slotCycles (dA (windowed {} {})).tim.mu = 210 ∧
      (windowOne.start + windowOne.verdict) % slotCycles (dA (windowed {} {})).tim.mu = 310 := by decide +kernel

/-- A radio channel of pattern 1 in every slot, and a coupled channel. -/
def radioChan : Chan := { host := { kind := 2, pattern := 1 } }

theorem wit_LateSlotsAndDeclarations :
    (∃ t, windowAt (dA (windowed {} {})) windowOne windowOne.commit = some t) ∧
      windowTickets (toCycle 210 (dA (windowed {} {}))) windowOne ((windowAt (dA (windowed {} {})) windowOne 200).getD 0) = [boundBatch {}] ∧
      (boundBatch {}).done = false ∧
      (let z := dA (timed windowOne radioChan {} id)
       (chan z 4).state = .opened ∧ (chan z 4).host.kind = 2 ∧ (model z (chan z 4).host.slot).isSome = true ∧
       (chanTickets z 4).map (fun b => b.first) = [none] ∧ (z.chn.tickets.map (fun b => b.serial)) = [1] ∧ z.chn.serial = 2 ∧
       slotOwed z 4 0 = true ∧ 4 ∈ z.chn.tab.map (fun e => e.1)) ∧
      (∀ b ∈ [({} : Batch), { done := true }],
       let z := dA (windowed { coupled := true } b)
       (chan z 4).coupled = true ∧ (chanTickets z 4).find? (fun b => b.window.isSome && b.decl.isNone) = some (boundBatch b) ∧
       ticket z 1 = some (boundBatch b)) := by
  refine ⟨?_, by decide +kernel⟩
  exact Option.isSome_iff_exists.mp (by decide +kernel)

/-- Pipelines 0 and 1 form a group. -/
def dodecaOfTwo (d : Die) : Die := { d with vp := { d.vp with current := 1, pipes := [{}, { lead := 0 }, { lead := 2 }] } }

theorem wit_CommitPointCompletes :
    (∀ b ∈ [({ done := true } : Batch), {}],
      let z := dA (windowed {} b)
      entryAt z 0 = some windowOne ∧ (windowAt z windowOne windowOne.commit).isSome = true ∧ (z.chn.tickets.map (fun b => b.serial)).Nodup ∧
        (windowTickets (toCycle 210 z) windowOne ((windowAt z windowOne 200).getD 0)).map (fun b => mayCommit (toCycle 210 z) b) = [b.done]) ∧
      entryAt (dA (windowed {} {})) 1 = none ∧
      windowAt (dA (timed { windowOne with slot := 1 } {} {} id)) { windowOne with slot := 1 } windowOne.commit = none ∧
      (comparePoints 0 [] [.differs 5] (dA (timed windowOne {} (boundBatch { done := true }) dodecaOfTwo))).2 = false ∧
      (let z := dA (timed windowOne {} (boundBatch { done := true }) dodecaOfTwo)
       (pipe z (pipe z 0).lead).mismatchAt = none ∧ mayCommit z (boundBatch { done := true }) = true) := by decide +kernel

theorem wit_VerdictTimeCompletes :
    (let z := dA (windowed {} {})
     entryAt z 0 = some windowOne ∧ (windowAt z windowOne windowOne.verdict).isSome = true ∧ (z.chn.tickets.map (fun b => b.serial)).Nodup ∧
       (windowTickets (toCycle 310 z) windowOne ((windowAt z windowOne 300).getD 0)).length = 1) ∧
      windowAt (dA (timed { windowOne with slot := 1 } {} {} id)) { windowOne with slot := 1 } windowOne.verdict = none := by decide +kernel

theorem wit_RadioSlotLateCompletes :
    (∀ b ∈ [({} : Batch), { first := some 0 }],
      let z := dA (timed windowOne radioChan b id)
      (chan z 4).state = .opened ∧ (chan z 4).host.kind = 2 ∧ (z.chn.tickets.map (fun b => b.serial)).Nodup ∧
        (∀ b ∈ z.chn.tickets, b.serial < z.chn.serial) ∧ slotOwed z 4 0 = true ∧ 4 ∈ z.chn.tab.map (fun e => e.1)) ∧
      (chan (dA (timed windowOne {} {} id)) 4).host.kind ≠ 2 := by decide +kernel

theorem wit_DeclareCutoffCompletes :
    (∀ b ∈ [({} : Batch), { done := true }],
      let z := dA (windowed { coupled := true } b)
      (chan z 4).coupled = true ∧ (chanTickets z 4).find? (fun b => b.window.isSome && b.decl.isNone) = some (boundBatch b) ∧
        (z.chn.tickets.map (fun b => b.serial)).Nodup) ∧ (chan (dA (windowed {} {})) 4).coupled = false := by decide +kernel

/-! ### The timetable -/

/-- An entry of a kind for group 0, with a span of 1,000 cycles. -/
def entryOf (k : Nat) : TtEntry := { kind := k, group := 0, target := 4, slot := 0, start := 10, len := 1000 }
def running1 (d : Die) : Die := { d with cad := { d.cad with spans := [(0, 0, 5000)] } }

theorem wit_TimetableEntriesTakeEffect :
    entryNow (dA (timed windowOne {} {} id)) 0 2 = some windowOne ∧ (chan (dA (timed windowOne {} {} id)) 4).host.kind ≠ 3 ∧
      ((windowBatches (beginEntry windowOne (dA (timed windowOne radioChan { first := some 0 } id))) windowOne).map (fun b => b.serial)) = [1] ∧
      entryNow (dA (timed (entryOf 1) {} {} id)) 0 1 = some (entryOf 1) ∧ leads (dA (timed (entryOf 1) {} {} id)) 0 = true ∧
      spanPast (entryOf 1) (beginEntry (entryOf 1) (dA (timed (entryOf 1) {} {} id))) = false ∧
      entryNow (dA (timed (entryOf 1) {} {} (fun d => { d with tim := { d.tim with air := 400000 } }))) 0 1 = some (entryOf 1) ∧
      spanPast (entryOf 1) (beginEntry (entryOf 1) (dA (timed (entryOf 1) {} {} (fun d => { d with tim := { d.tim with air := 400000 } })))) = true ∧
      (pipe (dA (timed (entryOf 1) {} {} id)) 0).saved = [] ∧
      entryAt (dA (timed (entryOf 1) {} {} running1)) 0 = some (entryOf 1) ∧ (0, 0, 5000) ∈ (dA (timed (entryOf 1) {} {} running1)).cad.spans ∧
      entryAt (dA (timed (entryOf 7) {} {} running1)) 0 = some (entryOf 7) ∧
      entryNow (dA (timed (entryOf 6) {} {} id)) 0 6 = some (entryOf 6) := by decide +kernel

/-- A group that a substitution holds, and the rebuild span of a model that is streaming, which turns no Month. -/
def substituted (d : Die) : Die := { d with vp := { d.vp with substituting := [(8, 0, 0)] } }
def rebuilding (d : Die) : Die := { d with adm := { d.adm with
  stream := some ⟨0, false, 0, 0, 0, [], 0⟩, models := [(0, { modelOf { nLayers := 1 } planOne with state := .streaming })] } }

theorem wit_TimetableEntriesTakeEffect_busy :
    (∀ k ∈ [1, 4, 5, 7], entryNow (dA (timed (entryOf k) {} {} substituted)) 0 k = some (entryOf k)) ∧
      groupBusy (dA (timed (entryOf 1) {} {} substituted)) 0 = true ∧ groupBusy (dA (timed (entryOf 1) {} {} id)) 0 = false ∧
      (let z := dA (timed { entryOf 5 with target := 0 } {} {} rebuilding)
       z.adm.stream = some ⟨0, false, 0, 0, 0, [], 0⟩ ∧ (model z 0).map (fun m => (m.turn, m.manifest.kind)) = some (none, 1) ∧
       z.wrd.chunks = []) := by decide +kernel

/-- A canary's channel, with no credit and with one. -/
def canaryChan : Chan := { host := { canary := true } }
def creditOne (d : Die) : Die := { d with wlk := { d.wlk with dsGrant := ⟨1, 1, 0⟩ } }

/-- A canary entry of the slot before, which still waits for its credit. -/
def lateCanary (f : Die → Die) : State := timed { entryOf 3 with slot := 1 } canaryChan {} (fun d => f { d with
  cad := { d.cad with canaryWait := [(4, 0)], active := { d.cad.active with period := 4 } } })

theorem wit_TimetableEntriesTakeEffect_canary_late :
    (∀ z ∈ [dA (lateCanary id), dA (lateCanary creditOne)],
      entryAt z 0 = some { entryOf 3 with slot := 1 } ∧ entryNow z 0 3 = none ∧ (4, 0) ∈ z.cad.canaryWait ∧ z.wlk.state = .up) ∧
      0 < dsCredit (dA (lateCanary creditOne)).wlk 0 ∧ dsCredit (dA (lateCanary id)).wlk 0 = 0 := by decide +kernel

theorem wit_TimetableEntriesTakeEffect_canary :
    entryNow (dA (timed (entryOf 3) canaryChan {} id)) 0 3 = some (entryOf 3) ∧ field (dA (timed (entryOf 3) canaryChan {} id)) pCAD 0x040 0 ≠ 0 ∧
      (chan (dA (timed (entryOf 3) canaryChan {} id)) 4).state = .opened ∧ (chan (dA (timed (entryOf 3) canaryChan {} id)) 4).host.canary = true ∧
      (dA (timed (entryOf 3) canaryChan {} creditOne)).wlk.state = .up ∧ 0 < dsCredit (dA (timed (entryOf 3) canaryChan {} creditOne)).wlk 0 ∧
      dsCredit (dA (timed (entryOf 3) canaryChan {} id)).wlk 0 = 0 ∧ 4 ∈ (dA (timed (entryOf 3) canaryChan {} id)).chn.tab.map (fun e => e.1) := by
  decide +kernel

/-- A self-test that fits its slot, one that does not, and a skip count at its bound. -/
def longTest : TtEntry := { entryOf 4 with len := 10000000 }
def skipped (n : Nat) (d : Die) : Die := { d with cad := { d.cad with skips := [(0, n)] } }
def twoTests (d : Die) : Die := { d with cad := { d.cad with tests := [(0, 8, 1), (1, 8, 2)] } }
def fitsNow (z : Die) (e : TtEntry) : Bool :=
  let y := beginEntry e z
  let now := max e.start (cyclesSince y (slotBegin y))
  !spanPast e y && decide (now + e.len ≤ testLimit y 0 now)
def streaming0 (d : Die) : Die := { d with adm := { d.adm with stream := some ⟨0, false, 0, 0, 0, [], 0⟩ } }

theorem wit_TestsRebuildsAndSentinelRuns_tests :
    entryNow (dA (timed (entryOf 4) {} {} id)) 0 4 = some (entryOf 4) ∧ leads (dA (timed (entryOf 4) {} {} id)) 0 = true ∧
      fitsNow (dA (timed (entryOf 4) {} {} id)) (entryOf 4) = true ∧ (dA (timed (entryOf 4) {} {} id)).cad.tests = [] ∧
      (dA (timed (entryOf 4) {} {} twoTests)).cad.tests.find? (fun t => t.1 == 0) = some (0, 8, 1) ∧
      entryNow (dA (timed longTest {} {} id)) 0 4 = some longTest ∧ fitsNow (dA (timed longTest {} {} id)) longTest = false ∧
      mgetD (dA (timed longTest {} {} (skipped 2))).cad.skips 0 0 ≤ 2 ∧
      entryNow (dA (timed (entryOf 5) {} {} streaming0)) 0 5 = some (entryOf 5) ∧
      spanPast (entryOf 5) (beginEntry (entryOf 5) (dA (timed (entryOf 5) {} {} streaming0))) = false ∧
      (dA (timed (entryOf 5) {} {} streaming0)).adm.stream = some ⟨0, false, 0, 0, 0, [], 0⟩ ∧
      entryNow (dA (timed { entryOf 5 with target := 0 } {} {} streaming0)) 0 5 = some { entryOf 5 with target := 0 } := by decide +kernel

/-- Die A with a resident Sentinel image that takes 100 cycles a batch, and entries of it for two groups; with a run. -/
def imaged (d : Die) : Die := { d with
  sntb := { d.sntb with images := [(4, { state := 2, payload := zeros 12 ++ leBytes 4 100 ++ zeros 48 })] }
  snt := { state := List.replicate 512 1, map := List.range 510 }
  vp := { d.vp with pipes := (List.range 6).map (fun n => { lead := n }) }
  cad := { d.cad with active := { d.cad.active with entries := [entryOf 7, { entryOf 7 with group := 3 }] } } }
def sentinelChan : Chan := { host := { kind := 3, slot := 68 } }
def dueBatch : Batch := { boundBatch {} with complete := true }
def inRun (d : Die) : Die := { d with
  sntb := { d.sntb with runs := [⟨3, 0, 3, [1]⟩], mismatchAt := [(3, 0)] }
  ing := { d.ing with sentinel := [{ stream := 0, counter := 0, slot := 0, symbol := 0, payload := [1, 2], digest := [], sent := false, canary := false, chan := 4, serial := 2 }] } }

theorem wit_TestsRebuildsAndSentinelRuns_start :
    (let z := dA (timed (entryOf 7) sentinelChan dueBatch imaged)
     entryNow z 0 7 = some (entryOf 7) ∧ leads z 0 = true ∧ spanPast (entryOf 7) (beginEntry (entryOf 7) z) = false ∧
       sntPartner z (entryOf 7) = some { entryOf 7 with group := 3 } ∧ (image z 4).state = 2 ∧ groupUnits z 12 0 ≠ 0 ∧
       groupUnits z 12 (pipe z 3).lead ≠ 0 ∧ z.sntb.runs = [] ∧ groupBusy z 0 = false ∧ leads z (pipe z 3).lead = true ∧
       groupBusy z (pipe z 3).lead = false ∧
       (sntDue (beginEntry (entryOf 7) z) 4).take ((entryOf 7).len / max 1 (u32At (image z 4).payload 12)) = [1]) := by decide +kernel

theorem wit_TestsRebuildsAndSentinelRuns_complete :
    (let z := dA (timed (entryOf 7) {} {} inRun)
     z.sntb.runs = [⟨3, 0, 3, [1]⟩] ∧ leads z 0 = true ∧ leads z 3 = true ∧ (ticket z 1).map (fun b => (b.serial, b.due)) = some (1, false) ∧
     (z.ing.sentinel.find? (fun h => h.serial == 2 && h.chan == 4)).isSome = true ∧
     mget z.sntb.mismatchAt (6 * 0 + 3) = some 0 ∧ within z (field z pSNT 0x040 16) 0 = true) := by decide +kernel


/-! ### CAD's commands, seals, hand-over and debug -/

/-- A full timetable of no entries, for the numerology at reset, and die A with a load area. -/
def fullImage : Bytes :=
  leBytes 4 0x4E444143 ++ leBytes 2 0x100 ++ [1, 1] ++ leBytes 2 1 ++ leBytes 2 0 ++ [0, 0, 0, 0] ++ zeros 48 ++ List.replicate 64 255
def loading (b : Bytes) : State := spring (fun d => { d with cad := { d.cad with load := b } })
def standingBy (d : Die) : Die := { d with cad := { d.cad with standby := some {} } }

/-- The result of a judgement, its parts compared. -/
def errOf {α} (r : Except (Nat × Nat) α) : Option (Nat × Nat) := match r with | .error e => some e | .ok _ => none

theorem wit_CadCommands :
    errOf (judgeFull (dA (loading fullImage))) = none ∧ errOf (judgeFull (dA (loading []))) = some (1, 0) ∧
      capFree (dA (loading [])) pCAD 0x04C = true ∧ (dA (spring standingBy)).cad.standby = some {} ∧
      (dA (spring standingBy)).chn.tab = [] ∧ (dA (spring id)).cad.standby = none ∧
      ((dA (withTicket {} {})).chn.tab.map (fun c => c.2.state)) = [.opened] ∧ (dA (spring id)).vp.pending = false ∧
      (dA (spring pendingPair)).vp.pending = true := by
  decide +kernel

/-- Die A in Spring with seals running, at a symbol count of a time. -/
def sealed (ns : Nat) (f : Sealing → Sealing) : State := spring (fun d => { d with
  sealing := f { d.sealing with running := true, effPeriod := 28, leaves := [⟨zeros 96, [1], [2], zeros 16⟩] }
  tim := { d.tim with air := ns }, sig := { state := [1, 1], map := [0, 1] } })
def twoSeals (z : Sealing) : Sealing := { z with waiting := [⟨3, zeros 256, [], [], zeros 114, 0, []⟩, ⟨4, zeros 256, [], [], zeros 114, 1, []⟩] }

theorem wit_SealPeriodsEndAndAreSigned :
    (let z := dA (sealed 2000000 id)
     z.sealing.running = true ∧ z.sealing.effPeriod ≠ 0 ∧ symIndex z % z.sealing.effPeriod = 0 ∧ symIndex z ≠ z.sealing.startIdx) ∧
      (dA (spring id)).sealing.running = false ∧
      symIndex (dA (sealed 2000000 (fun z => { z with effPeriod := 27 }))) % (dA (sealed 2000000 (fun z => { z with effPeriod := 27 }))).sealing.effPeriod ≠ 0 ∧
      symIndex (dA (sealed 0 id)) = (dA (sealed 0 id)).sealing.startIdx ∧
      (dA (sealed 0 twoSeals)).sealing.waiting = ⟨3, zeros 256, [], [], zeros 114, 0, []⟩ :: [⟨4, zeros 256, [], [], zeros 114, 1, []⟩] ∧
      enginesUp (dA (sealed 0 twoSeals)) = 2 ∧ mget (dA (sealed 0 twoSeals)).sig.codeAt 0 = none := by decide +kernel

theorem wit_SealCommandsAndImageHash :
    (dA (sealed 0 twoSeals)).sealing.running = true ∧ (dA (spring id)).sealing.running = false ∧ (dA (sealed 0 twoSeals)).sig.state = [1, 1] ∧
      enginesUp (dA (spring id)) ≠ 2 ∧
      (image (dA (spring (fun d => { d with sntb := { d.sntb with images := [(4, { state := 2 })] } }))) (4 : BitVec 4).toNat).state = 2 := by
  decide +kernel

/-- Die A with pipelines and their pages enabled. -/
def piped (f : Die → Die) : State := spring (fun d => f { d with
  vp := { d.vp with pipes := [{ enabled := true }, { lead := 1 }] }, regs := { d.regs with enabled := pDBG :: pVP :: pCHN :: d.regs.enabled } })
def standby1 (d : Die) : Die := { d with cad := { d.cad with standby := some { pairing := 1 } } }
def draining1 (d : Die) : Die := { d with
  cad := { d.cad with standby := some { entries := [windowOne] } }, vp := { d.vp with target := 1, pending := true, draining := true } }

theorem wit_HandOverOfThePairing :
    (dA (piped pendingPair)).vp.pending = true ∧ (dA (piped standby1)).vp.pending = false ∧ pairResult (dA (piped standby1)) 1 = 1 ∧
      min 2 (3 : BitVec 2).toNat = 2 ∧ pairResult (dA (piped standby1)) 2 ≠ 1 ∧ enabledPipes (dA (piped id)) ≠ [] ∧
      (dA (piped draining1)).cad.standby = some { entries := [windowOne] } ∧ drained (dA (piped draining1)) = true ∧
      coupledChange (dA (piped draining1)) (dA (piped draining1)).vp.target = false ∧ (dA (piped id)).cad.standby = none ∧
      drained (dA (piped standby1)) = false := by decide +kernel

/-- Both dies drained for a Tandem pairing that a coupled channel of theirs changes to. -/
def bothDrained (down : Bool) : State :=
  let one (d : Die) : Die := draining1 { d with
    vp := { d.vp with pipes := [{ enabled := true }, { lead := 1 }] }, spk := { d.spk with down := down }
    chn := { d.chn with tab := [(4, { state := .opened, coupled := true })] } }
  (piped one).setDie .b (one (State.reset.die .b))

theorem wit_HandOverOfThePairing_coupled :
    (∀ down ∈ [true, false], drained (dA (bothDrained down)) = true ∧ coupledChange (dA (bothDrained down)) (dA (bothDrained down)).vp.target = true ∧
      agreed (dA (bothDrained down)) ((bothDrained down).die .b) = !down) ∧
      ((bothDrained false).die .b).cad.standby = some { entries := [windowOne] } := by decide +kernel

/-- Die A with its debug port unlocked, and a program that adds. -/
def debugging (f : Die → Die) (c : ChanState) : State := spring (fun d => f { d with
  vp := { d.vp with pipes := [{ enabled := true, core := { target := 4 } }, { lead := 1, enabled := true }] }
  key := { d.key with debug := 1 }
  adm := { d.adm with models := [(0, modelOf { nLayers := 1 } { planOne with code := [0x03020102, 5, 7] })] }
  chn := { d.chn with tab := [(4, { state := c })] } })
def haltIn (d : Die) : Die := modCore 0 (fun c => { c with halted := true }) d

def logged (d : Die) : Die := { haltIn d with dbg := { d.dbg with complete := true } }

/-- The same, in a group of two. -/
def loggedPair (d : Die) : Die := { logged d with vp := { (logged d).vp with
  current := 1, pipes := (logged d).vp.pipes.map (fun p => { p with lead := 0 }) } }

theorem wit_DebugOfAGroup_replay :
    dbgHalted (dA (debugging loggedPair .paused)) = true ∧ 2 ≤ (members (dA (debugging loggedPair .paused)) 0).length := by decide +kernel

theorem wit_DebugOfAGroup :
    debugOpen (dA (spring id)) = false ∧ debugOpen (dA (debugging id .paused)) = true ∧
      groupNamed (dA (debugging id .paused)) (0 : BitVec 3).toNat = some 0 ∧ openChans (dA (debugging id .paused)) = [] ∧
      dbgHalted (dA (debugging id .paused)) = false ∧ groupNamed (dA (debugging id .paused)) (7 : BitVec 3).toNat = none ∧
      4 ∈ openChans (dA (debugging id .opened)) ∧ groupServes (dA (debugging id .opened)) 0 (chan (dA (debugging id .opened)) 4) = true ∧
      dbgHalted (dA (debugging haltIn .paused)) = true ∧ dbgLead (dA (debugging haltIn .paused)) = 0 ∧
      (haltedModel (dA (debugging haltIn .paused)) 0).map (fun m => m.prog.code[(Machine.core (dA (debugging haltIn .paused)) 0).pc]?) =
        some (some 0x03020102) ∧ wOp 0x03020102 = 0x02 ∧ wA 0x03020102 ≠ 0 ∧ leads (dA (debugging haltIn .paused)) 0 = true ∧
      (dA (debugging logged .paused)).dbg.complete = true ∧ (dA (debugging logged .paused)).dbg.truncated = false ∧
      logMonthThere (dA (debugging logged .paused)) = true ∧ dbgHalted (dA (debugging logged .paused)) = true ∧
      (model (dA (debugging logged .paused)) (dA (debugging logged .paused)).dbg.logSlot).isSome = true ∧
      (members (dA (debugging logged .paused)) 0).length = 1 ∧ (dA (debugging haltIn .paused)).dbg.complete = false := by decide +kernel

/-! ### Spoke, channels and ratchets -/

/-- A message over Spoke for channel 4, and one that is not whole. -/
def spokeMsg (k sub a : Nat) : SpokeMsg := ⟨0, spokeBytes k sub 4 a 0 0 0 [] []⟩
def torn : SpokeMsg := ⟨0, zeros 96⟩

/-- Die B in Spring with an admission of both dies that waits for its Month. -/
def dieB (f : Die → Die) : State := State.reset.setDie .b (f { State.reset.die .b with
  phase := .spring, adm := { models := [(1, { coupledModel with state := .rpmb })] } })

theorem wit_SpokeMessages :
    (∀ k ∈ [1, 4, 5, 6, 7], spokeOk k torn = false) ∧ spokeOk 1 (spokeMsg 1 1 0) = true ∧ spSub (spokeMsg 1 1 0) = 1 ∧
      spSub (spokeMsg 1 3 0) = 3 ∧ spChan (spokeMsg 1 1 0) = 4 ∧ (chan (dA (withBatch { coupled := true } {})) 4).coupled = true ∧
      chanLive (chan (dA (withBatch { coupled := true } {})) 4) = true ∧
      ((chanTickets (dA (withBatch { coupled := true } {})) 4).find? (fun b => b.batchNo == spA (spokeMsg 1 1 0) && !b.canary)).map
        (fun b => (b.serial, b.peer)) = some (1, none) ∧
      (chanTickets (dA (withBatch { coupled := true } {})) 4).find? (fun b => b.batchNo == spA (spokeMsg 1 1 7) && !b.canary) = none ∧
      0 ≤ slotDiff (spA (spokeMsg 1 1 7)) (chan (dA (withBatch { coupled := true } {})) 4).wrd.nextBatch ∧
      spokeOk 4 (spokeMsg 4 4 0) = true ∧ spSub (spokeMsg 4 4 0) ≤ 4 ∧ spokeOk 6 (spokeMsg 6 2 0) = true ∧ spSub (spokeMsg 6 2 0) ≤ 2 ∧
      spokeOk 7 (spokeMsg 7 0 0) = true ∧ spokeOk 5 (spokeMsg 5 0 0) = true ∧ 40 < (41 : BitVec 16).toInt.natAbs ∧
      ¬ 40 < (40 : BitVec 16).toInt.natAbs ∧ 40 < (0x8000 : BitVec 16).toInt.natAbs := by decide +kernel

theorem wit_SpokeMessages_slot :
    ((dieB id).die .b).which = .b ∧ holdsCoupled ((dieB id).die .b) = true ∧ ((dieB id).die .b).spk.down = false ∧
      slotDiff (spA (spokeMsg 5 0 0)) (nearSlot ((dieB id).die .b)) = 0 ∧
      slotDiff (spA (spokeMsg 5 0 7)) (nearSlot ((dieB id).die .b)) ≠ 0 ∧ ((dieB id).die .b).tim.step = none ∧
      ((dieB id).die .b).tim.following = false ∧
      (let z := (dieB (fun d => { d with tim := { d.tim with following := true, step := some ⟨0, 1, 0⟩ } }))
       (z.die .b).tim.following = true ∧ (z.die .a).tim.steps = (z.die .b).tim.peerSteps ∧ (z.die .b).tim.step ≠ none) ∧
      (dA (spring id)).which = .a ∧ ((dieB id).die .b).adm.models.map (fun e => (isCoupled e.2, admitting e.2, e.2.peerOk)) = [(true, true, false)] := by
  decide +kernel

/-- Die A with a descriptor in CHN_DESC_BUF, and a model of attention in slot 0. -/
def withDesc (b : Bytes) (d : Die) : Die := (List.range 64).foldl (fun d m => setField 0 pCHN (0x100 + 4 * m) 0 (u32At b (4 * m)) d) d
def kvManifest : Manifest := { kind := 1, kvFmt := 0, nLayers := 1, nKv := 1, dHead := 4 }
def creating (h : ChanHost) (f : Die → Die) : State := spring (fun d => f (withDesc (descBytes { state := .opened, host := h }) { d with
  phase := .summer, cad := { d.cad with active := { d.cad.active with mu := 1 } }
  wlk := { d.wlk with state := .up, halves := 3 }, regs := { d.regs with enabled := [pCHN, pVP, pCAD] }
  adm := { d.adm with models := [(0, modelOf kvManifest planOne)] }
  vp := { d.vp with pipes := (List.range 4).map (fun n => { lead := n, enabled := true }) }
  chn := { d.chn with tab := [(4, { state := .opened })] } }))
def createHost (s : State) : ChanHost := parseChan (some kvManifest) (descBuf (dA s))

/-- A fragment of channel 5 that is not well formed. -/
def badFragment (d : Die) : Die := { d with cad := { d.cad with load := zeros 7 ++ [2] ++ zeros 5 ++ [2, 5, 0] ++ zeros 112 } }

theorem wit_ChannelsAreCreated :
    (∀ g ∈ [id, badFragment],
      (dA (creating { kind := 1, ctx := 256 } g)).vp.pending = false ∧ (chan (dA (creating { kind := 1, ctx := 256 } g)) 5).pend = none ∧
      (chan (dA (creating { kind := 1, ctx := 256 } g)) 5).state = .free ∧
      createRefusal (dA (creating { kind := 1, ctx := 256 } g)) State.reset.dieB (createHost (creating { kind := 1, ctx := 256 } g)) false = .ok 1) ∧
      (dA (creating { kind := 1 } pendingPair)).vp.pending = true ∧ (chan (dA (creating { kind := 1 } id)) 4).state ≠ .free ∧
      holdsId State.reset.dieB 5 = false ∧ (model (dA (creating { kind := 1 } id)) 0).map isCoupled = some false ∧
      createRefusal (dA (creating { kind := 1, slot := 3 } id)) State.reset.dieB (createHost (creating { kind := 1, slot := 3 } id)) false = .error 14 ∧
      errOf (judgeFragment (dA (creating { kind := 1, ctx := 256 } id)) 2 5 (some { id := 5, host := createHost (creating { kind := 1, ctx := 256 } id), coupled := false, model := model (dA (creating { kind := 1, ctx := 256 } id)) (createHost (creating { kind := 1, ctx := 256 } id)).slot }) none) = none ∧
      errOf (judgeFragment (dA (creating { kind := 1, ctx := 256 } badFragment)) 2 5 (some { id := 5, host := createHost (creating { kind := 1, ctx := 256 } badFragment), coupled := false, model := model (dA (creating { kind := 1, ctx := 256 } badFragment)) (createHost (creating { kind := 1, ctx := 256 } badFragment)).slot }) none) = some (1, 0) := by
  decide +kernel

/-- Die A with channel 4 in a state. -/
def channel4 (x : Chan) (f : Die → Die) : State := spring (fun d => f { d with
  adm := { d.adm with models := [(0, modelOf kvManifest planOne)] }, chn := { d.chn with tab := [(4, x)] } })

theorem wit_ChannelCommandsByState :
    (∀ c ∈ [ChanState.opened, .paused, .closed, .retired, .free],
      (chan (dA (channel4 { state := c } id)) 4).pend = none ∧ (chan (dA (channel4 { state := c } id)) 4).state = c) ∧
      (chan (dA (channel4 { state := .opened, pend := some .pause } id)) 4).pend = some .pause ∧
      (chan (dA (channel4 { state := .opened, pend := some .close } id)) 4).pend = some .close ∧
      chanLive (chan (dA (channel4 { state := .opened } id)) 4) = true ∧ chanLive (chan (dA (channel4 { state := .closed } id)) 4) = false := by
  decide +kernel

/-- A paused channel with a ledger; an image in target 6 that does not fit; a ring of seven unread records. -/
def target6 (b : Bytes) (d : Die) : Die := { d with key := { d.key with bulk := [(6, ⟨b.length, [(0, b)], 7⟩)] } }
def pausedChan : Chan := { state := .paused, density := 1, ringHead := 10, ringTail := 3, host := { ctx := 100 } }

theorem wit_ChannelReadSaveRestoreAndRing :
    (let z := dA (channel4 pausedChan (target6 [1, 2, 3]))
     (chan z 4).pend = none ∧ (chan z 4).state = .paused ∧ model z (chan z 4).host.slot = some (modelOf kvManifest planOne) ∧
     (chan z 4).density ≠ 0 ∧ (chan z 4).validEnd = 0 ∧ (chan z 4).append = 0 ∧ bulkWhole z 6 = some [1, 2, 3] ∧
     imageFits z kvManifest (chan z 4) [1, 2, 3] = false ∧ 4 ∈ z.chn.tab.map (fun e => e.1)) ∧
      (chan (dA (channel4 { state := .opened } id)) 4).state ≠ .paused ∧
      (let z := dA (channel4 { state := .paused, pend := some .resume } id)
       (chan z 4).pend ≠ none ∧ (chan z 4).state = .paused ∧ (chan z 4).density = 0) ∧
      (chan (dA (channel4 { state := .paused, density := 1, validEnd := 256, append := 1 } id)) 4).validEnd ≠ 0 ∧
      bulkWhole (dA (channel4 pausedChan id)) 6 = none ∧
      (∀ t ∈ [(3, 0), (10, 7)], (t.1 + 2 ^ 32 - pausedChan.ringTail) % 2 ^ 32 = t.2) ∧
      ((11 + 2 ^ 32 - pausedChan.ringTail) % 2 ^ 32 > (pausedChan.ringHead + 2 ^ 32 - pausedChan.ringTail) % 2 ^ 32) := by decide +kernel

/-- An image of no positions, signed by the neutral point, which is the die's identity. -/
def fitHead : Bytes := leBytes 4 0x4C444757 ++ leBytes 2 0x100 ++ [1, 0] ++ leBytes 4 0 ++ leBytes 4 100
def noUnits : Bytes := parallelHash256 [] 8192 (ascii "HW2240 ledger")
def fitTail : Bytes := zeros 112 ++ sigOne ++ zeros 14
def fitImage : Bytes := (fitHead ++ weightsDigest kvManifest ++ (zeros 32 ++ zeros 32)) ++ noUnits ++ fitTail
def identified (d : Die) : Die := { target6 fitImage d with key := { (target6 fitImage d).key with idPublic := keyOne } }

theorem wit_ChannelReadSaveRestoreAndRing_restore :
    bulkWhole (dA (channel4 pausedChan identified)) 6 = some fitImage ∧ (chan (dA (channel4 pausedChan identified)) 4).validEnd = 0 ∧
      imageFits (dA (channel4 pausedChan identified)) kvManifest (chan (dA (channel4 pausedChan identified)) 4) fitImage = true := by
  have l1 : (weightsDigest kvManifest).length = 32 := by decide +kernel
  have l2 : noUnits.length = 32 := by decide +kernel
  have s1 : slice fitImage 16 32 = weightsDigest kvManifest := by
    have e : fitImage = fitHead ++ weightsDigest kvManifest ++ (zeros 32 ++ zeros 32 ++ noUnits ++ fitTail) := by
      simp only [fitImage, List.append_assoc]
    rw [e]; exact slice_mid fitHead _ _ _ _ rfl l1
  have s2 : slice fitImage 112 32 = noUnits := slice_mid _ _ fitTail _ _ (by simp [l1, fitHead, zeros, leBytes]) l2
  have s3 : slice fitImage 256 0 = [] := rfl
  have s4 : slice fitImage 256 114 = sigOne := by decide +kernel
  have c : chan (dA (channel4 pausedChan identified)) 4 = pausedChan := by decide +kernel
  have i : (dA (channel4 pausedChan identified)).key.idPublic = keyOne := by decide +kernel
  have v : (dA (channel4 pausedChan identified)).key.device = zeros 32 := by decide +kernel
  have n : u32At fitImage 8 = 0 := by decide +kernel
  have r : (fitImage.length == 256 + 0 + 128 && u32At fitImage 0 == 0x4C444757 && u16At fitImage 4 == 0x0100 &&
    byteAt fitImage 6 == 1 && byteAt fitImage 7 == 0 && slice fitImage 48 32 == zeros 32 && slice fitImage 80 32 == zeros 32 &&
    allZero (slice fitImage 144 112) && allZero (fitImage.drop (256 + 0 + 114))) = true := by decide +kernel
  simp only [Bool.and_eq_true] at r
  obtain ⟨⟨⟨⟨⟨⟨⟨⟨r1, r2⟩, r3⟩, r4⟩, r5⟩, r6⟩, r7⟩, r8⟩, r9⟩ := r
  have z0 : cdiv 0 256 * unitLen kvManifest 1 = 0 := by decide +kernel
  have f0 : fitTo 32 [] = zeros 32 ∧ fitTo 32 (zeros 32) = zeros 32 := by decide
  have d0 : pausedChan.density = 1 := rfl
  have k0 : kvManifest.kvFmt = 0 ∧ kvManifest.programDigest = [] := ⟨rfl, rfl⟩
  refine ⟨by decide +kernel, by rw [c]; rfl, ?_⟩
  rw [c]
  simp only [imageFits, n, z0, i, v, f0, k0, s1, s2, s3, s4, keyOne_signs, r1, r2, r3, r6, r7, r8, r9, d0, r4, r5]
  simp [noUnits]

/-- Die A with ratchet 5, and with a channel that names it. -/
def ratchet5 (r : Ratchet) (lo : List (Nat × Nat)) : State := spring (fun d => { d with rat := { d.rat with tab := [(5, r)], loHeld := lo } })
def naming5 (d : Die) : Die := { d with chn := { d.chn with tab := [(4, { state := .opened, host := { ledgerRat := 32773 } })] } }

theorem wit_RatchetRegisters :
    (let z := dA (ratchet5 { owner := 3, value := 9 } [])
     named z 5 = false ∧ named (naming5 z) 5 = true ∧ ownerOf z 5 = 3 ∧ ownerOf (naming5 z) 5 ≠ 3) ∧
      mgetD (dA (ratchet5 { owner := 3, value := 9 } [(0, 4294967295)])).rat.loHeld 0 0 < 2 ^ 32 ∧
      ownerOf (dA (ratchet5 { owner := 2, value := 9 } [])) 5 ≠ 3 ∧
      (ratchet (dA (ratchet5 { owner := 3, value := 9 } [(0, 10)])) 5).value < 0 * 2 ^ 32 + 10 ∧
      0 * 2 ^ 32 + 9 ≤ (ratchet (dA (ratchet5 { owner := 3, value := 9 } [(0, 9)])) 5).value := by decide +kernel

/-- An image of one layer of one weight, in a container of the owner. -/
def oneLayer : Bytes :=
  leBytes 4 0x4C4E5453 ++ leBytes 2 0x100 ++ [1, 1] ++ leBytes 4 112 ++ leBytes 4 90 ++ [1, 0, 1, 0] ++ zeros 4 ++ leBytes 4 1 ++ [1, 1, 0, 0] ++
    leBytes 4 1 ++ leBytes 4 96 ++ zeros 24 ++ ([1, 0, 1, 1] ++ leBytes 2 1 ++ leBytes 2 1 ++ leBytes 2 1 ++ leBytes 2 1 ++ [1, 1, 1, 0] ++
    zeros 8 ++ leBytes 4 0xFFFFFFFF ++ zeros 4) ++ zeros 16
def loaded (b : Bytes) (d : Die) : Die := { d with key := { d.key with bulk := [(4, ⟨b.length, [(0, b)], 7⟩)] } }
def ownedLoaded (b : Bytes) (d : Die) : Die := ownedOne (loaded b d)
def imageState (n : Nat) (d : Die) : Die := { d with sntb := { d.sntb with images := [(4, { state := n })] } }

theorem wit_SentinelImagesLoadAndUnload_refused :
    (dA (spring id)).phase = .spring ∧ (image (dA (spring id)) 4).state ≠ 1 ∧ (image (dA (spring id)) 4).state ≠ 2 ∧
      bulkWhole (dA (spring id)) 4 = none ∧ bulkWhole (dA (spring (loaded [1]))) 4 = some [1] ∧ imageRefusal (dA (spring (loaded [1]))) [1] = some 1 ∧
      (image (dA (spring (imageState 1))) 4).state = 1 ∧ (image (dA (spring (imageState 2))) 4).state = 2 ∧
      imageNamed (dA (spring (fun d => { d with chn := { d.chn with tab := [(4, { state := .opened, host := { kind := 3, slot := 68 } })] } }))) 4 = true ∧
      imageNamed (dA (spring id)) 4 = false := by decide +kernel

theorem wit_SentinelImagesLoadAndUnload_accepted :
    bulkWhole (dA (hosted (theSession 3) (ownedLoaded (containerOf 2 oneLayer)))) 4 = some (containerOf 2 oneLayer) ∧
      imageRefusal (dA (hosted (theSession 3) (ownedLoaded (containerOf 2 oneLayer)))) (containerOf 2 oneLayer) = none := by
  refine ⟨by decide +kernel, ?_⟩
  have o : (dA (hosted (theSession 3) (ownedLoaded (containerOf 2 oneLayer)))).key.rpmb.owner = h32 keyOne := hosted_ownedOne _ _
  have v : tchiliOk (dA (hosted (theSession 3) (ownedLoaded (containerOf 2 oneLayer)))) 2 (containerOf 2 oneLayer) = true := by
    refine container_verifies _ 2 _ ?_ ⟨?_, ?_, ?_, ?_, ?_, ?_, ?_, ?_, ?_, ?_⟩ o ?_
    all_goals decide +kernel
  have p : sntImageOk (parseTchili (containerOf 2 oneLayer)).payload = true := by decide +kernel
  have e : ¬ extents (parseTchili (containerOf 2 oneLayer)).payload.length > hbmFree (dA (hosted (theSession 3) (ownedLoaded (containerOf 2 oneLayer)))) := by
    decide +kernel
  simp only [imageRefusal, v, p, e]
  simp


/-! ### The ingress tap and the host port -/

/-- Most significant byte first. -/
def be (n k : Nat) : Bytes := (leBytes n k).reverse

/-- A sensor envelope with a counter and a capture time, in an Ethernet frame, and an eCPRI frame. -/
def envelopeFrame (ctr cap : Nat) (crcBad : Bool) : EthFrame :=
  let v := leBytes 4 1447970131 ++ leBytes 2 256 ++ [0, 0] ++ leBytes 4 ctr ++ leBytes 8 cap ++ leBytes 4 3 ++ zeros 8 ++ [1, 2, 3]
  let v := v ++ leBytes 4 (if crcBad then 1 else crc32c v)
  let udp := be 2 9 ++ be 2 7 ++ be 2 (8 + v.length) ++ zeros 2 ++ v
  let ip := [0x45#8, 0] ++ be 2 (20 + udp.length) ++ zeros 4 ++ [64, 17, 0, 0] ++ zeros 4 ++ be 4 5
  ⟨zeros 12 ++ be 2 0x800 ++ ip ++ udp, true⟩
def ecpriFrame (ctr : Nat) : EthFrame :=
  ⟨zeros 12 ++ be 2 44798 ++ [16, 0] ++ be 2 7 ++ be 2 7 ++ [BitVec.ofNat 8 ctr, 128] ++ [1, 2, 3], true⟩

/-- Die A with ingress port 0 up and stream 3 of a kind on it. -/
def tapped (kind : Nat) (st : StreamSt) (f : Die → Die) : State := spring (fun d => f
  (((setField 0 (ingPage 0) 68 0 0) ∘ (setField 0 (ingPage 0) 72 0 0) ∘ (setField 0 (ingPage 0) 76 0 5) ∘ (setField 3 pING 88 0 1) ∘
    (setField 3 pING 88 1 0) ∘ (setField 3 pING 88 2 kind) ∘ (setField 3 pING 92 0 7) ∘ (setField 3 pING 92 16 0) ∘
    (setField 3 pING 0x060 0 5) ∘ (setField 3 pING 0x060 16 5))
  { d with regs := { d.regs with enabled := [ingPage 0] }, ing := { d.ing with up0 := true, streams := [(3, st)] }
           wlk := { d.wlk with state := .up }, tim := { d.tim with ns := 100000 } }))
def ptpLocked (d : Die) : Die := { d with tim := { d.tim with ptp := .locked } }
def expects (n : Nat) : StreamSt := { primed := true, expected := n }
def readE (s : State) (ctr cap : Nat) (bad : Bool) : Option TapFrame := readEnvelope (dA s) 0 3 (ethBody (envelopeFrame ctr cap bad).bytes).body
def keyE : Nat × Nat := frameKey (ethBody (envelopeFrame 5 99999 false).bytes)

set_option maxRecDepth 100000 in
/-- Also at both ends of the age. -/
theorem wit_FramesAreTappedAndStamped :
    portUp (dA (spring id)) 0 = false ∧ portUp (dA (tapped 1 {} id)) 0 = true ∧ macTakes (dA (tapped 1 {} id)) 0 [] = false ∧
      macTakes (dA (tapped 1 {} id)) 0 (envelopeFrame 5 99999 false).bytes = true ∧
      matchStream (dA (tapped 2 {} id)) 0 (frameKey (ethBody (envelopeFrame 5 99999 false).bytes)) = none ∧
      matchStream (dA (tapped 1 {} id)) 0 (frameKey (ethBody (envelopeFrame 5 99999 false).bytes)) = some 3 ∧
      matchStream (dA (tapped 2 {} id)) 0 (frameKey (ethBody (ecpriFrame 5).bytes)) = some 3 ∧
      (readE (tapped 1 {} id) 5 99999 false).map (fun t => (t.crcOk, t.counter, t.capture)) = some (true, 5, some 99999) ∧
      (readE (tapped 1 {} id) 5 99999 true).map (fun t => t.crcOk) = some false ∧
      (readEcpri (ethBody (ecpriFrame 5).bytes).body).map (fun t => (t.crcOk, t.counter, t.capture)) = some (true, 5, none) ∧
      readEnvelope (dA (tapped 1 {} id)) 0 3 [] = none := by
  decide +kernel

theorem wit_FramesAreTappedAndStamped_counter :
    (let z := dA (tapped 1 (expects 9) ptpLocked)
     frameCounter (stream z 3) 1 5 = none ∧ frameCounter (stream z 3) 1 9 = some (9, 0) ∧ frameCounter (stream z 3) 1 13 = some (13, 4) ∧
     z.tim.ptp = .locked ∧ z.tim.ns = 100000 ∧ strm z 3 0x060 0 = 5 ∧ strm z 3 0x060 16 = 5 ∧
     ¬ ((z.tim.ns : Int) - (94999 : Nat) ≤ 1000 * (strm z 3 0x060 0 : Int)) ∧ (z.tim.ns : Int) - (95000 : Nat) ≤ 1000 * (strm z 3 0x060 0 : Int) ∧
     -(1000 * (strm z 3 0x060 16 : Int)) ≤ (z.tim.ns : Int) - (105000 : Nat) ∧ z.wlk.state = .up ∧ downBytes z + 200 ≤ 1048576) ∧
      (dA (tapped 1 {} (fun d => { d with wlk := { d.wlk with state := .off } }))).wlk.state ≠ .up ∧
      (dA (tapped 1 {} id)).tim.ptp ≠ .locked := by decide +kernel

set_option maxRecDepth 100000 in
/-- Distances 0, 4 and −4 of an envelope's counter; 3 past a wrap, and 200, of an eCPRI frame's. -/
theorem wit_FrameCountersDecide :
    (stream (dA (tapped 1 {} id)) 3).primed = false ∧ (stream (dA (tapped 1 (expects 9) id)) 3).primed = true ∧ keyE.1 = 1 ∧
      (BitVec.ofNat 32 9 - BitVec.ofNat 32 9).toInt = 0 ∧ (BitVec.ofNat 32 13 - BitVec.ofNat 32 9).toInt = 4 ∧
      (BitVec.ofNat 32 5 - BitVec.ofNat 32 9).toInt = -4 ∧ (frameKey (ethBody (ecpriFrame 5).bytes)).1 = 2 ∧
      ((2 : Nat) - (4294967295 : Nat) % 256 : Int) % 256 = 3 ∧ ((199 : Nat) - (4294967295 : Nat) % 256 : Int) % 256 = 200 ∧
      (126 - (4294967295 : Nat) % 256 : Int) % 256 = 127 ∧ (127 - (4294967295 : Nat) % 256 : Int) % 256 = 128 ∧
      streamOn (dA (tapped 1 {} id)) 3 = true ∧ streamOn (dA (spring id)) 3 = false := by decide +kernel

/-- A stamped frame that waits, with a credit on VC 0 and without. -/
def queued (g : V3 Nat) : State := spring (fun d => { d with
  wlk := { d.wlk with state := .up, dsGrant := g }, ing := { d.ing with queue := [{ bytes := [1], stream := 3, no := none, arrived := 0, canary := false, prompt := false }] } })

theorem wit_ForwardingLinksAndGates :
    ((dA (queued ⟨1, 1, 0⟩)).ing.queue.length = 1 ∧ (dA (queued ⟨1, 1, 0⟩)).wlk.state = .up ∧ 0 < dsCredit (dA (queued ⟨1, 1, 0⟩)).wlk 0 ∧
      dsCredit (dA (queued ⟨0, 1, 0⟩)).wlk 0 = 0) ∧
      (dA (hosted (theSession 1) id)).hst.linkUp = true ∧ (false && (dA (hosted (theSession 1) id)).regs.enabled.contains pHST) = false ∧
      (dA (spring (fun d => { d with hst := { d.hst with swapAt := some 0 } }))).hst.swapAt = some 0 ∧ (dA (spring id)).hst.swapAt = none ∧
      (let z := dA (spring (fun d => { d with hst := { d.hst with operN := 2, operCycle := 1000000000 } }))
       z.tim.ns < z.tim.ns + intervalLeft z z.tim.ns ∧ intervalEnd z = z.tim.ns + intervalLeft z z.tim.ns) ∧
      (let z := dA (spring (fun d => { d with tim := { d.tim with ns := 40 }, hst := { d.hst with swapAt := some 90 } }))
       (z.tim.ns + (intervalEnd z - z.tim.ns)) % 2 ^ 64 = 90) := by decide +kernel

/-! ### Time -/

/-- Die A with a source, 10 ms after its last good edge, with a good word. -/
def timeAt (a : AtState) (src : Nat) (f : Tim → Tim) : State := spring (fun d => setField 0 pTIM 0x058 0 src { d with
  tim := f { d.tim with at_ := a, inUse := 1, up := 100000000, air := 100000000, lastEdge := some 90000000, wordGood := true
                        word := some 4, wordAt := 99000000 } })

/-- Also at the bounds 2,000 and 2,001 ns of an edge's error. -/
theorem wit_AirTimeFollowsThePins :
    (dA State.reset).phase = .frost ∧ srcOf (dA (timeAt .acquire 1 id)) = 1 ∧ srcOf (dA (timeAt .free 0 id)) = 0 ∧ srcOf (dA (timeAt .free 2 id)) = 2 ∧
      (dA (timeAt .acquire 1 id)).tim.inUse = 1 ∧ wordStands (dA (timeAt .acquire 1 id)).tim = true ∧
      gapGood (dA (timeAt .acquire 1 id)).tim = true ∧ gapGood (dA (timeAt .acquire 1 (fun t => { t with lastEdge := none }))).tim = false ∧
      wordStands (dA (timeAt .acquire 1 (fun t => { t with wordGood := false }))).tim = false ∧
      2 ≤ (dA (timeAt .acquire 1 (fun t => { t with goodEdges := 2 }))).tim.goodEdges ∧ (dA (timeAt .acquire 1 id)).tim.goodEdges < 2 ∧
      (edgeError (dA (timeAt .locked 1 (fun t => { t with air := 100002000 }))).tim).natAbs = 2000 ∧
      (edgeError (dA (timeAt .locked 1 (fun t => { t with air := 100002001 }))).tim).natAbs = 2001 ∧
      (dA (timeAt .locked 1 id)).tim.at_ = .locked ∧ (dA (timeAt .locked 1 id)).tim.following = false ∧
      (dA (timeAt .locked 1 id)).tim.badEdges < 2 ∧ 2 ≤ (dA (timeAt .locked 1 (fun t => { t with badEdges := 2 }))).tim.badEdges ∧
      (dA (timeAt .locked 2 (fun t => { t with inUse := 2 }))).tim.inUse = 2 := by decide +kernel

/-- The word whose number follows 4, with the pins as source, and the same number with another. -/
theorem wit_AirTimeFollowsThePins_word :
    fld (0x100005 : Word).toNat 0 10 + 1024 * fld (0x100005 : Word).toNat 10 10 = 5 ∧
      fld (0x100005 : Word).toNat 20 2 = field (dA (timeAt .locked 1 id)) pTIM 0x058 2 ∧ fld (0x100005 : Word).toNat 22 10 = 0 ∧
      fld (5 : Word).toNat 20 2 ≠ field (dA (timeAt .locked 1 id)) pTIM 0x058 2 ∧ fld (5 : Word).toNat 0 10 = 5 ∧ fld (5 : Word).toNat 22 10 = 0 ∧
      (dA (timeAt .locked 1 id)).tim.word = some 4 ∧ 5 = (4 + 1) % 1048576 := by decide +kernel

/-- PTP messages, and die A with a master. -/
def ptpMsg (arrival : Nat) (two : Bool) : PtpMsg := ⟨0, 3, [1], two, 0, 1000, 0, BitVec.ofNat 64 arrival⟩
def announce (p : Nat) (q : Byte) : Announce := ⟨0, BitVec.ofNat 8 p, 0, 0, 0, 0, 0, 0, [q]⟩
def ptpState (f : Tim → Tim) (p2p : Nat) : State := hosted (theSession 1) (fun d => setField 0 pTIM 0x074 1 p2p { d with
  tim := f { d.tim with ptp := .unlocked, ns := 1005, master := some (announce 5 1) } })
def ptpTaken (f : Tim → Tim) (p2p : Nat) : Die := (ptpTake (dA (ptpState f p2p))).2

theorem wit_PtpMessagesMoveTheServo :
    (ptpTake (dA (spring id))).1 = false ∧ (ptpTake (dA (ptpState id 0))).1 = true ∧ fromMaster (ptpMsg 1005 true) (ptpTaken id 0) = true ∧
      intervalOk (ptpMsg 1005 true) = true ∧ (∀ v ∈ [(1 : Byte), 248], intervalOk { ptpMsg 1005 true with interval := v } = false) ∧
      (∀ v ∈ [(0 : Byte), 249], intervalOk { ptpMsg 1005 true with interval := v } = true) ∧
      (ptpTaken (fun t => { t with silent := true }) 0).tim.silent = true ∧
      (ptpMsg 1005 true).twoStep = true ∧ (ptpMsg 1005 false).twoStep = false ∧
      (ptpTaken (fun t => { t with syncSeq := some (3, 3000, 0) }) 0).tim.syncSeq = some ((ptpMsg 1005 false).seq.toNat, 3000, 0) ∧
      (ptpTaken id 0).tim.ptp = .unlocked ∧ 1000 < (2000 : Int).natAbs ∧ (5 : Int).natAbs ≤ lockNs (ptpTaken id 0) ∧
      (ptpTaken (fun t => { t with ptpGood := 15 }) 0).tim.ptpGood = 15 ∧ (ptpTaken id 0).tim.ptpGood < 15 ∧
      (ptpTaken (fun t => { t with ptp := .locked, ptpBad := 7 }) 0).tim.ptp = .locked ∧
      (ptpTaken (fun t => { t with ptp := .locked, ptpBad := 7 }) 0).tim.ptpBad = 7 ∧ 10 * lockNs (ptpTaken id 0) < (2000000 : Int).natAbs ∧
      (ptpTaken (fun t => { t with ptp := .holdover }) 0).tim.ptp = .holdover ∧ (ptpTaken (fun t => { t with ptp := .frozen }) 0).tim.ptp = .frozen ∧
      (announce 0 2).domain.toNat = field (ptpTaken id 0) pTIM 0x074 8 ∧ betterMaster (announce 0 2) (announce 5 1) = true ∧
      betterMaster (announce 9 3) (announce 5 1) = false ∧ (announce 5 1).port ≠ (announce 9 3).port ∧
      (ptpTaken id 0).tim.master = some (announce 5 1) ∧ (ptpTaken (fun t => { t with master := none }) 0).tim.master = none := by decide +kernel

/-- A request awaits its answer. -/
def asked (d : Die) : Die := { d with hst := { d.hst with reqT := some 1 } }

theorem wit_PtpMessagesMoveTheServo_delay :
    (ptpTake (asked (dA (ptpState (fun t => { t with reqSeq := 3 }) 0)))).2.hst.reqT = some 1 ∧ portFree (ptpTaken id 1) = true ∧
      (ptpMsg 1005 false).seq.toNat = (ptpTaken (fun t => { t with reqSeq := 3 }) 0).tim.reqSeq ∧
      field (ptpTaken id 0) pTIM 0x074 1 = 0 ∧ field (ptpTaken id 1) pTIM 0x074 1 = 1 ∧
      (ptpMsg 1005 false).domain.toNat = field (ptpTaken id 1) pTIM 0x074 8 ∧
      (∀ v ∈ [0, 100000], delayAway { (ptpTaken (fun t => { t with ptp := .locked }) 1).tim with
        delays := (v :: (ptpTaken (fun t => { t with ptp := .locked }) 1).tim.delays).take 8 } = 8 * v) ∧
      field (ptpTaken id 1) pTIM 0x078 0 < 100000 ∧
      (ptpTaken (fun t => { t with ptp := .frozen, delayGood := 15 }) 1).tim.delayGood = 15 := by decide +kernel

/-- Five triggers, four of them due. -/
def fiveTriggers (t : Tim) : Tim := { t with
  ptp := .locked, ns := 100
  trigs := [{ mode := 1, armed := true, target := 5 }, { mode := 1, armed := true, period := 5, target := 5 },
    { mode := 2, armed := true, target := 5 }, { mode := 2, armed := true, target := 5, period := 7 }, {}] }

theorem wit_NsCounterAndTriggers :
    ptpRuns (dA (ptpState id 0)) = true ∧ ptpRuns (dA (spring id)) = false ∧ (dA (spring id)).tim.ptp = .disabled ∧ (dA (spring id)).phase ≠ .frost ∧
      field (dA (timeAt .locked 1 fiveTriggers)) pTIM 0x090 0 < (dA (timeAt .locked 1 fiveTriggers)).tim.trigs.length ∧
      ((List.range 5).map (fun i => trigDue (dA (timeAt .locked 1 fiveTriggers)) (trigger (dA (timeAt .locked 1 fiveTriggers)) i))) =
        [true, true, true, true, false] ∧ (4 : BitVec 3).toNat = 4 := by decide +kernel


/-! ## Warden, Peloton, pages -/

/-- A zone's 48 bytes: one output, one input, a response of 100 ms. -/
def zoneOn (o : Nat) : Bytes := [1, BitVec.ofNat 8 o, 1, 0, 0, 1, 1, 1] ++ leBytes 2 100 ++ leBytes 2 50 ++ zeros 8 ++ leBytes 4 100 ++ leBytes 2 1 ++
  zeros 16 ++ leBytes 2 5 ++ zeros 4

/-- A zone that is not in use: its fields are in range all the same. -/
def zoneOff : Bytes := 0 :: (zoneOn 0).drop 1

/-- Profile 3, of two zones, with EDM on outputs 0 and 1. -/
def profile3 : Bytes := leBytes 4 0x4E445257 ++ leBytes 2 0x100 ++ [3, 1] ++ (List.replicate 8 (leBytes 2 10)).flatten ++ zeros 2 ++ leBytes 2 20 ++
  leBytes 2 100 ++ [3, 1] ++ leBytes 4 1 ++ leBytes 4 1 ++ leBytes 2 1 ++ leBytes 2 1 ++ leBytes 4 0 ++ zeros 16 ++ zoneOn 1 ++ zoneOn 2 ++ zoneOff ++ zoneOff

/-- The Warden channel of die A, ACTIVE under that profile, with a zone in each of four states. -/
def wardenOf (w : Wdn) : Wdn := { w with
  state := .active, profile := profile3, cmd := 1, closed := 0xFF, edm := 0xF, readback := 1, xlinkUp := true
  zones := [{ state := .run }, { state := .brake }, {}, { state := .freewheel }]
  watches := [(0, { channel := 4, zone := 0, code := 1 }), (1, { channel := 5, zone := 0, code := 1, isOpen := false })] }
def warden (f : Wdn → Wdn) : State := spring (fun d => { d with wdn := f (wardenOf d.wdn) })

theorem wit_WardenCycleIsSafe :
    wdnRuns (dA State.reset) = false ∧ wdnRuns (dA (warden id)) = true ∧ (dA (warden id)).wdn.state = .active ∧
      (zone (dA (warden id)).wdn 0).state = .run := by decide +kernel

theorem wit_WardenCycleCompletes :
    wdnRuns (dA State.reset) = false ∧ wdnRuns (dA (warden id)) = true ∧
      wdnRuns (dA (warden (fun w => { w with state := .start }))) = true := by decide +kernel

theorem wit_WardenFaultsAndStops :
    (dA (warden (fun w => { w with testing := some 1 }))).wdn.testing = some 1 ∧ (dA (warden id)).wdn.testing = none ∧
      zoneOfOutput (dA (warden id)).wdn 1 = some 1 ∧ tst (dA (warden id)).wdn.cmd 0 = true ∧ tst (dA (warden id)).wdn.cmd 1 = false ∧
      tst (dA (warden (fun w => { w with edmWait := 2 }))).wdn.edmWait 1 = true ∧ tst (dA (warden id)).wdn.edmWait 1 = false ∧
      tst (dA (warden (fun w => { w with discRun := 1 }))).wdn.discRun 0 = true ∧ tst (dA (warden id)).wdn.discRun 0 = false ∧
      tst (zByte (dA (warden id)).wdn 0 2) 0 = true ∧ wdnRuns (dA (warden id)) = true ∧ wdnRuns (dA State.reset) = false ∧
      (dA (warden (fun w => { w with frames := 920 }))).wdn.frames = 920 ∧ (dA (warden (fun w => { w with frames := 1080 }))).wdn.frames = 1080 ∧
      (dA (warden (fun w => { w with frames := 919 }))).wdn.frames < 920 ∧ 1080 < (dA (warden (fun w => { w with frames := 1081 }))).wdn.frames ∧
      (dA (warden id)).wdn.state = .active ∧ (dA (warden (fun w => { w with state := .start }))).wdn.state ≠ .active ∧
      (0 : BitVec 16).toNat = (dA (warden id)).wdn.word ∧ (5 : BitVec 16).toNat ≠ (dA (warden id)).wdn.word ∧
      tst (1 : BitVec 4).toNat 0 = true ∧ (zone (dA (warden id)).wdn 3).state = .freewheel ∧ (zone (dA (warden id)).wdn 1).state ≠ .unused := by
  decide +kernel

/-- A crosslink frame with a switch word. -/
def frameOf (word : Nat) : XFrame := { cycle := 0, word := word, contacts := 0, cmd := 0, readback := 0, edm := 0, counts := 0, zSeen := false, speed := 0, zones := [] }

/-- Both channels, with the reset of the second waiting since an uptime, and die A at 1 ms. -/
def bothWarden (t : Option Nat) (f : Wdn → Wdn) : State :=
  (spring (fun d => { d with wdn := f (wardenOf d.wdn) })).setDie .b
    (let d := State.reset.die .b
     { d with phase := .spring, tim := { d.tim with up := 500001000 }, wdn := { wardenOf d.wdn with resetAt := t } })
def kickstand (w : Wdn) : Wdn := { w with cmd := 0, rx := some (frameOf w.word), zones := [{ state := .kickstand }, { state := .brake }, {}, {}] }

theorem wit_WardenResetStartUpAndWatchdogs :
    wdnRuns (dA (bothWarden none id)) = true ∧ (dA (bothWarden none id)).which.other = .b ∧ ((bothWarden none id).die .b).wdn.resetAt = none ∧
      (∀ t ∈ [999, 1000], ((bothWarden (some t) id).die .b).wdn.resetAt = some t) ∧
      500000000 < ((bothWarden (some 999) id).die .b).tim.up - 999 ∧ ((bothWarden (some 1000) id).die .b).tim.up - 1000 ≤ 500000000 ∧
      (zone (dA (bothWarden (some 1000) kickstand)).wdn 1).state = .brake ∧ (zone (dA (bothWarden (some 1000) kickstand)).wdn 0).state = .kickstand ∧
      causesGone (dA (bothWarden (some 1000) kickstand)).wdn 0 = true ∧
      causesGone (dA (bothWarden (some 1000) (fun w => { kickstand w with cmd := 1 }))).wdn 0 = false ∧
      watchesOf (dA (warden id)).wdn 0 ≠ [] ∧ (zone (dA (warden id)).wdn 0).state = .run ∧
      symIndex (dA (warden id)) = (dA (warden id)).wdn.sym ∧ symIndex (dA (warden id)) ≠ (dA (warden (fun w => { w with sym := 7 }))).wdn.sym ∧
      mget (dA (warden id)).wdn.watches 0 = some { channel := 4, zone := 0, code := 1 } ∧
      (mget (dA (warden id)).wdn.watches 1).map (fun q => q.isOpen) = some false ∧
      (zone (dA (warden id)).wdn 3).state = .freewheel ∧ (zone (dA (warden id)).wdn 0).state ≠ .freewheel ∧ wdnRuns (dA State.reset) = false := by
  decide +kernel

/-- The channel in start-up, with switch word 0xFC03 and the profile in the table on both channels. -/
def starting (f : Wdn → Wdn) : State :=
  let table := zeros 256 ++ profile3
  (warden (fun w => f { w with
    state := .start, cmd := 0, readback := 0, table := table, word := 0xFC03, rx := some (frameOf 0xFC03) })).setDie .b
    (let d := State.reset.die .b
     { d with wdn := { d.wdn with table := table } })
def startConfig (f : Wdn → Wdn) (word : Nat) : Option Bytes := configOf (dA (starting f)) word ((starting f).die .b).wdn.table

theorem wit_WardenResetStartUpAndWatchdogs_start :
    (dA (starting id)).wdn.state = .start ∧ wdnRuns (dA (starting id)) = true ∧ startConfig id 0xFC03 = some profile3 ∧
      ((dA (starting id)).wdn.rx.map (fun f => f.word)).getD (65535 - (dA (starting id)).wdn.word) = 0xFC03 ∧
      startConfig (fun w => { w with rx := none }) 0x03FC = none ∧ startConfig (fun w => { w with table := zeros 512 }) 0xFC03 = none ∧
      (dA (starting id)).wdn.readback = 0 ∧ (dA (starting (fun w => { w with readback := 1 }))).wdn.readback ≠ 0 ∧
      zoneUsed profile3 0 = true ∧ zoneUsed profile3 2 = false ∧
      edmClosed { (dA (starting id)).wdn with profile := profile3 } 0 = true ∧
      edmClosed { (dA (starting id)).wdn with profile := profile3, edm := 0 } 0 = false ∧
      encUsed (dA (warden id)).wdn = true ∧ encUsed (dA State.reset).wdn = false ∧ (dA (warden id)).wdn.encA = false ∧ (dA (warden id)).wdn.encB = false := by
  decide +kernel

/-- A message of a node, and die A (node 1 of three) with port 0 up beside node 0, and port 1 down. -/
def msgOf (src dst : Nat) (body : Bytes) : PelMsg := ⟨16, BitVec.ofNat 16 src, BitVec.ofNat 16 dst, 0, 0, 1, fitTo 160 body, zeros 16, true⟩
def nodeDie (f : Pel → Pel) (g : Die → Die) (d : Die) : Die :=
  g (setField 0 (pelPage 0) 0x040 0 1 (setField 0 (pelPage 1) 0x040 0 1 (setField 3 pPEL 0x098 0 1 (setField 3 pPEL 0x09C 0 3
    { d with
      regs := { d.regs with enabled := [pelPage 0, pelPage 1] }, key := { d.key with device := [1] }, tim := { d.tim with up := 1000 }
      pel := f { d.pel with
        ports := [{ up := true, nbr := some ([2], 1), latency := 7, echo := some (9, 5) }, {}, {}], epoch := 1, ids := [[2], [1], [3]]
        topo := [⟨[1], 1, [([2], 0)]⟩, ⟨[2], 1, [([1], 0)]⟩], version := 1 } }))))
def node (f : Pel → Pel) (g : Die → Die) : State := spring (nodeDie f g)
def nodeUp (f : Pel → Pel) (p : Nat) : Die := count (pelPage p) 0x04C (dA (node f id))

theorem wit_PelotonPortsAndFormation :
    PelotonMessage .a 0 (msgOf 0 1 []) 1 (.disc .a 0 (msgOf 0 1 [])) ∧ PelotonMessage .a 0 (msgOf 0 1 []) 11 (.chainAlive .a 0 (msgOf 0 1 [])) ∧
      (pelPort (dA (node id id)) 1).up = false ∧ pelServes (dA (node id id)) 1 = true ∧ (pelPort (dA (node id id)) 0).up = true ∧
      pelServes (dA (node id id)) 0 = true ∧ pelServes (dA (node id id)) 2 = false ∧ pelWhole 1 { msgOf 0 1 [] with resv := 1 } = false ∧
      (dA (node id id)).pel.ports.length = 3 ∧ (dA (node (fun p => { p with forming := true }) id)).pel.forming = true ∧
      (dA (node id id)).pel.forming = false ∧ 128 < (List.replicate 129 (⟨[1], 1, []⟩ : TopoNode)).length :=
  ⟨by simp [PelotonMessage], by simp [PelotonMessage], by decide +kernel⟩

theorem wit_PelotonPortsAndFormation_messages :
    (∀ e ∈ [(1, msgOf 0 1 (List.replicate 33 1)), (3, msgOf 0 1 []), (4, msgOf 0 1 [9]), (4, msgOf 0 1 [8]), (2, msgOf 0 0xFFFF (List.replicate 32 3 ++ [3]))],
        Delivered e.1 0 e.2 (dA (node id id)) (nodeUp id 0)) ∧
      (pelPort (dA (node id id)) 0).echo = some (9, 5) ∧ u32At (msgOf 0 1 [9]).body 0 = 9 ∧ u32At (msgOf 0 1 [8]).body 0 ≠ 9 ∧
      (msgOf 0 1 []).epoch ≠ 0 ∧ (readTopo (msgOf 0 1 (List.replicate 32 3 ++ [3])).body).digest ≠ (dA (node id id)).key.device ∧
      (∀ v ∈ [2, 3], ((dA (node (fun p => { p with topo := [⟨List.replicate 32 3, v, []⟩] }) id)).pel.topo.find?
        (fun o => o.digest == (readTopo (msgOf 0 1 (List.replicate 32 3 ++ [3])).body).digest)).map (fun o => o.version) = some v) := by
  refine ⟨?_, by decide +kernel⟩
  intro e he
  simp only [Delivered]
  revert e
  decide +kernel

/-- Gate 3 of that die, and the same die as node 0, its root. -/
def gate3 (q : Gate) (p : Pel) : Pel := { p with gates := p.gates.set 3 q }
def asRoot (d : Die) : Die := { d with
  key := { d.key with device := [2] }, pel := { d.pel with ports := [{ up := true, nbr := some ([1], 1), latency := 7 }, {}, {}] } }

theorem wit_GatesArriveAndRelease :
    (dA (node id id)).pel.gates.length = 16 ∧ ownId (dA (node id id)) = some 1 ∧ (gateMembers (dA (node id id)) 3).head? = some 0 ∧
      gateOn (dA (node id id)) 3 = true ∧ gateOn (dA (node id id)) 4 = false ∧ 1 ∈ gateMembers (dA (node id id)) 3 ∧
      (pelGate (dA (node id id)) 3).state = 0 ∧ (pelGate (dA (node (gate3 { state := 1 }) id)) 3).own = false ∧
      (pelGate (dA (node (gate3 { state := 1, endsAt := some 2000 }) id)) 3).endsAt = some 2000 ∧
      (pelGate (dA (node (gate3 { state := 1, round := 1 }) id)) 3).endsAt = none ∧
      ownId (dA (node (gate3 { state := 1, round := 1 }) asRoot)) = some 0 ∧
      (gateMembers (dA (node (gate3 { state := 1, round := 1 }) asRoot)) 3).head? = some 0 ∧
      (pelGate (dA (node (gate3 { state := 1, round := 1 }) asRoot)) 3).state = 1 := by decide +kernel

theorem wit_GatesArriveAndRelease_messages :
    Delivered 5 0 (msgOf 1 0 [3, 1]) (dA (node (gate3 { state := 1, round := 1 }) asRoot)) (count (pelPage 0) 0x04C (dA (node (gate3 { state := 1, round := 1 }) asRoot))) ∧
      (∀ e ∈ [(6, msgOf 0 1 [3, 1, 0, 0, 100, 0, 0, 0, 3]), (7, msgOf 0 1 [3, 1]), (7, msgOf 0 1 [4])], Delivered e.1 0 e.2 (dA (node id id)) (nodeUp id 0)) ∧
      byteAt (msgOf 1 0 [3, 1]).body 0 = 3 ∧ byteAt (msgOf 1 0 [3, 1]).body 1 = 1 ∧ (msgOf 1 0 []).src.toNat ∈ gateMembers (dA (node id asRoot)) 3 ∧
      (∀ k ∈ gateMembers (dA (node id asRoot)) 3, k ≠ 0 → routeTo (dA (node id asRoot)) k ≠ none) ∧
      (∀ k ∈ gateMembers (dA (node (gate3 { state := 1, round := 1, arrived := [0] }) asRoot)) 3, k = 1 ∨
        k ∈ (pelGate (dA (node (gate3 { state := 1, round := 1, arrived := [0] }) asRoot)) 3).arrived) ∧
      0 ∈ gateMembers (dA (node id asRoot)) 3 ∧ 1 ∈ maskIds (slice (msgOf 0 1 ([3, 1, 0, 0, 100, 0, 0, 0, 3])).body 8 16) ∧
      gateOn (dA (node id id)) (byteAt (msgOf 0 1 [4]).body 0) = false := by
  refine ⟨?_, ?_, by decide +kernel⟩
  · simp only [Delivered]
    decide +kernel
  · intro e he
    simp only [Delivered]
    revert e
    decide +kernel


/-- Buffer bytes of a chain entry: channel 4, rank and ranks, and its two peers. -/
def chainEntry (rank ranks : Nat) (p n : Bytes) : Bytes := fitTo 160 ([4, 0, BitVec.ofNat 8 rank, BitVec.ofNat 8 ranks] ++ zeros 4 ++ fitTo 32 p ++ fitTo 32 n)

/-- A loaded entry of channel 4 with standby peers, and its two links. -/
def chainOf (p n : Option ChainLink) : Chain := { bytes := [4, 0] ++ zeros 70 ++ [1] ++ zeros 31 ++ [2] ++ zeros 55, prev := p, next := n }

/-- That die with entry 3 loaded, channel 4 with a host's descriptor, and the buffer filled. -/
def chained (b : Bytes) (c : Chain) (x : Chan) : State :=
  node (fun p => { p with chains := [(3, c)] }) (fun d => setChainBuf b { d with chn := { d.chn with tab := [(4, x)] } })
def hostChan : Chan := { state := .opened, host := { kind := 1 } }
def bufOf (s : State) : Bytes := patch (chainBuf (dA s)) 4 [BitVec.ofNat 8 (byteAt (chainBuf (dA s)) 4 % 2)]

theorem wit_ChainsOfAShardedModel_entries :
    (∀ v ∈ [(0, 2, ([] : Bytes), ([9] : Bytes)), (1, 2, [9], []), (1, 3, [9], [9])],
      let b := bufOf (chained (chainEntry v.1 v.2.1 v.2.2.1 v.2.2.2) (chainOf none none) hostChan)
      byteAt b 2 < byteAt b 3 ∧ byteAt b 3 ≤ 64 ∧ (byteAt b 2 = 0 ↔ peerAt b 8 = none) ∧ (byteAt b 2 + 1 = byteAt b 3 ↔ peerAt b 40 = none) ∧
        u16At b 0 % 32768 = 4) ∧
      (let b := bufOf (chained (chainEntry 2 2 [9] [9]) (chainOf none none) hostChan); ¬ byteAt b 2 < byteAt b 3 ∧ u16At b 0 % 32768 = 4) ∧
      chanLive (chan (dA (chained (chainEntry 0 2 [] [9]) (chainOf none none) hostChan)) 4) = true ∧
      (chan (dA (chained (chainEntry 0 2 [] [9]) (chainOf none none) hostChan)) 4).host.kind = 1 ∧
      chanLive (chan (dA (chained (chainEntry 0 2 [] [9]) (chainOf none none) {})) 4) = false ∧
      mget (dA (chained [] (chainOf none none) {})).pel.chains 2 = none ∧
      mget (dA (chained [] (chainOf none none) {})).pel.chains 3 = some (chainOf none none) ∧
      standby true (chainOf none none) ≠ none ∧ standby true { chainOf none none with bytes := zeros 160 } = none := by decide +kernel

/-- A link to the die of the neutral point, before it opens: CHAIN_OPEN sent, and the peer's taken. -/
def fromOne : Bytes := zeros 56 ++ keyOne ++ zeros 47
def linkTo (peer : Bytes) : ChainLink := { peer := peer, sent := [5] }
def chainedTo (peer : Bytes) (l : ChainLink) : State :=
  node (fun p => { p with ids := [peer, [1], [3]], chains := [(3, chainOf none (some l))] }) id
def chainedUp (peer : Bytes) (l : ChainLink) : Die := count (pelPage 0) 0x04C (dA (chainedTo peer l))

theorem wit_ChainsOfAShardedModel_open :
    Delivered 8 0 (msgOf 0 1 [1]) (dA (chainedTo [2] (linkTo [2]))) (chainedUp [2] (linkTo [2])) ∧
      Delivered 9 0 (msgOf 0 1 [1]) (dA (chainedTo [2] (linkTo [2]))) (chainedUp [2] (linkTo [2])) ∧
      (dA (chainedTo [2] (linkTo [2]))).pel.ids[(msgOf 0 1 []).src.toNat]? = some [2] ∧
      linksTo (dA (chainedTo [2] (linkTo [3]))) [2] = [] ∧
      linksTo (dA (chainedTo [2] { linkTo [2] with got := (msgOf 0 1 [1]).body })) [2] = [(3, true, { linkTo [2] with got := (msgOf 0 1 [1]).body })] ∧
      (linkTo [2]).got = [] ∧ (linkTo [2]).sent ≠ [] ∧ (msgOf 0 1 [1]).body ≠ [] ∧
      (ownId (dA (chainedTo [2] (linkTo [2])))).getD 0 = 1 ∧ (idOf (dA (chainedTo [2] (linkTo [2]))) [2]).getD 0 = 0 := by
  refine ⟨?_, ?_, by decide +kernel⟩ <;> simp only [Delivered] <;> decide +kernel

/-- The neutral point's signature is right for a link to its die, and no signature is right for another. -/
theorem wit_ChainsOfAShardedModel_auth :
    (let l := { linkTo (h32 keyOne) with got := fromOne, t := [1, 2, 3] }
     l.isOpen = false ∧ l.t ≠ [] ∧ h32 (slice l.got 56 57) = h32 keyOne ∧
      edVerify (slice l.got 56 57) (ascii "HW2240 peloton") l.t ((msgOf 0 1 sigOne).body.take 114) = true) ∧
      h32 (slice fromOne 56 57) ≠ [2] := by
  have h1 : slice fromOne 56 57 = keyOne := by decide +kernel
  have h2 : (msgOf 0 1 sigOne).body.take 114 = sigOne := by decide +kernel
  refine ⟨⟨rfl, by simp, by rw [h1], ?_⟩, ?_⟩
  · rw [h1, h2]; exact keyOne_signs _ _
  · rw [h1]; decide +kernel

/-- An open link to the previous node, and a message under its key. -/
def openLink : ChainLink := { peer := [2], isOpen := true, key := [7], last := 5 }
def chainedFrom (l : ChainLink) : State := node (fun p => { p with chains := [(3, chainOf (some l) none)] }) id
def keyed (k : Nat) (b : Bytes) : PelMsg := { msgOf 0 1 b with tag := pelTag [7] (pelHead k (msgOf 0 1 b)) }

/-- The tag of such a message is right under the link's key, so it arrives. -/
theorem keyed_link (k : Nat) (b : Bytes) : tagLink k (keyed k b) (dA (chainedFrom openLink)) = some (3, false, openLink) := by
  have h1 : (dA (chainedFrom openLink)).pel.ids[(keyed k b).src.toNat]? = some [2] := by rfl
  have h2 : linksTo (dA (chainedFrom openLink)) [2] = [(3, false, openLink)] := by decide +kernel
  simp only [tagLink, h1, h2, List.find?_cons]
  have h3 : (openLink.isOpen && pelTag openLink.key (pelHead k (keyed k b)) == (keyed k b).tag) = true := by
    simp [keyed, openLink, pelHead]
  rw [h3]

theorem wit_ChainsOfAShardedModel_tags :
    (∀ k ∈ [10, 11], Delivered k 0 (msgOf 0 1 [4]) (dA (chainedFrom { openLink with isOpen := false }))
        (count (pelPage 0) 0x04C (dA (chainedFrom { openLink with isOpen := false }))) ∧
      tagLink k (msgOf 0 1 [4]) (dA (chainedFrom { openLink with isOpen := false })) = none) ∧
      (∀ k ∈ [10, 11], Delivered k 0 (keyed k [4]) (dA (chainedFrom openLink)) (count (pelPage 0) 0x04C (dA (chainedFrom openLink)))) ∧
      chainChan (chainOf (some openLink) none) = u16At (keyed 10 [4]).body 0 ∧
      (dA (chainedFrom openLink)).pel.chains = [(3, chainOf (some openLink) none)] := by
  refine ⟨?_, ?_, by decide +kernel, by decide +kernel⟩
  · intro k hk
    simp only [Delivered]
    revert k
    decide +kernel
  · intro k hk
    simp only [Delivered]
    revert k
    decide +kernel

/-- A page that shows itself, and the two kinds that do not; a pending event. -/
theorem wit_PagesIdentifyThemselves :
    pageDark (dA State.reset) 0x000 = false ∧ pageDark (dA State.reset) 0x03F = true ∧
      (∀ e ∈ [(⟨0x001, 5, false⟩ : ErrEvent), ⟨0x03F, 0, false⟩],
        e ∈ (dA (spring (fun d => { d with fcu := { d.fcu with pend := [e] } }))).fcu.pend ∧
        tst (errPage (dA (spring (fun d => { d with fcu := { d.fcu with pend := [e] } }))) e.page).mask e.bit = false ∧ e.page < 64) := by
  decide +kernel

/-- The first node of a chain, with an open link to the next, sends CHAIN_ALIVE. -/
theorem wit_ChainsOfAShardedModel_alive :
    (let z := dA (node (fun p => { p with chains := [(3, chainOf none (some openLink))] }) id)
     mget z.pel.chains 3 = some (chainOf none (some openLink)) ∧ openLink.isOpen = true ∧ idOf z openLink.peer = some 0 ∧
     (routeTo z 0).isSome = true) ∧
      mget (dA (node id id)).pel.chains 3 = none := by decide +kernel


/-! ## Well-formed commands -/

def badFlit : Flit := ⟨zeros 527, 0, 0⟩
def badRec : RecIn := { layerRec with vc := 3 }
def oddRec : RecIn := { layerRec with payload := [1] }
def badWord : MemWord := { sramWord with bank := 1 }
def badFrame : PFrame := { plainFrame [] with tag := zeros 31 }
def badSpoke : SpokeMsg := ⟨0, zeros 95⟩
def badPtp : PtpMsg := { ptpMsg 0 true with source := zeros 9 }
def badAnnounce : Announce := { announce 0 0 with port := zeros 9 }
def badPel : PelMsg := { msgOf 0 1 [] with body := zeros 159 }
def goodFlit : Flit := ⟨zeros 528, 0, 0⟩
def goodFrame : PFrame := { plainFrame [] with tag := zeros 32 }
def goodSpoke : SpokeMsg := ⟨0, zeros 96⟩
def goodPtp : PtpMsg := { ptpMsg 0 true with source := zeros 10 }
def goodAnnounce : Announce := { announce 0 0 with port := zeros 10 }
def allUnits : UnitTable := ⟨63, zeros 20, zeros 26, zeros 26, zeros 26, zeros 512, zeros 8, zeros 2, [], [], [], [], []⟩
def goodBoot : BootReads := { badPuf with units := allUnits }
def noOp : OpDesc := ⟨0, 0, 0, 0, 0, 0, 0, 0, 0, 0, 0, 0, 0, 0⟩

/-- Flits of another size, and records off the three virtual channels. -/
theorem test_wf_refuses_records : ([
    .dataFlit .a badFlit, .idleFlit .a badFlit, .hello .a badFlit, .layerOut .a badRec, .layerIn .a badRec, .attnOut .a badRec, .tokenEnd .a badRec,
    .batchEnd .a badRec, .output .a badRec, .radioFft .a badRec, .radioLdpc .a badRec, .radioTb .a badRec, .shardDigest .a badRec,
    .weightChunk .a badRec, .ratchetBump .a badRec, .heartbeat .a badRec] : List Instr).all (fun i => !i.wf) = true := by decide +kernel

/-- A word of SRAM that names a bank, and a unit map without its units. -/
theorem test_wf_refuses_memory : ([
    .resetRelease .a badPuf, .scrubRead .a badWord .other .clean false, .rowRewrite .a badWord, .rowSpareDone .a badWord false] : List Instr).all (fun i => !i.wf) = true := by decide +kernel

/-- Frames, Spoke messages and PTP messages of another size. -/
theorem test_wf_refuses_frames : ([
    .admitModel .a badFrame, .spokeAdmit .a badSpoke, .withdraw .a badFrame, .turn .a badFrame, .spokeTurn .a badSpoke, .declare .a badSpoke,
    .spokePhase .a badSpoke, .spokeSlot .a badSpoke 0, .spokePair .a badSpoke, .spokeEcho .a badSpoke, .ptpSync .a badPtp, .ptpFollowUp .a badPtp,
    .ptpAnnounce .a badAnnounce, .ptpDelayResp .a badPtp, .ptpPdelayReq .a badPtp, .ptpPdelayResp .a badPtp, .pannierOpen .a badFrame,
    .confirm .a badFrame, .close .a badFrame, .keepalive .a badFrame, .read .a badFrame, .write .a badFrame, .bulkPut .a badFrame,
    .bulkGet .a badFrame, .sealAck .a badFrame, .flashCommit .a badFrame false, .claim .a badFrame, .release .a badFrame, .unlock .a badFrame,
    .lock .a badFrame, .subscribe .a badFrame] : List Instr).all (fun i => !i.wf) = true := by decide +kernel

/-- Peloton messages without their body or on a port that is not there. -/
theorem test_wf_refuses_peloton : ([
    .disc .a 2 badPel, .disc .a 3 (msgOf 0 1 []), .pelotonEcho .a 2 badPel, .pelotonEcho .a 3 (msgOf 0 1 []), .echoReply .a 2 badPel,
    .echoReply .a 3 (msgOf 0 1 []), .topo .a 2 badPel, .topo .a 3 (msgOf 0 1 []), .gateArrive .a 2 badPel, .gateArrive .a 3 (msgOf 0 1 []),
    .gateRelease .a 2 badPel, .gateRelease .a 3 (msgOf 0 1 []), .gateAbort .a 2 badPel, .gateAbort .a 3 (msgOf 0 1 []), .chainOpen .a 2 badPel,
    .chainOpen .a 3 (msgOf 0 1 []), .chainAuth .a 2 badPel, .chainAuth .a 3 (msgOf 0 1 []), .boundary .a 2 badPel, .boundary .a 3 (msgOf 0 1 []),
    .chainAlive .a 2 badPel, .chainAlive .a 3 (msgOf 0 1 [])] : List Instr).all (fun i => !i.wf) = true := by decide +kernel

/-- Engine instructions of a group that is not there. -/
theorem test_wf_refuses_engines : ([
    .rchk .a 6 noOp [], .bchk .a 6 noOp [], .fftc .a 6 noOp [], .ldpc .a 6 noOp [], .crc .a 6 noOp [], .dq .a 6 noOp [], .qnt .a 6 noOp [],
    .addv .a 6 noOp [], .norm .a 6 noOp [], .normf .a 6 noOp [], .act .a 6 noOp [], .actf .a 6 noOp [], .rope .a 6 noOp [], .band .a 6 noOp [],
    .sel .a 6 noOp [], .ocmp .a 6 noOp [], .emb .a 6 noOp [], .kvapp .a 6 noOp [], .attn .a 6 noOp [], .acmp .a 6 noOp [], .dig .a 6 noOp [],
    .dcmp .a 6 noOp [], .shdc .a 6 noOp []] : List Instr).all (fun i => !i.wf) = true := by decide +kernel

/-- Groups, ports, tiles, addresses, stages and causes out of range. -/
theorem test_wf_refuses_numbers : ([
    .registerWrite .a 2 0, .adaptTimeout .a 3, .stagingRoomFree .a 6, .nop .a ⟨6, []⟩, .movi .a ⟨6, []⟩ 0 0, .add .a ⟨6, []⟩ 0 0 0, .addi .a ⟨6, []⟩ 0 0 0, .mul .a ⟨6, []⟩ 0 0 0,
    .shl .a ⟨6, []⟩ 0 0 0, .ldc .a ⟨6, []⟩ 0 0, .ldb .a ⟨6, []⟩ 0 0, .loop .a ⟨6, []⟩ 0 0, .jmp .a ⟨6, []⟩ 0, .wrec .a ⟨6, []⟩ 0, .next .a ⟨6, []⟩ 0, .sync .a ⟨6, []⟩ 0, .mark .a ⟨6, []⟩, .done .a ⟨6, []⟩,
    .spareSubstitutionDone .a 8 20 false, .trikeResync .a 6, .trikeResyncDone .a 6, .vpCmdInject .a 6, .vpCmdRetire .a 6, .dbgCtrlHalt .a 6,
    .resCmdRetire .a 20, .resCmdSelfTest .a 20, .bndCmdRetire .a 26, .bndCmdSelfTest .a 26, .nleCmdRetire .a 26, .nleCmdSelfTest .a 26,
    .cweCmdRetire .a 26, .cweCmdSelfTest .a 26, .pelLinkChange .a 3 false, .watchdogExpiry .a 0 0, .watchdogExpiry .a 0 5, .discTx .a 3,
    .thawSequenceComplete .a false 0, .thawSequenceComplete .a false 10] : List Instr).all (fun i => !i.wf) = true := by decide +kernel

/-- A payload that fills no whole unit, a part of a unit table, and an unknown cause. -/
theorem test_wf_refuses_parts : oddRec.wf = false ∧ (Instr.nop .a ⟨0, [.odd 6 0]⟩).wf = false ∧ (Instr.commitPoint .a ⟨0, [.odd 6 0]⟩).wf = false ∧
    (Instr.verdictTime .a ⟨0, [.odd 6 0]⟩).wf = false ∧ (Instr.dbgCtrlStep ⟨.a, [.odd 6 0]⟩).wf = false ∧
    (Instr.selftest .a ⟨0, [.odd 6 0]⟩ true 0).wf = false ∧ UnitTable.wf { allUnits with shk := zeros 7 } = false ∧
    BootReads.wf { goodBoot with testFail := 10 } = false ∧ PFrame.wf { goodFrame with tag := [] } = false ∧
    PelMsg.wf { msgOf 0 1 [] with tag := [] } = false ∧ MemWord.wf { sramWord with pc := true } = false ∧
    MemWord.wf { sramWord with chan := 1 } = false := by decide +kernel

/-- One well-formed command of each shape. -/
theorem test_wf_accepts : ([
    .resetRelease .a goodBoot, .registerWrite .a 4 0, .scrubRead .a sramWord .other .clean false, .dataFlit .a goodFlit, .adaptTimeout .a 2,
    .layerOut .a layerRec, .stagingRoomFree .a 5, .admitModel .a goodFrame, .spokeAdmit .a goodSpoke, .rchk .a 5 noOp [],
    .spareSubstitutionDone .a 8 19 false, .resCmdRetire .a 19, .cweCmdRetire .a 25, .pelLinkChange .a 2 true, .ptpSync .a goodPtp,
    .ptpAnnounce .a goodAnnounce, .watchdogExpiry .a 0 4, .disc .a 2 (msgOf 0 1 []), .thawSequenceComplete .a false 9] : List Instr).all
    Instr.wf = true := by decide +kernel


/-! ## Effects, with results taken from the spec's examples and rules -/

/-- Die A after a command. -/
def after (c : Instr) (s : State) : Option Die := match Machine.exec c s with | .next t => some (dA t) | _ => none

/-- R57: hcheck over the ASCII string "123456789" is 0x29B1. -/
theorem test_hcheck_of_the_digits : crc16 (ascii "123456789") = 0x29B1 := by decide +kernel

/-- The worked example of chapter 05: the projection, the field values, an honest output and one that is off by one unit. -/
theorem test_residue_worked_example :
    project [5, 7] 3 [[3, -2, 1].map phiInt, [-1, 4, 2].map phiInt] = [8, 18, 19] ∧ phiInt (-13) = 0x1FFFFFFFFFFFFFF2 ∧
      pow2mod (-3) = 0x0400000000000000 ∧ phi ⟨64, -6⟩ = 1 ∧
      residueSides [5, 7] [8, 18, 19] [⟨23, -3⟩, ⟨-13, -3⟩] [⟨5, -3⟩, ⟨-3, -3⟩, ⟨2, -3⟩] = (3, 3) ∧
      residueSides [5, 7] [8, 18, 19] [⟨23, -3⟩, ⟨-12, -3⟩] [⟨5, -3⟩, ⟨-3, -3⟩, ⟨2, -3⟩] = (0x1C00000000000003, 3) := by decide +kernel

/-- R258: control registers are 64 bits wide, so the sum wraps; a source may be the destination. -/
theorem test_addi_wraps : (after (.addi .a ⟨0, []⟩ 1 2 1) (coreState (coreWord 0x03 1 2 0 1) { g := [(2, 2 ^ 64 - 1)] } {})).map (fun d => Machine.reg d 0 1) = some 0 := by
  decide +kernel
theorem test_mul_onto_its_source : (after (.mul .a ⟨0, []⟩ 2 2 3) (coreState (coreWord 0x04 2 2 3 0) twoRegs {})).map (fun d => Machine.reg d 0 2) = some 63 := by decide +kernel
theorem test_g0_reads_zero : (after (.movi .a ⟨0, []⟩ 0 5) (coreState (coreWord 0x01 0 0 0 5) {} {})).map (fun d => Machine.reg d 0 0) = some 0 := by decide +kernel

/-- R258: the word at the program counter, written out from the encoding, is the instruction that issues; another does not. -/
theorem test_the_word_at_pc_issues :
    coreWord 0x04 2 2 3 0 = 0x0000000003020204 ∧ coreWord 0x01 5 0 0 0xFFFFFFFF = 0xFFFFFFFF00000501 ∧
      (after (.mul .a ⟨0, []⟩ 2 3 3) (coreState 0x03020204 twoRegs {})).map (fun d => Machine.reg d 0 2) = some 7 := by decide +kernel

/-- R483: a pulse of 10 µs resets, and one of 999 ns is ignored. -/
theorem test_reset_pulse_resets : (after (.resetNPulse 10000) (spring id)).map (fun d => d.phase) = some .frost := by decide +kernel
theorem test_reset_pulse_ignored : (after (.resetNPulse 999) (spring id)).map (fun d => d.phase) = some .spring := by decide +kernel

/-- A host stop of zone 0 puts the moving zone into BRAKE, and leaves the zone in FREEWHEEL as it is. -/
theorem test_stop_brakes_its_zone :
    (after (.wdnCmdStop .a 1) (warden id)).map (fun d => [(zone d.wdn 0).state, (zone d.wdn 3).state]) = some [.brake, .freewheel] := by decide +kernel

/-- A failed test pulse on output 1 puts zone 1, which drives it, into KICKSTAND. -/
theorem test_failed_pulse_kickstands_its_zone :
    (after (.darkTestPulseEnd .a 1 false) (warden (fun w => { w with testing := some 1 }))).map
      (fun d => [(zone d.wdn 0).state, (zone d.wdn 1).state]) = some [.run, .kickstand] := by decide +kernel

/-- An owner is written to a ratchet that nothing names, and not to one that is named, which the device owns (R296). -/
theorem test_ratchet_owner :
    (after (.ratCfgOwner .a 5 2) (ratchet5 {} [])).map (fun d => ownerOf d 5) = some 2 ∧
      (after (.ratCfgOwner .a 5 2) ((ratchet5 { owner := 3 } []).setDie .a (naming5 (dA (ratchet5 { owner := 3 } []))))).map
        (fun d => ((ratchet d 5).owner, ownerOf d 5)) = some (3, 1) := by decide +kernel

/-- R261 and R498: a program whose path back to a LOOP rewrites its register in the body is refused (the counts would have no
bound); a single LOOP after its MOVI is not. -/
theorem test_flow_of_loops :
    flowOk [coreWord 0x01 1 0 0 5, coreWord 0x01 2 0 0 3, coreWord 0x00 0 0 0 0, coreWord 0x08 1 0 0 0xFFFFFFFF,
      coreWord 0x08 2 0 0 0xFFFFFFFE, coreWord 0x0E 0 0 0 0] [] = false ∧
      flowOk [coreWord 0x01 1 0 0 5, coreWord 0x00 0 0 0 0, coreWord 0x08 1 0 0 0xFFFFFFFF, coreWord 0x0E 0 0 0 0] [] = true := by decide +kernel

/-- The gate of a member is ARRIVED after its command; an arrival at the root is noted. -/
theorem test_gate_arrival : (after (.pelGateCmdArrive .a 3) (node id id)).map (fun d => (pelGate d 3).state) = some 1 := by decide +kernel
theorem test_formation_begins_an_epoch : (after (.pelCmdForm .a) (node id id)).map (fun d => (d.pel.epoch, d.pel.forming)) = some (2, true) := by
  decide +kernel

/-- The step takes the front command only. -/
theorem test_step_takes_the_front :
    (match step { spring id with pending := [.nop .a ⟨0, []⟩, .refclkLoss] } with | .next t => some t.pending | _ => none) = some [.refclkLoss] := by
  decide +kernel

end Sys2Proof.Tests
end

section
/-! SUPPORT. Registers written past their page's header, and O8. -/

namespace Sys2Proof.Machine

/-! ## Writing a register -/

/-- Past the header, a write reaches the page where the register has its home, whichever page of the block it names. -/
theorem exec_registerWrite_body {s : State} {d : DieId} {addr : BitVec 24} {v : Word}
    (running : (s.die d).phase ≠ .frost) (lit : pageDark (s.die d) (addr.toNat / 4096) = false)
    (past : 0x020 ≤ addr.toNat % 4096 / 4 * 4) :
    exec (.registerWrite d addr v) s = .next (bodyWrite d (homePage (addr.toNat / 4096) (addr.toNat % 4096 / 4 * 4))
      (addr.toNat % 4096 / 4 * 4) v s) := by
  show Host.Outcome.next (regWrite d addr.toNat v s) = _
  simp [regWrite, running, lit, Nat.not_lt.2 past]

/-- A register that does nothing else keeps the fields written to it. -/
theorem bodyWrite_of_no_action {s : State} {d : DieId} {page off : Nat} {v : Word} (quietly : writeAct d page off v s = none) :
    bodyWrite d page off v s = s.setDie d (writeFields page off v.toNat (s.die d)) := by
  simp [bodyWrite, quietly, onDie]

/-- A register of one Live field that nothing locks is written at once. -/
theorem writeFields_live {d : Die} {page off word : Nat} {f : FieldSpec} (only : rwAt page off = [f]) (live : f.eff = .live)
    (free : fieldLocked d page off f.lo (clampField d page off f word) = false) :
    writeFields page off word d = setField (selOf d page off) page off f.lo (clampField d page off f word) d := by
  simp [writeFields, writeField, only, live, free]

/-- ING_STREAM_SEL.stream (R348). -/
def streamSel : FieldSpec := ⟨18, 0x054, 1, 0, 4, 0, .live, none⟩

/-- Die A in Spring, all else as after reset. -/
def springOnA : State := State.reset.setDie .a { which := .a, phase := .spring }

/-- The model writes ING_STREAM_SEL, reached through ING's second page, on the first. -/
theorem streamSel_written_through_second_page : RunsTo (.registerWrite .a 0x023054 1) springOnA .a
    (setField 0 pING 0x054 0 1 (springOnA.die .a)) := by
  have body := exec_registerWrite_body (s := springOnA) (d := .a) (addr := 0x023054) (v := 1) (by decide) (by decide) (by decide)
  rw [RunsTo, body, bodyWrite_of_no_action (by decide)]
  exact congrArg (fun x => Host.Outcome.next (springOnA.setDie .a x))
    (writeFields_live (f := streamSel) (by decide) rfl (by decide))

/-- Refutes O8: the statement puts a Live value in force under the page that the address names, but ING's stream table and its
selector stand once, on ING's first page, and a write through the second page acts there (the text before R347). So after
1 is written to ING_STREAM_SEL through the second page, in Spring, the model selects stream 1 and the statement stream 0. -/
theorem not_registerWriteByEffectClass : ¬ Obligations.RegisterWriteByEffectClass := by
  unfold Obligations.RegisterWriteByEffectClass
  intro holds
  obtain ⟨-, oneField⟩ := holds springOnA .a 0x023054 1
  obtain ⟨-, unlocked⟩ := oneField (by decide) (by decide) (by decide) rfl streamSel (by decide)
  obtain ⟨atOnce, -⟩ := unlocked (by decide)
  have stated := atOnce rfl
  rw [RunsTo, streamSel_written_through_second_page, Host.Outcome.next.injEq] at stated
  have selects := congrArg (fun t => field (t.die .a) pING 0x054 0) stated
  revert selects
  decide

end Sys2Proof.Machine
end

section
/-! SUPPORT. What a slot boundary sets and what the work done there leaves alone, and O10. -/

namespace Sys2Proof.Machine

/-! ## Air-time up to a slot boundary (R334, R338) -/

/-- Air-time of the slot boundary that comes next. -/
def nextBoundary (t : Tim) : Nat := t.air + toNextSlot t

theorem slotNs_pos {mu : Nat} (small : mu ≤ 3) : 0 < slotNs mu := by
  interval_cases mu <;> decide

theorem slotNs_le (mu : Nat) : slotNs mu ≤ 1000000 := Nat.div_le_self _ _

theorem toNextSlot_le (t : Tim) : toNextSlot t ≤ slotNs t.mu := by
  unfold toNextSlot
  dsimp only
  split <;> omega

/-- The next boundary begins a slot. -/
theorem nextBoundary_mod {t : Tim} (pos : 0 < slotNs t.mu) : nextBoundary t % slotNs t.mu = 0 := by
  unfold nextBoundary toNextSlot
  dsimp only
  split
  · next on => simpa using on.1
  · have within : t.air % slotNs t.mu < slotNs t.mu := Nat.mod_lt _ pos
    have slots : t.air + (slotNs t.mu - t.air % slotNs t.mu) = slotNs t.mu * (t.air / slotNs t.mu + 1) := by
      have := Nat.div_add_mod t.air (slotNs t.mu)
      rw [Nat.mul_add]
      omega
    rw [slots, Nat.mul_mod_right]

@[simp] theorem elapse_mu (n : Nat) (t : Tim) : (elapse n t).mu = t.mu := by rw [elapse]
@[simp] theorem elapse_step (n : Nat) (t : Tim) : (elapse n t).step = t.step := by rw [elapse]
@[simp] theorem elapse_slotDone (n : Nat) (t : Tim) : (elapse n t).slotDone = t.slotDone := by rw [elapse]

@[simp] theorem passSlewing_mu (n : Nat) (t : Tim) : (passSlewing n t).mu = t.mu := by simp only [passSlewing, elapse_mu]
@[simp] theorem passSlewing_step (n : Nat) (t : Tim) : (passSlewing n t).step = t.step := by
  simp only [passSlewing, elapse_step]
@[simp] theorem passSlewing_slotDone (n : Nat) (t : Tim) : (passSlewing n t).slotDone = t.slotDone := by
  simp only [passSlewing, elapse_slotDone]
@[simp] theorem passSlewing_air (n : Nat) (t : Tim) : (passSlewing n t).air = w64 (t.air + n) := by simp only [passSlewing]

theorem w64_of_lt {n : Nat} (small : n < 2 ^ 64) : w64 n = n := Nat.mod_eq_of_lt small

/-- The next boundary depends on air-time, the numerology and the slot taken last. -/
theorem toNextSlot_congr {t u : Tim} (air : u.air = t.air) (mu : u.mu = t.mu) (done : u.slotDone = t.slotDone) :
    toNextSlot u = toNextSlot t := by simp only [toNextSlot, air, mu, done]

/-- Time that passes up to the next boundary at most does not make air-time wrap. -/
theorem passSlewing_air_of_room {t : Tim} {n : Nat} (upTo : n ≤ toNextSlot t) (room : nextBoundary t < 2 ^ 64) :
    (passSlewing n t).air = t.air + n := by
  unfold nextBoundary at room
  rw [passSlewing_air, w64_of_lt]
  omega

/-- Time that passes before the next boundary, or no time, leaves that boundary where it is. -/
theorem nextBoundary_passSlewing {t : Tim} {n : Nat} (before : n = 0 ∨ n < toNextSlot t) (room : nextBoundary t < 2 ^ 64) :
    nextBoundary (passSlewing n t) = nextBoundary t := by
  have air := passSlewing_air_of_room (show n ≤ toNextSlot t by omega) room
  obtain rfl | passes := Nat.eq_zero_or_pos n
  · have same := toNextSlot_congr air (passSlewing_mu 0 t) (passSlewing_slotDone 0 t)
    rw [nextBoundary, nextBoundary, air, same, Nat.add_zero]
  · have early : n < toNextSlot t := before.resolve_left passes.ne'
    have inside : toNextSlot t = slotNs t.mu - t.air % slotNs t.mu := by
      unfold toNextSlot at early ⊢
      dsimp only at early ⊢
      split
      · next on => simp [on] at early
      · rfl
    have within : t.air % slotNs t.mu + n < slotNs t.mu := by omega
    have offset : (t.air + n) % slotNs t.mu = t.air % slotNs t.mu + n := by
      rw [← Nat.mod_add_mod, Nat.mod_eq_of_lt within]
    have later : toNextSlot (passSlewing n t) = slotNs t.mu - (t.air % slotNs t.mu + n) := by
      unfold toNextSlot
      dsimp only
      rw [passSlewing_mu, air, offset, if_neg (by omega)]
    rw [nextBoundary, nextBoundary, air, later, inside]
    omega

/-! ## What a seal period's end, a copy fetched and a span's end leave alone -/

@[simp] theorem quiet_peerDrop (d : Die) : quiet (peerDrop d) = quiet d := by simp [peerDrop]

@[simp] theorem quiet_fetchCopies (peer d : Die) : quiet (fetchCopies peer d) = quiet d := by
  unfold fetchCopies
  refine (quiet_foldl _ (fun d r => ?_) _ _).trans (quiet_updHst _ d)
  split
  · rfl
  · exact quiet_peerDrop d

/-- The seal periods that end before a boundary leave that boundary, the numerology and a decided step as they are. -/
theorem sealsWithin_tim (k n : Nat) (d : Die) (before : n = 0 ∨ n < toNextSlot d.tim) (room : nextBoundary d.tim < 2 ^ 64) :
    nextBoundary (sealsWithin passSlewing k n d).tim = nextBoundary d.tim ∧
      (sealsWithin passSlewing k n d).tim.mu = d.tim.mu ∧ (sealsWithin passSlewing k n d).tim.step = d.tim.step := by
  induction k generalizing n d with
  | zero => exact ⟨rfl, rfl, rfl⟩
  | succ k ih =>
    unfold sealsWithin
    split
    · next due =>
      obtain ⟨-, -, reached⟩ := due
      have turned : (turnPeriod false (updTim (passSlewing (toSeal d)) d)).tim = passSlewing (toSeal d) d.tim :=
        quiet_tim (quiet_turnPeriod false _)
      have early : toSeal d = 0 ∨ toSeal d < toNextSlot d.tim := by omega
      have same := nextBoundary_passSlewing early room
      have air := passSlewing_air_of_room (show toSeal d ≤ toNextSlot d.tim by omega) room
      have left : n - toSeal d = 0 ∨ n - toSeal d < toNextSlot (passSlewing (toSeal d) d.tim) := by
        unfold nextBoundary at same
        omega
      obtain ⟨next, mu, step⟩ := ih (n - toSeal d) _ (turned ▸ left) (by rw [turned, same]; exact room)
      rw [turned] at next mu step
      exact ⟨next.trans same, mu.trans (passSlewing_mu _ _), step.trans (passSlewing_step _ _)⟩
    · exact ⟨rfl, rfl, rfl⟩

/-- Without a decided step, the clocks come to the next boundary, which counts as taken. -/
theorem toBoundary_of_no_step {t : Tim} (undecided : t.step = none) (room : nextBoundary t < 2 ^ 64) :
    (toBoundary t).air = nextBoundary t ∧ (toBoundary t).slotDone = some (nextBoundary t / slotNs t.mu) := by
  have air : (passSlewing (toNextSlot t) t).air = nextBoundary t := passSlewing_air_of_room le_rfl room
  simp only [toBoundary, undecided, passSlewing_mu, air, and_self]

/-! ## The parts that a slot boundary sets -/

/-- The parts of a die that a slot boundary sets: spans, Staged writes that wait, air-time, and the slot taken last. -/
structure Marks where
  spans : List (Nat × Nat × Nat)
  staged : AMap Nat
  late : AMap Nat
  air : Nat
  slotDone : Option Nat

/-- These parts of a die. -/
def marks (d : Die) : Marks := ⟨d.cad.spans, d.regs.staged, d.regs.late, d.tim.air, d.tim.slotDone⟩

/-- The marks once Staged writes have come into force: late ones wait in their place. -/
def Marks.commit (m : Marks) : Marks := { m with staged := m.late, late := [] }

/-- What `quiet` keeps includes them. -/
theorem marks_of_quiet {d x : Die} (h : quiet x = quiet d) : marks x = marks d :=
  show marks (quiet x) = marks (quiet d) by rw [h]

theorem marks_foldl {α : Type} (f : Die → α → Die) (hf : ∀ d a, marks (f d a) = marks d) (as : List α) (d : Die) :
    marks (as.foldl f d) = marks d := by
  induction as generalizing d with
  | nil => rfl
  | cons a r ih => rw [List.foldl_cons, ih, hf]

/-! ### The clocks' states -/

@[simp] theorem quiet_noteTime (d : Die) : quiet (noteTime d) = quiet d := rfl

@[simp] theorem marks_updSealing (f : Sealing → Sealing) (d : Die) : marks (updSealing f d) = marks d := rfl
@[simp] theorem marks_updHst (f : Hst → Hst) (d : Die) : marks (updHst f d) = marks d := rfl
@[simp] theorem marks_updVp (f : Vp → Vp) (d : Die) : marks (updVp f d) = marks d := rfl
@[simp] theorem marks_updFcu (f : Fcu → Fcu) (d : Die) : marks (updFcu f d) = marks d := rfl
@[simp] theorem marks_updActive (f : Cad → Timetable) (d : Die) :
    marks (updCad (fun c => { c with active := f c }) d) = marks d := rfl
@[simp] theorem marks_setField (sel p o l v : Nat) (d : Die) : marks (setField sel p o l v d) = marks d := rfl
@[simp] theorem marks_raise (p b : Nat) (d : Die) : marks (raise p b d) = marks d := marks_of_quiet (quiet_raise p b d)

/-- A change of the clocks that moves neither air-time nor the slot taken last. -/
theorem marks_updTim {f : Tim → Tim} {d : Die} (air : (f d.tim).air = d.tim.air) (done : (f d.tim).slotDone = d.tim.slotDone) :
    marks (updTim f d) = marks d := by
  simp only [marks, updTim_cad, updTim_regs, updTim_tim, air, done]

@[simp] theorem marks_timeMoved (d : Die) : marks (timeMoved d) = marks d := by
  refine (marks_of_quiet (quiet_noteTime _)).trans ?_
  unfold settleDisagree
  dsimp only
  refine (marks_updTim rfl rfl).trans ?_
  split
  · exact marks_raise _ _ _
  · rfl

@[simp] theorem marks_acquire (src good : Nat) (d : Die) : marks (acquire src good d) = marks d :=
  (marks_timeMoved _).trans (marks_updTim rfl rfl)

@[simp] theorem marks_loseAir (d : Die) : marks (loseAir d) = marks d := by
  unfold loseAir
  dsimp only
  split <;> simp [marks_updTim, markAir]

@[simp] theorem marks_sourceWritten (d : Die) : marks (sourceWritten d) = marks d := by
  unfold sourceWritten
  split <;> simp [marks_updTim]

@[simp] theorem marks_ptpMoved (d : Die) : marks (ptpMoved d) = marks d := by
  unfold ptpMoved
  dsimp only
  repeat' split
  all_goals simp [marks_updTim]

@[simp] theorem marks_toPtp (p : PtpState) (d : Die) : marks (toPtp p d) = marks d :=
  (marks_ptpMoved _).trans (marks_updTim rfl rfl)

@[simp] theorem marks_ptpEnable (en : Bool) (d : Die) : marks (ptpEnable en d) = marks d := by
  unfold ptpEnable
  repeat' split
  all_goals simp [marks_updTim]

@[simp] theorem marks_muWritten (mu : Nat) (d : Die) : marks (muWritten mu d) = marks d := by
  unfold muWritten
  split
  · rfl
  · exact marks_updTim rfl rfl

/-! ### Staged writes -/

@[simp] theorem marks_commitStaged (d : Die) : marks (commitStaged d) = (marks d).commit :=
  marks_of_quiet (quiet_foldl _ (fun d p => quiet_setErrPage p _ d) _ _)

@[simp] theorem marks_clampStreams (d : Die) : marks (clampStreams d) = marks d := by
  refine marks_foldl _ (fun d s => ?_) _ d
  dsimp only
  split
  · exact marks_setField _ _ _ _ _ _
  · rfl

@[simp] theorem quiet_resetStreams (was d : Die) : quiet (resetStreams was d) = quiet d := by
  refine quiet_foldl _ (fun d s => ?_) _ d
  split
  · exact quiet_updIng _ _
  · rfl

@[simp] theorem marks_applyForm (d : Die) : marks (applyForm d) = marks d := by
  unfold applyForm
  dsimp only
  repeat' split
  all_goals rfl

/-- The Staged writes that wait come into force, and late ones wait in their place; no clock moves. -/
theorem marks_takeStaged (d : Die) : marks (takeStaged d) = (marks d).commit := by
  unfold takeStaged
  extract_lets d1 d2 d3 d4
  have h1 : marks d1 = (marks d).commit := by
    simp only [d1, marks_of_quiet (quiet_resetStreams _ _), marks_clampStreams, marks_commitStaged]
  have h2 : marks d2 = marks d1 := by simp only [d2]; split <;> simp
  have h3 : marks d3 = marks d2 := by simp only [d3]; split <;> simp
  have h4 : marks d4 = marks d3 := by simp only [d4]; split <;> simp
  rw [marks_of_quiet (quiet_flushEgress _), marks_timeMoved, marks_applyForm, h4, h3, h2, h1]

/-! ### The rest of a running die's boundary -/

@[simp] theorem quiet_sealBoundary (d : Die) : quiet (sealBoundary d) = quiet d := by
  unfold sealBoundary
  split <;> simp

@[simp] theorem marks_removeTagged (d : Die) : marks (removeTagged d) = marks d := rfl

@[simp] theorem marks_swapStandby (d : Die) : marks (swapStandby d) = marks d := by
  unfold swapStandby
  repeat' split
  all_goals rfl

@[simp] theorem marks_mergeFrags (d : Die) : marks (mergeFrags d) = marks d := by
  unfold mergeFrags
  dsimp only
  split <;> rfl

@[simp] theorem quiet_refreshCache (d : Die) : quiet (refreshCache d) = quiet d := rfl

@[simp] theorem quiet_modChain (e : Nat) (f : Chain → Chain) (d : Die) : quiet (modChain e f d) = quiet d := rfl

@[simp] theorem quiet_startLink (e : Nat) (next : Bool) (peer : Bytes) (d : Die) : quiet (startLink e next peer d) = quiet d := by
  unfold startLink
  split <;> simp

@[simp] theorem quiet_chainResult (code : Nat) (d : Die) : quiet (chainResult code d) = quiet d := rfl

@[simp] theorem quiet_switchNow (e : Nat) (next : Bool) (d : Die) : quiet (switchNow e next d) = quiet d := by
  unfold switchNow
  repeat' split
  all_goals simp [apply_ite quiet]

@[simp] theorem quiet_chainsSwitch (d : Die) : quiet (chainsSwitch d) = quiet d :=
  quiet_foldl _ (fun d e => by simp) _ d

@[simp] theorem marks_changePhase (p : Phase) (d : Die) : marks (changePhase p d) = marks d := by
  obtain ⟨_, _, _, _, _, _, _, h⟩ := changePhase_parts p d
  rw [h]
  rfl

/-- The default timetable comes with no span. -/
theorem marks_firmwareTimetable (d : Die) : marks (firmwareTimetable d) = { marks d with spans := [] } := rfl

/-- Once no span runs, a change between Spring and Summer leaves the marks alone. -/
theorem marks_settlePhase {d : Die} (ended : d.cad.spans = []) : marks (settlePhase d) = marks d := by
  unfold settlePhase
  dsimp only
  split
  · simp
  · split
    · rw [marks_firmwareTimetable, marks_changePhase, marks, ended]
    · rfl

/-- What a boundary does in Spring and Summer sets, beside what `takeStaged` sets, none of the marks. -/
theorem marks_boundaryWork (muChanged : Bool) (peer : Die) {d : Die} (ended : d.cad.spans = []) :
    marks (boundaryWork muChanged peer d) = (marks d).commit := by
  unfold boundaryWork
  extract_lets cut d1 d2 d3 d4 d5
  have h2 : marks d2 = marks d1 := by
    simp only [d2]
    split
    · exact (marks_updSealing _ _).trans (marks_of_quiet (quiet_turnPeriod true d1))
    · exact marks_of_quiet (quiet_sealBoundary d1)
  have h3 : marks d3 = marks d2 := marks_of_quiet (by simp [d3])
  have h4 : marks d4 = marks d3 := by simp [d4]
  have h5 : marks d5 = marks d4 := marks_of_quiet (by simp [d5])
  have all : marks (updVp (fun v => { v with draining := v.draining || v.pending }) d5) =
      (marks d).commit := by
    rw [marks_updVp, h5, h4, h3, h2, marks_takeStaged]
  rw [marks_settlePhase ((congrArg Marks.spans all).trans ended), all]

/-! ### Up to the boundary -/

/-- What `quiet` keeps of a die, but for its clocks. -/
def timeless (d : Die) : Die := quiet (updTim (fun _ => {}) d)

theorem timeless_of_quiet {d x : Die} (h : quiet x = quiet d) : timeless x = timeless d :=
  show updTim (fun _ => {}) (quiet x) = updTim (fun _ => {}) (quiet d) by rw [h]

theorem timeless_phase {d x : Die} (h : timeless x = timeless d) : x.phase = d.phase :=
  show (timeless x).phase = (timeless d).phase by rw [h]
theorem timeless_late {d x : Die} (h : timeless x = timeless d) : x.regs.late = d.regs.late :=
  show (timeless x).regs.late = (timeless d).regs.late by rw [h]

theorem timeless_updTim (f : Tim → Tim) (d : Die) : timeless (updTim f d) = timeless d := rfl

/-- Seal periods that end while time passes change only what verdicts and clocks change. -/
theorem timeless_sealsWithin (advance : Nat → Tim → Tim) (k n : Nat) (d : Die) :
    timeless (sealsWithin advance k n d) = timeless d := by
  induction k generalizing n d with
  | zero => rfl
  | succ k ih =>
    unfold sealsWithin
    split
    · rw [ih, timeless_of_quiet (quiet_turnPeriod false _), timeless_updTim]
    · rfl

@[simp] theorem quiet_sntStop (e : TtEntry) (d : Die) : quiet (sntStop e d) = quiet d := rfl

/-- Every span is over, and beside the spans nothing changes that `quiet` keeps. -/
theorem endSpans_parts (d : Die) : ∃ e, quiet e = quiet d ∧ endSpans d = updCad (fun c => { c with spans := [] }) e := by
  unfold endSpans
  extract_lets cut d1
  have h1 : quiet d1 = quiet d := by simp only [d1]; split <;> simp
  refine ⟨_, (quiet_foldl _ (fun d s => ?_) _ d1).trans h1, rfl⟩
  dsimp only
  split
  · split
    · rfl
    · split <;> rfl
  · rfl

/-- A die that has come to its slot boundary: copies fetched, seal periods before it ended, time passed, spans over. -/
def atBoundary (peer d : Die) : Die :=
  let e := fetchCopies peer d
  let e := if d.tim.step.isSome then e else sealsWithin passSlewing 16 (toNextSlot d.tim - 1) e
  endSpans (updTim toBoundary e)

/-- What a die at its boundary does there, by its phase. -/
def workAtBoundary (was : Tim) (peer e : Die) : Die :=
  let e := if was.step.isSome then stepTaken was e else e
  match e.phase with
  | .spring | .summer => boundaryWork (decide (e.tim.mu ≠ was.mu)) peer e
  | .autumn => takeStaged e
  | _ => e

/-- Out of Frost, a die comes to the boundary, does its work there, and tells the peer die its new slot count. -/
theorem slotBoundary_of_running {peer d : Die} (running : d.phase ≠ .frost) :
    slotBoundary peer d = sendSpoke 5 0 0 (slotCount (workAtBoundary d.tim peer (atBoundary peer d))) 0 0 0 [] []
      (workAtBoundary d.tim peer (atBoundary peer d)) := by
  rw [slotBoundary, if_neg running]
  rfl

/-- Coming to a boundary ends the spans and leaves the phase and the late Staged writes. -/
theorem atBoundary_parts (peer d : Die) : (atBoundary peer d).cad.spans = [] ∧
    (atBoundary peer d).phase = d.phase ∧ (atBoundary peer d).regs.late = d.regs.late := by
  unfold atBoundary
  extract_lets e e'
  obtain ⟨x, same, ended⟩ := endSpans_parts (updTim toBoundary e')
  have h : timeless x = timeless d := by
    rw [timeless_of_quiet same, timeless_updTim]
    simp only [e']
    split
    · exact timeless_of_quiet (quiet_fetchCopies peer d)
    · exact (timeless_sealsWithin _ _ _ _).trans (timeless_of_quiet (quiet_fetchCopies peer d))
  rw [ended]
  exact ⟨rfl, timeless_phase (x := x) h, timeless_late (x := x) h⟩

/-- Without a decided step, air-time comes to the next boundary, whose slot counts as taken. -/
theorem atBoundary_tim {peer d : Die} (noStep : d.tim.step = none) (room : nextBoundary d.tim < 2 ^ 64) :
    (atBoundary peer d).tim.air = nextBoundary d.tim ∧
      (atBoundary peer d).tim.slotDone = some (nextBoundary d.tim / slotNs d.tim.mu) := by
  have tim : (fetchCopies peer d).tim = d.tim := quiet_tim (quiet_fetchCopies peer d)
  obtain ⟨next, mu, step⟩ := sealsWithin_tim 16 (toNextSlot d.tim - 1) (fetchCopies peer d)
    (by rw [tim]; omega) (by rwa [tim])
  rw [tim] at next mu step
  obtain ⟨x, same, ended⟩ := endSpans_parts
    (updTim toBoundary (sealsWithin passSlewing 16 (toNextSlot d.tim - 1) (fetchCopies peer d)))
  have come := toBoundary_of_no_step (step.trans noStep) (next ▸ room)
  rw [next, mu] at come
  simpa only [atBoundary, noStep, Option.isSome_none, Bool.false_eq_true, if_false, ended, updCad_tim, quiet_tim same,
    updTim_tim] using come

@[simp] theorem quiet_shiftWindows (d : Die) : quiet (shiftWindows d) = quiet d := rfl

/-- A step that has taken effect sets none of the marks and keeps the phase. -/
theorem stepTaken_keeps (was : Tim) (d : Die) : marks (stepTaken was d) = marks d ∧ (stepTaken was d).phase = d.phase := by
  unfold stepTaken
  extract_lets d1 d2
  have h2 : quiet d2 = quiet d := by simp [d2, d1]
  split
  · exact ⟨(marks_updActive _ d2).trans (marks_of_quiet h2), (updCad_phase _ d2).trans (quiet_phase h2)⟩
  · exact ⟨marks_of_quiet h2, quiet_phase h2⟩

/-- The work at a boundary starts no span and moves no clock; in Spring and Summer the Staged writes that waited come into
force. -/
theorem marks_workAtBoundary (was : Tim) (peer : Die) {e : Die} (ended : e.cad.spans = []) :
    (∃ staged late, marks (workAtBoundary was peer e) =
        ⟨(marks e).spans, staged, late, (marks e).air, (marks e).slotDone⟩) ∧
      (e.phase = .spring ∨ e.phase = .summer → marks (workAtBoundary was peer e) = (marks e).commit) := by
  unfold workAtBoundary
  extract_lets e'
  have stepped : marks e' = marks e ∧ e'.phase = e.phase := by
    simp only [e']
    split
    · exact stepTaken_keeps was e
    · exact ⟨rfl, rfl⟩
  obtain ⟨same, phase⟩ := stepped
  have noSpan : e'.cad.spans = [] := (congrArg Marks.spans same).trans ended
  rw [← same, ← phase]
  split
  · exact ⟨⟨_, _, marks_boundaryWork _ peer noSpan⟩, fun _ => marks_boundaryWork _ peer noSpan⟩
  · exact ⟨⟨_, _, marks_boundaryWork _ peer noSpan⟩, fun _ => marks_boundaryWork _ peer noSpan⟩
  · next autumn => exact ⟨⟨_, _, marks_takeStaged e'⟩, fun running => by simp [autumn] at running⟩
  · next spring summer _ => exact ⟨⟨_, _, rfl⟩, fun running => (running.elim spring summer).elim⟩

/-! ### The boundary of a running die -/

section
variable {peer d : Die} (running : d.phase ≠ .frost)
include running

theorem slotBoundary_spans : (slotBoundary peer d).cad.spans = [] := by
  obtain ⟨ended, -⟩ := atBoundary_parts peer d
  obtain ⟨⟨_, _, kept⟩, -⟩ := marks_workAtBoundary d.tim peer ended
  rw [slotBoundary_of_running running]
  exact (congrArg Marks.spans kept).trans ended

/-- The last that a boundary sends is the SLOT message with the new slot count. -/
theorem slotBoundary_out :
    ∃ o, (slotBoundary peer d).out = .spoke (spokeBytes 5 0 0 (slotCount (slotBoundary peer d)) 0 0 0 [] []) :: o := by
  rw [slotBoundary_of_running running]
  exact ⟨_, rfl⟩

/-- In Spring and Summer late Staged writes are all that waits after a boundary. -/
theorem slotBoundary_staged (committing : d.phase = .spring ∨ d.phase = .summer) :
    (slotBoundary peer d).regs.staged = d.regs.late ∧ (slotBoundary peer d).regs.late = [] := by
  obtain ⟨ended, phase, late⟩ := atBoundary_parts peer d
  obtain ⟨-, committed⟩ := marks_workAtBoundary d.tim peer ended
  have taken := committed (phase.symm ▸ committing)
  rw [slotBoundary_of_running running]
  exact ⟨(congrArg Marks.staged taken).trans late, congrArg Marks.late taken⟩

/-- Without a decided step, air-time stands at the boundary, whose slot counts as taken. -/
theorem slotBoundary_tim (noStep : d.tim.step = none) (room : nextBoundary d.tim < 2 ^ 64) :
    (slotBoundary peer d).tim.air = nextBoundary d.tim ∧
      (slotBoundary peer d).tim.slotDone = some (nextBoundary d.tim / slotNs d.tim.mu) := by
  obtain ⟨ended, -⟩ := atBoundary_parts peer d
  obtain ⟨⟨_, _, kept⟩, -⟩ := marks_workAtBoundary d.tim peer ended
  obtain ⟨air, done⟩ := atBoundary_tim (peer := peer) noStep room
  rw [slotBoundary_of_running running]
  exact ⟨(congrArg Marks.air kept).trans air, (congrArg Marks.slotDone kept).trans done⟩

end

/-- Settles O10: a running die comes to its boundary, where spans end and the clocks are set, and none of the work done there
sets them again. -/
theorem slotBoundaryWork : Obligations.SlotBoundaryWork := by
  unfold Obligations.SlotBoundaryWork
  intro s d
  have runs : RunsTo (.slotBoundary d) s d (slotBoundary (s.die d.other) (s.die d)) := runDie_eq d _ s
  refine ⟨fun frost => ?_, fun running => ⟨_, runs, slotBoundary_spans running, slotBoundary_out running,
    slotBoundary_staged running, fun noStep small room => ?_⟩⟩
  · rwa [slotBoundary, if_pos frost] at runs
  · have near : nextBoundary (s.die d).tim ≤ (s.die d).tim.air + slotNs (s.die d).tim.mu :=
      Nat.add_le_add_left (toNextSlot_le _) _
    have slot := slotNs_le (s.die d).tim.mu
    obtain ⟨air, done⟩ := slotBoundary_tim (peer := s.die d.other) running noStep (by omega)
    rw [air, done]
    exact ⟨nextBoundary_mod (slotNs_pos small), Nat.le_add_right _ _, near, rfl⟩

end Sys2Proof.Machine
end

section
/-! SUPPORT. What boot and the end of Autumn leave of a die, and O36. -/

namespace Sys2Proof.Machine

/-! ## The link starts again (R49, R402) -/

/-- A die without the parts that restoring its link changes. -/
def unlinked (d : Die) : Die := { d with
  wlk := {}, wrd := {}, chn := {}, ing := {}, regs := { d.regs with cnt := [] }, errs := [], fcu := { d.fcu with pend := [] } }

@[simp] theorem unlinked_raise (p b : Nat) (d : Die) : unlinked (raise p b d) = unlinked d := by
  obtain ⟨e, l, raised⟩ := raise_parts p b d
  rw [raised]
  rfl

theorem unlinked_loseFrame (s no : Nat) (d : Die) : unlinked (loseFrame s no d) = unlinked d :=
  (unlinked_raise (streamPage d s) 7 (count (streamPage d s) 0x09C d)).trans rfl

theorem unlinked_loseFrames (l : List (Nat × Nat)) (d : Die) : unlinked (loseFrames l d) = unlinked d := by
  unfold loseFrames
  generalize l.eraseDups.mergeSort _ = frames
  induction frames generalizing d with
  | nil => rfl
  | cons f r ih => rw [List.foldl_cons, ih, unlinked_loseFrame]

@[simp] theorem unlinked_countN (p o n : Nat) (d : Die) : unlinked (countN p o n d) = unlinked d := rfl
@[simp] theorem unlinked_updWlk (f : Wlk → Wlk) (d : Die) : unlinked (updWlk f d) = unlinked d := rfl
@[simp] theorem unlinked_updWrd (f : Wrd → Wrd) (d : Die) : unlinked (updWrd f d) = unlinked d := rfl
@[simp] theorem unlinked_updIng (f : Ing → Ing) (d : Die) : unlinked (updIng f d) = unlinked d := rfl

theorem unlinked_linkFresh (d : Die) : unlinked (linkFresh d) = unlinked d := by
  simp [linkFresh, loseDown, unlinked_loseFrames]

theorem unlinked_linkRestore (d : Die) : unlinked (linkRestore d) = unlinked d := by
  unfold linkRestore
  split
  · exact unlinked_linkFresh d
  · rfl

/-- What a statement about a restored link's die may use of it. -/
theorem linkRestore_keeps (d : Die) : (linkRestore d).phase = d.phase ∧ (linkRestore d).key = d.key ∧
    (linkRestore d).sealing = d.sealing ∧ (linkRestore d).cad = d.cad ∧ (linkRestore d).regs.enabled = d.regs.enabled ∧
    (linkRestore d).fcu.hold = d.fcu.hold ∧ (linkRestore d).fcu.step = d.fcu.step := by
  have kept := unlinked_linkRestore d
  exact ⟨congrArg (·.phase) kept, congrArg (·.key) kept, congrArg (·.sealing) kept, congrArg (·.cad) kept,
    congrArg (·.regs.enabled) kept, congrArg (·.fcu.hold) kept, congrArg (·.fcu.step) kept⟩

/-! ## Spring begins (R215, R277) -/

@[simp] theorem startPeriod_phase (d : Die) : (startPeriod d).phase = d.phase := quiet_phase (quiet_startPeriod d)

@[simp] theorem startPeriod_key (d : Die) : (startPeriod d).key = d.key := by
  unfold startPeriod; dsimp only; split <;> simp

@[simp] theorem startPeriod_cad (d : Die) : (startPeriod d).cad = d.cad := by
  unfold startPeriod; dsimp only; split <;> simp

@[simp] theorem startPeriod_fcu_step (d : Die) : (startPeriod d).fcu.step = d.fcu.step := by
  unfold startPeriod; dsimp only; split <;> simp

@[simp] theorem startPeriod_running (d : Die) : (startPeriod d).sealing.running = true := by
  unfold startPeriod; dsimp only; split <;> simp

/-- Spring begins with CAD on the default timetable and sealing running. -/
theorem enterSpring_begins (d : Die) : (enterSpring d).phase = .spring ∧ (enterSpring d).sealing.running = true ∧
    (enterSpring d).cad.running = true ∧ (enterSpring d).cad.active.isDefault = true := by
  simp [enterSpring, firmwareTimetable, defaultTimetable]

theorem enterSpring_enabled (d : Die) : (enterSpring d).regs.enabled = d.regs.enabled :=
  (quiet_enabled (quiet_startPeriod _)).trans (changePhase_regs_enabled _ _)

theorem enterSpring_key_step (d : Die) : (enterSpring d).key.step = d.key.step := by simp [enterSpring, firmwareTimetable]

theorem enterSpring_fcu_step (d : Die) : (enterSpring d).fcu.step = d.fcu.step := by simp [enterSpring, firmwareTimetable]

/-! ## The end of Thaw (R425, R468, R469) -/

/-- A change of FAULT_N's form changes nothing but FCU, and keeps what holds the pin. -/
theorem applyForm_keeps (d : Die) : (applyForm d).phase = d.phase ∧ (applyForm d).key = d.key ∧
    (applyForm d).sealing = d.sealing ∧ (applyForm d).cad = d.cad ∧ (applyForm d).regs = d.regs ∧
    (applyForm d).fcu.hold = d.fcu.hold := by
  unfold applyForm
  extract_lets want
  generalize (if d.fcu.alive then d.fcu.stopped else d.fcu.asserted) = low
  split
  · simp
  · split <;> simp

/-- Thaw lets go of FAULT_N. -/
theorem thawPin_keeps (d : Die) : (thawPin d).phase = d.phase ∧ (thawPin d).key = d.key ∧
    (thawPin d).sealing = d.sealing ∧ (thawPin d).cad = d.cad ∧ (thawPin d).regs = d.regs ∧
    (thawPin d).fcu.hold = false := by
  unfold thawPin
  extract_lets real e
  exact applyForm_keeps e

/-- HST is enabled, and what Thaw has completed stays. -/
theorem enableHost_keeps (d : Die) : pHST ∈ (enableHost d).regs.enabled ∧ (enableHost d).key = d.key := by
  simp [enableHost, enablePage, commitHeld, pHST, pWLK, setField]

theorem raiseFloor_key_step (typ svn : Nat) (d : Die) : (raiseFloor typ svn d).key.step = d.key.step := by
  unfold raiseFloor
  split <;> rfl

theorem thawEnd_begins_spring (d : Die) : (thawEnd d).phase = .spring ∧ (thawEnd d).key.step = 10 ∧
    (thawEnd d).sealing.running = true ∧ (thawEnd d).cad.running = true ∧ (thawEnd d).cad.active.isDefault = true ∧
    pHST ∈ (thawEnd d).regs.enabled ∧ (thawEnd d).fcu.hold = false := by
  unfold thawEnd
  extract_lets e
  have step : e.key.step = 10 := raiseFloor_key_step _ _ _
  obtain ⟨host, key⟩ := enableHost_keeps e
  obtain ⟨phase, sealing, cad, timetable⟩ := enterSpring_begins (enableHost e)
  have enabled := enterSpring_enabled (enableHost e)
  have ten := enterSpring_key_step (enableHost e)
  generalize enterSpring (enableHost e) = x at *
  obtain ⟨hp, hk, hs, hc, he, hh, -⟩ := linkRestore_keeps (thawPin x)
  obtain ⟨kp, kk, ks, kc, kr, released⟩ := thawPin_keeps x
  rw [hp, hk, hs, hc, he, hh, kp, kk, ks, kc, kr, released, ten, key, enabled]
  exact ⟨phase, step, sealing, cad, timetable, host, rfl⟩

/-! ## The phase during Thaw (R29) -/

@[simp] theorem thawFail_phase (step cause : Nat) (d : Die) : (thawFail step cause d).phase = d.phase := rfl
@[simp] theorem thawStep_phase (n : Nat) (d : Die) : (thawStep n d).phase = d.phase := rfl
@[simp] theorem takeMemories_phase (boot : BootReads) (d : Die) : (takeMemories boot d).phase = d.phase := rfl

@[simp] theorem raiseFloor_phase (typ svn : Nat) (d : Die) : (raiseFloor typ svn d).phase = d.phase := by
  unfold raiseFloor
  split <;> rfl

@[simp] theorem deriveKeys_phase (boot : BootReads) (d : Die) : (deriveKeys boot d).phase = d.phase := by
  unfold deriveKeys
  dsimp only
  split <;> simp

@[simp] theorem modPool_phase (blk : Nat) (f : Tiles → Tiles) (d : Die) : (modPool blk f d).phase = d.phase := by
  unfold modPool
  split <;> rfl

/-- What each step of a list leaves of the phase, the whole list leaves. -/
theorem phase_foldl {α : Type} (f : Die → α → Die) (keeps : ∀ d a, (f d a).phase = d.phase) (as : List α) (d : Die) :
    (as.foldl f d).phase = d.phase := by
  induction as generalizing d with
  | nil => rfl
  | cons a r ih => rw [List.foldl_cons, ih, keeps]

@[simp] theorem quietMove_phase (c : Nat) (d : Die) : (quietMove c d).phase = d.phase :=
  phase_foldl _ (fun _ _ => modPool_phase _ _ _) _ d

@[simp] theorem replayExt_phase (r : Bytes) (last : AMap Nat) (d : Die) : (replayExt r last d).2.phase = d.phase := by
  unfold replayExt
  dsimp only
  split
  · split
    · rfl
    · split
      · rfl
      · split <;> simp [setUnit]
  · split
    · simp [setUnit]
    · rfl
  all_goals rfl

theorem replayAll_phase (l : List Bytes) (q : AMap Nat × Die) :
    (l.foldl (fun q r => replayExt r q.1 q.2) q).2.phase = q.2.phase := by
  induction l generalizing q with
  | nil => rfl
  | cons r l ih => rw [List.foldl_cons, ih, replayExt_phase]

@[simp] theorem takeExt_phase (l : List Bytes) (d : Die) : (takeExt l d).phase = d.phase := by
  unfold takeExt
  dsimp only
  rw [updKey_phase, replayAll_phase]
  split <;> simp

@[simp] theorem takeTrust_phase (l : List (Nat × Bytes)) (d : Die) : (takeTrust l d).phase = d.phase := by
  unfold takeTrust closeWhere
  exact phase_foldl (fun d (s : Session) => closeSession s.id d) (fun _ _ => rfl) _ _

@[simp] theorem loadTrust_phase (b : Bytes) (d : Die) : (loadTrust b d).phase = d.phase := by
  unfold loadTrust
  dsimp only
  split <;> simp [refuseImage]

@[simp] theorem takeOwnerImages_phase (boot : BootReads) (d : Die) : (takeOwnerImages boot d).phase = d.phase := by
  have trust : (if boot.trustList.isEmpty then d else loadTrust boot.trustList d).phase = d.phase := by
    split <;> simp
  unfold takeOwnerImages
  dsimp only
  generalize (if boot.trustList.isEmpty then d else loadTrust boot.trustList d) = e at trust ⊢
  split
  · exact trust
  · split
    · exact (raiseFloor_phase _ _ _).trans trust
    · exact (raise_phase _ _ _).trans trust

@[simp] theorem takeResident_phase (d : Die) (b : Bytes) : (takeResident d b).phase = d.phase := by
  unfold takeResident
  split
  · rfl
  · split <;> simp [placeImage, setImage, countPerms, refuseImage]

@[simp] theorem thawLate_phase (boot : BootReads) (d : Die) : (thawLate boot d).phase = d.phase := by
  unfold thawLate
  extract_lets e
  have images : e.phase = d.phase := takeOwnerImages_phase boot d
  clear_value e
  split
  · simpa using images
  · split
    · simpa using images
    · split
      · simpa using images
      · split
        · simpa using images
        · simpa [phase_foldl] using images

@[simp] theorem recordExt_phase (kind engine index : Nat) (d : Die) : (recordExt kind engine index d).phase = d.phase := by
  unfold recordExt
  split <;> simp

@[simp] theorem thawMid_phase (boot : BootReads) (d : Die) : (thawMid boot d).phase = d.phase := by
  unfold thawMid
  dsimp only
  split
  · rfl
  · split
    · rfl
    · split
      · rfl
      · rw [thawLate_phase]
        split <;> simp [thawStep, bumpBootNo, takeFirmware]

@[simp] theorem takeTemps_phase (d : Die) : (takeTemps d).phase = d.phase := by
  have cond (b : Nat) (d : Die) : (fcuCond b d).phase = d.phase := raise_phase _ _ _
  unfold takeTemps
  simp only [apply_ite Die.phase, cond, raise_phase, ite_self]

/-- A die that is let go is in Thaw, whatever it finds. -/
theorem thaw_phase (boot : BootReads) (d : Die) : (thaw boot d).phase = .thaw := by
  unfold thaw
  dsimp only
  split
  · simp [newNonce]
  · split
    · simp [takeMap, takeUnits, takeFlash, takeStorage, newNonce]
    · simp [takeFlash, takeStorage, newNonce]

/-! ## The claims -/

theorem resetReleaseStartsThaw : Claim.ResetReleaseStartsThaw := by
  intro s d boot
  have waits (no : mayThaw s.pkg (s.die d) = false) : exec (.resetRelease d boot) s = .next s := if_neg (by simp [no])
  have runs (may : mayThaw s.pkg (s.die d) = true) : RunsTo (.resetRelease d boot) s d (thaw boot (s.die d)) := if_pos may
  refine ⟨waits, fun may bad => ⟨_, runs may, thaw_phase _ _, ?_⟩, fun may => ⟨_, runs may, thaw_phase _ _⟩⟩
  simp [thaw, bad, thawFail, faultLow]

theorem thawEndsInSpringOrFails : Claim.ThawEndsInSpringOrFails := by
  intro s d cause thawing clean free
  have going : (s.die d).phase == .thaw && (s.die d).key.cause == 0 && !(s.die d).fcu.held := by simp [thawing, clean, free]
  refine ⟨fun nine => ⟨thawEnd (s.die d), ?_, thawEnd_begins_spring _⟩,
    thawFail (stepBefore (s.die d).key.step cause.toNat) cause.toNat (s.die d), ?_, thawing, rfl, rfl⟩
  · show runDie d (thawDone true cause.toNat) s = _
    rw [runDie_eq, thawDone, if_pos going, if_pos rfl, if_pos nine]
  · show runDie d (thawDone false cause.toNat) s = _
    rw [runDie_eq, thawDone, if_pos going, if_neg Bool.false_ne_true]

theorem autumnEndsInSpringOrHolds : Claim.AutumnEndsInSpringOrHolds := by
  intro s d autumn free
  have here : (s.die d).phase == .autumn := by simp [autumn]
  have going : (s.die d).phase == .autumn && !(s.die d).fcu.held := by simp [autumn, free]
  have runs (passed : Bool) : RunsTo (.autumnReinitDone d passed) s d (linkRestore (autumnDone passed (s.die d))) := by
    show runDie d (reinitDone passed) s = _
    rw [runDie_eq, reinitDone, if_pos here]
  refine ⟨⟨_, runs true, ?_⟩, ⟨_, runs false, ?_⟩, ?_⟩
  · obtain ⟨hp, -, hs, hc, -, -, hf⟩ := linkRestore_keeps (autumnDone true (s.die d))
    rw [hp, hs, hc, hf, autumnDone, if_pos going, if_pos rfl]
    obtain ⟨phase, sealing, -, timetable⟩ := enterSpring_begins (updFcu (fun f => { f with step := 0 }) (s.die d))
    exact ⟨phase, sealing, timetable, enterSpring_fcu_step _⟩
  · have held : autumnDone false (s.die d) = updFcu (fun f => { f with held := true, hold := true }) (s.die d) := by
      rw [autumnDone, if_pos going, if_neg Bool.false_ne_true]
    have still : linkRestore (autumnDone false (s.die d)) = autumnDone false (s.die d) := by
      rw [held, linkRestore, if_neg (by simp [linkAllowed, autumn])]
    rw [still, held]
    exact ⟨autumn, rfl, by simp [faultLow]⟩
  · show runDie d autumnTimeout s = _
    rw [runDie_eq, autumnTimeout, if_pos here]
    rfl

/-- Settles O36: boot steps leave the phase alone until the last, which begins Spring; restoring the link leaves what Spring
began. -/
theorem bootAndAutumnEnd : Obligations.BootAndAutumnEnd :=
  ⟨resetReleaseStartsThaw, thawEndsInSpringOrFails, autumnEndsInSpringOrHolds⟩

end Sys2Proof.Machine
end

section
/-! SUPPORT. Soundness of a die, which every operation keeps: the die stands at its place of the package, and every shadow ledger
of it is in canonical form. One lemma for each function that changes a die, in the order of the model's files. -/

namespace Sys2Proof.Machine

/-- The die stands at a position of the package, and every shadow ledger of it is in canonical form (R414, R169). -/
def Sound (w : DieId) (d : Die) : Prop := d.which = w ∧ LedgersCanonical d

section
variable {w : DieId} {d : Die}

protected theorem Sound.same (h : Sound w d) {x : Die} (which : x.which = d.which)
    (tab : x.chn.tab = d.chn.tab) : Sound w x :=
  ⟨which.trans h.1, fun e he => h.2 e (tab ▸ he)⟩

protected theorem Sound.ite {c : Prop} [Decidable c] {x y : Die} (hx : Sound w x) (hy : Sound w y) :
    Sound w (if c then x else y) := by
  split
  · exact hx
  · exact hy

protected theorem Sound.foldl {α : Type} {f : Die → α → Die} {l : List α} (step : ∀ d a, Sound w d → Sound w (f d a))
    (h : Sound w d) : Sound w (l.foldl f d) := by
  induction l generalizing d with
  | nil => exact h
  | cons a l ih => exact ih (step d a h)

/-- A change of one channel that keeps its ledger canonical. -/
protected theorem Sound.modChan {c : Nat} {f : Chan → Chan} (h : Sound w d)
    (keeps : ∀ x, Memory.wf x.ledger = true → Memory.wf (f x).ledger = true := by exact fun _ wf => wf) :
    Sound w (modChan c f d) := by
  refine ⟨h.1, fun e he => ?_⟩
  obtain ⟨a, ha, rfl⟩ := List.mem_map.mp he
  split
  · exact keeps a.2 (h.2 a ha)
  · exact h.2 a ha

theorem memory_wf_nil : Memory.wf [] = true := rfl

protected theorem Sound.clearLedger {c : Nat} {f : Chan → Chan} (h : Sound w d)
    (clears : ∀ x, (f x).ledger = [] := by intro; rfl) : Sound w (modChan c f d) :=
  h.modChan fun x _ => by rw [clears x]; rfl

theorem mem_mset {α : Type} {m : AMap α} {k : Nat} {v : α} {e : Nat × α} (h : e ∈ mset m k v) : e = (k, v) ∨ e ∈ m := by
  induction m with
  | nil => exact .inl (List.mem_singleton.mp h)
  | cons a r ih =>
    obtain ⟨j, u⟩ := a
    simp only [mset] at h
    split at h
    · exact List.mem_cons.mp h
    · split at h
      · exact (List.mem_cons.mp h).imp_right (List.mem_cons_of_mem _)
      · rcases List.mem_cons.mp h with rfl | h
        · exact .inr List.mem_cons_self
        · exact (ih h).imp_right (List.mem_cons_of_mem _)

/-- A change of every channel that keeps its ledger canonical. -/
protected theorem Sound.mapTab {f : Chan → Chan} (h : Sound w d)
    (keeps : ∀ x, Memory.wf x.ledger = true → Memory.wf (f x).ledger = true) :
    Sound w (updChn (fun n => { n with tab := mmap n.tab f }) d) := by
  refine ⟨h.1, fun e he => ?_⟩
  obtain ⟨a, ha, rfl⟩ := List.mem_map.mp he
  exact keeps a.2 (h.2 a ha)

theorem forgetFrame_ledger (s no : Nat) (x : Chan) : (forgetFrame s no x).ledger = x.ledger := by
  unfold forgetFrame
  split_ifs
  · rfl
  · rfl
  · rfl
  · rfl

theorem regroup_ledger (t : Timetable) (c : Nat) (x : Chan) : (regroup t c x).ledger = x.ledger := by
  unfold regroup
  split
  · rfl
  · rfl

protected theorem Sound.regrouped {t : Timetable} (h : Sound w d) :
    Sound w (updChn (fun n => { n with tab := n.tab.map (fun e => (e.1, regroup t e.1 e.2)) }) d) := by
  refine ⟨h.1, fun e he => ?_⟩
  obtain ⟨a, ha, rfl⟩ := List.mem_map.mp he
  rw [regroup_ledger]
  exact h.2 a ha

protected theorem Sound.delChan {c : Nat} (h : Sound w d) :
    Sound w (updChn (fun n => { n with tab := mdel n.tab c }) d) :=
  ⟨h.1, fun e he => h.2 e (List.mem_of_mem_filter he)⟩

/-- Where a pair holds a die that is sound, so is its name in a pattern. -/
protected theorem Sound.ofSnd {α : Type} {p : α × Die} {a : α} (h : Sound w p.2) (eq : p = (a, d)) : Sound w d := by
  subst eq
  exact h

protected theorem Sound.ofFst {α : Type} {p : Die × α} {a : α} (h : Sound w p.1) (eq : p = (d, a)) : Sound w d := by
  subst eq
  exact h

/-- A die that an operation may leave is sound. -/
def SoundIf (w : DieId) (o : Option Die) : Prop := ∀ d ∈ o, Sound w d

protected theorem SoundIf.none : SoundIf w .none := fun _ hd => nomatch hd

protected theorem SoundIf.some (h : Sound w d) : SoundIf w (.some d) := by
  rintro _ ⟨⟩
  exact h

protected theorem SoundIf.ite {c : Prop} [Decidable c] {x y : Option Die} (hx : SoundIf w x) (hy : SoundIf w y) :
    SoundIf w (if c then x else y) := by
  split
  · exact hx
  · exact hy

protected theorem SoundIf.map {o : Option Die} {f : Die → Die} (h : SoundIf w o)
    (step : ∀ x, Sound w x → Sound w (f x)) : SoundIf w (o.map f) := by
  intro y hy
  obtain ⟨x, hx, rfl⟩ := Option.mem_map.mp hy
  exact step x (h x hx)

protected theorem SoundIf.getD {o : Option Die} (h : SoundIf w o) (hd : Sound w d) : Sound w (o.getD d) := by
  cases o with
  | none => exact hd
  | some x => exact h x rfl

/-- The two dies of a package are sound, each at its place. -/
def SoundPair (w v : DieId) (p : Die × Die) : Prop := Sound w p.1 ∧ Sound v p.2

protected theorem SoundPair.ite {v : DieId} {c : Prop} [Decidable c] {x y : Die × Die} (hx : SoundPair w v x)
    (hy : SoundPair w v y) : SoundPair w v (if c then x else y) := by
  split
  · exact hx
  · exact hy

/-! ## The operations, by the file of the model that defines them -/

/-! ### Ops -/

protected theorem Sound.updRegs {f} (h : Sound w d) : Sound w (updRegs f d) := h.same rfl rfl

protected theorem Sound.updFcu {f} (h : Sound w d) : Sound w (updFcu f d) := h.same rfl rfl

protected theorem Sound.updMem {f} (h : Sound w d) : Sound w (updMem f d) := h.same rfl rfl

protected theorem Sound.updWlk {f} (h : Sound w d) : Sound w (updWlk f d) := h.same rfl rfl

protected theorem Sound.updWrd {f} (h : Sound w d) : Sound w (updWrd f d) := h.same rfl rfl

protected theorem Sound.updRat {f} (h : Sound w d) : Sound w (updRat f d) := h.same rfl rfl

protected theorem Sound.updAdm {f} (h : Sound w d) : Sound w (updAdm f d) := h.same rfl rfl

protected theorem Sound.updCad {f} (h : Sound w d) : Sound w (updCad f d) := h.same rfl rfl

protected theorem Sound.updSealing {f} (h : Sound w d) : Sound w (updSealing f d) := h.same rfl rfl

protected theorem Sound.updVp {f} (h : Sound w d) : Sound w (updVp f d) := h.same rfl rfl

protected theorem Sound.updSpk {f} (h : Sound w d) : Sound w (updSpk f d) := h.same rfl rfl

protected theorem Sound.updDbg {f} (h : Sound w d) : Sound w (updDbg f d) := h.same rfl rfl

protected theorem Sound.updTim {f} (h : Sound w d) : Sound w (updTim f d) := h.same rfl rfl

protected theorem Sound.updHst {f} (h : Sound w d) : Sound w (updHst f d) := h.same rfl rfl

protected theorem Sound.updKey {f} (h : Sound w d) : Sound w (updKey f d) := h.same rfl rfl

protected theorem Sound.updSnt {f} (h : Sound w d) : Sound w (updSnt f d) := h.same rfl rfl

protected theorem Sound.updIng {f} (h : Sound w d) : Sound w (updIng f d) := h.same rfl rfl

protected theorem Sound.updWdn {f} (h : Sound w d) : Sound w (updWdn f d) := h.same rfl rfl

protected theorem Sound.updPel {f} (h : Sound w d) : Sound w (updPel f d) := h.same rfl rfl

protected theorem Sound.releaseExtents {kind owner} (h : Sound w d) : Sound w (releaseExtents kind owner d) :=
  h.same rfl rfl

protected theorem Sound.emit {o} (h : Sound w d) : Sound w (emit o d) := h.same rfl rfl

protected theorem Sound.drew (h : Sound w d) : Sound w (drew d) := h.same rfl rfl

protected theorem Sound.setField {sel page off lo v} (h : Sound w d) : Sound w (setField sel page off lo v d) :=
  h.same rfl rfl

protected theorem Sound.count {page off} (h : Sound w d) : Sound w (count page off d) := h.same rfl rfl

protected theorem Sound.countN {page off n} (h : Sound w d) : Sound w (countN page off n d) := h.same rfl rfl

protected theorem Sound.peak {page off v} (h : Sound w d) : Sound w (peak page off v d) := h.same rfl rfl

protected theorem Sound.setCap {page off v} (h : Sound w d) : Sound w (setCap page off v d) := h.same rfl rfl

protected theorem Sound.setErrPage {page e} (h : Sound w d) : Sound w (setErrPage page e d) := h.same rfl rfl

protected theorem Sound.raiseBit {page forced bit} (h : Sound w d) : Sound w (raiseBit page forced d bit) := by
  unfold raiseBit
  dsimp only
  exact .ite (.ite (.setErrPage h) h) (h.same rfl rfl)

protected theorem Sound.raiseAll {page bits forced} (h : Sound w d) : Sound w (raiseAll page bits forced d) :=
  .ite h (.foldl (fun _ _ => .raiseBit) h)

protected theorem Sound.raise {page bit} (h : Sound w d) : Sound w (raise page bit d) := .raiseAll h

protected theorem Sound.clearErr {page mask} (h : Sound w d) : Sound w (clearErr page mask d) := h.same rfl rfl

protected theorem Sound.modPipe {n f} (h : Sound w d) : Sound w (modPipe n f d) := h.same rfl rfl

/-! ### Egress -/

protected theorem Sound.peerDrop (h : Sound w d) : Sound w (peerDrop d) := .raise (.count h)

protected theorem Sound.leave {w0 v} (h : Sound w d) : Sound w (leave w0 v d) := by
  unfold leave
  split
  · split
    · exact .ite (.emit (.count h)) (.emit (.updHst (.count h)))
    · dsimp only
      split
      · exact .emit (.count h)
      · exact .emit (.count h)
  · exact .ite (.peerDrop h) h

protected theorem Sound.serve {until_ k s} (h : Sound w d) : Sound w (serve until_ k s d) := by
  induction k generalizing s d with
  | zero => exact h
  | succ k ih =>
    unfold serve
    split
    · exact h
    · split
      · split
        · exact ih (.leave (.updHst h))
        · exact h
      · split
        · exact ih h
        · exact h

protected theorem Sound.serveTo {until_} (h : Sound w d) : Sound w (serveTo until_ d) := .serve h

protected theorem Sound.switchBank {t} (h : Sound w d) : Sound w (switchBank t d) := h.same rfl rfl

protected theorem Sound.flushEgress (h : Sound w d) : Sound w (flushEgress d) := by
  unfold flushEgress
  split
  · exact .ite (.serveTo (.switchBank (.serveTo h))) (.serveTo h)
  · exact .serveTo h

protected theorem Sound.enqueueFrame {w0} (h : Sound w d) : Sound w (enqueueFrame w0 d) := h.same rfl rfl

protected theorem Sound.replicate {cls b} (h : Sound w d) : Sound w (replicate cls b d) := by
  unfold replicate
  extract_lets _ d1 d2
  have hd2 : Sound w d2 := .ite (.enqueueFrame (.updHst h)) (.peerDrop (.updHst h))
  exact .ite (.updHst hd2) (.peerDrop hd2)

protected theorem Sound.sendRaw {cls b} (h : Sound w d) : Sound w (sendRaw cls b d) :=
  .ite (.ite (.flushEgress (.replicate h)) (.ite (.flushEgress (.enqueueFrame h)) h)) h

protected theorem Sound.fetchCopies {peer} (h : Sound w d) : Sound w (fetchCopies peer d) :=
  .foldl (fun _ _ h2 => .ite (.enqueueFrame h2) (.peerDrop h2)) (.updHst h)

protected theorem Sound.qciTake {vid pcp n} (h : Sound w d) : Sound w (qciTake vid pcp n d).2 := by
  unfold qciTake
  dsimp only
  split
  · exact .updHst h
  · exact .raise (.count h)

protected theorem Sound.recover {seq} (h : Sound w d) : Sound w (recover seq d).2 := by
  unfold recover
  dsimp only
  split
  · exact .updHst h
  · split
    · exact h
    · split
      · exact .count h
      · split
        · exact .updHst h
        · exact .updHst h

protected theorem Sound.hostTake {vid pcp n rtag viaPeer} (h : Sound w d) :
    Sound w (hostTake vid pcp n rtag viaPeer d).2 := by
  have taken : Sound w (qciTake vid pcp n (Machine.count pHST 0x078 d)).2 := .qciTake (.count h)
  unfold hostTake
  by_cases shut : (!(d.regs.enabled.contains pHST &&
      (if viaPeer then d.hst.peerPath && d.hst.peerLink else d.hst.linkUp))) = true
  · rw [if_pos shut]
    exact h
  · rw [if_neg shut]
    split
    · next eq => exact taken.ofSnd eq
    · next eq =>
      split
      · split
        · exact (taken.ofSnd eq).recover
        · exact taken.ofSnd eq
      · exact taken.ofSnd eq

protected theorem Sound.hostLink {up} (h : Sound w d) : Sound w (hostLink up d) :=
  .ite (.raise (.updHst h)) (.ite (.flushEgress (.updHst (.updHst h))) (.updHst h))

protected theorem Sound.qbvSwap (h : Sound w d) : Sound w (qbvSwap d) := h.same rfl rfl

protected theorem Sound.gateIntervalEnd {peer} (h : Sound w d) : Sound w (gateIntervalEnd peer d) :=
  .flushEgress (.updTim (.fetchCopies h))

protected theorem Sound.recoveryReset (h : Sound w d) : Sound w (recoveryReset d) := h.same rfl rfl

protected theorem Sound.tickDie {peer} (h : Sound w d) : Sound w (tickDie peer d) :=
  .ite h (.flushEgress (.fetchCopies (h.same rfl rfl)))

/-! ### Frames -/

protected theorem Sound.modSession {id f} (h : Sound w d) : Sound w (modSession id f d) := h.same rfl rfl

protected theorem Sound.sendFrame {id typ status flags ref offset payload} (h : Sound w d) :
    Sound w (sendFrame id typ status flags ref offset payload d) := by
  unfold sendFrame
  split
  · exact h
  · exact .sendRaw (.modSession h)

protected theorem Sound.answer {cls id seq status flags offset payload} (h : Sound w d) :
    Sound w (answer cls id seq status flags offset payload d) := by
  unfold answer
  split
  · exact h
  · exact .sendRaw (.modSession h)

protected theorem Sound.sendResult {id seq status offset payload} (h : Sound w d) :
    Sound w (sendResult id seq status offset payload d) := .answer h

protected theorem Sound.sendEvent {code data} (h : Sound w d) : Sound w (sendEvent code data d) :=
  .foldl (fun _ _ => .sendFrame) h

protected theorem Sound.sendSeal {no msg} (h : Sound w d) : Sound w (sendSeal no msg d) :=
  .foldl (fun _ _ h1 => .foldl (fun _ _ => .sendFrame) h1) h

protected theorem Sound.enterPhase {p} (h : Sound w d) : Sound w (enterPhase p d) :=
  .ite h (.sendEvent (h.same rfl rfl))

/-! ### Chans -/

protected theorem Sound.setChan {c : Nat} {x : Chan} (h : Sound w d) (hx : Memory.wf x.ledger = true := by rfl) :
    Sound w (setChan c x d) := by
  refine ⟨h.1, fun e he => ?_⟩
  rcases mem_mset he with rfl | he
  · exact hx
  · exact h.2 e he

protected theorem Sound.modArr {c f} (h : Sound w d) : Sound w (modArr c f d) := .modChan h

protected theorem Sound.modTicket {serial f} (h : Sound w d) : Sound w (modTicket serial f d) := h.same rfl rfl

protected theorem Sound.dropTicket {serial} (h : Sound w d) : Sound w (dropTicket serial d) := h.same rfl rfl

protected theorem Sound.setRatchet {r x} (h : Sound w d) : Sound w (setRatchet r x d) := h.same rfl rfl

protected theorem Sound.raiseRat {owner r v} (h : Sound w d) : Sound w (raiseRat owner r v d) :=
  .ite (.raise (.count h)) (.ite (.raise (.setRatchet h)) (.setRatchet h))

/-! ### Seals -/

protected theorem Sound.countPerms {bytes} (h : Sound w d) : Sound w (countPerms bytes d) := h.same rfl rfl

protected theorem Sound.noteTime (h : Sound w d) : Sound w (noteTime d) := h.same rfl rfl

protected theorem Sound.startPeriod (h : Sound w d) : Sound w (startPeriod d) :=
  .ite (.raise (.updSealing h)) (.updSealing h)

protected theorem Sound.closePeriod {cut} (h : Sound w d) : Sound w (closePeriod cut d) :=
  .ite (.updSealing (.peak (.countN (.countPerms h)))) h

protected theorem Sound.turnPeriod {cut} (h : Sound w d) : Sound w (turnPeriod cut d) :=
  .ite (.startPeriod (.closePeriod h)) h

protected theorem Sound.turnDue (h : Sound w d) : Sound w (turnDue d) := .ite (.turnPeriod h) h

protected theorem Sound.sealsWithin {advance k n} (h : Sound w d) : Sound w (sealsWithin advance k n d) := by
  induction k generalizing n d with
  | zero => exact h
  | succ k ih => exact .ite (ih (.turnPeriod (.updTim h))) h

protected theorem Sound.passSealed {n} (h : Sound w d) : Sound w (passSealed n d) := .updTim (.sealsWithin (.turnDue h))

protected theorem Sound.toCommit (h : Sound w d) : Sound w (toCommit d) := by
  unfold toCommit
  split
  · exact .ite (.passSealed h) h
  · exact h

protected theorem Sound.addLeaf {l} (h : Sound w d) : Sound w (addLeaf l d) := by
  unfold addLeaf
  extract_lets d1 _ d2
  have hd2 : Sound w d2 := .countN (.updSealing (.turnDue h))
  exact .ite (.ite (.turnPeriod hd2) hd2) (.turnDue h)

protected theorem Sound.dropBody {no} (h : Sound w d) : Sound w (dropBody no d) :=
  .ite (.sendEvent (.raise (.count (.updSealing h)))) h

protected theorem Sound.fitBodies {fuel} (h : Sound w d) : Sound w (fitBodies fuel d) := by
  induction fuel generalizing d with
  | zero => exact h
  | succ fuel ih =>
    unfold fitBodies
    split
    · exact h
    · split
      · exact h
      · exact ih (.dropBody h)

protected theorem Sound.releaseSeal {w0} (h : Sound w d) : Sound w (releaseSeal w0 d) :=
  .sendSeal (.fitBodies (.updSealing (.countPerms (.count h))))

protected theorem Sound.retireEngine {e} (h : Sound w d) : Sound w (retireEngine e d) :=
  .ite (.ite (.raise (.raise (.updSealing (h.same rfl rfl)))) (.raise (.updSealing (h.same rfl rfl)))) h

protected theorem Sound.failEngine (h : Sound w d) : Sound w (failEngine d) := by
  unfold failEngine
  split
  · exact h
  · exact .ite (.retireEngine (.updSealing (h.same rfl rfl))) (.updSealing (h.same rfl rfl))

protected theorem Sound.sealSigned {codeOk verifyOk} (h : Sound w d) : Sound w (sealSigned codeOk verifyOk d) := by
  unfold sealSigned
  split
  · exact h
  · split
    · exact h
    · split
      · exact .failEngine (.raise h)
      · extract_lets _ e
        have he : Sound w e := .ite (.count h) h
        exact .ite (.failEngine (.raise (.count he))) (.releaseSeal (.updSealing he))

protected theorem Sound.sealBoundary (h : Sound w d) : Sound w (sealBoundary d) := .ite (.turnPeriod h) h

protected theorem Sound.cmdRetireEngine {e} (h : Sound w d) : Sound w (cmdRetireEngine e d) := .ite (.retireEngine h) h

/-! ### Messages -/

protected theorem Sound.sendSpoke {typ sub chan a b c cause d1 d2} (h : Sound w d) :
    Sound w (sendSpoke typ sub chan a b c cause d1 d2 d) := h.same rfl rfl

protected theorem Sound.modPort {p f} (h : Sound w d) : Sound w (modPort p f d) := h.same rfl rfl

protected theorem Sound.pelOut {p bytes} (h : Sound w d) : Sound w (pelOut p bytes d) := .ite (.emit (.count h)) h

protected theorem Sound.pelNext (h : Sound w d) : Sound w (pelNext d) := h.same rfl rfl

protected theorem Sound.sendNbr {typ p body} (h : Sound w d) : Sound w (sendNbr typ p body d) := .pelOut (.pelNext h)

protected theorem Sound.floodBut {typ but body} (h : Sound w d) : Sound w (floodBut typ but body d) :=
  .foldl (fun _ _ => .pelOut) (.pelNext h)

protected theorem Sound.sendNode {typ dst key body} (h : Sound w d) : Sound w (sendNode typ dst key body d) := by
  unfold sendNode
  split
  · exact .raise h
  · exact .pelOut (.pelNext h)

protected theorem Sound.sendBoundary {c pos dig} (h : Sound w d) : Sound w (sendBoundary c pos dig d) := by
  unfold sendBoundary
  split
  · exact h
  · split
    · exact .sendNode h
    · exact h

/-! ### Verdicts -/

protected theorem Sound.modModel {slot f} (h : Sound w d) : Sound w (modModel slot f d) := h.same rfl rfl

protected theorem Sound.requestTurn {slot forced} (h : Sound w d) : Sound w (requestTurn slot forced d) := by
  unfold requestTurn
  split
  · exact h
  · split
    · exact h
    · split
      · exact .ite (.sendSpoke (.updAdm (.modModel h))) (.updAdm (.modModel h))
      · exact .modModel (.updAdm h)
      · exact h

protected theorem Sound.freeOldMonth {slot} (h : Sound w d) : Sound w (freeOldMonth slot d) := h.same rfl rfl

protected theorem Sound.declare {serial v} (h : Sound w d) : Sound w (declare serial v d) := by
  unfold declare
  split
  · exact h
  · exact .ite h (.sendSpoke (.count (.modTicket h)))

protected theorem Sound.loseCoupled (h : Sound w d) : Sound w (loseCoupled d) := h.same rfl rfl

protected theorem Sound.bumpLedger {set c} (h : Sound w d) : Sound w (bumpLedger set c d) := by
  unfold bumpLedger
  dsimp only
  split
  · exact h
  · exact .ite (.raise h) (.ite (.raiseRat (.modChan h)) (.modChan h))

protected theorem Sound.markLedger {b} (h : Sound w d) : Sound w (markLedger b d) := by
  unfold markLedger
  dsimp only
  split
  · exact h
  · exact .ite h (.bumpLedger (.modChan h))

protected theorem Sound.lowerLedger {c pos} (h : Sound w d) : Sound w (lowerLedger c pos d) :=
  .ite (.ite h (.bumpLedger (.modChan h))) h

protected theorem Sound.writeRing {c record} (h : Sound w d) : Sound w (writeRing c record d) :=
  .ite (.raise (.count (.modChan h))) (.modChan h)

protected theorem Sound.capture {channel e} (h : Sound w d) : Sound w (capture channel e d) := by
  unfold capture
  extract_lets _ d1 d2
  have hd2 : Sound w d2 := .setCap (.setCap (.setCap h))
  exact .ite (.ite hd2 (.setCap hd2)) h

protected theorem Sound.tellWarden {e} (h : Sound w d) : Sound w (tellWarden e d) := h.same rfl rfl

protected theorem Sound.sendPermit {b} (h : Sound w d) : Sound w (sendPermit b d) :=
  .ite (.tellWarden (.setCap (.count h))) h

protected theorem Sound.canaryDone {b verdict} (h : Sound w d) : Sound w (canaryDone b verdict d) := by
  unfold canaryDone
  split
  · extract_lets _ _ d1 _ d2
    have hd2 : Sound w d2 := .raise (.count (.updCad (.modChan h)))
    exact .ite (.modChan h) (.ite (.ite (.raise (.modChan hd2)) hd2) (.updCad (.modChan h)))
  · exact h

protected theorem Sound.sendBoundaries {b pass} (h : Sound w d) : Sound w (sendBoundaries b pass d) := by
  unfold sendBoundaries
  split
  · exact .foldl (fun _ _ => .sendBoundary) h
  · exact h

protected theorem Sound.freeFrames {b} (h : Sound w d) : Sound w (freeFrames b d) := h.same rfl rfl

protected theorem Sound.noteSlot {b} (h : Sound w d) : Sound w (noteSlot b d) := .ite (.modChan h) h

protected theorem Sound.endCapture {serial} (h : Sound w d) : Sound w (endCapture serial d) :=
  .ite (.setField (.updDbg h)) h

protected theorem Sound.leaveRuns {serial} (h : Sound w d) : Sound w (leaveRuns serial d) := h.same rfl rfl

protected theorem Sound.commit {serial verdict cause ended} (h : Sound w d) :
    Sound w (commit serial verdict cause ended d) := by
  unfold commit
  split
  · exact h
  · extract_lets _ _ _ _ _ _ _ _ _ d1 _ d2 d3 d4 d5 d6 d7 d8 d9 _ d10 d11
    have hd1 : Sound w d1 := .countPerms (.countPerms (.countPerms h))
    have hd2 : Sound w d2 := .ite (.declare hd1) hd1
    have hd4 : Sound w d4 := .ite (.modChan (.markLedger hd2)) (.markLedger hd2)
    have hd5 : Sound w d5 := .writeRing (.addLeaf hd4)
    have hd6 : Sound w d6 := .ite (.foldl (fun _ _ => .capture) hd5) hd5
    have hd7 : Sound w d7 := .ite (.tellWarden hd6) hd6
    have hd8 : Sound w d8 := .ite (.sendPermit hd7) hd7
    have hd9 : Sound w d9 := .canaryDone (.freeFrames (.noteSlot (.sendBoundaries hd8)))
    have hd10 : Sound w d10 := .ite (.requestTurn hd9) hd9
    have hd11 : Sound w d11 := .endCapture (.leaveRuns (.dropTicket hd10))
    exact .ite (.freeOldMonth hd11) (.modArr (.freeOldMonth hd11))

protected theorem Sound.countCoupled {b cause} (h : Sound w d) : Sound w (countCoupled b cause d) := by
  unfold countCoupled
  split
  · extract_lets e
    have he : Sound w e := .ite (.raise (.count h)) h
    exact .ite (.raise (.count he)) he
  · exact h

protected theorem Sound.verdictNow {serial} (h : Sound w d) : Sound w (verdictNow serial d) := by
  unfold verdictNow
  split
  · exact h
  · exact .commit (.countCoupled h)

protected theorem Sound.endTicket {verdict cause serial} (h : Sound w d) :
    Sound w (endTicket verdict cause d serial) := by
  unfold endTicket
  split
  · exact h
  · exact .commit h

protected theorem Sound.dropHeld {c} (h : Sound w d) : Sound w (dropHeld c d) := h.same rfl rfl

protected theorem Sound.retireChan {endCause verdict cause c} (h : Sound w d) :
    Sound w (retireChan endCause verdict cause c d) := by
  unfold retireChan
  extract_lets _ d1 d2
  have hd1 : Sound w d1 := .foldl (fun _ _ => .endTicket) h
  have hd2 : Sound w d2 := .dropHeld (.clearLedger hd1)
  exact .ite (.ite (.tellWarden (.updCad hd2)) (.updCad hd2)) h

protected theorem Sound.retireWhere {p endCause verdict cause} (h : Sound w d) :
    Sound w (retireWhere p endCause verdict cause d) := .foldl (fun _ _ => .retireChan) h

/-! ### Timetable -/

protected theorem Sound.cadRefuse {r} (h : Sound w d) : Sound w (cadRefuse r d) := .raise (.ite (.setCap h) h)

protected theorem Sound.dropTag {tagKind tag} (h : Sound w d) : Sound w (dropTag tagKind tag d) := h.same rfl rfl

/-! ### Months -/

protected theorem Sound.rpmbQueue {w0} (h : Sound w d) : Sound w (rpmbQueue w0 d) := h.same rfl rfl

protected theorem Sound.reportSlot {slot code} (h : Sound w d) : Sound w (reportSlot slot code d) :=
  .sendEvent (.updAdm h)

protected theorem Sound.stopStream {slot} (h : Sound w d) : Sound w (stopStream slot d) := by
  unfold stopStream
  split
  · exact .ite (.updWrd (.updAdm h)) h
  · exact h

protected theorem Sound.freeSlot {slot} (h : Sound w d) : Sound w (freeSlot slot d) :=
  .releaseExtents (.dropTag (.updAdm (.updKey (.stopStream (h.same rfl rfl)))))

protected theorem Sound.clearPeer {slot} (h : Sound w d) : Sound w (clearPeer slot d) := h.same rfl rfl

protected theorem Sound.tellRefusal {slot code first} (h : Sound w d) : Sound w (tellRefusal slot code first d) :=
  .sendSpoke (.ite (.updAdm (.clearPeer h)) (.clearPeer h))

protected theorem Sound.endAdmission {slot code first} (h : Sound w d) : Sound w (endAdmission slot code first d) := by
  unfold endAdmission
  split
  · exact h
  · extract_lets e
    have he : Sound w e := .reportSlot (.freeSlot h)
    exact .ite (.tellRefusal he) he

protected theorem Sound.withdrawModel {slot} (h : Sound w d) : Sound w (withdrawModel slot d) :=
  .freeSlot (.retireWhere h)

protected theorem Sound.finishAbandoned {slot} (h : Sound w d) : Sound w (finishAbandoned slot d) := by
  unfold finishAbandoned
  split
  · split
    · exact .ite h (.reportSlot (.withdrawModel h))
    · exact h
  · exact h

protected theorem Sound.finishAll (h : Sound w d) : Sound w (finishAll d) :=
  .foldl (fun _ _ => .finishAbandoned) h

protected theorem Sound.abandonTurn {slot code} (h : Sound w d) : Sound w (abandonTurn slot code d) :=
  .finishAbandoned (.modModel (.updKey (.stopStream h)))

protected theorem Sound.failStream {slot code} (h : Sound w d) : Sound w (failStream slot code d) := by
  unfold failStream
  split
  · exact .ite (.abandonTurn h) (.endAdmission h)
  · exact h

protected theorem Sound.requestStream {slot turn} (h : Sound w d) : Sound w (requestStream slot turn d) := by
  unfold requestStream
  split
  · exact h
  · exact .ite (.updWrd (.updAdm h)) (.raiseRat (.updWrd (.updAdm h)))

protected theorem Sound.streamDone {slot} (h : Sound w d) : Sound w (streamDone slot d) := by
  unfold streamDone
  split
  · exact h
  · exact .ite (.ite (.sendSpoke (.modModel (.stopStream h))) (.modModel (.stopStream h)))
      (.ite (.ite (.endAdmission (.sendSpoke (.modModel (.stopStream h)))) (.sendSpoke (.modModel (.stopStream h))))
      (.modModel (.stopStream h)))

protected theorem Sound.buildRadio {slot turn} (h : Sound w d) : Sound w (buildRadio slot turn d) :=
  .streamDone (.modModel h)

protected theorem Sound.finishTensor {slot i bytes} (h : Sound w d) : Sound w (finishTensor slot i bytes d) := by
  unfold finishTensor
  split
  · split
    · exact h
    · exact .ite (.failStream (.countPerms h))
        (.ite (.failStream (.raise (.countPerms h)))
        (.ite (.failStream (.raise (.countPerms h)))
        (.ite (.streamDone (.updAdm (.modModel (.countPerms h)))) (.updAdm (.modModel (.countPerms h))))))
  · exact h

protected theorem Sound.buildChunk {r} (h : Sound w d) : Sound w (buildChunk d r) := by
  unfold buildChunk
  split
  · exact h
  · split
    · exact h
    · dsimp only
      split
      · exact .ite (.finishTensor (.updAdm h)) (.updAdm h)
      · exact .updAdm h

protected theorem Sound.buildChunks (h : Sound w d) : Sound w (buildChunks d) :=
  .foldl (fun _ _ => .buildChunk) (.updWrd h)

protected theorem Sound.tableHit {slot} (h : Sound w d) : Sound w (tableHit slot d) := by
  unfold tableHit
  split
  · exact h
  · exact .ite h (.ite (.failStream h) (.ite (.requestStream (.modModel h)) (.modModel h)))

protected theorem Sound.streamStart (h : Sound w d) : Sound w (streamStart d) := by
  unfold streamStart
  split
  · split
    · exact .ite (.streamDone (.requestStream (.modModel h))) (.requestStream (.modModel h))
    · exact h
  · exact h

protected theorem Sound.turnStart {slot} (h : Sound w d) : Sound w (turnStart slot d) := by
  unfold turnStart
  split
  · split
    · exact .ite (.requestStream (.modModel h))
        (.ite (.abandonTurn (.raise (.modModel (.updAdm h)))) (.rpmbQueue (.modModel (.updAdm h))))
    · exact h
  · exact h

protected theorem Sound.monthConfirmed {slot turn} (h : Sound w d) : Sound w (monthConfirmed slot turn d) := by
  unfold monthConfirmed
  dsimp only
  split
  · split
    · exact .ite (.streamDone (.requestStream (.modModel (.updKey h)))) (.requestStream (.modModel (.updKey h)))
    · exact .modModel (.updKey h)
  · exact .modModel (.updKey h)

protected theorem Sound.monthsSpent (h : Sound w d) : Sound w (monthsSpent d) := by
  unfold monthsSpent
  refine .ite (.foldl (fun d a hd => ?_) h) h
  split
  · exact .endAdmission (.raise hd)
  · exact .abandonTurn (.raise hd)
  · exact hd

protected theorem Sound.rpmbConfirm (h : Sound w d) : Sound w (rpmbConfirm d) := by
  unfold rpmbConfirm
  refine .monthsSpent ?_
  split
  · exact h
  · extract_lets d1
    have left : Sound w d1 := .count (.updKey h)
    split
    · exact .monthConfirmed left
    · exact .monthConfirmed left
    · exact .updKey left
    · exact .sendResult (.updKey left)

protected theorem Sound.rpmbTimeout (h : Sound w d) : Sound w (rpmbTimeout d) := by
  unfold rpmbTimeout
  split
  · exact .endAdmission h
  · exact h

protected theorem Sound.loadTimeout (h : Sound w d) : Sound w (loadTimeout d) := by
  unfold loadTimeout
  split
  · exact h
  · split
    · exact h
    · exact .ite (.failStream h) h

protected theorem Sound.monthExpiry {slot} (h : Sound w d) : Sound w (monthExpiry slot d) := by
  unfold monthExpiry
  split
  · exact .ite (.requestTurn h) h
  · exact h

protected theorem Sound.monthsBoundary (h : Sound w d) : Sound w (monthsBoundary d) := by
  refine Sound.foldl (fun d slot hd => ?_) h
  dsimp only
  split
  · exact hd
  · exact .ite (.reportSlot (.modModel hd)) (.ite (.freeOldMonth (.modModel hd)) (.finishAbandoned hd))

protected theorem Sound.admitOn {req man image session peer} (h : Sound w d) :
    Sound w (admitOn req man image session peer d).2 := by
  unfold admitOn
  extract_lets q tell
  have told (code : Nat) {x : Die} (hx : Sound w x) : Sound w (tell code x) := .ite (.tellRefusal hx) hx
  split
  · exact h
  · split
    · exact .tellRefusal h
    · split
      · exact told 15 h
      · split
        · split
          · exact told 13 (.raise h)
          · exact .rpmbQueue (.updCad (.updAdm (.clearPeer h)))
        · refine told _ ?_
          split
          · exact .cadRefuse h
          · exact h

protected theorem Sound.spokeAdmitOn {m peer} (h : Sound w d) : Sound w (spokeAdmitOn m peer d) := by
  unfold spokeAdmitOn
  split
  · dsimp only
    split
    · exact .ite (.ite (.modModel h) (.endAdmission h)) (.ite (.clearPeer h) h)
    · exact .ite (.ite h (.updAdm h)) (.ite (.clearPeer h) (.updAdm (.clearPeer h)))
  · exact h

protected theorem Sound.spokeTurnOn {m} (h : Sound w d) : Sound w (spokeTurnOn m d) := by
  unfold spokeTurnOn
  split
  · dsimp only
    split
    · exact .ite h (.ite (.requestTurn h) (.ite (.modModel h) h))
    · exact h
  · exact h

protected theorem Sound.spokeDown (h : Sound w d) : Sound w (spokeDown d) :=
  .updAdm (.foldl (fun _ _ => .endAdmission) (.updTim (.loseCoupled (.updSpk h))))

protected theorem Sound.spokeTimeout (h : Sound w d) : Sound w (spokeTimeout d) := .spokeDown (.raise h)

protected theorem Sound.spokeTake {m : SpokeMsg} {f : Die → Die} (hf : ∀ x, Sound w x → Sound w (f x)) (h : Sound w d) :
    Sound w (spokeTake m f d) := by
  unfold spokeTake
  extract_lets d1 d2
  have hd1 : Sound w d1 := .ite h (.raise h)
  have hd2 : Sound w d2 := .ite (.count hd1) hd1
  exact .ite (hf _ (.updSpk hd1)) (.ite (.raise (.updSpk hd2)) (.spokeTimeout hd1))

/-! ### Fault -/

protected theorem Sound.changePhase {p} (h : Sound w d) : Sound w (changePhase p d) :=
  .ite h (.sendSpoke (.enterPhase h))

protected theorem Sound.firmwareTimetable (h : Sound w d) : Sound w (firmwareTimetable d) := h.same rfl rfl

protected theorem Sound.settlePhase (h : Sound w d) : Sound w (settlePhase d) :=
  .ite (.changePhase h) (.ite (.firmwareTimetable (.changePhase h)) h)

protected theorem Sound.blkErrClear {page v} (h : Sound w d) : Sound w (blkErrClear page v d) :=
  .foldl (fun _ _ => .clearErr) h

protected theorem Sound.newNonce (h : Sound w d) : Sound w (newNonce d) := h.same rfl rfl

protected theorem Sound.setDebug {v} (h : Sound w d) : Sound w (setDebug v d) :=
  .sendEvent (.raise (.newNonce (.updKey h)))

protected theorem Sound.loseWatched (h : Sound w d) : Sound w (loseWatched d) := .foldl (fun _ _ => .tellWarden) h

protected theorem Sound.loseFrame {s no} (h : Sound w d) : Sound w (loseFrame s no d) := by
  refine Sound.updIng (Sound.mapTab (.raise (.count h)) fun x wf => ?_)
  rw [forgetFrame_ledger]
  exact wf

protected theorem Sound.loseFrames {l} (h : Sound w d) : Sound w (loseFrames l d) :=
  .foldl (fun _ _ => .loseFrame) h

protected theorem Sound.loseDown (h : Sound w d) : Sound w (loseDown d) := .updIng (.updWlk (.loseFrames (.countN h)))

protected theorem Sound.autumnDrop (h : Sound w d) : Sound w (autumnDrop d) := by
  have hd : Sound w (Machine.loseDown d) := .loseDown h
  refine ⟨hd.1, fun e he => ?_⟩
  obtain ⟨a, -, rfl⟩ := List.mem_map.mp he
  dsimp only
  split
  · rfl
  · rfl

protected theorem Sound.enterAutumn {src} (h : Sound w d) : Sound w (enterAutumn src d) := by
  unfold enterAutumn
  extract_lets _ d1 d2 d3
  have hd1 : Sound w d1 := .updSealing (.closePeriod h)
  have hd3 : Sound w d3 := .ite (.updFcu hd1) (.setDebug (.updFcu hd1))
  exact .autumnDrop (.loseWatched (.changePhase hd3))

protected theorem Sound.autumnTimeout (h : Sound w d) : Sound w (autumnTimeout d) := .ite (.updFcu h) h

protected theorem Sound.enterSpring (h : Sound w d) : Sound w (enterSpring d) :=
  .startPeriod (.firmwareTimetable (.changePhase h))

protected theorem Sound.autumnDone {passed} (h : Sound w d) : Sound w (autumnDone passed d) :=
  .ite (.ite (.enterSpring (.updFcu h)) (.updFcu h)) h

protected theorem Sound.latchOne {e} (h : Sound w d) : Sound w (latchOne d e) := by
  unfold latchOne
  extract_lets _ d1 d2 _ d3 d4
  have hd2 : Sound w d2 := .count (.updFcu h)
  have hd4 : Sound w d4 := .ite (.sendEvent (.updFcu hd2)) (.updFcu hd2)
  exact .ite (.tellWarden hd4) hd4

protected theorem Sound.captureAll {events firstHere} (h : Sound w d) : Sound w (captureAll d events firstHere) := by
  induction events generalizing firstHere d with
  | nil => exact h
  | cons e r ih => exact .ite (ih (.updFcu h)) (.ite (ih (.updFcu h)) (ih (.count h)))

protected theorem Sound.s4React {evs} (h : Sound w d) : Sound w (s4React evs d) := by
  unfold s4React
  split
  · exact h
  · split
    · exact .enterAutumn h
    · exact .enterAutumn h
    · exact .ite (.autumnDrop h) h
    · exact .ite (.updFcu h) h
    · exact h

protected theorem Sound.fcuLatch (h : Sound w d) : Sound w (fcuLatch d) :=
  .s4React (.foldl (fun _ _ => .latchOne) (.captureAll (.updFcu h)))

protected theorem Sound.srcClear {hi v} (h : Sound w d) : Sound w (srcClear hi v d) :=
  .foldl (fun _ _ h1 => .ite (.updFcu h1) h1) h

protected theorem Sound.writeMask {page v} (h : Sound w d) : Sound w (writeMask page v d) := h.same rfl rfl

protected theorem Sound.applyForm (h : Sound w d) : Sound w (applyForm d) := .ite h (.ite h (.updFcu h))

protected theorem Sound.releasePin (h : Sound w d) : Sound w (releasePin d) := .ite (.applyForm (.updFcu h)) h

protected theorem Sound.fcuAck {v} (h : Sound w d) : Sound w (fcuAck v d) :=
  .ite (.ite (.ite h (.applyForm (.updFcu h))) (.ite h (.releasePin (.updFcu h)))) h

protected theorem Sound.minPulseExpiry (h : Sound w d) : Sound w (minPulseExpiry d) := .releasePin (.updFcu h)

protected theorem Sound.halfPeriod (h : Sound w d) : Sound w (halfPeriod d) := .ite (.updFcu h) h

protected theorem Sound.fcuCond {bit} (h : Sound w d) : Sound w (fcuCond bit d) := .raise h

protected theorem Sound.fabricStall (h : Sound w d) : Sound w (fabricStall d) := .ite h (.fcuCond (.updFcu h))

protected theorem Sound.fabricBeat (h : Sound w d) : Sound w (fabricBeat d) := h.same rfl rfl

protected theorem Sound.junction {t} (h : Sound w d) : Sound w (junction t d) := by
  unfold junction
  extract_lets _ _ d1 d2
  have hd2 : Sound w d2 := .ite (.fcuCond (.updFcu h)) (.updFcu h)
  exact .ite (.fcuCond hd2) hd2

protected theorem Sound.hbmTemp {t} (h : Sound w d) : Sound w (hbmTemp t d) := .ite (.raise (.updMem h)) (.updMem h)

/-! ### Link -/

protected theorem Sound.sendFlit {half ftype vc fseq units payload} (h : Sound w d) :
    Sound w (sendFlit half ftype vc fseq units payload d) := h.same rfl rfl

protected theorem Sound.consume {vc n} (h : Sound w d) : Sound w (consume vc n d) := h.same rfl rfl

protected theorem Sound.consumePart {vc} (h : Sound w d) : Sound w (consumePart vc d) := h.same rfl rfl

protected theorem Sound.dropTail {vc keep} (h : Sound w d) : Sound w (dropTail vc keep d) := h.same rfl rfl

protected theorem Sound.dropPartial (h : Sound w d) : Sound w (dropPartial d) := .foldl (fun _ _ => .dropTail) h

protected theorem Sound.linkFresh (h : Sound w d) : Sound w (linkFresh d) := .updWrd (.updWlk (.loseDown h))

protected theorem Sound.linkRestore (h : Sound w d) : Sound w (linkRestore d) := .ite (.linkFresh h) h

protected theorem Sound.linkRetire {cause} (h : Sound w d) : Sound w (linkRetire cause d) := by
  unfold linkRetire
  split
  · exact h
  · extract_lets d1 d2 d3 d4
    have hd1 : Sound w d1 := .loseDown (.updWlk h)
    have hd4 : Sound w d4 := by
      refine Sound.foldl (fun d slot hd => ?_) (.retireWhere (.ite hd1 (.raise hd1)))
      split
      · exact .ite (.endAdmission hd) (.finishAbandoned hd)
      · exact hd
    exact .settlePhase (.foldl (fun _ _ => .freeSlot) hd4)

protected theorem Sound.excludeHalves {mask} (h : Sound w d) : Sound w (excludeHalves mask d) := by
  unfold excludeHalves
  extract_lets _ _ e
  have he : Sound w e := .raise (.updWlk h)
  exact .ite h (.ite (.linkRetire he) he)

protected theorem Sound.linkRetrain {exclude} (h : Sound w d) : Sound w (linkRetrain exclude d) := by
  unfold linkRetrain
  split
  · extract_lets _ d1 d2 d3
    have hd1 : Sound w d1 := .raise (.count h)
    have hd3 : Sound w d3 := .excludeHalves (.updWlk hd1)
    exact .ite hd3 (.ite (.linkRetire hd3) (.updWlk hd3))
  · exact h

protected theorem Sound.fecOver {half} (h : Sound w d) : Sound w (fecOver half d) :=
  .ite (.excludeHalves h) (.linkRetrain h)

protected theorem Sound.enterHello (h : Sound w d) : Sound w (enterHello d) := h.same rfl rfl

protected theorem Sound.linkResync (h : Sound w d) : Sound w (linkResync d) :=
  .ite (.enterHello (.raise (.count (.updWlk h)))) h

protected theorem Sound.forcedReaction {page bit} (h : Sound w d) : Sound w (forcedReaction page d bit) :=
  .ite (.tellWarden h) (.ite (.linkResync h) (.ite (.spokeDown h) h))

protected theorem Sound.blkErrForce {page v} (h : Sound w d) : Sound w (blkErrForce page v d) :=
  .ite (.foldl (fun _ _ => .forcedReaction) (.raiseAll (.updFcu h))) h

protected theorem Sound.oweBumps (h : Sound w d) : Sound w (oweBumps d) := h.same rfl rfl

protected theorem Sound.linkUp (h : Sound w d) : Sound w (linkUp d) := .ite (.settlePhase (.oweBumps (.updWlk h))) h

protected theorem Sound.replayLost (h : Sound w d) : Sound w (replayLost d) :=
  .linkResync (.updWlk (.loseFrames (.countN (.raise h))))

protected theorem Sound.applyHeader {b} (h : Sound w d) : Sound w (applyHeader b d) := h.same rfl rfl

protected theorem Sound.takeData {b} (h : Sound w d) : Sound w (takeData b d) :=
  .ite (.ite (.linkResync (.raise (.updWlk h))) (.consume (.updWlk h))) (.ite h (.updWlk h))

protected theorem Sound.peerFresh (h : Sound w d) : Sound w (peerFresh d) :=
  .foldl (fun _ _ => .endTicket) (.dropPartial (.updWlk h))

protected theorem Sound.takeHello {p} (h : Sound w d) : Sound w (takeHello p d) :=
  .ite (.updWlk h)
    (.ite (.updWlk h) (.ite (.updWlk (.ite (.peerFresh (.excludeHalves h)) (.excludeHalves h))) (.excludeHalves h)))

protected theorem Sound.fecCounted {f} (h : Sound w d) : Sound w (fecCounted f d) := .ite h (.countN (.countN h))

protected theorem Sound.rxFlit {f} (h : Sound w d) : Sound w (rxFlit f d) := by
  unfold rxFlit
  extract_lets d1 _ _ d2 _ d3 d4 d5
  have hd2 : Sound w d2 := .updWlk (.fecCounted h)
  have hd3 : Sound w d3 := .raise (.count (.updWlk hd2))
  have hd4 : Sound w d4 := .ite (.takeHello hd2) hd2
  have hd5 : Sound w d5 := .ite (.ite (.linkUp (.updWlk hd4)) hd4) (.applyHeader hd2)
  exact .ite (.ite (.ite (.linkRetrain hd3) hd3) (.ite (.ite (.takeData hd5) (.updWlk hd5)) hd5)) (.fecCounted h)

protected theorem Sound.sendNew {half vc payload frames} (h : Sound w d) :
    Sound w (sendNew half vc payload frames d) := h.same rfl rfl

protected theorem Sound.flitSlot {half replayEcc} (h : Sound w d) : Sound w (flitSlot half replayEcc d) := by
  unfold flitSlot
  dsimp only
  split
  · exact h
  · split
    · exact .sendFlit h
    · split
      · split
        · exact .ite (.replayLost h) (.sendFlit (.updWlk h))
        · exact .ite (.sendFlit h) (.ite (.sendNew (.updWlk h)) (.ite (.sendNew (.updWlk h)) (.sendFlit h)))
      · exact h

protected theorem Sound.helloTx (h : Sound w d) : Sound w (helloTx d) := .ite (.sendFlit (.updWlk h)) h

protected theorem Sound.bumpDown {r} (h : Sound w d) : Sound w (bumpDown r d) :=
  .ite (.setRatchet (.count (.updWlk h))) h

protected theorem Sound.lanesLocked (h : Sound w d) : Sound w (lanesLocked d) := .ite (.updWlk h) h

protected theorem Sound.adaptTimeout {locked} (h : Sound w d) : Sound w (adaptTimeout locked d) :=
  .ite (.ite (.updWlk (.excludeHalves h)) (.excludeHalves h)) h

protected theorem Sound.flitLock (h : Sound w d) : Sound w (flitLock d) := .ite (.enterHello h) h

protected theorem Sound.backToAdapt {st} (h : Sound w d) : Sound w (backToAdapt st d) := .ite (.updWlk h) h

protected theorem Sound.retrainLimit (h : Sound w d) : Sound w (retrainLimit d) := .ite (.linkRetire h) h

protected theorem Sound.creditTimeout (h : Sound w d) : Sound w (creditTimeout d) := .ite (.linkResync h) h

/-! ### Memory -/

protected theorem Sound.recordExt {kind engine index} (h : Sound w d) : Sound w (recordExt kind engine index d) :=
  .ite (.raise h) (.updMem h)

protected theorem Sound.extWrite {written} (h : Sound w d) : Sound w (extWrite written d) := by
  unfold extWrite
  split
  · exact h
  · exact .ite (.updKey (.updMem h)) (.raise (.updMem h))

protected theorem Sound.memCapture {w0 synd uncorr} (h : Sound w d) : Sound w (memCapture w0 synd uncorr d) := by
  unfold memCapture
  split
  · exact .ite (.setCap h) h
  · exact .ite (.setCap (.setCap h)) h

protected theorem Sound.corrected {w0 synd} (h : Sound w d) : Sound w (corrected w0 synd d) :=
  .memCapture (.raise (.count h))

protected theorem Sound.uncorrectable {w0 synd} (h : Sound w d) : Sound w (uncorrectable w0 synd d) :=
  .memCapture (.count h)

protected theorem Sound.poisonBatch {serial} (h : Sound w d) : Sound w (poisonBatch serial d) := h.same rfl rfl

protected theorem Sound.stagingHit {serial} (h : Sound w d) : Sound w (stagingHit serial d) := by
  unfold stagingHit
  split
  · exact h
  · extract_lets e
    have he : Sound w e := .raise (.poisonBatch h)
    exact .ite he (.modArr he)

protected theorem Sound.activeHit {page bit slot month} (h : Sound w d) :
    Sound w (activeHit page bit slot month d) :=
  .requestTurn (.foldl (fun _ _ => .poisonBatch) (.modModel (.raise h)))

protected theorem Sound.tableRegion {page slot standby bit} (h : Sound w d) :
    Sound w (tableRegion page slot standby bit d) := by
  unfold tableRegion
  split
  · exact h
  · exact .ite (.tableHit (.raise h)) (.activeHit h)

protected theorem Sound.plainPoison {w0 owner} (h : Sound w d) : Sound w (plainPoison w0 owner d) := by
  unfold plainPoison
  dsimp only
  split
  · exact .updMem (.raise h)
  · exact .raise h

protected theorem Sound.poison {w0 region} (h : Sound w d) : Sound w (poison w0 region d) := by
  unfold poison
  split
  · split
    · exact .stagingHit h
    · exact .raise h
  · split
    · exact .tableRegion h
    · exact h
  · exact .tableRegion h
  · exact .lowerLedger (.raise h)
  · exact .ite (.raise h) (.ite (.plainPoison (.updCad h)) (.raise h))
  · exact .ite (.retireChan (.raise h)) (.raise h)
  · split
    · exact .poisonBatch (.raise h)
    · exact .raise h
  · exact .dropBody h
  · exact .replayLost h
  · exact .plainPoison h
  · exact .plainPoison h

protected theorem Sound.spareRow {w0 owner} (h : Sound w d) : Sound w (spareRow w0 owner d) := by
  unfold spareRow
  extract_lets _ _ d1 d2
  have hd1 : Sound w d1 := .raise (.updMem h)
  have hd2 : Sound w d2 := by
    unfold d2
    split
    · exact .updMem hd1
    · exact hd1
  exact .ite (.updMem h) (.recordExt hd2)

protected theorem Sound.evictOne (h : Sound w d) : Sound w (evictOne d) := by
  unfold evictOne
  dsimp only
  split
  · exact h
  · exact .raise (.count (.updMem h))

protected theorem Sound.track {w0 owner synd} (h : Sound w d) : Sound w (track w0 owner synd d) := by
  unfold track
  extract_lets _ _ _ _ d1 d2
  have hd2 : Sound w d2 := .ite (.evictOne h) h
  split
  · exact h
  · split
    · exact .ite (.spareRow (.raise (.count (.updMem h))))
        (.ite (.ite (.ite (.updMem h) (.updMem (.updMem h))) (.updMem h)) (.updMem h))
    · exact .ite hd2 (.updMem hd2)

protected theorem Sound.newPass {k} (h : Sound w d) : Sound w (newPass k d) := h.same rfl rfl

protected theorem Sound.caParity {failures} (h : Sound w d) : Sound w (caParity failures d) := by
  unfold caParity
  split
  · exact h
  · extract_lets e
    have he : Sound w e := .raise (.countN h)
    exact .ite (.raise he) he

protected theorem Sound.scrubRead {w0 region find first} (h : Sound w d) :
    Sound w (scrubRead w0 region find first d) := by
  unfold scrubRead
  extract_lets e
  have he : Sound w e := .ite (.newPass h) h
  split
  · exact he
  · exact .track (.corrected he)
  · exact .poison (.uncorrectable he)
  · exact .caParity he

protected theorem Sound.rowRewrite {w0} (h : Sound w d) : Sound w (rowRewrite w0 d) :=
  .ite (.raise (.count (.updMem h))) h

protected theorem Sound.spareDone {w0 verified} (h : Sound w d) : Sound w (spareDone w0 verified d) :=
  .ite (.ite (.recordExt (.raise (.count (.updMem (.updMem h))))) (.spareRow (.updMem h))) h

/-! ### Units -/

protected theorem Sound.modPool {blk f} (h : Sound w d) : Sound w (modPool blk f d) := by
  unfold modPool
  split
  · exact h.same rfl rfl
  · exact h.same rfl rfl
  · exact h.same rfl rfl
  · exact h.same rfl rfl
  · exact h.same rfl rfl
  · exact h.same rfl rfl
  · exact h

protected theorem Sound.setUnit {blk u v} (h : Sound w d) : Sound w (setUnit blk u v d) := .modPool h

protected theorem Sound.rollback {lead} (h : Sound w d) : Sound w (rollback lead d) :=
  .modPipe (.foldl (fun _ _ => .modTicket) h)

protected theorem Sound.retireGroup {lead} (h : Sound w d) : Sound w (retireGroup lead d) :=
  .modPipe (.foldl (fun _ _ => .modPipe) (.retireWhere h))

protected theorem Sound.retireMember {lead n} (h : Sound w d) : Sound w (retireMember lead n d) :=
  .foldl (fun _ _ => .modPipe) (.modPipe (.raise h))

protected theorem Sound.loseChannels {lead} (h : Sound w d) : Sound w (loseChannels lead d) :=
  .retireWhere (.retireWhere (.foldl (fun _ _ h1 => .foldl (fun _ _ => .endTicket) h1) h))

protected theorem Sound.pipeLost {blk n} (h : Sound w d) : Sound w (pipeLost blk n d) :=
  .ite (.ite h (.retireWhere (.raise h))) (.ite h (.ite (.retireMember (.ite (.raise h) h)) (.loseChannels (.raise h))))

protected theorem Sound.replaceUnit {blk l} (h : Sound w d) : Sound w (replaceUnit blk l d) := by
  unfold replaceUnit
  dsimp only
  split
  · exact .ite (.recordExt (.raise (.same (.setUnit (.modPool h)) rfl rfl))) (.ite (.pipeLost (.raise h)) (.raise h))
  · exact .ite (.pipeLost (.raise h)) (.raise h)

protected theorem Sound.retireUnit {blk u} (h : Sound w d) : Sound w (retireUnit blk u d) := by
  unfold retireUnit
  extract_lets _ d1
  have hd1 : Sound w d1 := .recordExt (.raise (.setUnit h))
  split
  · split
    · exact .replaceUnit (.ite (hd1.same rfl rfl) (.rollback (hd1.same rfl rfl)))
    · exact hd1
  · exact h

protected theorem Sound.substitutionDone {blk u passed} (h : Sound w d) :
    Sound w (substitutionDone blk u passed d) := .ite (.ite (h.same rfl rfl) (.retireUnit h)) h

protected theorem Sound.laneCode {blk u} (h : Sound w d) : Sound w (laneCode blk u d) := by
  unfold laneCode
  split
  · extract_lets _ d1
    have hd1 : Sound w d1 := .raise (.count h)
    split
    · exact .retireUnit (.modPool hd1)
    · split
      · exact .rollback (.modPool hd1)
      · exact .modPool hd1
  · exact h

protected theorem Sound.moveWork {c} (h : Sound w d) : Sound w (moveWork c d) :=
  .foldl (fun _ _ h1 => .ite (.ite (.pipeLost (.modPool h1)) (.raise (.modPool h1))) (.raise (.modPool h1))) h

protected theorem Sound.rerunServed {c} (h : Sound w d) : Sound w (rerunServed c d) :=
  .foldl (fun _ _ => .rollback) h

protected theorem Sound.retireCore {c} (h : Sound w d) : Sound w (retireCore c d) :=
  .ite (.moveWork (.rerunServed (.recordExt (.raise (.setUnit h))))) h

protected theorem Sound.coreCode {c} (h : Sound w d) : Sound w (coreCode c d) := by
  unfold coreCode
  split
  · extract_lets _ d1
    have hd1 : Sound w d1 := .raise (.count h)
    exact .ite (.retireCore (.modPool hd1)) (.rerunServed (.modPool hd1))
  · exact h

protected theorem Sound.capturePoint {lead cls member bs} (h : Sound w d) :
    Sound w (capturePoint lead cls member bs d) := .ite (.setCap h) h

protected theorem Sound.coreMismatch {lead cls delay bs} (h : Sound w d) :
    Sound w (coreMismatch lead cls delay bs d) := by
  unfold coreMismatch
  split
  · extract_lets _ d1 d2 _ _ d3
    have hd1 : Sound w d1 := .raise (.count (.capturePoint h))
    have hd2 : Sound w d2 := .ite (.raise hd1) hd1
    have hd3 : Sound w d3 := .countN (.modPipe hd2)
    exact .ite (.retireGroup (.raise hd2)) (.rollback (.foldl (fun _ _ => .modTicket) hd3))
  · exact h

protected theorem Sound.cmpDisagree {lead} (h : Sound w d) : Sound w (cmpDisagree lead d) :=
  .ite (.retireGroup (.raise h)) h

protected theorem Sound.oddOut {lead m cls bs} (h : Sound w d) : Sound w (oddOut lead m cls bs d) := by
  unfold oddOut
  extract_lets _ _ e
  have he : Sound w e := .raise (.capturePoint h)
  exact .ite (.ite (.coreMismatch h) (.ite (.retireMember he) (.modPipe he))) h

protected theorem Sound.trikeResync {lead} (h : Sound w d) : Sound w (trikeResync lead d) :=
  .ite (.foldl (fun _ _ h1 => .ite (.modPipe h1) h1) h) h

protected theorem Sound.trikeResyncDone {lead} (h : Sound w d) : Sound w (trikeResyncDone lead d) :=
  .foldl (fun _ _ h1 => .ite (.count (.modPipe h1)) h1) h

protected theorem Sound.pointFault {lead bs p} (h : Sound w d) : Sound w (pointFault lead bs d p) := by
  unfold pointFault
  split
  · exact .coreMismatch h
  · exact .coreMismatch h
  · exact .cmpDisagree h
  · exact .oddOut h

protected theorem Sound.comparePoints {lead bs pts} (h : Sound w d) : Sound w (comparePoints lead bs pts d).1 := by
  induction pts generalizing d with
  | nil => exact h
  | cons p r ih =>
    unfold comparePoints
    split
    · exact ih (.pointFault h)
    · exact .pointFault h

protected theorem Sound.physFault {blk lead run f} (h : Sound w d) : Sound w (physFault blk lead run d f) := by
  unfold physFault
  dsimp only
  split
  · exact .ite (.coreCode h) (.laneCode h)
  · split
    · exact .activeHit (.poisonBatch (.uncorrectable h))
    · exact .uncorrectable h
  · split
    · exact .activeHit (.poisonBatch (.uncorrectable h))
    · exact .uncorrectable h
  · exact .stagingHit (.uncorrectable h)
  · split
    · exact .lowerLedger (.poisonBatch (.raise (.uncorrectable h)))
    · exact .uncorrectable h
  · exact .raise (.poisonBatch (.uncorrectable h))
  · exact .corrected h
  · exact .pointFault h
  · exact .caParity h

protected theorem Sound.queueTest {blk u} (h : Sound w d) : Sound w (queueTest blk u d) := .ite h (.updCad h)

/-! ### Records -/

protected theorem Sound.depart {vc ch cause rtype seq} (h : Sound w d) : Sound w (depart vc ch cause rtype seq d) :=
  .raise (.count (.setCap (.setCap h)))

protected theorem Sound.framingLoss {vc rtype} (h : Sound w d) : Sound w (framingLoss vc rtype d) := by
  refine Sound.foldl (fun d c hd => ?_) (.raise (.updWrd h))
  dsimp only
  split
  · exact .modArr (.depart (.modTicket hd))
  · exact hd

protected theorem Sound.moveFront {vc} (h : Sound w d) : Sound w (moveFront vc d) := .ite (.consumePart h) h

protected theorem Sound.noteStaged {lead} (h : Sound w d) : Sound w (noteStaged lead d) := h.same rfl rfl

protected theorem Sound.armLog {b} (h : Sound w d) : Sound w (armLog b d) := .ite (.updDbg h) h

protected theorem Sound.tellStage {b stage} (h : Sound w d) : Sound w (tellStage b stage d) := .ite (.tellWarden h) h

protected theorem Sound.addTicket {b} (h : Sound w d) : Sound w (addTicket b d) := h.same rfl rfl

protected theorem Sound.takeTicket {c canary} (h : Sound w d) : Sound w (takeTicket c canary d) := by
  unfold takeTicket
  dsimp only
  split
  · exact h
  · exact .armLog (.modChan (.addTicket (.updSpk h)))

protected theorem Sound.logRecord {serial s} (h : Sound w d) : Sound w (logRecord serial s d) :=
  .ite (.ite (.setField (.updDbg h)) (.ite (.setField (.updDbg (.updDbg h))) (.updDbg h))) h

protected theorem Sound.closeBatch {c whole r} (h : Sound w d) : Sound w (closeBatch c whole r d) := by
  unfold closeBatch
  extract_lets _ _ _ d1 d2
  have hd1 : Sound w d1 := by
    unfold d1
    split
    · exact .tellStage (.modTicket h)
    · exact h
  have hd2 : Sound w d2 := .ite (.modArr hd1) hd1
  exact .modArr hd2

protected theorem Sound.stage {c m b rtype r} (h : Sound w d) : Sound w (stage c m b rtype r d) := by
  unfold stage
  extract_lets _ _ _ _ _ _ _ d1 d2 d3
  have hd2 : Sound w d2 := .ite (.tellStage (.modTicket h)) (.modTicket h)
  have hd3 : Sound w d3 := .logRecord (.noteStaged hd2)
  exact .ite (.closeBatch hd3) (.modArr hd3)

protected theorem Sound.departRecord {vc c cause rtype r} (h : Sound w d) :
    Sound w (departRecord vc c cause rtype r d) := by
  unfold departRecord
  extract_lets d1 d2
  have hd2 : Sound w d2 := by
    unfold d2
    split
    · exact .modTicket (.depart h)
    · exact .depart h
  exact .ite (.closeBatch hd2) (.modArr hd2)

protected theorem Sound.skipRecord {vc c rtype r} (h : Sound w d) : Sound w (skipRecord vc c rtype r d) := by
  unfold skipRecord
  extract_lets e
  have he : Sound w e := .ite (.depart h) h
  exact .ite (.closeBatch he) he

protected theorem Sound.chanRecord {rtype r} (h : Sound w d) : SoundIf w (chanRecord rtype r d) := by
  unfold chanRecord
  extract_lets vc c x ob d1 d2
  have hd1 : Sound w d1 := .ite (.modArr h) h
  have hd2 : Sound w d2 := .ite (.takeTicket hd1) hd1
  split
  · exact .some (.raise (.count h))
  · refine .ite (.some (.raise (.count h))) (.ite (.some (.skipRecord hd1)) (.ite .none ?_))
    split
    · exact .some (.departRecord hd2)
    · refine .ite .none ?_
      split
      · exact .some (.stage hd2)
      · exact .some hd2

protected theorem Sound.chunkDeparts {slot r} (h : Sound w d) : Sound w (chunkDeparts slot r d) :=
  .failStream (.ite (.departRecord h) (.depart h))

protected theorem Sound.stageChunk {lead st m r} (h : Sound w d) : Sound w (stageChunk lead st m r d) :=
  .noteStaged (.updAdm (.modArr (.updWrd h)))

protected theorem Sound.chunkRecord {r} (h : Sound w d) : SoundIf w (chunkRecord r d) := by
  unfold chunkRecord
  dsimp only
  split
  · exact .ite (.some (.skipRecord h)) (.ite (.some (.chunkDeparts h)) (.ite .none (.some (.stageChunk h))))
  · exact .ite (.chanRecord h) (.some (.depart h))

protected theorem Sound.vc2Record {rtype r} (h : Sound w d) : Sound w (vc2Record rtype r d) := by
  unfold vc2Record
  extract_lets _ _ d1
  have hd1 : Sound w d1 := .ite h (.raise (.count h))
  split
  · exact .depart (.updWrd hd1)
  · exact .ite (.raiseRat (.updWrd hd1)) (.setCap (.updWrd (.updWrd hd1)))

protected theorem Sound.heartbeatTimeout (h : Sound w d) : Sound w (heartbeatTimeout d) := .ite (.raise (.updWrd h)) h

protected theorem Sound.consumeRec {rtype r} (h : Sound w d) : Sound w (consumeRec rtype r d) := .ite (.consume h) h

protected theorem Sound.settleStream {vc fuel} (h : Sound w d) : Sound w (settleStream vc fuel d) := by
  induction fuel generalizing d with
  | zero => exact h
  | succ fuel ih =>
    exact .ite h (.ite (.ite (.updWrd h) (ih (.consume h))) (.ite h (ih (.framingLoss h))))

protected theorem Sound.settle {vc} (h : Sound w d) : Sound w (settle vc d) := .moveFront (.settleStream h)

protected theorem Sound.tryRecord {rtype r} (h : Sound w d) : SoundIf w (tryRecord rtype r d) :=
  SoundIf.map (.ite (.some (.vc2Record h)) (.ite (.chunkRecord h) (.chanRecord h))) fun _ hx => .settle (.consumeRec hx)

protected theorem Sound.noteWait {vc} (h : Sound w d) : Sound w (noteWait vc d) := by
  unfold noteWait
  split
  · exact .ite (.raise (.count (.updWrd h))) h
  · exact h

protected theorem Sound.holdRecord {rtype r} (h : Sound w d) : Sound w (holdRecord rtype r d) := h.same rfl rfl

protected theorem Sound.record {rtype r0} (h : Sound w d) : Sound w (record rtype r0 d) := by
  unfold record
  extract_lets q vc resumes d1
  have hd1 : Sound w d1 := .ite (.updWrd h) h
  refine .ite h
      (.ite (.holdRecord h) (.ite (.settle (.consumeRec hd1)) (.ite (.settle (.consumeRec (.framingLoss hd1))) ?_)))
  split
  · next eq => exact hd1.tryRecord _ eq
  · exact .noteWait (.holdRecord hd1)

protected theorem Sound.retryVc {vc fuel} (h : Sound w d) : Sound w (retryVc vc fuel d) := by
  induction fuel generalizing d with
  | zero => exact h
  | succ fuel ih =>
    unfold retryVc
    split
    · exact h
    · refine .ite (ih (.settle (.consumeRec (.framingLoss (.updWrd h))))) ?_
      split
      · next eq => exact ih ((Sound.tryRecord (.updWrd h)) _ eq)
      · exact .noteWait h

protected theorem Sound.retryHeld (h : Sound w d) : Sound w (retryHeld d) := .foldl (fun _ _ => .retryVc) h

protected theorem Sound.takeFlit {f} (h : Sound w d) : Sound w (takeFlit f d) :=
  .ite (.foldl (fun _ _ => .settle) (.rxFlit h)) (.rxFlit h)

/-! ### Ingress -/

protected theorem Sound.modStream {s f} (h : Sound w d) : Sound w (modStream s f d) := h.same rfl rfl

protected theorem Sound.noteForwarded {h0} (h : Sound w d) : Sound w (noteForwarded h0 d) := by
  unfold noteForwarded
  extract_lets d1 d2 d3
  have hd2 : Sound w d2 := .modStream (.foldl (fun _ _ => .tellWarden) h)
  have hd3 : Sound w d3 := by
    refine .ite h (.mapTab hd2 fun x wf => ?_)
    split
    · exact wf
    · exact wf
  exact .ite (.updIng hd3) hd3

protected theorem Sound.takeSentinel {c} (h : Sound w d) : Sound w (takeSentinel c d) := .modChan (.addTicket h)

protected theorem Sound.assignFrame {c h2} (h : Sound w d) : Sound w (assignFrame c d h2) := by
  unfold assignFrame
  extract_lets e
  have he : Sound w e := .ite (.takeSentinel h) h
  split
  · exact .modTicket (.updIng he)
  · exact .ite (.updIng he) he

protected theorem Sound.assignSentinel {c} (h : Sound w d) : Sound w (assignSentinel c d) :=
  .foldl (fun _ _ => .assignFrame) h

protected theorem Sound.sentinelFrame {h0} (h : Sound w d) : Sound w (sentinelFrame h0 d) :=
  .foldl (fun _ _ h1 => .assignSentinel (.modChan (.updIng h1))) h

protected theorem Sound.tapDrop {port bit} (h : Sound w d) : Sound w (tapDrop port bit d) := .raise (.count h)

protected theorem Sound.tapAccept {port s counter gap capture uncertain payload} (h : Sound w d) :
    Sound w (tapAccept port s counter gap capture uncertain payload d) := by
  unfold tapAccept
  extract_lets _ d1 d2 _ d3 _ _ _ _ _ d4 _ _ d5
  have hd1 : Sound w d1 := .count (.modStream h)
  have hd2 : Sound w d2 := .ite (.raise (.countN hd1)) hd1
  have hd3 : Sound w d3 := .ite (.raise (.count hd2)) hd2
  have hd4 : Sound w d4 := .sentinelFrame (.countPerms hd3)
  have hd5 : Sound w d5 := .ite (.count hd4) hd4
  exact .ite (.noteForwarded (.updIng hd4)) (.raise (.count hd5))

protected theorem Sound.tapMatched {port s kind f} (h : Sound w d) : Sound w (tapMatched port s kind f d) := by
  unfold tapMatched
  split
  · exact .tapDrop h
  · dsimp only
    split
    · exact .ite (.ite (.tapAccept h) (.tapDrop h)) (.tapAccept h)
    · exact .tapAccept h

protected theorem Sound.tap {port f} (h : Sound w d) : Sound w (tap port f d) := by
  unfold tap
  split
  · exact h
  · split
    · exact .tapDrop h
    · split
      · exact h
      · dsimp only
        split
        · exact .tapDrop h
        · split
          · exact .tapDrop h
          · exact .ite (.tapMatched h) (.tapDrop h)

protected theorem Sound.forward (h : Sound w d) : Sound w (forward d) := by
  unfold forward
  split
  · exact h
  · exact .ite (.updWlk (.updIng (.ite (.peak h) h))) h

protected theorem Sound.putCanary {late c s} (h : Sound w d) : Sound w (putCanary late c s d) :=
  .updWlk (.countPerms (.modChan (.noteForwarded (.modStream h))))

protected theorem Sound.missCanary {c s} (h : Sound w d) : Sound w (missCanary c s d) := by
  unfold missCanary
  extract_lets _ e
  have he : Sound w e := .raise (.count (.updCad h))
  exact .ite (.raise (.modChan he)) he

protected theorem Sound.canaryAt {own c s} (h : Sound w d) : Sound w (canaryAt own c s d) :=
  .ite h (.ite (.putCanary (.updCad h)) (.ite (.missCanary (.updCad h)) h))

protected theorem Sound.ingLink {port up} (h : Sound w d) : Sound w (ingLink port up d) :=
  .ite (.updIng h) (.raise (.updIng h))

/-! ### Tchili -/

protected theorem Sound.bulkDone {target} (h : Sound w d) : Sound w (bulkDone target d) := h.same rfl rfl

protected theorem Sound.refuseImage (h : Sound w d) : Sound w (refuseImage d) := .raise h

protected theorem Sound.raiseFloor {typ svn} (h : Sound w d) : Sound w (raiseFloor typ svn d) := .ite (.rpmbQueue h) h

/-! ### Sentinel -/

protected theorem Sound.setImage {i x} (h : Sound w d) : Sound w (setImage i x d) := h.same rfl rfl

protected theorem Sound.sntResult {code} (h : Sound w d) : Sound w (sntResult code d) := h.same rfl rfl

protected theorem Sound.placeImage {i b} (h : Sound w d) : Sound w (placeImage i b d) :=
  .countPerms (.raiseFloor (.setImage h))

protected theorem Sound.sntLoad {i} (h : Sound w d) : Sound w (sntLoad i d) := by
  unfold sntLoad
  split
  · exact .sntResult h
  · split
    · exact .sntResult h
    · split
      · exact .sntResult (.ite (.refuseImage h) h)
      · exact .sntResult (.placeImage h)

protected theorem Sound.imageResident {i} (h : Sound w d) : Sound w (imageResident i d) :=
  .ite (.sntResult (.ite (.bulkDone (.setImage h)) (.setImage h))) h

protected theorem Sound.sntUnload {i} (h : Sound w d) : Sound w (sntUnload i d) :=
  .ite (.sntResult h) (.sntResult (.updSnt h))

protected theorem Sound.imageRehash {i ok} (h : Sound w d) : Sound w (imageRehash i ok d) := by
  unfold imageRehash
  extract_lets e
  have he : Sound w e := .ite (.countPerms h) h
  exact .ite (.retireWhere (.raise (.setImage he))) he

protected theorem Sound.sntStart {e} (h : Sound w d) : Sound w (sntStart e d) := by
  unfold sntStart
  split
  · exact h
  · exact .ite h (.updSnt h)

protected theorem Sound.sntStop {e} (h : Sound w d) : Sound w (sntStop e d) := h.same rfl rfl

protected theorem Sound.sntAgree {i serial} (h : Sound w d) : Sound w (sntAgree i serial d) := by
  unfold sntAgree
  split
  · extract_lets _ _ _ _ d1 _ d2 d3
    have hd1 : Sound w d1 := .count (.modTicket h)
    have hd3 : Sound w d3 := .updSnt (.modTicket hd1)
    exact .ite (.verdictNow (.toCommit hd3)) hd3
  · exact h

protected theorem Sound.sntDiffer {r} (h : Sound w d) : Sound w (sntDiffer r d) := by
  unfold sntDiffer
  extract_lets _ _ d1
  have hd1 : Sound w d1 := .raise (.count (.modTicket h))
  exact .ite (.ite (.ite (.updSnt hd1) (.updCad (.updSnt hd1))) (.updCad (.ite (.updSnt hd1) (.updCad (.updSnt hd1)))))
      (.updSnt hd1)

protected theorem Sound.sntComplete {i ended} (h : Sound w d) : Sound w (sntComplete i ended d) := by
  unfold sntComplete
  split
  · exact h
  · dsimp only
    split
    · next eq => exact h.comparePoints.ofFst eq
    · next eq =>
      have hx := h.comparePoints.ofFst eq
      split
      · next eq => exact hx.comparePoints.ofFst eq
      · next eq => exact .ite (.sntDiffer (hx.comparePoints.ofFst eq)) (.sntAgree (hx.comparePoints.ofFst eq))

/-! ### Cadence -/

protected theorem Sound.toCycle {c} (h : Sound w d) : Sound w (toCycle c d) := .passSealed h

protected theorem Sound.beginEntry {e} (h : Sound w d) : Sound w (beginEntry e d) := .peak (.toCycle h)

protected theorem Sound.addSpan {i lead e} (h : Sound w d) : Sound w (addSpan i lead e d) := h.same rfl rfl

protected theorem Sound.beginBatch {serial} (h : Sound w d) : Sound w (beginBatch d serial) := by
  unfold beginBatch
  split
  · exact h
  · split
    · exact h
    · exact .ite (.modChan h) h

protected theorem Sound.fetchRun {lead} (h : Sound w d) : Sound w (fetchRun lead d) :=
  .ite (.foldl (fun _ _ => .beginBatch) (.modPipe h)) h

protected theorem Sound.switchTarget {lead target} (h : Sound w d) : Sound w (switchTarget lead target d) :=
  .ite h (.modPipe h)

protected theorem Sound.segmentStart {i} (h : Sound w d) : Sound w (segmentStart i d) := by
  unfold segmentStart
  split
  · exact h
  · exact .ite h (.ite (.beginEntry h) (.fetchRun (.modPipe (.addSpan (.switchTarget (.beginEntry h))))))

protected theorem Sound.spanEnd {i} (h : Sound w d) : Sound w (spanEnd i d) := by
  unfold spanEnd
  split
  · exact h
  · exact .ite (.ite (.modPipe (.updCad (.toCycle h))) (.ite (.sntStop (.updCad (.toCycle h))) (.updCad (.toCycle h))))
      h

protected theorem Sound.bindWindow {w0 b} (h : Sound w d) : Sound w (bindWindow w0 b d) := h.same rfl rfl

protected theorem Sound.windowStart {i} (h : Sound w d) : Sound w (windowStart i d) := by
  unfold windowStart
  split
  · exact h
  · exact .foldl (fun _ _ => .bindWindow)
      (.ite (.ite (.takeSentinel (.assignSentinel (.beginEntry h))) (.assignSentinel (.beginEntry h))) (.beginEntry h))

protected theorem Sound.spacedVerdicts {bs} (h : Sound w d) : Sound w (spacedVerdicts bs d) :=
  .foldl (fun _ _ h1 => .verdictNow (.toCommit h1)) h

protected theorem Sound.commitPoint {i pts} (h : Sound w d) : Sound w (commitPoint i pts d) := by
  unfold commitPoint
  split
  · exact h
  · split
    · extract_lets d1 bs ready d2
      have hd2 : Sound w d2 := .foldl (fun _ _ => .modTicket) (.toCycle h)
      split
      · next eq => exact .finishAll (.spacedVerdicts (hd2.comparePoints.ofFst eq))
      · next eq => exact .finishAll (hd2.comparePoints.ofFst eq)
    · exact h

protected theorem Sound.verdictTime {i pts} (h : Sound w d) : Sound w (verdictTime i pts d) := by
  unfold verdictTime
  split
  · exact h
  · split
    · exact .finishAll (.spacedVerdicts (.comparePoints (.toCycle h)))
    · exact h

protected theorem Sound.emptySlot {c slot} (h : Sound w d) : Sound w (emptySlot c slot d) := by
  unfold emptySlot
  split
  · exact h
  · exact .commit (.addTicket h)

protected theorem Sound.radioSlotLate {c slot pts} (h : Sound w d) : Sound w (radioSlotLate c slot pts d) :=
  .ite h (.ite (.finishAll (.comparePoints h))
    (.finishAll (.ite (.emptySlot (.spacedVerdicts (.comparePoints h))) (.spacedVerdicts (.comparePoints h)))))

protected theorem Sound.declareCutoff {c} (h : Sound w d) : Sound w (declareCutoff c d) := by
  unfold declareCutoff
  split
  · split
    · exact .declare h
    · exact h
  · exact h

protected theorem Sound.skipTest {lead} (h : Sound w d) : Sound w (skipTest lead d) := by
  unfold skipTest
  extract_lets _ e
  have he : Sound w e := .count (.updCad h)
  exact .ite (.raise he) (.ite (.raise he) (.retireGroup (.raise he)))

protected theorem Sound.testFailed {lead blk unit} (h : Sound w d) : Sound w (testFailed lead blk unit d) :=
  .ite (.retireGroup (.raise h)) (.ite (.retireCore h) (.retireUnit h))

protected theorem Sound.testOutcome {lead blk unit passed pts} (h : Sound w d) :
    Sound w (testOutcome lead blk unit passed pts d) := by
  unfold testOutcome
  split
  · next eq => exact .ite (h.comparePoints.ofFst eq) (.testFailed (h.comparePoints.ofFst eq))
  · next eq => exact h.comparePoints.ofFst eq

protected theorem Sound.selfTest {i passed unit pts} (h : Sound w d) : Sound w (selfTest i passed unit pts d) := by
  unfold selfTest
  split
  · exact h
  · extract_lets _ d1 _ d2
    have hd2 : Sound w d2 := .addSpan (.updCad (.beginEntry h))
    split
    · exact h
    · split
      · exact .skipTest (.beginEntry h)
      · split
        · exact .testOutcome (.updCad hd2)
        · exact .testOutcome (.updCad hd2)

protected theorem Sound.canary {i} (h : Sound w d) : Sound w (canary i d) := by
  unfold canary
  split
  · exact h
  · exact .ite (.canaryAt (.toCycle h)) h

protected theorem Sound.testPulse {i} (h : Sound w d) : Sound w (testPulse i d) := by
  unfold testPulse
  split
  · exact h
  · exact .tellWarden (.count (.beginEntry h))

protected theorem Sound.buildSpan {st m tableEcc} (h : Sound w d) : Sound w (buildSpan st m tableEcc d) :=
  .ite (.tableHit (.raise h)) (.ite (.buildRadio h) (.buildChunks h))

protected theorem Sound.rebuild {i tableEcc pts} (h : Sound w d) : Sound w (rebuild i tableEcc pts d) := by
  unfold rebuild
  split
  · exact h
  · dsimp only
    split
    · exact h
    · split
      · exact .beginEntry h
      · split
        · next eq => exact (Sound.comparePoints (.addSpan (.beginEntry h))).ofFst eq
        · next eq =>
          have hx := (Sound.comparePoints (.addSpan (.beginEntry h))).ofFst eq
          split
          · exact .ite (.buildSpan hx) hx
          · exact hx

protected theorem Sound.sentinel {i} (h : Sound w d) : Sound w (sentinel i d) := by
  unfold sentinel
  split
  · exact h
  · exact .ite h (.ite (.beginEntry h) (.sntStart (.addSpan (.beginEntry h))))

protected theorem Sound.loadStandby (h : Sound w d) : Sound w (loadStandby d) := by
  unfold loadStandby
  split
  · exact .updCad h
  · exact .cadRefuse h

protected theorem Sound.swapCmd (h : Sound w d) : Sound w (swapCmd d) := .ite (.updCad h) h

protected theorem Sound.discardCmd (h : Sound w d) : Sound w (discardCmd d) := .ite h (.updCad h)

/-! ### CoreInstr -/

protected theorem Sound.modCore {lead f} (h : Sound w d) : Sound w (modCore lead f d) := h.same rfl rfl

protected theorem Sound.setReg {lead n v} (h : Sound w d) : Sound w (setReg lead n v d) := .ite h (.modCore h)

protected theorem Sound.nextPc {lead} (h : Sound w d) : Sound w (nextPc lead d) := h.same rfl rfl

protected theorem Sound.jumpPc {lead imm} (h : Sound w d) : Sound w (jumpPc lead imm d) := h.same rfl rfl

protected theorem Sound.spend {lead cycles} (h : Sound w d) : Sound w (spend lead cycles d) := h.same rfl rfl

protected theorem Sound.noteDesc {lead desc} (h : Sound w d) : Sound w (noteDesc lead desc d) := h.same rfl rfl

protected theorem Sound.issue {lead cycles at_ pts} {f : Die → Option Die} (hf : ∀ x, Sound w x → SoundIf w (f x))
    (h : Sound w d) :
    Sound w (issue lead cycles at_ pts f d) := by
  have hd : Sound w (Machine.fetchRun lead d) := .fetchRun h
  refine .ite ?_ hd
  split
  · next eq => exact (hf _ (.spend (hd.comparePoints.ofFst eq))).getD (hd.comparePoints.ofFst eq)
  · next eq => exact hd.comparePoints.ofFst eq

protected theorem Sound.passTo {lead} (h : Sound w d) : Sound w (passTo lead d) := .passSealed h

protected theorem Sound.drainEngines {lead mask own} (h : Sound w d) : SoundIf w (drainEngines lead mask own d) :=
  .ite (.some (.modCore h)) .none

protected theorem Sound.enqueue {lead eng cycles} (h : Sound w d) : SoundIf w (enqueue lead eng cycles d) :=
  .ite (.some (.modCore h)) .none

protected theorem Sound.wrec {lead imm} (h : Sound w d) : SoundIf w (wrec lead imm d) := .ite (.some (.nextPc h)) .none

protected theorem Sound.nextToken {lead imm} (h : Sound w d) : SoundIf w (nextToken lead imm d) :=
  .ite (.some (.jumpPc (.modCore h))) (.ite (.some (.nextPc (.modCore h))) .none)

protected theorem Sound.loadConst {lead a imm pool} (h : Sound w d) : SoundIf w (loadConst lead a imm pool d) := by
  intro x hx
  obtain ⟨v, -, rfl⟩ := Option.mem_map.mp hx
  exact .nextPc (.setReg h)

protected theorem Sound.loopBack {lead a imm} (h : Sound w d) : Sound w (loopBack lead a imm d) := by
  unfold loopBack
  extract_lets v d1
  have hd1 : Sound w d1 := .setReg h
  exact .ite (.jumpPc hd1) (.nextPc hd1)

protected theorem Sound.batchDone {serial} (h : Sound w d) : Sound w (batchDone serial d) := by
  unfold batchDone
  split
  · exact h
  · exact .ite (.declare (.modTicket h)) (.ite (.finishAll (.verdictNow (.toCommit (.modTicket h)))) (.modTicket h))

protected theorem Sound.programDone {lead} (h : Sound w d) : SoundIf w (programDone lead d) :=
  h.drainEngines.map fun _ hx => .foldl (fun _ _ => .batchDone) (.modCore (.passTo hx))

protected theorem Sound.markBatches {lead} (h : Sound w d) : Sound w (markBatches lead d) := h.same rfl rfl

protected theorem Sound.syncEngines {lead mask} (h : Sound w d) : SoundIf w (syncEngines lead mask d) :=
  h.drainEngines.map fun _ hx => .nextPc hx

/-! ### Engines -/

protected theorem Sound.setBuf {serial token n v} (h : Sound w d) : Sound w (setBuf serial token n v d) :=
  h.same rfl rfl

protected theorem Sound.noteMade {serial token key} (h : Sound w d) : Sound w (noteMade serial token key d) := by
  unfold noteMade
  split
  · exact h
  · exact .modTicket h

protected theorem Sound.failCheck {serial token cause page upper locus extra} (h : Sound w d) :
    Sound w (failCheck serial token cause page upper locus extra d) := by
  unfold failCheck
  split
  · exact h
  · exact .modTicket h

protected theorem Sound.engineIssue {lead eng op desc} {cost : Die → List Batch → Model → Nat}
    {eff : Batch → Model → Nat → Die → Die} {go : Die → Die} {phys : List PhysFault}
    (heff : ∀ b m t x, Sound w x → Sound w (eff b m t x)) (hgo : ∀ x, Sound w x → Sound w (go x)) (h : Sound w d) :
    Sound w (engineIssue lead eng op desc cost eff go phys d) := by
  refine Sound.issue (fun x hx y hy => ?_) h
  obtain ⟨m, -, hy⟩ := Option.mem_bind_iff.mp hy
  refine (Sound.noteDesc hx).enqueue.map (fun z hz => ?_) y hy
  refine .foldl (fun _ _ => .physFault) (hgo _ (.foldl (fun d s hd => ?_) hz))
  split
  · exact heff _ _ _ _ hd
  · exact hd

protected theorem Sound.engineRun {lead eng op desc} {cost : Die → List Batch → Model → Nat}
    {eff : Batch → Model → Nat → Die → Die} {phys : List PhysFault}
    (heff : ∀ b m t x, Sound w x → Sound w (eff b m t x)) (h : Sound w d) :
    Sound w (engineRun lead eng op desc cost eff phys d) := .engineIssue heff (fun _ => .nextPc) h

protected theorem Sound.tokenRun {lead eng op : Nat} {desc : OpDesc} {cost : Die → Batch → Model → Nat → Nat}
    {eff : Batch → Model → Nat → Die → Die} {phys : List PhysFault}
    (heff : ∀ b m t x, Sound w x → Sound w (eff b m t x)) (h : Sound w d) :
    Sound w (tokenRun lead eng op desc cost eff phys d) :=
  .engineRun (fun _ _ _ _ h2 => .ite (heff _ _ _ _ h2) h2) (.fetchRun h)

protected theorem Sound.passIssued {lead more} (h : Sound w d) : Sound w (passIssued lead more d) :=
  .ite (.modCore h) (.nextPc (.modCore h))

protected theorem Sound.passRun {lead eng op : Nat} {desc : OpDesc} {cost : Die → Model → Nat → Nat}
    {eff : Batch → Model → Nat → Die → Die} {phys : List PhysFault}
    (heff : ∀ b m t x, Sound w x → Sound w (eff b m t x)) (h : Sound w d) :
    Sound w (passRun lead eng op desc cost eff phys d) :=
  .ite (.engineIssue (fun _ _ _ _ h2 => .foldl (fun _ _ h3 => heff _ _ _ _ h3) h2) (fun _ => .passIssued) (.fetchRun h))
    (.fetchRun h)

protected theorem Sound.badTable {page b n} (h : Sound w d) : Sound w (badTable page b n d) :=
  .activeHit (.poisonBatch (.countN h))

protected theorem Sound.residueToken {desc b m token} (h : Sound w d) : Sound w (residueToken desc b m token d) := by
  unfold residueToken
  split
  · exact h
  · split
    · exact .badTable h
    · extract_lets _ _ d1 d2
      have hd1 : Sound w d1 := .countN (.countN h)
      have hd2 : Sound w d2 := by
        unfold d2
        split
        · exact .failCheck hd1
        · exact hd1
      exact .noteMade hd2

protected theorem Sound.bandedToken {lead desc b m token} (h : Sound w d) :
    Sound w (bandedToken lead desc b m token d) := by
  unfold bandedToken
  split
  · exact h
  · split
    · exact .badTable h
    · have counted : ∀ i j k, Sound w
        (Machine.countN pBND 0x07C i (Machine.countN pBND 0x078 j (Machine.countN pBND 0x074 k d))) :=
        fun _ _ _ => .countN (.countN (.countN h))
      dsimp only
      refine .noteMade ?_
      split
      · refine .failCheck ?_
        split
        · exact .failCheck (counted _ _ _)
        · exact counted _ _ _
      · split
        · exact .failCheck (counted _ _ _)
        · exact counted _ _ _

protected theorem Sound.countNan {n} (h : Sound w d) : Sound w (countNan n d) := .ite h (.raise (.countN h))

protected theorem Sound.putF32 {serial token n v} (h : Sound w d) : Sound w (putF32 serial token n v d) :=
  .countNan (.setBuf h)

protected theorem Sound.dqToken {desc b m token} (h : Sound w d) : Sound w (dqToken desc b m token d) := .putF32 h

protected theorem Sound.qntToken {desc b m token} (h : Sound w d) : Sound w (qntToken desc b m token d) :=
  .countNan (.setBuf h)

protected theorem Sound.addvToken {desc b m token} (h : Sound w d) : Sound w (addvToken desc b m token d) := .putF32 h

protected theorem Sound.normToken {desc b m token} (h : Sound w d) : Sound w (normToken desc b m token d) := .putF32 h

protected theorem Sound.normfToken {desc b m token} (h : Sound w d) : Sound w (normfToken desc b m token d) :=
  .count (.putF32 h)

protected theorem Sound.actToken {desc b m token} (h : Sound w d) : Sound w (actToken desc b m token d) := .putF32 h

protected theorem Sound.actfToken {desc b m token} (h : Sound w d) : Sound w (actfToken desc b m token d) :=
  .count (.putF32 h)

protected theorem Sound.ropeToken {desc b m token} (h : Sound w d) : Sound w (ropeToken desc b m token d) := .putF32 h

protected theorem Sound.bandToken {desc b m token} (h : Sound w d) : Sound w (bandToken desc b m token d) := by
  unfold bandToken
  dsimp only
  split
  · refine .noteMade (.setBuf ?_)
    split
    · exact .failCheck (.countN (.countN (.countNan h)))
    · exact .countN (.countN (.countNan h))
  · exact h

protected theorem Sound.selToken {desc b m token} (h : Sound w d) : Sound w (selToken desc b m token d) := by
  unfold selToken
  dsimp only
  split
  · exact .setBuf h
  · exact .modTicket h

protected theorem Sound.ocmpToken {desc b m token} (h : Sound w d) : Sound w (ocmpToken desc b m token d) := by
  unfold ocmpToken
  extract_lets e
  have he : Sound w e := by
    unfold e
    split
    · exact .ite h (.modTicket h)
    · exact h
  exact .noteMade he

protected theorem Sound.embToken {desc b m token} (h : Sound w d) : Sound w (embToken desc b m token d) :=
  .ite (.modTicket h) (.putF32 h)

protected theorem Sound.digToken {desc b m token} (h : Sound w d) : Sound w (digToken desc b m token d) :=
  .ite (.countN h) (.setBuf (.countN h))

protected theorem Sound.dcmpToken {desc b m token} (h : Sound w d) : Sound w (dcmpToken desc b m token d) :=
  .ite (.ite (.modTicket h) h) (.ite (.modTicket h) h)

protected theorem Sound.shdcToken {desc b m token} (h : Sound w d) : Sound w (shdcToken desc b m token d) := by
  unfold shdcToken
  dsimp only
  split
  · exact .noteMade (.modTicket (.ite h (.modTicket h)))
  · split
    · exact .noteMade (.ite h (.modTicket h))
    · exact h

/-! ### Attend -/

protected theorem Sound.writeRow {c m pos layer gs kind v} (h : Sound w d) :
    Sound w (writeRow c m pos layer gs kind v d) :=
  Sound.modChan (.ite h (.countNan h)) fun _ wf => cellsWrite_wf _ _ _ wf

protected theorem Sound.kvappToken {desc b m token} (h : Sound w d) : Sound w (kvappToken desc b m token d) := by
  refine .ite h (.modChan (.foldl (fun d g hd => ?_) h))
  dsimp only
  split
  · exact hd
  · exact .writeRow (.writeRow hd)

protected theorem Sound.voidCheck {b layer token pos} (h : Sound w d) : Sound w (voidCheck b layer token pos d) :=
  .ite (.raise (.count (.failCheck h))) h

protected theorem Sound.runHead {desc b m layer token pos h7} (h : Sound w d) :
    Sound w (runHead desc b m layer token pos d h7) := by
  unfold runHead
  dsimp only
  split
  · exact h
  · split
    · exact .modTicket (.countNan (.count (.modTicket h)))
    · exact .count (.failCheck (.count (.modTicket h)))

protected theorem Sound.overrunAt {b token} (h : Sound w d) : Sound w (overrunAt b token d) :=
  .ite h (.raise (.count (.modTicket h)))

protected theorem Sound.attnToken {desc b m token} (h : Sound w d) : Sound w (attnToken desc b m token d) := by
  unfold attnToken
  extract_lets _ _ _ _ _ d1 d2
  have hd1 : Sound w d1 := .voidCheck (.setBuf h)
  have hd2 : Sound w d2 := .foldl (fun _ _ => .runHead) hd1
  exact .ite h (.ite (.overrunAt hd2) hd2)

protected theorem Sound.acmpToken {desc b m token} (h : Sound w d) : Sound w (acmpToken desc b m token d) := by
  unfold acmpToken
  split
  · exact h
  · exact .noteMade (.foldl (fun _ _ h5 => .ite h5 (.count (.failCheck h5))) h)

/-! ### ChanCmds -/

protected theorem Sound.chnStat {op c code} (h : Sound w d) : Sound w (chnStat op c code d) :=
  .ite (.setCap h) (.sendEvent (.setCap h))

protected theorem Sound.chnDone {op c code} (h : Sound w d) : Sound w (chnDone op c code d) :=
  .ite (.chnStat h) (.sendEvent h)

protected theorem Sound.dropCreate {c code} (h : Sound w d) : Sound w (dropCreate c code d) :=
  .ite (.chnDone (.delChan (.updCad h))) h

protected theorem Sound.chnCreate {v : DieId} {peer : Die} {c : Nat} (h : Sound w d) (hp : Sound v peer) :
    SoundPair w v (chnCreate c d peer) := by
  unfold chnCreate
  extract_lets x b slot host coupled half refuse
  have refused (code : Nat) {x : Die} (hx : Sound w x) : SoundPair w v (refuse code x) :=
    ⟨.chnStat hx, .ite (.dropCreate hp) hp⟩
  refine .ite ⟨h, hp⟩ (.ite ⟨.chnStat h, hp⟩ (.ite ⟨.chnStat h, hp⟩ (.ite ⟨.chnStat h, hp⟩ ?_)))
  split
  · exact refused _ h
  · extract_lets other density
    split
    · exact refused _ (.cadRefuse h)
    · exact ⟨.chnStat (.setChan (.updCad h)), .ite (.modChan hp) hp⟩

protected theorem Sound.chnWait {op c p ok} (h : Sound w d) : Sound w (chnWait op c p ok d) :=
  .ite (.chnStat h) (.ite (.chnStat (.modChan h)) (.chnStat h))

protected theorem Sound.chnRetire {c} (h : Sound w d) : Sound w (chnRetire c d) :=
  .ite (.chnStat h) (.ite (.chnStat (.retireChan h)) (.chnStat h))

protected theorem Sound.chnRead {c} (h : Sound w d) : Sound w (chnRead c d) :=
  .ite (.chnStat h) (.chnStat (.foldl (fun _ _ => .setField) h))

protected theorem Sound.chnSave {c} (h : Sound w d) : Sound w (chnSave c d) := by
  unfold chnSave
  dsimp only
  split
  · exact .chnStat h
  · exact .ite (.chnStat h) (.chnStat (.updKey (.countPerms h)))
  · exact .chnStat h

protected theorem Sound.restoreRefused {c} (h : Sound w d) : Sound w (restoreRefused c d) := .chnStat (.clearLedger h)

protected theorem Sound.chnRestore {c} (h : Sound w d) : Sound w (chnRestore c d) := by
  unfold chnRestore
  dsimp only
  split
  · exact .chnStat h
  · refine .ite (.restoreRefused h) ?_
    split
    · refine .ite (.chnStat (Sound.modChan (.countPerms (.bulkDone h)) fun x _ => ?_))
        (.restoreRefused (.countPerms (.bulkDone h)))
      exact cellsWrite_wf [] 0 _ memory_wf_nil
    · exact .restoreRefused h
  · exact .chnStat h

/-- A channel whose ring tail is moved (R293). -/
def movedTail (tail : Nat) (x : Chan) : Chan :=
  let step := w32 (tail + 4294967296 - x.ringTail)
  let room := w32 (x.ringHead + 4294967296 - x.ringTail)
  if step ≤ room then { x with ringTail := tail }
  else if step - room ≤ 4294967296 - step then { x with ringTail := x.ringHead } else x

theorem movedTail_ledger (tail : Nat) (x : Chan) : (movedTail tail x).ledger = x.ledger := by
  unfold movedTail
  extract_lets step room
  clear_value step room
  split_ifs
  · rfl
  · rfl
  · rfl

theorem ringTail_eq (c tail : Nat) (d : Die) : ringTail c tail d = modChan c (movedTail tail) d := rfl

protected theorem Sound.ringTail {c tail} (h : Sound w d) : Sound w (ringTail c tail d) := by
  rw [ringTail_eq]
  exact .modChan h fun x wf => (congrArg Memory.wf (movedTail_ledger tail x)).trans wf

protected theorem Sound.openChan {c} (h : Sound w d) : Sound w (openChan c d) :=
  .modChan (.dropHeld (.ite (.tellWarden h) h))

protected theorem Sound.closeChan {c} (h : Sound w d) : Sound w (closeChan c d) := by
  unfold closeChan
  extract_lets _ d1 d2 d3
  have hd1 : Sound w d1 := .dropHeld (.foldl (fun _ _ => .endTicket) h)
  have hd3 : Sound w d3 := .updCad (.clearLedger hd1)
  exact .ite (.tellWarden hd3) hd3

protected theorem Sound.freeChan {c} (h : Sound w d) : Sound w (freeChan c d) := .releaseExtents (.delChan (.updSpk h))

protected theorem Sound.chanBoundary {peer c} (h : Sound w d) : Sound w (chanBoundary peer d c) := by
  unfold chanBoundary
  extract_lets _ e
  have he : Sound w e := .chnDone (.dropHeld (.modChan h))
  split
  · exact h
  · exact .ite (.dropCreate h) (.ite (.chnDone (.openChan h)) h)
  · exact .ite (.ite (.tellWarden he) he) h
  · exact .chnDone (.openChan h)
  · exact .chnDone (.closeChan h)
  · exact .chnDone (.freeChan h)

protected theorem Sound.chansBoundary {peer} (h : Sound w d) : Sound w (chansBoundary peer d) :=
  .foldl (fun _ _ => .chanBoundary) h

protected theorem Sound.refreshCache (h : Sound w d) : Sound w (refreshCache d) := h.same rfl rfl

protected theorem Sound.ratOwner {r owner} (h : Sound w d) : Sound w (ratOwner r owner d) := .ite h (.setRatchet h)

protected theorem Sound.ratLo {r v} (h : Sound w d) : Sound w (ratLo r v d) := h.same rfl rfl

protected theorem Sound.ratHi {r v} (h : Sound w d) : Sound w (ratHi r v d) := .raiseRat (.updRat h)

/-! ### Pairing -/

protected theorem Sound.pairStart {target0} (h : Sound w d) : Sound w (pairStart target0 d) := by
  unfold pairStart
  extract_lets _ _ d1
  have hd1 : Sound w d1 := .ite (.sendSpoke h) h
  exact .ite h (.ite (.updVp hd1) (.raise (.updVp hd1)))

protected theorem Sound.takeGroups (h : Sound w d) : Sound w (takeGroups d) := by
  unfold takeGroups
  split
  · exact h
  · refine .retryHeld (.updSpk (Sound.regrouped (.updCad (.updVp h))))

protected theorem Sound.takeHandover {v : DieId} {peer : Die} (h : Sound w d) (hp : Sound v peer) :
    SoundPair w v (takeHandover d peer) :=
  .ite ⟨h, hp⟩ (.ite (.ite ⟨.takeGroups h, .takeGroups hp⟩ ⟨h, hp⟩) ⟨.takeGroups h, hp⟩)

protected theorem Sound.dbgHalt {group} (h : Sound w d) : Sound w (dbgHalt group d) := by
  unfold dbgHalt
  split
  · exact h
  · dsimp only
    split
    · exact .updDbg (.setField h)
    · exact .ite (.updDbg (.setField h)) (.modCore (.setField h))

protected theorem Sound.stepWord {lead w1 pool} (h : Sound w d) : Sound w (stepWord lead w1 pool d) := by
  have put : ∀ v, Sound w (Machine.nextPc lead (Machine.setReg lead (wA w1) v d)) := fun _ => .nextPc (.setReg h)
  unfold stepWord
  dsimp only
  split
  · exact put _
  · exact put _
  · exact put _
  · exact put _
  · exact put _
  · exact h.loadConst.getD h
  · exact .ite (.drew (put _)) (put _)
  · exact .loopBack h
  · exact .jumpPc h
  · exact .ite h (h.wrec.getD h)
  · exact .ite h (h.nextToken.getD h)
  · exact .modCore h
  · exact .nextPc h

protected theorem Sound.dbgStep {pts} (h : Sound w d) : Sound w (dbgStep pts d) := by
  unfold dbgStep
  split
  · dsimp only
    split
    · exact h
    · split
      · next eq => exact .stepWord (h.comparePoints.ofFst eq)
      · next eq => exact h.comparePoints.ofFst eq
      · exact h
  · exact h

protected theorem Sound.dbgResume (h : Sound w d) : Sound w (dbgResume d) := .ite (.retryHeld (.modCore h)) h

protected theorem Sound.dbgReplay {diff after} (h : Sound w d) : Sound w (dbgReplay diff after d) := by
  unfold dbgReplay
  split
  · exact h
  · split
    · exact .ite (.updDbg (.modCore h)) (.updDbg h)
    · exact .updDbg h

protected theorem Sound.dbgArm {c} (h : Sound w d) : Sound w (dbgArm c d) := .ite (.setField (.setField h)) h

protected theorem Sound.declareMsg {m} (h : Sound w d) : Sound w (declareMsg m d) := by
  unfold declareMsg
  dsimp only
  split
  · split
    · exact .ite h (.modTicket h)
    · exact .ite h (.updSpk h)
  · exact h

protected theorem Sound.phaseMsg {m} (h : Sound w d) : Sound w (phaseMsg m d) :=
  .ite (.ite (.updSpk h) (.loseCoupled (.updSpk (.updSpk h)))) h

protected theorem Sound.pairMsg {m} (h : Sound w d) : Sound w (pairMsg m d) := .ite (.updSpk h) h

protected theorem Sound.echoMsg {m} (h : Sound w d) : Sound w (echoMsg m d) := .ite (.updSpk h) h

protected theorem Sound.followSlot {steps count skew} (h : Sound w d) : Sound w (followSlot steps count skew d) :=
  .ite (.ite (.updTim h) (.ite h (.updTim h))) (.updTim h)

protected theorem Sound.slotMsg {steps m skew} (h : Sound w d) : Sound w (slotMsg steps m skew d) :=
  .ite (.followSlot (.ite (.raise (.peak (.updSpk h))) (.peak (.updSpk h)))) h

/-! ### Time -/

protected theorem Sound.settleDisagree (h : Sound w d) : Sound w (settleDisagree d) := .updTim (.ite (.raise h) h)

protected theorem Sound.timeMoved (h : Sound w d) : Sound w (timeMoved d) := .noteTime (.settleDisagree h)

protected theorem Sound.acquire {src good} (h : Sound w d) : Sound w (acquire src good d) := .timeMoved (.updTim h)

protected theorem Sound.loseAir (h : Sound w d) : Sound w (loseAir d) := by
  unfold loseAir
  extract_lets e
  have he : Sound w e := .raise (.updTim h)
  exact .ite (.acquire he) (.timeMoved he)

protected theorem Sound.decideStep {offset} (h : Sound w d) : Sound w (decideStep offset d) := .ite h (.updTim h)

protected theorem Sound.slewAway {e} (h : Sound w d) : Sound w (slewAway e d) := .ite h (.updTim h)

protected theorem Sound.frameEdge {good position} (h : Sound w d) : Sound w (frameEdge good position d) := by
  unfold frameEdge
  extract_lets _ _ _ d1 _ d2 d3 d4
  have hd2 : Sound w d2 := .updTim (.updTim h)
  have hd3 : Sound w d3 := .ite (.decideStep hd2) (.slewAway hd2)
  have hd4 : Sound w d4 := .ite (.slewAway (.updTim h)) (.updTim h)
  split
  · exact .updTim h
  · exact .ite (.acquire (.updTim h)) (.updTim h)
  · exact .ite (.timeMoved (.updTim (.updTim h))) (.timeMoved hd3)
  · exact .ite (.timeMoved (.updTim hd4)) (.ite (.loseAir hd4) (.timeMoved (.updTim hd4)))

protected theorem Sound.compareTimes (h : Sound w d) : Sound w (compareTimes d) := h.same rfl rfl

protected theorem Sound.atFrame (h : Sound w d) : Sound w (atFrame d) := by
  unfold atFrame
  extract_lets _ _ _ _ _ d1
  have hd1 : Sound w d1 := .compareTimes (.updTim h)
  exact .ite h (.ite (.frameEdge hd1) (.ite (.acquire (.updTim hd1)) (.timeMoved (.updTim hd1))))

protected theorem Sound.atSfn {word parityOk} (h : Sound w d) : Sound w (atSfn word parityOk d) :=
  .ite h (.ite (.updTim h) (.raise (.updTim h)))

protected theorem Sound.atFrameMissing (h : Sound w d) : Sound w (atFrameMissing d) := by
  unfold atFrameMissing
  split
  · exact h
  · split
    · exact .updTim h
    · exact .ite (.loseAir h) (.updTim h)
    · exact h

protected theorem Sound.ptpFrameEdge (h : Sound w d) : Sound w (ptpFrameEdge d) := .ite h (.frameEdge (.updTim h))

protected theorem Sound.sourceWritten (h : Sound w d) : Sound w (sourceWritten d) := by
  unfold sourceWritten
  split
  · exact .timeMoved (.updTim h)
  · exact .acquire h
  · exact .acquire h

protected theorem Sound.reacquire (h : Sound w d) : Sound w (reacquire d) := .ite h (.acquire h)

protected theorem Sound.stepNs {by_} (h : Sound w d) : Sound w (stepNs by_ d) := .raise (.count (.updTim h))

protected theorem Sound.timStep {step} (h : Sound w d) : Sound w (timStep step d) := .ite (.stepNs h) h

protected theorem Sound.ptpTake (h : Sound w d) : Sound w (ptpTake d).2 := by
  unfold ptpTake
  split
  next eq => exact h.hostTake.ofSnd eq

protected theorem Sound.ptpAnnounce {m} (h : Sound w d) : Sound w (ptpAnnounce m d) := by
  unfold ptpAnnounce
  split
  · next eq => exact h.ptpTake.ofSnd eq
  · next eq =>
    have hx := h.ptpTake.ofSnd eq
    exact .ite hx (.ite (.updTim hx) hx)

protected theorem Sound.ptpMoved (h : Sound w d) : Sound w (ptpMoved d) :=
  .ite (.ite (.acquire h) (.ite (.acquire h) (.ite (.acquire h) (.timeMoved h))))
    (.ite (.ite (.loseAir h) (.ite (.timeMoved (.updTim h)) (.timeMoved h))) (.timeMoved h))

protected theorem Sound.toPtp {s} (h : Sound w d) : Sound w (toPtp s d) := .ptpMoved (.updTim h)

protected theorem Sound.adjust {o} (h : Sound w d) : Sound w (adjust o d) := h.same rfl rfl

protected theorem Sound.offsetEvent {o} (h : Sound w d) : Sound w (offsetEvent o d) := by
  unfold offsetEvent
  dsimp only
  split
  · exact .updTim h
  · exact .updTim h
  · exact .toPtp (.updTim h)
  · exact .ite (.stepNs (.updTim (.updTim h)))
      (.ite (.ite (.toPtp (.adjust (.updTim h))) (.updTim (.adjust (.updTim h)))) (.updTim (.adjust (.updTim h))))
  · exact .ite (.ite (.raise (.toPtp (.adjust (.updTim h)))) (.updTim (.adjust (.updTim h))))
      (.updTim (.adjust (.updTim h)))

protected theorem Sound.syncDone {t1 t2} (h : Sound w d) : Sound w (syncDone t1 t2 d) := .offsetEvent (.updTim h)

protected theorem Sound.noteSync {m} (h : Sound w d) : Sound w (noteSync m d) := h.same rfl rfl

protected theorem Sound.ptpSync {m} (h : Sound w d) : Sound w (ptpSync m d) := by
  unfold ptpSync
  split
  · next eq => exact h.ptpTake.ofSnd eq
  · next eq =>
    have hx := h.ptpTake.ofSnd eq
    exact .ite hx (.ite (.updTim (.noteSync hx)) (.syncDone (.noteSync hx)))

protected theorem Sound.ptpFollowUp {m} (h : Sound w d) : Sound w (ptpFollowUp m d) := by
  unfold ptpFollowUp
  split
  · next eq => exact h.ptpTake.ofSnd eq
  · next eq =>
    have hx := h.ptpTake.ofSnd eq
    split
    · exact .ite (.syncDone hx) hx
    · exact hx

protected theorem Sound.ptpSyncTimeout (h : Sound w d) : Sound w (ptpSyncTimeout d) := by
  unfold ptpSyncTimeout
  split
  · exact h
  · extract_lets e
    have he : Sound w e := .countN (.updTim h)
    exact .ite (.raise (.toPtp he)) he

protected theorem Sound.delayEvent {measured} (h : Sound w d) : Sound w (delayEvent measured d) := by
  unfold delayEvent
  extract_lets e
  have he : Sound w e := .updHst (.updTim h)
  split
  · exact .ite (.raise (.toPtp he)) he
  · exact .ite (.ite (.toPtp he) (.updTim he)) (.updTim he)
  · exact he

protected theorem Sound.sendPtp {kind seq corr} (h : Sound w d) : Sound w (sendPtp kind seq corr d) :=
  .flushEgress (.enqueueFrame h)

protected theorem Sound.delayReqTx (h : Sound w d) : Sound w (delayReqTx d) := .ite (.sendPtp (.updHst (.updTim h))) h

protected theorem Sound.delayResp {m} (h : Sound w d) : Sound w (delayResp m d) := by
  unfold delayResp
  split
  · next eq => exact h.ptpTake.ofSnd eq
  · next eq =>
    have hx := h.ptpTake.ofSnd eq
    split
    · exact .ite (.delayEvent hx) hx
    · exact hx

protected theorem Sound.pdelayReq {m} (h : Sound w d) : Sound w (pdelayReq m d) := by
  unfold pdelayReq
  split
  · next eq => exact h.ptpTake.ofSnd eq
  · next eq => exact .ite (.sendPtp (h.ptpTake.ofSnd eq)) (h.ptpTake.ofSnd eq)

protected theorem Sound.pdelayResp {m} (h : Sound w d) : Sound w (pdelayResp m d) := by
  unfold pdelayResp
  split
  · next eq => exact h.ptpTake.ofSnd eq
  · next eq =>
    have hx := h.ptpTake.ofSnd eq
    split
    · exact .ite (.delayEvent hx) hx
    · exact hx

protected theorem Sound.asymAccept (h : Sound w d) : Sound w (asymAccept d) := .ite (.toPtp (.updTim h)) h

protected theorem Sound.ptpEnable {en} (h : Sound w d) : Sound w (ptpEnable en d) :=
  .ite (.ite (.toPtp h) h) (.ite h (.toPtp (.updHst (.updTim h))))

protected theorem Sound.modTrig {i f} (h : Sound w d) : Sound w (modTrig i f d) := h.same rfl rfl

protected theorem Sound.trigTarget {hi} (h : Sound w d) : Sound w (trigTarget hi d) := h.same rfl rfl

protected theorem Sound.triggerFire {i} (h : Sound w d) : Sound w (triggerFire i d) :=
  .ite (.sendEvent (.modTrig (.updTim h))) h

/-! ### Peloton -/

protected theorem Sound.setTopo {t} (h : Sound w d) : Sound w (setTopo t d) := h.same rfl rfl

protected theorem Sound.floodOwn (h : Sound w d) : Sound w (floodOwn d) := .ite h (.floodBut (.setTopo (.updPel h)))

protected theorem Sound.setNbr {p n} (h : Sound w d) : Sound w (setNbr p n d) := .ite h (.floodOwn (.modPort h))

protected theorem Sound.discTx {p} (h : Sound w d) : Sound w (discTx p d) := .ite (.sendNbr (.modPort (.sendNbr h))) h

protected theorem Sound.pelLink {p up} (h : Sound w d) : Sound w (pelLink p up d) :=
  .ite (.ite (.discTx (.modPort h)) h) (.ite (.floodOwn (.raise (.modPort h))) h)

protected theorem Sound.modChain {e f} (h : Sound w d) : Sound w (modChain e f d) := h.same rfl rfl

protected theorem Sound.modLink {e next f} (h : Sound w d) : Sound w (modLink e next f d) := h.same rfl rfl

protected theorem Sound.startLink {e next peer} (h : Sound w d) : Sound w (startLink e next peer d) := by
  unfold startLink
  split
  · exact .sendNode (.modChain (.drew (.drew h)))
  · exact .modChain h

protected theorem Sound.reopenLinks (h : Sound w d) : Sound w (reopenLinks d) := .foldl (fun _ _ => .startLink) h

protected theorem Sound.takeOpen {e next dst body} (h : Sound w d) : Sound w (takeOpen e next dst body d) := by
  unfold takeOpen
  split
  · exact h
  · exact .sendNode (.sendNode (.modLink h))

protected theorem Sound.chainOpen {src body} (h : Sound w d) : Sound w (chainOpen src body d) := by
  unfold chainOpen
  split
  · exact h
  · dsimp only
    split
    · exact h
    · split
      · exact .takeOpen (.ite (.startLink h) h)
      · exact .takeOpen (.startLink h)
      · exact h

protected theorem Sound.chainAuth {src body} (h : Sound w d) : Sound w (chainAuth src body d) := by
  unfold chainAuth
  split
  · exact h
  · dsimp only
    split
    · exact .modLink h
    · exact h
    · exact .raise h

protected theorem Sound.modGate {g f} (h : Sound w d) : Sound w (modGate g f d) := h.same rfl rfl

protected theorem Sound.gateAbortHere {g round} (h : Sound w d) : Sound w (gateAbortHere g round d) :=
  .raise (.modGate h)

protected theorem Sound.gateAbort {g} (h : Sound w d) : Sound w (gateAbort g d) :=
  .gateAbortHere (.foldl (fun _ _ => .sendNode) h)

protected theorem Sound.sendReleases {g round ttl src seq countdown root mask} (h : Sound w d) :
    Sound w (sendReleases g round ttl src seq countdown root mask d) := .foldl (fun _ _ h1 => .ite (.pelOut h1) h1) h

protected theorem Sound.pathCycles {m} (h : Sound w d) : Sound w (pathCycles d m).2 := by
  unfold pathCycles
  split
  · exact h
  · split
    · exact h
    · exact .drew h

/-- The die that a walk over the nodes of a gate leaves. -/
theorem Sound.pathsWalk {ms : List Nat} {n : Nat} (h : Sound w d) :
    Sound w (ms.foldl (fun (acc : Nat × Die) m => let p := Machine.pathCycles acc.2 m; (max acc.1 p.1, p.2))
        (n, d)).2 := by
  induction ms generalizing n d with
  | nil => exact h
  | cons m ms ih => exact ih h.pathCycles

protected theorem Sound.gateRelease {g} (h : Sound w d) : Sound w (gateRelease g d) :=
  .modGate (.sendReleases (.pelNext h.pathsWalk))

protected theorem Sound.rootArrive {g round node} (h : Sound w d) : Sound w (rootArrive g round node d) := by
  unfold rootArrive
  extract_lets _ _ d1
  have hd1 : Sound w d1 := .ite h (.modGate h)
  exact .ite h (.ite (.gateAbort (.modGate hd1)) (.ite (.gateRelease (.modGate hd1)) (.modGate hd1)))

protected theorem Sound.arriveAt {g} (h : Sound w d) : Sound w (arriveAt g d) := by
  unfold arriveAt
  split
  · exact .ite h (.ite (.rootArrive (.modGate h)) (.sendNode (.modGate h)))
  · exact h

protected theorem Sound.gateReleased {p m} (h : Sound w d) : Sound w (gateReleased p m d) := by
  unfold gateReleased
  split
  · exact h
  · extract_lets g round mask rest
    split
    · refine .ite ?_ (.sendReleases ?_)
      · exact .ite (.modGate h) h
      · exact .ite (.modGate h) h
    · exact h

protected theorem Sound.gateEnds {g} (h : Sound w d) : Sound w (gateEnds g d) := by
  unfold gateEnds
  split
  · exact h
  · extract_lets d1 _ _ d2 d3
    have hd2 : Sound w d2 := .modGate (.updTim h)
    have hd3 : Sound w d3 := .sendEvent (.count hd2)
    exact .ite (.decideStep hd3) hd3

protected theorem Sound.gateTimeout {g} (h : Sound w d) : Sound w (gateTimeout g d) := .ite (.gateAbort h) h

protected theorem Sound.loseGates (h : Sound w d) : Sound w (loseGates d) :=
  .foldl (fun _ _ h1 => .ite (.gateAbort h1) h1) h

protected theorem Sound.triggerGates {i} (h : Sound w d) : Sound w (triggerGates i d) :=
  .foldl (fun _ _ h1 => .ite (.arriveAt h1) h1) h

protected theorem Sound.joinEpoch {forming e} (h : Sound w d) : Sound w (joinEpoch forming e d) :=
  .floodOwn (.updPel (.foldl (fun _ _ h1 => .ite (.gateAbortHere h1) h1) h))

protected theorem Sound.formEpoch (h : Sound w d) : Sound w (formEpoch d) := .joinEpoch h

protected theorem Sound.formationQuiet (h : Sound w d) : Sound w (formationQuiet d) :=
  .ite (.reopenLinks (.ite (.raise (.updPel h)) (.updPel h))) h

protected theorem Sound.pelForward {typ p m} (h : Sound w d) : Sound w (pelForward typ p m d) := by
  unfold pelForward
  split
  · exact .raise (.count h)
  · split
    · exact .raise h
    · exact .pelOut h

protected theorem Sound.pelTake {typ p : Nat} {m : PelMsg} {act : Die → Die} (hact : ∀ x, Sound w x → Sound w (act x))
    (h : Sound w d) :
    Sound w (pelTake typ p m act d) := by
  unfold pelTake
  split
  · exact h
  · split
    · exact .raise (.count h)
    · extract_lets d1 d2
      have hd2 : Sound w d2 := .ite (.joinEpoch (.count h)) (.count h)
      exact .ite (hact _ hd2) (.ite hd2 (.ite (hact _ hd2) (.pelForward hd2)))

protected theorem Sound.topoIn {p m} (h : Sound w d) : Sound w (topoIn p m d) := by
  unfold topoIn
  extract_lets _ _ _ e
  have he : Sound w e := .loseGates (.setTopo h)
  exact .ite h (.ite he (.foldl (fun _ _ => .pelOut) he))

protected theorem Sound.echoIn {p m} (h : Sound w d) : Sound w (echoIn p m d) := .sendNbr h

protected theorem Sound.echoReplyIn {p m} (h : Sound w d) : Sound w (echoReplyIn p m d) := by
  unfold echoReplyIn
  split
  · exact .ite (.modPort h) h
  · exact h

protected theorem Sound.tagged {typ : Nat} {m : PelMsg} {act : Bytes → Die → Die}
    (hact : ∀ a0 x, Sound w x → Sound w (act a0 x)) (h : Sound w d) :
    Sound w (tagged typ m act d) := by
  unfold tagged
  split
  · exact .raise (.count h)
  · exact hact _ _ (.modLink h)

protected theorem Sound.boundaryIn {m peer} (h : Sound w d) : Sound w (boundaryIn m peer d) := h.same rfl rfl

protected theorem Sound.chainResult {code} (h : Sound w d) : Sound w (chainResult code d) := h.same rfl rfl

protected theorem Sound.setChainBuf {b} (h : Sound w d) : Sound w (setChainBuf b d) :=
  .foldl (fun _ _ => .setField) h

protected theorem Sound.chainLoad {e} (h : Sound w d) : Sound w (chainLoad e d) := by
  unfold chainLoad
  extract_lets _ _ _ _ _ d1 d2
  have hd1 : Sound w d1 := .chainResult (.updPel h)
  have hd2 : Sound w d2 := by
    unfold d2
    split
    · exact .startLink hd1
    · exact hd1
  split
  · exact .chainResult h
  · split
    · exact .chainResult h
    · split
      · exact .startLink hd2
      · exact hd2

protected theorem Sound.chainClear {e} (h : Sound w d) : Sound w (chainClear e d) :=
  .ite (.chainResult h) (.chainResult (.updPel h))

protected theorem Sound.chainRead {e} (h : Sound w d) : Sound w (chainRead e d) := by
  unfold chainRead
  split
  · exact .chainResult h
  · exact .chainResult (.setChainBuf h)

protected theorem Sound.chainSwitch {e next} (h : Sound w d) : Sound w (chainSwitch e next d) := by
  unfold chainSwitch
  split
  · exact .chainResult h
  · exact .ite (.chainResult h) (.chainResult (.modChain h))

protected theorem Sound.switchNow {e next} (h : Sound w d) : Sound w (switchNow e next d) := by
  unfold switchNow
  split
  · exact h
  · refine .ite h ?_
    split
    · exact h
    · exact .raise (.startLink (.ite (.chainResult (.modChain h)) (.modChain h)))

protected theorem Sound.chainsSwitch (h : Sound w d) : Sound w (chainsSwitch d) :=
  .foldl (fun _ _ h1 => .switchNow (.switchNow h1)) h

protected theorem Sound.aliveTx {e} (h : Sound w d) : Sound w (aliveTx e d) := by
  unfold aliveTx
  split
  · exact h
  · refine .foldl (fun d l hd => ?_) h
    split
    · exact .sendNode hd
    · exact hd

protected theorem Sound.chainTimeout {e next} (h : Sound w d) : Sound w (chainTimeout e next d) := by
  unfold chainTimeout
  split
  · exact h
  · split
    · exact h
    · extract_lets e
      have he : Sound w e := .raise (.modLink h)
      exact .ite (.modChain he) he

/-! ### Boundary -/

protected theorem Sound.shiftWindows (h : Sound w d) : Sound w (shiftWindows d) := h.same rfl rfl

protected theorem Sound.stepTaken {t0} (h : Sound w d) : Sound w (stepTaken t0 d) := by
  unfold stepTaken
  extract_lets d1 d2
  have hd1 : Sound w d1 := .shiftWindows (.raise (.count h))
  have hd2 : Sound w d2 := .tellWarden (.updSealing hd1)
  exact .ite (.updCad hd2) hd2

protected theorem Sound.endSpans (h : Sound w d) : Sound w (endSpans d) := by
  unfold endSpans
  extract_lets cut d1 d2
  have hd1 : Sound w d1 := .ite h (.raise (.countN h))
  refine .updCad (Sound.foldl (fun d s hd => ?_) hd1)
  dsimp only
  split
  · exact .ite (.modPipe hd) (.ite (.sntStop hd) hd)
  · exact hd

protected theorem Sound.commitStaged (h : Sound w d) : Sound w (commitStaged d) :=
  .foldl (fun _ _ => .setErrPage) (.updRegs h)

protected theorem Sound.clampStreams (h : Sound w d) : Sound w (clampStreams d) :=
  .foldl (fun _ _ h1 => .ite (.setField h1) h1) h

protected theorem Sound.resetStreams {was} (h : Sound w d) : Sound w (resetStreams was d) :=
  .foldl (fun _ _ h1 => .ite (.updIng h1) h1) h

protected theorem Sound.muWritten {mu} (h : Sound w d) : Sound w (muWritten mu d) := .ite h (.updTim h)

protected theorem Sound.takeStaged (h : Sound w d) : Sound w (takeStaged d) := by
  unfold takeStaged
  extract_lets d1 d2 d3 d4
  have hd1 : Sound w d1 := .resetStreams (.clampStreams (.commitStaged h))
  have hd2 : Sound w d2 := .ite (.sourceWritten hd1) hd1
  have hd3 : Sound w d3 := by
    unfold d3
    split
    · exact .muWritten hd2
    · exact hd2
  have hd4 : Sound w d4 := by
    unfold d4
    split
    · exact .ptpEnable hd3
    · exact hd3
  exact .flushEgress (.timeMoved (.applyForm hd4))

protected theorem Sound.removeTagged (h : Sound w d) : Sound w (removeTagged d) := h.same rfl rfl

protected theorem Sound.swapStandby (h : Sound w d) : Sound w (swapStandby d) := by
  unfold swapStandby
  split
  · exact .ite (.updCad h) (.updCad h)
  · exact h

protected theorem Sound.mergeFrags (h : Sound w d) : Sound w (mergeFrags d) := .ite h (.updCad h)

protected theorem Sound.boundaryWork {muChanged peer} (h : Sound w d) : Sound w (boundaryWork muChanged peer d) :=
  .settlePhase <| .updVp <| .chainsSwitch <| .refreshCache <| .mergeFrags <| .swapStandby <| .removeTagged <|
    .chansBoundary <| .monthsBoundary <| .ite (.updSealing (.turnPeriod (.takeStaged h)))
      (.sealBoundary (.takeStaged h))

protected theorem Sound.slotBoundary {peer} (h : Sound w d) : Sound w (slotBoundary peer d) := by
  unfold slotBoundary
  split
  · exact h
  · extract_lets _ d1 d2 d3 d4 d5
    have hd2 : Sound w d2 := .ite (.fetchCopies h) (.sealsWithin (.fetchCopies h))
    have hd3 : Sound w d3 := .endSpans (.updTim hd2)
    have hd4 : Sound w d4 := .ite (.stepTaken hd3) hd3
    have hd5 : Sound w d5 := by
      unfold d5
      split
      · exact .boundaryWork hd4
      · exact .boundaryWork hd4
      · exact .takeStaged hd4
      · exact hd4
    exact .sendSpoke hd5

/-! ### Identity -/

protected theorem Sound.closeSession {id} (h : Sound w d) : Sound w (closeSession id d) := h.same rfl rfl

protected theorem Sound.closeWhere {p} (h : Sound w d) : Sound w (closeWhere p d) :=
  .foldl (fun _ _ => .closeSession) h

protected theorem Sound.takeTrust {l} (h : Sound w d) : Sound w (takeTrust l d) := .closeWhere (.updKey h)

protected theorem Sound.loadTrust {b} (h : Sound w d) : Sound w (loadTrust b d) := by
  unfold loadTrust
  dsimp only
  split
  · exact .raiseFloor (.takeTrust h)
  · exact .refuseImage h

protected theorem Sound.keyReload (h : Sound w d) : Sound w (keyReload d) := by
  unfold keyReload
  split
  · exact .loadTrust h
  · exact h

/-! ### Warden -/

protected theorem Sound.modZone {z f} (h : Sound w d) : Sound w (modZone z f d) := h.same rfl rfl

protected theorem Sound.noteFault {cause index} (h : Sound w d) : Sound w (noteFault cause index d) := h.same rfl rfl

protected theorem Sound.kickstand {cause index z} (h : Sound w d) : Sound w (kickstand cause index d z) :=
  .ite h (.raise (.count (.modZone h)))

protected theorem Sound.kickstandAll {cause index zs} (h : Sound w d) : Sound w (kickstandAll cause index zs d) :=
  .foldl (fun _ _ => .kickstand) h

protected theorem Sound.kickstandChannel {cause} (h : Sound w d) : Sound w (kickstandChannel cause d) :=
  .kickstandAll (.noteFault h)

protected theorem Sound.brake {cause index z} (h : Sound w d) : Sound w (brake cause index d z) := .ite (.modZone h) h

protected theorem Sound.lose {cause index z} (h : Sound w d) : Sound w (lose cause index d z) :=
  .ite (.ite (.raise (.count (.modZone (.modZone h)))) (.brake (.modZone h))) h

protected theorem Sound.modWatch {i f} (h : Sound w d) : Sound w (modWatch i f d) := h.same rfl rfl

protected theorem Sound.expire {i stage} (h : Sound w d) : Sound w (expire i stage d) := by
  unfold expire
  split
  · exact h
  · exact .lose (.modWatch (.raise (.count h)))

protected theorem Sound.stageEvent {i stage slot at_} (h : Sound w d) : Sound w (stageEvent i stage slot at_ d) := by
  unfold stageEvent
  split
  · exact h
  · exact .ite (.expire (.modWatch h)) (.modWatch h)

protected theorem Sound.verdictEvent {i code stop limit} (h : Sound w d) :
    Sound w (verdictEvent i code stop limit d) := by
  unfold verdictEvent
  split
  · exact h
  · extract_lets _ d1 d2
    have hd2 : Sound w d2 := .ite (.modZone (.modWatch h)) (.modWatch h)
    exact .ite (.ite (.brake hd2) hd2) (.lose hd2)

protected theorem Sound.tickLost (h : Sound w d) : Sound w (tickLost d) := .foldl (fun _ _ => .lose) (.updWdn h)

protected theorem Sound.selfFault (h : Sound w d) : Sound w (selfFault d) := by
  unfold selfFault
  extract_lets d1
  have hd1 : Sound w d1 := .kickstandChannel h
  exact .updWdn hd1

protected theorem Sound.forcedBit {bit} (h : Sound w d) : Sound w (forcedBit bit d) := by
  unfold forcedBit
  dsimp only
  split
  · exact .kickstandAll (.noteFault h)
  · exact .kickstandAll (.noteFault h)
  · exact .kickstandAll (.noteFault h)
  · exact .kickstandAll (.noteFault h)
  · exact .kickstandAll (.noteFault h)
  · exact .kickstandAll (.noteFault h)
  · exact .kickstandAll (.noteFault h)
  · exact .foldl (fun _ _ => .lose) (.count (.updWdn h))
  · exact .tickLost h
  · exact .kickstandChannel h
  · exact .kickstandChannel h
  · exact .kickstandChannel h
  · exact .selfFault h
  · exact h

protected theorem Sound.takeEvent {e} (h : Sound w d) : Sound w (takeEvent d e) := by
  unfold takeEvent
  split
  · split
    · exact .modWatch h
    · exact .updWdn h
  · split
    · extract_lets e
      have he : Sound w e := .drew (.lose h)
      exact .ite (.updWdn he) (.modWatch he)
    · exact h
  · split
    · exact .ite (.verdictEvent h) (.stageEvent (.verdictEvent h))
    · exact h
  · split
    · exact .stageEvent h
    · exact h
  · exact .ite (.brake (.modZone h)) (.modZone h)
  · exact .tickLost (.raise h)
  · exact .foldl (fun _ _ => .brake) h
  · exact .forcedBit h
  · exact .updWdn h

protected theorem Sound.idleEvent {e} (h : Sound w d) : Sound w (idleEvent d e) := by
  unfold idleEvent
  split
  · exact .takeEvent h
  · exact .takeEvent h
  · exact .ite h (.takeEvent h)
  · exact h

protected theorem Sound.safeInputs {inputs} (h : Sound w d) : Sound w (safeInputs inputs d) :=
  .foldl (fun _ _ => .updWdn) (.updWdn h)

protected theorem Sound.outputFault {cause bit o} (h : Sound w d) : Sound w (outputFault cause bit o d) := by
  unfold outputFault
  extract_lets e
  have he : Sound w e := .raise (.noteFault h)
  split
  · exact .kickstand he
  · exact he

protected theorem Sound.standingFault {isNew cause bit o} (h : Sound w d) :
    Sound w (standingFault isNew cause bit o d) := .ite h (.outputFault h)

protected theorem Sound.checkOutput {readback edm o} (h : Sound w d) : Sound w (checkOutput readback edm d o) := by
  unfold checkOutput
  extract_lets _ _ _ _ d1 d2
  have hd2 : Sound w d2 := .ite (.standingFault (.updWdn h)) (.updWdn h)
  exact .ite h (.ite hd2 (.ite (.updWdn hd2) (.ite hd2 (.standingFault (.updWdn hd2)))))

protected theorem Sound.setOutput {o on} (h : Sound w d) : Sound w (setOutput o on d) := h.same rfl rfl

protected theorem Sound.driveOutput {edm o} (h : Sound w d) : Sound w (driveOutput edm d o) :=
  .ite h (.ite (.ite (.outputFault h) (.setOutput h)) (.setOutput (.ite (.raise (.count (.updWdn h))) h)))

protected theorem Sound.startPulse (h : Sound w d) : Sound w (startPulse d) := by
  unfold startPulse
  dsimp only
  split
  · exact .ite (.updWdn h) h
  · exact .updWdn h

protected theorem Sound.encoderFault (h : Sound w d) : Sound w (encoderFault d) := .kickstandAll (.raise (.noteFault h))

protected theorem Sound.encoderEdge {a b z} (h : Sound w d) : Sound w (encoderEdge a b z d) := by
  unfold encoderEdge
  extract_lets _ d1 d2
  have hd2 : Sound w d2 := .ite (.encoderFault (.updWdn h)) (.updWdn (.updWdn h))
  split
  · exact h
  · split
    · exact .updWdn h
    · split
      · split
        · exact .updWdn hd2
        · exact .ite (.encoderFault hd2) hd2
      · exact hd2

protected theorem Sound.encoderCycle (h : Sound w d) : Sound w (encoderCycle d) := by
  unfold encoderCycle
  dsimp only
  split
  · exact h
  · split
    · exact .ite (.encoderFault (.updWdn (.updWdn h))) (.updWdn (.updWdn h))
    · exact .updWdn h

protected theorem Sound.checkMotion {z} (h : Sound w d) : Sound w (checkMotion d z) := by
  unfold checkMotion
  extract_lets _ _ _ _ _ _ _ d1 _ d2 d3
  have hd2 : Sound w d2 := .ite (.kickstand (.raise (.noteFault (.modZone h)))) (.modZone h)
  have hd3 : Sound w d3 := .ite (.kickstand (.raise (.noteFault hd2))) hd2
  exact .ite (.modZone h) (.ite (.kickstand (.raise (.noteFault hd3))) hd3)

protected theorem Sound.toRun {z} (h : Sound w d) : Sound w (toRun z d) := h.same rfl rfl

protected theorem Sound.zoneCycle {was z} (h : Sound w d) : Sound w (zoneCycle was d z) := by
  unfold zoneCycle
  extract_lets _ d1 d2
  have hd1 : Sound w d1 := .ite (.brake h) h
  have hd2 : Sound w d2 := .ite (.brake hd1) hd1
  split
  · exact h
  · split
    · exact .ite (.toRun hd2) hd2
    · exact .ite (.toRun hd2) hd2
    · exact hd2

protected theorem Sound.noteLimit {z} (h : Sound w d) : Sound w (noteLimit d z) := by
  unfold noteLimit
  extract_lets _ d1 _ _ d2
  have hd2 : Sound w d2 := .ite (.modZone h) (.modZone (.modZone h))
  exact .ite (.modZone hd2) hd2

protected theorem Sound.takeXlink {x peer} (h : Sound w d) : Sound w (takeXlink x peer d) := by
  unfold takeXlink
  split
  · exact h
  · dsimp only
    split
    · exact .updWdn h
    · exact .updWdn h
    · exact .countN (.updWdn h)
    · exact .updWdn (.updWdn h)

protected theorem Sound.wardenCycle {s peer} (h : Sound w d) : Sound w (wardenCycle s peer d) :=
  .ite h <| .updWdn <| .updWdn <| .startPulse <| .foldl (fun _ _ => .driveOutput) <| .ite
    (.foldl (fun _ _ => .checkMotion) <| .foldl (fun _ _ => .noteLimit) <| .foldl (fun _ _ => .checkOutput) <|
      .foldl (fun _ _ => .zoneCycle) <| .encoderCycle <| .safeInputs <| .foldl (fun _ _ => .takeEvent) <|
      .updWdn <| .takeXlink <| .updWdn h)
    (.foldl (fun _ _ => .idleEvent) <| .ite (.updWdn <| .takeXlink <| .updWdn h)
      (.safeInputs <| .updWdn <| .takeXlink <| .updWdn h))

protected theorem Sound.pulseEnds {o ok} (h : Sound w d) : Sound w (pulseEnds o ok d) :=
  .ite (.ite (.count (.updWdn (.updWdn h))) (.outputFault (.updWdn h))) h

protected theorem Sound.pulseDue {o} (h : Sound w d) : Sound w (pulseDue o d) := h.same rfl rfl

protected theorem Sound.discTimeout {n} (h : Sound w d) : Sound w (discTimeout n d) :=
  .ite (.kickstandAll (.raise (.noteFault (.updWdn h)))) h

protected theorem Sound.edmTimeout {o} (h : Sound w d) : Sound w (edmTimeout o d) := .ite (.outputFault (.updWdn h)) h

protected theorem Sound.xlinkTimeout (h : Sound w d) : Sound w (xlinkTimeout d) :=
  .ite h (.kickstandChannel (.raise (.updWdn h)))

protected theorem Sound.clockWindow (h : Sound w d) : Sound w (clockWindow d) :=
  .ite h (.ite (.updWdn (.updWdn h)) (.kickstandChannel (.raise (.updWdn (.updWdn h)))))

protected theorem Sound.profileCheck {ok} (h : Sound w d) : Sound w (profileCheck ok d) :=
  .ite h (.raise (.selfFault h))

protected theorem Sound.configFault (h : Sound w d) : Sound w (configFault d) :=
  .ite (.kickstandChannel (.raise (.updWdn h))) h

protected theorem Sound.hostStop {mask} (h : Sound w d) : Sound w (hostStop mask d) :=
  .foldl (fun _ _ => .brake) (.updWdn h)

protected theorem Sound.hostRelease {mask} (h : Sound w d) : Sound w (hostRelease mask d) := h.same rfl rfl

protected theorem Sound.symbolTick (h : Sound w d) : Sound w (symbolTick d) := .ite h (.updWdn (.ite (.updTim h) h))

protected theorem Sound.tickLoss (h : Sound w d) : Sound w (tickLoss d) := .ite h (.tickLost (.raise (.updWdn h)))

protected theorem Sound.watchdog {i stage} (h : Sound w d) : Sound w (watchdog i stage d) := by
  unfold watchdog
  split
  · exact h
  · split
    · exact h
    · split
      · exact .expire h
      · split
        · split
          · exact .expire (.modWatch h)
          · exact h
        · exact h

protected theorem Sound.freewheelExpiry {z} (h : Sound w d) : Sound w (freewheelExpiry z d) := .ite (.brake h) h

protected theorem Sound.permitStale {z} (h : Sound w d) : Sound w (permitStale z d) := .ite (.brake h) h

protected theorem Sound.resetActs (h : Sound w d) : Sound w (resetActs d) := by
  refine Sound.foldl (fun d z hd => ?_) (.updWdn h)
  split
  · exact .ite (.modZone hd) hd
  · exact .modZone hd
  · exact hd

protected theorem Sound.wdnReset {v : DieId} {peer : Die} (h : Sound w d) (hp : Sound v peer) :
    SoundPair w v (wdnReset d peer) := by
  refine .ite ⟨h, hp⟩ ?_
  split
  · exact .ite ⟨.resetActs h, .resetActs hp⟩ ⟨.updWdn h, hp⟩
  · exact ⟨.updWdn h, hp⟩

protected theorem Sound.startUp {passed peerTable} (h : Sound w d) : Sound w (startUp passed peerTable d) := by
  unfold startUp
  split
  · exact h
  · dsimp only
    split
    · exact .raise (.noteFault (.updWdn h))
    · exact .ite (.raise (.selfFault (.updWdn h)))
        (.ite (.updWdn (.updWdn h)) (.kickstandAll (.raise (.noteFault (.updWdn (.updWdn h))))))

/-! ### RegRead -/

protected theorem Sound.readEffect {page off} (h : Sound w d) : Sound w (readEffect page off d) := by
  unfold readEffect
  extract_lets _ e
  have he : Sound w e := .ite h (.ite (.updFcu h) (h.same rfl rfl))
  exact .ite (.updTim he) (.ite (.updTim he) (.ite (.updSealing he) (.ite (.updRat he) (.ite (.updRat he) he))))

protected theorem Sound.bodyRead {peer page off} (h : Sound w d) : Sound w (bodyRead peer page off d).2 := .readEffect h

protected theorem Sound.regRead {peer addr} (h : Sound w d) : Sound w (regRead peer addr d).2 := by
  unfold regRead
  dsimp only
  split
  · exact h
  · split
    · exact h
    · exact .bodyRead h

/-! ### RegWrite -/

protected theorem Sound.commitHeld {page} (h : Sound w d) : Sound w (commitHeld page d) := h.same rfl rfl

protected theorem Sound.enablePage {page} (h : Sound w d) : Sound w (enablePage page d) := by
  unfold enablePage
  extract_lets e
  have he : Sound w e := .commitHeld (.updRegs h)
  exact .ite (.linkRestore he) he

protected theorem Sound.disablePage {page} (h : Sound w d) : Sound w (disablePage page d) :=
  .updRegs (.ite (.updWlk h) (.ite (.hostLink h) (.ite (.loseGates (.pelLink h)) h)))

protected theorem Sound.blkCtrl {page v} (h : Sound w d) : Sound w (blkCtrl page v d) :=
  .ite h (.ite (.ite h (.enablePage h)) (.ite (.disablePage h) h))

protected theorem Sound.writeField {late page off word f} (h : Sound w d) :
    Sound w (writeField late page off word d f) := by
  unfold writeField
  dsimp only
  split
  · exact h
  · split
    · exact .setField h
    · exact .updRegs h
    · exact .ite h (.updRegs h)

protected theorem Sound.writeFields {page off word} (h : Sound w d) : Sound w (writeFields page off word d) :=
  .ite (.foldl (fun _ _ => .writeField) (.drew h)) (.foldl (fun _ _ => .writeField) h)

protected theorem Sound.capClear {page off v} (h : Sound w d) : Sound w (capClear page off v d) := .ite (.setCap h) h

protected theorem Sound.epochWrite {hi} (h : Sound w d) : Sound w (epochWrite hi d) := by
  unfold epochWrite
  dsimp only
  split
  · exact .updTim (.writeFields (.writeFields h))
  · exact .writeFields h

protected theorem Sound.writeGate {i word} (h : Sound w d) : Sound w (writeGate i word d) := h.same rfl rfl

/-! ### Pannier -/

protected theorem Sound.arrives {f} (h : Sound w d) : Sound w (arrives f d).2 := .hostTake h

protected theorem Sound.badTag {id} (h : Sound w d) : Sound w (badTag id d) := .raise (.count (.modSession h))

protected theorem Sound.noteFrame {id n} (h : Sound w d) : Sound w (noteFrame id n d) := h.same rfl rfl

protected theorem Sound.answerAgain {typ s n} (h : Sound w d) : Sound w (answerAgain typ s n d) := by
  unfold answerAgain
  split
  · exact .sendRaw h
  · exact h

protected theorem Sound.takeRequest {typ f} (h : Sound w d) : Sound w (takeRequest typ f d).2 := by
  unfold takeRequest
  split
  · next eq => exact h.arrives.ofSnd eq
  · next eq =>
    have hx := h.arrives.ofSnd eq
    split
    · exact hx
    · split
      · exact hx
      · split
        · exact .badTag hx
        · split
          · exact hx
          · split
            · exact .answerAgain hx
            · exact .noteFrame hx

protected theorem Sound.result {x f status payload} (h : Sound w d) : Sound w (result x f status payload d) :=
  .sendResult h

protected theorem Sound.resultCode {x f code} (h : Sound w d) : Sound w (resultCode x f code d) := .result h

protected theorem Sound.resultFree {x f} (h : Sound w d) : Sound w (resultFree x f d) := .resultCode (.drew h)

protected theorem Sound.onCommand {code len : Nat} {roles : List Nat} {x : Session} {f : PFrame} {run : Die → Die}
    (hrun : ∀ x, Sound w x → Sound w (run x)) (h : Sound w d) :
    Sound w (onCommand code len roles x f run d) :=
  .ite (.result h) (.ite (.result h) (hrun _ h))

protected theorem Sound.refuseSession (h : Sound w d) : Sound w (refuseSession d) := .raise (.count h)

protected theorem Sound.openSession {p} (h : Sound w d) : Sound w (openSession p d) :=
  .sendRaw (.updKey (.drew (.drew h)))

protected theorem Sound.openFrame {f} (h : Sound w d) : Sound w (openFrame f d) := by
  unfold openFrame
  split
  · next eq => exact h.arrives.ofSnd eq
  · next eq =>
    have hx := h.arrives.ofSnd eq
    exact .ite hx (.ite (.refuseSession hx) (.openSession (.updKey hx)))

protected theorem Sound.confirmFrame {f} (h : Sound w d) : Sound w (confirmFrame f d) := by
  unfold confirmFrame
  split
  · next eq => exact h.arrives.ofSnd eq
  · next eq =>
    have hx := h.arrives.ofSnd eq
    split
    · exact hx
    · exact .ite (.badTag hx) (.ite (.ite (.answerAgain hx) hx)
        (.ite (.result (.modSession (.noteFrame hx))) (.refuseSession (.closeSession hx))))

protected theorem Sound.confirmTimeout {id} (h : Sound w d) : Sound w (confirmTimeout id d) := by
  unfold confirmTimeout
  split
  · exact .ite h (.refuseSession (.closeSession h))
  · exact h

protected theorem Sound.idleTimeout {id} (h : Sound w d) : Sound w (idleTimeout id d) := by
  unfold idleTimeout
  split
  · exact .ite (.closeSession h) h
  · exact h

protected theorem Sound.tagFailLimit {id} (h : Sound w d) : Sound w (tagFailLimit id d) := by
  unfold tagFailLimit
  split
  · exact .ite (.closeSession h) h
  · exact h

protected theorem Sound.readAll {peer addrs} (h : Sound w d) : Sound w (readAll peer addrs d).2 := by
  induction addrs generalizing d with
  | nil => exact h
  | cons a r ih =>
    refine ih ?_
    split
    · exact .regRead h
    · exact h

protected theorem Sound.readFrame {f peer x} (h : Sound w d) : Sound w (readFrame f peer x d) :=
  .ite (.result h) (.result (.readAll h))

protected theorem Sound.resultWrite {x f wasUp} (h : Sound w d) : Sound w (resultWrite x f wasUp d) := by
  unfold resultWrite
  split
  · split
    · exact h
    · exact .enqueueFrame (.modSession h)
  · exact .result h

protected theorem Sound.admitCmd {f peer x} (h : Sound w d) : Sound w (admitCmd f peer x d) := by
  refine Sound.onCommand (fun d hd => .ite (.result hd) (.ite ?_ (.reportSlot ?_))) h
  · exact .bulkDone (.bulkDone (.admitOn (.result hd)))
  · exact .bulkDone (.bulkDone (.admitOn (.result hd)))

protected theorem Sound.withdrawCmd {f x} (h : Sound w d) : Sound w (withdrawCmd f x d) := by
  refine Sound.onCommand (fun d hd => ?_) h
  dsimp only
  split
  · exact .resultCode hd
  · exact .result (.settlePhase (.ite (.endAdmission hd) (.withdrawModel hd)))

protected theorem Sound.turnCmd {f x} (h : Sound w d) : Sound w (turnCmd f x d) := by
  refine Sound.onCommand (fun d hd => ?_) h
  dsimp only
  split
  · exact .ite (.result (.requestTurn hd)) (.resultCode hd)
  · exact .resultCode hd

protected theorem Sound.acceptFloor {b} (h : Sound w d) : Sound w (acceptFloor b d) := .ite (.raiseFloor h) h

protected theorem Sound.flashCmd {f readBack x} (h : Sound w d) : Sound w (flashCmd f readBack x d) := by
  refine Sound.onCommand (fun d hd => ?_) h
  dsimp only
  split
  · exact .result hd
  · exact .ite (.resultFree (.refuseImage (.bulkDone hd)))
      (.ite (.ite (.keyReload (.result (.updKey (.acceptFloor (.bulkDone hd)))))
          (.result (.updKey (.acceptFloor (.bulkDone hd)))))
        (.resultFree (.drew (.updKey (.acceptFloor (.bulkDone hd))))))

protected theorem Sound.claimCmd {f x} (h : Sound w d) : Sound w (claimCmd f x d) :=
  .onCommand (fun _ h1 => .ite (.resultFree h1) (.ite (.result h1) (.rpmbQueue h1))) h

protected theorem Sound.releaseCmd {f x} (h : Sound w d) : Sound w (releaseCmd f x d) :=
  .onCommand (fun _ h1 => .ite (.resultFree h1) (.ite (.result h1) (.rpmbQueue h1))) h

protected theorem Sound.unlockCmd {f x} (h : Sound w d) : Sound w (unlockCmd f x d) :=
  .onCommand (fun _ h1 => .ite (.result (.setDebug h1)) (.resultFree (.raise h1))) h

protected theorem Sound.lockCmd {f x} (h : Sound w d) : Sound w (lockCmd f x d) :=
  .onCommand (fun _ h1 => .result (.setDebug h1)) h

protected theorem Sound.subscribeCmd {f x} (h : Sound w d) : Sound w (subscribeCmd f x d) :=
  .onCommand (fun _ h1 => .ite (.result h1) (.result (.modSession h1))) h

protected theorem Sound.sealAckFrame {f x} (h : Sound w d) : Sound w (sealAckFrame f x d) :=
  .ite (.result h) (.ite (.result (.updSealing h)) (.result h))

protected theorem Sound.putFragment {target off data} (h : Sound w d) : Sound w (putFragment target off data d) :=
  .ite (.updCad (.updKey h)) (.updKey h)

protected theorem Sound.resultPut {x f target} (h : Sound w d) : Sound w (resultPut x f target d) := .answer h

protected theorem Sound.bulkPutFrame {f x} (h : Sound w d) : Sound w (bulkPutFrame f x d) := by
  unfold bulkPutFrame
  dsimp only
  split
  · exact .answer h
  · split
    · exact .answer h
    · split
      · split
        · exact .ite (.answer h) (.answer h)
        · exact .ite (.answer (.bulkDone h))
            (.ite (.answer (.bulkDone h)) (.resultPut (.putFragment (.updKey (.bulkDone h)))))
      · exact .ite (.answer h) (.resultPut (.putFragment (.ite h (.updKey h))))

protected theorem Sound.bulkGetFrame {f x} (h : Sound w d) : Sound w (bulkGetFrame f x d) := by
  unfold bulkGetFrame
  dsimp only
  split
  · exact .answer h
  · split
    · exact .answer h
    · split
      · exact .answer (.drew h)
      · exact .answer h

/-! ### Boot -/

protected theorem Sound.resetDie (h : Sound w d) : Sound w (resetDie d) := by
  unfold resetDie
  exact ⟨h.1, List.forall_mem_nil _⟩

protected theorem Sound.railFault (h : Sound w d) : Sound w (railFault d) := .ite h (.fcuCond (.updFcu h))

protected theorem Sound.wardenDown (h : Sound w d) : Sound w (wardenDown d) := h.same rfl rfl

protected theorem Sound.sysclkOut (h : Sound w d) : Sound w (sysclkOut d) :=
  .ite (.updFcu h) (.tellWarden (.updFcu (.updFcu h)))

protected theorem Sound.sysclkBack (h : Sound w d) : Sound w (sysclkBack d) :=
  .ite (.enterAutumn (.updFcu h)) (.updFcu h)

protected theorem Sound.pllLost (h : Sound w d) : Sound w (pllLost d) := .ite h (.fcuCond (.updFcu h))

protected theorem Sound.thawFail {step cause} (h : Sound w d) : Sound w (thawFail step cause d) := h.same rfl rfl

protected theorem Sound.thawStep {n} (h : Sound w d) : Sound w (thawStep n d) := h.same rfl rfl

protected theorem Sound.deriveKeys {boot} (h : Sound w d) : Sound w (deriveKeys boot d) :=
  .ite (.raise (.updKey h)) (.updKey h)

protected theorem Sound.takeStorage {boot} (h : Sound w d) : Sound w (takeStorage boot d) := h.same rfl rfl

protected theorem Sound.takeUnits {u} (h : Sound w d) : Sound w (takeUnits u d) := h.same rfl rfl

protected theorem Sound.takeMap {boot} (h : Sound w d) : Sound w (takeMap boot d) :=
  .raiseFloor (.takeUnits (.updKey h))

protected theorem Sound.quietMove {c} (h : Sound w d) : Sound w (quietMove c d) := .foldl (fun _ _ => .modPool) h

protected theorem Sound.replayExt {r last} (h : Sound w d) : Sound w (replayExt r last d).2 := by
  unfold replayExt
  dsimp only
  split
  · split
    · exact .updMem h
    · split
      · exact .updMem h
      · exact .ite (.quietMove (.setUnit h)) (.setUnit h)
  · split
    · exact .setUnit (.modPool h)
    · exact h
  · exact .updMem h
  · exact .updMem h
  · exact h

/-- The die that a replay of the unit map's extension leaves. -/
theorem Sound.extWalk {rs : List Bytes} {last : AMap Nat} (h : Sound w d) :
    Sound w (rs.foldl (fun q r => Machine.replayExt r q.1 q.2) (last, d)).2 := by
  induction rs generalizing last d with
  | nil => exact h
  | cons r rs ih => exact ih h.replayExt

protected theorem Sound.takeExt {records} (h : Sound w d) : Sound w (takeExt records d) :=
  .updKey (Sound.extWalk (.ite (.raise h) h))

protected theorem Sound.takeFirmware {slot boot} (h : Sound w d) : Sound w (takeFirmware slot boot d) := h.same rfl rfl

protected theorem Sound.takeFlash {boot} (h : Sound w d) : Sound w (takeFlash boot d) := h.same rfl rfl

protected theorem Sound.bumpBootNo (h : Sound w d) : Sound w (bumpBootNo d) := h.same rfl rfl

protected theorem Sound.takeOwnerImages {boot} (h : Sound w d) : Sound w (takeOwnerImages boot d) := by
  unfold takeOwnerImages
  extract_lets e
  have he : Sound w e := .ite h (.loadTrust h)
  exact .ite he (.ite (.raiseFloor (.updWdn he)) (.refuseImage he))

protected theorem Sound.takeMemories {boot} (h : Sound w d) : Sound w (takeMemories boot d) := h.same rfl rfl

protected theorem Sound.takeResident {b} (h : Sound w d) : Sound w (takeResident d b) := by
  unfold takeResident
  split
  · exact h
  · split
    · exact .setImage (.placeImage h)
    · exact .refuseImage h
    · exact h

protected theorem Sound.takeTemps (h : Sound w d) : Sound w (takeTemps d) := by
  unfold takeTemps
  extract_lets d1 d2
  have hd1 : Sound w d1 := .ite (.fcuCond h) h
  have hd2 : Sound w d2 := .ite (.fcuCond hd1) hd1
  exact .ite (.raise hd2) hd2

protected theorem Sound.thawLate {boot} (h : Sound w d) : Sound w (thawLate boot d) := by
  unfold thawLate
  extract_lets e
  have he : Sound w e := .takeMemories (.thawStep (.takeOwnerImages h))
  exact .ite (.thawFail (.raise he))
      (.ite (.thawFail he)
      (.ite (.thawFail (.raise he)) (.ite (.thawFail he) (.thawStep (.foldl (fun _ _ => .takeResident) he)))))

protected theorem Sound.thawMid {boot} (h : Sound w d) : Sound w (thawMid boot d) := by
  unfold thawMid
  split
  · exact .thawFail h
  · exact .ite (.thawFail (.takeFirmware h))
      (.ite (.thawFail (.takeFirmware h))
      (.thawLate (.thawStep (.bumpBootNo (.ite (.recordExt (.takeFirmware h)) (.takeFirmware h))))))

protected theorem Sound.thaw {boot} (h : Sound w d) : Sound w (thaw boot d) := by
  unfold thaw
  extract_lets d1 d2
  have hd1 : Sound w d1 := .newNonce (.changePhase h)
  have hd2 : Sound w d2 := .takeFlash (.takeStorage (.deriveKeys hd1))
  split
  · exact .thawFail (.updKey hd1)
  · split
    · exact .takeTemps (.thawMid (.takeExt (.takeMap hd2)))
    · exact .thawFail hd2

protected theorem Sound.enableHost (h : Sound w d) : Sound w (enableHost d) :=
  .enablePage (.updHst (.setField (.setField (.setField (.setField h)))))

protected theorem Sound.thawPin (h : Sound w d) : Sound w (thawPin d) := .applyForm (.updFcu h)

protected theorem Sound.thawEnd (h : Sound w d) : Sound w (thawEnd d) :=
  .linkRestore (.thawPin (.enterSpring (.enableHost (.raiseFloor (.thawStep h)))))

protected theorem Sound.thawDone {passed cause} (h : Sound w d) : Sound w (thawDone passed cause d) :=
  .ite (.ite (.ite (.thawEnd h) h) (.thawFail h)) h

protected theorem Sound.reinitDone {passed} (h : Sound w d) : Sound w (reinitDone passed d) :=
  .ite (.linkRestore (.autumnDone h)) h

/-! ### Radio -/

protected theorem Sound.noteRecords {serial rtype entry p} (h : Sound w d) :
    Sound w (noteRecords serial rtype entry p d) := h.same rfl rfl

protected theorem Sound.fftInstance {lead entry b m o rs} (h : Sound w d) :
    Sound w (fftInstance lead entry b m o rs d) := by
  unfold fftInstance
  split
  · split
    · exact h
    · dsimp only
      split
      · exact .failCheck (.noteRecords (.countN (.countN h)))
      · exact .noteRecords (.countN (.countN h))
  · exact h

protected theorem Sound.fftcBatch {lead desc b m t} (h : Sound w d) : Sound w (fftcBatch lead desc b m t d) := by
  unfold fftcBatch
  split
  · exact .foldl (fun _ _ => .fftInstance) h
  · exact h

protected theorem Sound.ldpcBatch {desc b m t} (h : Sound w d) : Sound w (ldpcBatch desc b m t d) :=
  .ite (.noteRecords h) (.modTicket (.noteRecords h))

protected theorem Sound.crcBatch {desc b m t} (h : Sound w d) : Sound w (crcBatch desc b m t d) :=
  .ite (.noteRecords h) (.modTicket (.noteRecords h))

end

end Sys2Proof.Machine
end

section
/-! SUPPORT. What a command may change of the machine: the queue never, the package by a few commands, a die that the command
names, and no die's soundness. -/

namespace Sys2Proof.Machine

/-! ## How a command changes the machine -/

/-- Every die is sound at its place. -/
def AllSound (s : State) : Prop := ∀ d, Sound d (s.die d)

/-- What a command may change: the dies of a list, and the package where `pk` holds. The queue stays, and sound dies stay
sound. -/
structure Carries (pk : Bool) (ds : List DieId) (s t : State) : Prop where
  pending : t.pending = s.pending
  pkg : pk = false → t.pkg = s.pkg
  others : ∀ d, d ∉ ds → t.die d = s.die d
  sound : AllSound s → AllSound t

section
variable {pk : Bool} {ds : List DieId} {d : DieId} {s t u : State} {f : Die → Die}

protected theorem Carries.refl : Carries pk ds s s := ⟨rfl, fun _ => rfl, fun _ _ => rfl, id⟩

protected theorem Carries.trans (h : Carries pk ds s t) (k : Carries pk ds t u) : Carries pk ds s u :=
  ⟨k.pending.trans h.pending, fun e => (k.pkg e).trans (h.pkg e), fun d hd => (k.others d hd).trans (h.others d hd),
    fun hs => k.sound (h.sound hs)⟩

theorem mem_dies (d : DieId) : d ∈ [DieId.a, .b] := by
  cases d
  · exact .head _
  · exact .tail _ (.head _)

/-- A command that names some dies changes no more than one that names both. -/
protected theorem Carries.both (h : Carries pk ds s t) : Carries pk [.a, .b] s t :=
  ⟨h.pending, h.pkg, fun d hd => absurd (mem_dies d) hd, h.sound⟩

protected theorem Carries.setDie {x : Die} (hd : d ∈ ds) (hx : Sound d (s.die d) → Sound d x) :
    Carries pk ds s (s.setDie d x) := by
  refine ⟨State.setDie_pending .., fun _ => State.setDie_pkg .., fun e he => ?_, fun hs e => ?_⟩
  · exact State.die_setDie_other s (ne_of_mem_of_not_mem hd he).symm x
  · by_cases eq : e = d
    · subst eq
      rw [State.die_setDie_same]
      exact hx (hs e)
    · rw [State.die_setDie_other s eq]
      exact hs e

protected theorem Carries.onDie (hd : d ∈ ds) (hf : ∀ x, Sound d x → Sound d (f x)) :
    Carries pk ds s (onDie d f s) :=
  .setDie hd (hf _)

/-- A change of the two dies that each needs the other for. -/
protected theorem Carries.pair {p : Die × Die}
    (hp : Sound d (s.die d) → Sound d.other (s.die d.other) → SoundPair d d.other p) :
    Carries pk [.a, .b] s ((s.setDie d p.1).setDie d.other p.2) := by
  refine ⟨by simp, fun _ => by simp, fun e he => absurd (mem_dies e) he, fun hs e => ?_⟩
  obtain ⟨hd, ho⟩ := hp (hs d) (hs d.other)
  cases d <;> cases e
  · exact hd
  · exact ho
  · exact ho
  · exact hd

/-- A change of the package alone. -/
protected theorem Carries.setPkg {p : Package} : Carries true ds s { s with pkg := p } :=
  ⟨rfl, nofun, fun d _ => by cases d <;> rfl, fun hs d => by cases d; exacts [hs .a, hs .b]⟩

protected theorem Carries.ite {c : Prop} [Decidable c] (ht : Carries pk ds s t) (hu : Carries pk ds s u) :
    Carries pk ds s (if c then t else u) := by
  split
  · exact ht
  · exact hu

/-- An outcome that is a next state, changed by what a command may change. -/
def Carried (pk : Bool) (ds : List DieId) (s : State) (o : Host.Outcome State Fault Refusal) : Prop :=
  ∃ t, o = .next t ∧ Carries pk ds s t

protected theorem Carried.next (h : Carries pk ds s t) : Carried pk ds s (.next t) := ⟨t, rfl, h⟩

protected theorem Carried.run (hf : ∀ x, Sound d x → Sound d (f x)) : Carried pk [d] s (runDie d f s) :=
  .next (.onDie (.head _) hf)

protected theorem Carried.after {o : Host.Outcome State Fault Refusal} (h : Carried pk ds s o) :
    Carries pk ds s (after o s) := by
  obtain ⟨t, rfl, ht⟩ := h
  exact ht

/-- A request of a session: the frame is taken, and what it asks for is done in an open session. -/
protected theorem Carried.onRequest {typ : Nat} {p : PFrame} {run : Session → State → State} (hd : d ∈ ds)
    (hrun : ∀ x t, Carries pk ds t (run x t)) : Carried pk ds s (onRequest typ d p run s) := by
  have taken : Carries pk ds s (s.setDie d (takeRequest typ p (s.die d)).2) := .setDie hd .takeRequest
  refine .next (taken.trans ?_)
  split
  · exact hrun _ _
  · exact .refl

protected theorem Carried.dieRequest {typ : Nat} {p : PFrame} {run : Session → Die → Die}
    (hrun : ∀ q x, Sound d x → Sound d (run q x)) : Carried pk [d] s (dieRequest typ d p run s) :=
  .onRequest (.head _) fun _ _ => .onDie (.head _) (hrun _)
end

/-! ## The commands -/

section
variable {pk : Bool} {ds : List DieId} {d : DieId} {s : State}

protected theorem Carried.ite {c : Prop} [Decidable c] {x y : Host.Outcome State Fault Refusal} (hx : Carried pk ds s x)
    (hy : Carried pk ds s y) : Carried pk ds s (if c then x else y) := by
  split
  · exact hx
  · exact hy

protected theorem Carries.resetBoth : Carries pk [.a, .b] s (resetBoth s) :=
  .trans (.onDie (mem_dies _) fun _ => .resetDie) (.onDie (mem_dies _) fun _ => .resetDie)

protected theorem Carried.resetNPulse {lowNs : Nat} : Carried pk [.a, .b] s (execResetNPulse lowNs s) := by
  have drawn : Carries pk [.a, .b] s (Machine.onDie .a drew s) := .onDie (mem_dies _) fun _ => .drew
  exact .ite (.next .refl) (.ite (.next .resetBoth) (.next (.ite (drawn.trans .resetBoth) drawn)))

protected theorem Carried.scrubPassOverrun {kind : MemKind} : Carried pk [d] s (execScrubPassOverrun d kind s) := by
  cases kind with
  | sram => exact .run fun _ => .raise
  | hbm => exact .run fun _ => .raise

protected theorem Carried.handoverTakeEffect : Carried pk [.a, .b] s (execHandoverTakeEffect d s) := by
  cases d with
  | a => exact .next (.pair (d := .a) fun h k => h.takeHandover k)
  | b => exact .next (.pair (d := .b) fun h k => h.takeHandover k)

protected theorem Carried.chnCmdCreate {c : BitVec 15} : Carried pk [.a, .b] s (execChnCmdCreate d c s) := by
  cases d with
  | a => exact .next (.pair (d := .a) fun h k => h.chnCreate k)
  | b => exact .next (.pair (d := .b) fun h k => h.chnCreate k)

protected theorem Carried.railUndervoltage {rail : Rail} :
    Carried true (railHeld rail) s (execRailUndervoltage rail s) := by
  cases rail with
  | vddSys d => exact .next (.trans .setPkg (.onDie (.head _) fun _ => .resetDie))
  | vddWdn d => exact .next (.trans .setPkg (.onDie (.head _) fun _ => .wardenDown))
  | vddioWdn d => exact .next (.trans .setPkg (.onDie (.head _) fun _ => .wardenDown))
  | _ => exact .next .setPkg

protected theorem Carried.switchWordChange {word : BitVec 16} :
    Carried pk [.a, .b] s (execSwitchWordChange d word s) := by
  have noted : Carries pk [.a, .b] s (Machine.onDie d (updWdn (fun w => { w with switches := word.toNat })) s) :=
    .onDie (mem_dies _) fun _ => .updWdn
  have faulted (e : DieId) (t : State) : Carries pk [.a, .b] t (Machine.onDie e configFault t) :=
    .onDie (mem_dies _) fun _ => .configFault
  exact .ite (.next noted) (.next (noted.trans ((faulted d _).trans (faulted d.other _))))

end

/-- The commands that write registers by their address. -/
def writesRegisters : Instr → Bool
  | .registerWrite _ _ _ | .glbModeStrict _ _ | .write _ _ => true
  | _ => false

/-- Each command that writes no register by its address changes only what it may. -/
theorem exec_carried_of_not_writing (c : Instr) (s : State) (hw : writesRegisters c = false) :
    Carried (changesPackage c) (touches c) s (exec c s) := by
  cases c with
  | resetNPulse => exact .resetNPulse
  | resetRelease => exact .ite (.run fun _ => .thaw) (.next .refl)
  | railOutOfRange => exact .next (.trans .setPkg (.trans
      (.ite (.onDie (mem_dies _) fun _ => .railFault) .refl) (.ite (.onDie (mem_dies _) fun _ => .railFault) .refl)))
  | railUndervoltage => exact .railUndervoltage
  | sysclkOutOfRange => exact .run fun _ => .sysclkOut
  | refclkLoss => exact .next (.trans .setPkg (.trans
      (.onDie (mem_dies _) fun _ => .pllLost) (.onDie (mem_dies _) fun _ => .pllLost)))
  | junctionTempCrossing => exact .run fun _ => .junction
  | hbmTempCrossing => exact .next (.trans
      (.onDie (mem_dies _) fun _ => .hbmTemp) (.onDie (mem_dies _) fun _ => .hbmTemp))
  | fcuSourceLatch => exact .run fun _ => .fcuLatch
  | autumnReinitDone => exact .run fun _ => .reinitDone
  | autumnTimeout => exact .run fun _ => .autumnTimeout
  | fcuSrcClear => exact .run fun _ => .srcClear
  | fcuAck => exact .run fun _ => .fcuAck
  | faultNMinPulseExpiry => exact .run fun _ => .minPulseExpiry
  | faultNHalfPeriod => exact .run fun _ => .halfPeriod
  | fabricStall => exact .run fun _ => .fabricStall
  | blkErrClear => exact .run fun _ => .blkErrClear
  | blkErrForce => exact .run fun _ => .blkErrForce
  | blkCtrlEnableWrite => exact .next (.trans
      (.onDie (mem_dies _) fun _ => .blkCtrl) (.ite (.onDie (mem_dies _) fun _ => .updHst) .refl))
  | registerWrite => exact nomatch hw
  | slotBoundary => exact .run fun _ => .slotBoundary
  | symbolTick => exact .run fun _ => .symbolTick
  | scrubRead => exact .run fun _ => .scrubRead
  | scrubPassOverrun => exact .scrubPassOverrun
  | rowRewrite => exact .run fun _ => .rowRewrite
  | rowSpareDone => exact .run fun _ => .spareDone
  | unitMapExtensionWrite => exact .run fun _ => .extWrite
  | extensionWriteRetry => exact .run fun _ h => .ite (.extWrite h) h
  | flitSlotTx => exact .run fun _ => .flitSlot
  | dataFlit => exact .run fun _ => .takeFlit
  | idleFlit => exact .run fun _ => .takeFlit
  | hello => exact .run fun _ => .takeFlit
  | helloTx => exact .run fun _ => .helloTx
  | lanesLocked => exact .run fun _ => .lanesLocked
  | adaptTimeout => exact .run fun _ => .adaptTimeout
  | flitLock => exact .run fun _ => .flitLock
  | flitHuntTimeout => exact .run fun _ => .backToAdapt
  | helloTimeout => exact .run fun _ => .backToAdapt
  | retrainLimitExpiry => exact .run fun _ => .retrainLimit
  | nakRepeatLimit => exact .run fun _ => .linkRetrain
  | flitLockLost => exact .run fun _ => .linkRetrain
  | cdrLockLost => exact .run fun _ => .linkRetrain
  | fecErrorThreshold => exact .run fun _ => .fecOver
  | creditProgressTimeout => exact .run fun _ => .creditTimeout
  | wlkCmdRetrain => exact .run fun _ => .linkRetrain
  | wlkCmdResync => exact .run fun _ => .linkResync
  | wlkCmdRestore => exact .run fun _ => .linkRestore
  | wlkCmdRetire => exact .run fun _ => .linkRetire
  | stampedFrameForward => exact .run fun _ => .forward
  | layerOut => exact .run fun _ => .record
  | layerIn => exact .run fun _ => .record
  | attnOut => exact .run fun _ => .record
  | tokenEnd => exact .run fun _ => .record
  | batchEnd => exact .run fun _ => .record
  | output => exact .run fun _ => .record
  | radioFft => exact .run fun _ => .record
  | radioLdpc => exact .run fun _ => .record
  | radioTb => exact .run fun _ => .record
  | shardDigest => exact .run fun _ => .record
  | weightChunk => exact .run fun _ => .record
  | ratchetBump => exact .run fun _ => .record
  | heartbeat => exact .run fun _ => .record
  | heartbeatTimeout => exact .run fun _ => .heartbeatTimeout
  | stagingRoomFree => exact .run fun _ h => .ite (.retryHeld h) h
  | ticketAvailable => exact .run fun _ => .retryHeld
  | admitModel => exact .dieRequest fun _ _ => .admitCmd
  | spokeAdmit => exact .run fun _ h => .spokeTake (fun _ => .spokeAdmitOn) h
  | weightStreamStart => exact .run fun _ => .streamStart
  | rpmbWriteConfirm => exact .run fun _ => .rpmbConfirm
  | rpmbAdmissionTimeout => exact .run fun _ => .rpmbTimeout
  | rpmbRetry => exact .run fun _ h => .ite h (.raise h)
  | rpmbLost => exact .run fun _ h => .ite h (.raise h)
  | loadTimeout => exact .run fun _ => .loadTimeout
  | withdraw => exact .dieRequest fun _ _ => .withdrawCmd
  | turn => exact .dieRequest fun _ _ => .turnCmd
  | monthPeriodExpiry => exact .run fun _ => .monthExpiry
  | monthTurnStart => exact .run fun _ => .turnStart
  | spokeTurn => exact .run fun _ h => .spokeTake (fun _ => .spokeTurnOn) h
  | nop => exact .run fun _ h => .issue (fun _ hx => .some (.nextPc hx)) h
  | movi => exact .run fun _ h => .issue (fun _ hx => .some (.nextPc (.setReg hx))) h
  | add => exact .run fun _ h => .issue (fun _ hx => .some (.nextPc (.setReg hx))) h
  | addi => exact .run fun _ h => .issue (fun _ hx => .some (.nextPc (.setReg hx))) h
  | mul => exact .run fun _ h => .issue (fun _ hx => .some (.nextPc (.setReg hx))) h
  | shl => exact .run fun _ h => .issue (fun _ hx => .some (.nextPc (.setReg hx))) h
  | ldc => exact .run fun _ h => .issue (fun _ => .loadConst) h
  | ldb => exact .run fun _ h => .issue (fun _ hx => .ite (.some (.nextPc (.setReg hx))) .none) h
  | loop => exact .run fun _ h => .issue (fun _ hx => .some (.loopBack hx)) h
  | jmp => exact .run fun _ h => .issue (fun _ hx => .some (.jumpPc hx)) h
  | wrec => exact .run fun _ h => .issue (fun _ => .wrec) h
  | next => exact .run fun _ h => .issue (fun _ => .nextToken) h
  | sync => exact .run fun _ h => .issue (fun _ => .syncEngines) h
  | mark => exact .run fun _ h => .issue (fun _ hx => .some (.markBatches hx)) h
  | done => exact .run fun _ h => .issue (fun _ => .programDone) h
  | rchk => exact .run fun _ h => .passRun (fun _ _ _ _ => .residueToken) h
  | bchk => exact .run fun _ h => .passRun (fun _ _ _ _ => .bandedToken) h
  | fftc => exact .run fun _ h => .engineRun (fun _ _ _ _ => .fftcBatch) h
  | ldpc => exact .run fun _ h => .engineRun (fun _ _ _ _ => .ldpcBatch) h
  | crc => exact .run fun _ h => .engineRun (fun _ _ _ _ => .crcBatch) h
  | dq => exact .run fun _ h => .tokenRun (fun _ _ _ _ => .dqToken) h
  | qnt => exact .run fun _ h => .tokenRun (fun _ _ _ _ => .qntToken) h
  | addv => exact .run fun _ h => .tokenRun (fun _ _ _ _ => .addvToken) h
  | norm => exact .run fun _ h => .tokenRun (fun _ _ _ _ => .normToken) h
  | normf => exact .run fun _ h => .tokenRun (fun _ _ _ _ => .normfToken) h
  | act => exact .run fun _ h => .tokenRun (fun _ _ _ _ => .actToken) h
  | actf => exact .run fun _ h => .tokenRun (fun _ _ _ _ => .actfToken) h
  | rope => exact .run fun _ h => .tokenRun (fun _ _ _ _ => .ropeToken) h
  | band => exact .run fun _ h => .tokenRun (fun _ _ _ _ => .bandToken) h
  | sel => exact .run fun _ h => .tokenRun (fun _ _ _ _ => .selToken) h
  | ocmp => exact .run fun _ h => .tokenRun (fun _ _ _ _ => .ocmpToken) h
  | emb => exact .run fun _ h => .tokenRun (fun _ _ _ _ => .embToken) h
  | kvapp => exact .run fun _ h => .tokenRun (fun _ _ _ _ => .kvappToken) h
  | attn => exact .run fun _ h => .tokenRun (fun _ _ _ _ => .attnToken) h
  | acmp => exact .run fun _ h => .tokenRun (fun _ _ _ _ => .acmpToken) h
  | dig => exact .run fun _ h => .tokenRun (fun _ _ _ _ => .digToken) h
  | dcmp => exact .run fun _ h => .engineRun (fun _ _ _ _ => .dcmpToken) h
  | shdc => exact .run fun _ h => .ite (.tokenRun (fun _ _ _ _ => .shdcToken) (.fetchRun h)) (.fetchRun h)
  | spareSubstitutionDone => exact .run fun _ => .substitutionDone
  | trikeResync => exact .run fun _ => .trikeResync
  | trikeResyncDone => exact .run fun _ => .trikeResyncDone
  | commitPoint => exact .run fun _ => .commitPoint
  | verdictTime => exact .run fun _ => .verdictTime
  | radioSlotLate => exact .run fun _ => .radioSlotLate
  | declareCutoff => exact .run fun _ => .declareCutoff
  | sealPeriodBoundary => exact .run fun _ => .sealBoundary
  | sealSigned => exact .run fun _ => .sealSigned
  | sigCmdCut => exact .run fun _ h => .ite (.updSealing h) h
  | sigCmdRetire0 => exact .run fun _ => .cmdRetireEngine
  | sigCmdRetire1 => exact .run fun _ => .cmdRetireEngine
  | imageRehash => exact .run fun _ => .imageRehash
  | vpPairCmdStart => exact .run fun _ => .pairStart
  | handoverTakeEffect => exact .handoverTakeEffect
  | vpCmdInject => exact .run fun _ h => .ite (.updCad h) h
  | vpCmdRetire => exact .run fun _ h => .ite (.retireGroup h) h
  | dbgCtrlHalt => exact .run fun _ => .dbgHalt
  | dbgCtrlStep => exact .run fun _ => .dbgStep
  | dbgCtrlResume => exact .run fun _ => .dbgResume
  | dbgCtrlReplay => exact .run fun _ => .dbgReplay
  | dbgLogCfgArm => exact .run fun _ => .dbgArm
  | declare => exact .run fun _ h => .spokeTake (fun _ => .declareMsg) h
  | spokePhase => exact .run fun _ h => .spokeTake (fun _ => .phaseMsg) h
  | spokeSlot => exact .run fun _ h => .spokeTake (fun _ => .slotMsg) h
  | spokePair => exact .run fun _ h => .spokeTake (fun _ => .pairMsg) h
  | spokeEcho => exact .run fun _ h => .spokeTake (fun _ => .echoMsg) h
  | spokeEchoTx => exact .run fun _ => .sendSpoke
  | spokeTimeout => exact .run fun _ => .spokeTimeout
  | windowStart => exact .run fun _ => .windowStart
  | segmentStart => exact .run fun _ => .segmentStart
  | spanEnd => exact .run fun _ => .spanEnd
  | selftest => exact .run fun _ => .selfTest
  | canary => exact .run fun _ => .canary
  | testpulse => exact .run fun _ => .testPulse
  | rebuild => exact .run fun _ => .rebuild
  | sentinel => exact .run fun _ => .sentinel
  | sentinelRunComplete => exact .run fun _ => .sntComplete
  | cadCmdLoadStandby => exact .run fun _ => .loadStandby
  | cadCmdSwap => exact .run fun _ => .swapCmd
  | cadCmdDiscard => exact .run fun _ => .discardCmd
  | chnCmdCreate => exact .chnCmdCreate
  | chnCmdPause => exact .run fun _ => .chnWait
  | chnCmdResume => exact .run fun _ => .chnWait
  | chnCmdClose => exact .run fun _ => .chnWait
  | chnCmdRetire => exact .run fun _ => .chnRetire
  | chnCmdFree => exact .run fun _ => .chnWait
  | chnCmdRead => exact .run fun _ => .chnRead
  | chnCmdSave => exact .run fun _ => .chnSave
  | chnCmdRestore => exact .run fun _ => .chnRestore
  | chnRingTail => exact .run fun _ => .ringTail
  | ratCfgOwner => exact .run fun _ => .ratOwner
  | ratValLo => exact .run fun _ => .ratLo
  | ratValHi => exact .run fun _ => .ratHi
  | ratchetBumpDownstream => exact .run fun _ => .bumpDown
  | sntCmdLoad => exact .run fun _ => .sntLoad
  | sntCmdUnload => exact .run fun _ => .sntUnload
  | sntCmdRetire => exact .run fun _ => .retireUnit
  | sntCmdSelfTest => exact .run fun _ => .queueTest
  | resCmdRetire => exact .run fun _ => .retireUnit
  | resCmdSelfTest => exact .run fun _ => .queueTest
  | bndCmdRetire => exact .run fun _ => .retireUnit
  | bndCmdSelfTest => exact .run fun _ => .queueTest
  | nleCmdRetire => exact .run fun _ => .retireUnit
  | nleCmdSelfTest => exact .run fun _ => .queueTest
  | cweCmdRetire => exact .run fun _ => .retireUnit
  | cweCmdSelfTest => exact .run fun _ => .queueTest
  | shkCmdRetire => exact .run fun _ => .retireCore
  | shkCmdSelfTest => exact .run fun _ => .queueTest
  | glbModeStrict => exact nomatch hw
  | sensorEnvelope => exact .run fun _ => .tap
  | ecpriIqData => exact .run fun _ => .tap
  | ingLinkChange => exact .run fun _ => .ingLink
  | hstLinkChange => exact .next (.trans
      (.onDie (mem_dies _) fun _ => .hostLink) (.onDie (mem_dies _) fun _ => .updHst))
  | pelLinkChange => exact .run fun _ h => .loseGates (.pelLink h)
  | atFrame => exact .run fun _ => .atFrame
  | atSfn => exact .run fun _ => .atSfn
  | atFrameMissing => exact .run fun _ => .atFrameMissing
  | ptpSync => exact .run fun _ => .ptpSync
  | ptpFollowUp => exact .run fun _ => .ptpFollowUp
  | ptpAnnounce => exact .run fun _ => .ptpAnnounce
  | ptpDelayReqTx => exact .run fun _ => .delayReqTx
  | ptpDelayResp => exact .run fun _ => .delayResp
  | ptpPdelayReq => exact .run fun _ => .pdelayReq
  | ptpPdelayResp => exact .run fun _ => .pdelayResp
  | ptpSyncTimeout => exact .run fun _ => .ptpSyncTimeout
  | timStep => exact .run fun _ => .timStep
  | timCmdAsymAccept => exact .run fun _ => .asymAccept
  | timCmdAtReacquire => exact .run fun _ => .reacquire
  | timTrigTgtHi => exact .run fun _ => .trigTarget
  | triggerFire => exact .run fun _ h => .ite (.triggerGates (.triggerFire h)) h
  | hstQbvCfgSwap => exact .run fun _ => .qbvSwap
  | wardenCycle => exact .run fun _ => .wardenCycle
  | darkTestPulseEnd => exact .run fun _ => .pulseEnds
  | tpIntervalExpiry => exact .run fun _ => .pulseDue
  | discrepancyTimeout => exact .run fun _ => .discTimeout
  | edmTimeout => exact .run fun _ => .edmTimeout
  | crosslinkTimeout => exact .run fun _ => .xlinkTimeout
  | clockCountWindow => exact .run fun _ => .clockWindow
  | profileCrcCheck => exact .run fun _ => .profileCheck
  | switchWordChange => exact .switchWordChange
  | wdnReset => exact .next (.pair fun h k => h.wdnReset k)
  | wdnCmdStop => exact .run fun _ => .hostStop
  | wdnCmdRelease => exact .run fun _ => .hostRelease
  | tickLoss => exact .run fun _ => .tickLoss
  | watchdogExpiry => exact .run fun _ => .watchdog
  | freewheelExpiry => exact .run fun _ => .freewheelExpiry
  | sentinelPermitStale => exact .run fun _ => .permitStale
  | wardenStartUpDone => exact .run fun _ => .startUp
  | pannierOpen => exact .run fun _ => .openFrame
  | confirm => exact .run fun _ => .confirmFrame
  | confirmTimeout => exact .run fun _ => .confirmTimeout
  | close => exact .dieRequest fun _ _ h => .closeSession (.result h)
  | keepalive => exact .dieRequest fun _ _ => .result
  | sessionIdleTimeout => exact .run fun _ => .idleTimeout
  | tagFailLimit => exact .run fun _ => .tagFailLimit
  | read => exact .dieRequest fun _ _ => .readFrame
  | write => exact nomatch hw
  | bulkPut => exact .dieRequest fun _ _ => .bulkPutFrame
  | bulkGet => exact .dieRequest fun _ _ => .bulkGetFrame
  | sealAck => exact .dieRequest fun _ _ => .sealAckFrame
  | flashCommit => exact .dieRequest fun _ _ => .flashCmd
  | claim => exact .dieRequest fun _ _ => .claimCmd
  | release => exact .dieRequest fun _ _ => .releaseCmd
  | unlock => exact .dieRequest fun _ _ => .unlockCmd
  | lock => exact .dieRequest fun _ _ => .lockCmd
  | subscribe => exact .dieRequest fun _ _ => .subscribeCmd
  | keyCmdLock => exact .run fun _ => .setDebug
  | keyCmdReload => exact .run fun _ => .keyReload
  | disc => exact .run fun _ h => .pelTake (fun _ h1 => .loseGates (.setNbr h1)) h
  | discTx => exact .run fun _ => .discTx
  | pelotonEcho => exact .run fun _ h => .pelTake (fun _ => .echoIn) h
  | echoReply => exact .run fun _ h => .pelTake (fun _ => .echoReplyIn) h
  | topo => exact .run fun _ h => .pelTake (fun _ => .topoIn) h
  | pelCmdForm => exact .run fun _ => .formEpoch
  | formationQuiet => exact .run fun _ => .formationQuiet
  | pelGateCmdArrive => exact .run fun _ => .arriveAt
  | gateArrive => exact .run fun _ h => .pelTake (fun _ h1 => .ite (.rootArrive h1) h1) h
  | gateRelease => exact .run fun _ h => .pelTake (fun _ => .gateReleased) h
  | gateCountdownExpiry => exact .run fun _ => .gateEnds
  | gateAbort => exact .run fun _ h => .pelTake (fun _ h1 => .ite (.gateAbortHere h1) h1) h
  | gateTimeout => exact .run fun _ => .gateTimeout
  | pelChainCmdLoad => exact .run fun _ => .chainLoad
  | pelChainCmdClear => exact .run fun _ => .chainClear
  | pelChainCmdRead => exact .run fun _ => .chainRead
  | pelChainCmdSwitchPrev => exact .run fun _ => .chainSwitch
  | pelChainCmdSwitchNext => exact .run fun _ => .chainSwitch
  | chainOpen => exact .run fun _ h => .pelTake (fun _ => .chainOpen) h
  | chainAuth => exact .run fun _ h => .pelTake (fun _ => .chainAuth) h
  | boundary => exact .run fun _ h => .pelTake (fun _ h1 => .tagged (fun _ _ => .boundaryIn) h1) h
  | chainAlive => exact .run fun _ h => .pelTake (fun _ h1 => .tagged (fun _ _ h2 => h2) h1) h
  | chainAliveTx => exact .run fun _ => .aliveTx
  | chainTimeout => exact .run fun _ => .chainTimeout
  | thawSequenceComplete => exact .run fun _ => .thawDone
  | ptpFrameEdge => exact .run fun _ => .ptpFrameEdge
  | encoderInputEdge => exact .run fun _ => .encoderEdge
  | controlFabricHeartbeat => exact .run fun _ => .fabricBeat
  | sysclkReturns => exact .run fun _ => .sysclkBack
  | refclkReturns => exact .next (.trans .setPkg (.trans
      (.onDie (mem_dies _) fun _ => .updFcu) (.onDie (mem_dies _) fun _ => .updFcu)))
  | railReturnsToRange => exact .next (.trans .setPkg (.trans
      (.ite .refl (.onDie (mem_dies _) fun _ => .updFcu)) (.ite .refl (.onDie (mem_dies _) fun _ => .updFcu))))
  | qbvGateIntervalEnd => exact .run fun _ => .gateIntervalEnd
  | recoveryResetTimeout => exact .run fun _ => .recoveryReset
  | sentinelImageResident => exact .run fun _ => .imageResident

/-! ## Registers written by their address -/

section
variable {pk : Bool} {d : DieId} {s t : State} {off : Nat} {v : Word}

/-- What a write may change of the machine: either die. -/
abbrev Writes (s t : State) : Prop := Carries false [.a, .b] s t

protected theorem Carries.die {f : Die → Die} (hf : ∀ x, Sound d x → Sound d (f x)) : Writes s (onDie d f s) :=
  .onDie (mem_dies d) hf

/-- A write that acts as a command does what the command does. -/
protected theorem Carries.command (c : Instr) (hw : writesRegisters c = false := by rfl)
    (hp : changesPackage c = false := by rfl) : Writes s (after (exec c s) s) := by
  have h := (exec_carried_of_not_writing c s hw).after
  rw [hp] at h
  exact h.both

protected theorem Carries.onBit {n b : Nat} (c : Instr) (h : Writes s t) (hw : writesRegisters c = false := by rfl)
    (hp : changesPackage c = false := by rfl) : Writes s (onBit n b (exec c) t) :=
  .ite (h.trans (.command c hw hp)) h

/-- What a register that acts leaves, where the offset is one of such a register. -/
def WritesIf (s : State) (o : Option State) : Prop := ∀ t ∈ o, Writes s t

protected theorem WritesIf.none : WritesIf s .none := fun _ ht => nomatch ht

protected theorem WritesIf.some (h : Writes s t) : WritesIf s (.some t) := by
  rintro _ ⟨⟩
  exact h

protected theorem WritesIf.ite {c : Prop} [Decidable c] {x y : Option State} (hx : WritesIf s x) (hy : WritesIf s y) :
    WritesIf s (if c then x else y) := by
  split
  · exact hx
  · exact hy

protected theorem WritesIf.fcu : WritesIf s (writeFcu d off v s) := by
  unfold writeFcu
  dsimp only
  split
  · exact .some (.command (.fcuSrcClear d false v))
  · exact .some (.command (.fcuSrcClear d true v))
  · exact .some (.command (.fcuAck d v))
  · exact .some (.die fun _ h => h.updFcu)
  · exact .some (.die fun _ h => h.updFcu)
  · exact .some (.die fun _ h => h.updFcu)
  · exact .some (.die fun _ h => h.updFcu)
  · exact .none

protected theorem WritesIf.tim : WritesIf s (writeTim d off v s) := by
  unfold writeTim
  dsimp only
  split
  · exact .some (.die fun _ h => h.updTim)
  · exact .some (.die fun _ h => h.updTim)
  · exact .some (.ite (.command (.timStep d _)) .refl)
  · exact .some (.die fun _ h => h.updTim)
  · exact .some (.die fun _ h => h.epochWrite)
  · exact .some (.die fun _ h => .timeMoved (.writeFields h))
  · exact .some (.onBit (.timCmdAtReacquire d) (.onBit (.timCmdAsymAccept d) .refl))
  · exact .some (.die fun _ h => h.modTrig)
  · exact .some (.die fun _ h => h.modTrig)
  · exact .some (.command (.timTrigTgtHi d v))
  · exact .some (.die fun _ h => h.modTrig)
  · exact .some (.die fun _ h => h.updTim)
  · exact .none

protected theorem WritesIf.cad : WritesIf s (writeCad d off v s) := by
  unfold writeCad
  dsimp only
  split
  · exact .some (.onBit (.cadCmdDiscard d) (.onBit (.cadCmdSwap d) (.onBit (.cadCmdLoadStandby d) .refl)))
  · exact .some (.die fun _ h => h.capClear)
  · exact .none

protected theorem WritesIf.chn : WritesIf s (writeChn d off v s) := by
  unfold writeChn
  dsimp only
  split
  · split
    · exact .some (.command (.chnCmdCreate d _))
    · exact .some (.command (.chnCmdPause d _))
    · exact .some (.command (.chnCmdResume d _))
    · exact .some (.command (.chnCmdClose d _))
    · exact .some (.command (.chnCmdRetire d _))
    · exact .some (.command (.chnCmdFree d _))
    · exact .some (.command (.chnCmdRead d _))
    · exact .some (.command (.chnCmdSave d _))
    · exact .some (.command (.chnCmdRestore d _))
    · exact .some .refl
  · exact .some (.command (.chnRingTail d _ v))
  · exact .none

protected theorem WritesIf.rat {q : Nat} : WritesIf s (writeRat d q off v s) := by
  unfold writeRat
  dsimp only
  split
  · exact .some (.command (.ratCfgOwner d _ _))
  · exact .some (.command (.ratValLo d _ v))
  · exact .some (.command (.ratValHi d _ v))
  · exact .none

protected theorem WritesIf.vp {p : Nat} : WritesIf s (writeVp d p off v s) := by
  unfold writeVp
  dsimp only
  split
  · exact .some (.onBit (.vpPairCmdStart d _) .refl)
  · exact .some (.onBit (.vpCmdRetire d _) (.onBit (.vpCmdInject d _) .refl))
  · exact .some (.die fun _ h => h.capClear)
  · exact .none

protected theorem WritesIf.tiles {blk : Nat} : WritesIf s (writeTiles d blk off v s) := by
  unfold writeTiles
  dsimp only
  refine .ite (.some ?_) (.ite (.some (.die fun _ h => h.capClear)) .none)
  split
  · exact .onBit (.resCmdSelfTest d _) (.onBit (.resCmdRetire d _) .refl)
  · exact .onBit (.bndCmdSelfTest d _) (.onBit (.bndCmdRetire d _) .refl)
  · exact .onBit (.nleCmdSelfTest d _) (.onBit (.nleCmdRetire d _) .refl)
  · exact .onBit (.cweCmdSelfTest d _) (.onBit (.cweCmdRetire d _) .refl)

protected theorem WritesIf.snt : WritesIf s (writeSnt d off v s) := by
  unfold writeSnt
  dsimp only
  split
  · exact .some (.onBit (.sntCmdUnload d _) (.onBit (.sntCmdLoad d _) (.onBit (.sntCmdSelfTest d _)
      (.onBit (.sntCmdRetire d _) .refl))))
  · exact .none

protected theorem WritesIf.shk : WritesIf s (writeShk d off v s) := by
  unfold writeShk
  dsimp only
  split
  · exact .some (.onBit (.shkCmdSelfTest d _) (.onBit (.shkCmdRetire d _) .refl))
  · exact .none

protected theorem WritesIf.sig : WritesIf s (writeSig d off v s) := by
  unfold writeSig
  dsimp only
  split
  · exact .some (.onBit (.sigCmdRetire1 d) (.onBit (.sigCmdRetire0 d) (.onBit (.sigCmdCut d) .refl)))
  · exact .none

protected theorem WritesIf.key : WritesIf s (writeKey d off v s) := by
  unfold writeKey
  split
  · exact .some (.onBit (.keyCmdReload d) (.onBit (.keyCmdLock d) .refl))
  · exact .none

protected theorem WritesIf.wlk : WritesIf s (writeWlk d off v s) := by
  unfold writeWlk
  dsimp only
  split
  · exact .some (.onBit (.wlkCmdRetire d) (.onBit (.wlkCmdRestore d) (.onBit (.wlkCmdResync d)
      (.onBit (.wlkCmdRetrain d) .refl))))
  · exact .none

protected theorem WritesIf.hst : WritesIf s (writeHst d off v s) :=
  .ite (.some (.onBit (.hstQbvCfgSwap d) (.die fun _ h => h.writeFields)))
    (.ite (.some (.die fun _ h => h.writeGate)) .none)

protected theorem WritesIf.pel : WritesIf s (writePel d off v s) := by
  unfold writePel
  dsimp only
  split
  · exact .some (.onBit (.pelCmdForm d) .refl)
  · exact .some (.onBit (.pelGateCmdArrive d _) .refl)
  · split
    · exact .some (.command (.pelChainCmdLoad d _))
    · exact .some (.command (.pelChainCmdClear d _))
    · exact .some (.command (.pelChainCmdRead d _))
    · exact .some (.command (.pelChainCmdSwitchPrev d _))
    · exact .some (.command (.pelChainCmdSwitchNext d _))
    · exact .some .refl
  · exact .none

protected theorem WritesIf.wdn : WritesIf s (writeWdn d off v s) := by
  unfold writeWdn
  dsimp only
  split
  · exact .some (.trans (.command (.wdnCmdRelease d _)) (.command (.wdnCmdStop d _)))
  · exact .none

protected theorem WritesIf.dbg : WritesIf s (writeDbg d off v s) := by
  unfold writeDbg
  dsimp only
  split
  · have acted : Writes s (Machine.onBit v.toNat 5 (execDbgCtrlResume d)
        (Machine.onBit v.toNat 4 (execDbgCtrlStep ⟨d, []⟩)
          (Machine.onBit v.toNat 3 (execDbgCtrlHalt d (BitVec.ofNat 3 (bitField 0 3 v.toNat)))
            (Machine.onDie d (writeFields pDBG 0x040 v.toNat) s)))) :=
      .onBit (.dbgCtrlResume d) (.onBit (.dbgCtrlStep ⟨d, []⟩)
        (.onBit (.dbgCtrlHalt d _) (.die fun _ h => h.writeFields)))
    exact .some (.ite (.onBit (.dbgCtrlReplay d _) (acted.trans (.die fun _ h => h.drew))) acted)
  · exact .some (.die fun _ h => h.updDbg)
  · exact .some (.ite (.command (.dbgLogCfgArm d _)) (.die fun _ h => h.writeFields))
  · exact .none

protected theorem WritesIf.act {page : Nat} : WritesIf s (writeAct d page off v s) := by
  unfold writeAct
  split
  · exact .fcu
  · exact .tim
  · exact .cad
  · exact .chn
  · exact .rat
  · exact .vp
  · exact .tiles
  · exact .tiles
  · exact .tiles
  · exact .tiles
  · exact .snt
  · exact .shk
  · exact .sig
  · exact .key
  · exact .wlk
  · exact .hst
  · exact .ite .pel .none
  · exact .ite (.some (.die fun _ h => h.capClear)) .none
  · exact .ite (.some (.die fun _ h => h.capClear)) .none
  · exact .ite .wdn .none
  · exact .dbg
  · exact .none

protected theorem Carries.head {page : Nat} : Writes s (writeHead d page off v s) := by
  unfold writeHead
  dsimp only
  split
  · exact .command (.blkCtrlEnableWrite d _ v)
  · exact .command (.blkErrClear d _ v)
  · exact .die fun _ h => h.writeMask
  · exact .command (.blkErrForce d _ v)
  · exact .ite (.die fun _ h => h.setErrPage) .refl
  · exact .refl

protected theorem Carries.body {page : Nat} : Writes s (bodyWrite d page off v s) := by
  unfold bodyWrite
  split
  · next eq => exact WritesIf.act _ eq
  · exact .die fun _ h => h.writeFields

protected theorem Carries.register {addr : Nat} : Writes s (regWrite d addr v s) := .ite .refl (.ite .head .body)

protected theorem Carries.frame {p : PFrame} {x : Session} : Writes s (writeFrame d p x s) := by
  have refused (code : Nat) : Writes s (Machine.onDie d (result x p code []) s) := .die fun _ h => h.result
  have written (regs : List (Nat × Nat)) (t : State) :
      Writes t (regs.foldl (fun t p => regWrite d p.1 (BitVec.ofNat 32 p.2) t) t) := by
    induction regs generalizing t with
    | nil => exact .refl
    | cons q r ih => exact .trans .register (ih _)
  exact .ite (refused 3) (.ite (refused 2) (.ite (refused 3) (.ite (refused 4)
    ((written _ s).trans (.die fun _ h => h.resultWrite)))))

end

/-- Every command changes only what it may. -/
theorem exec_carried (c : Instr) (s : State) : Carried (changesPackage c) (touches c) s (exec c s) := by
  cases hw : writesRegisters c with
  | false => exact exec_carried_of_not_writing c s hw
  | true =>
    cases c with
    | registerWrite => exact .next .register
    | glbModeStrict => exact .next .register
    | write => exact .onRequest (mem_dies _) fun _ _ => .frame
    | _ => exact nomatch hw

end Sys2Proof.Machine
end

section
/-! SUPPORT. The step, and O3, O4 and O6. -/

namespace Sys2Proof.Machine

/-! ## A step -/

/-- A step over a queue runs its front command, which leaves the queue's rest. -/
theorem step_of_pending {s : State} {c : Instr} {rest : List Instr} (h : s.pending = c :: rest) :
    ∃ t, step s = .next t ∧ t.pending = rest := by
  obtain ⟨t, ran, carries⟩ := exec_carried c { s with pending := rest }
  refine ⟨t, ?_, carries.pending⟩
  unfold step
  rw [h]
  exact ran

/-- With nothing waiting, a step lets a cycle pass, and nothing waits after it. -/
theorem step_of_idle {s : State} (h : s.pending = []) : step s = .next (idle s) := by
  unfold step
  rw [h]

/-- Every step has a next state. -/
theorem step_next (s : State) : ∃ t, step s = .next t := by
  cases h : s.pending with
  | nil => exact ⟨idle s, step_of_idle h⟩
  | cons c rest =>
    obtain ⟨t, ran, -⟩ := step_of_pending h
    exact ⟨t, ran⟩

theorem reaches_zero (s : State) : Reaches 0 s s := rfl

theorem run_succ_of_next {M : Host.Core} {s t : M.State} (h : M.step s = .next t) (n : Nat) :
    M.run (n + 1) s = M.run n t := by
  rw [Host.Core.run, h]

theorem reaches_succ {n : Nat} {s t u : State} (first : step s = .next t) (rest : Reaches n t u) :
    Reaches (n + 1) s u :=
  (run_succ_of_next (M := Sys2Proof.core) first n).trans rest

theorem safeFrom_all (s : State) : SafeFrom s := by
  intro n
  induction n generalizing s with
  | zero => exact ⟨s, reaches_zero s⟩
  | succ n ih =>
    obtain ⟨t, first⟩ := step_next s
    obtain ⟨u, rest⟩ := ih t
    exact ⟨u, reaches_succ first rest⟩

/-- As many steps as commands wait empty the queue. -/
theorem reaches_empty (queue : List Instr) {s : State} (h : s.pending = queue) :
    ∃ t, Reaches queue.length s t ∧ t.pending = [] := by
  induction queue generalizing s with
  | nil => exact ⟨s, reaches_zero s, h⟩
  | cons c rest ih =>
    obtain ⟨t, first, ht⟩ := step_of_pending h
    obtain ⟨u, run, hu⟩ := ih ht
    exact ⟨u, reaches_succ first run, hu⟩

theorem allSound_iff (s : State) :
    AllSound s ↔ Positions s ∧ LedgersCanonical s.dieA ∧ LedgersCanonical s.dieB := by
  constructor
  · intro h
    exact ⟨⟨(h .a).1, (h .b).1⟩, (h .a).2, (h .b).2⟩
  · rintro ⟨⟨atA, atB⟩, okA, okB⟩ d
    cases d with
    | a => exact ⟨atA, okA⟩
    | b => exact ⟨atB, okB⟩

theorem idle_allSound {s : State} (h : AllSound s) : AllSound (idle s) := by
  intro d
  cases d with
  | a => exact (h .a).tickDie
  | b => exact (h .b).tickDie

/-- The invariant of a step: every die stays sound at its place. -/
theorem step_allSound {s t : State} (h : AllSound s) (ran : step s = .next t) : AllSound t := by
  unfold step at ran
  split at ran
  · cases ran
    exact idle_allSound h
  · next c rest _ =>
    obtain ⟨u, ran', carries⟩ := exec_carried c { s with pending := rest }
    cases ran'.symm.trans ran
    refine carries.sound fun d => ?_
    cases d with
    | a => exact h .a
    | b => exact h .b

/-- Settles O3: no command changes more than `Carries` allows it. -/
theorem everyCommandRunsOnItsDies : Obligations.EveryCommandRunsOnItsDies := by
  unfold Obligations.EveryCommandRunsOnItsDies
  intro c s
  obtain ⟨t, ran, carries⟩ := exec_carried c s
  exact ⟨t, ran, carries.pending, carries.others, carries.pkg⟩

/-- Settles O4, by induction on the queue: a step takes the front command off it and never faults or refuses. -/
theorem waitingCommandsAreAllServed : Obligations.WaitingCommandsAreAllServed := by
  unfold Obligations.WaitingCommandsAreAllServed
  exact fun s => ⟨reaches_empty s.pending rfl, safeFrom_all s⟩

/-- Settles O6: that every die is sound at its place is an invariant of the step. -/
theorem everyStepKeepsPositionsAndLedgers : Obligations.EveryStepKeepsPositionsAndLedgers := by
  unfold Obligations.EveryStepKeepsPositionsAndLedgers
  intro s t positions ledgersA ledgersB ran
  exact (allSound_iff t).mp (step_allSound ((allSound_iff s).mpr ⟨positions, ledgersA, ledgersB⟩) ran)

end Sys2Proof.Machine
end

section
/-! SUPPORT. Where the gate list of the host port stands, what the port keeps while it sends, the link events of the ports, and
O25. -/

namespace Sys2Proof.Machine

/-! ## The entry of the list that holds (R344) -/

@[simp] theorem gateStart_zero (d : Die) : gateStart d 0 = 0 := rfl

theorem gateStart_succ (d : Die) (i : Nat) : gateStart d (i + 1) = gateStart d i + (gateEntry d i).2 := by
  simp [gateStart, List.range_succ]

theorem gateStart_mono (d : Die) : Monotone (gateStart d) :=
  monotone_nat_of_le_succ fun i => gateStart_succ d i ▸ Nat.le_add_right _ _

/-- An entry of the operational list holds at a time into the cycle: it has begun, and the next one has not. -/
def EntryHolds (d : Die) (e off : Nat) : Prop :=
  e < d.hst.operN ∧ gateStart d e ≤ off ∧ (e + 1 < d.hst.operN → off < gateStart d (e + 1))

/-- The entries that have begun are those up to the one that holds. -/
theorem begun_of_entryHolds {d : Die} {e off : Nat} (holds : EntryHolds d e off) :
    (List.range d.hst.operN).filter (fun i => decide (gateStart d i ≤ off)) = List.range (e + 1) := by
  obtain ⟨listed, begun, next⟩ := holds
  obtain ⟨m, hm⟩ := Nat.exists_eq_add_of_le (Nat.succ_le_of_lt listed)
  have up_to : (List.range (e + 1)).filter (fun i => decide (gateStart d i ≤ off)) = List.range (e + 1) := by
    refine List.filter_eq_self.mpr fun i hi => decide_eq_true ?_
    exact (gateStart_mono d (Nat.le_of_lt_succ (List.mem_range.mp hi))).trans begun
  have behind : ((List.range m).map (e + 1 + ·)).filter (fun i => decide (gateStart d i ≤ off)) = [] := by
    refine List.filter_eq_nil_iff.mpr fun i hi => ?_
    obtain ⟨j, hj, rfl⟩ := List.mem_map.mp hi
    have later : gateStart d (e + 1) ≤ gateStart d (e + 1 + j) := gateStart_mono d (Nat.le_add_right _ _)
    have := next (by have := List.mem_range.mp hj; omega)
    simp only [decide_eq_true_eq]
    omega
  rw [hm, Nat.succ_eq_add_one, List.range_add, List.filter_append, up_to, behind, List.append_nil]

theorem gateAt_fst_of_entryHolds {d : Die} {e v : Nat} (holds : EntryHolds d e (gateAt d v).2) : (gateAt d v).1 = e := by
  have begun := begun_of_entryHolds holds
  unfold gateAt at begun ⊢
  dsimp only at begun ⊢
  rw [begun, List.range_succ, List.getLast?_concat, Option.getD_some]

theorem exists_entryHolds {d : Die} (listed : 0 < d.hst.operN) (off : Nat) : ∃ e, EntryHolds d e off := by
  refine ⟨Nat.findGreatest (fun i => gateStart d i ≤ off) (d.hst.operN - 1), ?_, ?_, fun more => ?_⟩
  · have := Nat.findGreatest_le (P := fun i => gateStart d i ≤ off) (d.hst.operN - 1)
    omega
  · exact Nat.findGreatest_spec (P := fun i => gateStart d i ≤ off) (Nat.zero_le _) (Nat.zero_le _)
  · exact not_le.mp (Nat.findGreatest_is_greatest (P := fun i => gateStart d i ≤ off) (Nat.lt_succ_self _) (by omega))

/-- In a list that is not empty, the entry at which it stands holds. -/
theorem entryHolds_gateAt {d : Die} (listed : 0 < d.hst.operN) (v : Nat) : EntryHolds d (gateAt d v).1 (gateAt d v).2 := by
  obtain ⟨e, holds⟩ := exists_entryHolds listed (gateAt d v).2
  rwa [gateAt_fst_of_entryHolds holds]

theorem gateAt_fst_of_empty {d : Die} (empty : d.hst.operN = 0) (v : Nat) : (gateAt d v).1 = 0 := by
  simp [gateAt, empty]

/-! ## Time into the cycle -/

/-- The time into the cycle runs with the counter and begins anew with each cycle. -/
theorem gateAt_snd_add (d : Die) (v k : Nat) : (gateAt d (v + k)).2 = ((gateAt d v).2 + k) % max 1 d.hst.operCycle := by
  have pos : ((max 1 d.hst.operCycle : Nat) : Int) ≠ 0 := by omega
  have off (w : Nat) : ((gateAt d w).2 : Int) = ((w : Int) - d.hst.cycleNs) % ((max 1 d.hst.operCycle : Nat) : Int) :=
    Int.toNat_of_nonneg (Int.emod_nonneg _ pos)
  have shifted : ((v + k : Nat) : Int) - d.hst.cycleNs = (v : Int) - d.hst.cycleNs + k := by omega
  have same : ((gateAt d (v + k)).2 : Int) = (((gateAt d v).2 + k) % max 1 d.hst.operCycle : Nat) := by
    rw [off (v + k), Int.natCast_emod, Nat.cast_add ((gateAt d v).2), off v, Int.emod_add_emod, shifted]
  exact Int.ofNat.inj same

/-! ## Gate intervals (R344) -/

/-- Before its end, neither the cycle has ended nor the next entry begun. -/
theorem within_interval {d : Die} {v k : Nat} (inside : k < intervalLeft d v) :
    (gateAt d v).2 + k < max 1 d.hst.operCycle ∧
      ((gateAt d v).1 + 1 < d.hst.operN → (gateAt d v).2 + k < gateStart d ((gateAt d v).1 + 1)) := by
  unfold intervalLeft at inside
  dsimp only at inside
  split at inside <;> omega

/-- An interval ends with the cycle or where the next entry begins. -/
theorem interval_ends {d : Die} {v : Nat} (some_left : 0 < intervalLeft d v) :
    (gateAt d v).2 + intervalLeft d v = max 1 d.hst.operCycle ∨
      (gateAt d v).1 + 1 < d.hst.operN ∧ (gateAt d v).2 + intervalLeft d v = gateStart d ((gateAt d v).1 + 1) ∧
        gateStart d ((gateAt d v).1 + 1) < max 1 d.hst.operCycle := by
  unfold intervalLeft at some_left ⊢
  dsimp only at some_left ⊢
  split at some_left
  · next more =>
    rw [if_pos more]
    omega
  · next last =>
    rw [if_neg last]
    omega

/-- One entry of the list holds up to the end of the interval. -/
theorem gateAt_fst_of_within {d : Die} {v k : Nat} (inside : k < intervalLeft d v) :
    (gateAt d (v + k)).1 = (gateAt d v).1 := by
  obtain ⟨cycle, next⟩ := within_interval inside
  rcases Nat.eq_zero_or_pos d.hst.operN with empty | listed
  · rw [gateAt_fst_of_empty empty, gateAt_fst_of_empty empty]
  · obtain ⟨here, begun, -⟩ := entryHolds_gateAt listed v
    refine gateAt_fst_of_entryHolds ?_
    rw [gateAt_snd_add, Nat.mod_eq_of_lt cycle]
    exact ⟨here, begun.trans (Nat.le_add_right _ _), next⟩

/-- At the end of an interval another entry begins. -/
theorem gateStart_at_interval_end {d : Die} {v : Nat} (some_left : 0 < intervalLeft d v) :
    gateStart d (gateAt d (v + intervalLeft d v)).1 = (gateAt d (v + intervalLeft d v)).2 := by
  have off := gateAt_snd_add d v (intervalLeft d v)
  rcases interval_ends some_left with cycle | ⟨more, next, early⟩
  · rw [cycle, Nat.mod_self] at off
    rcases Nat.eq_zero_or_pos d.hst.operN with empty | listed
    · rw [gateAt_fst_of_empty empty, off, gateStart_zero]
    · obtain ⟨-, begun, -⟩ := entryHolds_gateAt listed (v + intervalLeft d v)
      omega
  · rw [next, Nat.mod_eq_of_lt early] at off
    obtain ⟨-, begun, following⟩ := entryHolds_gateAt (by omega : 0 < d.hst.operN) (v + intervalLeft d v)
    rw [off] at begun following ⊢
    refine le_antisymm begun ?_
    rcases Nat.lt_or_ge (gateAt d (v + intervalLeft d v)).1 ((gateAt d v).1 + 1) with before | reached
    · have later := gateStart_mono d (Nat.succ_le_of_lt before)
      exact absurd (following (by omega)) (not_lt.mpr later)
    · exact gateStart_mono d reached

/-! ## What the port keeps while it sends (R344, R345) -/

/-- The port without what waits for it and what it has sent and fetched. -/
def portSetting (d : Die) : Hst := { d.hst with egress := [], busy := 0, reqT := none, replicas := [], fetched := 0 }

@[simp] theorem portSetting_peerDrop (d : Die) : portSetting (peerDrop d) = portSetting d := by
  simp [portSetting, peerDrop]

@[simp] theorem portSetting_leave (w : Waiting) (v : Nat) (d : Die) : portSetting (leave w v d) = portSetting d := by
  unfold leave
  split
  · split
    · split <;> simp [portSetting]
    · split <;> simp [portSetting]
  · split
    · exact portSetting_peerDrop d
    · rfl

theorem portSetting_serve (u k s : Nat) (d : Die) : portSetting (serve u k s d) = portSetting d := by
  induction k generalizing s d with
  | zero => rfl
  | succ k ih =>
    unfold serve
    split
    · rfl
    · split
      · split
        · exact (ih _ _).trans (portSetting_leave _ _ _)
        · rfl
      · split
        · exact ih _ _
        · rfl

@[simp] theorem portSetting_serveTo (u : Nat) (d : Die) : portSetting (serveTo u d) = portSetting d :=
  portSetting_serve _ _ _ d

@[simp] theorem portSetting_fetchCopies (peer d : Die) : portSetting (fetchCopies peer d) = portSetting d := by
  have put (d : Die) (r : Replica) : portSetting (if d.hst.linkUp then
      enqueueFrame { cls := r.cls, at_ := d.tim.up, bytes := r.bytes, tag := some r.tag, copy := true } d
      else peerDrop d) = portSetting d := by
    split
    · rfl
    · exact portSetting_peerDrop d
  unfold fetchCopies
  extract_lets new e
  have started : portSetting e = portSetting d := rfl
  clear_value e new
  induction new generalizing e with
  | nil => exact started
  | cons r rest ih => exact ih _ ((put e r).trans started)

theorem field_of_sends {d x : Die} (sent : Sends d x) (p off lo : Nat) : field x p off lo = field d p off lo := by
  obtain ⟨_, _, _, _, _, rfl⟩ := sent.parts
  rfl

/-- The committed bank replaces the list in force, its cycle and its start. -/
theorem portSetting_switchBank (t : Nat) (d : Die) : portSetting (switchBank t d) = { portSetting d with
    operBank := 1 - d.hst.operBank, operN := max 1 (field d pHST 0x054 1), operCycle := max 1 (field d pHST 0x058 0)
    cycleNs := t, swapAt := none } := rfl

/-- While no committed bank is due, sending keeps the list in force. -/
theorem portSetting_flushEgress {d : Die} (early : ∀ t, d.hst.swapAt = some t → d.tim.ns < t) :
    portSetting (flushEgress d) = portSetting d := by
  unfold flushEgress
  split
  · next t committed =>
    rw [if_neg (Nat.not_le.mpr (early t committed))]
    exact portSetting_serveTo _ _
  · exact portSetting_serveTo _ _

/-- A committed bank that is due comes into force. -/
theorem portSetting_flushEgress_due {d : Die} {t : Nat} (committed : d.hst.swapAt = some t) (due : t ≤ d.tim.ns) :
    portSetting (flushEgress d) = { portSetting d with
      operBank := 1 - d.hst.operBank, operN := max 1 (field d pHST 0x054 1), operCycle := max 1 (field d pHST 0x058 0)
      cycleNs := t, swapAt := none } := by
  have sent (u : Nat) : Sends d (serveTo u d) := sends_serve _ _ _ _
  have bank (u : Nat) : (serveTo u d).hst.operBank = d.hst.operBank :=
    show (portSetting (serveTo u d)).operBank = (portSetting d).operBank by rw [portSetting_serveTo]
  simp only [flushEgress, committed, if_pos due]
  rw [portSetting_serveTo, portSetting_switchBank, portSetting_serveTo, field_of_sends (sent _), field_of_sends (sent _), bank]

/-- Sending leaves the port's link as it is, whether or not a bank is due. -/
@[simp] theorem flushEgress_linkUp (d : Die) : (flushEgress d).hst.linkUp = d.hst.linkUp := by
  by_cases due : ∃ t, d.hst.swapAt = some t ∧ t ≤ d.tim.ns
  · obtain ⟨t, committed, due⟩ := due
    show (portSetting (flushEgress d)).linkUp = (portSetting d).linkUp
    rw [portSetting_flushEgress_due committed due]
  · have early : ∀ t, d.hst.swapAt = some t → d.tim.ns < t := fun t committed =>
      Nat.not_le.mp fun reached => due ⟨t, committed, reached⟩
    show (portSetting (flushEgress d)).linkUp = (portSetting d).linkUp
    rw [portSetting_flushEgress early]

/-! ## The end of a gate interval -/

/-- The die as the end of a gate interval finds it, before the port does what it has to do. -/
def intervalPassed (peer d : Die) : Die := updTim (passNs (intervalEnd d - d.tim.ns)) (fetchCopies peer d)

theorem gateIntervalEnd_eq (peer d : Die) : gateIntervalEnd peer d = flushEgress (intervalPassed peer d) := rfl

theorem intervalPassed_ns (peer d : Die) :
    (intervalPassed peer d).tim.ns = (d.tim.ns + (intervalEnd d - d.tim.ns)) % 2 ^ 64 := by
  simp only [intervalPassed, updTim_tim, quiet_tim (quiet_fetchCopies peer d)]
  rfl

theorem intervalPassed_setting (peer d : Die) : portSetting (intervalPassed peer d) = portSetting d :=
  portSetting_fetchCopies peer d

theorem intervalPassed_field (peer d : Die) (p off lo : Nat) (other : fkey 0 p off lo ≠ fkey 0 pDBG 0x04C 15) :
    field (intervalPassed peer d) p off lo = field d p off lo :=
  quiet_field (quiet_fetchCopies peer d) p off lo other

/-! ## The ports' links (R347, R351) -/

theorem other_ne (d : DieId) : d.other ≠ d := by cases d <;> decide

theorem hostLink_linkUp (up : Bool) (d : Die) : (hostLink up d).hst.linkUp = (up && d.regs.enabled.contains pHST) := by
  unfold hostLink
  extract_lets now was e
  split
  · simp only [raise_hst]
    rfl
  · split
    · simp only [flushEgress_linkUp]
      rfl
    · rfl

theorem hostLink_loss {up : Bool} {d : Die} (was : d.hst.linkUp = true) (down : (up && d.regs.enabled.contains pHST) = false) :
    errSet (hostLink up d) pHST 0 = true := by
  unfold hostLink
  simp only [was, down, Bool.not_false, Bool.and_self, if_true]
  exact errSet_raise pHST 0 _ rfl rfl

theorem ingPage_listed (port : Bool) (d : Die) :
    pageAbsent d (ingPage (b2n port)) = false ∧ (sevOf (ingPage (b2n port)) 9).isSome = true := by
  cases port <;> exact ⟨rfl, rfl⟩

/-! ## Where a committed bank begins (R344) -/

/-- The first multiple of a step that is not below a number. -/
theorem cdiv_mul_bounds {a b : Nat} (pos : 0 < b) : a ≤ cdiv a b * b ∧ cdiv a b * b < a + b := by
  rw [cdiv, if_neg pos.ne']
  have := Nat.div_add_mod (a + b - 1) b
  have := Nat.mod_lt (a + b - 1) pos
  rw [Nat.mul_comm]
  omega

/-! ## The claims -/

/-- With the link UP and a credit, the front stamped frame leaves the queue for the link. -/
theorem forward_front {d : Die} {f : WaitFrame} {r : List WaitFrame} (front : d.ing.queue = f :: r) (up : d.wlk.state = .up)
    (credit : 0 < dsCredit d.wlk 0) : (forward d).ing = { d.ing with queue := r } ∧
      (forward d).wlk = { d.wlk with
        dsTx0 := d.wlk.dsTx0 ++ [{ stream := f.stream, no := f.no, left := f.bytes, begun := false }] } := by
  unfold forward
  simp only [front, up, credit, decide_true, beq_self_eq_true, Bool.and_self, if_true]
  split <;> simp [up]

theorem forward_waits {d : Die} (waits : d.wlk.state ≠ .up ∨ dsCredit d.wlk 0 = 0) : forward d = d := by
  unfold forward
  split
  · rfl
  · rw [if_neg]
    rcases waits with down | spent <;> simp_all

theorem qbvSwap_start (d : Die) :
    let base := field d pHST 0x05C 0 + 4294967296 * field d pHST 0x060 0
    let cycle := max 1 (field d pHST 0x058 0)
    ∃ at_, qbvSwap d = { d with hst := { d.hst with swapAt := some at_ } } ∧ base ≤ at_ ∧ d.tim.ns ≤ at_ ∧
      (at_ - base) % cycle = 0 ∧ (at_ = base ∨ at_ < d.tim.ns + cycle) := by
  intro base cycle
  refine ⟨if d.tim.ns ≤ base then base else base + cdiv (d.tim.ns - base) cycle * cycle, rfl, ?_⟩
  clear_value base
  split
  · next ahead => exact ⟨le_rfl, ahead, by rw [Nat.sub_self, Nat.zero_mod], .inl rfl⟩
  · next past =>
    obtain ⟨reached, first⟩ := cdiv_mul_bounds (a := d.tim.ns - base) (b := cycle) (by omega)
    refine ⟨Nat.le_add_right _ _, by omega, ?_, .inr (by omega)⟩
    rw [Nat.add_sub_cancel_left]
    exact Nat.mul_mod_left _ _

theorem ingLink_changes (port up : Bool) (d : Die) :
    (ingLink port up d).ing = (if port then { d.ing with up1 := up } else { d.ing with up0 := up }) ∧
      (up = true → (ingLink port up d).errs = d.errs) ∧
      (up = false → errSet (ingLink port up d) (ingPage (b2n port)) 9 = true) := by
  unfold ingLink
  cases up with
  | true => exact ⟨rfl, fun _ => rfl, nofun⟩
  | false =>
    obtain ⟨listed, known⟩ := ingPage_listed port
      (updIng (fun g => if port then { g with up1 := false } else { g with up0 := false }) d)
    exact ⟨raise_ing _ _ _, nofun, fun _ => errSet_raise _ 9 _ listed known⟩

/-- The host port's link is known to both dies. -/
theorem hstLinkChange_runs (s : State) (d : DieId) (up : Bool) :
    let now := up && (s.die d).regs.enabled.contains pHST
    Runs (.hstLinkChange d up) s fun t => (t.die d).hst.linkUp = now ∧
      t.die d.other = { s.die d.other with hst := { (s.die d.other).hst with peerLink := now } } ∧
      ((s.die d).hst.linkUp = true → now = false → errSet (t.die d) pHST 0 = true) := by
  intro now
  refine ⟨_, rfl, ?_⟩
  beta_reduce
  rw [onDie_die_other (other_ne d).symm, onDie_die_same, onDie_die_same, onDie_die_other (other_ne d), hostLink_linkUp]
  exact ⟨rfl, rfl, hostLink_loss⟩

theorem gateIntervalEnd_sets (peer d : Die) :
    let ns := (d.tim.ns + (intervalEnd d - d.tim.ns)) % 2 ^ 64
    let x := gateIntervalEnd peer d
    x.tim.ns = ns ∧
      (∀ t, d.hst.swapAt = some t → t ≤ ns → x.hst.operBank = 1 - d.hst.operBank ∧ x.hst.cycleNs = t ∧ x.hst.swapAt = none ∧
        x.hst.operN = max 1 (field d pHST 0x054 1) ∧ x.hst.operCycle = max 1 (field d pHST 0x058 0)) ∧
      (d.hst.swapAt = none → x.hst.operBank = d.hst.operBank ∧ x.hst.cycleNs = d.hst.cycleNs ∧ x.hst.operN = d.hst.operN ∧
        x.hst.operCycle = d.hst.operCycle) := by
  intro ns x
  have time := intervalPassed_ns peer d
  have kept := intervalPassed_setting peer d
  have swap : (intervalPassed peer d).hst.swapAt = d.hst.swapAt := congrArg (·.swapAt) kept
  have bank : (intervalPassed peer d).hst.operBank = d.hst.operBank := congrArg (·.operBank) kept
  refine ⟨?_, fun t committed due => ?_, fun none_ => ?_⟩
  · simp only [x, gateIntervalEnd_eq, flushEgress_tim]
    exact time
  · have set := portSetting_flushEgress_due (swap.trans committed) (due.trans_eq time.symm)
    rw [bank, intervalPassed_field _ _ _ _ _ (by decide), intervalPassed_field _ _ _ _ _ (by decide)] at set
    exact ⟨congrArg (·.operBank) set, congrArg (·.cycleNs) set, congrArg (·.swapAt) set, congrArg (·.operN) set,
      congrArg (·.operCycle) set⟩
  · have same := (portSetting_flushEgress fun t committed => nomatch (swap.trans none_).symm.trans committed).trans kept
    exact ⟨congrArg (·.operBank) same, congrArg (·.cycleNs) same, congrArg (·.operN) same, congrArg (·.operCycle) same⟩

/-- Settles O25: the list's entries begin in order, so one holds up to the end of an interval; and what the port sends leaves
the list alone, but for a committed bank that is due. -/
theorem forwardingLinksAndGates : Obligations.ForwardingLinksAndGates := by
  unfold Obligations.ForwardingLinksAndGates
  intro s d up
  refine ⟨fun f r front => ⟨fun linked credit => ⟨_, rfl, forward_front front linked credit⟩, fun waits => ?_⟩,
    fun port => ⟨_, rfl, ingLink_changes port up _⟩, hstLinkChange_runs s d up, ?_,
    ⟨_, rfl, gateIntervalEnd_sets _ _⟩, ⟨fun v after before => ?_, fun more => gateStart_at_interval_end (by omega)⟩, rfl⟩
  · show runDie d forward s = _
    rw [runDie_eq, forward_waits waits]
  · obtain ⟨at_, eq, start⟩ := qbvSwap_start (s.die d)
    exact ⟨at_, congrArg (fun x => Host.Outcome.next (s.setDie d x)) eq, start⟩
  · obtain ⟨k, rfl⟩ := Nat.exists_eq_add_of_le after
    rw [gateAt_fst_of_within (by omega)]

end Sys2Proof.Machine
end

section
/-! SUPPORT. The standing of channels: no verdict changes it, and a retirement takes out of service what is in it. -/

namespace Sys2Proof.Machine

/-! ## The standing of a channel, which no verdict changes (R285, R288) -/

/-- What of a channel only its own commands and its retirement change. -/
structure Standing where
  state : ChanState
  endCause : Nat
  host : ChanHost

/-- The standing of each channel that is listed. -/
def standing (n : Chn) (c : Nat) : Option Standing := (mget n.tab c).map fun x => ⟨x.state, x.endCause, x.host⟩

@[simp] theorem standing_modChan (c : Nat) (f : Chan → Chan) (d : Die)
    (keeps : ∀ x, (f x).state = x.state ∧ (f x).endCause = x.endCause ∧ (f x).host = x.host) :
    standing (modChan c f d).chn = standing d.chn := by
  funext k
  have same : (mget (modChan c f d).chn.tab k) = if k = c then (mget d.chn.tab k).map f else mget d.chn.tab k :=
    mget_mmod _ _ _ _
  rw [standing, same, standing]
  split
  · rw [Option.map_map]
    refine congrArg (Option.map · _) (funext fun x => ?_)
    obtain ⟨state, cause, host⟩ := keeps x
    simp only [Function.comp, state, cause, host]
  · rfl

@[simp] theorem standing_modTicket (n : Nat) (f : Batch → Batch) (d : Die) :
    standing (modTicket n f d).chn = standing d.chn := rfl

@[simp] theorem standing_dropTicket (n : Nat) (d : Die) : standing (dropTicket n d).chn = standing d.chn := rfl

@[simp] theorem standing_modArr (c : Nat) (f : Arrival → Arrival) (d : Die) :
    standing (modArr c f d).chn = standing d.chn := standing_modChan c _ d fun _ => ⟨rfl, rfl, rfl⟩

theorem standing_foldl {α : Type} (f : Die → α → Die) (keeps : ∀ d a, standing (f d a).chn = standing d.chn) (as : List α)
    (d : Die) : standing (as.foldl f d).chn = standing d.chn := by
  induction as generalizing d with
  | nil => rfl
  | cons a r ih => rw [List.foldl_cons, ih, keeps]

/-! ### The channels after what a verdict does to the other parts -/

@[simp] theorem countPerms_chn (n : Nat) (d : Die) : (countPerms n d).chn = d.chn := rfl
@[simp] theorem modModel_chn (s : Nat) (f : Model → Model) (d : Die) : (modModel s f d).chn = d.chn := rfl
@[simp] theorem freeFrames_chn (b : Batch) (d : Die) : (freeFrames b d).chn = d.chn := rfl
@[simp] theorem freeOldMonth_chn (s : Nat) (d : Die) : (freeOldMonth s d).chn = d.chn := rfl
@[simp] theorem leaveRuns_chn (n : Nat) (d : Die) : (leaveRuns n d).chn = d.chn := rfl
@[simp] theorem dropTag_chn (k t : Nat) (d : Die) : (dropTag k t d).chn = d.chn := rfl
@[simp] theorem releaseExtents_chn (k o : Nat) (d : Die) : (releaseExtents k o d).chn = d.chn := rfl
@[simp] theorem clearPeer_chn (s : Nat) (d : Die) : (clearPeer s d).chn = d.chn := rfl

@[simp] theorem startPeriod_chn (d : Die) : (startPeriod d).chn = d.chn := by
  unfold startPeriod
  dsimp only
  split <;> simp

@[simp] theorem closePeriod_chn (c : Bool) (d : Die) : (closePeriod c d).chn = d.chn := by
  unfold closePeriod
  dsimp only
  split <;> simp

@[simp] theorem turnPeriod_chn (c : Bool) (d : Die) : (turnPeriod c d).chn = d.chn := by
  unfold turnPeriod
  split <;> simp

@[simp] theorem turnDue_chn (d : Die) : (turnDue d).chn = d.chn := by
  unfold turnDue
  split <;> simp

@[simp] theorem addLeaf_chn (l : Leaf) (d : Die) : (addLeaf l d).chn = d.chn := by
  unfold addLeaf
  dsimp only
  split
  · split <;> simp
  · simp

@[simp] theorem capture_chn (c : Nat) (e : Nat × Nat × Nat × Nat × Nat) (d : Die) : (capture c e d).chn = d.chn := by
  unfold capture
  dsimp only
  split
  · split <;> simp
  · rfl

@[simp] theorem sendPermit_chn (b : Batch) (d : Die) : (sendPermit b d).chn = d.chn := by
  unfold sendPermit
  dsimp only
  split <;> simp

@[simp] theorem endCapture_chn (n : Nat) (d : Die) : (endCapture n d).chn = d.chn := by
  unfold endCapture
  split <;> simp

@[simp] theorem requestTurn_chn (s : Nat) (forced : Bool) (d : Die) : (requestTurn s forced d).chn = d.chn := by
  unfold requestTurn
  dsimp only
  split
  · rfl
  · split
    · rfl
    · split
      · split <;> simp
      · simp
      · rfl

@[simp] theorem sendBoundary_chn (c : Chain) (p : Nat) (g : Option Bytes) (d : Die) : (sendBoundary c p g d).chn = d.chn := by
  unfold sendBoundary
  split
  · rfl
  · split <;> simp

/-! ### The standing after a commit -/

@[simp] theorem standing_sendBoundaries (b : Batch) (pass : Bool) (d : Die) :
    standing (sendBoundaries b pass d).chn = standing d.chn := by
  unfold sendBoundaries
  split
  · exact standing_foldl _ (fun d t => congrArg standing (sendBoundary_chn _ _ _ d)) _ d
  · rfl

@[simp] theorem standing_declare (n : Nat) (v : Decl) (d : Die) : standing (declare n v d).chn = standing d.chn := by
  unfold declare
  split
  · rfl
  · split <;> simp

@[simp] theorem standing_bumpLedger (set : Bool) (c : Nat) (d : Die) :
    standing (bumpLedger set c d).chn = standing d.chn := by
  unfold bumpLedger
  dsimp only
  split
  · rfl
  · repeat' split
    all_goals simp

@[simp] theorem standing_markLedger (b : Batch) (d : Die) : standing (markLedger b d).chn = standing d.chn := by
  unfold markLedger
  dsimp only
  split
  · rfl
  · split <;> simp

@[simp] theorem standing_writeRing (c : Nat) (r : Bytes) (d : Die) : standing (writeRing c r d).chn = standing d.chn := by
  unfold writeRing
  dsimp only
  split <;> simp

@[simp] theorem standing_noteSlot (b : Batch) (d : Die) : standing (noteSlot b d).chn = standing d.chn := by
  unfold noteSlot
  dsimp only
  split <;> simp

@[simp] theorem standing_canaryDone (b : Batch) (v : Nat) (d : Die) : standing (canaryDone b v d).chn = standing d.chn := by
  unfold canaryDone
  dsimp only
  repeat' split
  all_goals simp

/-- A verdict leaves every channel in its state. -/
@[simp] theorem standing_commit (n v k : Nat) (e : Bool) (d : Die) : standing (commit n v k e d).chn = standing d.chn := by
  unfold commit
  split
  · rfl
  · extract_lets c x inD outD io record leaf slot permit d1 own d2 d3 d4 d5 d6 d7 d8 d9 newest d10 d11 d12
    have h2 : standing d2.chn = standing d.chn := by simp only [d2]; split <;> simp [d1]
    have h4 : standing d4.chn = standing d.chn := by simp only [d4]; split <;> simp [d3, h2]
    have h5 : standing d5.chn = standing d.chn := by simp [d5, h4]
    have h6 : standing d6.chn = standing d.chn := by
      simp only [d6]
      split
      · exact (standing_foldl _ (fun d e => congrArg standing (capture_chn c e d)) _ d5).trans h5
      · exact h5
    have h7 : standing d7.chn = standing d.chn := by simp only [d7]; split <;> simp [h6]
    have h8 : standing d8.chn = standing d.chn := by simp only [d8]; split <;> simp [h7]
    have h10 : standing d10.chn = standing d.chn := by simp only [d10]; split <;> simp [d9, h8]
    have h12 : standing d12.chn = standing d.chn := by simp [d12, d11, h10]
    split <;> simp [h12]

@[simp] theorem standing_endTicket (v k : Nat) (d : Die) (n : Nat) : standing (endTicket v k d n).chn = standing d.chn := by
  unfold endTicket
  split
  · rfl
  · exact standing_commit n v _ true d

/-! ## Channels out of service (R288, R289) -/

/-- A channel of this standing is OPEN or PAUSED. -/
def Standing.live (x : Standing) : Bool := x.state == .opened || x.state == .paused

/-- The standing of a channel after its retirement with a cause: what is not in service stays. -/
def Standing.retire (cause : Nat) (x : Standing) : Standing :=
  if x.live then { x with state := .retired, endCause := cause } else x

theorem Standing.retire_retired {x : Standing} (out : x.state = .retired) (cause : Nat) : x.retire cause = x := by
  simp [Standing.retire, Standing.live, out]

theorem chanLive_chan (d : Die) (c : Nat) : chanLive (chan d c) = ((standing d.chn c).map Standing.live).getD false := by
  unfold chan mgetD standing
  cases mget d.chn.tab c <;> rfl

/-- Retiring a channel takes it out of service, if it is in service, and leaves the standing of every other. -/
theorem standing_retireChan (ec v k c : Nat) (d : Die) (j : Nat) : standing (retireChan ec v k c d).chn j =
    if j = c then (standing d.chn j).map (Standing.retire ec) else standing d.chn j := by
  have live := chanLive_chan d c
  unfold retireChan
  extract_lets x d1 d2 d3
  have h1 : standing d1.chn = standing d.chn := standing_foldl _ (fun d n => standing_endTicket v k d n) _ d
  have h3 : standing d3.chn j = if j = c then (standing d.chn j).map fun x => { x with state := .retired, endCause := ec }
      else standing d.chn j := by
    have tab : d3.chn.tab = mmod d1.chn.tab c fun x => { x with
        state := .retired, endCause := ec, pend := none, ledger := [] } := rfl
    rw [standing, tab, mget_mmod, ← h1, standing]
    split <;> simp [Function.comp_def]
  split
  · next up =>
    have shown : standing (if x.host.safety = true then tellWarden (.lost c true) d3 else d3).chn = standing d3.chn := by
      split <;> simp
    rw [shown, h3]
    split
    · next eq =>
      rw [show x = chan d c from rfl, live, ← eq] at up
      cases h : standing d.chn j with
      | none => rfl
      | some y =>
        rw [h] at up
        simp only [Option.map_some, Option.getD_some] at up
        simp [Standing.retire, up]
    · rfl
  · next down =>
    split
    · next eq =>
      rw [show x = chan d c from rfl, live, ← eq] at down
      cases h : standing d.chn j with
      | none => rfl
      | some y =>
        rw [h] at down
        simp only [Option.map_some, Option.getD_some] at down
        simp [Standing.retire, down]
    · rfl

/-- A channel is listed as RETIRED with an end cause. -/
def OutOfService (cause : Nat) (n : Chn) (c : Nat) : Prop :=
  ∃ x, standing n c = some x ∧ x.state = .retired ∧ x.endCause = cause

theorem OutOfService.retireChan {cause c : Nat} {d : Die} (out : OutOfService cause d.chn c) (ec v k j : Nat) :
    OutOfService cause (retireChan ec v k j d).chn c := by
  obtain ⟨x, listed, state, causes⟩ := out
  refine ⟨x, ?_, state, causes⟩
  rw [standing_retireChan]
  split
  · rw [listed, Option.map_some, Standing.retire_retired state]
  · exact listed

theorem OutOfService.foldl {α : Type} {cause c : Nat} {f : Die → α → Die}
    (keeps : ∀ d a, OutOfService cause d.chn c → OutOfService cause (f d a).chn c) (as : List α) {d : Die}
    (out : OutOfService cause d.chn c) : OutOfService cause (as.foldl f d).chn c := by
  induction as generalizing d with
  | nil => exact out
  | cons a r ih => exact ih (keeps d a out)

theorem OutOfService.retireWhere {cause c : Nat} {d : Die} (out : OutOfService cause d.chn c) (p : Chan → Bool)
    (ec v k : Nat) : OutOfService cause (retireWhere p ec v k d).chn c :=
  .foldl (fun _ j h => h.retireChan ec v k j) _ out

theorem outOfService_of_retireChans {cause v k c : Nat} {x : Standing} (live : x.live = true) (cs : List Nat) {d : Die}
    (asked : c ∈ cs) (listed : standing d.chn c = some x) :
    OutOfService cause (cs.foldl (fun d c => retireChan cause v k c d) d).chn c := by
  induction cs generalizing d with
  | nil => cases asked
  | cons j r ih =>
    have one := standing_retireChan cause v k j d c
    rw [List.foldl_cons]
    split at one
    · rw [listed, Option.map_some, Standing.retire, if_pos live] at one
      exact .foldl (fun _ i h => h.retireChan cause v k i) _ ⟨_, one, rfl, rfl⟩
    · next other => exact ih ((List.mem_cons.mp asked).resolve_left other) (one.trans listed)

theorem mem_of_mget {α : Type} {m : AMap α} {k : Nat} {v : α} (h : mget m k = some v) : (k, v) ∈ m := by
  induction m with
  | nil => cases h
  | cons e r ih =>
    obtain ⟨j, w⟩ := e
    simp only [mget] at h
    split at h
    · next eq =>
      cases h
      rw [eq]
      exact List.mem_cons_self
    · exact List.mem_cons_of_mem _ (ih h)

/-- Retiring the channels that meet a condition takes each of them that is in service out of it. -/
theorem outOfService_of_retireWhere {p : Chan → Bool} {cause v k c : Nat} {d : Die} {x : Chan}
    (listed : mget d.chn.tab c = some x) (live : chanLive x = true) (meets : p x = true) :
    OutOfService cause (retireWhere p cause v k d).chn c := by
  refine outOfService_of_retireChans (x := ⟨x.state, x.endCause, x.host⟩) live _ ?_ (by rw [standing, listed, Option.map_some])
  rw [recordOrder, List.mem_mergeSort]
  exact List.mem_map.mpr ⟨(c, x), List.mem_filter.mpr ⟨mem_of_mget listed, by simp [live, meets]⟩, rfl⟩

end Sys2Proof.Machine
end

section
/-! SUPPORT. What the end of a link leaves, training and the link's restoration, and O42. -/

namespace Sys2Proof.Machine

/-! ## What the link has not delivered (R43, R46) -/

@[simp] theorem standing_loseFrame (s no : Nat) (d : Die) : standing (loseFrame s no d).chn = standing d.chn := by
  have keeps (x : Chan) : (forgetFrame s no x).state = x.state ∧ (forgetFrame s no x).endCause = x.endCause ∧
      (forgetFrame s no x).host = x.host := by
    unfold forgetFrame
    split_ifs <;> simp
  have tab : (loseFrame s no d).chn.tab = mmap d.chn.tab (forgetFrame s no) := by simp [loseFrame]
  funext k
  rw [standing, tab, mget_mmap, Option.map_map, standing]
  refine congrArg (Option.map · _) (funext fun x => ?_)
  obtain ⟨state, cause, host⟩ := keeps x
  simp only [Function.comp, state, cause, host]

/-- Frames that are lost leave the link, the record decoder, the tickets and the standing of every channel. -/
theorem loseFrames_keeps (l : List (Nat × Nat)) (d : Die) : (loseFrames l d).wlk = d.wlk ∧ (loseFrames l d).wrd = d.wrd ∧
    (loseFrames l d).chn.tickets = d.chn.tickets ∧ standing (loseFrames l d).chn = standing d.chn := by
  unfold loseFrames
  generalize l.eraseDups.mergeSort _ = frames
  induction frames generalizing d with
  | nil => exact ⟨rfl, rfl, rfl, rfl⟩
  | cons f r ih =>
    obtain ⟨wlk, wrd, tickets, stand⟩ := ih (loseFrame f.1 f.2 d)
    exact ⟨wlk.trans (by simp [loseFrame]), wrd.trans (by simp [loseFrame]), tickets.trans (by simp [loseFrame]),
      stand.trans (standing_loseFrame _ _ _)⟩

theorem loseDown_eq (d : Die) : ∃ frames n, loseDown d = updIng (fun g => { g with queue := [] })
    (updWlk (fun w => { w with unacked := [], resend := [], dsTx0 := [], dsTx1 := [] })
      (loseFrames frames (countN pWLK 0x090 n d))) := ⟨_, _, rfl⟩

theorem loseDown_keeps (d : Die) :
    (loseDown d).wlk = { d.wlk with unacked := [], resend := [], dsTx0 := [], dsTx1 := [] } ∧
      (loseDown d).wrd = d.wrd ∧ (loseDown d).chn.tickets = d.chn.tickets ∧
      standing (loseDown d).chn = standing d.chn ∧ (loseDown d).ing.queue = [] := by
  obtain ⟨frames, n, eq⟩ := loseDown_eq d
  obtain ⟨wlk, wrd, tickets, stand⟩ := loseFrames_keeps frames (countN pWLK 0x090 n d)
  rw [eq]
  refine ⟨?_, wrd, tickets, stand, rfl⟩
  rw [updIng_wlk, updWlk_wlk, wlk, countN_wlk]

theorem unlinked_loseDown (d : Die) : unlinked (loseDown d) = unlinked d := by simp [loseDown, unlinked_loseFrames]

/-! ## The end of every admission (R102, R52) -/

theorem mget_eq_none {α : Type} {m : AMap α} {k : Nat} (absent : k ∉ m.map (fun e => e.1)) : mget m k = none := by
  cases h : mget m k with
  | none => rfl
  | some v => exact absurd (List.mem_map.mpr ⟨_, mem_of_mget h, rfl⟩) absent

@[simp] theorem stopStream_chn (s : Nat) (d : Die) : (stopStream s d).chn = d.chn := by
  unfold stopStream
  repeat' split
  all_goals rfl

@[simp] theorem stopStream_models (s : Nat) (d : Die) : (stopStream s d).adm.models = d.adm.models := by
  unfold stopStream
  repeat' split
  all_goals rfl

@[simp] theorem freeSlot_chn (s : Nat) (d : Die) : (freeSlot s d).chn = d.chn := by simp [freeSlot]

@[simp] theorem freeSlot_models (s : Nat) (d : Die) : (freeSlot s d).adm.models = mdel d.adm.models s := by
  simp [freeSlot, dropTag, releaseExtents]

@[simp] theorem reportSlot_chn (s c : Nat) (d : Die) : (reportSlot s c d).chn = d.chn := by simp [reportSlot]

@[simp] theorem endAdmission_chn (s c : Nat) (first : Bool) (d : Die) : (endAdmission s c first d).chn = d.chn := by
  unfold endAdmission tellRefusal
  dsimp only
  repeat' split
  all_goals simp

theorem OutOfService.finishAbandoned {cause c : Nat} {d : Die} (out : OutOfService cause d.chn c) (s : Nat) :
    OutOfService cause (finishAbandoned s d).chn c := by
  unfold Machine.finishAbandoned
  split
  · split
    · split
      · exact out
      · rw [reportSlot_chn, withdrawModel, freeSlot_chn]
        exact out.retireWhere _ _ _ _
    · exact out
  · exact out

theorem mget_freeSlots (slots : List Nat) (d : Die) (k : Nat) :
    mget (slots.foldl (fun d s => freeSlot s d) d).adm.models k = if k ∈ slots then none else mget d.adm.models k := by
  induction slots generalizing d with
  | nil => simp
  | cons s r ih =>
    rw [List.foldl_cons, ih, freeSlot_models, mget_mdel]
    by_cases h : k = s <;> simp [h]

/-- Once every slot that is listed is free, no model is left. -/
theorem mget_freeSlots_all (d : Die) (k : Nat) :
    mget ((d.adm.models.map (fun e => e.1)).foldl (fun d s => freeSlot s d) d).adm.models k = none := by
  rw [mget_freeSlots]
  split
  · rfl
  · next absent => exact mget_eq_none absent

theorem freeSlots_chn (slots : List Nat) (d : Die) : (slots.foldl (fun d s => freeSlot s d) d).chn = d.chn := by
  induction slots generalizing d with
  | nil => rfl
  | cons s r ih => rw [List.foldl_cons, ih, freeSlot_chn]

/-! ## Summer ends with the link (R29, R52) -/

theorem settlePhase_keeps (d : Die) : (settlePhase d).wlk = d.wlk ∧ (settlePhase d).tim = d.tim ∧
    (settlePhase d).adm = d.adm ∧ (settlePhase d).chn = d.chn := by
  unfold settlePhase
  dsimp only
  repeat' split
  all_goals simp [firmwareTimetable]

theorem settlePhase_phase_of_retired {d : Die} (out : d.wlk.state = .retired) :
    (settlePhase d).phase = if d.phase = .summer then .spring else d.phase := by
  unfold settlePhase
  simp only [out, beq_self_eq_true, Bool.or_true, Bool.and_true, beq_iff_eq]
  rw [if_neg (by simp)]
  split
  · simp [firmwareTimetable]
  · rfl

/-! ## The end of a link (R52) -/

/-- What a link that retires with a cause leaves of a die. -/
structure LinkEnded (cause : Nat) (d x : Die) : Prop where
  state : x.wlk.state = .retired
  halves : x.wlk.halves = 0
  cause : x.wlk.cause = cause
  tim : x.tim = d.tim
  models : ∀ k, mget x.adm.models k = none
  channels : ∀ k c, mget d.chn.tab k = some c → chanLive c = true → c.host.kind ≠ 3 → OutOfService 6 x.chn k
  phase : x.phase = if d.phase = .summer then .spring else d.phase

theorem linkRetire_of_out {d : Die} (out : d.wlk.state = .off ∨ d.wlk.state = .retired) (cause : Nat) :
    linkRetire cause d = d := by
  unfold linkRetire
  rw [if_pos]
  rcases out with h | h <;> simp [h]

theorem linkRetire_ends {d : Die} (off : d.wlk.state ≠ .off) (retired : d.wlk.state ≠ .retired) (cause : Nat) :
    LinkEnded cause d (linkRetire cause d) := by
  unfold linkRetire
  rw [if_neg (by simp [off, retired])]
  extract_lets d1 d2 d3 d4
  generalize hx : (d4.adm.models.map (fun e => e.1)).foldl (fun d s => freeSlot s d) d4 = x
  have lost := unlinked_loseDown
    (updWlk (fun w => { w with state := .retired, halves := 0, cause := cause, leftAt := d.tim.up }) d)
  obtain ⟨downWlk, -, -, stands, -⟩ := loseDown_keeps
    (updWlk (fun w => { w with state := .retired, halves := 0, cause := cause, leftAt := d.tim.up }) d)
  have h2 : quiet d2 = quiet d1 := by
    simp only [d2]
    split
    · rfl
    · exact quiet_raise _ _ _
  have h4 : quiet d4 = quiet d3 := by
    refine quiet_foldl _ (fun d s => ?_) _ d3
    split
    · split
      · exact quiet_endAdmission _ _ _ _
      · exact quiet_finishAbandoned _ _
    · rfl
  have all : quiet x = quiet d1 := by
    rw [← hx, quiet_foldl _ (fun d s => quiet_freeSlot s d), h4, quiet_retireWhere, h2]
  have wlk : x.wlk = _ := (quiet_wlk all).trans downWlk
  have chn2 : d2.chn = d1.chn := by
    simp only [d2]
    split
    · rfl
    · exact raise_chn _ _ _
  have chn : x.chn = d4.chn := by rw [← hx, freeSlots_chn]
  obtain ⟨keptWlk, keptTim, keptAdm, keptChn⟩ := settlePhase_keeps x
  have gone : x.wlk.state = .retired := by rw [wlk]; rfl
  refine ⟨?_, ?_, ?_, ?_, fun k => ?_, fun k c listed live radio => ?_, ?_⟩
  · rw [keptWlk, gone]
  · rw [keptWlk, wlk]; rfl
  · rw [keptWlk, wlk]; rfl
  · rw [keptTim]
    exact (quiet_tim all).trans (congrArg (·.tim) lost)
  · rw [keptAdm, ← hx]
    exact mget_freeSlots_all d4 k
  · have listed1 : standing d2.chn k = some ⟨c.state, c.endCause, c.host⟩ := by
      rw [chn2, stands]
      simp [standing, listed]
    obtain ⟨y, listed2, same⟩ := Option.map_eq_some_iff.mp listed1
    obtain ⟨state, -, host⟩ := Standing.mk.inj same
    have out : OutOfService 6 d3.chn k := by
      refine outOfService_of_retireWhere listed2 ?_ ?_
      · rw [← live, chanLive, chanLive, state]
      · simp [host, radio]
    rw [keptChn, chn]
    refine .foldl (fun d s h => ?_) _ out
    split
    · split
      · exact (endAdmission_chn _ _ _ _).symm ▸ h
      · exact h.finishAbandoned s
    · exact h
  · rw [settlePhase_phase_of_retired gone, (quiet_phase all).trans (congrArg (·.phase) lost)]
    rfl

/-! ## A link begins anew (R49) -/

theorem linkFresh_begins (d : Die) : let x := linkFresh d
    x.wlk.state = .adapt ∧ x.wlk.halves = field d pWLK 0x040 0 ∧ x.wlk.txSeq = 0 ∧ x.wlk.rxNext = 0 ∧ x.wlk.unacked = [] ∧
      x.wlk.dsTx0 = [] ∧ x.wlk.dsTx1 = [] ∧ x.wlk.freshTx = true ∧ x.wrd.wait = ⟨[], [], []⟩ ∧ x.wrd.chunks = d.wrd.chunks ∧
      x.ing.queue = [] ∧ x.chn.tickets = d.chn.tickets ∧ x.adm = d.adm ∧ x.mem = d.mem ∧ x.phase = d.phase := by
  obtain ⟨-, wrd, tickets, -, queue⟩ := loseDown_keeps d
  have kept := unlinked_linkFresh d
  have live : (loseDown d).regs.live = d.regs.live := congrArg (·.regs.live) (unlinked_loseDown d)
  have halves : field (loseDown d) pWLK 0x040 0 = field d pWLK 0x040 0 := by rw [field, fieldSel, live]; rfl
  exact ⟨rfl, halves, rfl, rfl, rfl, rfl, rfl, rfl, rfl, congrArg (·.chunks) wrd, queue, tickets,
    congrArg (·.adm) kept, congrArg (·.mem) kept, congrArg (·.phase) kept⟩

/-! ## Halves (R47, R50) -/

/-- While halves are left, taking others out leaves the link in its state. -/
theorem excludeHalves_of_left {mask : Nat} {d : Die} (left : d.wlk.halves - (d.wlk.halves &&& mask) ≠ 0) :
    (excludeHalves mask d).wlk.state = d.wlk.state ∧
      (excludeHalves mask d).wlk.halves = d.wlk.halves - (d.wlk.halves &&& mask) ∧ (excludeHalves mask d).chn = d.chn := by
  unfold excludeHalves
  dsimp only
  split
  · next unused => rw [unused]; exact ⟨rfl, rfl, rfl⟩
  · simp

/-- Of two halves, those left without the ones that have not locked are those that have. -/
theorem halves_left {h l : Nat} (hh : h < 4) (hl : l < 4) : h - (h &&& (3 - l)) = l &&& h := by
  interval_cases h <;> interval_cases l <;> rfl

theorem adaptTimeout_hunts {l : Nat} {d : Die} (adapt : d.wlk.state = .adapt) (two : d.wlk.halves < 4) (hl : l < 4)
    (some_locked : l &&& d.wlk.halves ≠ 0) : (adaptTimeout l d).wlk.state = .flitHunt ∧
      (adaptTimeout l d).wlk.halves = l &&& d.wlk.halves ∧ (adaptTimeout l d).chn = d.chn := by
  have left := halves_left two hl
  obtain ⟨state, halves, chn⟩ := excludeHalves_of_left (mask := 3 - l) (d := d) (left ▸ some_locked)
  unfold adaptTimeout
  rw [if_pos (by simp [adapt, some_locked])]
  simp only [state, adapt, beq_self_eq_true, if_true, updWlk_wlk, updWlk_chn, true_and]
  exact ⟨halves.trans left, chn⟩

/-! ## The claims -/

/-- A command that leaves its die as it is leaves the state. -/
theorem setDie_die (s : State) (d : DieId) : s.setDie d (s.die d) = s := by cases d <;> rfl

theorem runDie_of_eq {d : DieId} {f : Die → Die} {s : State} {x : Die} (h : f (s.die d) = x) :
    runDie d f s = .next (s.setDie d x) := by rw [runDie_eq, h]

theorem linkTrainingStates : Claim.LinkTrainingStates := by
  intro s d locked
  refine ⟨fun adapt => ⟨?_, fun two some_locked => ?_, fun none_locked => ?_⟩,
    fun hunt => ⟨⟨(enterHello (s.die d)).wlk, ?_, ?_⟩, ?_⟩, fun hello => ?_,
    fun training => ⟨fun late => ?_, fun early => ?_⟩, fun up => ?_⟩
  · refine runDie_of_eq (f := lanesLocked) ?_
    rw [lanesLocked, adapt]
    rfl
  · exact ⟨_, rfl, adaptTimeout_hunts adapt two locked.isLt some_locked⟩
  · refine runDie_of_eq (f := adaptTimeout locked.toNat) ?_
    simp [adaptTimeout, none_locked]
  · refine runDie_of_eq (f := flitLock) ?_
    rw [flitLock, hunt]
    rfl
  · exact ⟨rfl, rfl, rfl, rfl, rfl, rfl⟩
  · refine runDie_of_eq (f := backToAdapt .flitHunt) ?_
    rw [backToAdapt, hunt]
    rfl
  · refine runDie_of_eq (f := backToAdapt .hello) ?_
    rw [backToAdapt, hello]
    rfl
  · have ended : LinkEnded (if (s.die d).wlk.helloBad then 4 else 1) (s.die d) (retrainLimit (s.die d)) := by
      have eq : retrainLimit (s.die d) = linkRetire (if (s.die d).wlk.helloBad then 4 else 1) (s.die d) :=
        if_pos (by simpa [late, or_assoc] using training)
      rw [eq]
      refine linkRetire_ends ?_ ?_ _ <;> rcases training with h | h | h <;> simp [h]
    exact ⟨_, rfl, ended.state, ended.halves, ended.cause⟩
  · refine runDie_of_eq (f := retrainLimit) ?_
    simp [retrainLimit, early]
  · have same {f : Die → Die} (h : f (s.die d) = s.die d) : runDie d f s = .next s := by rw [runDie_of_eq h, setDie_die]
    refine ⟨same (f := lanesLocked) ?_, same (f := adaptTimeout locked.toNat) ?_, same (f := flitLock) ?_,
      same (f := backToAdapt .flitHunt) ?_, same (f := backToAdapt .hello) ?_, same (f := retrainLimit) ?_⟩
    · simp [lanesLocked, up]
    · simp [adaptTimeout, up]
    · simp [flitLock, up]
    · simp [backToAdapt, up]
    · simp [backToAdapt, up]
    · simp [retrainLimit, up]

theorem linkRestoreAndRetire : Claim.LinkRestoreAndRetire := by
  intro s d
  refine ⟨fun out allowed => ⟨linkFresh (s.die d), ?_, linkFresh_begins _⟩, fun refused => ?_,
    fun off retired => ?_, fun out => ?_⟩
  · refine runDie_of_eq (f := linkRestore) ?_
    rw [linkRestore, if_pos (by simpa [allowed] using out)]
  · refine runDie_of_eq (f := linkRestore) ?_
    rw [linkRestore, if_neg (by simp [refused])]
  · have ended := linkRetire_ends off retired 5
    refine ⟨_, rfl, ended.state, ended.halves, ended.cause, ended.tim, ended.models,
      fun k c listed live radio => ?_, ended.phase⟩
    obtain ⟨x, stands, state, cause⟩ := ended.channels k c listed live radio
    obtain ⟨c', listed', rfl⟩ := Option.map_eq_some_iff.mp stands
    exact ⟨c', listed', state, cause⟩
  · exact runDie_of_eq (f := linkRetire 5) (linkRetire_of_out out 5)

/-- Settles O42: a link that retires takes every channel of a model out of service, for no verdict and no admission's end puts
one back, and no slot is left. -/
theorem linkTrainsAndRestores : Obligations.LinkTrainsAndRestores := ⟨linkTrainingStates, linkRestoreAndRetire⟩

end Sys2Proof.Machine
end

section
/-! SUPPORT. What leaves the link: flits, the device's HELLO and owed ratchet bumps, and O45. -/

namespace Sys2Proof.Machine

/-! ## Bytes -/

@[simp] theorem leBytes_length (n v : Nat) : (leBytes n v).length = n := by
  induction n generalizing v with
  | zero => rfl
  | succ n ih => rw [leBytes, List.length_cons, ih]

/-- The bytes of a number read back as the number, as far as they hold it. -/
theorem leVal_leBytes (n v : Nat) : leVal (leBytes n v) = v % 256 ^ n := by
  induction n generalizing v with
  | zero => rw [leBytes, leVal, Nat.pow_zero, Nat.mod_one]
  | succ n ih => rw [leBytes, leVal, ih, BitVec.toNat_ofNat, pow_succ' 256 n, Nat.mod_mul (a := 256)]

/-! ## A slot of a half in use (R34, R38, R44) -/

section
variable {half : Nat} {ecc : Bool} {d : Die}

theorem flitSlot_of_unused (unused : tst d.wlk.halves half = false) : flitSlot half ecc d = d := by
  unfold flitSlot
  simp [unused]

theorem flitSlot_replays {g : SentFlit} {r : List SentFlit} (used : tst d.wlk.halves half = true) (up : d.wlk.state = .up)
    (asked : d.wlk.resend = g :: r) : flitSlot half false d =
      sendFlit half 1 g.vc g.fseq g.units g.payload (updWlk (fun w => { w with resend := r }) d) := by
  unfold flitSlot
  simp [used, up, asked]

theorem flitSlot_sends_bumps (used : tst d.wlk.halves half = true) (up : d.wlk.state = .up) (nothing : d.wlk.resend = [])
    (room : d.wlk.unacked.length < min 1024 d.wlk.peerDepth) (waits : d.wlk.dsTx1 ≠ []) (credit : 0 < dsCredit d.wlk 1) :
    flitSlot half ecc d =
      sendNew half 1 (d.wlk.dsTx1.take 512) [] (updWlk (fun w => { w with dsTx1 := w.dsTx1.drop 512 }) d) := by
  unfold flitSlot
  simp only [used, up, nothing, Nat.not_le.mpr room, credit, if_false, decide_true,
    List.isEmpty_eq_false_iff.mpr waits]
  rfl

theorem flitSlot_idles (used : tst d.wlk.halves half = true) (up : d.wlk.state = .up) (nothing : d.wlk.resend = [])
    (none0 : d.wlk.dsTx0 = []) (none1 : d.wlk.dsTx1 = []) : flitSlot half ecc d = sendFlit half 2 0 0 0 [] d := by
  unfold flitSlot
  simp [used, up, nothing, none0, none1]

end

/-! ## The device's HELLO (R47, R48) -/

/-- In HELLO, one flit leaves, and the HELLO counts as sent. -/
theorem helloTx_sends {d : Die} (hello : d.wlk.state = .hello) : ∃ h b, (helloTx d).wlk.helloSent = true ∧
    (helloTx d).wlk.state = .hello ∧ (helloTx d).out = .flit h b :: d.out := by
  unfold helloTx
  rw [if_pos (by simp [hello])]
  exact ⟨_, _, rfl, hello, rfl⟩

theorem helloTx_of_other {d : Die} (other : d.wlk.state ≠ .hello) : helloTx d = d := by
  unfold helloTx
  rw [if_neg (by simp [other])]

/-! ## An owed bump (R77, R87, R297) -/

/-- The header of a RATCHET_BUMP record up to its CRC. -/
def bumpHead (seq : Nat) : Bytes := [BitVec.ofNat 8 12, 0] ++ leBytes 2 2 ++ leBytes 2 0 ++ leBytes 4 seq ++ leBytes 4 0

/-- The RATCHET_BUMP record of a ratchet with its value. -/
def bumpRecord (seq r value : Nat) : Bytes :=
  bumpHead seq ++ leBytes 2 (crc16 (bumpHead seq)) ++ leBytes 2 r ++ zeros 6 ++ leBytes 8 value

theorem bumpRecord_length (seq r value : Nat) : (bumpRecord seq r value).length = 32 := by
  simp [bumpRecord, bumpHead, zeros]

theorem bumpRecord_value (seq r value : Nat) : leVal ((bumpRecord seq r value).drop 24) = value % 2 ^ 64 := by
  rw [bumpRecord, List.drop_left' (by simp [bumpHead, zeros]), leVal_leBytes]
  norm_num

theorem bumpDown_of_owed {d : Die} {r : Nat} (owed : (ratchet d r).owed = true) (up : d.wlk.state = .up)
    (credit : 0 < dsCredit d.wlk 1) : bumpDown r d = setRatchet r { ratchet d r with owed := false }
      (count (ratPage r) 0x054 (updWlk (fun w => { w with
        dsTx1 := w.dsTx1 ++ bumpRecord d.wlk.dsSeq r (ratchet d r).value, dsSeq := w32 (w.dsSeq + 1) }) d)) := by
  unfold bumpDown
  rw [if_pos (by simp [owed, up, credit])]
  rfl

theorem bumpDown_of_idle {d : Die} {r : Nat} (idle : (ratchet d r).owed = false ∨ d.wlk.state ≠ .up) : bumpDown r d = d := by
  unfold bumpDown
  rw [if_neg]
  rcases idle with clear | down
  · simp [clear]
  · simp [down]

/-! ## The claims -/

theorem flitsLeave : Claim.FlitsLeave := by
  intro s d half ecc w
  refine ⟨fun unused => runDie_of_eq (flitSlot_of_unused unused),
    fun used up => ⟨fun g r asked clean => ?_, fun nothing room waits credit => ?_, fun nothing none0 none1 => ?_⟩,
    fun hello => ?_, fun other => runDie_of_eq (helloTx_of_other other)⟩
  · subst clean
    exact ⟨_, _, runDie_of_eq (flitSlot_replays used up asked), rfl, rfl, rfl, rfl⟩
  · exact ⟨_, _, runDie_of_eq (flitSlot_sends_bumps used up nothing room waits credit), rfl, rfl, rfl, rfl⟩
  · exact ⟨_, _, runDie_of_eq (flitSlot_idles used up nothing none0 none1), rfl, rfl, rfl⟩
  · obtain ⟨h, b, sent⟩ := helloTx_sends hello
    exact ⟨_, b, h, rfl, sent⟩

theorem owedBumpsGoDownstream : Claim.OwedBumpsGoDownstream := by
  intro s d r
  refine ⟨fun owed up credit => ⟨_, _, runDie_of_eq (bumpDown_of_owed owed up credit), rfl, bumpRecord_length _ _ _,
    bumpRecord_value _ _ _, rfl, ?_, rfl⟩, fun idle => runDie_of_eq (bumpDown_of_idle idle)⟩
  simp [ratchet, setRatchet]

/-- Settles O45: what a slot sends in each case, the device's HELLO, and the record of an owed bump. -/
theorem flitsAndBumpsLeave : Obligations.FlitsAndBumpsLeave := ⟨flitsLeave, owedBumpsGoDownstream⟩

end Sys2Proof.Machine
end

section
/-! SUPPORT. What happens to the link outside UP and HELLO, and the refutations of O43 and O44. -/

namespace Sys2Proof.Machine

/-! ## The last half is lost while the link trains (R47, R50) -/

theorem excludeHalves_of_last {mask : Nat} {d : Die} (used : d.wlk.halves &&& mask ≠ 0)
    (last : d.wlk.halves - (d.wlk.halves &&& mask) = 0) (off : d.wlk.state ≠ .off) (retired : d.wlk.state ≠ .retired) :
    (excludeHalves mask d).wlk.state = .retired := by
  unfold excludeHalves
  rw [if_neg used, if_pos last]
  refine (linkRetire_ends ?_ ?_ 3).state
  · simpa using off
  · simpa using retired

/-- The second half over its threshold in the cycle in which the first has started the retrain retires the link. -/
theorem fecOver_of_same_cycle {half : Nat} {d : Die} (adapt : d.wlk.state = .adapt) (was : d.wlk.wasUp = true)
    (now : d.wlk.leftAt = d.tim.up) (last : d.wlk.halves = 2 ^ half) : (fecOver half d).wlk.state = .retired := by
  unfold fecOver
  rw [if_pos (by simp [adapt, was, now])]
  refine excludeHalves_of_last ?_ ?_ (by simp [adapt]) (by simp [adapt]) <;> simp [last]

/-- Die A in the cycle in which the FEC errors of half 0 have started a retrain with half 1 alone. -/
def halfJustLost : State :=
  { dieA := { which := .a, phase := .spring, wlk := { state := .adapt, halves := 2, excluded := 1, wasUp := true } } }

/-- Refutes O43: outside UP a FEC error rate does something. In `halfJustLost` the link is in ADAPT, and the errors of half 1 in the
same cycle retire it (R47, R50). -/
theorem not_linkRetrainsAndResyncs : ¬ Obligations.LinkRetrainsAndResyncs := by
  unfold Obligations.LinkRetrainsAndResyncs
  rintro ⟨retrains, -⟩
  obtain ⟨-, -, outside⟩ := retrains halfJustLost .a true
  have unchanged : RunsTo (.fecErrorThreshold .a true) halfJustLost .a (halfJustLost.die .a) :=
    outside (by decide) _ (by simp)
  have same : fecOver 1 halfJustLost.dieA = halfJustLost.dieA := congrArg State.dieA (Host.Outcome.next.inj unchanged)
  have ended : (fecOver 1 halfJustLost.dieA).wlk.state = .retired := fecOver_of_same_cycle rfl rfl rfl rfl
  rw [same] at ended
  exact absurd ended (by decide)

/-! ## Flits that arrive while the link trains (R54) -/

/-- Outside HELLO and UP, a flit's codewords are counted, and nothing else happens. -/
theorem takeFlit_of_training {f : Flit} {d : Die} (hello : d.wlk.state ≠ .hello) (up : d.wlk.state ≠ .up) :
    takeFlit f d = fecCounted f d := by
  have counted : (fecCounted f d).wlk = d.wlk := by
    unfold fecCounted
    split <;> simp
  unfold takeFlit rxFlit
  simp [counted, hello, up]

/-- Die A with its link in ADAPT. -/
def linkInAdapt : State := { dieA := { which := .a, phase := .spring, wlk := { state := .adapt, halves := 3 } } }

/-- Refutes O44: a flit with one corrected codeword that comes in ADAPT does not leave the die as it is: WLK counts the codeword in
its register at 0x088 (R54), the lanes being squelched in OFF and RETIRED alone (R47). -/
theorem not_flitsArriveAndHello : ¬ Obligations.FlitsArriveAndHello := by
  unfold Obligations.FlitsArriveAndHello
  rintro ⟨arrive, -⟩
  obtain ⟨outside, -⟩ := arrive linkInAdapt .a ⟨[], 0, 1⟩
  obtain ⟨unchanged, -⟩ := outside (by decide) (by decide)
  have same : takeFlit ⟨[], 0, 1⟩ linkInAdapt.dieA = linkInAdapt.dieA :=
    congrArg State.dieA (Host.Outcome.next.inj unchanged)
  rw [takeFlit_of_training (by decide) (by decide)] at same
  exact absurd (congrArg (fun x => mgetD x.regs.cnt (wkey pWLK 0x088) 0) same) (by decide)

end Sys2Proof.Machine
end

section
/-! SUPPORT. No verdict, no retirement of a channel and no event clears a BLK_ERR bit (R381, R467). -/

namespace Sys2Proof.Machine

/-! ## A bit that is set stays set -/

/-- Adding a power of two whose bit is clear keeps every bit that is set. -/
theorem testBit_add_two_pow {n b j : Nat} (clear : n.testBit b = false) (isSet : n.testBit j = true) :
    (n + 2 ^ b).testBit j = true := by
  induction b generalizing n j with
  | zero =>
    cases j with
    | zero => exact absurd isSet (by simp [clear])
    | succ j =>
      rw [Nat.testBit_succ] at isSet ⊢
      have even : n % 2 = 0 := by simpa [Nat.testBit_zero] using clear
      rwa [show (n + 2 ^ 0) / 2 = n / 2 by omega]
  | succ b ih =>
    have double : 2 ^ (b + 1) = 2 * 2 ^ b := pow_succ' 2 b
    cases j with
    | zero =>
      rw [Nat.testBit_zero] at isSet ⊢
      rwa [show (n + 2 ^ (b + 1)) % 2 = n % 2 by omega]
    | succ j =>
      rw [Nat.testBit_succ] at clear isSet ⊢
      rw [show (n + 2 ^ (b + 1)) / 2 = n / 2 + 2 ^ b by omega]
      exact ih clear isSet

/-- A bit of BLK_ERR is set on a page of the die. -/
def Reported (page bit : Nat) (d : Die) : Prop := errSet d page bit = true

section
variable {page bit : Nat} {d : Die}

protected theorem Reported.same (h : Reported page bit d) {x : Die} (errs : x.errs = d.errs) : Reported page bit x := by
  rwa [Reported, errSet, errPage, errs]

protected theorem Reported.ite {c : Prop} [Decidable c] {x y : Die} (hx : Reported page bit x) (hy : Reported page bit y) :
    Reported page bit (if c then x else y) := by
  split
  · exact hx
  · exact hy

protected theorem Reported.foldl {α : Type} {f : Die → α → Die} {l : List α}
    (step : ∀ d a, Reported page bit d → Reported page bit (f d a)) (h : Reported page bit d) :
    Reported page bit (l.foldl f d) := by
  induction l generalizing d with
  | nil => exact h
  | cons a l ih => exact ih (step d a h)

/-- A page may take any error state in which the bit is set, if it is the bit's own page. -/
protected theorem Reported.setErrPage {q : Nat} {e : ErrPage} (h : Reported page bit d)
    (kept : q = page → tst e.err bit = true) : Reported page bit (setErrPage q e d) := by
  by_cases own : q = page
  · subst own
    rw [Reported, errSet, errPage_setErrPage]
    exact kept rfl
  · rw [Reported, errSet, errPage_setErrPage_other (Ne.symm own)]
    exact h

protected theorem Reported.raiseBit {q b forced} (h : Reported page bit d) : Reported page bit (raiseBit q forced d b) := by
  unfold raiseBit
  extract_lets e e' e'' d'
  split
  · refine .ite (h.setErrPage ?_) h
    rintro rfl
    exact h
  · next clear =>
    refine Reported.same (d := d') (.setErrPage h ?_) rfl
    rintro rfl
    have kept : tst (e.err + 2 ^ b) bit = true := testBit_add_two_pow (by simpa [tst] using clear) h
    simp only [e'', e']
    split <;> exact kept

protected theorem Reported.raiseAll {q bs forced} (h : Reported page bit d) : Reported page bit (raiseAll q bs forced d) :=
  .ite h (.foldl (fun _ _ => .raiseBit) h)

protected theorem Reported.raise {q b} (h : Reported page bit d) : Reported page bit (raise q b d) := .raiseAll h

/-- What reports a bit that its page has leaves it set. -/
theorem reported_raise (present : pageAbsent d page = false) (known : (sevOf page bit).isSome = true) :
    Reported page bit (raise page bit d) := errSet_raise page bit d present known

/-! ## Ends of batches and channels -/

protected theorem Reported.sendNode {typ dst key body} (h : Reported page bit d) :
    Reported page bit (sendNode typ dst key body d) := by
  unfold sendNode
  split
  · exact .raise h
  · exact h.same (pelOut_errs _ _ _)

protected theorem Reported.sendBoundaries {b pass} (h : Reported page bit d) : Reported page bit (sendBoundaries b pass d) := by
  unfold sendBoundaries
  split
  · refine .foldl (fun d t hd => ?_) h
    unfold sendBoundary
    split
    · exact hd
    · split
      · exact .sendNode hd
      · exact hd
  · exact h

protected theorem Reported.raiseRat {owner r v} (h : Reported page bit d) : Reported page bit (raiseRat owner r v d) := by
  unfold raiseRat
  extract_lets x w d'
  have hd' : Reported page bit d' := h.same rfl
  exact .ite (.raise (h.same rfl)) (.ite (.raise hd') hd')

protected theorem Reported.bumpLedger {back c} (h : Reported page bit d) : Reported page bit (bumpLedger back c d) := by
  unfold bumpLedger
  dsimp only
  split
  · exact h
  · exact .ite (.raise h) (.ite (.raiseRat (h.same rfl)) (h.same rfl))

protected theorem Reported.markLedger {b} (h : Reported page bit d) : Reported page bit (markLedger b d) := by
  unfold markLedger
  dsimp only
  split
  · exact h
  · exact .ite h (.bumpLedger (h.same rfl))

protected theorem Reported.lowerLedger {c pos} (h : Reported page bit d) : Reported page bit (lowerLedger c pos d) :=
  .ite (.ite h (.bumpLedger (h.same rfl))) h

protected theorem Reported.startPeriod (h : Reported page bit d) : Reported page bit (startPeriod d) := by
  unfold startPeriod
  extract_lets p stretched d'
  have hd' : Reported page bit d' := h.same rfl
  exact .ite (.raise hd') hd'

protected theorem Reported.closePeriod {cut} (h : Reported page bit d) : Reported page bit (closePeriod cut d) :=
  .ite (h.same rfl) h

protected theorem Reported.turnPeriod {cut} (h : Reported page bit d) : Reported page bit (turnPeriod cut d) :=
  .ite (.startPeriod (.closePeriod h)) h

protected theorem Reported.addLeaf {l} (h : Reported page bit d) : Reported page bit (addLeaf l d) := by
  unfold addLeaf
  extract_lets d1 n d2
  have hd1 : Reported page bit d1 := .ite (.turnPeriod h) h
  have hd2 : Reported page bit d2 := hd1.same rfl
  exact .ite (.ite (.turnPeriod hd2) hd2) hd1

protected theorem Reported.writeRing {c record} (h : Reported page bit d) : Reported page bit (writeRing c record d) :=
  .ite (.raise (h.same rfl)) (h.same rfl)

protected theorem Reported.capture {channel e} (h : Reported page bit d) : Reported page bit (capture channel e d) :=
  .ite (.ite (h.same rfl) (h.same rfl)) h

protected theorem Reported.canaryDone {b verdict} (h : Reported page bit d) : Reported page bit (canaryDone b verdict d) := by
  unfold canaryDone
  split
  · extract_lets x s d1 n d2
    have hd1 : Reported page bit d1 := h.same rfl
    have hd2 : Reported page bit d2 := .raise (hd1.same rfl)
    exact .ite hd1 (.ite (.ite (.raise (hd2.same rfl)) hd2) (hd1.same rfl))
  · exact h

protected theorem Reported.noteSlot {b} (h : Reported page bit d) : Reported page bit (noteSlot b d) := .ite (h.same rfl) h

protected theorem Reported.endCapture {serial} (h : Reported page bit d) : Reported page bit (endCapture serial d) :=
  .ite (h.same rfl) h

protected theorem Reported.sendPermit {b} (h : Reported page bit d) : Reported page bit (sendPermit b d) :=
  .ite (h.same rfl) h

protected theorem Reported.requestTurn {slot forced} (h : Reported page bit d) :
    Reported page bit (requestTurn slot forced d) := by
  unfold requestTurn
  split
  · exact h
  · split
    · exact h
    · split
      · exact .ite (h.same rfl) (h.same rfl)
      · exact h.same rfl
      · exact h

protected theorem Reported.declare {serial v} (h : Reported page bit d) : Reported page bit (declare serial v d) := by
  unfold declare
  split
  · exact h
  · exact .ite h (h.same rfl)

protected theorem Reported.commit {serial verdict cause ended} (h : Reported page bit d) :
    Reported page bit (commit serial verdict cause ended d) := by
  unfold commit
  split
  · exact h
  · extract_lets _ _ _ _ _ _ _ _ _ d1 _ d2 d3 d4 d5 d6 d7 d8 d9 _ d10 d11 d12
    have hd1 : Reported page bit d1 := h.same rfl
    have hd2 : Reported page bit d2 := .ite (.declare hd1) hd1
    have hd3 : Reported page bit d3 := .markLedger hd2
    have hd4 : Reported page bit d4 := .ite (hd3.same rfl) hd3
    have hd5 : Reported page bit d5 := .writeRing (.addLeaf hd4)
    have hd6 : Reported page bit d6 := .ite (.foldl (fun _ _ => .capture) hd5) hd5
    have hd7 : Reported page bit d7 := .ite (hd6.same rfl) hd6
    have hd8 : Reported page bit d8 := .ite (.sendPermit hd7) hd7
    have hd9 : Reported page bit d9 := .canaryDone (Reported.same (.noteSlot (.sendBoundaries hd8)) rfl)
    have hd10 : Reported page bit d10 := .ite (.requestTurn hd9) hd9
    have hd11 : Reported page bit d11 := .endCapture (hd10.same rfl)
    have hd12 : Reported page bit d12 := hd11.same rfl
    exact .ite hd12 (hd12.same rfl)

protected theorem Reported.endTicket {verdict cause serial} (h : Reported page bit d) :
    Reported page bit (endTicket verdict cause d serial) := by
  unfold endTicket
  split
  · exact h
  · exact .commit h

protected theorem Reported.retireChan {endCause verdict cause c} (h : Reported page bit d) :
    Reported page bit (retireChan endCause verdict cause c d) := by
  unfold retireChan
  extract_lets x d1 d2 d3
  have hd1 : Reported page bit d1 := .foldl (fun _ _ => .endTicket) h
  have hd3 : Reported page bit d3 := hd1.same rfl
  exact .ite (.ite (hd3.same rfl) hd3) h

end

end Sys2Proof.Machine
end

section
/-! SUPPORT. What a channel and a ticket read after a change of theirs. -/

namespace Sys2Proof.Machine

section
variable {d : Die} {c n : Nat}

/-! ## Channels (R285) -/

theorem chan_of_mget {y : Chan} (listed : mget d.chn.tab c = some y) : chan d c = y := by
  rw [chan, mgetD, listed]
  rfl

theorem chan_congr {x : Die} (chn : x.chn = d.chn) (k : Nat) : chan x k = chan d k := by rw [chan, chn, chan]

/-- A channel in service is listed. -/
theorem listed_of_chanLive (live : chanLive (chan d c) = true) : (mget d.chn.tab c).isSome = true := by
  rw [chan, mgetD] at live
  cases h : mget d.chn.tab c with
  | none => simp [h, chanLive] at live
  | some y => rfl

/-- A change of a listed channel shows on that channel alone. -/
theorem chan_modChan (f : Chan → Chan) (k : Nat) (listed : (mget d.chn.tab c).isSome = true) :
    chan (modChan c f d) k = if k = c then f (chan d k) else chan d k := by
  have tab : mget (modChan c f d).chn.tab k = if k = c then (mget d.chn.tab k).map f else mget d.chn.tab k :=
    mget_mmod _ _ _ _
  rw [chan, mgetD, tab, chan, mgetD]
  split
  · next eq =>
    subst eq
    obtain ⟨y, listed⟩ := Option.isSome_iff_exists.mp listed
    rw [listed]
    rfl
  · rfl

theorem chan_modChan_or (f : Chan → Chan) (k : Nat) :
    chan (modChan c f d) k = f (chan d k) ∨ chan (modChan c f d) k = chan d k := by
  cases listed : mget d.chn.tab c with
  | some y =>
    rw [chan_modChan f k (by rw [listed]; rfl)]
    split
    · exact .inl rfl
    · exact .inr rfl
  | none =>
    right
    have tab : mget (modChan c f d).chn.tab k = if k = c then (mget d.chn.tab k).map f else mget d.chn.tab k :=
      mget_mmod _ _ _ _
    rw [chan, mgetD, tab, chan, mgetD]
    split
    · next eq => rw [eq, listed, Option.map_none]
    · rfl

theorem chan_modChan_same (f : Chan → Chan) (listed : (mget d.chn.tab c).isSome = true) :
    chan (modChan c f d) c = f (chan d c) := by
  rw [chan_modChan f c listed, if_pos rfl]

theorem isSome_modChan (f : Chan → Chan) (k : Nat) :
    (mget (modChan c f d).chn.tab k).isSome = (mget d.chn.tab k).isSome := by
  have tab : mget (modChan c f d).chn.tab k = if k = c then (mget d.chn.tab k).map f else mget d.chn.tab k :=
    mget_mmod _ _ _ _
  rw [tab]
  split
  · rw [Option.isSome_map]
  · rfl

/-! ## Tickets (R294) -/

/-- The change of the tickets of one number. -/
def onSerial (n : Nat) (f : Batch → Batch) (t : Batch) : Batch := if t.serial = n then f t else t

theorem onSerial_same {f : Batch → Batch} {t : Batch} (same : t.serial = n) : onSerial n f t = f t := if_pos same

theorem onSerial_other {f : Batch → Batch} {t : Batch} (other : t.serial ≠ n) : onSerial n f t = t := if_neg other

theorem modTicket_tickets (f : Batch → Batch) : (modTicket n f d).chn.tickets = d.chn.tickets.map (onSerial n f) := rfl

/-- What a field of no ticket that a change can touch reads, it reads after the change of one number's tickets. -/
theorem onSerial_keeps {α : Type} {g : Batch → α} {f : Batch → Batch} (keeps : ∀ t, g (f t) = g t) (t : Batch) :
    g (onSerial n f t) = g t := by
  unfold onSerial
  split
  · exact keeps t
  · rfl

theorem chanTickets_congr {x : Die} (chn : x.chn = d.chn) (k : Nat) : chanTickets x k = chanTickets d k := by
  rw [chanTickets, chn, chanTickets]

theorem ticket_congr {x : Die} (same : x.chn.tickets = d.chn.tickets) (k : Nat) : ticket x k = ticket d k := by
  rw [ticket, same, ticket]

theorem ticket_modTicket {f : Batch → Batch} {b : Batch} (keeps : ∀ t, (f t).serial = t.serial)
    (found : ticket d n = some b) : ticket (modTicket n f d) n = some (f b) := by
  have serial : b.serial = n := by simpa using List.find?_some found
  have same : ((fun t : Batch => t.serial == n) ∘ onSerial n f) = fun t => t.serial == n :=
    funext fun t => congrArg (· == n) (onSerial_keeps keeps t)
  rw [ticket, modTicket_tickets, List.find?_map, same, ← ticket, found, Option.map_some, onSerial_same serial]

end

end Sys2Proof.Machine
end

section
/-! SUPPORT. What a scrub read can change, the tracking of rows, poison by region, and O40. -/

namespace Sys2Proof.Machine

section
variable {d : Die} {w : MemWord} {owner : Option (Nat × Nat)} {synd : Nat}

/-! ## What scrubbing leaves alone (R394, R398) -/

/-- A die without what scrubbing changes: memory health, counters, captures and error pages. -/
def unscrubbed (d : Die) : Die :=
  { d with mem := {}, regs := { d.regs with cnt := [], cap := [] }, errs := [], fcu := { d.fcu with pend := [] } }

theorem unscrubbed_chn {x : Die} (h : unscrubbed x = unscrubbed d) : x.chn = d.chn :=
  show (unscrubbed x).chn = (unscrubbed d).chn by rw [h]

theorem unscrubbed_phase {x : Die} (h : unscrubbed x = unscrubbed d) : x.phase = d.phase :=
  show (unscrubbed x).phase = (unscrubbed d).phase by rw [h]

@[simp] theorem unscrubbed_updMem (f : MemHealth → MemHealth) : unscrubbed (updMem f d) = unscrubbed d := rfl
@[simp] theorem unscrubbed_count (p off : Nat) : unscrubbed (count p off d) = unscrubbed d := rfl
@[simp] theorem unscrubbed_countN (p off n : Nat) : unscrubbed (countN p off n d) = unscrubbed d := rfl
@[simp] theorem unscrubbed_setCap (p off v : Nat) : unscrubbed (setCap p off v d) = unscrubbed d := rfl

@[simp] theorem unscrubbed_raise (p b : Nat) : unscrubbed (raise p b d) = unscrubbed d := by
  obtain ⟨e, l, eq⟩ := raise_parts p b d
  rw [eq]
  rfl

@[simp] theorem unscrubbed_memCapture (uncorr : Bool) : unscrubbed (memCapture w synd uncorr d) = unscrubbed d := by
  unfold memCapture
  split <;> split <;> simp

@[simp] theorem unscrubbed_recordExt (kind engine index : Nat) : unscrubbed (recordExt kind engine index d) = unscrubbed d := by
  unfold recordExt
  split <;> simp

@[simp] theorem unscrubbed_spareRow : unscrubbed (spareRow w owner d) = unscrubbed d := by
  unfold spareRow
  extract_lets key free d1 d2
  split
  · simp
  · have kept : unscrubbed d2 = unscrubbed d := by
      simp only [d2]
      split <;> simp [d1]
    simp [kept]

@[simp] theorem unscrubbed_evictOne : unscrubbed (evictOne d) = unscrubbed d := by
  unfold evictOne
  dsimp only
  split <;> simp

@[simp] theorem unscrubbed_corrected : unscrubbed (corrected w synd d) = unscrubbed d := by simp [corrected]

@[simp] theorem unscrubbed_uncorrectable : unscrubbed (uncorrectable w synd d) = unscrubbed d := by simp [uncorrectable]

/-- Tracking a corrected word changes memory health, counters and error pages. -/
@[simp] theorem unscrubbed_track : unscrubbed (track w owner synd d) = unscrubbed d := by
  unfold track
  extract_lets key p here put d1 d2
  have kept : unscrubbed d2 = unscrubbed d := by
    simp only [d2]
    split <;> simp
  split
  · rfl
  · split
    · split
      · simp [put]
      · split
        · split
          · split <;> simp [d1, put]
          · simp [put]
        · simp [put]
    · split <;> simp [kept]

@[simp] theorem unscrubbed_caParity (n : Nat) : unscrubbed (caParity n d) = unscrubbed d := by
  unfold caParity
  dsimp only
  split
  · rfl
  · split <;> simp

/-! ## The bits that scrubbing sets (R393, R408) -/

theorem memPage_present (k : MemKind) : pageAbsent d (memPage k) = false := by cases k <;> rfl

theorem memCapture_errs (uncorr : Bool) : (memCapture w synd uncorr d).errs = d.errs := by
  unfold memCapture
  split <;> split <;> rfl

theorem reported_corrected : Reported (memPage w.kind) 0 (corrected w synd d) := by
  refine (reported_raise (memPage_present _) ?_).same (memCapture_errs _)
  cases w.kind <;> rfl

variable {page bit : Nat}

protected theorem Reported.spareRow (h : Reported page bit d) : Reported page bit (spareRow w owner d) := by
  unfold spareRow
  extract_lets key free d1 d2
  have hd1 : Reported page bit d1 := .raise (h.same rfl)
  have hd2 : Reported page bit d2 := by
    simp only [d2]
    split
    · exact hd1.same rfl
    · exact hd1
  exact .ite (h.same rfl) (.ite (.raise hd2) (hd2.same rfl))

protected theorem Reported.track (h : Reported page bit d) : Reported page bit (track w owner synd d) := by
  unfold track
  extract_lets key p here put d1 d2
  have hput : ∀ f, Reported page bit (put f d) := fun _ => h.same rfl
  have hd2 : Reported page bit d2 := by
    simp only [d2]
    refine .ite ?_ h
    unfold evictOne
    dsimp only
    split
    · exact h
    · exact .raise (h.same rfl)
  split
  · exact h
  · split
    · refine .ite (.spareRow (.raise (h.same rfl))) (.ite (.ite ?_ (hput _)) (hput _))
      exact .ite (hput _) (Reported.same (d := d1) (hput _) rfl)
    · exact .ite hd2 (hd2.same rfl)

theorem reported_caParity_retry {n : Nat} (some_ : 0 < n) : Reported pHBM 4 (caParity n d) := by
  unfold caParity
  extract_lets d1
  rw [if_neg (by omega)]
  have hd1 : Reported pHBM 4 d1 := reported_raise rfl rfl
  exact .ite (.raise hd1) hd1

theorem reported_caParity_fault {n : Nat} (fifth : 5 ≤ n) : Reported pHBM 6 (caParity n d) := by
  unfold caParity
  extract_lets d1
  rw [if_neg (by omega), if_pos fifth]
  exact reported_raise rfl rfl

/-! ## The table of tracked rows (R398, R399) -/

theorem memCapture_mem (uncorr : Bool) : (memCapture w synd uncorr d).mem = d.mem := by
  unfold memCapture
  split <;> split <;> rfl

@[simp] theorem corrected_mem : (corrected w synd d).mem = d.mem := by simp [corrected, memCapture_mem]

theorem caParity_mem (n : Nat) : (caParity n d).mem = d.mem := by
  unfold caParity
  dsimp only
  split
  · rfl
  · split <;> simp

/-- The row is neither being spared nor stuck in service. -/
def Idle (w : MemWord) (m : MemHealth) : Prop :=
  m.sparing.contains (w.kind, rowKey w) = false ∧ m.stuckInService.contains (w.kind, rowKey w) = false

/-- The entry of a row in the table of tracked rows. -/
def trackedAs (w : MemWord) (m : MemHealth) : Option TrackEntry := m.track.find? fun e => e.kind == w.kind && e.row == rowKey w

section
variable {m : MemHealth} (mem : d.mem = m) (idle : Idle w m)
include mem idle

theorem track_new (untracked : trackedAs w m = none) (room : m.track.length < 1024) :
    (track w owner synd d).mem.track = m.track ++
      [⟨w.kind, rowKey w, w.word.toNat, synd, 1, passOf m w.kind, passOf m w.kind, false⟩] := by
  obtain ⟨sparing, stuck⟩ := idle
  unfold trackedAs at untracked
  unfold track
  extract_lets key p here put d1 d2
  have hd2 : d2 = d := by simp [d2, mem, Nat.not_le.mpr room]
  simp only [hd2, mem, sparing, stuck, Bool.or_false, Bool.false_eq_true, if_false, here, key, untracked,
    Nat.not_le.mpr room, updMem_mem, p]

theorem track_again {e : TrackEntry} (tracked : trackedAs w m = some e) (first : e.rewritten = false)
    (word : e.word = w.word.toNat) (syndrome : e.synd = synd) (next : e.passNo + 1 = passOf m w.kind) :
    (w.kind, rowKey w) ∈ (track w owner synd d).mem.rewriteQ := by
  obtain ⟨sparing, stuck⟩ := idle
  unfold trackedAs at tracked
  unfold track
  extract_lets key p here put d1
  simp only [mem, sparing, stuck, Bool.or_false, Bool.false_eq_true, if_false, here, key, tracked, first, word, syndrome,
    next, and_self, if_true, p]
  split
  · next queued => exact List.contains_iff_mem.mp queued
  · simp

/-- A spare is left for the row. -/
def SpareLeft (w : MemWord) (m : MemHealth) : Prop :=
  (w.kind = .hbm ∧ 0 < m.pprLeft) ∨ (w.kind = .sram ∧ 0 < (m.spareLeft[rowKey w / 2048]?).getD 0)

omit mem idle in
theorem spareRow_takes (spare : SpareLeft w d.mem) : (w.kind, rowKey w) ∈ (spareRow w owner d).mem.sparing := by
  unfold spareRow
  extract_lets key free d1 d2
  have taken : free = true := by
    rcases spare with ⟨kind, left⟩ | ⟨kind, left⟩ <;> simp [free, key, kind, left]
  simp [taken, key]

theorem track_rewritten {e : TrackEntry} (tracked : trackedAs w m = some e) (rewritten : e.rewritten = true)
    (spare : SpareLeft w m) : (w.kind, rowKey w) ∈ (track w owner synd d).mem.sparing := by
  obtain ⟨sparing, stuck⟩ := idle
  unfold trackedAs at tracked
  unfold track
  extract_lets key p here put
  simp only [mem, sparing, stuck, Bool.or_false, Bool.false_eq_true, if_false, here, key, tracked, rewritten, if_true]
  refine spareRow_takes ?_
  simpa [put, mem, SpareLeft] using spare

end

end

/-! ## Scrub reads -/

theorem scrubReadsTrackRows : Claim.ScrubReadsTrackRows := by
  intro s d w region synd m key idle
  have kept : unscrubbed (track w (regionOwner region) synd.toNat (corrected w synd.toNat (s.die d))) = unscrubbed (s.die d) :=
    unscrubbed_track.trans unscrubbed_corrected
  refine ⟨runDie_of_eq rfl, ⟨_, rfl, Reported.track reported_corrected, unscrubbed_chn kept, unscrubbed_phase kept,
    fun free => track_new corrected_mem free, fun e free => track_again corrected_mem free,
    fun e free => track_rewritten corrected_mem free⟩, fun n => ⟨_, rfl, unscrubbed_chn (unscrubbed_caParity _), caParity_mem _,
    reported_caParity_fault, reported_caParity_retry⟩⟩

/-! ## Uncorrectable words (R394) -/

section
variable {d : Die} {w : MemWord} {synd c : Nat}

theorem uncorrectable_chn : (uncorrectable w synd d).chn = d.chn := unscrubbed_chn unscrubbed_uncorrectable

/-! ### In a ledger (R182) -/

/-- A channel with its count of set-backs replaced. -/
def setBack (n : Nat) (x : Chan) : Chan := { x with setbacks := n }

/-- Bumping the ledger ratchet counts set-backs of the channel and changes nothing else of it. -/
theorem chan_bumpLedger (back : Bool) (k : Nat) : ∃ n, chan (bumpLedger back c d) k = setBack n (chan d k) := by
  have counted (n : Nat) : ∃ n', chan (modChan c (setBack n) d) k = setBack n' (chan d k) := by
    rcases chan_modChan_or (d := d) (c := c) (setBack n) k with changed | kept
    · exact ⟨n, changed⟩
    · exact ⟨(chan d k).setbacks, kept⟩
  unfold bumpLedger
  extract_lets x low
  split
  · exact ⟨(chan d k).setbacks, rfl⟩
  · extract_lets old lower n v d'
    split
    · exact ⟨(chan d k).setbacks, chan_congr (raise_chn _ _ _) k⟩
    · split
      · rw [chan_congr (raiseRat_chn _ _ _ _)]
        exact counted n
      · exact counted n

/-- Where the ledger reaches the position, void_pos and valid_end fall to it. -/
theorem lowerLedger_lowers {pos : Nat} (listed : (mget d.chn.tab c).isSome = true) (reached : pos < (chan d c).append) :
    (chan (lowerLedger c pos d) c).voidPos = min (chan d c).voidPos pos ∧
      (chan (lowerLedger c pos d) c).validEnd = min (chan d c).validEnd (min (chan d c).voidPos pos) ∧
      (chan (lowerLedger c pos d) c).append = (chan d c).append := by
  unfold lowerLedger
  extract_lets x void valid
  rw [if_pos reached]
  split
  · next same =>
    obtain ⟨voidSame, validSame⟩ := same
    exact ⟨voidSame.symm, validSame.symm, rfl⟩
  · obtain ⟨n, bumped⟩ := chan_bumpLedger (c := c) true c
      (d := modChan c (fun x => { x with voidPos := void, validEnd := valid }) d)
    rw [bumped, chan_modChan_same _ listed]
    exact ⟨rfl, rfl, rfl⟩

theorem lowerLedger_beyond {pos : Nat} (beyond : (chan d c).append ≤ pos) : lowerLedger c pos d = d := by
  unfold lowerLedger
  dsimp only
  rw [if_neg (Nat.not_lt.mpr beyond)]

/-! ### In staging or in a ticket (R91, R284) -/

theorem addLate_serial (cause : Nat) (b : Batch) : (addLate cause b).serial = b.serial := by
  unfold addLate
  split <;> rfl

theorem mem_addLate (cause : Nat) (b : Batch) : cause ∈ (addLate cause b).lates := by
  unfold addLate
  split
  · next held => exact List.contains_iff_mem.mp held
  · simp

/-- The batch of an uncorrectable staging word is late, and the word is reported. -/
theorem stagingHit_late {b : Batch} (found : ticket d b.serial = some b) :
    ticket (stagingHit b.serial d) b.serial = some (addLate 21 b) ∧ Reported pWRD 4 (stagingHit b.serial d) := by
  have late : ticket (raise pWRD 4 (poisonBatch b.serial d)) b.serial = some (addLate 21 b) := by
    rw [ticket_congr (congrArg Chn.tickets (raise_chn _ _ _))]
    exact ticket_modTicket (addLate_serial 21) found
  have told : Reported pWRD 4 (raise pWRD 4 (poisonBatch b.serial d)) := reported_raise rfl rfl
  unfold stagingHit
  rw [found]
  dsimp only
  split
  · exact ⟨late, told⟩
  · exact ⟨(ticket_congr rfl _).trans late, told.same rfl⟩

/-! ### In a descriptor (R288, R289) -/

theorem OutOfService.listed {cause : Nat} {n : Chn} (out : OutOfService cause n c) :
    ∃ y, mget n.tab c = some y ∧ y.state = .retired ∧ y.endCause = cause := by
  obtain ⟨x, stands, state, causes⟩ := out
  obtain ⟨y, listed, rfl⟩ := Option.map_eq_some_iff.mp stands
  exact ⟨y, listed, state, causes⟩

theorem outOfService_retireChan {y : Chan} (listed : mget d.chn.tab c = some y) (live : chanLive y = true)
    (endCause verdict cause : Nat) : OutOfService endCause (retireChan endCause verdict cause c d).chn c :=
  outOfService_of_retireChans (x := ⟨y.state, y.endCause, y.host⟩) live [c] List.mem_cons_self
    (by rw [standing, listed, Option.map_some])

end

section
variable {d : Die} {w : MemWord} {c : BitVec 15}

theorem poison_ledger {pos : Word} : poison w (.ledger c pos) d = lowerLedger c.toNat pos.toNat (raise pCWE 5 d) := rfl

theorem poison_staging {n : BitVec 5} {b : Batch}
    (held : ((chanTickets d c.toNat).filter fun b => !b.staged.isEmpty)[n.toNat]? = some b) :
    poison w (.staging c n) d = stagingHit b.serial d := by
  simp only [poison, held]

theorem poison_ticket {n : BitVec 5} {b : Batch} (held : (chanTickets d c.toNat)[n.toNat]? = some b) :
    poison w (.ticket c n) d = poisonBatch b.serial (raise pCHN 4 d) := by
  simp only [poison, held]

theorem poison_timetable : poison w (.timetable false true) d = raise pCAD 8 d := rfl

theorem poison_descriptor : poison w (.descriptor c true) d = retireChan 7 3 19 c.toNat (raise pCHN 1 d) := rfl

end

theorem uncorrectableWordsByRegion : Claim.UncorrectableWordsByRegion := by
  intro s d w synd c
  have runs (region : Region) : RunsTo (.scrubRead d w region (.uncorrectable synd) false) s d
      (poison w region (uncorrectable w synd.toNat (s.die d))) := rfl
  have same : (uncorrectable w synd.toNat (s.die d)).chn = (s.die d).chn := uncorrectable_chn
  generalize uncorrectable w synd.toNat (s.die d) = z at runs same
  have told (page bit : Nat) : (raise page bit z).chn = (s.die d).chn := (raise_chn _ _ _).trans same
  refine ⟨fun pos => ?_, fun n b held found => ?_, fun n b held found => ?_, ?_, ?_⟩
  · refine ⟨_, poison_ledger ▸ runs (.ledger c pos), Reported.lowerLedger (reported_raise rfl rfl), ?_, ?_⟩
    · intro y listed reached
      rw [← told pCWE 5] at listed
      have shown := chan_of_mget listed
      subst shown
      exact lowerLedger_lowers (by rw [listed]; rfl) reached
    · intro y listed beyond
      rw [← told pCWE 5] at listed
      have shown := chan_of_mget listed
      subst shown
      exact (congrArg Die.chn (lowerLedger_beyond beyond)).trans (told _ _)
  · rw [← chanTickets_congr same] at held
    rw [← ticket_congr (congrArg Chn.tickets same)] at found
    obtain ⟨late, reported⟩ := stagingHit_late found
    exact ⟨_, _, poison_staging held ▸ runs (.staging c n), late, mem_addLate 21 b, reported⟩
  · rw [← chanTickets_congr same] at held
    rw [← ticket_congr (congrArg Chn.tickets (told pCHN 4))] at found
    exact ⟨poisonBatch b.serial (raise pCHN 4 z), _, poison_ticket held ▸ runs (.ticket c n),
      ticket_modTicket (addLate_serial 21) found, mem_addLate 21 b,
      Reported.same (d := raise pCHN 4 z) (reported_raise rfl rfl) rfl⟩
  · exact ⟨_, poison_timetable ▸ runs (.timetable false true), reported_raise rfl rfl, told _ _⟩
  · refine ⟨_, poison_descriptor ▸ runs (.descriptor c true), Reported.retireChan (reported_raise rfl rfl), ?_⟩
    intro y listed live
    rw [← told pCHN 1] at listed
    exact (outOfService_retireChan listed live 7 3 19).listed

/-- Settles O40: tracking a corrected word touches memory health alone, and each region of an uncorrectable word has its rule; no
verdict of a retired channel's batches clears the bit that is reported or gives the channel back to service. -/
theorem scrubAndUncorrectableWords : Obligations.ScrubAndUncorrectableWords := ⟨scrubReadsTrackRows, uncorrectableWordsByRegion⟩

end Sys2Proof.Machine
end

section
/-! SUPPORT. Records that WRD meets: what settling a stream leaves of tickets and channels, records that join a batch, depart or
wait, and O11 and O46. -/

namespace Sys2Proof.Machine

/-! ## What settling a stream leaves (R88) -/

/-- A ticket may have failed for more causes; all else of it is as it was. -/
def MoreFails (t u : Batch) : Prop := ∃ l, u = { t with fails := t.fails ++ l }

theorem MoreFails.refl (t : Batch) : MoreFails t t := ⟨[], by rw [List.append_nil]⟩

theorem MoreFails.trans {t u v : Batch} (first : MoreFails t u) (then_ : MoreFails u v) : MoreFails t v := by
  obtain ⟨l, rfl⟩ := first
  obtain ⟨k, rfl⟩ := then_
  exact ⟨l ++ k, by simp only [List.append_assoc]⟩

theorem moreFails_addFail (token cause : Nat) (t : Batch) : MoreFails t (addFail token cause t) := by
  unfold addFail
  split
  · exact .refl t
  · exact ⟨_, rfl⟩

/-- The arrival side of a channel that departs: its further records are discarded (R63). -/
def departed (w : Arrival) : Arrival := { w with skip := some .departed }

/-- The arrival side of a channel may have departed; all else of it is as it was. -/
def MayDepart (w v : Arrival) : Prop := v = w ∨ v = departed w

theorem MayDepart.trans {u v w : Arrival} (first : MayDepart u v) (then_ : MayDepart v w) : MayDepart u w := by
  rcases first with rfl | rfl
  · exact then_
  · rcases then_ with rfl | rfl
    · exact .inr rfl
    · exact .inr rfl

/-- What settling a stream can do: open batches fail and their channels depart, and bits of BLK_ERR are set. -/
structure Settles (d x : Die) : Prop where
  tickets : ∃ g, x.chn.tickets = d.chn.tickets.map g ∧ ∀ t, MoreFails t (g t)
  arrivals : ∀ c, MayDepart (chan d c).wrd (chan x c).wrd
  reports : ∀ {page bit}, Reported page bit d → Reported page bit x

theorem settles_of_chn {d x : Die} (chn : x.chn = d.chn) (reports : ∀ {page bit}, Reported page bit d → Reported page bit x) :
    Settles d x :=
  ⟨⟨id, by rw [chn, List.map_id], .refl⟩, fun c => .inl (by rw [chan_congr chn]), reports⟩

theorem Settles.refl (d : Die) : Settles d d := settles_of_chn rfl id

theorem Settles.trans {d x y : Die} (first : Settles d x) (then_ : Settles x y) : Settles d y := by
  obtain ⟨g, tickets, fails⟩ := first.tickets
  obtain ⟨g', tickets', fails'⟩ := then_.tickets
  exact ⟨⟨g' ∘ g, by rw [tickets', tickets, List.map_map], fun t => (fails t).trans (fails' _)⟩,
    fun c => (first.arrivals c).trans (then_.arrivals c), fun h => then_.reports (first.reports h)⟩

theorem Settles.nextSeq {d x : Die} (settled : Settles d x) (c : Nat) : (chan x c).wrd.nextSeq = (chan d c).wrd.nextSeq := by
  rcases settled.arrivals c with kept | gone
  · rw [kept]
  · rw [gone]
    rfl

/-- A channel that has departed stays so. -/
theorem Settles.skip {d x : Die} (settled : Settles d x) {c : Nat} (was : (chan d c).wrd.skip = some .departed) :
    (chan x c).wrd.skip = some .departed := by
  rcases settled.arrivals c with kept | gone
  · rw [kept, was]
  · rw [gone]
    rfl

theorem settles_foldl {α : Type} {f : Die → α → Die} (step : ∀ d a, Settles d (f d a)) (as : List α) (d : Die) :
    Settles d (as.foldl f d) := by
  induction as generalizing d with
  | nil => exact .refl d
  | cons a r ih => exact (step d a).trans (ih _)

@[simp] theorem depart_chn (vc ch cause rtype seq : Nat) (d : Die) : (depart vc ch cause rtype seq d).chn = d.chn := by
  simp [depart]

theorem reported_depart (vc ch cause rtype seq : Nat) (d : Die) : Reported pWRD 0 (depart vc ch cause rtype seq d) :=
  reported_raise rfl rfl

protected theorem Reported.depart {page bit vc ch cause rtype seq} {d : Die} (h : Reported page bit d) :
    Reported page bit (depart vc ch cause rtype seq d) := .raise (h.same rfl)

theorem settles_addFail (n token cause : Nat) (d : Die) : Settles d (modTicket n (addFail token cause) d) := by
  refine ⟨⟨_, modTicket_tickets _, fun t => ?_⟩, fun c => .inl rfl, fun h => h.same rfl⟩
  unfold onSerial
  split
  · exact moreFails_addFail token cause t
  · exact .refl t

theorem settles_departed (c : Nat) (d : Die) : Settles d (modArr c departed d) := by
  refine ⟨⟨id, (List.map_id _).symm, .refl⟩, fun k => ?_, fun h => h.same rfl⟩
  rcases chan_modChan_or (d := d) (c := c) (fun x => { x with wrd := departed x.wrd }) k with changed | kept
  · exact .inr (congrArg Chan.wrd changed)
  · exact .inl (congrArg Chan.wrd kept)

theorem settles_framingLoss (vc rtype : Nat) (d : Die) : Settles d (framingLoss vc rtype d) := by
  unfold framingLoss
  extract_lets d1
  have told : Settles d d1 := settles_of_chn (by simp [d1]) fun h => .raise (h.same rfl)
  refine told.trans (settles_foldl (fun d c => ?_) _ d1)
  split
  · extract_lets d2
    have failed : Settles d d2 := settles_addFail _ _ _ d
    exact failed.trans ((settles_of_chn (depart_chn _ _ _ _ _ _) .depart).trans (settles_departed _ _))
  · exact .refl d

theorem settles_settleStream (vc fuel : Nat) (d : Die) : Settles d (settleStream vc fuel d) := by
  induction fuel generalizing d with
  | zero => exact .refl d
  | succ fuel ih =>
    unfold settleStream
    dsimp only
    split
    · exact .refl d
    · split
      · split
        · exact settles_of_chn rfl fun h => h.same rfl
        · exact (settles_of_chn (d := d) (x := consume vc 16 d) rfl fun h => h.same rfl).trans (ih _)
      · split
        · exact .refl d
        · exact (settles_framingLoss _ _ d).trans (ih _)

theorem settles_moveFront (vc : Nat) (d : Die) : Settles d (moveFront vc d) := by
  unfold moveFront
  dsimp only
  split
  · exact settles_of_chn rfl fun h => h.same rfl
  · exact .refl d

theorem settles_settle (vc : Nat) (d : Die) : Settles d (settle vc d) :=
  (settles_settleStream vc _ d).trans (settles_moveFront vc _)

/-- After a record has been dealt with, the front of its stream settles. -/
def movedOn (rtype : Nat) (r : RecIn) (d : Die) : Die := settle r.vc.toNat (consumeRec rtype r d)

theorem settles_movedOn (rtype : Nat) (r : RecIn) (d : Die) : Settles d (movedOn rtype r d) := by
  refine Settles.trans ?_ (settles_settle _ _)
  unfold consumeRec
  dsimp only
  split
  · exact settles_of_chn rfl fun h => h.same rfl
  · exact .refl d

/-! ## How a record is dealt with -/

section
variable {rtype : Nat} {r r0 : RecIn} {m : Model} {b : Batch} {d y : Die}

theorem record_of_tried (met : Met rtype (cutRecord r0) d) (tried : tryRecord rtype (cutRecord r0) d = some y) :
    record rtype r0 d = y := by
  obtain ⟨vc, waits, hunt, head⟩ := met
  unfold record
  simp [Nat.not_lt.mpr vc, waits, hunt, head, tried]

theorem tryRecord_of_chanRecord (vc : r.vc.toNat < 2) (other : rtype ≠ 11) (dealt : chanRecord rtype r d = some y) :
    tryRecord rtype r d = some (movedOn rtype r y) := by
  unfold tryRecord
  rw [if_neg (by omega), if_neg other, dealt]
  rfl

theorem chanRecord_departs (joins : Joins r m b d) {cause : Nat} (found : lowest (recordCauses rtype r m d) = some cause) :
    chanRecord rtype r d = some (departRecord r.vc.toNat (recChan r) cause rtype r d) := by
  obtain ⟨vc, listed, live, kind, skip, opened⟩ := joins
  unfold chanRecord
  simp [listed, live, kind, skip, opened, found]

theorem chanRecord_joins (joins : Joins r m b d) (clean : recordCauses rtype r m d = []) (room : stageRoom d b.lead r = true) :
    chanRecord rtype r d = some (stage (recChan r) m b rtype r d) := by
  obtain ⟨vc, listed, live, kind, skip, opened⟩ := joins
  unfold chanRecord
  simp [listed, live, kind, skip, opened, clean, lowest, room]

/-- A record of a channel that takes none is counted and discarded. -/
theorem chanRecord_unknown (out : chanLive (chan d (recChan r)) = false ∨ (chan d (recChan r)).host.kind = 3) :
    chanRecord rtype r d = some (raise pWRD 1 (count pWRD 0x04C d)) := by
  unfold chanRecord
  dsimp only
  split
  · rfl
  · rw [if_pos]
    rcases out with down | kind
    · simp [down]
    · simp [kind]

theorem lowest_eq_none (l : List Nat) : lowest l = none ↔ l = [] := by
  cases l with
  | nil => simp [lowest]
  | cons a r =>
    simp only [lowest, reduceCtorEq, iff_false]
    cases lowest r <;> simp

end

/-! ## A record that joins its batch (R70, R90) -/

section
variable {c : Nat} {r : RecIn} {m : Model} {b : Batch} {d : Die}

theorem tellStage_chn (n : Nat) : (tellStage b n d).chn = d.chn := by
  unfold tellStage
  dsimp only
  split <;> simp

theorem logRecord_chn (n : Nat) (s : Staged) : (logRecord n s d).chn = d.chn := by
  unfold logRecord
  dsimp only
  repeat' split
  all_goals simp

theorem noteStaged_chn (lead : Nat) : (noteStaged lead d).chn = d.chn := by simp [noteStaged]

theorem openTicket_congr {x : Die} (chn : x.chn = d.chn) (k : Nat) : openTicket x k = openTicket d k := by
  rw [openTicket, chanTickets_congr chn, openTicket]

/-- A change that keeps a ticket's channel and leaves it open keeps it the open ticket of its channel. -/
theorem openTicket_modTicket {f : Batch → Batch} (channel : ∀ t, (f t).channel = t.channel)
    (closed : ∀ t, (f t).closed = t.closed) (opened : openTicket d c = some b) :
    openTicket (modTicket b.serial f d) c = some (f b) := by
  have sameChannel : ((fun t : Batch => t.channel == c) ∘ onSerial b.serial f) = fun t => t.channel == c :=
    funext fun t => congrArg (· == c) (onSerial_keeps channel t)
  have sameClosed : ((fun t : Batch => !t.closed) ∘ onSerial b.serial f) = fun t => !t.closed :=
    funext fun t => congrArg (! ·) (onSerial_keeps closed t)
  rw [openTicket, chanTickets, modTicket_tickets, List.filter_map, sameChannel, List.find?_map, sameClosed, ← chanTickets,
    ← openTicket, opened, Option.map_some, onSerial_same rfl]

/-- A batch as its BATCH_END leaves it (R81, R82). -/
def endedBy (r : RecIn) (whole : Bool) (late : Batch → Bool) (t : Batch) : Batch :=
  { t with batchNo := u32At r.payload 0, first := some (u32At r.payload 4), endUnits := u32At r.payload 8
           closed := true, complete := whole, endLate := late t }

theorem closeBatch_tickets (whole : Bool) (opened : openTicket d c = some b) : ∃ late,
    (closeBatch c whole r d).chn.tickets = d.chn.tickets.map (onSerial b.serial (endedBy r whole late)) := by
  unfold closeBatch
  extract_lets x p first d1 d2
  refine ⟨fun t => arrivalLate d x t first, ?_⟩
  have tickets1 : d1.chn.tickets =
      d.chn.tickets.map (onSerial b.serial (endedBy r whole fun t => arrivalLate d x t first)) := by
    simp only [d1, opened, tellStage_chn]
    rfl
  have tickets2 : d2.chn.tickets = d1.chn.tickets := by
    simp only [d2]
    split <;> rfl
  exact tickets2.trans tickets1

theorem closeBatch_nextSeq (whole : Bool) (listed : (mget d.chn.tab c).isSome = true) :
    (chan (closeBatch c whole r d) c).wrd.nextSeq = w32 (r.seq.toNat + 1) := by
  unfold closeBatch
  extract_lets x p first d1 d2
  have listed1 : (mget d1.chn.tab c).isSome = true := by
    simp only [d1]
    split
    · rw [tellStage_chn]
      exact listed
    · exact listed
  have listed2 : (mget d2.chn.tab c).isSome = true := by
    simp only [d2]
    split
    · rw [modArr, isSome_modChan]
      exact listed1
    · exact listed1
  rw [modArr, chan_modChan_same _ listed2]

theorem stepPlan_nextSeq (rtype pos : Nat) (w : Arrival) : (stepPlan m rtype pos w).nextSeq = w.nextSeq := by
  unfold stepPlan
  dsimp only
  repeat' split
  all_goals rfl

/-- The batch's change where a record joins it: it is staged last and counted, and a TOKEN_END closes a token. -/
structure JoinedBy (rtype : Nat) (s : Staged) (b u : Batch) : Prop where
  serial : u.serial = b.serial
  channel : u.channel = b.channel
  closed : u.closed = b.closed
  staged : u.staged = b.staged ++ [s]
  recs : u.recs = if rtype = 5 then b.recs else b.recs + 1
  tokens : u.tokens = if rtype = 4 then b.tokens + 1 else b.tokens

/-- A record as it stands in staging. -/
def stagedAs (rtype : Nat) (r : RecIn) (m : Model) (b : Batch) (x : Chan) : Staged :=
  ⟨rtype, r, entryOf x m rtype r.payload, b.tokens⟩

/-- Before the arrival side goes on, a staged record has joined the tickets of its batch's number. -/
theorem stage_eq (c : Nat) (m : Model) (b : Batch) (rtype : Nat) (r : RecIn) (d : Die) : ∃ g z w,
    (∀ t, JoinedBy rtype (stagedAs rtype r m b (chan d c)) t (g t)) ∧ z.chn = (modTicket b.serial g d).chn ∧
    (∀ v, (w v).nextSeq = w32 (r.seq.toNat + 1)) ∧
    stage c m b rtype r d = if rtype = 5 then closeBatch c true r z else modArr c w z := by
  unfold stage
  extract_lets x p s radio outs body frame d1 d2 d3
  have same : d3.chn = d1.chn := by
    simp only [d3, logRecord_chn, noteStaged_chn, d2]
    split
    · exact tellStage_chn _
    · rfl
  refine ⟨_, d3, _, fun t => ?_, same, fun v => ?_, rfl⟩
  · exact ⟨rfl, rfl, rfl, rfl, rfl, rfl⟩
  · dsimp only
    split
    · rfl
    · exact stepPlan_nextSeq _ _ _

theorem onSerial_comp {n : Nat} {f g : Batch → Batch} (serial : ∀ t, (f t).serial = t.serial) :
    onSerial n g ∘ onSerial n f = onSerial n (g ∘ f) := by
  funext t
  simp only [Function.comp, onSerial]
  split
  · next same => simp [serial, same]
  · rfl

/-- A record that departs from nothing joins the tickets of its batch's number; a BATCH_END closes them as complete. -/
theorem stage_tickets {rtype : Nat} (opened : openTicket d c = some b) : ∃ g,
    (stage c m b rtype r d).chn.tickets = d.chn.tickets.map (onSerial b.serial g) ∧ (∀ t, (g t).serial = t.serial) ∧
    (g b).staged = b.staged ++ [stagedAs rtype r m b (chan d c)] ∧
    (g b).recs = (if rtype = 5 then b.recs else b.recs + 1) ∧ (g b).tokens = (if rtype = 4 then b.tokens + 1 else b.tokens) ∧
    (rtype = 5 → (g b).closed = true ∧ (g b).complete = true ∧ (g b).endUnits = u32At r.payload 8) := by
  obtain ⟨g, z, w, joined, chn, -, staged⟩ := stage_eq c m b rtype r d
  have tickets : z.chn.tickets = d.chn.tickets.map (onSerial b.serial g) := by rw [chn, modTicket_tickets]
  obtain ⟨serial, -, -, last, recs, tokens⟩ := joined b
  by_cases ends : rtype = 5
  · have open_ : openTicket z c = some (g b) :=
      (openTicket_congr chn c).trans
        (openTicket_modTicket (fun t => (joined t).channel) (fun t => (joined t).closed) opened)
    obtain ⟨late, closed⟩ := closeBatch_tickets (r := r) true open_
    rw [serial, tickets, List.map_map, onSerial_comp fun t => (joined t).serial] at closed
    rw [staged, if_pos ends]
    exact ⟨_, closed, fun t => (joined t).serial, last, recs, tokens, fun _ => ⟨rfl, rfl, rfl⟩⟩
  · rw [staged, if_neg ends]
    exact ⟨g, tickets, fun t => (joined t).serial, last, recs, tokens, fun is5 => absurd is5 ends⟩

theorem stage_nextSeq {rtype : Nat} (listed : (mget d.chn.tab c).isSome = true) :
    (chan (stage c m b rtype r d) c).wrd.nextSeq = w32 (r.seq.toNat + 1) := by
  obtain ⟨g, z, w, -, chn, seq, staged⟩ := stage_eq c m b rtype r d
  have listedZ : (mget z.chn.tab c).isSome = true := by
    rw [chn]
    exact listed
  rw [staged]
  split
  · exact closeBatch_nextSeq true listedZ
  · rw [modArr, chan_modChan_same _ listedZ]
    exact seq _

end

/-! ## The record commands of channels -/

theorem recordCommands_run {d : DieId} {r0 : RecIn} {p : Nat × Instr} (command : p ∈ recordCommands d r0) :
    p.1 ≠ 11 ∧ ∀ s, RunsTo p.2 s d (record p.1 r0 (s.die d)) := by
  simp only [recordCommands, List.mem_cons, List.not_mem_nil, or_false] at command
  rcases command with rfl | rfl | rfl | rfl | rfl | rfl | rfl | rfl | rfl | rfl <;> exact ⟨by simp, fun s => rfl⟩

/-- What a channel makes of a record is what the command does, up to the stream's settling. -/
theorem runs_of_chanRecord {s : State} {d : DieId} {r0 : RecIn} {p : Nat × Instr} {y : Die} (command : p ∈ recordCommands d r0)
    (met : Met p.1 (cutRecord r0) (s.die d)) (vc : (cutRecord r0).vc.toNat < 2)
    (dealt : chanRecord p.1 (cutRecord r0) (s.die d) = some y) : RunsTo p.2 s d (movedOn p.1 (cutRecord r0) y) := by
  obtain ⟨other, runs⟩ := recordCommands_run command
  rw [← record_of_tried met (tryRecord_of_chanRecord vc other dealt)]
  exact runs s

/-- Settles O11: the record joins the tickets of its batch's number, and settling its stream afterwards can only fail batches. -/
theorem recordsJoinTheOpenBatch : Obligations.RecordsJoinTheOpenBatch := by
  unfold Obligations.RecordsJoinTheOpenBatch
  intro s d r0 m b p command r met joins clean room
  have runs := runs_of_chanRecord command met joins.1 (chanRecord_joins joins clean room)
  obtain ⟨vc, listed, live, kind, skip, opened⟩ := joins
  obtain ⟨g, tickets, serial, staged, recs, tokens, ends⟩ := stage_tickets (m := m) (r := r) (rtype := p.1) opened
  have settled := settles_movedOn p.1 r (stage (recChan r) m b p.1 r (s.die d))
  obtain ⟨h, later, fails⟩ := settled.tickets
  refine ⟨_, h ∘ onSerial b.serial g, runs, by rw [later, tickets, List.map_map], fun t => ?_, ?_⟩
  · obtain ⟨l, same⟩ := fails (onSerial b.serial g t)
    rw [Function.comp, same]
    refine ⟨onSerial_keeps serial t, fun other => ?_⟩
    rw [onSerial_other other]
  · obtain ⟨l, same⟩ := fails (onSerial b.serial g b)
    rw [Function.comp, same, onSerial_same rfl]
    exact ⟨staged, recs, tokens, ends, (settled.nextSeq (recChan r)).trans (stage_nextSeq (listed_of_chanLive live))⟩

/-! ## Records that depart or that no channel takes (R60, R62, R63) -/

section
variable {vc c cause rtype : Nat} {r : RecIn} {b : Batch} {d : Die}

/-- A record that departs fails its batch from the current token on; its channel discards what follows, and the departure is
reported. -/
theorem departRecord_parts (other : rtype ≠ 5) (opened : openTicket d c = some b) (listed : (mget d.chn.tab c).isSome = true) :
    (departRecord vc c cause rtype r d).chn.tickets = d.chn.tickets.map (onSerial b.serial (addFail b.tokens 6)) ∧
    (chan (departRecord vc c cause rtype r d) c).wrd.skip = some .departed ∧
    Reported pWRD 0 (departRecord vc c cause rtype r d) := by
  unfold departRecord
  extract_lets d1 d2
  have chn1 : d1.chn = d.chn := depart_chn _ _ _ _ _ _
  have failed : d2 = modTicket b.serial (addFail b.tokens 6) d1 := by
    simp only [d2, openTicket_congr chn1, opened]
  have listed2 : (mget d2.chn.tab c).isSome = true := by rwa [failed, modTicket_chn_tab, chn1]
  rw [if_neg other]
  refine ⟨?_, ?_, ?_⟩
  · rw [← chn1, ← modTicket_tickets, ← failed]
    rfl
  · rw [modArr, chan_modChan_same _ listed2]
  · refine Reported.same (d := d1) (reported_depart _ _ _ _ _ _) ?_
    rw [failed]
    rfl

theorem addFail_staged (token cause : Nat) (t : Batch) : (addFail token cause t).staged = t.staged := by
  unfold addFail
  split <;> rfl

theorem mem_addFail (token cause : Nat) (t : Batch) : (token, cause) ∈ (addFail token cause t).fails := by
  unfold addFail
  split
  · next held => exact List.contains_iff_mem.mp held
  · simp

end

theorem departingAndUnknownRecords : Claim.DepartingAndUnknownRecords := by
  intro s d r0 p command r met
  refine ⟨fun m b joins departs other => ?_, fun vc out => ?_⟩
  · obtain ⟨cause, found⟩ := Option.ne_none_iff_exists'.mp (mt (lowest_eq_none _).mp departs)
    have runs := runs_of_chanRecord command met joins.1 (chanRecord_departs joins found)
    obtain ⟨vc, listed, live, kind, skip, opened⟩ := joins
    obtain ⟨tickets, skips, reported⟩ := departRecord_parts (vc := r.vc.toNat) (cause := cause) (r := r) other opened
      (listed_of_chanLive live)
    have settled := settles_movedOn p.1 r (departRecord r.vc.toNat (recChan r) cause p.1 r (s.die d))
    obtain ⟨h, later, fails⟩ := settled.tickets
    refine ⟨_, h ∘ onSerial b.serial (addFail b.tokens 6), runs, by rw [later, tickets, List.map_map], ?_, fun t => ?_,
      settled.skip skips, settled.reports reported⟩
    · obtain ⟨l, same⟩ := fails (onSerial b.serial (addFail b.tokens 6) b)
      rw [Function.comp, same, onSerial_same rfl]
      exact List.mem_append_left _ (mem_addFail _ _ _)
    · obtain ⟨l, same⟩ := fails (onSerial b.serial (addFail b.tokens 6) t)
      rw [Function.comp, same]
      exact onSerial_keeps (addFail_staged _ _) t
  · have runs := runs_of_chanRecord command met vc (chanRecord_unknown out)
    have settled := settles_movedOn p.1 r (raise pWRD 1 (count pWRD 0x04C (s.die d)))
    obtain ⟨h, later, fails⟩ := settled.tickets
    refine ⟨_, h, runs, by rw [later, raise_chn]; rfl, fun t => ?_, settled.reports (reported_raise rfl rfl)⟩
    obtain ⟨l, same⟩ := fails t
    rw [same]

/-! ## Records that wait (R90, R294) -/

section
variable {d y : Die} {q : Staged}

/-- A die whose virtual channels hold the records of `v`. -/
def holding (v : V3 (List Staged)) : Die → Die := updWrd (fun w => { w with wait := v })

/-- A record that waits alone on its virtual channel and can be dealt with leaves nothing more to try. -/
theorem retryVc_dealt {vc : Nat} (head : headOk q.rtype q.r = true) (alone : v3get d.wrd.wait vc = [q])
    (dealt : tryRecord q.rtype q.r (holding (v3set d.wrd.wait vc []) d) = some y) : retryVc vc 1 d = y := by
  unfold retryVc
  rw [alone]
  simp only [head, Bool.not_true, Bool.false_eq_true, if_false]
  rw [show tryRecord q.rtype q.r (updWrd (fun w => { w with wait := v3set w.wait vc [] }) d) = some y from dealt]
  rfl

theorem retryVc_waits {vc : Nat} (head : headOk q.rtype q.r = true) (alone : v3get d.wrd.wait vc = [q])
    (waits : tryRecord q.rtype q.r (holding (v3set d.wrd.wait vc []) d) = none) : retryVc vc 1 d = noteWait vc d := by
  unfold retryVc
  rw [alone]
  simp only [head, Bool.not_true, Bool.false_eq_true, if_false]
  rw [show tryRecord q.rtype q.r (updWrd (fun w => { w with wait := v3set w.wait vc [] }) d) = none from waits]

/-- A record that waits for a ticket is noted, once. -/
theorem noteWait_first {vc : Nat} (first : q.token = 0) (lacks : lacksTicket d q.rtype q.r = true)
    (alone : v3get d.wrd.wait vc = [q]) :
    (noteWait vc d).wrd = { d.wrd with wait := v3set d.wrd.wait vc [{ q with token := 1 }] } ∧
      (noteWait vc d).chn = d.chn ∧ Reported pCHN 3 (noteWait vc d) := by
  unfold noteWait
  rw [alone]
  simp only [first, lacks, decide_true, Bool.and_self, if_true]
  exact ⟨by simp, by simp, reported_raise rfl rfl⟩

theorem noteWait_noted {vc : Nat} (noted : q.token ≠ 0 ∨ lacksTicket d q.rtype q.r = false)
    (alone : v3get d.wrd.wait vc = [q]) : noteWait vc d = d := by
  unfold noteWait
  rw [alone]
  rcases noted with counted | has
  · simp [counted]
  · simp [has]

/-- What trying again leaves of the record that waits. -/
structure WaitsOn (q : Staged) (t : Nat) (d x : Die) (wait : V3 (List Staged)) : Prop where
  wrd : x.wrd = { d.wrd with wait := wait }
  chn : x.chn = d.chn
  first : q.token = 0 → lacksTicket d q.rtype q.r = true → t = 1 ∧ Reported pCHN 3 x
  noted : q.token ≠ 0 ∨ lacksTicket d q.rtype q.r = false → x = d

/-- A record that waits alone on its virtual channel and still cannot be taken waits on. -/
theorem retryVc_waitsOn {vc : Nat} (head : headOk q.rtype q.r = true) (alone : v3get d.wrd.wait vc = [q])
    (only : v3set d.wrd.wait vc [q] = d.wrd.wait)
    (waits : tryRecord q.rtype q.r (holding (v3set d.wrd.wait vc []) d) = none) :
    ∃ t, WaitsOn q t d (retryVc vc 1 d) (v3set d.wrd.wait vc [{ q with token := t }]) := by
  rw [retryVc_waits head alone waits]
  by_cases noted : q.token ≠ 0 ∨ lacksTicket d q.rtype q.r = false
  · have same := noteWait_noted noted alone
    refine ⟨q.token, by rw [same, only], by rw [same], fun first lacks => ?_, fun _ => same⟩
    rcases noted with counted | has
    · exact absurd first counted
    · rw [lacks] at has
      cases has
  · obtain ⟨first, lacks⟩ := not_or.mp noted
    obtain ⟨wrd, chn, told⟩ := noteWait_first (not_not.mp first) (by simpa using lacks) alone
    exact ⟨1, wrd, chn, fun _ _ => ⟨rfl, told⟩, fun h => absurd h noted⟩

theorem retryHeld_of_none (none_ : d.wrd.wait = ⟨[], [], []⟩) : retryHeld d = d := by
  simp [retryHeld, none_, v3get, retryVc]

theorem retryHeld_of_v0 (one : d.wrd.wait = ⟨[q], [], []⟩) (done : (retryVc 0 1 d).wrd.wait.v1 = []) :
    retryHeld d = retryVc 0 1 d := by
  rw [show retryHeld d = retryVc 1 (retryVc 0 d.wrd.wait.v0.length d).wrd.wait.v1.length
    (retryVc 0 d.wrd.wait.v0.length d) from rfl, one]
  dsimp only [List.length_singleton]
  rw [done]
  rfl

theorem retryHeld_of_v1 (one : d.wrd.wait = ⟨[], [q], []⟩) : retryHeld d = retryVc 1 1 d := by
  simp [retryHeld, one, v3get, retryVc]

end

theorem retried_runs {s : State} {d : DieId} {lead : BitVec 3} {c : Instr}
    (command : c ∈ [Instr.ticketAvailable d, .stagingRoomFree d lead])
    (room : c = .ticketAvailable d ∨ stageFill (s.die d) lead.toNat < 262144) : RunsTo c s d (retryHeld (s.die d)) := by
  simp only [List.mem_cons, List.not_mem_nil, or_false] at command
  rcases command with rfl | rfl
  · rfl
  · have free := room.resolve_left nofun
    exact runDie_of_eq (if_pos free)

theorem waitingRecordsAreTriedAgain : Claim.WaitingRecordsAreTriedAgain := by
  intro s d lead c command room again q head
  have runs := retried_runs command room
  refine ⟨fun none_ => ?_, fun one => ⟨fun y dealt done => ?_, fun waits => ?_⟩,
    fun one => ⟨fun y dealt => ?_, fun waits => ?_⟩⟩
  · rwa [retryHeld_of_none none_] at runs
  · have tried : retryVc 0 1 (s.die d) = y := retryVc_dealt head (by rw [one]; rfl) (by rw [one]; exact dealt)
    rwa [retryHeld_of_v0 one (by rwa [tried]), tried] at runs
  · obtain ⟨t, wrd, chn, first, noted⟩ := retryVc_waitsOn (d := s.die d) (vc := 0) head (by rw [one]; rfl) (by rw [one]; rfl)
      (by rw [one]; exact waits)
    rw [one] at wrd
    rw [retryHeld_of_v0 one (by rw [wrd]; rfl)] at runs
    exact ⟨_, t, runs, wrd, chn, first, noted⟩
  · have tried : retryVc 1 1 (s.die d) = y := retryVc_dealt head (by rw [one]; rfl) (by rw [one]; exact dealt)
    rwa [retryHeld_of_v1 one, tried] at runs
  · obtain ⟨t, wrd, chn, first, noted⟩ := retryVc_waitsOn (d := s.die d) (vc := 1) head (by rw [one]; rfl) (by rw [one]; rfl)
      (by rw [one]; exact waits)
    rw [one] at wrd
    rw [retryHeld_of_v1 one] at runs
    exact ⟨_, t, runs, wrd, chn, first, noted⟩

/-- Settles O46: a departing record fails its batch and no settling of the stream takes that back; a waiting record is alone on its
virtual channel, so trying it again is all that happens. -/
theorem recordsWithoutABatch : Obligations.RecordsWithoutABatch := ⟨departingAndUnknownRecords, waitingRecordsAreTriedAgain⟩

end Sys2Proof.Machine
end

section
/-! SUPPORT. A weight chunk on a channel that discards its records, and the refutation of O12. -/

namespace Sys2Proof.Machine

/-! ## A discarding load channel (R63) -/

theorem weightChunk_runs_to {s : State} {d : DieId} {r : RecIn} {x : Die} (ran : RunsTo (.weightChunk d r) s d x) :
    record 11 r (s.die d) = x := by
  have same := congrArg (fun t => t.die d) (Host.Outcome.next.inj ran)
  simpa [onDie] using same

/-- The header of a WEIGHT_CHUNK of 16 bytes for channel 4, without its check. -/
def discardedHead : RecIn := ⟨0, 0, 3, 4, 0, 0, 0, leBytes 4 0 ++ leBytes 8 0 ++ leBytes 4 16 ++ List.replicate 16 1⟩

/-- The chunk with its header's check. -/
def discardedChunk : RecIn := { discardedHead with hcheck := BitVec.ofNat 16 (crc16 (headBytes 11 discardedHead)) }

/-- A model whose weights, one tensor of 64 bytes, stream over channel 4. -/
def loadingModel : Model :=
  { state := .streaming, manifest := { tensors := [⟨0, 1, 8, 8, 64, 0, []⟩] }, prog := {}, k := 1, share := 0, dies := 1
    loadChannel := 4, loadRatchet := 0, loadTimeout := 1, periodH := 1, graceH := 1, session := 1, order := 1 }

/-- The stream of the model, at its first byte. -/
def loadingStream : Stream := { slot := 0, turn := false }

/-- Die A in Spring with the stream running and channel 4 OPEN, which discards its records after a departure. -/
def discardingState : State :=
  { dieA := { which := .a, phase := .spring, adm := { stream := some loadingStream, models := [(0, loadingModel)] }
              chn := { tab := [(4, { state := .opened, wrd := { skip := some .departed } })] } } }

theorem discardedChunk_met : Met 11 (cutRecord discardedChunk) (discardingState.die .a) :=
  ⟨by decide +kernel, by decide +kernel, by decide +kernel, by decide +kernel⟩

/-- The model discards the chunk. -/
theorem discarded_chunk_not_held : (record 11 discardedChunk (discardingState.die .a)).wrd.chunks = [] := by decide +kernel

/-- Refutes O12: a chunk that continues its stream is not held where its channel is in service and discards its records up to a
BATCH_END (R63). In `discardingState` a departure has gone before, which the statement does not exclude. -/
theorem not_chunksBumpsAndHeartbeats : ¬ Obligations.ChunksBumpsAndHeartbeats := by
  unfold Obligations.ChunksBumpsAndHeartbeats
  intro holds
  obtain ⟨held, -⟩ := holds discardingState .a discardedChunk
  obtain ⟨x, ran, chunks, -⟩ := held loadingStream loadingModel discardedChunk_met (by decide +kernel) rfl rfl
    (by decide) (by decide +kernel) (by decide +kernel) (by decide +kernel) (by decide +kernel)
    (by intro t tensor; obtain rfl := Option.some.inj tensor; decide +kernel)
    (by decide +kernel) (by decide +kernel) (by decide +kernel) (by decide +kernel)
  rw [← weightChunk_runs_to ran, discarded_chunk_not_held] at chunks
  exact absurd chunks (List.cons_ne_nil _ _).symm

end Sys2Proof.Machine
end

section
/-! SUPPORT. A batch done before its checks, and the refutation of O55. -/

namespace Sys2Proof.Machine

/-! ## A program that ends before its checks (R125, R208) -/

/-- A window of channel 4. -/
def uncheckedWindow : TtEntry :=
  { kind := 2, group := 0, target := 4, slot := 0, start := 10, arr := 100, commit := 200, verdict := 300 }

/-- A batch of one token that is complete, and whose program has reached DONE without the token's checks. -/
def uncheckedBatch : Batch :=
  { channel := 4, serial := 1, tokens := 1, closed := true, complete := true, done := true
    window := some ⟨uncheckedWindow, 0, 0, 10, 100, 200, 300⟩ }

/-- Die A in Spring with CAD running the window, and the batch bound to it. -/
def uncheckedState : State :=
  { dieA := { which := .a, phase := .spring, cad := { running := true, active := { entries := [uncheckedWindow] } }
              chn := { tab := [(4, { state := .opened })], tickets := [uncheckedBatch], serial := 2 } } }

/-- Die A at the verdict time of the window. -/
def uncheckedAtVerdict : Die := toCycle 310 uncheckedState.dieA

/-- The model judges the batch LATE with cause 24. -/
theorem unchecked_late : decideOwn (toCommit uncheckedAtVerdict) uncheckedBatch = (3, 24) := by decide +kernel

/-- Refutes O55: the statement gives cause 24 only to a complete batch that is not done, and PASS to one with nothing else against
it. The batch of `uncheckedState` is done, but its token's checks have not been made, and the model gives it LATE with cause 24
(R125). -/
theorem not_verdictsLateSlotsAndDeclarations : ¬ Obligations.VerdictsLateSlotsAndDeclarations := by
  unfold Obligations.VerdictsLateSlotsAndDeclarations
  rintro ⟨committed, -⟩
  have claim := committed uncheckedState .a 0 uncheckedWindow 0 uncheckedBatch (.verdictTime .a ⟨0, []⟩) uncheckedAtVerdict
    rfl rfl (.inr ⟨rfl, by decide +kernel, by decide +kernel⟩) (by decide +kernel) (by decide +kernel) (by decide +kernel)
  obtain ⟨-, -, -, passes⟩ := claim
  have stated := passes (by decide +kernel) (by decide +kernel)
  rw [unchecked_late] at stated
  exact absurd stated (by decide)

end Sys2Proof.Machine
end

section
/-! SUPPORT. What CHN_CMD.create does to the die that it is given to, and O23. -/

namespace Sys2Proof.Machine

/-! ## Results of channel commands (R287) -/

@[simp] theorem chnStat_chn (op c code : Nat) (d : Die) : (chnStat op c code d).chn = d.chn := by
  unfold chnStat
  dsimp only
  split <;> simp

@[simp] theorem chnStat_cad (op c code : Nat) (d : Die) : (chnStat op c code d).cad = d.cad := by
  unfold chnStat
  dsimp only
  split <;> simp

@[simp] theorem chnStat_adm (op c code : Nat) (d : Die) : (chnStat op c code d).adm = d.adm := by
  unfold chnStat
  dsimp only
  split <;> simp

/-- CHN_CMD_STAT shows the result that was reported, also once its event has gone out. -/
@[simp] theorem capOf_chnStat (op c code : Nat) (d : Die) :
    capOf (chnStat op c code d) pCHN 0x044 = code + 256 * c + 8388608 * op := by
  unfold chnStat
  dsimp only
  split
  · rw [capOf_setCap]
  · rw [capOf, sendEvent_regs_cap, ← capOf, capOf_setCap]

@[simp] theorem cadRefuse_chn (r : Nat × Nat) (d : Die) : (cadRefuse r d).chn = d.chn := by
  unfold cadRefuse
  dsimp only
  split <;> simp

@[simp] theorem cadRefuse_cad (r : Nat × Nat) (d : Die) : (cadRefuse r d).cad = d.cad := by
  unfold cadRefuse
  dsimp only
  split <;> simp

/-! ## Names of ratchets (R296) -/

/-- A stored entry counts beside the others where the entry that it replaces did not count. -/
theorem any_mset {α : Type} (m : AMap α) (k : Nat) (v : α) (p : Nat × α → Bool)
    (was : ∀ w, mget m k = some w → p (k, w) = false) : (mset m k v).any p = (m.any p || p (k, v)) := by
  induction m with
  | nil => simp [mset]
  | cons e r ih =>
    obtain ⟨a, w⟩ := e
    simp only [mset]
    split
    · rw [List.any_cons, Bool.or_comm]
    · split
      · next eq =>
        subst eq
        rw [List.any_cons, List.any_cons, was w (by simp [mget]), Bool.false_or, Bool.or_comm]
      · next ne =>
        rw [List.any_cons, List.any_cons, ih fun w' found => was w' (by simp [mget, Ne.symm ne, found]), Bool.or_assoc]

/-- A channel whose create is pending names its ledger ratchet; the other names stay. -/
theorem named_of_reserved {d x : Die} {c : Nat} {y : Chan} (idle : (chan d c).pend = none) (free : (chan d c).state = .free)
    (pending : y.pend = some .create) (adm : x.adm = d.adm) (tab : x.chn.tab = mset d.chn.tab c y) (r : Nat) :
    named x r = (named d r || decide (ledgerRatchet y.host = some r)) := by
  have was : ∀ w, mget d.chn.tab c = some w →
      ((w.state != .free || w.pend.isSome) && ledgerRatchet w.host == some r) = false := by
    intro w listed
    rw [chan_of_mget listed] at idle free
    simp [idle, free]
  rw [named, adm, tab, any_mset _ _ _ _ was, ← Bool.or_assoc, ← named]
  simp [pending, Bool.beq_eq_decide_eq]

/-! ## Create (R109, R283, R287, R462) -/

/-- The channel that the create image asks for. -/
def askedChan (d : Die) : ChanHost := parseChan ((model d (min 79 (byteAt (descBuf d) 2))).map fun m => m.manifest) (descBuf d)

/-- The channel of a create that the die accepts, with the ledger density that fits. -/
def reservedChan (h : ChanHost) (density : Nat) : Chan :=
  { host := h, coupled := false, density := density, alphaRep := if density = 2 then h.alpha / 2 else h.alpha
    pend := some .create }

/-- What judges the fragment of a create without a Coupled half. -/
def askedInfo (c : Nat) (d : Die) : ChanInfo :=
  { id := c, host := askedChan d, coupled := false, model := model d (askedChan d).slot }

/-- A die after a create has reserved its id and its fragment has joined the timetable's. -/
def reserved (c density : Nat) (es : List TtEntry) (d : Die) : Die :=
  setChan c (reservedChan (askedChan d) density) (updCad (fun q => { q with frags := q.frags ++ es }) d)

section
variable {c : Nat} {d peer : Die}

theorem chnCreate_handOver (handOver : d.vp.pending = true) : chnCreate c d peer = (d, peer) := by
  simp [chnCreate, handOver]

theorem chnCreate_notFree (settled : d.vp.pending = false) (idle : (chan d c).pend = none) (held : (chan d c).state ≠ .free) :
    chnCreate c d peer = (chnStat 1 c 32 d, peer) := by
  simp [chnCreate, settled, idle, held]

/-- A create of a free id without a Coupled half is the die's own matter: its slot and its fragment are judged. -/
theorem chnCreate_single (settled : d.vp.pending = false) (idle : (chan d c).pend = none) (free : (chan d c).state = .free)
    (other : holdsId peer c = false)
    (single : (askedChan d).kind = 3 ∨ ∀ m, model d (askedChan d).slot = some m → isCoupled m = false) :
    chnCreate c d peer =
      (match createRefusal d peer (askedChan d) false with
        | .error k => chnStat 1 c k d
        | .ok k => match judgeFragment d 2 c (some (askedInfo c d)) none with
          | .error r => chnStat 1 c 9 (cadRefuse r d)
          | .ok es => chnStat 1 c 1 (reserved c k es d), peer) := by
  unfold chnCreate
  extract_lets x b slot h coupled half refuse density
  have asked : h = askedChan d := rfl
  have uncoupled : coupled = false := by
    simp only [coupled, asked]
    rcases single with image | plain
    · simp [image]
    · cases named : model d (askedChan d).slot with
      | none => simp
      | some m => simp [plain m named]
  have alone : half = false := by simp [half, uncoupled]
  clear_value half coupled h
  subst asked uncoupled alone
  rw [if_neg (by simp [settled]), if_neg (by simp [x, idle]), if_neg (by simp [x, free]), if_neg (by simp [other])]
  cases createRefusal d peer (askedChan d) false with
  | error k => simp [refuse]
  | ok k =>
    dsimp only [askedInfo]
    cases judgeFragment d 2 c (some { id := c, host := askedChan d, coupled := false, model := model d (askedChan d).slot }) none with
    | error r => simp [refuse]
    | ok es => simp [reserved, reservedChan]

theorem chan_reserved (density : Nat) (es : List TtEntry) (k : Nat) :
    chan (reserved c density es d) k = if k = c then reservedChan (askedChan d) density else chan d k := by
  rw [chan, mgetD, reserved, setChan, updChn_chn, mget_mset, updCad_chn]
  split
  · rfl
  · rw [chan, mgetD]

end

theorem RunsTo.chnCmdCreate {s : State} {d : DieId} {c : BitVec 15} {x : Die}
    (made : chnCreate c.toNat (s.die d) (s.die d.other) = (x, s.die d.other)) : RunsTo (.chnCmdCreate d c) s d x := by
  show execChnCmdCreate d c s = _
  cases d with
  | a =>
    have eq : chnCreate c.toNat s.dieA s.dieB = (x, s.dieB) := made
    simp only [execChnCmdCreate, eq]
    rfl
  | b =>
    have eq : chnCreate c.toNat s.dieB s.dieA = (x, s.dieA) := made
    simp only [execChnCmdCreate, eq]
    rfl

/-- Settles O23, by what a create without a Coupled half comes to. -/
theorem channelsAreCreated : Obligations.ChannelsAreCreated := by
  unfold Obligations.ChannelsAreCreated
  intro s d c
  refine ⟨fun handOver => .chnCmdCreate (chnCreate_handOver handOver), fun settled idle held =>
    ⟨_, .chnCmdCreate (chnCreate_notFree settled idle held), by simp, by simp⟩,
    fun settled idle free other single => ?_⟩
  have made := chnCreate_single settled idle free other single
  refine ⟨fun k refused => ?_, fun k accepted => ⟨fun r bad => ?_, fun es good => ?_⟩⟩
  · replace refused : createRefusal (s.die d) (s.die d.other) (askedChan (s.die d)) false = .error k := refused
    simp only [refused] at made
    exact ⟨_, .chnCmdCreate made, by simp, by simp, by simp⟩
  · replace accepted : createRefusal (s.die d) (s.die d.other) (askedChan (s.die d)) false = .ok k := accepted
    replace bad : judgeFragment (s.die d) 2 c.toNat (some (askedInfo c.toNat (s.die d))) none = .error r := bad
    simp only [accepted, bad] at made
    exact ⟨_, .chnCmdCreate made, by simp, by simp, by simp⟩
  · replace accepted : createRefusal (s.die d) (s.die d.other) (askedChan (s.die d)) false = .ok k := accepted
    replace good : judgeFragment (s.die d) 2 c.toNat (some (askedInfo c.toNat (s.die d))) none = .ok es := good
    simp only [accepted, good] at made
    refine ⟨_, .chnCmdCreate made, by simp, ?_, fun c' ne => ?_, by simp [reserved], fun r => ?_⟩
    · rw [chan_congr (chnStat_chn _ _ _ _), chan_reserved, if_pos rfl]
      rfl
    · rw [chan_congr (chnStat_chn _ _ _ _), chan_reserved, if_neg ne]
    · exact named_of_reserved (y := reservedChan (askedChan (s.die d)) k) idle free rfl (by simp [reserved])
        (by rw [chnStat_chn, reserved, setChan, updChn_chn, updCad_chn]) r

end Sys2Proof.Machine
end

section
/-! SUPPORT. What a model slot reads after an admission, its end, a withdrawal and a turn's request, and O48. -/

namespace Sys2Proof.Machine

/-! ## Model slots (R100) -/

section
variable {d : Die} {slot : Nat}

theorem model_congr {x : Die} (adm : x.adm = d.adm) (k : Nat) : model x k = model d k := by rw [model, adm, model]

theorem model_modModel (f : Model → Model) (k : Nat) :
    model (modModel slot f d) k = if k = slot then (model d k).map f else model d k := mget_mmod _ _ _ _

theorem model_modModel_same {m : Model} (f : Model → Model) (admitted : model d slot = some m) :
    model (modModel slot f d) slot = some (f m) := by
  rw [model_modModel, if_pos rfl, admitted, Option.map_some]

/-- A slot that is set free holds no model. -/
theorem model_freeSlot : model (freeSlot slot d) slot = none := by
  rw [model, freeSlot_models, mget_mdel, if_pos rfl]

theorem reportSlot_adm (code : Nat) : (reportSlot slot code d).adm = { d.adm with codes := mset d.adm.codes slot code } := by
  rw [reportSlot, sendEvent_adm, updAdm_adm]

@[simp] theorem reportSlot_models (code : Nat) : (reportSlot slot code d).adm.models = d.adm.models := by rw [reportSlot_adm]

/-- The code that a slot has reported stands in its record (R102, R434). -/
@[simp] theorem reportSlot_code (code : Nat) : mget (reportSlot slot code d).adm.codes slot = some code := by
  rw [reportSlot_adm, mget_mset_same]

@[simp] theorem reportSlot_cad (code : Nat) : (reportSlot slot code d).cad = d.cad := by simp [reportSlot]

@[simp] theorem reportSlot_writes (code : Nat) : (reportSlot slot code d).key.writes = d.key.writes := by simp [reportSlot]

/-- What a die tells its peer of its half changes neither models nor codes, and nothing of the timetable and of RPMB. -/
theorem tellRefusal_keeps (code : Nat) (first : Bool) :
    (tellRefusal slot code first d).adm.models = d.adm.models ∧ (tellRefusal slot code first d).adm.codes = d.adm.codes ∧
      (tellRefusal slot code first d).key = d.key ∧ (tellRefusal slot code first d).cad = d.cad := by
  unfold tellRefusal
  dsimp only
  split <;> exact ⟨rfl, rfl, rfl, rfl⟩

@[simp] theorem cadRefuse_adm (r : Nat × Nat) : (cadRefuse r d).adm = d.adm := by
  unfold cadRefuse
  dsimp only
  split <;> simp

@[simp] theorem cadRefuse_key (r : Nat × Nat) : (cadRefuse r d).key = d.key := by
  unfold cadRefuse
  dsimp only
  split <;> simp

/-! ## The end of an admission (R102, R104, R116) -/

theorem endAdmission_adm {m : Model} (code : Nat) (first : Bool) (admitted : model d slot = some m) :
    (endAdmission slot code first d).adm.models = mdel d.adm.models slot ∧
      mget (endAdmission slot code first d).adm.codes slot = some code := by
  obtain ⟨models, codes, -⟩ := tellRefusal_keeps (d := reportSlot slot code (freeSlot slot d)) (slot := slot) code first
  simp only [endAdmission, admitted]
  split
  · rw [models, codes, reportSlot_models, reportSlot_code, freeSlot_models]
    exact ⟨rfl, rfl⟩
  · rw [reportSlot_models, reportSlot_code, freeSlot_models]
    exact ⟨rfl, rfl⟩

/-- An admission that has ended holds its slot no longer. -/
theorem model_endAdmission (code : Nat) (first : Bool) : model (endAdmission slot code first d) slot = none := by
  cases admitted : model d slot with
  | none => rwa [endAdmission, admitted]
  | some m => rw [model, (endAdmission_adm code first admitted).1, mget_mdel, if_pos rfl]

/-! ## Turns (R113, R118) -/

/-- A model that is ready and has no turn before it waits for one; its Month stays in force. -/
theorem requestTurn_waits {m : Model} (forced : Bool) (admitted : model d slot = some m) (ready : m.state = .ready)
    (unasked : m.pending = none) (idle : m.turn = none) : ∃ m', model (requestTurn slot forced d) slot = some m' ∧
      m'.pending = some ⟨forced, d.adm.order⟩ ∧ m'.active = m.active := by
  have waits := model_modModel_same (fun m => { m with pending := some ⟨forced, d.adm.order⟩ }) admitted
  refine ⟨_, Eq.trans ?_ waits, rfl, rfl⟩
  simp only [requestTurn, admitted, ready, unasked, idle, bne_self_eq_false, Bool.false_eq_true, if_false]
  split
  · exact model_congr (sendSpoke_adm _ _ _ _ _ _ _ _ _ _) slot
  · rfl

/-! ## Admission (R102) -/

/-- The model of an admission that has passed its steps. -/
def admittedModel (q : AdmitReq) (man image : Bytes) (session : Nat) (es : List TtEntry) (d : Die) : Model :=
  { state := .rpmb, manifest := parseManifest man, prog := parseProgram image, k := max q.k (parseManifest man).kMin
    share := q.share, dies := q.dies, loadChannel := q.channel, loadRatchet := q.ratchet, loadTimeout := q.timeout
    periodH := q.period, graceH := q.grace, session := session, order := d.adm.order, fragment := es
    peerOk := q.dies == 3 && d.adm.peerDone.contains q.slot }

/-- A die with an admission that waits for its Month. -/
def withAdmission (q : AdmitReq) (m : Model) (es : List TtEntry) (d : Die) : Die :=
  rpmbQueue (.admission q.slot) <| updCad (fun c => { c with frags := c.frags ++ es }) <|
    updAdm (fun a => { a with models := mset a.models q.slot m, order := a.order + 1 }) (clearPeer q.slot d)

/-- The request is judged by the steps of admission: it names the die, the peer has not refused its half, and a half that runs
there has the same values (R101, R104). -/
structure Judged (q : AdmitReq) (d peer : Die) : Prop where
  names : diesNames d q.dies = true
  unrefused : q.slot ∉ d.adm.peerRefused
  agrees : coupledDiffers q (model peer q.slot) = false

section
variable {peer : Die} {req man image : Bytes} {session : Nat} {es : List TtEntry} {r : Option (Nat × Nat)}

theorem admitOn_passed (judged : Judged (parseAdmit req) d peer) (passed : admitSteps d peer (parseAdmit req) man image = (0, es, r))
    (months : d.key.rpmb.month ≠ 4294967295) :
    admitOn req man image session peer d =
      (0, withAdmission (parseAdmit req) (admittedModel (parseAdmit req) man image session es d) es d) := by
  simp [admitOn, judged.names, judged.unrefused, judged.agrees, passed, months, withAdmission, admittedModel]

/-- What a die that has refused a Coupled request tells its peer (R104). -/
def told (q : AdmitReq) (code : Nat) (d : Die) : Die := if q.dies = 3 then tellRefusal q.slot code true d else d

theorem told_keeps (q : AdmitReq) (code : Nat) : (told q code d).adm.models = d.adm.models ∧
    (told q code d).key = d.key ∧ (told q code d).cad = d.cad := by
  obtain ⟨models, -, key, cad⟩ := tellRefusal_keeps (d := d) (slot := q.slot) code true
  unfold told
  split
  · exact ⟨models, key, cad⟩
  · exact ⟨rfl, rfl, rfl⟩

/-- A request that fails a step leaves models, RPMB and the timetable as they were. -/
theorem admitOn_failed {code : Nat} (judged : Judged (parseAdmit req) d peer)
    (failed : admitSteps d peer (parseAdmit req) man image = (code, es, r)) (step : code ≠ 0) :
    ∃ z, admitOn req man image session peer d = (code, z) ∧ z.adm.models = d.adm.models ∧ z.key = d.key ∧ z.cad = d.cad := by
  obtain ⟨n, rfl⟩ := Nat.exists_eq_succ_of_ne_zero step
  cases r with
  | none =>
    refine ⟨told (parseAdmit req) (n + 1) d, ?_, told_keeps _ _⟩
    simp [admitOn, judged.names, judged.unrefused, judged.agrees, failed, told]
  | some r =>
    obtain ⟨models, key, cad⟩ := told_keeps (d := cadRefuse r d) (parseAdmit req) (n + 1)
    refine ⟨told (parseAdmit req) (n + 1) (cadRefuse r d), ?_, ?_, ?_, ?_⟩
    · simp [admitOn, judged.names, judged.unrefused, judged.agrees, failed, told]
    · rw [models, cadRefuse_adm]
    · rw [key, cadRefuse_key]
    · rw [cad, cadRefuse_cad]

end

end

/-! ## Requests over Pannier (R427, R432) -/

theorem State.setDie_setDie (s : State) (d : DieId) (x y : Die) : (s.setDie d x).setDie d y = s.setDie d y := by
  cases d <;> rfl

/-- An accepted request acts on the die that has noted its frame. -/
theorem dieRequest_accepted {typ : Nat} {f : PFrame} {s : State} {d : DieId} {x : Session} {y : Die}
    (accepted : Accepted typ f (s.die d) x y) (run : Session → Die → Die) :
    dieRequest typ d f run s = .next (s.setDie d (run x y)) := by
  have taken : takeRequest typ f (s.die d) = (some x, y) := accepted
  simp only [dieRequest, onRequest, taken, onDie, State.die_setDie_same, State.setDie_setDie]

/-- A command frame of its code, whole, of a role that may send it, is run. -/
theorem onCommand_runs {code len : Nat} {roles : List Nat} {x : Session} {f : PFrame} {run : Die → Die} {y : Die}
    (role : x.role ∈ roles) (is : u16At f.payload 0 = code) (whole : 4 + len ≤ f.payload.length) :
    onCommand code len roles x f run y = run y := by
  simp [onCommand, role, is, Nat.not_lt.2 whole]

section
variable (x : Session) (f : PFrame) (status : Nat) (b : Bytes) (d : Die)

@[simp] theorem result_which : (result x f status b d).which = d.which := sendResult_which _ _ _ _ _ _
@[simp] theorem result_adm : (result x f status b d).adm = d.adm := sendResult_adm _ _ _ _ _ _
@[simp] theorem result_cad : (result x f status b d).cad = d.cad := sendResult_cad _ _ _ _ _ _
@[simp] theorem result_writes : (result x f status b d).key.writes = d.key.writes := sendResult_key_writes _ _ _ _ _ _
@[simp] theorem result_rpmb : (result x f status b d).key.rpmb = d.key.rpmb := sendResult_key_rpmb _ _ _ _ _ _
@[simp] theorem result_bulk : (result x f status b d).key.bulk = d.key.bulk := sendResult_key_bulk _ _ _ _ _ _

end

@[simp] theorem bulkDone_adm (target : Nat) (d : Die) : (bulkDone target d).adm = d.adm := rfl
@[simp] theorem bulkDone_cad (target : Nat) (d : Die) : (bulkDone target d).cad = d.cad := rfl
@[simp] theorem bulkDone_writes (target : Nat) (d : Die) : (bulkDone target d).key.writes = d.key.writes := rfl

@[simp] theorem bulkWhole_result (x : Session) (f : PFrame) (status : Nat) (b : Bytes) (d : Die) (target : Nat) :
    bulkWhole (result x f status b d) target = bulkWhole d target := by rw [bulkWhole, result_bulk, bulkWhole]

section
variable {f : PFrame} {x : Session} {y : Die}

/-! ### ADMIT -/

section
variable {peer : Die} (operator : x.role = 1) (is : u16At f.payload 0 = 1) (whole : 68 ≤ f.payload.length)
include operator is whole

theorem admitCmd_handOver (handOver : y.vp.pending = true) : admitCmd f peer x y = result x f 4 [] y := by
  rw [admitCmd, onCommand_runs (by simp [operator]) is whole, if_pos handOver]

/-- An ADMIT outside a hand-over is answered as pending, judged, and where it is refused its slot reports the code. -/
theorem admitCmd_judged {n : Nat} {z : Die} (settled : y.vp.pending = false)
    (judged : admitOn (slice f.payload 4 64) ((bulkWhole (result x f 1 [] y) 1).getD []) ((bulkWhole (result x f 1 [] y) 2).getD [])
      x.id peer (result x f 1 [] y) = (n, z)) :
    admitCmd f peer x y =
      if n = 0 then bulkDone 1 (bulkDone 2 z)
      else reportSlot (parseAdmit (slice f.payload 4 64)).slot n (bulkDone 1 (bulkDone 2 z)) := by
  rw [bulkWhole_result, bulkWhole_result] at judged
  rw [admitCmd, onCommand_runs (by simp [operator]) is whole, if_neg (by simp [settled])]
  simp only [judged]

end

/-! ### WITHDRAW -/

section
variable (operator : x.role = 1) (is : u16At f.payload 0 = 2) (whole : 5 ≤ f.payload.length)
include operator is whole

theorem withdrawCmd_empty (empty : model y (byteAt f.payload 4) = none) : withdrawCmd f x y = resultCode x f 32 y := by
  rw [withdrawCmd, onCommand_runs (by simp [operator]) is whole]
  simp only [empty]

/-- A withdrawal leaves its slot free. -/
theorem withdrawCmd_frees (held : model y (byteAt f.payload 4) ≠ none) :
    model (withdrawCmd f x y) (byteAt f.payload 4) = none := by
  obtain ⟨m, held⟩ := Option.ne_none_iff_exists'.mp held
  rw [withdrawCmd, onCommand_runs (by simp [operator]) is whole]
  simp only [held]
  rw [model_congr (result_adm _ _ _ _ _), model_congr (settlePhase_keeps _).2.2.1]
  split
  · exact model_endAdmission _ _
  · exact model_freeSlot

end

/-! ### TURN -/

section
variable (operator : x.role = 1) (is : u16At f.payload 0 = 3) (whole : 5 ≤ f.payload.length)
include operator is whole

theorem turnCmd_refused (idle : ∀ m, model y (byteAt f.payload 4) = some m → m.state ≠ .ready) :
    turnCmd f x y = resultCode x f 32 y := by
  rw [turnCmd, onCommand_runs (by simp [operator]) is whole]
  cases held : model y (byteAt f.payload 4) with
  | none => simp [held]
  | some m => simp [held, idle m held]

theorem turnCmd_ready {m : Model} (held : model y (byteAt f.payload 4) = some m) (ready : m.state = .ready) :
    turnCmd f x y = result x f 0 [] (requestTurn (byteAt f.payload 4) false y) := by
  rw [turnCmd, onCommand_runs (by simp [operator]) is whole]
  simp [held, ready]

end

end

/-! ## The claims -/

theorem admitWithdrawAndTurn : Claim.AdmitWithdrawAndTurn := by
  unfold Claim.AdmitWithdrawAndTurn
  intro s d f x y accepted operator
  extract_lets e peer q man image slot
  have asked : RunsTo (.admitModel d f) s d (admitCmd f peer x y) := dieRequest_accepted accepted (admitCmd f peer)
  have withdrawn : RunsTo (.withdraw d f) s d (withdrawCmd f x y) := dieRequest_accepted accepted _
  have turned : RunsTo (.turn d f) s d (turnCmd f x y) := dieRequest_accepted accepted _
  refine ⟨fun is whole handOver => ?_, fun is whole settled names unrefused agrees => ?_, fun is whole => ⟨fun empty => ?_, ?_⟩,
    fun is whole => ⟨?_, ?_, ?_⟩⟩
  · rw [← admitCmd_handOver operator is whole handOver]
    exact asked
  · have judged : Judged q e peer := ⟨by simpa [e, diesNames] using names, by simpa [e] using unrefused, agrees⟩
    refine ⟨fun es r passed months => ?_, fun c es r failed step => ?_⟩
    · have run := admitCmd_judged operator is whole settled
        (admitOn_passed (session := x.id) judged passed (by simpa [e] using months))
      refine ⟨_, admittedModel q man image x.id es e, asked, ?_, rfl, rfl, rfl, ?_, ?_⟩
      all_goals rw [run, if_pos rfl]
      · exact mget_mset_same _ _ _
      · rfl
      · exact congrArg (· ++ es) (congrArg Cad.frags (result_cad x f 1 [] y))
    · obtain ⟨z, judgement, models, key, cad⟩ := admitOn_failed (session := x.id) judged failed step
      have run := admitCmd_judged operator is whole settled judgement
      rw [if_neg step] at run
      refine ⟨_, asked, ?_, ?_, ?_, ?_⟩
      all_goals rw [run]
      · rw [reportSlot_models, bulkDone_adm, bulkDone_adm, models, result_adm]
      · exact reportSlot_code c
      · rw [reportSlot_writes, bulkDone_writes, bulkDone_writes, key, result_writes]
      · rw [reportSlot_cad, bulkDone_cad, bulkDone_cad, cad, result_cad]
  · rw [← withdrawCmd_empty operator is whole empty]
    exact withdrawn
  · exact fun held => ⟨_, withdrawn, withdrawCmd_frees operator is whole held⟩
  · intro empty
    rw [← turnCmd_refused operator is whole (by simp [slot, empty])]
    exact turned
  · intro m held idle
    rw [← turnCmd_refused operator is whole (by simp [slot, held, idle])]
    exact turned
  · intro m held ready unasked idle
    obtain ⟨m', waits, asked, active⟩ := requestTurn_waits false held ready unasked idle
    refine ⟨_, m', turned, ?_, asked, active⟩
    rw [turnCmd_ready operator is whole held ready, model_congr (result_adm _ _ _ _ _), waits]

/-! ## Spoke (R104, R118, R246) -/

theorem crcRight_of_spokeOk {typ : Nat} {m : SpokeMsg} (ok : spokeOk typ m = true) : CrcRight m := by
  simp only [spokeOk, Bool.and_eq_true, beq_iff_eq] at ok
  obtain ⟨⟨⟨⟨length, -⟩, crc⟩, -⟩, -⟩ := ok
  exact ⟨length, crc⟩

/-- A right transmission is acted on. -/
theorem spokeTake_right {m : SpokeMsg} (right : CrcRight m) (f : Die → Die) (d : Die) : spokeTake m f d = f (spokeRight m d) :=
  if_pos right

section
variable (m : SpokeMsg) (d : Die)

@[simp] theorem spokeRight_adm : (spokeRight m d).adm = d.adm := by
  unfold spokeRight
  split <;> simp

@[simp] theorem spokeRight_vp : (spokeRight m d).vp = d.vp := by
  unfold spokeRight
  split <;> simp

@[simp] theorem spokeRight_regs : (spokeRight m d).regs = d.regs := by
  unfold spokeRight
  split <;> simp

theorem peerCode_spokeRight (code : Nat) (peer : Die) : peerCode code (spokeRight m d) peer = peerCode code d peer := by
  have strict : strictOn (spokeRight m d) = strictOn d := by simp only [strictOn, field, fieldSel, spokeRight_regs]
  rw [peerCode, strict, spokeRight_vp, peerCode]

end

section
variable {s : State} {d : DieId} {m : SpokeMsg} (right : CrcRight m)
include right

theorem RunsTo.spokeAdmit : RunsTo (.spokeAdmit d m) s d (spokeAdmitOn m (s.die d.other) (spokeRight m (s.die d))) := by
  show runDie d _ s = _
  rw [runDie_eq, spokeTake_right right]

theorem RunsTo.spokeTurn : RunsTo (.spokeTurn d m) s d (spokeTurnOn m (spokeRight m (s.die d))) := by
  show runDie d _ s = _
  rw [runDie_eq, spokeTake_right right]

end

section
variable {m : SpokeMsg} {peer d : Die} {x : Model} (held : model d (spA m % 64) = some x) (coupled : isCoupled x = true)
include held coupled

/-- The peer's word on a Coupled admission that runs here: its half is done, or ends this one (R104). -/
theorem spokeAdmitOn_admitting (ok : spokeOk 3 m = true) (running : admitting x = true) : spokeAdmitOn m peer d =
    if spSub m = 0 then modModel (spA m % 64) (fun x => { x with peerOk := true }) d
    else endAdmission (spA m % 64) (peerCode (spSub m) d peer) false d := by
  simp [spokeAdmitOn, ok, held, coupled, running]

/-- The peer begins a turn of a Coupled model (R118). -/
theorem spokeTurnOn_begins (ok : spokeOk 2 m = true) (sub : spSub m = 1) : spokeTurnOn m d = requestTurn (spA m % 64) false d := by
  simp [spokeTurnOn, ok, held, coupled, sub]

/-- The peer has built its tables of a turn (R118). -/
theorem spokeTurnOn_complete (ok : spokeOk 2 m = true) (sub : spSub m = 2) : spokeTurnOn m d = modModel (spA m % 64)
    (fun x => { x with peerOk := true, turn := if x.turn == some .waitPeer then some .built else x.turn }) d := by
  simp [spokeTurnOn, ok, held, coupled, sub]

end

theorem coupledAdmissionsAndTurns : Claim.CoupledAdmissionsAndTurns := by
  unfold Claim.CoupledAdmissionsAndTurns
  intro s d m x slot w held coupled
  have heldRight : model w slot = some x := (model_congr (spokeRight_adm m _) slot).trans held
  refine ⟨fun ok running done => ?_, fun ok running refused => ?_, fun ok sub => ?_, fun ok sub ready unasked idle => ?_,
    fun right other => ?_, fun right other => ?_⟩
  · have heard := RunsTo.spokeAdmit (s := s) (d := d) (crcRight_of_spokeOk ok)
    rwa [spokeAdmitOn_admitting heldRight coupled ok running, if_pos done] at heard
  · have heard := RunsTo.spokeAdmit (s := s) (d := d) (crcRight_of_spokeOk ok)
    rw [spokeAdmitOn_admitting heldRight coupled ok running, if_neg refused, peerCode_spokeRight] at heard
    exact ⟨_, heard, model_endAdmission _ _, (endAdmission_adm _ _ heldRight).2⟩
  · have heard := RunsTo.spokeTurn (s := s) (d := d) (crcRight_of_spokeOk ok)
    rw [spokeTurnOn_complete heldRight coupled ok sub] at heard
    exact ⟨_, _, heard, model_modModel_same _ heldRight, rfl, rfl⟩
  · have heard := RunsTo.spokeTurn (s := s) (d := d) (crcRight_of_spokeOk ok)
    rw [spokeTurnOn_begins heldRight coupled ok sub] at heard
    obtain ⟨x', waits, asked, -⟩ := requestTurn_waits false heldRight ready unasked idle
    exact ⟨_, x', heard, waits, by simp [asked]⟩
  · have heard := RunsTo.spokeAdmit (s := s) (d := d) right
    rwa [spokeAdmitOn, if_neg (by simp [other])] at heard
  · have heard := RunsTo.spokeTurn (s := s) (d := d) right
    rwa [spokeTurnOn, if_neg (by simp [other])] at heard

/-- Settles O48, claim by claim: requests over Pannier, and the peer's word over Spoke. -/
theorem admissionsWithdrawalsAndTurns : Obligations.AdmissionsWithdrawalsAndTurns :=
  ⟨admitWithdrawAndTurn, coupledAdmissionsAndTurns⟩

end Sys2Proof.Machine
end

section
/-! SUPPORT. The last Month of the RPMB counter, and the refutation of O49. -/

namespace Sys2Proof.Machine

/-! ## The Month counter reaches its end (R420) -/

/-- A model whose admission waits for its RPMB write. -/
def monthlessModel : Model :=
  { state := .rpmb, manifest := {}, prog := {}, k := 1, share := 5, dies := 1, loadChannel := 4, loadRatchet := 0, loadTimeout := 10
    periodH := 24, graceH := 1, session := 1, order := 0 }

/-- Die A in Spring with one Month left to give, and the admissions of slots 0 and 1 waiting for theirs. -/
def lastMonthState : State :=
  { dieA := { which := .a, phase := .spring
              adm := { models := [(0, monthlessModel), (1, { monthlessModel with order := 1 })], order := 2 }
              key := { rpmb := { month := 4294967294 }, writes := [.admission 0, .admission 1] } } }

/-- The write of slot 0 takes the last Month, and the admission of slot 1 ends with its write. -/
theorem rpmbConfirm_lastMonth_writes : (rpmbConfirm (lastMonthState.die .a)).key.writes = [] := by decide +kernel

/-- Refutes O49: a confirmed write does not always leave the rest of the order as it was. Where it takes the last Month that the
counter can give, the admissions and turns that still wait end (R420), and their writes with them; the statement has all of them
wait on. In `lastMonthState` the confirmed write of slot 0 leaves none of slot 1. -/
theorem not_rpmbWritesAndWeightStreams : ¬ Obligations.RpmbWritesAndWeightStreams := by
  unfold Obligations.RpmbWritesAndWeightStreams
  rintro ⟨inOrder, -⟩
  obtain ⟨confirmed, -⟩ := inOrder lastMonthState .a (.admission 0) [.admission 1] rfl
  obtain ⟨z, m, ran, -, writes, -⟩ := confirmed 0 monthlessModel rfl rfl
  have same : rpmbConfirm (lastMonthState.die .a) = z := by
    simpa [onDie] using congrArg (fun t => t.die .a) (Host.Outcome.next.inj ran)
  rw [← same, rpmbConfirm_lastMonth_writes] at writes
  exact absurd writes (List.cons_ne_nil _ _).symm

end Sys2Proof.Machine
end

section
/-! SUPPORT. What verdicts and retirements leave of the pipelines and of the units, and O53. -/

namespace Sys2Proof.Machine

/-! ## Pipelines without their programs (R231, R252) -/

/-- A pipeline without what its programs hold. -/
def station (p : Pipe) : Pipe := { p with core := {}, saved := [] }

/-- The pipelines of a die without what their programs hold. -/
def wiring (d : Die) : List Pipe := d.vp.pipes.map station

section
variable {d x : Die}

theorem wiring_of_vp (h : x.vp = d.vp) : wiring x = wiring d := by rw [wiring, h, wiring]

theorem station_pipe (d : Die) (n : Nat) : station (pipe d n) = ((wiring d)[n]?).getD { enabled := false } := by
  rw [wiring, List.getElem?_map, pipe]
  cases d.vp.pipes[n]? <;> rfl

theorem station_congr (h : wiring x = wiring d) (n : Nat) : station (pipe x n) = station (pipe d n) := by
  rw [station_pipe, station_pipe, h]

theorem enabled_congr (h : wiring x = wiring d) (n : Nat) : (pipe x n).enabled = (pipe d n).enabled :=
  show (station (pipe x n)).enabled = (station (pipe d n)).enabled by rw [station_congr h]
theorem retired_congr (h : wiring x = wiring d) (n : Nat) : (pipe x n).retired = (pipe d n).retired :=
  show (station (pipe x n)).retired = (station (pipe d n)).retired by rw [station_congr h]
theorem lead_congr (h : wiring x = wiring d) (n : Nat) : (pipe x n).lead = (pipe d n).lead :=
  show (station (pipe x n)).lead = (station (pipe d n)).lead by rw [station_congr h]

theorem members_congr (h : wiring x = wiring d) (lead : Nat) : members x lead = members d lead := by
  simp only [members, enabled_congr h, retired_congr h, lead_congr h]

theorem wiring_foldl {α : Type} (f : Die → α → Die) (keeps : ∀ d a, wiring (f d a) = wiring d) (as : List α) (d : Die) :
    wiring (as.foldl f d) = wiring d := by
  induction as generalizing d with
  | nil => rfl
  | cons a r ih => rw [List.foldl_cons, ih, keeps]

theorem vp_foldl {α : Type} (f : Die → α → Die) (keeps : ∀ d a, (f d a).vp = d.vp) (as : List α) (d : Die) :
    (as.foldl f d).vp = d.vp := by
  induction as generalizing d with
  | nil => rfl
  | cons a r ih => rw [List.foldl_cons, ih, keeps]

/-! ### A verdict leaves the pipelines their places -/

@[simp] theorem countPerms_vp (n : Nat) (d : Die) : (countPerms n d).vp = d.vp := rfl
@[simp] theorem modModel_vp (s : Nat) (f : Model → Model) (d : Die) : (modModel s f d).vp = d.vp := rfl
@[simp] theorem modArr_vp (c : Nat) (f : Arrival → Arrival) (d : Die) : (modArr c f d).vp = d.vp := rfl
@[simp] theorem freeFrames_vp (b : Batch) (d : Die) : (freeFrames b d).vp = d.vp := rfl
@[simp] theorem freeOldMonth_vp (s : Nat) (d : Die) : (freeOldMonth s d).vp = d.vp := rfl

@[simp] theorem startPeriod_vp (d : Die) : (startPeriod d).vp = d.vp := by
  unfold startPeriod
  dsimp only
  split <;> simp

@[simp] theorem turnPeriod_vp (cut : Bool) (d : Die) : (turnPeriod cut d).vp = d.vp := by
  unfold turnPeriod closePeriod
  dsimp only
  split <;> simp

@[simp] theorem addLeaf_vp (l : Leaf) (d : Die) : (addLeaf l d).vp = d.vp := by
  unfold addLeaf turnDue
  dsimp only
  repeat' split
  all_goals simp

@[simp] theorem capture_vp (c : Nat) (e : Nat × Nat × Nat × Nat × Nat) (d : Die) : (capture c e d).vp = d.vp := by
  unfold capture
  dsimp only
  split
  · split <;> simp
  · rfl

@[simp] theorem sendPermit_vp (b : Batch) (d : Die) : (sendPermit b d).vp = d.vp := by
  unfold sendPermit
  dsimp only
  split <;> simp

@[simp] theorem endCapture_vp (n : Nat) (d : Die) : (endCapture n d).vp = d.vp := by
  unfold endCapture
  split <;> simp

@[simp] theorem requestTurn_vp (s : Nat) (forced : Bool) (d : Die) : (requestTurn s forced d).vp = d.vp := by
  unfold requestTurn
  dsimp only
  repeat' split
  all_goals simp

@[simp] theorem sendBoundaries_vp (b : Batch) (pass : Bool) (d : Die) : (sendBoundaries b pass d).vp = d.vp := by
  unfold sendBoundaries
  split
  · refine vp_foldl _ (fun d t => ?_) _ d
    unfold sendBoundary
    split
    · rfl
    · split <;> simp
  · rfl

@[simp] theorem declare_vp (n : Nat) (v : Decl) (d : Die) : (declare n v d).vp = d.vp := by
  unfold declare
  split
  · rfl
  · split <;> simp

@[simp] theorem bumpLedger_vp (set : Bool) (c : Nat) (d : Die) : (bumpLedger set c d).vp = d.vp := by
  unfold bumpLedger
  dsimp only
  split
  · rfl
  · repeat' split
    all_goals simp

@[simp] theorem markLedger_vp (b : Batch) (d : Die) : (markLedger b d).vp = d.vp := by
  unfold markLedger
  dsimp only
  split
  · rfl
  · split <;> simp

@[simp] theorem writeRing_vp (c : Nat) (r : Bytes) (d : Die) : (writeRing c r d).vp = d.vp := by
  unfold writeRing
  dsimp only
  split <;> simp

@[simp] theorem noteSlot_vp (b : Batch) (d : Die) : (noteSlot b d).vp = d.vp := by
  unfold noteSlot
  dsimp only
  split <;> simp

@[simp] theorem canaryDone_vp (b : Batch) (v : Nat) (d : Die) : (canaryDone b v d).vp = d.vp := by
  unfold canaryDone
  dsimp only
  repeat' split
  all_goals simp

theorem wiring_leaveRuns (n : Nat) (d : Die) : wiring (leaveRuns n d) = wiring d := by
  simp only [wiring, leaveRuns, List.map_map]
  rfl

/-- A verdict takes its batch off the programs, and leaves the pipelines as they are otherwise. -/
theorem wiring_commit (n v k : Nat) (e : Bool) (d : Die) : wiring (commit n v k e d) = wiring d := by
  unfold commit
  split
  · rfl
  · extract_lets c x inD outD io record leaf slot permit d1 own d2 d3 d4 d5 d6 d7 d8 d9 newest d10 d11 d12
    have h2 : d2.vp = d.vp := by simp only [d2]; split <;> simp [d1]
    have h4 : d4.vp = d.vp := by simp only [d4]; split <;> simp [d3, h2]
    have h5 : d5.vp = d.vp := by simp [d5, h4]
    have h6 : d6.vp = d.vp := by
      simp only [d6]
      split
      · exact (vp_foldl _ (fun d e => capture_vp c e d) _ d5).trans h5
      · exact h5
    have h7 : d7.vp = d.vp := by simp only [d7]; split <;> simp [h6]
    have h8 : d8.vp = d.vp := by simp only [d8]; split <;> simp [h7]
    have h10 : d10.vp = d.vp := by simp only [d10]; split <;> simp [d9, h8]
    have left : wiring (leaveRuns n (dropTicket n d10)) = wiring d :=
      (wiring_leaveRuns n _).trans (wiring_of_vp (by simp [h10]))
    have h12 : wiring d12 = wiring d := by
      rw [← left]
      exact wiring_of_vp (by simp [d12, d11])
    split
    · exact h12
    · rw [← h12]
      exact wiring_of_vp (by simp)

theorem wiring_endTicket (v k : Nat) (d : Die) (n : Nat) : wiring (endTicket v k d n) = wiring d := by
  unfold endTicket
  split
  · rfl
  · exact wiring_commit n v _ true d

theorem wiring_retireWhere (p : Chan → Bool) (ec v k : Nat) (d : Die) : wiring (retireWhere p ec v k d) = wiring d := by
  refine wiring_foldl _ (fun d c => ?_) _ d
  unfold retireChan
  extract_lets y d1 d2 d3
  have h1 : wiring d1 = wiring d := wiring_foldl _ (wiring_endTicket v k) _ d
  have h3 : wiring d3 = wiring d := h1
  split
  · split
    · exact h3
    · exact h3
  · rfl

end

/-! ## Groups in service (R237, R238) -/

section
variable {d : Die}

/-- A change of one pipeline of the die shows on that pipeline alone. -/
theorem pipe_modPipe (n : Nat) (f : Pipe → Pipe) (d : Die) (k : Nat) :
    pipe (modPipe n f d) k = if k = n ∧ k < d.vp.pipes.length then f (pipe d k) else pipe d k := by
  simp only [pipe, modPipe, List.getElem?_modify]
  by_cases inside : k < d.vp.pipes.length
  · by_cases same : k = n
    · simp [same ▸ inside, same]
    · simp [inside, same, Ne.symm same]
  · simp [inside]

theorem lt_of_enabled {n : Nat} (on : (pipe d n).enabled = true) : n < d.vp.pipes.length := by
  by_contra beyond
  simp [pipe, List.getElem?_eq_none (Nat.le_of_not_lt beyond)] at on

theorem mem_members {k lead : Nat} : k ∈ members d lead ↔
    k < 6 ∧ (pipe d k).enabled = true ∧ (pipe d k).retired = false ∧ (pipe d k).lead = lead := by
  simp [members, and_assoc]

theorem members_nodup (lead : Nat) : (members d lead).Nodup := List.nodup_range.filter _

/-- One change to each of some pipelines of the die: those have it, and every other is as it was. -/
theorem pipe_foldl_modPipe (f : Pipe → Pipe) {ns : List Nat} (distinct : ns.Nodup) (d : Die) (k : Nat) :
    pipe (ns.foldl (fun d n => modPipe n f d) d) k =
      if k ∈ ns ∧ k < d.vp.pipes.length then f (pipe d k) else pipe d k := by
  induction ns generalizing d with
  | nil => simp
  | cons n r ih =>
    obtain ⟨fresh, distinct⟩ := List.nodup_cons.mp distinct
    have length : (modPipe n f d).vp.pipes.length = d.vp.pipes.length := by rw [modPipe, List.length_modify]
    rw [List.foldl_cons, ih distinct, length, pipe_modPipe]
    by_cases same : k = n
    · subst same
      simp [fresh]
    · simp [same]

theorem pipe_congr {x : Die} (vp : x.vp = d.vp) (k : Nat) : pipe x k = pipe d k := by rw [pipe, vp, pipe]

theorem modPipe_vp (n : Nat) (f : Pipe → Pipe) (d : Die) :
    (modPipe n f d).vp = { d.vp with pipes := d.vp.pipes.modify n f } := rfl

/-- A change of what the programs hold leaves the pipelines as they are otherwise. -/
theorem wiring_modPipe {f : Pipe → Pipe} (places : ∀ p, station (f p) = station p) (n : Nat) (d : Die) :
    wiring (modPipe n f d) = wiring d := by
  rw [wiring, modPipe_vp, wiring]
  apply List.ext_getElem?
  intro k
  simp only [List.getElem?_map, List.getElem?_modify]
  cases d.vp.pipes[k]? with
  | none => rfl
  | some p => simp only [Option.map_eq_map, Option.map_some]; split <;> simp [places]

/-- A change that only pipelines of one kind take is a change of the pipelines. -/
theorem modPipe_if (q : Pipe → Bool) (f : Pipe → Pipe) (n : Nat) (d : Die) :
    (if q (pipe d n) = true then modPipe n f d else d).vp = (modPipe n (fun p => if q p = true then f p else p) d).vp := by
  have taken : (if q (pipe d n) = true then d.vp.pipes.modify n f else d.vp.pipes) =
      d.vp.pipes.modify n (fun p => if q p = true then f p else p) := by
    apply List.ext_getElem?
    intro k
    by_cases same : n = k
    · subst same
      cases h : d.vp.pipes[n]? <;> by_cases kind : q (pipe d n) = true <;> simp_all [pipe]
    · split <;> simp [same]
  rw [modPipe_vp, ← taken]
  split <;> rfl

/-- What acts on the pipelines as changes of them does, does so over a list. -/
theorem foldl_vp_of_modPipe {g : Die → Nat → Die} {f : Pipe → Pipe} (acts : ∀ d n, (g d n).vp = (modPipe n f d).vp)
    (ns : List Nat) {d x : Die} (vp : x.vp = d.vp) :
    (ns.foldl g x).vp = (ns.foldl (fun d n => modPipe n f d) d).vp := by
  induction ns generalizing d x with
  | nil => exact vp
  | cons n r ih =>
    refine ih ?_
    rw [acts, modPipe_vp, vp, modPipe_vp]

/-! ### A group retires, or takes a member back -/

def retiredPipe (p : Pipe) : Pipe := { p with retired := true, resync := false, resyncRun := false }

/-- A group that retires takes all of its members out of service. -/
theorem retireGroup_retires (lead : Nat) (d : Die) :
    (∀ k ∈ members d lead, (pipe (retireGroup lead d) k).retired = true) ∧ members (retireGroup lead d) lead = [] := by
  unfold retireGroup
  extract_lets ms e x
  have kept : wiring e = wiring d := wiring_retireWhere _ _ _ _ _
  have changed : ∀ k, pipe x k = if k ∈ ms ∧ k < e.vp.pipes.length then retiredPipe (pipe e k) else pipe e k :=
    pipe_foldl_modPipe retiredPipe (members_nodup lead) e
  have emptied : wiring (modPipe lead (fun p => { p with core := {}, saved := [] }) x) = wiring x :=
    wiring_modPipe (f := station) (fun _ => rfl) lead x
  have out : ∀ k ∈ ms, (pipe x k).retired = true := by
    intro k member
    have inside : k < e.vp.pipes.length := lt_of_enabled ((enabled_congr kept k).trans (mem_members.mp member).2.1)
    rw [changed, if_pos ⟨member, inside⟩, retiredPipe]
  refine ⟨fun k member => (retired_congr emptied k).trans (out k member), ?_⟩
  rw [members_congr emptied, List.eq_nil_iff_forall_not_mem]
  intro k member
  obtain ⟨small, on, serving, led⟩ := mem_members.mp member
  by_cases was : k ∈ ms
  · exact absurd (out k was) (by simp [serving])
  · rw [changed, if_neg (fun h => was h.1), enabled_congr kept] at on
    rw [changed, if_neg (fun h => was h.1), retired_congr kept] at serving
    rw [changed, if_neg (fun h => was h.1), lead_congr kept] at led
    exact was (mem_members.mpr ⟨small, on, serving, led⟩)

def resyncBegins (p : Pipe) : Pipe := if p.resync = true then { p with resyncRun := true } else p

/-- The copy that a Trike group begins changes the pipelines, of the members as `resyncBegins` says. -/
theorem trikeResync_begins {lead : Nat} (idle : (core d lead).run = []) :
    (∀ k ∈ members d lead, (pipe d k).resync = true → (pipe (trikeResync lead d) k).resyncRun = true) ∧
      ∃ ps, trikeResync lead d = { d with vp := { d.vp with pipes := ps } } := by
  have runs : (pipe d lead).core.run.isEmpty = true := by rw [← core, idle]; rfl
  unfold trikeResync
  rw [if_pos runs]
  constructor
  · intro k member waits
    have inside : k < d.vp.pipes.length := lt_of_enabled (mem_members.mp member).2.1
    rw [pipe_congr (foldl_vp_of_modPipe (f := resyncBegins) (fun d n => modPipe_if Pipe.resync _ n d) _ rfl),
      pipe_foldl_modPipe _ (members_nodup lead), if_pos ⟨member, inside⟩, resyncBegins, if_pos waits]
  · generalize members d lead = ms
    clear idle runs
    induction ms generalizing d with
    | nil => exact ⟨d.vp.pipes, rfl⟩
    | cons n r ih =>
      rw [List.foldl_cons]
      split
      · obtain ⟨ps, rest⟩ := ih (d := modPipe n (fun p => { p with resyncRun := true }) d)
        exact ⟨ps, rest⟩
      · exact ih

def resyncEnds (p : Pipe) : Pipe := if p.resyncRun = true then { p with resync := false, resyncRun := false } else p

/-- The end of a copy changes the pipelines, of the members as `resyncEnds` says, and the counters. -/
theorem trikeResyncDone_ends (lead : Nat) (d : Die) :
    (∀ k ∈ members d lead, (pipe (trikeResyncDone lead d) k).resyncRun = false ∧
        ((pipe d k).resyncRun = true → (pipe (trikeResyncDone lead d) k).resync = false)) ∧
      ∃ ps cs, trikeResyncDone lead d = { d with vp := { d.vp with pipes := ps }, regs := { d.regs with cnt := cs } } := by
  unfold trikeResyncDone
  constructor
  · intro k member
    have inside : k < d.vp.pipes.length := lt_of_enabled (mem_members.mp member).2.1
    have acts (e : Die) (n : Nat) : (if (pipe e n).resyncRun = true then
        count (vpPage e lead) 0x060 (modPipe n (fun p => { p with resync := false, resyncRun := false }) e) else e).vp =
        (modPipe n resyncEnds e).vp := by
      refine Eq.trans ?_ (modPipe_if Pipe.resyncRun _ n e)
      split <;> rfl
    rw [pipe_congr (foldl_vp_of_modPipe acts _ rfl), pipe_foldl_modPipe _ (members_nodup lead), if_pos ⟨member, inside⟩,
      resyncEnds]
    split
    · exact ⟨rfl, fun _ => rfl⟩
    · next still => exact ⟨by simpa using still, fun run => absurd run still⟩
  · generalize members d lead = ms
    induction ms generalizing d with
    | nil => exact ⟨d.vp.pipes, d.regs.cnt, rfl⟩
    | cons n r ih =>
      rw [List.foldl_cons]
      split
      · obtain ⟨ps, cs, rest⟩ := ih (count (vpPage d lead) 0x060
          (modPipe n (fun p => { p with resync := false, resyncRun := false }) d))
        exact ⟨ps, cs, rest⟩
      · exact ih d

theorem groupsRetireAndResynchronise : Claim.GroupsRetireAndResynchronise := by
  intro s d p
  refine ⟨fun on serving => ?_, fun idle => ?_, ?_⟩
  · have taken : ((pipe (s.die d) p.toNat).enabled && !(pipe (s.die d) p.toNat).retired) = true := by rw [on, serving]; rfl
    refine ⟨⟨_, runDie_of_eq (if_pos taken), retireGroup_retires _ _⟩, runDie_of_eq (if_pos taken)⟩
  · obtain ⟨begins, shape⟩ := trikeResync_begins idle
    exact ⟨_, rfl, begins, shape⟩
  · obtain ⟨ends, shape⟩ := trikeResyncDone_ends p.toNat (s.die d)
    exact ⟨_, rfl, ends, shape⟩

end

end Sys2Proof.Machine
end

section
/-! SUPPORT. Units that retire, the spares that take their places, and O53. -/

namespace Sys2Proof.Machine

section
variable {d x : Die} {blk u v : Nat}

/-! ## What retirements leave of the pools (R136, R137, R225) -/

/-- What `quiet` keeps of a die, but for memory health. -/
def unwritten (d : Die) : Die := quiet (updMem (fun _ => {}) d)

theorem unwritten_of_quiet (h : quiet x = quiet d) : unwritten x = unwritten d :=
  show updMem (fun _ => {}) (quiet x) = updMem (fun _ => {}) (quiet d) by rw [h]

theorem pool_unwritten (d : Die) (blk : Nat) : pool (unwritten d) blk = pool d blk := by
  unfold pool
  split <;> rfl

theorem pool_congr (h : unwritten x = unwritten d) (blk : Nat) : pool x blk = pool d blk := by
  rw [← pool_unwritten, h, pool_unwritten]

theorem unitState_congr (h : pool x blk = pool d blk) (u : Nat) : unitState x blk u = unitState d blk u := by
  rw [unitState, h, unitState]

theorem pool_updVp (f : Vp → Vp) (d : Die) (blk : Nat) : pool (updVp f d) blk = pool d blk := by
  unfold pool
  split <;> rfl

@[simp] theorem unwritten_raise (p b : Nat) (d : Die) : unwritten (raise p b d) = unwritten d :=
  unwritten_of_quiet (quiet_raise p b d)

@[simp] theorem unwritten_recordExt (kind engine index : Nat) (d : Die) :
    unwritten (recordExt kind engine index d) = unwritten d := by
  unfold recordExt
  split
  · exact unwritten_raise _ _ _
  · rfl

@[simp] theorem quiet_rollback (lead : Nat) (d : Die) : quiet (rollback lead d) = quiet d := by
  unfold rollback
  extract_lets run e
  rw [quiet_modPipe]
  exact quiet_foldl _ (fun d n => quiet_modTicket n _ d) _ d

@[simp] theorem quiet_retireMember (lead n : Nat) (d : Die) : quiet (retireMember lead n d) = quiet d := by
  unfold retireMember
  extract_lets e x two
  rw [quiet_foldl _ (fun d m => quiet_modPipe m _ d), quiet_modPipe, quiet_raise]

@[simp] theorem quiet_loseChannels (lead : Nat) (d : Die) : quiet (loseChannels lead d) = quiet d := by
  unfold loseChannels
  extract_lets cs e
  rw [quiet_retireWhere, quiet_retireWhere]
  exact quiet_foldl _ (fun d c => quiet_foldl _ (fun d b => quiet_endTicket _ _ d _) _ d) _ d

@[simp] theorem quiet_pipeLost (blk n : Nat) (d : Die) : quiet (pipeLost blk n d) = quiet d := by
  unfold pipeLost
  dsimp only
  repeat' split
  all_goals simp

@[simp] theorem quiet_rerunServed (c : Nat) (d : Die) : quiet (rerunServed c d) = quiet d :=
  quiet_foldl _ (fun d g => quiet_rollback g d) _ d

/-! ## Changes of a pool -/

/-- The code of a block whose units can retire. -/
def Pooled (blk : Nat) : Prop := blk ∈ [8, 9, 10, 11, 12, 13]

theorem pooled_lt (pooled : Pooled blk) : blk < 32 := by
  unfold Pooled at pooled
  fin_cases pooled <;> decide

theorem pool_modPool (pooled : Pooled blk) (f : Tiles → Tiles) (d : Die) : pool (modPool blk f d) blk = f (pool d blk) := by
  unfold Pooled at pooled
  fin_cases pooled <;> rfl

theorem unitState_setUnit (pooled : Pooled blk) (inside : u < (pool d blk).state.length) (s k : Nat) :
    unitState (setUnit blk u s d) blk k = if k = u then s else unitState d blk k := by
  rw [unitState, setUnit, pool_modPool pooled, unitState]
  by_cases same : k = u
  · subst same
    simp [inside]
  · simp [same, Ne.symm same]

/-- A unit in some state is one of its block. -/
theorem inside_of_unitState (known : unitState d blk u ≠ 0) : u < (pool d blk).state.length := by
  by_contra beyond
  exact known (by rw [unitState, List.getElem?_eq_none (Nat.le_of_not_lt beyond)]; rfl)

theorem pool_setUnit (pooled : Pooled blk) (s : Nat) (d : Die) :
    pool (setUnit blk u s d) blk = { pool d blk with state := (pool d blk).state.set u s } := pool_modPool pooled _ d

theorem unitState_of_spareOf (spare : spareOf d blk = some v) : unitState d blk v = 2 := by
  obtain ⟨inside, two, -⟩ := List.findIdx?_eq_some_iff_getElem.mp spare
  rw [unitState, List.getElem?_eq_getElem inside]
  simpa using two

/-! ## A unit retires (R136, R137) -/

/-- Change the list of spares whose known-answer test is awaited. -/
def updSubstituting (f : List (Nat × Nat × Nat) → List (Nat × Nat × Nat)) : Die → Die :=
  updVp (fun p => { p with substituting := f p.substituting })

theorem unwritten_updSubstituting (f : List (Nat × Nat × Nat) → List (Nat × Nat × Nat)) (d : Die) :
    unwritten (updSubstituting f d) = updSubstituting f (unwritten d) := rfl

theorem updSubstituting_errs (f : List (Nat × Nat × Nat) → List (Nat × Nat × Nat)) (d : Die) :
    (updSubstituting f d).errs = d.errs := rfl

theorem unwritten_substituting (h : unwritten x = unwritten d) : x.vp.substituting = d.vp.substituting :=
  show (unwritten x).vp.substituting = (unwritten d).vp.substituting by rw [h]

theorem unwritten_field (h : unwritten x = unwritten d) (p o l : Nat) (other : fkey 0 p o l ≠ fkey 0 pDBG 0x04C 15) :
    field x p o l = field d p o l := quiet_field h p o l other

@[simp] theorem modPool_regs (blk : Nat) (f : Tiles → Tiles) (d : Die) : (modPool blk f d).regs = d.regs := by
  unfold modPool
  split <;> rfl

@[simp] theorem modPool_errs (blk : Nat) (f : Tiles → Tiles) (d : Die) : (modPool blk f d).errs = d.errs := by
  unfold modPool
  split <;> rfl

/-- A die on which a spare serves a logical unit, its known-answer test awaited. -/
def spared (blk l v : Nat) (d : Die) : Die :=
  updSubstituting (fun q => q ++ [(blk, l, v)]) (setUnit blk v 1 (modPool blk (fun t => { t with map := t.map.set l v }) d))

theorem replaceUnit_spared (spare : spareOf d blk = some v) (auto : field d (unitPage blk) 0x040 0 = 1) (l : Nat) :
    replaceUnit blk l d = recordExt 2 (blkCode (unitPage blk)) v (raise (unitPage blk) 2 (spared blk l v d)) := by
  rw [replaceUnit, spare]
  exact if_pos auto

/-- Without a spare that may follow, the pools stay as they are. -/
theorem pool_replaceUnit_unspared (none_ : spareOf d blk = none ∨ field d (unitPage blk) 0x040 0 ≠ 1) (l k : Nat) :
    pool (replaceUnit blk l d) k = pool d k := by
  have kept : quiet (replaceUnit blk l d) = quiet d := by
    unfold replaceUnit
    dsimp only
    split
    · next spare =>
      rw [if_neg (none_.resolve_left (by simp [spare]))]
      split <;> simp
    · split <;> simp
  exact pool_congr (unwritten_of_quiet kept) k

theorem pool_replaceUnit_spared (pooled : Pooled blk) (spare : spareOf d blk = some v)
    (auto : field d (unitPage blk) 0x040 0 = 1) (l : Nat) : pool (replaceUnit blk l d) blk =
      { pool d blk with map := (pool d blk).map.set l v, state := (pool d blk).state.set v 1 } := by
  rw [replaceUnit_spared spare auto, pool_congr (unwritten_recordExt _ _ _ _), pool_congr (unwritten_raise _ _ _), spared,
    updSubstituting, pool_updVp, pool_setUnit pooled, pool_modPool pooled]

/-- A unit out of service stays so while another one takes its place. -/
theorem unitState_replaceUnit (pooled : Pooled blk) (out : unitState d blk u = 3) (l : Nat) :
    unitState (replaceUnit blk l d) blk u = 3 := by
  by_cases none_ : spareOf d blk = none ∨ field d (unitPage blk) 0x040 0 ≠ 1
  · rw [unitState_congr (pool_replaceUnit_unspared none_ l blk), out]
  · obtain ⟨some_, auto⟩ := not_or.mp none_
    obtain ⟨v, spare⟩ := Option.ne_none_iff_exists'.mp some_
    have other : v ≠ u := by
      rintro rfl
      exact absurd (unitState_of_spareOf spare) (by simp [out])
    rw [unitState, pool_replaceUnit_spared pooled spare (not_not.mp auto)]
    simpa [other, unitState] using out

/-- What goes before a spare: the unit is out of service, recorded, and awaited no longer; what its group runs begins again. -/
def unserved (blk u l : Nat) (d : Die) : Die :=
  let d := recordExt 1 (blkCode (unitPage blk)) u (raise (unitPage blk) 1 (setUnit blk u 3 d))
  let d := updSubstituting (fun l => l.filter (fun q => !(q.1 == blk && q.2.2 == u))) d
  if blk = 12 then d else rollback (pipe d (l / perPipe blk)).lead d

theorem unwritten_unserved (blk u l : Nat) (d : Die) : unwritten (unserved blk u l d) =
    updSubstituting (fun l => l.filter (fun q => !(q.1 == blk && q.2.2 == u))) (unwritten (setUnit blk u 3 d)) := by
  unfold unserved
  extract_lets e x
  have again : quiet (if blk = 12 then x else rollback (pipe x (l / perPipe blk)).lead x) = quiet x := by
    split <;> simp
  rw [unwritten_of_quiet again, unwritten_updSubstituting, unwritten_recordExt, unwritten_raise]

theorem pool_unserved (pooled : Pooled blk) (u l : Nat) (d : Die) :
    pool (unserved blk u l d) blk = { pool d blk with state := (pool d blk).state.set u 3 } := by
  rw [← pool_unwritten, unwritten_unserved, updSubstituting, pool_updVp, pool_unwritten, pool_setUnit pooled]

theorem unserved_field (u l off : Nat) (d : Die) (lo : Nat)
    (other : fkey 0 (unitPage blk) off lo ≠ fkey 0 pDBG 0x04C 15) :
    field (unserved blk u l d) (unitPage blk) off lo = field d (unitPage blk) off lo := by
  rw [unwritten_field ((unwritten_unserved blk u l d).trans (unwritten_updSubstituting _ _).symm) _ _ _ other]
  simp [field, fieldSel, updSubstituting, setUnit]

theorem logicalOf_setUnit (pooled : Pooled blk) (s k : Nat) : logicalOf (setUnit blk u s d) blk k = logicalOf d blk k := by
  rw [logicalOf, pool_setUnit pooled, logicalOf]

theorem retireUnit_serving {l : Nat} (pooled : Pooled blk) (one : unitState d blk u = 1) (serves : logicalOf d blk u = some l) :
    retireUnit blk u d = replaceUnit blk l (unserved blk u l d) := by
  have named : logicalOf (recordExt 1 (blkCode (unitPage blk)) u (raise (unitPage blk) 1 (setUnit blk u 3 d))) blk u = some l := by
    rw [logicalOf, pool_congr (unwritten_recordExt _ _ _ _), pool_congr (unwritten_raise _ _ _), ← logicalOf,
      logicalOf_setUnit pooled, serves]
  unfold retireUnit
  dsimp only
  rw [one, if_pos (.inl rfl), named]
  rfl

/-- A unit that is active or spare and retires is out of service. -/
theorem unitState_retireUnit (pooled : Pooled blk) (serving : unitState d blk u = 1 ∨ unitState d blk u = 2) :
    unitState (retireUnit blk u d) blk u = 3 := by
  have inside : u < (pool d blk).state.length := inside_of_unitState (by omega)
  have out : unitState (recordExt 1 (blkCode (unitPage blk)) u (raise (unitPage blk) 1 (setUnit blk u 3 d))) blk u = 3 := by
    rw [unitState_congr (pool_congr (unwritten_recordExt _ _ _ _) _), unitState_congr (pool_congr (unwritten_raise _ _ _) _),
      unitState_setUnit pooled inside, if_pos rfl]
  have unservedOut (l : Nat) : unitState (unserved blk u l d) blk u = 3 := by
    rw [unitState, pool_unserved pooled]
    simp [inside]
  unfold retireUnit
  dsimp only
  rw [if_pos serving]
  split
  · exact unitState_replaceUnit pooled (unservedOut _) _
  · exact out

/-- Moving the work of a core changes no unit's state. -/
theorem unitState_moveWork (c : Nat) (d : Die) (u : Nat) : unitState (moveWork c d) 13 u = unitState d 13 u := by
  unfold moveWork
  extract_lets works
  clear_value works
  induction works generalizing d with
  | nil => rfl
  | cons w r ih =>
    rw [List.foldl_cons, ih]
    extract_lets h x
    have kept : quiet (if h = 8 then (if w < 6 then pipeLost 13 w x else raise pSHK 4 x) else raise pSHK 2 x) = quiet x := by
      split
      · split <;> simp
      · simp
    rw [unitState_congr (pool_congr (unwritten_of_quiet kept) 13), unitState, pool_modPool (by simp [Pooled]), unitState]

/-- A Keccak core that is active and retires is out of service. -/
theorem unitState_retireCore (one : unitState d 13 u = 1) : unitState (retireCore u d) 13 u = 3 := by
  unfold retireCore
  rw [if_pos one, unitState_moveWork, unitState_congr (pool_congr (unwritten_of_quiet (quiet_rerunServed _ _)) 13),
    unitState_congr (pool_congr (unwritten_recordExt _ _ _ _) 13), unitState_congr (pool_congr (unwritten_raise _ _ _) 13),
    unitState_setUnit (by simp [Pooled]) (inside_of_unitState (by omega)), if_pos rfl]

/-! ## A spare takes the place of a unit (R137) -/

protected theorem Reported.recordExt {page bit kind engine index : Nat} (h : Reported page bit d) :
    Reported page bit (recordExt kind engine index d) := .ite (.raise h) (h.same rfl)

protected theorem Reported.rollback {page bit lead : Nat} (h : Reported page bit d) :
    Reported page bit (rollback lead d) := by
  unfold rollback
  extract_lets run e
  have he : Reported page bit e := .foldl (fun _ _ hd => hd.same rfl) h
  exact he.same rfl

theorem unitPage_present (pooled : Pooled blk) (d : Die) : pageAbsent d (unitPage blk) = false := by
  unfold Pooled at pooled
  fin_cases pooled <;> rfl

theorem unitPage_bits (pooled : Pooled blk) :
    (sevOf (unitPage blk) 1).isSome = true ∧ (sevOf (unitPage blk) 2).isSome = true := by
  unfold Pooled at pooled
  fin_cases pooled <;> decide

/-- The configuration of a block's units is no arming of the debug log. -/
theorem unitPage_config (pooled : Pooled blk) : fkey 0 (unitPage blk) 0x040 0 ≠ fkey 0 pDBG 0x04C 15 := by
  unfold Pooled at pooled
  fin_cases pooled <;> decide

/-- A spare has taken the place of a unit: the unit is out of service, the spare serves, both are reported, and the spare's
known-answer test is awaited. -/
structure Substituted (blk u l v : Nat) (x : Die) : Prop where
  out : unitState x blk u = 3
  serves : unitState x blk v = 1
  logical : logicalOf x blk v = some l
  retired : errSet x (unitPage blk) 1 = true
  spared : errSet x (unitPage blk) 2 = true
  awaited : (blk, l, v) ∈ x.vp.substituting

theorem findIdx?_set_of_absent {l : List Nat} {i v : Nat} (inside : i < l.length)
    (absent : l.findIdx? (fun p => p == v) = none) : (l.set i v).findIdx? (fun p => p == v) = some i := by
  rw [List.findIdx?_eq_some_iff_getElem]
  refine ⟨by simpa using inside, by simp, fun j before => ?_⟩
  have other := List.findIdx?_eq_none_iff.mp absent l[j] (List.getElem_mem _)
  simpa [List.getElem_set, (Nat.ne_of_lt before).symm] using other

/-- A unit that retires is none of the spares, so that the lowest of them stays the lowest. -/
theorem findIdx?_two_set_three {l : List Nat} {u v : Nat} (one : l[u]? = some 1)
    (spare : l.findIdx? (fun s => s == 2) = some v) : (l.set u 3).findIdx? (fun s => s == 2) = some v := by
  obtain ⟨inside, two, first⟩ := List.findIdx?_eq_some_iff_getElem.mp spare
  have other : u ≠ v := by
    rintro rfl
    simp [List.getElem?_eq_getElem inside] at one
    simp [one] at two
  refine List.findIdx?_eq_some_iff_getElem.mpr ⟨by simpa using inside, by simpa [other] using two, fun j before => ?_⟩
  rw [List.getElem_set]
  split
  · decide
  · exact first j before

theorem reported_unserved (pooled : Pooled blk) (u l : Nat) (d : Die) :
    Reported (unitPage blk) 1 (unserved blk u l d) := by
  unfold unserved
  extract_lets e x
  have recorded : Reported (unitPage blk) 1 e :=
    .recordExt (reported_raise (unitPage_present pooled _) (unitPage_bits pooled).1)
  have awaited : Reported (unitPage blk) 1 x := recorded.same (updSubstituting_errs _ _)
  exact .ite awaited (.rollback awaited)

theorem substituted_of_retireUnit {l : Nat} (pooled : Pooled blk) (one : unitState d blk u = 1)
    (serves : logicalOf d blk u = some l) (spare : spareOf d blk = some v) (auto : field d (unitPage blk) 0x040 0 = 1)
    (free : logicalOf d blk v = none) : Substituted blk u l v (retireUnit blk u d) := by
  have two := unitState_of_spareOf spare
  have other : u ≠ v := by
    rintro rfl
    omega
  have insideU := inside_of_unitState (d := d) (blk := blk) (u := u) (by omega)
  have insideV := inside_of_unitState (d := d) (blk := blk) (u := v) (by omega)
  obtain ⟨insideL, -⟩ := List.findIdx?_eq_some_iff_getElem.mp serves
  have spare' : spareOf (unserved blk u l d) blk = some v := by
    rw [spareOf, pool_unserved pooled]
    exact findIdx?_two_set_three (by simpa [unitState, insideU] using one) spare
  have auto' : field (unserved blk u l d) (unitPage blk) 0x040 0 = 1 := by
    rw [unserved_field u l 0x040 d 0 (unitPage_config pooled), auto]
  have pools : pool (retireUnit blk u d) blk = { pool d blk with
      map := (pool d blk).map.set l v, state := ((pool d blk).state.set u 3).set v 1 } := by
    rw [retireUnit_serving pooled one serves, pool_replaceUnit_spared pooled spare' auto', pool_unserved pooled]
  obtain ⟨bit1, bit2⟩ := unitPage_bits pooled
  have reported := reported_unserved pooled u l d
  have reported' : Reported (unitPage blk) 1 (spared blk l v (unserved blk u l d)) :=
    reported.same (by simp [Machine.spared, updSubstituting_errs, setUnit])
  refine ⟨?_, ?_, ?_, ?_, ?_, ?_⟩
  · rw [unitState, pools]
    simp [other.symm, insideU]
  · rw [unitState, pools]
    simp [insideV]
  · rw [logicalOf, pools]
    exact findIdx?_set_of_absent insideL free
  · rw [retireUnit_serving pooled one serves, replaceUnit_spared spare' auto']
    exact Reported.recordExt (.raise reported')
  · rw [retireUnit_serving pooled one serves, replaceUnit_spared spare' auto']
    exact Reported.recordExt (reported_raise (unitPage_present pooled _) bit2)
  · rw [retireUnit_serving pooled one serves, replaceUnit_spared spare' auto',
      unwritten_substituting (unwritten_recordExt _ _ _ _), unwritten_substituting (unwritten_raise _ _ _)]
    exact List.mem_append_right _ (List.mem_singleton.mpr rfl)

theorem substitutionDone_passed {l : Nat} (awaited : (blk, l, v) ∈ d.vp.substituting) :
    substitutionDone blk v true d = updSubstituting (fun l => l.filter (fun q => !(q.1 == blk && q.2.2 == v))) d := by
  have named : d.vp.substituting.any (fun q => q.1 == blk && q.2.2 == v) = true :=
    List.any_eq_true.mpr ⟨_, awaited, by simp⟩
  rw [substitutionDone, if_pos named]
  rfl

theorem updSubstituting_ended (k : Nat) :
    (blk, k, v) ∉ (updSubstituting (fun l => l.filter (fun q => !(q.1 == blk && q.2.2 == v))) d).vp.substituting := by
  simp [updSubstituting]

/-! ## Commanded tests (R273) -/

theorem queueTest_queues (blk u : Nat) (d : Die) : let x := queueTest blk u d
    (testLead d blk u, blk, u) ∈ x.cad.tests ∧ x = { d with cad := { d.cad with tests := x.cad.tests } } ∧
      ((testLead d blk u, blk, u) ∈ d.cad.tests → x = d) := by
  by_cases queued : (testLead d blk u, blk, u) ∈ d.cad.tests
  · have same : queueTest blk u d = d := if_pos (by simpa using queued)
    rw [same]
    exact ⟨queued, rfl, fun _ => rfl⟩
  · have added : queueTest blk u d = updCad (fun c => { c with tests := c.tests ++ [(testLead d blk u, blk, u)] }) d :=
      if_neg (by simpa using queued)
    rw [added]
    exact ⟨List.mem_append_right _ (List.mem_singleton.mpr rfl), rfl, fun h => absurd h queued⟩

/-! ## The commands -/

/-- What a commanded retirement does to a die. -/
def retireNamed (blk u : Nat) (d : Die) : Die := if blk = 13 then retireCore u d else retireUnit blk u d

theorem unitCommands_run {s : State} {d : DieId} {tile : BitVec 5} {unit : BitVec 9} {cor : BitVec 3} {blk u : Nat}
    {r t : Instr} (command : (blk, u, r, t) ∈ [(8, min 19 tile.toNat, Instr.resCmdRetire d tile, Instr.resCmdSelfTest d tile),
      (9, min 25 tile.toNat, .bndCmdRetire d tile, .bndCmdSelfTest d tile),
      (10, min 25 tile.toNat, .nleCmdRetire d tile, .nleCmdSelfTest d tile),
      (11, min 25 tile.toNat, .cweCmdRetire d tile, .cweCmdSelfTest d tile),
      (12, unit.toNat, .sntCmdRetire d unit, .sntCmdSelfTest d unit),
      (13, cor.toNat, .shkCmdRetire d cor, .shkCmdSelfTest d cor)]) :
    Pooled blk ∧ RunsTo r s d (retireNamed blk u (s.die d)) ∧ RunsTo t s d (queueTest blk u (s.die d)) := by
  simp only [List.mem_cons, List.not_mem_nil, or_false, Prod.mk.injEq] at command
  rcases command with ⟨rfl, rfl, rfl, rfl⟩ | ⟨rfl, rfl, rfl, rfl⟩ | ⟨rfl, rfl, rfl, rfl⟩ | ⟨rfl, rfl, rfl, rfl⟩ |
    ⟨rfl, rfl, rfl, rfl⟩ | ⟨rfl, rfl, rfl, rfl⟩
  all_goals exact ⟨by simp [Pooled], rfl, rfl⟩

theorem RunsTo.spareSubstitutionDone {s : State} {d : DieId} {unitBlk : BitVec 5} {unit : BitVec 9} {passed : Bool} :
    RunsTo (.spareSubstitutionDone d unitBlk unit passed) s d (substitutionDone unitBlk.toNat unit.toNat passed (s.die d)) := rfl

theorem unitsRetireAndAreTested : Claim.UnitsRetireAndAreTested := by
  intro s d tile unit cor blk u r t command
  obtain ⟨pooled, retires, tests⟩ := unitCommands_run (s := s) command
  refine ⟨fun serving => ⟨_, retires, ?_⟩, fun n v one notCore serves spare auto free small => ?_, ⟨_, tests, queueTest_queues _ _ _⟩⟩
  · unfold retireNamed
    split
    · next core =>
      subst core
      exact unitState_retireCore (serving.resolve_right fun h => h.2 rfl)
    · exact unitState_retireUnit pooled (serving.imp_right And.left)
  · have named : retireNamed blk u (s.die d) = retireUnit blk u (s.die d) := if_neg notCore
    have done := substituted_of_retireUnit pooled one serves spare auto free
    rw [named] at retires
    refine ⟨_, retires, done.out, done.serves, done.logical, done.retired, done.spared, done.awaited, _, ?_,
      updSubstituting_ended (d := retireUnit blk u (s.die d)), ?_⟩
    · have code : (BitVec.ofNat 5 blk).toNat = blk := Nat.mod_eq_of_lt (pooled_lt pooled)
      have number : (BitVec.ofNat 9 v).toNat = v := Nat.mod_eq_of_lt small
      have runs := RunsTo.spareSubstitutionDone (s := s.setDie d (retireUnit blk u (s.die d))) (d := d)
        (unitBlk := BitVec.ofNat 5 blk) (unit := BitVec.ofNat 9 v) (passed := true)
      rw [State.die_setDie_same, code, number, substitutionDone_passed done.awaited] at runs
      exact runs
    · rw [updSubstituting, unitState_congr (pool_updVp _ _ _), done.serves]

/-- Settles O53, by the two halves: units with their spares and tests, and groups with their members. -/
theorem unitsAndGroupsInService : Obligations.UnitsAndGroupsInService :=
  ⟨unitsRetireAndAreTested, groupsRetireAndResynchronise⟩

end

end Sys2Proof.Machine
end

section
/-! SUPPORT. Self-tests, rebuild spans and Sentinel runs, and O19. -/

namespace Sys2Proof.Machine

section
variable {d : Die} {e : TtEntry} {i : Nat}

/-! ## What an entry's beginning leaves (R26, R272) -/

theorem turnPeriod_parts (cut : Bool) (d : Die) : ∃ q c r l, turnPeriod cut d =
    { d with sealing := q, regs := { d.regs with cnt := c }, errs := r, fcu := { d.fcu with pend := l } } := by
  have started (x : Die) : ∃ q r l, startPeriod x = { x with sealing := q, errs := r, fcu := { x.fcu with pend := l } } := by
    unfold startPeriod
    extract_lets p stretched x'
    split
    · obtain ⟨r, l, raised⟩ := raise_parts pSIG 5 x'
      exact ⟨x'.sealing, r, l, raised⟩
    · exact ⟨x'.sealing, x.errs, x.fcu.pend, rfl⟩
  have closed : ∃ q c, closePeriod cut d = { d with sealing := q, regs := { d.regs with cnt := c } } := by
    unfold closePeriod
    dsimp only
    split
    · exact ⟨_, _, rfl⟩
    · exact ⟨d.sealing, d.regs.cnt, rfl⟩
  unfold turnPeriod
  split
  · obtain ⟨q, c, closed⟩ := closed
    obtain ⟨q', r, l, started⟩ := started (closePeriod cut d)
    exact ⟨q', c, r, l, by rw [started, closed]⟩
  · exact ⟨d.sealing, d.regs.cnt, d.errs, d.fcu.pend, rfl⟩

/-- A die without what time that passes changes: its clocks, its seal periods, and what their ends count and report. -/
def stilled (d : Die) : Die :=
  { d with tim := {}, sealing := {}, regs := { d.regs with cnt := [] }, errs := [], fcu := { d.fcu with pend := [] } }

theorem stilled_updTim (f : Tim → Tim) (d : Die) : stilled (updTim f d) = stilled d := rfl

theorem stilled_turnPeriod (cut : Bool) (d : Die) : stilled (turnPeriod cut d) = stilled d := by
  obtain ⟨q, c, r, l, turned⟩ := turnPeriod_parts cut d
  rw [turned]
  rfl

theorem stilled_sealsWithin (advance : Nat → Tim → Tim) (k n : Nat) (d : Die) :
    stilled (sealsWithin advance k n d) = stilled d := by
  induction k generalizing n d with
  | zero => rfl
  | succ k ih =>
    unfold sealsWithin
    split
    · rw [ih, stilled_turnPeriod, stilled_updTim]
    · rfl

theorem stilled_passSealed (n : Nat) (d : Die) : stilled (passSealed n d) = stilled d := by
  have due : stilled (turnDue d) = stilled d := by
    unfold turnDue
    split
    · exact stilled_turnPeriod _ _
    · rfl
  rw [passSealed, stilled_updTim, stilled_sealsWithin, due]

theorem stilled_peak (p off v : Nat) (d : Die) : stilled (peak p off v d) = stilled d := rfl

theorem stilled_beginEntry (e : TtEntry) (d : Die) : stilled (beginEntry e d) = stilled d := by
  rw [beginEntry, stilled_peak, toCycle, stilled_passSealed]

section
variable {x : Die} (same : stilled x = stilled d)
include same

theorem stilled_vp : x.vp = d.vp := show (stilled x).vp = (stilled d).vp by rw [same]
theorem stilled_cad : x.cad = d.cad := show (stilled x).cad = (stilled d).cad by rw [same]
theorem stilled_adm : x.adm = d.adm := show (stilled x).adm = (stilled d).adm by rw [same]
theorem stilled_wrd : x.wrd = d.wrd := show (stilled x).wrd = (stilled d).wrd by rw [same]
theorem stilled_sntb : x.sntb = d.sntb := show (stilled x).sntb = (stilled d).sntb by rw [same]
theorem stilled_snt : x.snt = d.snt := show (stilled x).snt = (stilled d).snt by rw [same]

end

@[simp] theorem beginEntry_vp (e : TtEntry) (d : Die) : (beginEntry e d).vp = d.vp :=
  stilled_vp (stilled_beginEntry e d)
@[simp] theorem beginEntry_cad (e : TtEntry) (d : Die) : (beginEntry e d).cad = d.cad :=
  stilled_cad (stilled_beginEntry e d)
@[simp] theorem beginEntry_adm (e : TtEntry) (d : Die) : (beginEntry e d).adm = d.adm :=
  stilled_adm (stilled_beginEntry e d)
@[simp] theorem beginEntry_wrd (e : TtEntry) (d : Die) : (beginEntry e d).wrd = d.wrd :=
  stilled_wrd (stilled_beginEntry e d)
@[simp] theorem beginEntry_sntb (e : TtEntry) (d : Die) : (beginEntry e d).sntb = d.sntb :=
  stilled_sntb (stilled_beginEntry e d)
@[simp] theorem beginEntry_snt (e : TtEntry) (d : Die) : (beginEntry e d).snt = d.snt :=
  stilled_snt (stilled_beginEntry e d)

/-! ## Self-tests (R273) -/

theorem rotation_congr {x : Die} (vp : x.vp = d.vp) (lead : Nat) : rotation x lead = rotation d lead := by
  have pairing : pairingOf x lead = pairingOf d lead := by
    rw [pairingOf, vp, members_congr (wiring_of_vp vp), pairingOf]
  rw [rotation, pairing, rotation]

/-- Cycle of the slot from which a self-test counts that begins now. -/
def testNow (e : TtEntry) (y : Die) : Nat := max e.start (cyclesSince y (slotBegin y))

/-- The self-test of an entry fits what is left of its span and of the slot. -/
def TestFits (e : TtEntry) (lead : Nat) (y : Die) : Prop :=
  spanPast e y = false ∧ testNow e y + e.len ≤ testLimit y lead (testNow e y)

/-- A span that runs, with no test skipped behind it. -/
def testBegun (i lead : Nat) (e : TtEntry) (y : Die) : Die :=
  addSpan i lead e (updCad (fun c => { c with skips := mset c.skips lead 0 }) y)

/-- The next item of a group is taken: a commanded one, or else the next of the rotation. -/
def itemTaken (lead : Nat) (y : Die) : Die :=
  match y.cad.tests.find? (fun t => t.1 == lead) with
  | some t => updCad (fun c => { c with tests := c.tests.erase t }) y
  | none =>
    let k := mgetD y.cad.rot lead 0 % (rotation y lead).length
    updCad (fun c => { c with rot := mset c.rot lead (k + 1) }) y

theorem itemTaken_of_commanded {lead : Nat} {t : Nat × Nat × Nat} (next : d.cad.tests.find? (fun t => t.1 == lead) = some t) :
    itemTaken lead d = updCad (fun c => { c with tests := c.tests.erase t }) d := by
  rw [itemTaken, next]

theorem itemTaken_of_none {lead : Nat} (next : d.cad.tests.find? (fun t => t.1 == lead) = none) :
    itemTaken lead d = updCad (fun c => { c with
      rot := mset c.rot lead (mgetD d.cad.rot lead 0 % (rotation d lead).length + 1) }) d := by
  rw [itemTaken, next]

theorem testBegun_cad (i lead : Nat) (e : TtEntry) (y : Die) : ∃ u, (testBegun i lead e y).cad =
    { y.cad with spans := y.cad.spans ++ [(lead, i, u)], skips := mset y.cad.skips lead 0 } := ⟨_, rfl⟩
theorem testBegun_vp (i lead : Nat) (e : TtEntry) (y : Die) : (testBegun i lead e y).vp = y.vp := rfl
theorem testBegun_tim (i lead : Nat) (e : TtEntry) (y : Die) : (testBegun i lead e y).tim = y.tim := rfl

theorem selfTest_of_busy {passed : Bool} {unit : Nat} {pts : List PointFault} (now : entryNow d i 4 = some e)
    (busy : groupBusy d (pipe d e.group).lead = true) : selfTest i passed unit pts d = d := by
  simp [selfTest, now, busy]

section
variable {lead : Nat} (own : (pipe d e.group).lead = lead) (now : entryNow d i 4 = some e) (led : leads d lead = true)
  (free : groupBusy d lead = false) (unit : Nat)
include own now led free

/-- A test that passes leaves the die with its span and with the next item taken. -/
theorem selfTest_fits (fits : TestFits e lead (beginEntry e d)) :
    selfTest i true unit [] d = itemTaken lead (testBegun i lead e (beginEntry e d)) := by
  obtain ⟨past, within_⟩ := fits
  have skips : (spanPast e (beginEntry e d) || decide (testNow e (beginEntry e d) + e.len >
      testLimit (beginEntry e d) lead (testNow e (beginEntry e d)))) = false := by
    simpa [past] using within_
  unfold selfTest
  rw [now]
  dsimp only
  rw [own, free, led, if_neg (by simp)]
  unfold testNow at skips
  rw [skips, if_neg (by simp)]
  rfl

theorem selfTest_skips (passed : Bool) (unfit : ¬TestFits e lead (beginEntry e d)) :
    selfTest i passed unit [] d = skipTest lead (beginEntry e d) := by
  have skips : (spanPast e (beginEntry e d) || decide (testNow e (beginEntry e d) + e.len >
      testLimit (beginEntry e d) lead (testNow e (beginEntry e d)))) = true := by
    by_contra run
    exact unfit (by simpa [TestFits] using run)
  unfold selfTest
  rw [now]
  dsimp only
  rw [own, free, led, if_neg (by simp)]
  unfold testNow at skips
  rw [skips, if_pos rfl]

/-- A test that fits and passes takes its span and the next item, a commanded one first. -/
theorem selfTest_takes_item (fits : TestFits e lead (beginEntry e d)) : ∃ x u, selfTest i true unit [] d = x ∧
    x.tim = (beginEntry e d).tim ∧ x.cad.spans = d.cad.spans ++ [(lead, i, u)] ∧ mgetD x.cad.skips lead 0 = 0 ∧ x.vp = d.vp ∧
      (∀ t, d.cad.tests.find? (fun t => t.1 == lead) = some t → x.cad.tests = d.cad.tests.erase t ∧ x.cad.rot = d.cad.rot) ∧
      (d.cad.tests.find? (fun t => t.1 == lead) = none → x.cad.tests = d.cad.tests ∧
        mgetD x.cad.rot lead 0 = mgetD d.cad.rot lead 0 % (rotation d lead).length + 1) := by
  rw [selfTest_fits own now led free unit fits]
  have begun := testBegun_cad i lead e (beginEntry e d)
  rw [beginEntry_cad] at begun
  have vp := (testBegun_vp i lead e (beginEntry e d)).trans (beginEntry_vp e d)
  have tim := testBegun_tim i lead e (beginEntry e d)
  generalize testBegun i lead e (beginEntry e d) = y at *
  obtain ⟨u, cad⟩ := begun
  refine ⟨_, u, rfl, ?_⟩
  cases next_ : d.cad.tests.find? (fun t => t.1 == lead) with
  | some t =>
    rw [itemTaken_of_commanded (d := y) (by rw [cad, next_])]
    refine ⟨(updCad_tim _ _).trans tim, ?_, ?_, (updCad_vp _ _).trans vp, ?_, nofun⟩
    · rw [updCad_cad, cad]
    · rw [updCad_cad, cad, mgetD_mset_same]
    · rintro _ ⟨⟩
      exact ⟨by rw [updCad_cad, cad], by rw [updCad_cad, cad]⟩
  | none =>
    rw [itemTaken_of_none (d := y) (by rw [cad, next_])]
    refine ⟨(updCad_tim _ _).trans tim, ?_, ?_, (updCad_vp _ _).trans vp, nofun, fun _ => ⟨?_, ?_⟩⟩
    · rw [updCad_cad, cad]
    · rw [updCad_cad, cad, mgetD_mset_same]
    · rw [updCad_cad, cad]
    · rw [updCad_cad, mgetD_mset_same, rotation_congr vp, cad]

end

/-- The group of a lead has skipped one test more. -/
def testSkipped (lead : Nat) (d : Die) : Die :=
  count pCAD 0x084 (updCad (fun c => { c with skips := mset c.skips lead (mgetD d.cad.skips lead 0 + 1) }) d)

/-- A test that is skipped is counted, and reported: the third one in a row otherwise than those before. -/
theorem skipTest_of_few {lead : Nat} (few : mgetD d.cad.skips lead 0 ≤ 2) :
    skipTest lead d = raise pCAD (if mgetD d.cad.skips lead 0 = 2 then 2 else 1) (testSkipped lead d) := by
  unfold skipTest
  by_cases third : mgetD d.cad.skips lead 0 = 2
  · rw [if_pos third, third]
    rw [testSkipped, third]
    rfl
  · rw [if_neg third]
    exact if_pos (by omega)

theorem testSkipped_parts (lead : Nat) (d : Die) : (testSkipped lead d).tim = d.tim ∧ (testSkipped lead d).vp = d.vp ∧
    (testSkipped lead d).cad = { d.cad with skips := mset d.cad.skips lead (mgetD d.cad.skips lead 0 + 1) } := ⟨rfl, rfl, rfl⟩

/-- A test that does not fit is skipped, counted and reported. -/
theorem selfTest_skipped {lead : Nat} (own : (pipe d e.group).lead = lead) (now : entryNow d i 4 = some e)
    (led : leads d lead = true) (free : groupBusy d lead = false) (unit : Nat) (passed : Bool)
    (unfit : ¬TestFits e lead (beginEntry e d)) (few : mgetD d.cad.skips lead 0 ≤ 2) :
    ∃ x, selfTest i passed unit [] d = x ∧ x.tim = (beginEntry e d).tim ∧
      x.cad = { d.cad with skips := mset d.cad.skips lead (mgetD d.cad.skips lead 0 + 1) } ∧ x.vp = d.vp ∧
      errSet x pCAD (if mgetD d.cad.skips lead 0 = 2 then 2 else 1) = true := by
  obtain ⟨tim, vp, cad⟩ := testSkipped_parts lead (beginEntry e d)
  have few' : mgetD (beginEntry e d).cad.skips lead 0 ≤ 2 := by rwa [beginEntry_cad]
  rw [beginEntry_vp] at vp
  refine ⟨_, (selfTest_skips own now led free unit passed unfit).trans (skipTest_of_few few'), ?_, ?_, ?_, ?_⟩
  · rw [raise_tim, tim]
  · rw [raise_cad, cad, beginEntry_cad]
  · rw [raise_vp, vp]
  · rw [beginEntry_cad]
    refine errSet_raise _ _ _ rfl ?_
    split <;> decide

/-! ## Rebuild spans (R107, R138) -/

theorem rebuild_of_busy {ecc : Bool} {pts : List PointFault} (now : entryNow d i 5 = some e)
    (busy : groupBusy d (pipe d e.group).lead = true) : rebuild i ecc pts d = d := by
  simp [rebuild, now, busy]

section
variable {lead : Nat} (own : (pipe d e.group).lead = lead) (now : entryNow d i 5 = some e) (led : leads d lead = true)
  (free : groupBusy d lead = false) (left : spanPast e (beginEntry e d) = false)
include own now led free left

theorem rebuild_runs (ecc : Bool) : rebuild i ecc [] d =
    match d.adm.stream, model d e.target with
    | some st, some m =>
      if st.slot = e.target ∧ m.turn ≠ some .rpmb then buildSpan st m ecc (addSpan i lead e (beginEntry e d))
      else addSpan i lead e (beginEntry e d)
    | _, _ => addSpan i lead e (beginEntry e d) := by
  have adm : (addSpan i lead e (beginEntry e d)).adm = d.adm := (updCad_adm _ _).trans (beginEntry_adm e d)
  unfold rebuild
  rw [now]
  dsimp only
  rw [own, free, led, if_neg (by simp), left, if_neg (by simp), ← adm, ← model_congr adm]
  rfl

/-- The span works on the stream of its model. -/
theorem rebuild_builds {st : Stream} {m : Model} (ecc : Bool) (stream : d.adm.stream = some st) (its : st.slot = e.target)
    (admitted : model d e.target = some m) (begun : m.turn ≠ some .rpmb) :
    rebuild i ecc [] d = buildSpan st m ecc (addSpan i lead e (beginEntry e d)) := by
  rw [rebuild_runs own now led free left, stream, admitted]
  exact if_pos ⟨its, begun⟩

/-- The span runs empty where the stream is another model's. -/
theorem rebuild_idles {st : Stream} (ecc : Bool) (stream : d.adm.stream = some st) (other : st.slot ≠ e.target) :
    rebuild i ecc [] d = addSpan i lead e (beginEntry e d) := by
  rw [rebuild_runs own now led free left, stream]
  cases model d e.target with
  | none => rfl
  | some m => exact if_neg fun h => other h.1

end

theorem addSpan_parts (i lead : Nat) (e : TtEntry) (d : Die) : (addSpan i lead e d).tim = d.tim ∧
    (addSpan i lead e d).adm = d.adm ∧ (addSpan i lead e d).wrd = d.wrd ∧ (addSpan i lead e d).sntb = d.sntb ∧
    ∃ u, (addSpan i lead e d).cad.spans = d.cad.spans ++ [(lead, i, u)] := ⟨rfl, rfl, rfl, rfl, _, rfl⟩

/-! ### No message and no stream's end clears a BLK_ERR bit -/

section
variable {page bit : Nat}

protected theorem Reported.peerDrop (h : Reported page bit d) : Reported page bit (peerDrop d) := .raise (h.same rfl)

protected theorem Reported.leave {w v} (h : Reported page bit d) : Reported page bit (leave w v d) := by
  unfold leave
  split
  · split
    · split <;> exact h.same rfl
    · split <;> exact h.same rfl
  · exact .ite (.peerDrop h) h

protected theorem Reported.serve {u k s} (h : Reported page bit d) : Reported page bit (serve u k s d) := by
  induction k generalizing s d with
  | zero => exact h
  | succ k ih =>
    unfold serve
    split
    · exact h
    · split
      · split
        · exact ih (.leave (h.same rfl))
        · exact h
      · split
        · exact ih h
        · exact h

protected theorem Reported.flushEgress (h : Reported page bit d) : Reported page bit (flushEgress d) := by
  unfold flushEgress
  split
  · exact .ite (.serve (Reported.same (.serve h) rfl)) (.serve h)
  · exact .serve h

protected theorem Reported.replicate {cls b} (h : Reported page bit d) : Reported page bit (replicate cls b d) := by
  unfold replicate
  extract_lets seq d1 d2
  have h1 : Reported page bit d1 := h.same rfl
  have h2 : Reported page bit d2 := .ite (h1.same rfl) (.peerDrop h1)
  exact .ite (h2.same rfl) (.peerDrop h2)

protected theorem Reported.sendRaw {cls b} (h : Reported page bit d) : Reported page bit (sendRaw cls b d) :=
  .ite (.ite (.flushEgress (.replicate h)) (.ite (.flushEgress (h.same rfl)) h)) h

protected theorem Reported.sendEvent {code data} (h : Reported page bit d) : Reported page bit (sendEvent code data d) := by
  refine .foldl (fun d s hd => ?_) h
  unfold sendFrame
  split
  · exact hd
  · exact .sendRaw (hd.same rfl)

@[simp] theorem releaseExtents_errs (k o : Nat) (d : Die) : (releaseExtents k o d).errs = d.errs := rfl
@[simp] theorem dropTag_errs (k o : Nat) (d : Die) : (dropTag k o d).errs = d.errs := rfl

@[simp] theorem stopStream_errs (slot : Nat) (d : Die) : (stopStream slot d).errs = d.errs := by
  unfold stopStream
  split
  · split <;> rfl
  · rfl

@[simp] theorem freeSlot_errs (slot : Nat) (d : Die) : (freeSlot slot d).errs = d.errs := by simp [freeSlot]

protected theorem Reported.reportSlot {slot code} (h : Reported page bit d) : Reported page bit (reportSlot slot code d) :=
  .sendEvent (h.same rfl)

protected theorem Reported.endAdmission {slot code first} (h : Reported page bit d) :
    Reported page bit (endAdmission slot code first d) := by
  unfold endAdmission
  split
  · exact h
  · have freed : Reported page bit (Machine.reportSlot slot code (Machine.freeSlot slot d)) := .reportSlot (h.same (freeSlot_errs _ _))
    refine .ite ?_ freed
    unfold tellRefusal
    extract_lets x y
    have hx : Reported page bit x := freed.same rfl
    have hy : Reported page bit y := .ite (hx.same rfl) hx
    exact hy.same rfl

protected theorem Reported.finishAbandoned {slot} (h : Reported page bit d) : Reported page bit (finishAbandoned slot d) := by
  unfold finishAbandoned
  split
  · split
    · exact .ite h (.reportSlot (Reported.same (.foldl (fun _ _ => .retireChan) h) (freeSlot_errs _ _)))
    · exact h
  · exact h

protected theorem Reported.abandonTurn {slot code} (h : Reported page bit d) : Reported page bit (abandonTurn slot code d) :=
  .finishAbandoned ((h.same (stopStream_errs slot d)).same rfl)

protected theorem Reported.failStream {slot code} (h : Reported page bit d) : Reported page bit (failStream slot code d) := by
  unfold failStream
  split
  · exact .ite (.abandonTurn h) (.endAdmission h)
  · exact h

protected theorem Reported.requestStream {slot turn} (h : Reported page bit d) :
    Reported page bit (requestStream slot turn d) := by
  unfold requestStream
  split
  · exact h
  · exact .ite (h.same rfl) (.raiseRat (h.same rfl))

/-- An uncorrectable word of a build buffer leaves what is reported reported. -/
protected theorem Reported.tableHit {slot} (h : Reported page bit d) : Reported page bit (tableHit slot d) := by
  unfold tableHit
  split
  · exact h
  · exact .ite h (.ite (.failStream h) (.ite (.requestStream (h.same rfl)) (h.same rfl)))

end

theorem buildPage_present (m : Model) (tensor : Nat) (d : Die) : pageAbsent d (buildPage m tensor) = false := by
  unfold buildPage
  split <;> rfl

theorem buildPage_ecc (m : Model) (tensor : Nat) : (sevOf (buildPage m tensor) 5).isSome = true := by
  unfold buildPage
  split <;> decide

theorem buildSpan_reports (st : Stream) (m : Model) (d : Die) : errSet (buildSpan st m true d) (buildPage m st.tensor) 5 = true :=
  Reported.tableHit (reported_raise (buildPage_present m _ d) (buildPage_ecc m _))

/-- Without a chunk in staging a span builds nothing for a model that streams. -/
theorem buildSpan_of_no_chunk {m : Model} (st : Stream) (streams : m.manifest.kind ≠ 2) (none_ : d.wrd.chunks = []) :
    (buildSpan st m false d).adm = d.adm := by
  rw [buildSpan, if_neg (by simp), if_neg streams, buildChunks, none_]
  rfl

/-! ## Sentinel spans and runs (R303, R313, R314) -/

theorem sentinel_of_busy (now : entryNow d i 7 = some e) (busy : groupBusy d (pipe d e.group).lead = true) :
    sentinel i d = d := by
  simp [sentinel, now, busy]

theorem sentinel_runs {lead : Nat} (own : (pipe d e.group).lead = lead) (now : entryNow d i 7 = some e)
    (led : leads d lead = true) (free : groupBusy d lead = false) (left : spanPast e (beginEntry e d) = false) :
    sentinel i d = sntStart e (addSpan i lead e (beginEntry e d)) := by
  unfold sentinel
  rw [now]
  dsimp only
  rw [own, free, led, if_neg (by simp), left, if_neg (by simp)]

/-- Batches of a Sentinel image that a span of an entry can run. -/
def sntBatches (e : TtEntry) (d : Die) : List Nat :=
  (sntDue d e.target).take (e.len / max 1 (u32At (image d e.target).payload 12))

/-- Both groups of a pair of Sentinel entries can take part in a run. -/
structure SntReady (e f : TtEntry) (d : Die) : Prop where
  partner : sntPartner d e = some f
  resident : (image d e.target).state = 2
  led : leads d (pipe d e.group).lead = true ∧ leads d (pipe d f.group).lead = true
  free : substitutes d (pipe d e.group).lead = false ∧ substitutes d (pipe d f.group).lead = false
  units : groupUnits d 12 (pipe d e.group).lead ≠ 0 ∧ groupUnits d 12 (pipe d f.group).lead ≠ 0

theorem sntStart_starts {f : TtEntry} (ready : SntReady e f d) (lower : e.group < 3) (none_ : d.sntb.runs = [])
    (due : sntBatches e d ≠ []) : sntStart e d = updSnt (fun s => { s with runs := [{
      image := e.target, leadA := (pipe d e.group).lead, leadB := (pipe d f.group).lead, batches := sntBatches e d }] }) d := by
  obtain ⟨partner, resident, ⟨ledA, ledB⟩, ⟨freeA, freeB⟩, ⟨unitsA, unitsB⟩⟩ := ready
  have some_ : (sntBatches e d).isEmpty = false := by simpa [List.isEmpty_eq_false_iff] using due
  unfold sntStart
  rw [partner]
  dsimp only
  rw [if_pos lower, if_pos lower, none_]
  refine (if_neg ?_).trans ?_
  · rw [sntBatches] at some_
    simp [resident, ledA, ledB, freeA, freeB, unitsA, unitsB, some_]
  · simp [updSnt, none_, sntBatches]

section
variable {x : Die} (vp : x.vp = d.vp)
include vp

theorem leads_congr (n : Nat) : leads x n = leads d n := by
  simp only [leads, enabled_congr (wiring_of_vp vp), lead_congr (wiring_of_vp vp), members_congr (wiring_of_vp vp), vp]

theorem substitutes_congr (lead : Nat) : substitutes x lead = substitutes d lead := by
  simp only [substitutes, vp, pipe_congr vp]

theorem groupUnits_congr (snt : x.snt = d.snt) (lead : Nat) : groupUnits x 12 lead = groupUnits d 12 lead := by
  have units : pool x 12 = pool d 12 := snt
  simp only [groupUnits, groupTiles, units, members_congr (wiring_of_vp vp)]

/-- What makes a pair of entries ready stands in the pipelines, the units, the images and the timetable. -/
theorem SntReady.congr {f : TtEntry} (snt : x.snt = d.snt) (sntb : x.sntb = d.sntb) (active : x.cad.active = d.cad.active)
    (ready : SntReady e f d) : SntReady e f x := by
  obtain ⟨partner, resident, led, free, units⟩ := ready
  constructor
  · rwa [sntPartner, active]
  · rwa [image, sntb]
  · rwa [pipe_congr vp, pipe_congr vp, leads_congr vp, leads_congr vp]
  · rwa [pipe_congr vp, pipe_congr vp, substitutes_congr vp, substitutes_congr vp]
  · rwa [pipe_congr vp, pipe_congr vp, groupUnits_congr vp snt, groupUnits_congr vp snt]

end

theorem addSpan_keeps (i lead : Nat) (e : TtEntry) (d : Die) : (addSpan i lead e d).vp = d.vp ∧
    (addSpan i lead e d).snt = d.snt ∧ (addSpan i lead e d).cad.active = d.cad.active ∧
    sntDue (addSpan i lead e d) e.target = sntDue d e.target := ⟨rfl, rfl, rfl, rfl⟩

/-- A Sentinel span starts a run on both of its groups, of as many batches as it can run. -/
theorem sentinel_starts {f : TtEntry} {lead : Nat} (own : (pipe d e.group).lead = lead) (now : entryNow d i 7 = some e)
    (ready : SntReady e f d) (left : spanPast e (beginEntry e d) = false) (lower : e.group < 3) (none_ : d.sntb.runs = [])
    (due : (sntDue (beginEntry e d) e.target).take (e.len / max 1 (u32At (image d e.target).payload 12)) ≠ []) :
    ∃ x, sentinel i d = x ∧ x.tim = (beginEntry e d).tim ∧ x.sntb = { d.sntb with runs := [{
      image := e.target, leadA := lead, leadB := (pipe d f.group).lead
      batches := (sntDue (beginEntry e d) e.target).take (e.len / max 1 (u32At (image d e.target).payload 12)) }] } := by
  obtain ⟨tim, -, -, sntb, -⟩ := addSpan_parts i lead e (beginEntry e d)
  obtain ⟨vp, snt, active, batches⟩ := addSpan_keeps i lead e (beginEntry e d)
  rw [beginEntry_sntb] at sntb
  rw [beginEntry_vp] at vp
  rw [beginEntry_snt] at snt
  rw [beginEntry_cad] at active
  have ran := sentinel_runs own now (own ▸ ready.led.1) (own ▸ ready.free.1) left
  generalize addSpan i lead e (beginEntry e d) = y at *
  have same : sntBatches e y = (sntDue (beginEntry e d) e.target).take (e.len / max 1 (u32At (image d e.target).payload 12)) := by
    rw [sntBatches, batches, image, sntb, ← image]
  have started := sntStart_starts (ready.congr vp snt sntb active) lower (by rw [sntb, none_]) (by rwa [same])
  refine ⟨_, ran.trans started, (updSnt_tim _ _).trans tim, ?_⟩
  rw [updSnt_sntb, sntb, same, pipe_congr vp, pipe_congr vp, own]

/-- A run of two groups of an image that has finished its first batch. -/
structure SntEnds (im : Nat) (r : SntRun) (n : Nat) (bs : List Nat) (b : Batch) (d : Die) : Prop where
  runs : d.sntb.runs = [r]
  image : r.image = im
  batches : r.batches = n :: bs
  led : leads d r.leadA = true ∧ leads d r.leadB = true
  held : ticket d n = some b

section
variable {im : Nat} {r : SntRun} {n : Nat} {bs : List Nat} {b : Batch}

theorem sntComplete_runs (ends : SntEnds im r n bs b d) (differs : Bool) :
    sntComplete im ⟨differs, [], []⟩ d = if differs then sntDiffer r d else sntAgree im n d := by
  obtain ⟨runs, image, batches, ⟨ledA, ledB⟩, held⟩ := ends
  have found : d.sntb.runs.find? (fun r => r.image == im && !r.batches.isEmpty && leads d r.leadA && leads d r.leadB) =
      some r := by
    simp [runs, image, batches, ledA, ledB]
  unfold sntComplete
  rw [found]
  simp only [batches, List.headD_cons, comparePoints]

/-- The output of a run on a frame. -/
def sntOut (im : Nat) (h : Held) (d : Die) : Bytes :=
  sntEval (image d im).payload h.payload (Config.sntTail (image d im).payload h.payload)

/-- A die on which the copies of a run have agreed on the output of a batch. -/
def sntAgreed (im n lead : Nat) (bytes out : Bytes) (d : Die) : Die :=
  updSnt (fun s => { s with runs := s.runs.map (fun r =>
      if r.image == im then { r with batches := r.batches.filter (fun q => q != n) } else r) })
    (modTicket n (fun b => { b with lead := lead })
      (count pSNT 0x064 (modTicket n (fun b => { b with done := true, outBytes := bytes, lastOut := out }) d)))

/-- Copies that agree end their batch, with their output, on the group of the first copy. -/
theorem sntAgree_ends {h : Held} (ends : SntEnds im r n bs b d) (notDue : b.due = false)
    (frame : d.ing.sentinel.find? (fun h => h.serial == n + 1 && h.chan == b.channel) = some h) :
    sntAgree im n d = sntAgreed im n r.leadA
      (sntPayload (image d im).payload (sntOut im h d) (firstOf (chan d b.channel) b)) (sntOut im h d) d := by
  obtain ⟨runs, image_, batches, -, held⟩ := ends
  have first : d.sntb.runs.find? (fun r => r.image == im && r.batches.contains n) = some r := by
    simp [runs, image_, batches]
  have frame' : d.ing.sentinel.find? (fun h => h.serial == n + 1 &&
      h.chan == (((ticket d n).map (fun b => b.channel)).getD 0)) = some h := by
    rw [held]
    exact frame
  unfold sntAgree
  rw [frame', held]
  refine (if_neg (by simp [notDue])).trans ?_
  simp only [count_sntb, modTicket_sntb, first, Option.map_some, Option.getD_some, sntAgreed, sntOut]

theorem sntAgreed_runs (ends : SntEnds im r n bs b d) {lead : Nat} (bytes out : Bytes) :
    (sntAgreed im n lead bytes out d).sntb.runs = [{ r with batches := bs.filter (fun q => q != n) }] := by
  simp [sntAgreed, ends.runs, ends.image, ends.batches]

theorem sntAgreed_ticket (ends : SntEnds im r n bs b d) (lead : Nat) (bytes out : Bytes) : ∃ b',
    ticket (sntAgreed im n lead bytes out d) n = some b' ∧ b'.done = true ∧ b'.lead = lead ∧ b'.lastOut = out := by
  let agreed (t : Batch) : Batch := { t with done := true, outBytes := bytes, lastOut := out }
  have done : ticket (count pSNT 0x064 (modTicket n agreed d)) n = some (agreed b) :=
    ticket_modTicket (f := agreed) (fun _ => rfl) ends.held
  exact ⟨_, ticket_modTicket (f := fun b => { b with lead := lead }) (fun _ => rfl) done, rfl, rfl, rfl⟩

/-- A comparator test of the units of a group waits for its next self-test segment. -/
def pairTest (lead : Nat) (d : Die) : Die :=
  if d.cad.tests.contains (lead, 12, 512) then d else updCad (fun c => { c with tests := c.tests ++ [(lead, 12, 512)] }) d

theorem pairTest_tests (lead : Nat) (d : Die) : (lead, 12, 512) ∈ (pairTest lead d).cad.tests ∧
    d.cad.tests ⊆ (pairTest lead d).cad.tests := by
  unfold pairTest
  split
  · next waits => exact ⟨by simpa using waits, fun _ h => h⟩
  · exact ⟨by simp, by simp⟩

/-- Only CAD's list of tests changes. -/
theorem pairTest_parts (lead : Nat) (d : Die) : ∃ t, pairTest lead d = { d with cad := { d.cad with tests := t } } := by
  unfold pairTest
  split
  · exact ⟨d.cad.tests, rfl⟩
  · exact ⟨_, rfl⟩

/-- A die on which the copies of a run have differed. -/
def sntDiffered (r : SntRun) (d : Die) : Die :=
  let x := raise pSNT 0 (count pSNT 0x068 (modTicket (r.batches.headD 0) (fun b => { b with repeats := true }) d))
  updSnt (fun s => { s with mismatchAt := mset s.mismatchAt (6 * r.leadA + r.leadB) x.tim.up }) x

/-- The copies of a run have differed before, within the window. -/
def differedBefore (r : SntRun) (d : Die) : Bool :=
  match mget d.sntb.mismatchAt (6 * r.leadA + r.leadB) with
  | some t => within d (field d pSNT 0x040 16) t
  | none => false

theorem sntDiffer_eq (r : SntRun) (d : Die) : sntDiffer r d =
    if differedBefore r d then pairTest r.leadB (pairTest r.leadA (sntDiffered r d)) else sntDiffered r d := rfl

/-- Copies that differ repeat their run, which is reported. -/
theorem sntDiffered_repeats (ends : SntEnds im r n bs b d) : let x := sntDiffered r d
    x.sntb.runs = d.sntb.runs ∧ errSet x pSNT 0 = true ∧ ticket x n = some { b with repeats := true } ∧
      mget x.sntb.mismatchAt (6 * r.leadA + r.leadB) = some d.tim.up := by
  obtain ⟨-, -, batches, -, held⟩ := ends
  have head : r.batches.headD 0 = n := by rw [batches]; rfl
  unfold sntDiffered
  rw [head]
  extract_lets y x
  have reported : errSet y pSNT 0 = true := errSet_raise _ _ _ rfl (by decide)
  have repeated : ticket y n = some { b with repeats := true } := by
    refine (ticket_congr (x := y) (congrArg Chn.tickets (raise_chn _ _ _)) n).trans ?_
    exact ticket_modTicket (f := fun b => { b with repeats := true }) (fun _ => rfl) held
  refine ⟨?_, reported, repeated, ?_⟩
  · simp [x, y]
  · simp [x, y]

/-- The second time within the window both groups are tested; nothing else follows from it. -/
theorem sntDiffer_tests (r : SntRun) (d : Die) : let x := sntDiffer r d
    (∃ t, x = { sntDiffered r d with cad := { (sntDiffered r d).cad with tests := t } }) ∧
      (differedBefore r d = true → (r.leadA, 12, 512) ∈ x.cad.tests ∧ (r.leadB, 12, 512) ∈ x.cad.tests) := by
  dsimp only
  rw [sntDiffer_eq]
  generalize sntDiffered r d = y
  split
  · obtain ⟨waitsA, -⟩ := pairTest_tests r.leadA y
    obtain ⟨waitsB, keeps⟩ := pairTest_tests r.leadB (pairTest r.leadA y)
    refine ⟨?_, fun _ => ⟨keeps waitsA, waitsB⟩⟩
    obtain ⟨t, shape⟩ := pairTest_parts r.leadA y
    obtain ⟨t', shape'⟩ := pairTest_parts r.leadB (pairTest r.leadA y)
    exact ⟨t', by rw [shape', shape]⟩
  · next once => exact ⟨⟨y.cad.tests, rfl⟩, fun before => absurd before once⟩

end

end

/-! ## The commands -/

section
variable {s : State} {d : DieId} {i : BitVec 13} {e : TtEntry}

theorem RunsTo.selftest {passed : Bool} {unit : BitVec 9} {pts : List PointFault} {x : Die}
    (eq : selfTest i.toNat passed unit.toNat pts (s.die d) = x) : RunsTo (.selftest d ⟨i, pts⟩ passed unit) s d x := by
  rw [← eq]
  rfl

theorem RunsTo.rebuild {ecc : Bool} {pts : List PointFault} {x : Die}
    (eq : Machine.rebuild i.toNat ecc pts (s.die d) = x) : RunsTo (.rebuild d ⟨i, pts⟩ ecc) s d x := by
  rw [← eq]
  rfl

theorem RunsTo.sentinel {x : Die} (eq : Machine.sentinel i.toNat (s.die d) = x) : RunsTo (.sentinel d i) s d x := by
  rw [← eq]
  rfl

theorem RunsTo.sentinelRunComplete {im : BitVec 4} {ended : SntEnd} {x : Die} (eq : sntComplete im.toNat ended (s.die d) = x) :
    RunsTo (.sentinelRunComplete d im ended) s d x := by
  rw [← eq]
  rfl

/-- Settles O19, by the outcomes of each entry: skipped while a use holds the group, and each way that it runs otherwise. -/
theorem testsRebuildsAndSentinelRuns : Obligations.TestsRebuildsAndSentinelRuns := by
  unfold Obligations.TestsRebuildsAndSentinelRuns
  intro s d i e
  dsimp only
  refine ⟨fun busy => ⟨fun now _ _ => .selftest (selfTest_of_busy now busy), fun now _ => .rebuild (rebuild_of_busy now busy),
    fun now => .sentinel (sentinel_of_busy now busy)⟩, fun now led free unit => ⟨fun fits passed pass => ?_,
    fun unfit passed few => ?_⟩, fun now led free left st stream ecc => ⟨fun other => ?_, fun its m admitted begun => ?_⟩, ?_, ?_⟩
  · subst pass
    obtain ⟨x, u, ran, rest⟩ := selfTest_takes_item rfl now led free unit.toNat fits
    exact ⟨x, u, .selftest ran, rest⟩
  · obtain ⟨x, ran, rest⟩ := selfTest_skipped rfl now led free unit.toNat passed unfit few
    exact ⟨x, .selftest ran, rest⟩
  · obtain ⟨tim, adm, -, -, u, spans⟩ := addSpan_parts i.toNat (pipe (s.die d) e.group).lead e (beginEntry e (s.die d))
    exact ⟨_, u, .rebuild (rebuild_idles rfl now led free left ecc stream other), tim, adm.trans (beginEntry_adm _ _),
      spans.trans (by rw [beginEntry_cad])⟩
  · obtain ⟨-, adm, wrd, -, u, spans⟩ := addSpan_parts i.toNat (pipe (s.die d) e.group).lead e (beginEntry e (s.die d))
    refine ⟨_, u, .rebuild (rebuild_builds rfl now led free left ecc stream its admitted begun), rfl,
      spans.trans (by rw [beginEntry_cad]), fun hit => ?_, fun clean streams none_ => ?_⟩
    · rw [hit]
      exact buildSpan_reports st m _
    · rw [clean, buildSpan_of_no_chunk st streams (by rw [wrd, beginEntry_wrd, none_]), adm, beginEntry_adm]
  · intro f now led free led' free' left partner lower resident units units' none_ due
    obtain ⟨x, ran, tim, sntb⟩ := sentinel_starts rfl now ⟨partner, resident, ⟨led, led'⟩, ⟨free, free'⟩, ⟨units, units'⟩⟩
      left lower none_ due
    exact ⟨x, .sentinel ran, tim, sntb⟩
  · intro im r b h n bs runs image_ batches ledA ledB held _ notDue frame
    have ends : SntEnds im.toNat r n bs b (s.die d) := ⟨runs, image_, batches, ⟨ledA, ledB⟩, held⟩
    have agreed := (sntComplete_runs ends false).trans (sntAgree_ends ends notDue frame)
    obtain ⟨⟨t, shape⟩, tested⟩ := sntDiffer_tests r (s.die d)
    obtain ⟨running, reported, repeated, noted⟩ := sntDiffered_repeats ends
    refine ⟨⟨_, .sentinelRunComplete agreed, ?_, ?_⟩, ⟨_, .sentinelRunComplete (sntComplete_runs ends true), ?_⟩⟩
    · exact sntAgreed_runs ends _ _
    · obtain ⟨b', found, done, lead, out⟩ := sntAgreed_ticket ends r.leadA
        (sntPayload (image (s.die d) im.toNat).payload (sntOut im.toNat h (s.die d)) (firstOf (chan (s.die d) b.channel) b))
        (sntOut im.toNat h (s.die d))
      exact ⟨b', found, done, lead, out⟩
    · rw [if_pos rfl]
      refine ⟨?_, ?_, ?_, ?_, fun ⟨t, noted, within_⟩ => tested ?_⟩
      · rw [shape]
        exact running
      · rw [shape]
        exact reported
      · rw [shape]
        exact repeated
      · rw [shape]
        exact noted
      · rw [differedBefore, noted]
        exact within_

end

end Sys2Proof.Machine
end

section
/-! SUPPORT. An engine instruction that issues, what a check changes, and what poison in a table changes. -/

namespace Sys2Proof.Machine

/-! ## An engine instruction issues (R258 to R260, R270) -/

section
variable {d y : Die} {l eng n : Nat}

/-- A change of a core that a group leads shows on it. -/
theorem core_modCore (on : (pipe d l).enabled = true) (f : Core → Core) : core (modCore l f d) l = f (core d l) := by
  rw [core, modCore, pipe_modPipe, if_pos ⟨rfl, lt_of_enabled on⟩, core]

theorem wiring_modCore (f : Core → Core) (d : Die) : wiring (modCore l f d) = wiring d :=
  wiring_modPipe (f := fun p => { p with core := f p.core }) (fun _ => rfl) l d

theorem enabled_modCore (f : Core → Core) (k : Nat) : (pipe (modCore l f d) k).enabled = (pipe d k).enabled :=
  enabled_congr (wiring_modCore f d) k

theorem groupTiles_congr {x : Die} (wired : wiring x = wiring d) (t : Tiles) (per : Nat) :
    groupTiles x t per l = groupTiles d t per l := by simp only [groupTiles, members_congr wired]

theorem lanesOf_congr {x : Die} (wired : wiring x = wiring d) (res : x.res = d.res) (bnd : x.bnd = d.bnd) (nle : x.nle = d.nle)
    (cwe : x.cwe = d.cwe) (e : Nat) : lanesOf x l e = lanesOf d l e := by
  simp only [lanesOf, groupTiles_congr wired, res, bnd, nle, cwe]

theorem lanesOf_bnd {x : Die} (wired : wiring x = wiring d) (bnd : x.bnd = d.bnd) : lanesOf x l 1 = lanesOf d l 1 := by
  simp only [lanesOf, groupTiles_congr wired, bnd]

theorem lanesOf_modCore (f : Core → Core) (e : Nat) : lanesOf (modCore l f d) l e = lanesOf d l e :=
  lanesOf_congr (wiring_modCore f d) rfl rfl rfl rfl e

theorem fetchRun_of_running (running : (core d l).run ≠ []) : fetchRun l d = d := by
  rw [fetchRun]
  exact if_neg (by simpa [core] using running)

/-- The die of an instruction in an engine's queue: of a program it shows only the busy time and the queues. -/
def queued (l t : Nat) (q : AMap (List Nat) → AMap (List Nat)) (desc : OpDesc) (d : Die) : Die :=
  modCore l (fun c => { c with busy := t, queues := q c.queues }) (noteDesc l desc (spend l 1 d))

theorem enqueue_eq {desc : OpDesc} (fits : enqueue l eng n (noteDesc l desc (spend l 1 d)) = some y) :
    ∃ t q, y = queued l t q desc d := by
  unfold enqueue at fits
  extract_lets w free fin at fits
  obtain ⟨-, placed⟩ := Option.ite_none_right_eq_some.mp fits
  exact ⟨free, fun qs => mset qs eng (w.filter (fun t => decide (free < t)) ++ [fin]), (Option.some.inj placed).symm⟩

theorem wiring_queued (t : Nat) (q : AMap (List Nat) → AMap (List Nat)) (desc : OpDesc) :
    wiring (queued l t q desc d) = wiring d := by
  have noted : wiring (noteDesc l desc (spend l 1 d)) = wiring (spend l 1 d) := rfl
  rw [queued, wiring_modCore, noted, spend, wiring_modCore]

theorem core_spend (on : (pipe d l).enabled = true) : core (spend l 1 d) l =
    { core d l with busy := max (11 * d.tim.up) (core d l).busy + 10 * 1 } := core_modCore on _

theorem core_queued (on : (pipe d l).enabled = true) (t : Nat) (q : AMap (List Nat) → AMap (List Nat)) (desc : OpDesc) :
    core (queued l t q desc d) l = { core d l with busy := t, queues := q (core d l).queues } := by
  have on1 : (pipe (noteDesc l desc (spend l 1 d)) l).enabled = true :=
    (enabled_modCore (l := l) (fun c => { c with busy := max (11 * d.tim.up) c.busy + 10 * 1 }) l).trans on
  rw [queued, core_modCore on1]
  exact congrArg (fun c : Core => { c with busy := t, queues := q c.queues }) (core_spend on)

theorem queued_frame (t : Nat) (q : AMap (List Nat) → AMap (List Nat)) (desc : OpDesc) : EngineFrame d (queued l t q desc d) :=
  ⟨rfl, rfl, rfl, rfl, rfl, rfl, rfl, rfl, rfl, rfl, rfl, rfl, rfl, rfl, rfl, rfl, rfl⟩

theorem queued_chn (t : Nat) (q : AMap (List Nat) → AMap (List Nat)) (desc : OpDesc) : (queued l t q desc d).chn = d.chn := rfl

theorem queued_bnd (t : Nat) (q : AMap (List Nat) → AMap (List Nat)) (desc : OpDesc) : (queued l t q desc d).bnd = d.bnd := rfl

theorem queued_ing (t : Nat) (q : AMap (List Nat) → AMap (List Nat)) (desc : OpDesc) : (queued l t q desc d).ing = d.ing := rfl

theorem lanesOf_queued (t : Nat) (q : AMap (List Nat) → AMap (List Nat)) (desc : OpDesc) (e : Nat) :
    lanesOf (queued l t q desc d) l e = lanesOf d l e := lanesOf_congr (wiring_queued t q desc) rfl rfl rfl rfl e

theorem runBatches_congr {x : Die} (run : (core x l).run = (core d l).run) (chn : x.chn = d.chn) :
    runBatches x l = runBatches d l := by
  rw [runBatches, run, runBatches]
  exact List.filterMap_congr fun k _ => ticket_congr (by rw [chn]) k

theorem runBatches_spend (on : (pipe d l).enabled = true) : runBatches (spend l 1 d) l = runBatches d l :=
  runBatches_congr (by rw [core_spend on]) rfl

theorem coreModel_spend (on : (pipe d l).enabled = true) : coreModel (spend l 1 d) l = coreModel d l := by
  rw [coreModel, runBatches_spend on, coreModel]
  rfl

/-- What an instruction does on the batch of a number. -/
def onRun (m : Model) (c : Nat) (eff : Batch → Model → Nat → Die → Die) (d : Die) (s : Nat) : Die :=
  match ticket d s with
  | some b => eff b m c d
  | none => d

theorem onRun_of_ticket {m : Model} {c s : Nat} {b : Batch} {eff : Batch → Model → Nat → Die → Die} (found : ticket d s = some b) :
    onRun m c eff d s = eff b m c d := by rw [onRun, found]

theorem onRun_of_none {m : Model} {c s : Nat} {eff : Batch → Model → Nat → Die → Die} (none_ : ticket d s = none) :
    onRun m c eff d s = d := by rw [onRun, none_]

theorem enabled_of_mayIssue (may : mayIssue d l = true) : (pipe d l).enabled = true := by
  simp only [mayIssue, leads, Bool.and_eq_true] at may
  exact may.1.1.1.1.1.1

/-- An instruction that issues in its span acts on each batch of the program behind its place in the queue. -/
theorem engineIssue_of_issues {i : Instr} {desc : OpDesc} {m : Model} {cost : Die → List Batch → Model → Nat}
    {eff : Batch → Model → Nat → Die → Die} {go : Die → Die} (running : (core (fetchRun l d) l).run ≠ [])
    (served : coreModel (fetchRun l d) l = some m)
    (costs : cost (spend l 1 (fetchRun l d)) (runBatches (fetchRun l d) l) m = n) (issues : Issues l eng i desc n d y) :
    engineIssue l eng (opcode i) desc cost eff go [] (fetchRun l d) =
      go ((core (fetchRun l d) l).run.foldl (onRun m (core (fetchRun l d) l).cursor eff) y) := by
  obtain ⟨may, word, descs, fits, queues⟩ := issues
  generalize fetchRun l d = z at *
  have on := enabled_of_mayIssue may
  rw [engineIssue, issue, fetchRun_of_running running]
  simp only [may, word, descs, fits, Bool.and_self, if_true, comparePoints]
  rw [coreModel_spend on, served, runBatches_spend on, Option.bind_some, costs, queues, core_spend on]
  rfl

theorem engineIssue_fetchRun {op : Nat} {desc : OpDesc} {cost : Die → List Batch → Model → Nat}
    {eff : Batch → Model → Nat → Die → Die} {go : Die → Die} (running : (core (fetchRun l d) l).run ≠ []) :
    engineIssue l eng op desc cost eff go [] (fetchRun l d) = engineIssue l eng op desc cost eff go [] d := by
  rw [engineIssue, issue, fetchRun_of_running running, engineIssue, issue]

end

/-! ## What a check changes (R125, R140, R172) -/

section
variable {d x y : Die} {n k : Nat}

/-- A die without its tickets and counters. -/
def unchecked (d : Die) : Die := { d with chn := { d.chn with tickets := [] }, regs := { d.regs with cnt := [] } }

section
variable (same : unchecked x = unchecked d)
include same

theorem unchecked_vp : x.vp = d.vp := (congrArg Die.vp same :)
theorem unchecked_tim : x.tim = d.tim := (congrArg Die.tim same :)
theorem unchecked_errs : x.errs = d.errs := (congrArg Die.errs same :)
theorem unchecked_ing : x.ing = d.ing := (congrArg Die.ing same :)
theorem unchecked_chan (c : Nat) : chan x c = chan d c := (congrArg (fun u : Die => mgetD u.chn.tab c {}) same :)
theorem unchecked_lanes (l e : Nat) : lanesOf x l e = lanesOf d l e :=
  lanesOf_congr (wiring_of_vp (unchecked_vp same)) (congrArg Die.res same :) (congrArg Die.bnd same :) (congrArg Die.nle same :)
    (congrArg Die.cwe same :) e

/-- Tickets and counters are outside what an engine instruction leaves as it was. -/
theorem engineFrame_of_unchecked {z : Die} (frame : EngineFrame z d) : EngineFrame z x := by
  obtain ⟨h1, h2, h3, h4, h5, h6, h7, h8, h9, h10, h11, h12, h13, h14, h15, h16, h17⟩ := frame
  exact ⟨(congrArg Die.which same :).trans h1, (congrArg Die.phase same :).trans h2,
    (congrArg (fun u : Die => u.regs.live) same :).trans h3, (congrArg Die.wlk same :).trans h4, (congrArg Die.wrd same :).trans h5,
    (congrArg Die.rat same :).trans h6, (congrArg Die.adm same :).trans h7, (congrArg Die.cad same :).trans h8,
    (congrArg Die.sealing same :).trans h9, (congrArg Die.spk same :).trans h10, (congrArg Die.hst same :).trans h11,
    (congrArg Die.ing same :).trans h12, (congrArg Die.mem same :).trans h13, (congrArg Die.key same :).trans h14,
    (congrArg Die.pel same :).trans h15, (congrArg Die.wdn same :).trans h16, (congrArg Die.out same :).trans h17⟩

end

theorem serial_of_ticket {b : Batch} (found : ticket d n = some b) : b.serial = n := by simpa using List.find?_some found

/-- A change of the tickets of one number shows on the ticket of that number alone. -/
theorem ticket_modTicket_eq {f : Batch → Batch} (keeps : ∀ t, t.serial = n → (f t).serial = n) (k : Nat) :
    ticket (modTicket n f d) k = if k = n then (ticket d k).map f else ticket d k := by
  have same : ((fun t : Batch => t.serial == k) ∘ onSerial n f) = fun t => t.serial == k := by
    funext t
    by_cases own : t.serial = n
    · simp [onSerial_same own, keeps t own, own]
    · simp [onSerial_other own]
  rw [ticket, modTicket_tickets, List.find?_map, same, ← ticket]
  split
  · next own =>
    cases found : ticket d k with
    | none => rfl
    | some b => rw [Option.map_some, Option.map_some, onSerial_same ((serial_of_ticket found).trans own)]
  · next other =>
    cases found : ticket d k with
    | none => rfl
    | some b => rw [Option.map_some, onSerial_other (by rwa [serial_of_ticket found])]

/-- Checks of the batch of a number: they fail it by `Fails` and count as made by `Made`, and change nothing else but tickets'
status and counters. -/
structure Checked (n : Nat) (Fails : Nat × Nat → Prop) (Made : Nat → Nat → Prop) (d x : Die) : Prop where
  rest : unchecked x = unchecked d
  others : ∀ k, k ≠ n → ticket x k = ticket d k
  own : ∀ b, ticket d n = some b → ∃ b', ticket x n = some b' ∧ (∀ f, f ∈ b'.fails ↔ f ∈ b.fails ∨ Fails f) ∧
    ∀ t key, key ∈ mgetD b.made t [] ∨ Made t key → key ∈ mgetD b'.made t []

/-- No failure and no check. -/
def noFail : Nat × Nat → Prop := fun _ => False
def noCheck : Nat → Nat → Prop := fun _ _ => False

variable {F G : Nat × Nat → Prop} {M N : Nat → Nat → Prop}

protected theorem Checked.refl (n : Nat) (d : Die) : Checked n noFail noCheck d d :=
  ⟨rfl, fun _ _ => rfl, fun b found => ⟨b, found, by simp [noFail], by simp [noCheck]⟩⟩

protected theorem Checked.trans (one : Checked n F M d x) (two : Checked n G N x y) :
    Checked n (fun f => F f ∨ G f) (fun t key => M t key ∨ N t key) d y where
  rest := two.rest.trans one.rest
  others k other := (two.others k other).trans (one.others k other)
  own b found := by
    obtain ⟨b1, found1, fails1, made1⟩ := one.own b found
    obtain ⟨b2, found2, fails2, made2⟩ := two.own b1 found1
    refine ⟨b2, found2, fun f => by rw [fails2, fails1, or_assoc], fun t key made => ?_⟩
    rcases made with made | made | made
    · exact made2 t key (.inl (made1 t key (.inl made)))
    · exact made2 t key (.inl (made1 t key (.inr made)))
    · exact made2 t key (.inr made)

protected theorem Checked.mono (checked : Checked n F M d x) (fails : ∀ f, F f ↔ G f) (made : ∀ t key, N t key → M t key) :
    Checked n G N d x where
  rest := checked.rest
  others := checked.others
  own b found := by
    obtain ⟨b', found', fails', made'⟩ := checked.own b found
    exact ⟨b', found', fun f => by rw [fails', fails], fun t key h => made' t key (h.imp_right (made t key))⟩

/-- What checks by each of some things, whatever tickets and counters it finds, checks by all of them. -/
protected theorem Checked.foldl {α : Type} {g : Die → α → Die} {F : α → Nat × Nat → Prop} {M : α → Nat → Nat → Prop} {as : List α}
    (step : ∀ a ∈ as, ∀ x, unchecked x = unchecked d → Checked n (F a) (M a) x (g x a)) (same : unchecked x = unchecked d) :
    Checked n (fun f => ∃ a ∈ as, F a f) (fun t key => ∃ a ∈ as, M a t key) x (as.foldl g x) := by
  induction as generalizing x with
  | nil => exact (Checked.refl n x).mono (by simp [noFail]) (by simp)
  | cons a r ih =>
    have first := step a (by simp) x same
    refine (first.trans (ih (fun a mem => step a (by simp [mem])) (first.rest.trans same))).mono (by simp) (by simp)

protected theorem Checked.countN (p o k : Nat) (d : Die) : Checked n noFail noCheck d (countN p o k d) where
  rest := rfl
  others _ _ := ticket_congr rfl _
  own b found := ⟨b, (ticket_congr rfl n).trans found, by simp [noFail], by simp [noCheck]⟩

/-- A change of the tickets of one number that fails them by `F` and counts checks of them. -/
protected theorem Checked.modTicket {f : Batch → Batch} (serial : ∀ t, t.serial = n → (f t).serial = n)
    (fails : ∀ b, ticket d n = some b → ∀ e, e ∈ (f b).fails ↔ e ∈ b.fails ∨ F e)
    (made : ∀ b, ticket d n = some b → ∀ t key, key ∈ mgetD b.made t [] ∨ M t key → key ∈ mgetD (f b).made t []) :
    Checked n F M d (modTicket n f d) where
  rest := rfl
  others k other := by rw [ticket_modTicket_eq serial, if_neg other]
  own b found := ⟨f b, by rw [ticket_modTicket_eq serial, if_pos rfl, found, Option.map_some], fails b found, made b found⟩

theorem mem_fails_addFail (token cause : Nat) (b : Batch) (e : Nat × Nat) :
    e ∈ (addFail token cause b).fails ↔ e ∈ b.fails ∨ e = (token, cause) := by
  unfold addFail
  split
  · next held =>
    refine ⟨.inl, ?_⟩
    rintro (mem | rfl)
    · exact mem
    · exact List.contains_iff_mem.mp held
  · simp

theorem addFail_serial (token cause : Nat) (b : Batch) : (addFail token cause b).serial = b.serial := by
  unfold addFail
  split <;> rfl

theorem addFail_made (token cause : Nat) (b : Batch) : (addFail token cause b).made = b.made := by
  unfold addFail
  split <;> rfl

protected theorem Checked.failCheck (token cause page upper locus extra : Nat) (d : Die) :
    Checked n (fun f => f = (token, cause)) noCheck d (failCheck n token cause page upper locus extra d) := by
  unfold failCheck
  cases found : ticket d n with
  | none => exact ⟨rfl, fun _ _ => rfl, fun b h => by simp [found] at h⟩
  | some b =>
    exact .modTicket (fun t own => (addFail_serial _ _ _).trans own) (fun t _ e => mem_fails_addFail _ _ _ _)
      (fun t _ j key made => by simpa [addFail_made, noCheck] using made)

protected theorem Checked.noteMade (token key : Nat) (d : Die) :
    Checked n noFail (fun t k => t = token ∧ k = key) d (noteMade n token key d) := by
  unfold noteMade
  cases found : ticket d n with
  | none => exact ⟨rfl, fun _ _ => rfl, fun b h => by simp [found] at h⟩
  | some b =>
    have serial : b.serial = n := serial_of_ticket found
    refine .modTicket (fun _ _ => serial) (fun t h => ?_) (fun t h j k made => ?_)
    · obtain rfl : t = b := by simpa [found] using h.symm
      simp [noFail]
    · obtain rfl : t = b := by simpa [found] using h.symm
      by_cases own : j = token
      · subst own
        simpa [or_comm] using made
      · simpa [mgetD_mset_other _ own, own] using made

/-- Checks that are made stay so while others are noted. -/
theorem mem_made_mset {made : AMap (List Nat)} {j t key : Nat} (v : Nat) (held : key ∈ mgetD made t []) :
    key ∈ mgetD (mset made j (v :: mgetD made j [])) t [] := by
  by_cases own : t = j
  · subst own
    simp [held]
  · rwa [mgetD_mset_other _ own]

protected theorem Checked.noteRecords (rtype entry : Nat) (p : RecIn → Bool) (d : Die) :
    Checked n noFail noCheck d (noteRecords n rtype entry p d) := by
  refine .modTicket (fun _ own => own) (fun _ _ e => by simp [noFail]) (fun b _ t key made => ?_)
  have held : key ∈ mgetD b.made t [] := by simpa [noCheck] using made
  clear made
  dsimp only
  generalize b.staged.zipIdx = records
  generalize b.made = made at held
  induction records generalizing made with
  | nil => exact held
  | cons s r ih =>
    refine ih _ ?_
    dsimp only
    split
    · exact mem_made_mset _ held
    · exact held

end

/-! ## Table passes of clean tables (R124, R126, R142) -/

section
variable {d : Die} {desc : OpDesc} {b : Batch} {m : Model} {tb : Tables} {o : OpE} {i t : Nat} {w : TensorE}

/-- A failure reported where a check fails, and nothing where it does not. -/
theorem Checked.fail_iff {n : Nat} {F : Nat × Nat → Prop} {x : Die} {p : Prop} (fails : p → Checked n F noCheck d x)
    (passes : ¬p → x = d) : Checked n (fun f => p ∧ F f) noCheck d x := by
  by_cases h : p
  · exact (fails h).mono (by simp [h]) (fun _ _ h => h)
  · rw [passes h]
    exact (Checked.refl n d).mono (by simp [h, noFail]) (fun _ _ h => h)

theorem firstUnequal_none {sides : List (Nat × Nat)} : firstUnequal sides = none ↔ ¬∃ q ∈ sides, q.1 ≠ q.2 := by
  simp [firstUnequal, List.findIdx?_eq_none_iff]

theorem residueToken_checks (read : opTables b m desc.locus.toNat = some (tb, o, i, w)) (clean : badWords m tb i w = 0) :
    Checked b.serial (fun f => (∃ q ∈ residueOf desc b m tb o i w t, q.1 ≠ q.2) ∧ f = (t, 1))
      (fun t' key => t' = t ∧ key = 2 * o.locus) d (residueToken desc b m t d) := by
  unfold residueToken
  rw [read]
  dsimp -zeta only
  rw [if_neg (not_not.mpr clean)]
  extract_lets sides bad d1 d2
  have counted : Checked b.serial noFail noCheck d d1 :=
    ((Checked.countN _ _ _ _).trans (Checked.countN _ _ _ _)).mono (by simp) (by simp)
  have failed : Checked b.serial (fun f => (∃ q ∈ sides, q.1 ≠ q.2) ∧ f = (t, 1)) noCheck d1 d2 := by
    refine .fail_iff (fun unequal => ?_) (fun equal => ?_)
    · cases first : firstUnequal sides with
      | none => exact absurd unequal (firstUnequal_none.mp first)
      | some j =>
        simp only [d2, first]
        exact .failCheck _ _ _ _ _ _ _
    · simp only [d2, firstUnequal_none.mpr equal]
  exact ((counted.trans failed).trans (.noteMade _ _ _)).mono (by simp [noFail, sides]) (by simp)

theorem bandedToken_checks (l : Nat) (read : opTables b m desc.locus.toNat = some (tb, o, i, w)) (clean : badWords m tb i w = 0) :
    Checked b.serial (fun f => (badScales b t desc.entry.toNat ≠ [] ∨
        ∃ r ∈ bandedOf (lanesOf d l 1) desc b m tb o i w t, r.ok = false) ∧ f = (t, 2))
      (fun t' key => t' = t ∧ key = 2 * o.locus) d (bandedToken l desc b m t d) := by
  unfold bandedToken
  rw [read]
  dsimp -zeta only
  rw [if_neg (not_not.mpr clean)]
  extract_lets e res scales nonfin bad d1 d2 d3
  have counted : Checked b.serial noFail noCheck d d1 :=
    (((Checked.countN _ _ _ _).trans (Checked.countN _ _ _ _)).trans (Checked.countN _ _ _ _)).mono (by simp) (by simp)
  have scaled : Checked b.serial (fun f => scales ≠ [] ∧ f = (t, 2)) noCheck d1 d2 := by
    refine .fail_iff (fun some_ => ?_) (fun none_ => ?_)
    · obtain ⟨q, r, first⟩ := List.exists_cons_of_ne_nil some_
      simp only [d2, first]
      exact .failCheck _ _ _ _ _ _ _
    · simp only [d2, not_not.mp none_]
  have compared : Checked b.serial (fun f => (∃ r ∈ res, r.ok = false) ∧ f = (t, 2)) noCheck d2 d3 := by
    refine .fail_iff (fun outside => ?_) (fun inside => ?_)
    · cases first : res.findIdx? (fun r => !r.ok) with
      | none =>
        obtain ⟨r, mem, out⟩ := outside
        simpa [out] using List.findIdx?_eq_none_iff.mp first r mem
      | some j =>
        simp only [d3, first]
        exact .failCheck _ _ _ _ _ _ _
    · have first : res.findIdx? (fun r => !r.ok) = none := by
        rw [List.findIdx?_eq_none_iff]
        simpa using inside
      simp only [d3, first]
  exact (((counted.trans scaled).trans compared).trans (.noteMade _ _ _)).mono
    (by simp [noFail, scales, res, e, or_and_right]) (by simp)

end

/-! ## Tables with an uncorrectable word (R130, R138) -/

section
variable {d x : Die} {b : Batch} {cs : List Nat}

/-- What a check in a run does not change: the pipelines, the time and the bits that are set. -/
structure Keeps (d x : Die) : Prop where
  vp : x.vp = d.vp
  tim : x.tim = d.tim
  reports : ∀ page bit, Reported page bit d → Reported page bit x

protected theorem Keeps.refl (d : Die) : Keeps d d := ⟨rfl, rfl, fun _ _ h => h⟩

protected theorem Keeps.trans {y : Die} (one : Keeps d x) (two : Keeps x y) : Keeps d y :=
  ⟨two.vp.trans one.vp, two.tim.trans one.tim, fun p b h => two.reports p b (one.reports p b h)⟩

protected theorem Keeps.foldl {α : Type} {g : Die → α → Die} (step : ∀ d a, Keeps d (g d a)) (as : List α) (d : Die) :
    Keeps d (as.foldl g d) := by
  induction as generalizing d with
  | nil => exact .refl d
  | cons a r ih => exact (step d a).trans (ih _)

theorem Checked.keeps {n : Nat} {F : Nat × Nat → Prop} {M : Nat → Nat → Prop} (checked : Checked n F M d x) : Keeps d x :=
  ⟨unchecked_vp checked.rest, unchecked_tim checked.rest, fun _ _ h => h.same (unchecked_errs checked.rest)⟩

theorem requestTurn_tim (slot : Nat) (forced : Bool) (d : Die) : (requestTurn slot forced d).tim = d.tim := by
  unfold requestTurn
  dsimp only
  repeat' split
  all_goals rfl

theorem badTable_keeps (page : Nat) (b : Batch) (n : Nat) (d : Die) : Keeps d (badTable page b n d) := by
  unfold badTable activeHit
  extract_lets d1 d2 hit
  have raised : Keeps d d1 := ⟨by simp [d1, poisonBatch], by simp [d1, poisonBatch], fun _ _ h => .raise (h.same rfl)⟩
  have noted : Keeps d1 d2 := ⟨rfl, rfl, fun _ _ h => h.same rfl⟩
  have late : Keeps d2 (hit.foldl (fun d b => poisonBatch b.serial d) d2) :=
    .foldl (fun (d : Die) (b : Batch) => show Keeps d (poisonBatch b.serial d) from ⟨rfl, rfl, fun _ _ h => h.same rfl⟩) _ _
  exact ((raised.trans noted).trans late).trans ⟨requestTurn_vp _ _ _, requestTurn_tim _ _ _, fun _ _ h => .requestTurn h⟩

/-- A word that the page reports is reported. -/
theorem badTable_reports {page : Nat} (present : ∀ d, pageAbsent d page = false) (known : (sevOf page 5).isSome = true)
    (b : Batch) (n : Nat) (d : Die) : Reported page 5 (badTable page b n d) := by
  unfold badTable activeHit
  refine .requestTurn (.foldl (fun _ _ h => h.same rfl) ?_)
  exact (reported_raise (present _) known).same rfl

/-- The ticket of a batch stands as it was but for its causes of LATE, some of which it has. -/
def Remains (cs : List Nat) (b : Batch) (d : Die) : Prop :=
  ∃ l, ticket d b.serial = some { b with lates := l } ∧ ∀ v ∈ cs, v ∈ l

theorem Remains.congr (h : Remains cs b d) (same : x.chn.tickets = d.chn.tickets) : Remains cs b x := by
  rwa [Remains, ticket_congr same]

theorem Remains.of_ticket (h : Remains cs b d) (same : ticket x b.serial = ticket d b.serial) : Remains cs b x := by
  rwa [Remains, same]

theorem addLate_eq (cause : Nat) (b : Batch) : ∃ l, addLate cause b = { b with lates := l } ∧ cause ∈ l ∧ ∀ v ∈ b.lates, v ∈ l :=
  ⟨(addLate cause b).lates, by unfold addLate; split <;> rfl, mem_addLate cause b, by
    unfold addLate
    split
    · exact fun v mem => mem
    · exact fun v mem => List.mem_append_left _ mem⟩

theorem ticket_poisonBatch (n k : Nat) : ticket (poisonBatch n d) k = if k = n then (ticket d k).map (addLate 21) else ticket d k :=
  ticket_modTicket_eq (fun t own => (addLate_serial 21 t).trans own) k

theorem Remains.poisonBatch (h : Remains cs b d) (n : Nat) : Remains cs b (poisonBatch n d) := by
  obtain ⟨l, found, held⟩ := h
  by_cases own : b.serial = n
  · obtain ⟨l', eq, -, grown⟩ := addLate_eq 21 { b with lates := l }
    exact ⟨l', by rw [ticket_poisonBatch, if_pos own, found, Option.map_some, eq], fun v mem => grown v (held v mem)⟩
  · exact ⟨l, by rw [ticket_poisonBatch, if_neg own, found], held⟩

theorem Remains.poisoned (h : Remains cs b d) : Remains [21] b (Machine.poisonBatch b.serial d) := by
  obtain ⟨l, found, -⟩ := h
  obtain ⟨l', eq, late, -⟩ := addLate_eq 21 { b with lates := l }
  exact ⟨l', by rw [ticket_poisonBatch, if_pos rfl, found, Option.map_some, eq], by simpa using late⟩

theorem Remains.activeHit (h : Remains cs b d) (page bit slot month : Nat) : Remains cs b (activeHit page bit slot month d) := by
  unfold Machine.activeHit
  extract_lets d1 d2 hit
  have noted : Remains cs b d2 := h.congr (by simp [d2, d1])
  refine Remains.congr (d := hit.foldl (fun d b => Machine.poisonBatch b.serial d) d2) ?_ (by rw [requestTurn_chn])
  clear_value d2 hit
  induction hit generalizing d2 with
  | nil => exact noted
  | cons a r ih => exact ih _ (noted.poisonBatch a.serial)

theorem Remains.badTable (h : Remains cs b d) (page : Nat) (e : Batch) (n : Nat) : Remains cs b (badTable page e n d) := by
  have counted : Remains cs b (countN pHBM 0x054 n d) := h.congr rfl
  unfold Machine.badTable
  exact (counted.poisonBatch e.serial).activeHit _ _ _ _

/-- What meets poison in its own table is late. -/
theorem Remains.badTable_own (h : Remains cs b d) (page n : Nat) {e : Batch} (own : e.serial = b.serial) :
    Remains [21] b (Machine.badTable page e n d) := by
  have counted : Remains cs b (countN pHBM 0x054 n d) := h.congr rfl
  unfold Machine.badTable
  rw [own]
  exact counted.poisoned.activeHit _ _ _ _

end

end Sys2Proof.Machine
end

section
/-! SUPPORT. The passes of one Month, the batches of a run, and what a table pass does to their tickets. -/

namespace Sys2Proof.Machine

/-! ## The passes of one Month (R126, R271) -/

section
variable {desc : OpDesc} {c : Nat}

theorem mem_of_mem_passPieces {α : Type} {size : Nat} {as p : List α} (piece : p ∈ passPieces size as) {a : α} (mem : a ∈ p) :
    a ∈ as := by
  obtain ⟨i, -, rfl⟩ := List.mem_map.mp piece
  exact List.mem_of_mem_drop (List.mem_of_mem_take mem)

theorem gathered_serial {bs : List Batch} {q : Nat × Nat} (mem : q ∈ (gathered desc c bs).1) : ∃ e ∈ bs, e.serial = q.1 := by
  induction bs with
  | nil => simp [gathered] at mem
  | cons b r ih =>
    have cases_ : q.1 = b.serial ∨ q ∈ (gathered desc c r).1 := by
      unfold gathered at mem
      split at mem
      · rcases List.mem_append.mp mem with own | rest
        · obtain ⟨t, -, rfl⟩ := List.mem_map.mp own
          exact .inl rfl
        · exact .inr rest
      · obtain ⟨t, -, rfl⟩ := List.mem_map.mp mem
        exact .inl rfl
    rcases cases_ with own | rest
    · exact ⟨b, by simp, own.symm⟩
    · obtain ⟨e, mem, serial⟩ := ih rest
      exact ⟨e, by simp [mem], serial⟩

/-- The batches of a pass are bound to one Month. -/
theorem passesOf_month {bs : List Batch} {p : List (Nat × Nat)} (pass : p ∈ (passesOf desc c bs).1) :
    ∃ month, ∀ q ∈ p, ∃ e ∈ bs, e.serial = q.1 ∧ e.month = month := by
  unfold passesOf at pass
  generalize (bs.map (fun b => b.month)).eraseDups = months at pass
  generalize passSize bs = size at pass
  induction months with
  | nil => simp [monthPasses] at pass
  | cons month r ih =>
    unfold monthPasses at pass
    extract_lets g at pass
    have cases_ : p ∈ passPieces size g.1 ∨ p ∈ (monthPasses desc c size bs r).1 := by
      split at pass
      · exact List.mem_append.mp pass
      · exact .inl (List.mem_of_mem_filter pass)
    rcases cases_ with own | rest
    · refine ⟨month, fun q mem => ?_⟩
      obtain ⟨e, mem, serial⟩ := gathered_serial (mem_of_mem_passPieces own mem)
      obtain ⟨mem, bound⟩ := List.mem_filter.mp mem
      exact ⟨e, mem, serial, by simpa using bound⟩
    · exact ih rest

end

/-! ## A run's batches are checked one after the other (R271) -/

section
variable {d x : Die} {m : Model} {c : Nat} {run : List Nat}

/-- Checks of each batch of a run, whatever tickets and counters they find, check each by its own. -/
theorem onRun_foldl_checked {eff : Batch → Model → Nat → Die → Die} {F : Batch → Nat × Nat → Prop} {M : Batch → Nat → Nat → Prop}
    (distinct : run.Nodup) (same : unchecked x = unchecked d)
    (step : ∀ s ∈ run, ∀ e, ticket x s = some e → ∀ v, unchecked v = unchecked d → Checked s (F e) (M e) v (eff e m c v)) :
    let y := run.foldl (onRun m c eff) x
    unchecked y = unchecked d ∧ (∀ s, s ∉ run → ticket y s = ticket x s) ∧
      ∀ s ∈ run, ∀ e, ticket x s = some e → ∃ e', ticket y s = some e' ∧ (∀ f, f ∈ e'.fails ↔ f ∈ e.fails ∨ F e f) ∧
        ∀ t key, M e t key → key ∈ mgetD e'.made t [] := by
  induction run generalizing x with
  | nil => exact ⟨same, fun _ _ => rfl, by simp⟩
  | cons s r ih =>
    obtain ⟨fresh, distinct⟩ := List.nodup_cons.mp distinct
    have first : unchecked (onRun m c eff x s) = unchecked d ∧ ∀ k, k ≠ s → ticket (onRun m c eff x s) k = ticket x k := by
      cases found : ticket x s with
      | none => rw [onRun_of_none found]; exact ⟨same, fun _ _ => rfl⟩
      | some e =>
        rw [onRun_of_ticket found]
        have checked := step s (by simp) e found x same
        exact ⟨checked.rest.trans same, checked.others⟩
    obtain ⟨rest, others⟩ := first
    have apart : ∀ k ∈ r, k ≠ s := fun k mem eq => fresh (eq ▸ mem)
    obtain ⟨rest', others', owns⟩ := ih distinct rest (fun k mem e found =>
      step k (by simp [mem]) e ((others k (apart k mem)).symm.trans found))
    refine ⟨rest', fun k out => ?_, fun k mem e found => ?_⟩
    · rw [List.mem_cons, not_or] at out
      exact (others' k out.2).trans (others k out.1)
    · by_cases own : k = s
      · subst own
        obtain ⟨e', found', fails, made⟩ := (step k (by simp) e found x same).own e found
        refine ⟨e', ?_, fails, fun t key h => made t key (.inr h)⟩
        rw [List.foldl_cons, others' k fresh, onRun_of_ticket found, found']
      · have mem : k ∈ r := (List.mem_cons.mp mem).resolve_left own
        exact owns k mem e ((others k own).trans found)

end

/-! ## Table passes (R126) -/

/-- What a table pass does on the tokens of a batch that it holds. -/
def onTokens (p : List (Nat × Nat)) (eff : Batch → Model → Nat → Die → Die) (b : Batch) (m : Model) (_c : Nat) (d : Die) : Die :=
  (p.filter (fun q => q.1 == b.serial)).foldl (fun d q => eff b m q.2 d) d

/-- Checks of tokens against the tables of a locus: each token is `Bad` or passes where the tables are there and clean. -/
structure ChecksTables (eff : Batch → Model → Nat → Die → Die) (m : Model) (locus page cause : Nat)
    (Bad : Die → Batch → Tables → OpE → Nat → TensorE → Nat → Prop) : Prop where
  unread : ∀ {b t d}, opTables b m locus = none → eff b m t d = d
  poisoned : ∀ {b t d tb o i w}, opTables b m locus = some (tb, o, i, w) → badWords m tb i w ≠ 0 →
    eff b m t d = badTable page b (badWords m tb i w) d
  checks : ∀ {b t d tb o i w}, opTables b m locus = some (tb, o, i, w) → badWords m tb i w = 0 →
    Checked b.serial (fun f => Bad d b tb o i w t ∧ f = (t, cause)) (fun t' key => t' = t ∧ key = 2 * o.locus) d (eff b m t d)
  level : ∀ {b d x tb o i w t}, unchecked x = unchecked d → (Bad x b tb o i w t ↔ Bad d b tb o i w t)

section
variable {eff : Batch → Model → Nat → Die → Die} {m : Model} {locus page cause c : Nat}
  {Bad : Die → Batch → Tables → OpE → Nat → TensorE → Nat → Prop} {d : Die} {b e : Batch} {cs : List Nat} {p : List (Nat × Nat)}
  {tb : Tables} {o : OpE} {i : Nat} {w : TensorE}

theorem residue_checksTables (desc : OpDesc) (m : Model) : ChecksTables (residueToken desc) m desc.locus.toNat pRES 1
    (fun _ b tb o i w t => ∃ q ∈ residueOf desc b m tb o i w t, q.1 ≠ q.2) where
  unread none_ := by unfold residueToken; rw [none_]
  poisoned read bad := by unfold residueToken; rw [read]; exact if_pos bad
  checks read clean := residueToken_checks read clean
  level _ := Iff.rfl

theorem banded_checksTables (l : Nat) (desc : OpDesc) (m : Model) : ChecksTables (bandedToken l desc) m desc.locus.toNat pBND 2
    (fun d b tb o i w t => badScales b t desc.entry.toNat ≠ [] ∨
      ∃ r ∈ bandedOf (lanesOf d l 1) desc b m tb o i w t, r.ok = false) where
  unread none_ := by unfold bandedToken; rw [none_]
  poisoned read bad := by unfold bandedToken; rw [read]; exact if_pos bad
  checks read clean := bandedToken_checks l read clean
  level same := by rw [unchecked_lanes same]

theorem opTables_month (same : e.month = b.month) (locus : Nat) : opTables e m locus = opTables b m locus := by
  rw [opTables, same, opTables]

theorem Remains.month (h : Remains cs b d) {s : Nat} (found : ticket d s = some e) (own : s = b.serial) : e.month = b.month := by
  subst own
  obtain ⟨l, found', -⟩ := h
  rw [found', Option.some.injEq] at found
  rw [← found]

/-- A pass holds no token of a batch, or the batch's table has an uncorrectable word. -/
def Uncompared (p : List (Nat × Nat)) (b : Batch) (m : Model) (locus : Nat) : Prop :=
  (∀ t, (b.serial, t) ∉ p) ∨ ∃ tb o i w, opTables b m locus = some (tb, o, i, w) ∧ badWords m tb i w ≠ 0

variable (checks : ChecksTables eff m locus page cause Bad)
include checks

theorem ChecksTables.keeps (e : Batch) (t : Nat) (d : Die) : Keeps d (eff e m t d) := by
  cases read : opTables e m locus with
  | none => rw [checks.unread read]; exact .refl d
  | some tables =>
    obtain ⟨tb, o, i, w⟩ := tables
    by_cases clean : badWords m tb i w = 0
    · exact (checks.checks read clean).keeps
    · rw [checks.poisoned read clean]
      exact badTable_keeps _ _ _ d

/-- Checks of another batch leave a ticket as it was, but that poison they meet may make it late. -/
theorem ChecksTables.remains_apart (apart : e.serial ≠ b.serial) (t : Nat) (h : Remains cs b d) : Remains cs b (eff e m t d) := by
  cases read : opTables e m locus with
  | none => rwa [checks.unread read]
  | some tables =>
    obtain ⟨tb, o, i, w⟩ := tables
    by_cases clean : badWords m tb i w = 0
    · exact h.of_ticket ((checks.checks read clean).others b.serial apart.symm)
    · rw [checks.poisoned read clean]
      exact h.badTable _ _ _

theorem ChecksTables.run_keeps (p : List (Nat × Nat)) (run : List Nat) (d : Die) :
    Keeps d (run.foldl (onRun m c (onTokens p eff)) d) := by
  refine .foldl (fun d s => ?_) run d
  cases found : ticket d s with
  | none => rw [onRun_of_none found]; exact .refl d
  | some e =>
    rw [onRun_of_ticket found]
    exact .foldl (fun (d : Die) (q : Nat × Nat) => checks.keeps e q.2 d) _ d

theorem ChecksTables.step_remains (uncompared : Uncompared p b m locus) (s : Nat) (h : Remains cs b d) :
    Remains cs b (onRun m c (onTokens p eff) d s) := by
  cases found : ticket d s with
  | none => rwa [onRun_of_none found]
  | some e =>
    have begun := h
    rw [onRun_of_ticket found, onTokens]
    refine List.foldlRecOn _ _ h fun x h q mem => ?_
    by_cases own : e.serial = b.serial
    · obtain ⟨mem, serial⟩ := List.mem_filter.mp mem
      have token : (b.serial, q.2) ∈ p := by rwa [← own, ← eq_of_beq serial]
      obtain apart | ⟨tb, o, i, w, read, bad⟩ := uncompared
      · exact absurd token (apart q.2)
      · have month := begun.month found ((serial_of_ticket found).symm.trans own)
        rw [checks.poisoned ((opTables_month month locus).trans read) bad]
        exact h.badTable _ _ _
    · exact checks.remains_apart own q.2 h

theorem ChecksTables.run_remains (uncompared : Uncompared p b m locus) (run : List Nat) (h : Remains cs b d) :
    Remains cs b (run.foldl (onRun m c (onTokens p eff)) d) :=
  List.foldlRecOn run _ h fun _ h s _ => checks.step_remains uncompared s h

/-- A batch whose tokens meet an uncorrectable word in the batch's turn is late, and the word is reported. -/
theorem ChecksTables.step_poisons (present : ∀ d, pageAbsent d page = false) (known : (sevOf page 5).isSome = true)
    (read : opTables b m locus = some (tb, o, i, w)) (bad : badWords m tb i w ≠ 0) {t : Nat} (mem : (b.serial, t) ∈ p)
    (h : Remains cs b d) : Remains [21] b (onRun m c (onTokens p eff) d b.serial) ∧
      Reported page 5 (onRun m c (onTokens p eff) d b.serial) := by
  obtain ⟨l, found, -⟩ := h
  rw [onRun_of_ticket found, onTokens]
  have tables : opTables { b with lates := l } m locus = some (tb, o, i, w) := read
  have token : (b.serial, t) ∈ p.filter (fun q => q.1 == b.serial) := List.mem_filter.mpr ⟨mem, by simp⟩
  obtain ⟨q, r, split_⟩ := List.exists_cons_of_ne_nil (List.ne_nil_of_mem token)
  dsimp only
  rw [split_, List.foldl_cons, checks.poisoned tables bad]
  refine List.foldlRecOn (motive := fun x => Remains [21] b x ∧ Reported page 5 x) r _
    ⟨Remains.badTable_own (cs := []) ⟨l, found, by simp⟩ _ _ rfl, badTable_reports present known _ _ _⟩ ?_
  rintro x ⟨late, reported⟩ a -
  rw [checks.poisoned tables bad]
  exact ⟨late.badTable _ _ _, (badTable_keeps _ _ _ _).reports _ _ reported⟩

theorem ChecksTables.run_poisons (present : ∀ d, pageAbsent d page = false) (known : (sevOf page 5).isSome = true)
    (read : opTables b m locus = some (tb, o, i, w)) (bad : badWords m tb i w ≠ 0) {t : Nat} (mem : (b.serial, t) ∈ p)
    {run : List Nat} (serves : b.serial ∈ run) (h : Remains cs b d) :
    Remains [21] b (run.foldl (onRun m c (onTokens p eff)) d) ∧ Reported page 5 (run.foldl (onRun m c (onTokens p eff)) d) := by
  have uncompared : Uncompared p b m locus := .inr ⟨tb, o, i, w, read, bad⟩
  obtain ⟨before, behind, rfl⟩ := List.append_of_mem serves
  rw [List.foldl_append, List.foldl_cons]
  obtain ⟨late, reported⟩ := checks.step_poisons (c := c) present known read bad mem (checks.run_remains (c := c) uncompared before h)
  exact ⟨checks.run_remains uncompared behind late, (checks.run_keeps p behind _).reports _ _ reported⟩

/-- A pass of a clean table fails each of its batches by the tokens that it holds of it. -/
theorem ChecksTables.run_checks (read : opTables b m locus = some (tb, o, i, w)) (clean : badWords m tb i w = 0)
    {run : List Nat} (distinct : run.Nodup) (month : ∀ q ∈ p, ∀ e, ticket d q.1 = some e → e.month = b.month) :
    let y := run.foldl (onRun m c (onTokens p eff)) d
    unchecked y = unchecked d ∧ ∀ s ∈ run, ∀ e, ticket d s = some e → ∃ e', ticket y s = some e' ∧
      (∀ f, f ∈ e'.fails ↔ f ∈ e.fails ∨ ∃ t, (e.serial, t) ∈ p ∧ Bad d e tb o i w t ∧ f = (t, cause)) ∧
      ∀ t, (e.serial, t) ∈ p → 2 * o.locus ∈ mgetD e'.made t [] := by
  have step : ∀ s ∈ run, ∀ e, ticket d s = some e → ∀ v, unchecked v = unchecked d →
      Checked s (fun f => ∃ q ∈ p.filter (fun q => q.1 == e.serial), Bad d e tb o i w q.2 ∧ f = (q.2, cause))
        (fun t key => ∃ q ∈ p.filter (fun q => q.1 == e.serial), t = q.2 ∧ key = 2 * o.locus) v (onTokens p eff e m c v) := by
    rintro s - e found v same
    obtain rfl := serial_of_ticket found
    refine .foldl (fun q mem x same' => ?_) rfl
    obtain ⟨mem, serial⟩ := List.mem_filter.mp mem
    have tables : opTables e m locus = some (tb, o, i, w) :=
      (opTables_month (month q mem e ((eq_of_beq serial).symm ▸ found)) locus).trans read
    exact (checks.checks tables clean).mono (fun f => by rw [checks.level (same'.trans same)]) (fun _ _ h => h)
  obtain ⟨rest, -, owns⟩ := onRun_foldl_checked distinct rfl step
  refine ⟨rest, fun s mem e found => ?_⟩
  obtain ⟨e', found', fails, made⟩ := owns s mem e found
  exact ⟨e', found', fun f => by rw [fails]; simp [List.mem_filter], fun t mem =>
    made t _ ⟨(e.serial, t), List.mem_filter.mpr ⟨mem, by simp⟩, rfl, rfl⟩⟩

end

end Sys2Proof.Machine
end

section
/-! SUPPORT. Table passes and radio checks as they run, and O18. -/

namespace Sys2Proof.Machine

/-! ## What a pass leaves of a batch -/

section
variable {eff : Batch → Model → Nat → Die → Die} {m : Model} {locus page cause c : Nat}
  {Bad : Die → Batch → Tables → OpE → Nat → TensorE → Nat → Prop} {y : Die} {b : Batch} {p : List (Nat × Nat)}
  {tb : Tables} {o : OpE} {n : Nat} {w : TensorE} {run : List Nat}

theorem ChecksTables.run_ends (checks : ChecksTables eff m locus page cause Bad) (present : ∀ d, pageAbsent d page = false)
    (known : (sevOf page 5).isSome = true) (read : opTables b m locus = some (tb, o, n, w)) (distinct : run.Nodup)
    (serves : b.serial ∈ run) (found : ticket y b.serial = some b)
    (oneMonth : ∃ month, ∀ q ∈ p, ∀ e, ticket y q.1 = some e → e.month = month) :
    let x := run.foldl (onRun m c (onTokens p eff)) y
    (badWords m tb n w = 0 → (∃ t, (b.serial, t) ∈ p) → unchecked x = unchecked y) ∧ ∃ b', ticket x b.serial = some b' ∧
      (badWords m tb n w = 0 →
        (∀ f, f ∈ b'.fails ↔ f ∈ b.fails ∨ ∃ t, (b.serial, t) ∈ p ∧ Bad y b tb o n w t ∧ f = (t, cause)) ∧
        ∀ t, (b.serial, t) ∈ p → 2 * o.locus ∈ mgetD b'.made t []) ∧
      (badWords m tb n w ≠ 0 → (∃ t, (b.serial, t) ∈ p) → errSet x page 5 = true ∧ 21 ∈ b'.lates ∧ b'.fails = b.fails) := by
  have whole : Remains [] b y := ⟨b.lates, found, by simp⟩
  by_cases held : ∃ t, (b.serial, t) ∈ p
  · obtain ⟨t, token⟩ := held
    by_cases clean : badWords m tb n w = 0
    · obtain ⟨month, bound⟩ := oneMonth
      have same : ∀ q ∈ p, ∀ e, ticket y q.1 = some e → e.month = b.month :=
        fun q mem e found' => (bound q mem e found').trans (bound _ token b found).symm
      obtain ⟨rest, owns⟩ := checks.run_checks (c := c) read clean distinct same
      obtain ⟨b', found', fails⟩ := owns b.serial serves b found
      exact ⟨fun _ _ => rest, b', found', fun _ => fails, fun bad => absurd clean bad⟩
    · obtain ⟨⟨l, found', late⟩, reported⟩ := checks.run_poisons (c := c) present known read clean token serves whole
      exact ⟨fun h => absurd h clean, _, found', fun h => absurd h clean, fun _ _ => ⟨reported, late 21 (by simp), rfl⟩⟩
  · have apart : ∀ t, (b.serial, t) ∉ p := fun t token => held ⟨t, token⟩
    obtain ⟨l, found', -⟩ := checks.run_remains (c := c) (.inl apart) run whole
    exact ⟨fun _ h => absurd h held, _, found', fun _ => ⟨by simp [apart], by simp [apart]⟩, fun _ h => absurd h held⟩

end

/-! ## The program goes on (R126, R258) -/

section
variable {d y x : Die} {l eng n k : Nat} {i : Instr} {desc : OpDesc} {m : Model} {b : Batch}

theorem core_nextPc (on : (pipe d l).enabled = true) : core (nextPc l d) l = { core d l with pc := w32 ((core d l).pc + 1) } :=
  core_modCore on _

theorem core_passIssued_more (on : (pipe d l).enabled = true) :
    core (passIssued l true d) l = { core d l with passNo := (core d l).passNo + 1 } :=
  core_modCore on (fun c => { c with passNo := c.passNo + 1 })

theorem core_passIssued_last (on : (pipe d l).enabled = true) :
    core (passIssued l false d) l = { core d l with passNo := 0, pc := w32 ((core d l).pc + 1) } := by
  have last : core (modCore l (fun c => { c with passNo := 0 }) d) l = { core d l with passNo := 0 } := core_modCore on _
  have on' : (pipe (modCore l (fun c => { c with passNo := 0 }) d) l).enabled = true := (enabled_modCore _ l).trans on
  exact (core_nextPc on').trans (by rw [last])

/-- The program goes to its next word behind the last pass, and to the next pass behind another. -/
theorem passIssued_goes (on : (pipe d l).enabled = true) (all : Bool) {k n : Nat} (inside : k < n) :
    let x := passIssued l (!all || decide (k + 1 < n)) d
    (core x l).queues = (core d l).queues ∧
      if all = true ∧ k + 1 = n then (core x l).pc = ((core d l).pc + 1) % 2 ^ 32 ∧ (core x l).passNo = 0
      else (core x l).pc = (core d l).pc ∧ (core x l).passNo = (core d l).passNo + 1 := by
  intro x
  by_cases last : all = true ∧ k + 1 = n
  · have more : (!all || decide (k + 1 < n)) = false := by simp [last.1, last.2]
    have goes : core x l = _ := (congrArg (fun more => core (passIssued l more d) l) more).trans (core_passIssued_last on)
    rw [if_pos last, goes]
    exact ⟨rfl, rfl, rfl⟩
  · have more : (!all || decide (k + 1 < n)) = true := by
      cases all <;> simp at last ⊢
      omega
    have goes : core x l = _ := (congrArg (fun more => core (passIssued l more d) l) more).trans (core_passIssued_more on)
    rw [if_neg last, goes]
    exact ⟨rfl, rfl, rfl⟩

theorem passIssued_chn (more : Bool) : (passIssued l more d).chn = d.chn := by cases more <;> rfl
theorem passIssued_tim (more : Bool) : (passIssued l more d).tim = d.tim := by cases more <;> rfl
theorem passIssued_errs (more : Bool) : (passIssued l more d).errs = d.errs := by cases more <;> rfl

theorem passIssued_frame (frame : EngineFrame d y) (more : Bool) : EngineFrame d (passIssued l more y) := by
  cases more
  · exact frame
  · exact frame

theorem core_congr (vp : x.vp = d.vp) : core x l = core d l := by rw [core, pipe_congr vp, core]

/-- What stands behind an instruction that issues, in the engine's queue. -/
theorem Issues.queued (issues : Issues l eng i desc n d y) : (pipe (fetchRun l d) l).enabled = true ∧
    ∃ t q, y = Machine.queued l t q desc (fetchRun l d) := by
  obtain ⟨may, -, -, -, fits⟩ := issues
  exact ⟨enabled_of_mayIssue may, enqueue_eq fits⟩

end

/-! ## Table passes -/

section
variable {eff : Batch → Model → Nat → Die → Die} {m : Model} {page cause : Nat}
  {Bad : Die → Batch → Tables → OpE → Nat → TensorE → Nat → Prop} {d y : Die} {b : Batch} {p : List (Nat × Nat)}
  {tb : Tables} {o : OpE} {l eng n : Nat} {w : TensorE} {i : Instr} {desc : OpDesc} {cyc : Die → Model → Nat → Nat}
  {bad : Nat → Prop}

theorem passRun_of_issues (serves : Serves l m b d)
    (pass : (passesOf desc (core (fetchRun l d) l).cursor (runBatches (fetchRun l d) l)).1[(core (fetchRun l d) l).passNo]? = some p)
    (some_ : p ≠ []) (costs : cyc (spend l 1 (fetchRun l d)) m p.length = cyc (fetchRun l d) m p.length)
    (issues : Issues l eng i desc (cyc (fetchRun l d) m p.length) d y) :
    let z := fetchRun l d
    let ps := passesOf desc (core z l).cursor (runBatches z l)
    passRun l eng (opcode i) desc cyc eff [] d = passIssued l (!ps.2 || decide ((core z l).passNo + 1 < ps.1.length))
      ((core z l).run.foldl (onRun m (core z l).cursor (onTokens p eff)) y) := by
  obtain ⟨-, mem, -, served, -⟩ := serves
  have inside := (List.getElem?_eq_some_iff.mp pass).1
  unfold passRun
  dsimp only
  rw [if_pos (.inl inside), pass, Option.getD_some]
  exact engineIssue_of_issues (List.ne_nil_of_mem mem) served (by simpa [some_] using costs) issues

/-- The batches of which a pass holds tokens are bound to one Month. -/
theorem pass_oneMonth {z x : Die} {c : Nat} (pass : p ∈ (passesOf desc c (runBatches z l)).1)
    (tickets : ∀ s, ticket x s = ticket z s) : ∃ month, ∀ q ∈ p, ∀ e, ticket x q.1 = some e → e.month = month := by
  obtain ⟨month, bound⟩ := passesOf_month pass
  refine ⟨month, fun q token e found => ?_⟩
  obtain ⟨e', runs, serial, its⟩ := bound q token
  obtain ⟨s, -, found'⟩ := List.mem_filterMap.mp runs
  have same : s = q.1 := (serial_of_ticket found').symm.trans serial
  rw [tickets, ← same, found', Option.some.injEq] at found
  rw [← found, its]

theorem passRun_ends (checks : ChecksTables eff m desc.locus.toNat page cause Bad) (present : ∀ d, pageAbsent d page = false)
    (known : (sevOf page 5).isSome = true) (serves : Serves l m b d) (read : opTables b m desc.locus.toNat = some (tb, o, n, w))
    (pass : (passesOf desc (core (fetchRun l d) l).cursor (runBatches (fetchRun l d) l)).1[(core (fetchRun l d) l).passNo]? = some p)
    (some_ : p ≠ []) (costs : cyc (spend l 1 (fetchRun l d)) m p.length = cyc (fetchRun l d) m p.length)
    (level : ∀ x, wiring x = wiring (fetchRun l d) → x.bnd = (fetchRun l d).bnd → ∀ t, Bad x b tb o n w t ↔ bad t)
    (issues : Issues l eng i desc (cyc (fetchRun l d) m p.length) d y) :
    let z := fetchRun l d
    let k := core z l
    let ps := passesOf desc k.cursor (runBatches z l)
    let x := passRun l eng (opcode i) desc cyc eff [] d
    ∃ b', (core x l).queues = (core y l).queues ∧ x.tim = y.tim ∧
      (badWords m tb n w = 0 → (∃ t, (b.serial, t) ∈ p) → EngineFrame z x) ∧
      (if ps.2 = true ∧ k.passNo + 1 = ps.1.length then (core x l).pc = (k.pc + 1) % 2 ^ 32 ∧ (core x l).passNo = 0
        else (core x l).pc = k.pc ∧ (core x l).passNo = k.passNo + 1) ∧
      ticket x b.serial = some b' ∧
      (badWords m tb n w = 0 → (∀ f, f ∈ b'.fails ↔ f ∈ b.fails ∨ ∃ t, (b.serial, t) ∈ p ∧ bad t ∧ f = (t, cause)) ∧
        ∀ t, (b.serial, t) ∈ p → 2 * o.locus ∈ mgetD b'.made t []) ∧
      (badWords m tb n w ≠ 0 → (∃ t, (b.serial, t) ∈ p) → errSet x page 5 = true ∧ 21 ∈ b'.lates ∧ b'.fails = b.fails) := by
  intro z k ps x
  have ran : x = _ := passRun_of_issues serves pass some_ costs issues
  obtain ⟨distinct, mem, found, -, -⟩ := serves
  obtain ⟨on, t, q, rfl⟩ := issues.queued
  have tickets : ∀ s, ticket (queued l t q desc z) s = ticket z s := 
    fun s => ticket_congr (by rw [queued_chn]) s
  have oneMonth := pass_oneMonth (List.mem_of_getElem? pass) tickets
  obtain ⟨frame, b', ended, clean, poisoned⟩ := checks.run_ends (c := k.cursor) present known read distinct mem
    ((tickets _).trans found) oneMonth
  have keeps := checks.run_keeps (c := k.cursor) p k.run (queued l t q desc z)
  have wired : wiring (queued l t q desc z) = wiring z := wiring_queued t q desc
  have core_y : core (queued l t q desc z) l = _ := core_queued on t q desc
  have inside : k.passNo < ps.1.length := (List.getElem?_eq_some_iff.mp pass).1
  have on_v := (enabled_congr (wiring_of_vp keeps.vp) l).trans ((enabled_congr wired l).trans on)
  obtain ⟨queues, goes⟩ := passIssued_goes on_v ps.2 inside
  rw [core_congr keeps.vp, core_y] at goes
  rw [core_congr keeps.vp] at queues
  rw [ran]
  refine ⟨b', queues, (passIssued_tim _).trans keeps.tim, fun h held => ?_, goes, ?_, fun h => ?_, fun h held => ?_⟩
  · exact passIssued_frame (engineFrame_of_unchecked (frame h held) (queued_frame t q desc)) _
  · exact (ticket_congr (by rw [passIssued_chn]) _).trans ended
  · obtain ⟨fails, made⟩ := clean h
    exact ⟨fun f => by simp only [fails, level _ wired (queued_bnd t q desc)], made⟩
  · obtain ⟨reported, late, fails⟩ := poisoned h held
    exact ⟨Reported.same reported (passIssued_errs _), late, fails⟩

end

/-! ## Instances of radio batches (R192, R193) -/

section
variable {d x y : Die} {m : Model} {b : Batch} {o : OpE} {l entry n : Nat} {rs : List RecIn} {desc : OpDesc} {i : Instr}

/-- A comparison of some records of one transform with the frame that they name fails. -/
def FftFails (d : Die) (l : Nat) (m : Model) (b : Batch) (o : OpE) (rs : List RecIn) : Prop :=
  ∃ tb, tablesOf m b.month = some tb ∧ ∃ r ∈ rs.head?, ∃ h, fftHeld d b r.payload = some h ∧
    ∃ q ∈ fftOf (lanesOf d l 1) m o tb h rs r.payload, q.2.ok = false

theorem fftFails_iff {tb : Tables} (tables : tablesOf m b.month = some tb) : FftFails d l m b o rs ↔ ∃ r ∈ rs.head?, ∃ h,
    fftHeld d b r.payload = some h ∧ ∃ q ∈ fftOf (lanesOf d l 1) m o tb h rs r.payload, q.2.ok = false := by
  simp [FftFails, tables]

theorem fftFails_congr (ing : x.ing = d.ing) (chans : ∀ c, chan x c = chan d c) (lanes : lanesOf x l 1 = lanesOf d l 1) :
    FftFails x l m b o rs ↔ FftFails d l m b o rs := by
  have held : ∀ p, fftHeld x b p = fftHeld d b p := fun p => by simp only [fftHeld, ing, chans]
  simp only [FftFails, held, lanes]

theorem fftFails_unchecked (same : unchecked x = unchecked d) : FftFails x l m b o rs ↔ FftFails d l m b o rs :=
  fftFails_congr (unchecked_ing same) (unchecked_chan same) (unchecked_lanes same l 1)

theorem fftFails_queued (t : Nat) (q : AMap (List Nat) → AMap (List Nat)) (desc : OpDesc) :
    FftFails (queued l t q desc d) l m b o rs ↔ FftFails d l m b o rs :=
  fftFails_congr (queued_ing t q desc) (fun c => by rw [chan, queued_chn, chan]) (lanesOf_queued t q desc 1)

theorem fftInstance_checks : Checked b.serial (fun f => FftFails d l m b o rs ∧ f = (0, 2)) noCheck d
    (fftInstance l entry b m o rs d) := by
  have passes (none_ : ¬FftFails d l m b o rs) : Checked b.serial (fun f => FftFails d l m b o rs ∧ f = (0, 2)) noCheck d d :=
    (Checked.refl _ d).mono (by simp [none_, noFail]) (fun _ _ h => h)
  cases rs with
  | nil => exact passes (by simp [FftFails])
  | cons r rest =>
    cases tables : tablesOf m b.month with
    | none =>
      simp only [fftInstance, tables]
      exact passes (by simp [FftFails, tables])
    | some tb =>
      cases held : fftHeld d b r.payload with
      | none =>
        simp only [fftInstance, tables, held]
        exact passes (by simp [FftFails, held])
      | some h =>
        simp only [fftInstance, tables, held]
        generalize hres : fftOf (lanesOf d l 1) m o tb h (r :: rest) r.payload = res
        have iff_ : FftFails d l m b o (r :: rest) ↔ res.filter (fun q => !q.2.ok) ≠ [] := by
          simp [FftFails, tables, held, hres, List.filter_eq_nil_iff]
        have counted := ((Checked.countN pBND 0x074 res.length d (n := b.serial)).trans (.countN pBND 0x078
          (res.filter (fun q => !q.2.ok)).length _)).trans
            (.noteRecords 7 entry (fun q => fftKey q.payload == fftKey r.payload) _)
        refine (counted.trans (.fail_iff (F := fun f => f = (0, 2)) (p := FftFails d l m b o (r :: rest)) (fun fails => ?_)
          (fun none_ => ?_))).mono (by simp [noFail]) (by simp [noCheck])
        · obtain ⟨q, _, first⟩ := List.exists_cons_of_ne_nil (iff_.mp fails)
          rw [first]
          exact .failCheck _ _ _ _ _ _ _
        · rw [not_not.mp (mt iff_.mpr none_)]

theorem fftcBatch_checks (op : opAt m desc.locus.toNat = some o) (c : Nat) (same : unchecked x = unchecked d) :
    Checked b.serial (fun f => ∃ rs ∈ instances b desc.entry.toNat, FftFails d l m b o rs ∧ f = (0, 2))
      (fun _ _ => ∃ rs ∈ instances b desc.entry.toNat, False) x (fftcBatch l desc b m c x) := by
  unfold fftcBatch
  rw [op]
  exact .foldl (fun rs _ v same => fftInstance_checks.mono (fun f => by rw [fftFails_unchecked same]) (fun _ _ h => h)) same

theorem fftcCycles_spend (l : Nat) (desc : OpDesc) (d : Die) (m : Model) :
    perBatch (fftcCycles l desc) (spend l 1 d) (runBatches d l) m = together d l (fun b => fftcCycles l desc d b m) := by
  simp only [perBatch, together, fftcCycles, spend, lanesOf_modCore]

theorem residueCycles_spend (l : Nat) (desc : OpDesc) (d : Die) (m : Model) (n : Nat) :
    residueCycles l desc (spend l 1 d) m n = residueCycles l desc d m n := by
  simp only [residueCycles, spend, lanesOf_modCore]

theorem bandedCycles_spend (l : Nat) (desc : OpDesc) (d : Die) (m : Model) (n : Nat) :
    bandedCycles l desc (spend l 1 d) m n = bandedCycles l desc d m n := by
  simp only [bandedCycles, spend, lanesOf_modCore]

theorem fftc_ends (serves : Serves l m b d) (op : opAt m desc.locus.toNat = some o)
    (issues : Issues l 1 i desc (together (fetchRun l d) l (fun b => fftcCycles l desc (fetchRun l d) b m)) d y) :
    let z := fetchRun l d
    let x := engineRun l 1 (opcode i) desc (perBatch (fftcCycles l desc)) (fftcBatch l desc) [] d
    ∃ b', (core x l).pc = ((core z l).pc + 1) % 2 ^ 32 ∧ (core x l).queues = (core y l).queues ∧ x.tim = y.tim ∧
      EngineFrame z x ∧ ticket x b.serial = some b' ∧
      ∀ f, f ∈ b'.fails ↔ f ∈ b.fails ∨ f = (0, 2) ∧ ∃ rs ∈ instances b desc.entry.toNat, FftFails z l m b o rs := by
  intro z x
  obtain ⟨distinct, mem, found, served, -⟩ := serves
  have ran : x = _ := (engineIssue_fetchRun (List.ne_nil_of_mem mem)).symm.trans
    (engineIssue_of_issues (List.ne_nil_of_mem mem) served (fftcCycles_spend l desc z m) issues)
  obtain ⟨on, t, q, rfl⟩ := issues.queued
  have tickets : ∀ s, ticket (queued l t q desc z) s = ticket z s :=
    fun s => ticket_congr (by rw [queued_chn]) s
  have start : unchecked (queued l t q desc z) = unchecked (queued l t q desc z) := rfl
  obtain ⟨rest, -, owns⟩ := onRun_foldl_checked distinct start
    (fun s _ e found v same => serial_of_ticket found ▸ fftcBatch_checks (l := l) op (core z l).cursor same)
  obtain ⟨b', ended, fails, -⟩ := owns b.serial mem b ((tickets _).trans found)
  have on_v := (enabled_congr (wiring_of_vp (unchecked_vp rest)) l).trans ((enabled_congr (wiring_queued t q desc) l).trans on)
  have goes := (core_nextPc on_v).trans (by rw [core_congr (unchecked_vp rest)])
  have tim := unchecked_tim rest
  have frame := engineFrame_of_unchecked rest (queued_frame t q desc)
  have once (f : Nat × Nat) : (∃ rs ∈ instances b desc.entry.toNat, FftFails z l m b o rs ∧ f = (0, 2)) ↔
      f = (0, 2) ∧ ∃ rs ∈ instances b desc.entry.toNat, FftFails z l m b o rs :=
    ⟨fun ⟨rs, mem, fails, eq⟩ => ⟨eq, rs, mem, fails⟩, fun ⟨eq, rs, mem, fails⟩ => ⟨rs, mem, fails, eq⟩⟩
  rw [ran]
  refine ⟨b', ?_, ?_, tim, frame, ended,
    fun f => by simp only [fails, fftFails_queued, once]⟩
  · rw [goes, core_queued on]
    rfl
  · rw [goes]

end

/-! ## The commands -/

section
variable {s : State} {d : DieId} {lead : BitVec 3} {desc : OpDesc}

theorem RunsTo.rchk : RunsTo (.rchk d lead desc []) s d
    (passRun lead.toNat 0 0x20 desc (residueCycles lead.toNat desc) (residueToken desc) [] (s.die d)) := rfl

theorem RunsTo.bchk : RunsTo (.bchk d lead desc []) s d
    (passRun lead.toNat 1 0x21 desc (bandedCycles lead.toNat desc) (bandedToken lead.toNat desc) [] (s.die d)) := rfl

theorem RunsTo.fftc : RunsTo (.fftc d lead desc []) s d
    (engineRun lead.toNat 1 0x22 desc (perBatch (fftcCycles lead.toNat desc)) (fftcBatch lead.toNat desc) [] (s.die d)) := rfl

end

/-- Settles O18: a run of checks changes the tickets of its batches alone, each by the tokens or instances that fail; poison in a
table makes its batches late instead. -/
theorem tablePassesCheckTheirTokens : Obligations.TablePassesCheckTheirTokens := by
  unfold Obligations.TablePassesCheckTheirTokens
  intro s d lead desc m b y
  dsimp only
  refine fun serves => ⟨fun p i eng cause page cyc bad tb o n w read pass some_ command issues => ?_,
    fun tb o op tables issues => ?_⟩
  · rcases command with ⟨⟨⟩, bad_iff⟩ | ⟨⟨⟩, bad_iff⟩
    · obtain ⟨b', ends⟩ := passRun_ends (residue_checksTables desc m) (fun _ => rfl) rfl serves read pass some_
        (residueCycles_spend _ _ _ _ _) (fun _ _ _ t => (bad_iff t).symm) issues
      exact ⟨_, b', .rchk, ends⟩
    · obtain ⟨b', ends⟩ := passRun_ends (bad := bad) (banded_checksTables lead.toNat desc m) (fun _ => rfl) rfl serves read pass some_
        (bandedCycles_spend _ _ _ _ _) (fun x wired bnd t => by rw [bad_iff, lanesOf_bnd wired bnd]) issues
      exact ⟨_, b', .bchk, ends⟩
  · obtain ⟨b', pc, queues, tim, frame, ended, fails⟩ := fftc_ends serves op issues
    refine ⟨_, b', .fftc, pc, queues, tim, frame, ended, fun f => ?_⟩
    simp only [fails, fftFails_iff tables]

end Sys2Proof.Machine
end

section
/-! SUPPORT. What an instruction on a batch's token does to the batch's ticket, and how its engine's program goes on (R152 to R159,
R258, R271). -/

namespace Sys2Proof.Machine

/-! ## What an instruction leaves of a die -/

section
variable {d x y z : Die} {e : Batch} {P Q : Batch → Prop} {F : Nat × Nat → Prop}
  {M : Nat → Nat → Prop}

/-- A die without its tickets, counters, error bits and the events that wait for FCU. -/
def inert (d : Die) : Die := { unchecked d with errs := [], fcu := { d.fcu with pend := [] } }

theorem inert_of_unchecked (same : unchecked x = unchecked d) : inert x = inert d :=
  congrArg (fun u : Die => { u with errs := [], fcu := { u.fcu with pend := [] } }) same

theorem inert_raise (page bit : Nat) (d : Die) : inert (raise page bit d) = inert d := by
  obtain ⟨_, _, parts⟩ := raise_parts page bit d
  rw [parts]
  rfl

theorem inert_vp (same : inert x = inert d) : x.vp = d.vp := (congrArg Die.vp same :)
theorem inert_tim (same : inert x = inert d) : x.tim = d.tim := (congrArg Die.tim same :)
theorem inert_tab (same : inert x = inert d) : x.chn.tab = d.chn.tab := (congrArg (fun u : Die => u.chn.tab) same :)

/-- What an engine instruction leaves as it was has no part in what `inert` leaves out. -/
theorem engineFrame_of_inert (same : inert x = inert d) (frame : EngineFrame z d) : EngineFrame z x := by
  have inert_frame : EngineFrame z (inert d) := frame
  rwa [← same] at inert_frame

/-! ## What an instruction does on a batch (R271) -/

/-- Work on a batch: its ticket, where it stands as `e`, comes to be as `Q` says, and nothing else changes but counters and error
bits. -/
structure Acts (e : Batch) (Q : Batch → Prop) (d x : Die) : Prop where
  rest : inert x = inert d
  others : ∀ k, k ≠ e.serial → ticket x k = ticket d k
  own : ticket d e.serial = some e → ∃ e', ticket x e.serial = some e' ∧ Q e'

protected theorem Acts.refl (e : Batch) (d : Die) : Acts e (· = e) d d :=
  ⟨rfl, fun _ _ => rfl, fun found => ⟨e, found, rfl⟩⟩

protected theorem Acts.mono (acts : Acts e Q d x) (le : ∀ e', Q e' → P e') : Acts e P d x where
  rest := acts.rest
  others := acts.others
  own found := let ⟨e', found', q⟩ := acts.own found; ⟨e', found', le e' q⟩

/-- Counters and error bits are no part of a ticket. -/
theorem Acts.reports (acts : Acts e Q d x) (rest : inert y = inert x) (tickets : y.chn.tickets = x.chn.tickets) : Acts e Q d y where
  rest := rest.trans acts.rest
  others k other := (ticket_congr tickets k).trans (acts.others k other)
  own found := let ⟨e', found', q⟩ := acts.own found; ⟨e', (ticket_congr tickets _).trans found', q⟩

protected theorem Acts.count (page off : Nat) (acts : Acts e Q d x) : Acts e Q d (count page off x) := acts.reports rfl rfl

protected theorem Acts.countN (page off n : Nat) (acts : Acts e Q d x) : Acts e Q d (countN page off n x) := acts.reports rfl rfl

protected theorem Acts.countNan (n : Nat) (acts : Acts e Q d x) : Acts e Q d (countNan n x) := by
  unfold Machine.countNan
  split
  · exact acts
  · exact (acts.countN _ _ _).reports (inert_raise _ _ _) (by simp)

/-- A change of the batch's ticket. -/
protected theorem Acts.modTicket {f : Batch → Batch} (serial : ∀ t, t.serial = e.serial → (f t).serial = e.serial) (d : Die) :
    Acts e (· = f e) d (modTicket e.serial f d) where
  rest := rfl
  others k other := by rw [ticket_modTicket_eq serial, if_neg other]
  own found := ⟨f e, by rw [ticket_modTicket_eq serial, if_pos rfl, found, Option.map_some], rfl⟩

/-- A batch fails as it did and by `F`. -/
def FailsBy (F : Nat × Nat → Prop) (e e' : Batch) : Prop := ∀ f, f ∈ e'.fails ↔ f ∈ e.fails ∨ F f

/-- Checks of a batch that stands as it did. -/
theorem Acts.checked (acts : Acts e (· = e) d x) (checked : Checked e.serial F M x y) : Acts e (FailsBy F e) d y where
  rest := (inert_of_unchecked checked.rest).trans acts.rest
  others k other := (checked.others k other).trans (acts.others k other)
  own found := by
    obtain ⟨_, stands, rfl⟩ := acts.own found
    obtain ⟨e', found', fails, -⟩ := checked.own _ stands
    exact ⟨e', found', fails⟩

theorem Checked.acts (checked : Checked e.serial F M d x) : Acts e (FailsBy F e) d x := (Acts.refl e d).checked checked

/-- Work on each batch of a run works on each ticket by its own, whatever the tickets and counters that it finds. -/
theorem onRun_foldl_acts {m : Model} {c : Nat} {eff : Batch → Model → Nat → Die → Die} {Q : Batch → Batch → Prop} {run : List Nat}
    (distinct : run.Nodup) (same : inert x = inert d) (step : ∀ e v, inert v = inert d → Acts e (Q e) v (eff e m c v)) :
    let y := run.foldl (onRun m c eff) x
    inert y = inert d ∧ (∀ s, s ∉ run → ticket y s = ticket x s) ∧
      ∀ s ∈ run, ∀ e, ticket x s = some e → ∃ e', ticket y s = some e' ∧ Q e e' := by
  induction run generalizing x with
  | nil => exact ⟨same, fun _ _ => rfl, by simp⟩
  | cons s r ih =>
    obtain ⟨fresh, distinct⟩ := List.nodup_cons.mp distinct
    have first : inert (onRun m c eff x s) = inert d ∧ (∀ k, k ≠ s → ticket (onRun m c eff x s) k = ticket x k) ∧
        ∀ e, ticket x s = some e → ∃ e', ticket (onRun m c eff x s) s = some e' ∧ Q e e' := by
      cases found : ticket x s with
      | none =>
        rw [onRun_of_none found]
        exact ⟨same, fun _ _ => rfl, by simp⟩
      | some e =>
        obtain rfl := serial_of_ticket found
        rw [onRun_of_ticket found]
        obtain ⟨rest, others, own⟩ := step e x same
        exact ⟨rest.trans same, others, fun e' eq => Option.some.inj eq ▸ own found⟩
    obtain ⟨rest, others, own⟩ := first
    obtain ⟨rest', others', owns⟩ := ih distinct rest
    refine ⟨rest', fun k out => ?_, fun k mem e found => ?_⟩
    · rw [List.mem_cons, not_or] at out
      exact (others' k out.2).trans (others k out.1)
    · by_cases here : k = s
      · subst here
        rw [List.foldl_cons, others' k fresh]
        exact own e found
      · exact owns k ((List.mem_cons.mp mem).resolve_left here) e ((others k here).trans found)

end

/-! ## An instruction on each batch of a program (R258, R271) -/

section
variable {d y : Die} {m : Model} {b : Batch} {l eng n : Nat} {i : Instr} {desc : OpDesc} {Q : Batch → Batch → Prop}

/-- Work that leaves the program in the queue as it stands leaves it to go to its next word. -/
theorem nextPc_queued {x : Die} {t : Nat} {q : AMap (List Nat) → AMap (List Nat)} (on : (pipe d l).enabled = true)
    (rest : inert x = inert (queued l t q desc d)) :
    (core (nextPc l x) l).pc = ((core d l).pc + 1) % 2 ^ 32 ∧
      (core (nextPc l x) l).queues = (core (queued l t q desc d) l).queues ∧
      (nextPc l x).tim = (queued l t q desc d).tim ∧ EngineFrame d (nextPc l x) := by
  have on_x := (enabled_congr (wiring_of_vp (inert_vp rest)) l).trans ((enabled_congr (wiring_queued t q desc) l).trans on)
  have goes : core (nextPc l x) l = _ := (core_nextPc on_x).trans (by rw [core_congr (inert_vp rest)])
  have tim := inert_tim rest
  have frame := engineFrame_of_inert rest (queued_frame t q desc)
  refine ⟨?_, ?_, tim, frame⟩
  · rw [goes, core_queued on]
    rfl
  · rw [goes]

/-- Behind an instruction in its span the program stands at its next word, and each of its batches as the work on it says. -/
theorem engineRun_acts {cost : Die → List Batch → Model → Nat} {eff : Batch → Model → Nat → Die → Die} (serves : Serves l m b d)
    (costs : cost (spend l 1 (fetchRun l d)) (runBatches (fetchRun l d) l) m = n) (issues : Issues l eng i desc n d y)
    (step : ∀ e v, EngineFrame (fetchRun l d) v → v.chn.tab = (fetchRun l d).chn.tab →
      Acts e (Q e) v (eff e m (core (fetchRun l d) l).cursor v)) :
    let z := fetchRun l d
    let x := engineRun l eng (opcode i) desc cost eff [] d
    x = nextPc l ((core z l).run.foldl (onRun m (core z l).cursor eff) y) ∧ (core x l).pc = ((core z l).pc + 1) % 2 ^ 32 ∧
      (core x l).queues = (core y l).queues ∧ x.tim = y.tim ∧ EngineFrame z x ∧ ∃ b', ticket x b.serial = some b' ∧ Q b b' := by
  intro z x
  obtain ⟨distinct, mem, found, served, -⟩ := serves
  have ran : x = nextPc l ((core z l).run.foldl (onRun m (core z l).cursor eff) y) :=
    (engineIssue_fetchRun (List.ne_nil_of_mem mem)).symm.trans
      (engineIssue_of_issues (List.ne_nil_of_mem mem) served costs issues)
  obtain ⟨on, t, q, rfl⟩ := issues.queued
  have start : inert (queued l t q desc z) = inert (queued l t q desc z) := rfl
  have tab : (queued l t q desc z).chn.tab = z.chn.tab := by rw [queued_chn]
  have stands : ticket (queued l t q desc z) b.serial = some b := (ticket_congr (by rw [queued_chn]) _).trans found
  obtain ⟨rest, -, owns⟩ := onRun_foldl_acts distinct start fun e v same =>
    step e v (engineFrame_of_inert same (queued_frame t q desc)) ((inert_tab same).trans tab)
  obtain ⟨pc, queues, tim, frame⟩ := nextPc_queued on rest
  rw [ran]
  exact ⟨rfl, pc, queues, tim, frame, owns b.serial mem b stands⟩

/-- What an instruction does on the cursor token, to batches that have it. -/
def onToken (eff : Batch → Model → Nat → Die → Die) (e : Batch) (m : Model) (t : Nat) (d : Die) : Die :=
  if hasToken e t then eff e m t d else d

/-- What an instruction on a token costs, for batches that have it. -/
def ofToken (cost : Die → Batch → Model → Nat → Nat) (t : Nat) (d : Die) (e : Batch) (m : Model) : Nat :=
  if hasToken e t then cost d e m t else 0

protected theorem Acts.onToken {eff : Batch → Model → Nat → Die → Die} {Q : Batch → Prop} {e : Batch} {t : Nat} {v : Die}
    (acts : Acts e Q v (eff e m t v)) : Acts e (fun e' => hasToken e t = true → Q e') v (onToken eff e m t v) := by
  unfold Machine.onToken
  split
  · exact acts.mono fun _ q _ => q
  · next without => exact (Acts.refl e v).mono fun _ _ has => absurd has without

theorem tokenRun_eq {op : Nat} (cost : Die → Batch → Model → Nat → Nat) (eff : Batch → Model → Nat → Die → Die)
    (running : (core (fetchRun l d) l).run ≠ []) : tokenRun l eng op desc cost eff [] d =
      engineRun l eng op desc (perBatch (ofToken cost (core (fetchRun l d) l).cursor)) (onToken eff) [] d := by
  have ran : tokenRun l eng op desc cost eff [] d =
    engineRun l eng op desc (perBatch (ofToken cost (core (fetchRun l d) l).cursor)) (onToken eff) [] (fetchRun l d) := rfl
  rw [ran, engineRun, engineIssue_fetchRun running]

/-- The program of a group serves a batch that has its cursor token, and an instruction on that token issues in its span, at what it
costs each batch that has the token; the issue itself does not change that cost. -/
structure IssuesOnToken (l eng : Nat) (i : Instr) (desc : OpDesc) (m : Model) (b : Batch) (cost : Die → Batch → Model → Nat → Nat)
    (d y : Die) : Prop where
  serves : Serves l m b d
  has : hasToken b (core (fetchRun l d) l).cursor = true
  costs : ∀ e, cost (spend l 1 (fetchRun l d)) e m (core (fetchRun l d) l).cursor =
    cost (fetchRun l d) e m (core (fetchRun l d) l).cursor
  issues : Issues l eng i desc (together (fetchRun l d) l (fun e =>
    if hasToken e (core (fetchRun l d) l).cursor then cost (fetchRun l d) e m (core (fetchRun l d) l).cursor else 0)) d y

/-- An instruction on the cursor token works on each batch that has the token. -/
theorem tokenRun_acts {cost : Die → Batch → Model → Nat → Nat} {eff : Batch → Model → Nat → Die → Die}
    (on : IssuesOnToken l eng i desc m b cost d y)
    (step : ∀ e v, EngineFrame (fetchRun l d) v → v.chn.tab = (fetchRun l d).chn.tab →
      Acts e (Q e) v (eff e m (core (fetchRun l d) l).cursor v)) :
    let z := fetchRun l d
    let x := tokenRun l eng (opcode i) desc cost eff [] d
    x = nextPc l ((core z l).run.foldl (onRun m (core z l).cursor (onToken eff)) y) ∧
      (core x l).pc = ((core z l).pc + 1) % 2 ^ 32 ∧ (core x l).queues = (core y l).queues ∧ x.tim = y.tim ∧ EngineFrame z x ∧
      ∃ b', ticket x b.serial = some b' ∧ Q b b' := by
  dsimp only
  rw [tokenRun_eq cost eff (List.ne_nil_of_mem on.serves.2.1)]
  obtain ⟨ended, pc, queues, tim, frame, b', found, q⟩ :=
    engineRun_acts on.serves (cost := perBatch (ofToken cost (core (fetchRun l d) l).cursor))
      (by simp only [perBatch, ofToken, together, on.costs]) on.issues
      fun e v frame tab => (step e v frame tab).onToken
  exact ⟨ended, pc, queues, tim, frame, b', found, q on.has⟩

end

/-- A command goes on behind its place in its engine's queue: the program stands at its next word and a batch as `P` says, and the
rest of the die stays as it was. -/
def Leaves (i : Instr) (s : State) (d : DieId) (l : Nat) (y : Die) (b : Batch) (P : Batch → Prop) : Prop :=
  ∃ x b', RunsTo i s d x ∧ (core x l).pc = ((core (fetchRun l (s.die d)) l).pc + 1) % 2 ^ 32 ∧
    (core x l).queues = (core y l).queues ∧ x.tim = y.tim ∧ EngineFrame (fetchRun l (s.die d)) x ∧
    ticket x b.serial = some b' ∧ P b'

theorem nleCycles_spend (l p q r : Nat) (d : Die) (n : Nat) : nleCycles l p q r (spend l 1 d) n = nleCycles l p q r d n := by
  simp only [nleCycles, spend, lanesOf_modCore]

end Sys2Proof.Machine
end

section
/-! SUPPORT. The checks of reference arithmetic, of digests and of radio batches, and O17 (R150, R158, R177, R196, R197, R208,
R450). -/

namespace Sys2Proof.Machine

/-! ## What each check finds -/

section
variable {d v x : Die} {desc : OpDesc} {e : Batch} {m : Model} {o : OpE} {pe : PlanE} {t : Nat}

/-- A check fails a batch with one entry, where it finds it bad. -/
def Finds (bad : Bool) (f : Nat × Nat) : Batch → Batch → Prop := FailsBy (fun g => bad = true ∧ g = f)

protected theorem Checked.count {n : Nat} (p o : Nat) (d : Die) : Checked n noFail noCheck d (count p o d) where
  rest := rfl
  others _ _ := ticket_congr rfl _
  own b found := ⟨b, (ticket_congr rfl n).trans found, by simp [noFail], by simp [noCheck]⟩

/-- A failure without a capture. -/
protected theorem Checked.addFail {n : Nat} (token cause : Nat) (d : Die) :
    Checked n (fun f => f = (token, cause)) noCheck d (modTicket n (addFail token cause) d) :=
  .modTicket (fun _ own => (addFail_serial _ _ _).trans own) (fun _ _ _ => mem_fails_addFail _ _ _ _)
    (fun _ _ j key made => by simpa [addFail_made, noCheck] using made)

/-- A change of a ticket that leaves its failures and its checks. -/
theorem Checked.keeps_checks {n : Nat} {f : Batch → Batch} (serial : ∀ t, (f t).serial = t.serial)
    (fails : ∀ t, (f t).fails = t.fails) (made : ∀ t, (f t).made = t.made) (d : Die) : Checked n noFail noCheck d (modTicket n f d) :=
  .modTicket (fun t own => (serial t).trans own) (fun b _ e => by simp [fails, noFail])
    (fun b _ j key held => by simpa [made, noCheck] using held)

/-- The digest of a boundary that a token sends on. -/
protected theorem Checked.setBounds {n : Nat} (pos : Batch → Nat) (w : Bytes) (d : Die) : Checked n noFail noCheck d
    (modTicket n (fun b => { b with bounds := mset b.bounds (pos b) w }) d) := by
  refine .keeps_checks ?_ ?_ ?_ d <;> exact fun _ => rfl

protected theorem Checked.setBuf {n : Nat} (token k : Nat) (w : List F32) (d : Die) :
    Checked n noFail noCheck d (setBuf n token k w d) := by
  refine .keeps_checks ?_ ?_ ?_ d <;> exact fun _ => rfl

/-- A failure where a comparison is bad, and nothing where it is not. -/
theorem Checked.ite_addFail {n : Nat} (bad : Bool) (token cause : Nat) (d : Die) :
    Checked n (fun f => bad = true ∧ f = (token, cause)) noCheck d (if bad then modTicket n (addFail token cause) d else d) :=
  .fail_iff (fun h => by rw [if_pos h]; exact .addFail _ _ _) (fun h => if_neg h)

/-- A failure unless a comparison passes. -/
theorem Checked.unless_addFail {n : Nat} (ok : Bool) (token cause : Nat) (d : Die) :
    Checked n (fun f => ok = false ∧ f = (token, cause)) noCheck d (if ok then d else modTicket n (addFail token cause) d) :=
  .fail_iff (fun h => by rw [if_neg (by simp [h])]; exact .addFail _ _ _) (fun h => if_pos (by simpa using h))

/-- Checks that fail a batch with one entry, where it is bad. -/
theorem Checked.finds {M : Nat → Nat → Prop} {bad : Bool} {f : Nat × Nat} {F : Nat × Nat → Prop}
    (checked : Checked e.serial F M d x) (fails : ∀ g, F g ↔ bad = true ∧ g = f) : Acts e (Finds bad f e) d x :=
  checked.acts.mono fun _ h g => (h g).trans (or_congr_right (fails g))

/-- No check is made, and none is bad. -/
theorem Acts.finds_none {bad : Bool} (f : Nat × Nat) (passes : bad = false) (d : Die) : Acts e (Finds bad f e) d d :=
  (Checked.refl e.serial d).finds fun g => by simp [passes, noFail]

theorem ocmpToken_finds : Acts e (Finds ((outputOf e t).any (fun p => !outputEqual p (buf e t desc.a.toNat))) (t, 11) e) d
    (ocmpToken desc e m t d) := by
  unfold ocmpToken
  cases output : outputOf e t with
  | none => exact (Checked.noteMade _ _ _).finds fun g => by simp [noFail]
  | some p => exact ((Checked.unless_addFail _ _ _ _).trans (.noteMade _ _ _)).finds fun g => by simp [noFail]

theorem acmpToken_finds (op : opAt m desc.locus.toNat = some o) :
    Acts e (Finds ((headsIn m.manifest.dHead (bufLen e t desc.a.toNat) (buf e t desc.a.toNat)).any
      (fun h => !acmpOk m (acmpHead desc e m o t h))) (t, 4) e) d (acmpToken desc e m t d) := by
  unfold acmpToken
  rw [op]
  dsimp only
  refine ((Checked.foldl (d := d) (F := fun h f => acmpOk m (acmpHead desc e m o t h) = false ∧ f = (t, 4))
    (M := fun _ => noCheck) (fun h _ x _ => ?_) rfl).trans (.noteMade _ _ _)).finds fun g => ?_
  · refine .fail_iff (fun outside => ?_) (fun inside => if_pos (by simpa using inside))
    rw [if_neg (by simp [outside])]
    exact ((Checked.failCheck _ _ _ _ _ _ _).trans (.count _ _ _)).mono (by simp [noFail]) (by simp [noCheck])
  · simp only [noFail, or_false, List.any_eq_true, Bool.not_eq_true', ← and_assoc, exists_and_right]
    rfl

theorem dcmpToken_finds : Acts e
    (Finds (if desc.fn = 0 then e.canary && outputDigest e != ((m.prog.consts.drop desc.p0.toNat).take 4).flatMap (leBytes 8)
      else bufDig (buf e t desc.a.toNat) != ((m.prog.consts.drop desc.p0.toNat).take 4).flatMap (leBytes 8))
      (t, if desc.fn = 0 then 7 else 10) e) d (dcmpToken desc e m t d) := by
  unfold dcmpToken
  dsimp only
  by_cases canary : desc.fn = 0
  · simp only [if_pos canary]
    exact (Checked.ite_addFail _ _ _ _).finds fun _ => Iff.rfl
  · simp only [if_neg canary]
    exact (Checked.ite_addFail _ _ _ _).finds fun _ => Iff.rfl

theorem shdcToken_finds (boundary : boundaryOf v e t = boundaryOf d e t) :
    Acts e (Finds (if desc.fn = 1 then shardDigestOf e t 1 != some (bufDig (buf e t desc.a.toNat))
      else (boundaryOf d e t).any (fun p => p.1 == 1 &&
        !(bufDig (buf e t desc.a.toNat) == p.2 && shardDigestOf e t 0 == some p.2))) (t, 10) e) v (shdcToken desc e m t v) := by
  unfold shdcToken
  extract_lets own
  by_cases sends : desc.fn = 1
  · simp only [if_pos sends]
    exact (((Checked.unless_addFail _ _ _ _).trans (.setBounds _ _ _)).trans (.noteMade _ _ _)).finds fun g => by simp [noFail, own]
  · simp only [if_neg sends, boundary]
    split
    · next dg delivered =>
      exact ((Checked.unless_addFail _ _ _ _).trans (.noteMade _ _ _)).finds fun g => by
        simp [noFail, delivered, own, ← imp_iff_not_or]
    · next void =>
      refine .finds_none _ ?_ v
      cases delivered : boundaryOf d e t with
      | none => rfl
      | some p =>
        have flag : p.1 ≠ 1 := fun one => void p.2 (by rw [delivered, ← one])
        simp [flag]

theorem ldpcBatch_finds (c : Nat) :
    Acts e (Finds ((radioRecs e desc.entry.toNat).any (fun r => !ldpcOk e r.payload)) (0, 8) e) d (ldpcBatch desc e m c d) := by
  unfold ldpcBatch
  exact ((Checked.noteRecords _ _ _ _).trans (.unless_addFail _ _ _ _)).finds fun g => by simp [noFail]

theorem crcBatch_finds (c : Nat) : Acts e (Finds ((radioRecs e desc.entry.toNat).any (fun r =>
      !crcOk (if byteAt r.payload 4 = 1 then crc24A else crc24B) (tbBits r.payload)) ||
    !blocksOk ((radioRecs e desc.entry.toNat).filter (fun r => byteAt r.payload 4 == 2))) (0, 8) e) d (crcBatch desc e m c d) := by
  unfold crcBatch
  exact ((Checked.noteRecords _ _ _ _).trans (.unless_addFail _ _ _ _)).finds fun g => by
    simp only [noFail, false_or, Bool.and_eq_false_iff, List.all_eq_false, Bool.or_eq_true, List.any_eq_true, Bool.not_eq_true',
      Bool.not_eq_true]

theorem bandToken_finds (op : opAt m desc.locus.toNat = some o) (plan : (tokenPlan m)[desc.entry.toNat]? = some pe) :
    Acts e (Finds ((bandOf desc e o (sgn 8 pe.scale) t).any (fun v => !v)) (t, 3) e) d (bandToken desc e m t d) := by
  unfold bandToken
  extract_lets en n
  have plan : (tokenPlan m)[en]? = some pe := plan
  simp -zeta only [op, plan]
  extract_lets sc ok bad d1 d2
  have counted : Acts e (· = e) d d1 := (((Acts.refl e d).countNan _).countN _ _ _).countN _ _ _
  have compared : Checked e.serial (fun f => ok.any (fun v => !v) = true ∧ f = (t, 3)) noCheck d1 d2 := by
    refine .fail_iff (fun outside => ?_) (fun inside => ?_)
    · obtain ⟨i, first⟩ := Option.isSome_iff_exists.mp (List.findIdx?_isSome.trans outside)
      simp only [d2, first]
      exact .failCheck _ _ _ _ _ _ _
    · have first : ok.findIdx? (fun v => !v) = none := by simpa using inside
      simp only [d2, first]
  exact (counted.checked ((compared.trans (.setBuf _ _ _ _)).trans (.noteMade _ _ _))).mono
    fun _ fails g => (fails g).trans (by simp [noFail, ok, sc])

end

/-! ## The commands -/

section
variable {s : State} {d : DieId} {lead : BitVec 3} {desc : OpDesc}

theorem RunsTo.band : RunsTo (.band d lead desc []) s d (tokenRun lead.toNat 2 0x38 desc
    (fun x b _ t => nleCycles lead.toNat 1 1 12 x (streamedX b t desc.entry.toNat).length) (bandToken desc) [] (s.die d)) := rfl

theorem RunsTo.ocmp : RunsTo (.ocmp d lead desc []) s d (tokenRun lead.toNat 2 0x3A desc
    (fun x b _ t => nleCycles lead.toNat 1 1 8 x (bufLen b t desc.a.toNat)) (ocmpToken desc) [] (s.die d)) := rfl

theorem RunsTo.acmp : RunsTo (.acmp d lead desc []) s d (tokenRun lead.toNat 2 0x42 desc
    (fun x b _ t => nleCycles lead.toNat 1 1 12 x (bufLen b t desc.a.toNat)) (acmpToken desc) [] (s.die d)) := rfl

theorem RunsTo.dcmp : RunsTo (.dcmp d lead desc []) s d
    (engineRun lead.toNat 4 0x49 desc (perBatch (fun _ _ _ => 4)) (dcmpToken desc) [] (s.die d)) := rfl

theorem RunsTo.ldpc : RunsTo (.ldpc d lead desc []) s d
    (engineRun lead.toNat 2 0x28 desc (perBatch (ldpcCycles lead.toNat desc)) (ldpcBatch desc) [] (s.die d)) := rfl

theorem RunsTo.crc : RunsTo (.crc d lead desc []) s d
    (engineRun lead.toNat 2 0x29 desc (perBatch (crcCycles lead.toNat desc)) (crcBatch desc) [] (s.die d)) := rfl

theorem tokenRun_fetchRun {l eng op : Nat} {z : Die} (cost : Die → Batch → Model → Nat → Nat) (eff : Batch → Model → Nat → Die → Die)
    (running : (core (fetchRun l z) l).run ≠ []) :
    tokenRun l eng op desc cost eff [] (fetchRun l z) = tokenRun l eng op desc cost eff [] z := by
  unfold tokenRun
  rw [fetchRun_of_running running]

/-- SHDC runs once the digests that it needs have come. -/
theorem RunsTo.shdc (running : (core (fetchRun lead.toNat (s.die d)) lead.toNat).run ≠ [])
    (ready : shdcReady desc (fetchRun lead.toNat (s.die d)) lead.toNat = true) : RunsTo (.shdc d lead desc []) s d
    (tokenRun lead.toNat 4 0x4A desc (fun _ _ _ _ => 4) (shdcToken desc) [] (s.die d)) := by
  have runs : exec (.shdc d lead desc []) s = execShdc d lead desc [] s := rfl
  rw [RunsTo, runs, execShdc, runDie, onDie]
  simp only [ready, if_true, tokenRun_fetchRun _ _ running]

end

/-! ## How a check leaves its batch -/

section
variable {s : State} {d : DieId} {l eng n tok cause : Nat} {i : Instr} {desc : OpDesc} {m : Model} {b : Batch} {y : Die}
  {bad : Batch → Bool}

/-- A batch with the entry of a check, exactly where the check finds it bad. -/
def Found (bad : Bool) (f : Nat × Nat) (b b' : Batch) : Prop :=
  (bad = true → f ∈ b'.fails) ∧ ∀ g, g ∈ b'.fails ↔ g ∈ b.fails ∨ (bad = true ∧ g = f)

theorem Finds.found {bad : Bool} {f : Nat × Nat} {b b' : Batch} (finds : Finds bad f b b') : Found bad f b b' :=
  ⟨fun h => (finds f).mpr (.inr ⟨h, rfl⟩), finds⟩

/-- A check that runs on the cursor token fails a batch that has the token exactly where it finds it bad. -/
theorem tokenRun_finds {cost : Die → Batch → Model → Nat → Nat} {eff : Batch → Model → Nat → Die → Die}
    (runs : RunsTo i s d (tokenRun l eng (opcode i) desc cost eff [] (s.die d)))
    (on : IssuesOnToken l eng i desc m b cost (s.die d) y)
    (step : ∀ e v, EngineFrame (fetchRun l (s.die d)) v → v.chn.tab = (fetchRun l (s.die d)).chn.tab →
      Acts e (Finds (bad e) (tok, cause) e) v (eff e m (core (fetchRun l (s.die d)) l).cursor v)) :
    Leaves i s d l y b (Found (bad b) (tok, cause) b) := by
  obtain ⟨-, pc, queues, tim, frame, b', found, finds⟩ := tokenRun_acts on step
  exact ⟨_, b', runs, pc, queues, tim, frame, found, Finds.found finds⟩

/-- A check that runs on each batch of the program fails it exactly where it finds it bad. -/
theorem engineRun_finds {cost : Die → List Batch → Model → Nat} {eff : Batch → Model → Nat → Die → Die}
    (runs : RunsTo i s d (engineRun l eng (opcode i) desc cost eff [] (s.die d))) (serves : Serves l m b (s.die d))
    (costs : cost (spend l 1 (fetchRun l (s.die d))) (runBatches (fetchRun l (s.die d)) l) m = n)
    (issues : Issues l eng i desc n (s.die d) y)
    (step : ∀ e v, Acts e (Finds (bad e) (tok, cause) e) v (eff e m (core (fetchRun l (s.die d)) l).cursor v)) :
    Leaves i s d l y b (Found (bad b) (tok, cause) b) := by
  obtain ⟨-, pc, queues, tim, frame, b', found, finds⟩ := engineRun_acts serves costs issues fun e v _ _ => step e v
  exact ⟨_, b', runs, pc, queues, tim, frame, found, Finds.found finds⟩

end

theorem ldpcCycles_spend (l : Nat) (desc : OpDesc) (d : Die) (m : Model) :
    perBatch (ldpcCycles l desc) (spend l 1 d) (runBatches d l) m = together d l (fun b => ldpcCycles l desc d b m) := by
  simp only [perBatch, together, ldpcCycles, spend, lanesOf_modCore]

theorem crcCycles_spend (l : Nat) (desc : OpDesc) (d : Die) (m : Model) :
    perBatch (crcCycles l desc) (spend l 1 d) (runBatches d l) m = together d l (fun b => crcCycles l desc d b m) := by
  simp only [perBatch, together, crcCycles, spend, lanesOf_modCore]

/-- What BOUNDARY has delivered stands in the chains and the channels, which an engine instruction leaves. -/
theorem boundaryOf_congr {z v : Die} (frame : EngineFrame z v) (tab : v.chn.tab = z.chn.tab) (b : Batch) (t : Nat) :
    boundaryOf v b t = boundaryOf z b t := by
  obtain ⟨-, -, -, -, -, -, -, -, -, -, -, -, -, -, pel, -, -⟩ := frame
  simp only [boundaryOf, chainOf, posOf, chan, pel, tab]

/-- Settles O17: each check changes its batch's ticket alone, which fails exactly where the check finds it bad. -/
theorem checksFailTheBatchTheyShould : Obligations.ChecksFailTheBatchTheyShould := by
  unfold Obligations.ChecksFailTheBatchTheyShould
  intro s d lead desc m b y
  dsimp only
  intro serves i eng cost tok cause bad command issues
  rcases command with ⟨o, pe, op, plan, has, ⟨⟩, rfl, rfl⟩ | ⟨has, ⟨⟩, rfl, rfl⟩ | ⟨has, ready, ⟨⟩, rfl, rfl⟩ |
    ⟨o, op, has, ⟨⟩, rfl, rfl⟩ | ⟨⟨⟩, rfl, rfl, rfl⟩ | ⟨⟨⟩, rfl, rfl⟩ | ⟨⟨⟩, rfl, rfl⟩
  · exact tokenRun_finds .band ⟨serves, has, fun _ => nleCycles_spend .., issues⟩ fun e v _ _ => bandToken_finds op plan
  · exact tokenRun_finds .ocmp ⟨serves, has, fun _ => nleCycles_spend .., issues⟩ fun e v _ _ => ocmpToken_finds
  · exact tokenRun_finds (.shdc (List.ne_nil_of_mem serves.2.1) ready)
      ⟨serves, has, fun _ => rfl, issues⟩ fun e v frame tab => shdcToken_finds (boundaryOf_congr frame tab e _)
  · exact tokenRun_finds .acmp ⟨serves, has, fun _ => nleCycles_spend .., issues⟩ fun e v _ _ => acmpToken_finds op
  · exact engineRun_finds .dcmp serves rfl issues fun e v => dcmpToken_finds
  · exact engineRun_finds .ldpc serves (ldpcCycles_spend ..) issues fun e v => ldpcBatch_finds _
  · exact engineRun_finds .crc serves (crcCycles_spend ..) issues fun e v => crcBatch_finds _

end Sys2Proof.Machine
end

section
/-! SUPPORT. What NLE instructions and DIG write, and O51 (R152 to R159, R209, R258). -/

namespace Sys2Proof.Machine

/-! ## What each instruction writes -/

section
variable {d : Die} {desc : OpDesc} {e : Batch} {m : Model} {t : Nat}

/-- A batch with a vector in a buffer of a token. -/
def withBuf (k : Nat) (w : List F32) (e : Batch) : Batch := { e with bufs := mset e.bufs k w }

/-- The destination buffer of a token. -/
def dstKey (desc : OpDesc) (t : Nat) : Nat := t * 65536 + desc.dst.toNat

/-- An instruction has its result in the destination buffer, or fails its batch where it has none. -/
def Yields (desc : OpDesc) (t : Nat) (w : Option (List F32)) (e e' : Batch) : Prop :=
  e' = (match w with
    | some w => withBuf (dstKey desc t) w e
    | none => addFail t 11 e)

theorem setBuf_acts (w : List F32) (d : Die) :
    Acts e (Yields desc t (some w) e) d (setBuf e.serial t desc.dst.toNat w d) :=
  Acts.modTicket (f := withBuf (dstKey desc t) w) (fun _ own => own) d

theorem fail_acts (d : Die) : Acts e (Yields desc t none e) d (modTicket e.serial (addFail t 11) d) :=
  .modTicket (fun _ own => (addFail_serial _ _ _).trans own) d

theorem putF32_acts (w : List FV) (d : Die) :
    Acts e (Yields desc t (some (w.map f32b)) e) d (putF32 e.serial t desc.dst.toNat w d) := (setBuf_acts _ d).countNan _

theorem dqToken_acts : Acts e (Yields desc t (some (((if desc.fn = 1 then
      (buf e t desc.a.toNat).map (codeVal desc.fmt.toNat desc.scale.toInt)
    else (streamedX e t desc.entry.toNat).map (fun p => p.1)).map rn32).map f32b)) e) d (dqToken desc e m t d) := putF32_acts _ d

theorem qntToken_acts : Acts e (Yields desc t (some (quantCodes desc.fmt.toNat (quantScale desc m) (bufF32 e t desc.a.toNat))) e) d
    (qntToken desc e m t d) := (setBuf_acts _ d).countNan _

theorem addvToken_acts : Acts e (Yields desc t (some (((
      if desc.fn = 0 then List.zipWith addX (bufF32 e t desc.a.toNat) ((streamedX e t desc.entry.toNat).map (fun p => p.1))
      else if desc.fn = 1 then
        List.zipWith addX ((streamedX e t desc.entry.toNat).map (fun p => p.1)) (retainedRow m desc.tensor.toNat 0)
      else List.zipWith addX (bufF32 e t desc.a.toNat) (bufF32 e t desc.b.toNat)).map rn32).map f32b)) e) d
    (addvToken desc e m t d) := by
  have zero : desc.fn = 0 ↔ desc.fn.toNat = 0 := BitVec.toNat_inj.symm
  have one : desc.fn = 1 ↔ desc.fn.toNat = 1 := BitVec.toNat_inj.symm
  unfold addvToken
  extract_lets a y v
  have result : v = if desc.fn = 0 then List.zipWith addX a y else if desc.fn = 1 then
      List.zipWith addX y (retainedRow m desc.tensor.toNat 0) else List.zipWith addX a (bufF32 e t desc.b.toNat) := by
    simp only [v, zero, one]
    split
    · next fn => rw [fn, if_pos rfl]
    · next fn => rw [fn, if_neg one_ne_zero, if_pos rfl]
    · next not_zero not_one => rw [if_neg not_zero, if_neg not_one]
  rw [result]
  exact putF32_acts _ d

theorem normToken_acts : Acts e (Yields desc t (some ((if desc.fn = 0 then
      rmsnorm (bufF32 e t desc.a.toNat) (retainedRow m desc.tensor.toNat 0) (epsOf m desc.locus.toNat)
    else layernorm (bufF32 e t desc.a.toNat) (retainedRow m desc.tensor.toNat 0) (retainedRow m desc.p0.toNat 0)
      (epsOf m desc.locus.toNat)).map f32b)) e) d (normToken desc e m t d) := putF32_acts _ d

theorem actToken_acts : Acts e (Yields desc t (some ((List.zipWith (actFn desc.fn.toNat) (bufF32 e t desc.a.toNat)
    (gateOf desc e t (bufF32 e t desc.a.toNat))).map f32b)) e) d (actToken desc e m t d) := putF32_acts _ d

/-- The heads of a vector, turned one after the other. -/
theorem ropeToken_heads (l n : Nat) (w : List FV) : ropeToken.heads desc e m t d l n w = (List.range n).flatMap (fun h =>
    ropeR ((w.drop (h * desc.dim.toNat)).take desc.dim.toNat) (posOf d e t) (param m.prog l 3 0) (param m.prog l 4 0)) := by
  induction n generalizing w with
  | zero => rfl
  | succ n ih =>
    rw [ropeToken.heads, ih, List.range_succ_eq_map, List.flatMap_cons, List.flatMap_map]
    simp [List.drop_drop, Nat.succ_mul, Nat.add_comm]

theorem ropeToken_acts {z : Die} (tab : d.chn.tab = z.chn.tab) : Acts e (Yields desc t (some (((List.range desc.heads.toNat).flatMap
      (fun h => ropeR (((bufF32 e t desc.a.toNat).drop (h * desc.dim.toNat)).take desc.dim.toNat) (posOf z e t)
        (param m.prog desc.locus.toNat 3 0) (param m.prog desc.locus.toNat 4 0))).map f32b)) e) d (ropeToken desc e m t d) := by
  have pos : posOf d e t = posOf z e t := by simp only [posOf, chan, tab]
  unfold ropeToken
  simp only [ropeToken_heads, pos]
  exact putF32_acts _ d

theorem selToken_acts : Acts e (Yields desc t ((selectToken (bufF32 e t desc.a.toNat) (param m.prog desc.locus.toNat 9 0)
      (f32v (BitVec.ofNat 32 (param m.prog desc.locus.toNat 10 0))) (param m.prog desc.locus.toNat 11 0)
      (((outputOf e t).map (fun p => u32At p 12)).getD 0)).map (fun n => [BitVec.ofNat 32 n])) e) d (selToken desc e m t d) := by
  unfold selToken
  extract_lets l draw
  split
  · next n chosen =>
    rw [chosen]
    exact setBuf_acts _ d
  · next none_ =>
    rw [none_]
    exact fail_acts d

theorem embToken_acts : Acts e (Yields desc t (if (embIds desc e t).any (fun v => decide (m.manifest.vocab ≤ v)) then none
      else some (((embIds desc e t).flatMap (retainedRow m desc.tensor.toNat)).map f32b)) e) d (embToken desc e m t d) := by
  unfold embToken
  extract_lets ids
  split
  · exact fail_acts d
  · exact putF32_acts _ d

theorem digToken_acts (boundary : 2 ≤ desc.fn.toNat) :
    Acts e (Yields desc t (some (digBuf (h32 (digBytes desc e t)))) e) d (digToken desc e m t d) := by
  unfold digToken
  extract_lets bs d1
  rw [if_neg (by omega)]
  have counted : setBuf e.serial t desc.dst.toNat (digBuf (h32 bs)) d1 =
    countN pSHK 0x058 (cdiv (bs.length + 1) 136) (setBuf e.serial t desc.dst.toNat (digBuf (h32 bs)) d) := rfl
  rw [counted]
  exact (setBuf_acts _ d).countN _ _ _

end

/-! ## The commands -/

section
variable {s : State} {d : DieId} {lead : BitVec 3} {desc : OpDesc}

theorem RunsTo.dq : RunsTo (.dq d lead desc []) s d (tokenRun lead.toNat 2 0x30 desc (fun x b _ t => nleCycles lead.toNat 1 1 8 x
    (if desc.fn = 1 then bufLen b t desc.a.toNat else (streamedX b t desc.entry.toNat).length)) (dqToken desc) [] (s.die d)) := rfl

theorem RunsTo.qnt : RunsTo (.qnt d lead desc []) s d (tokenRun lead.toNat 2 0x31 desc
    (fun x b _ t => nleCycles lead.toNat 1 1 12 x (bufLen b t desc.a.toNat)) (qntToken desc) [] (s.die d)) := rfl

theorem RunsTo.addv : RunsTo (.addv d lead desc []) s d (tokenRun lead.toNat 2 0x32 desc (fun x b _ t => nleCycles lead.toNat 1 1 8 x
    (max (bufLen b t desc.a.toNat) (streamedX b t desc.entry.toNat).length)) (addvToken desc) [] (s.die d)) := rfl

theorem RunsTo.norm : RunsTo (.norm d lead desc []) s d (tokenRun lead.toNat 2 0x33 desc
    (fun x b _ t => nleCycles lead.toNat 3 1 40 x (bufLen b t desc.a.toNat)) (normToken desc) [] (s.die d)) := rfl

theorem RunsTo.normf : RunsTo (.normf d lead desc []) s d (tokenRun lead.toNat 2 0x34 desc
    (fun x b _ t => nleCycles lead.toNat 3 1 24 x (bufLen b t desc.a.toNat)) (normfToken desc) [] (s.die d)) := rfl

theorem RunsTo.act : RunsTo (.act d lead desc []) s d (tokenRun lead.toNat 2 0x35 desc (fun x b _ t =>
    if desc.fn = 0 then nleCycles lead.toNat 1 1 8 x (bufLen b t desc.a.toNat)
    else nleCycles lead.toNat 11 9 20 x (bufLen b t desc.a.toNat)) (actToken desc) [] (s.die d)) := rfl

theorem RunsTo.actf : RunsTo (.actf d lead desc []) s d (tokenRun lead.toNat 2 0x36 desc
    (fun x b _ t => nleCycles lead.toNat 1 1 20 x (bufLen b t desc.a.toNat)) (actfToken desc) [] (s.die d)) := rfl

theorem RunsTo.rope : RunsTo (.rope d lead desc []) s d (tokenRun lead.toNat 2 0x37 desc
    (fun x b _ t => nleCycles lead.toNat 11 9 24 x (bufLen b t desc.a.toNat)) (ropeToken desc) [] (s.die d)) := rfl

theorem RunsTo.sel : RunsTo (.sel d lead desc []) s d (tokenRun lead.toNat 2 0x39 desc
    (fun x b _ t => nleCycles lead.toNat 20 9 40 x (bufLen b t desc.a.toNat)) (selToken desc) [] (s.die d)) := rfl

theorem RunsTo.emb : RunsTo (.emb d lead desc []) s d (tokenRun lead.toNat 2 0x3B desc (fun x b m t => nleCycles lead.toNat 1 1 16 x
    ((embIds desc b t).length * ((m.manifest.tensors[desc.tensor.toNat]?).map (fun t => t.cols)).getD 0)) (embToken desc) []
    (s.die d)) := rfl

theorem RunsTo.dig : RunsTo (.dig d lead desc []) s d (tokenRun lead.toNat 4 0x48 desc
    (fun _ b _ t => 12 * cdiv ((digBytes desc b t).length + 1) 136 + 8) (digToken desc) [] (s.die d)) := rfl

end

/-! ## How an instruction leaves its batch -/

section
variable {s : State} {d : DieId} {l eng : Nat} {i : Instr} {desc : OpDesc} {m : Model} {b : Batch} {y : Die}
  {cost : Die → Batch → Model → Nat → Nat} {eff : Batch → Model → Nat → Die → Die}

theorem withBuf_frame (k : Nat) (w : List F32) (b : Batch) : ∃ bufs, withBuf k w b = { b with bufs := bufs } ∧
    mgetD bufs k [] = w ∧ ∀ j, j ≠ k → mgetD bufs j [] = mgetD b.bufs j [] :=
  ⟨mset b.bufs k w, rfl, mgetD_mset_same _ _ _ _, fun _ other => mgetD_mset_other _ other _ _⟩

/-- A batch with a result in a buffer, and no other buffer changed; or failed, where there is no result. -/
def Written (desc : OpDesc) (t : Nat) (v : Option (List F32)) (b b' : Batch) : Prop :=
  (∀ w, v = some w → ∃ bufs, b' = { b with bufs := bufs } ∧ mgetD bufs (dstKey desc t) [] = w ∧
    ∀ k, k ≠ dstKey desc t → mgetD bufs k [] = mgetD b.bufs k []) ∧ (v = none → b' = addFail t 11 b)

theorem Yields.written {t : Nat} {v : Option (List F32)} {b' : Batch} (yields : Yields desc t v b b') : Written desc t v b b' := by
  refine ⟨fun w some_ => ?_, fun none_ => ?_⟩
  · rw [yields, some_]
    exact withBuf_frame _ w b
  · rw [yields, none_]

/-- An instruction that has its result in the destination buffer changes no other, and fails a batch where it has none. -/
theorem tokenRun_yields {v : Batch → Option (List F32)} (runs : RunsTo i s d (tokenRun l eng (opcode i) desc cost eff [] (s.die d)))
    (on : IssuesOnToken l eng i desc m b cost (s.die d) y)
    (step : ∀ e u, u.chn.tab = (fetchRun l (s.die d)).chn.tab → Acts e (Yields desc (core (fetchRun l (s.die d)) l).cursor (v e) e) u
      (eff e m (core (fetchRun l (s.die d)) l).cursor u)) :
    Leaves i s d l y b (Written desc (core (fetchRun l (s.die d)) l).cursor (v b) b) := by
  obtain ⟨-, pc, queues, tim, frame, b', found, yields⟩ := tokenRun_acts on fun e u _ tab => step e u tab
  exact ⟨_, b', runs, pc, queues, tim, frame, found, Yields.written yields⟩

end

/-! ## Uses of the fast forms (R159) -/

section
variable {d x y : Die} {m : Model} {t : Nat} {e : Batch}

/-- How often a fast form has been used, as far as its counter goes. -/
def fastUses (d : Die) : Nat := mgetD d.regs.cnt (wkey pNLE 0x080) 0

/-- The counter of uses has not gone back, or it is full. -/
def UsesKept (n : Nat) (d : Die) : Prop := n ≤ fastUses d ∨ 4294967295 ≤ fastUses d

theorem UsesKept.trans {n : Nat} (one : UsesKept n d) (two : UsesKept (fastUses d) x) : UsesKept n x := by
  unfold UsesKept at *
  omega

theorem fastUses_count (d : Die) : fastUses (count pNLE 0x080 d) = sat32 (fastUses d) := mgetD_mset_same _ _ _ _

theorem fastUses_putF32 (n token k : Nat) (w : List FV) (d : Die) : fastUses (putF32 n token k w d) = fastUses d := by
  unfold putF32 countNan
  split
  · rfl
  · rw [fastUses, raise_regs]
    exact mgetD_mset_other _ (by decide) _ _

theorem fastUses_nextPc (l : Nat) (d : Die) : fastUses (nextPc l d) = fastUses d := rfl

theorem fastUses_queued (l t : Nat) (q : AMap (List Nat) → AMap (List Nat)) (desc : OpDesc) (d : Die) :
    fastUses (queued l t q desc d) = fastUses d := rfl

theorem lt_sat32 (n : Nat) : n < sat32 n ∨ 4294967295 ≤ sat32 n := by
  unfold sat32
  split <;> omega

/-- A fast form counts its use behind the vector that it writes. -/
def FastForm (desc : OpDesc) (eff : Batch → Model → Nat → Die → Die) : Prop :=
  ∀ e m t d, ∃ w, eff e m t d = count pNLE 0x080 (putF32 e.serial t desc.dst.toNat w d)

theorem normfToken_fast (desc : OpDesc) : FastForm desc (normfToken desc) := fun _ _ _ _ => ⟨_, rfl⟩

theorem actfToken_fast (desc : OpDesc) : FastForm desc (actfToken desc) := fun _ _ _ _ => ⟨_, rfl⟩

variable {desc : OpDesc} {eff : Batch → Model → Nat → Die → Die} {run : List Nat} (fast : FastForm desc eff)
include fast

theorem FastForm.acts (e : Batch) (m : Model) (t : Nat) (d : Die) :
    Acts e (fun e' => ∃ w, Yields desc t (some w) e e') d (eff e m t d) := by
  obtain ⟨w, writes⟩ := fast e m t d
  rw [writes]
  exact ((putF32_acts w d).count _ _).mono fun _ yields => ⟨_, yields⟩

theorem FastForm.uses (e : Batch) (m : Model) (t : Nat) (d : Die) : fastUses (eff e m t d) = sat32 (fastUses d) := by
  obtain ⟨w, writes⟩ := fast e m t d
  rw [writes, fastUses_count, fastUses_putF32]

theorem FastForm.run_kept (run : List Nat) (n : Nat) (kept : UsesKept n d) :
    UsesKept n (run.foldl (onRun m t (onToken eff)) d) := by
  refine List.foldlRecOn run _ kept fun x kept s _ => kept.trans ?_
  cases found : ticket x s with
  | none =>
    rw [onRun_of_none found]
    exact .inl le_rfl
  | some e =>
    rw [onRun_of_ticket found, onToken]
    split
    · rw [UsesKept, fast.uses]
      exact (lt_sat32 _).imp_left le_of_lt
    · exact .inl le_rfl

/-- A run that reaches a batch with the token counts a use. -/
theorem FastForm.run_uses {b : Batch} (distinct : run.Nodup) (mem : b.serial ∈ run) (found : ticket y b.serial = some b)
    (has : hasToken b t = true) :
    let x := run.foldl (onRun m t (onToken eff)) y
    fastUses y < fastUses x ∨ 4294967295 ≤ fastUses x := by
  obtain ⟨before, behind, rfl⟩ := List.append_of_mem mem
  obtain ⟨distinct, -, apart⟩ := List.nodup_append.mp distinct
  obtain ⟨-, others, -⟩ := onRun_foldl_acts (d := y) distinct rfl fun e v _ => (fast.acts e m t v).onToken
  have reached := (others b.serial fun mem => apart _ mem _ (by simp) rfl).trans found
  have counted := fast.run_kept (m := m) (t := t) before (fastUses y) (.inl le_rfl)
  dsimp only
  rw [List.foldl_append, List.foldl_cons]
  generalize before.foldl (onRun m t (onToken eff)) y = v at reached counted
  have used : fastUses (onRun m t (onToken eff) v b.serial) = sat32 (fastUses v) := by
    rw [onRun_of_ticket reached, onToken, if_pos has, fast.uses]
  have kept := fast.run_kept (m := m) (t := t) behind _ (.inl (le_of_eq used.symm))
  have grows := lt_sat32 (fastUses v)
  unfold UsesKept at counted kept
  omega

end

section
variable {s : State} {d : DieId} {l eng : Nat} {i : Instr} {desc : OpDesc} {m : Model} {b : Batch} {y : Die}
  {cost : Die → Batch → Model → Nat → Nat} {eff : Batch → Model → Nat → Die → Die}

/-- A fast form writes its destination buffer alone and counts its use. -/
theorem tokenRun_fast (fast : FastForm desc eff) (runs : RunsTo i s d (tokenRun l eng (opcode i) desc cost eff [] (s.die d)))
    (on : IssuesOnToken l eng i desc m b cost (s.die d) y) :
    let z := fetchRun l (s.die d)
    let t := (core z l).cursor
    ∃ x bufs, RunsTo i s d x ∧ (core x l).pc = ((core z l).pc + 1) % 2 ^ 32 ∧ x.tim = y.tim ∧ EngineFrame z x ∧
      ticket x b.serial = some { b with bufs := bufs } ∧
      (∀ k, k ≠ t * 65536 + desc.dst.toNat → mgetD bufs k [] = mgetD b.bufs k []) ∧
      (fastUses z < fastUses x ∨ 4294967295 ≤ fastUses x) := by
  obtain ⟨ran, pc, -, tim, frame, b', found, w, yields⟩ := tokenRun_acts on fun e u _ _ => fast.acts e m _ u
  obtain ⟨bufs, writes, -, others⟩ := withBuf_frame (dstKey desc (core (fetchRun l (s.die d)) l).cursor) w b
  refine ⟨_, bufs, runs, pc, tim, frame, by rw [found, yields, ← writes], others, ?_⟩
  obtain ⟨⟨distinct, mem, stands, -, -⟩, has, -, issues⟩ := on
  obtain ⟨-, t, q, rfl⟩ := issues.queued
  have uses := fast.run_uses (m := m) (y := queued l t q desc (fetchRun l (s.die d))) distinct mem
    ((ticket_congr (by rw [queued_chn]) _).trans stands) has
  rw [fastUses_queued] at uses
  rwa [ran, fastUses_nextPc]

end

/-- A digest of a batch's own records is formed as they arrive: DIG leaves the die but for a counter (R209). -/
theorem digToken_own {desc : OpDesc} (own : desc.fn.toNat ≤ 1) (e : Batch) (m : Model) (t : Nat) (d : Die) :
    digToken desc e m t d = countN pSHK 0x058 (cdiv ((digBytes desc e t).length + 1) 136) d := if_pos own

theorem digRun_chn {desc : OpDesc} (own : desc.fn.toNat ≤ 1) (m : Model) (t : Nat) (run : List Nat) (d : Die) :
    (run.foldl (onRun m t (onToken (digToken desc))) d).chn = d.chn := by
  refine List.foldlRecOn (motive := fun x : Die => x.chn = d.chn) run _ rfl fun x same s _ => ?_
  rw [← same]
  cases found : ticket x s with
  | none => rw [onRun_of_none found]
  | some e =>
    rw [onRun_of_ticket found, onToken]
    split
    · rw [digToken_own own]
      rfl
    · rfl

/-! ## O51 -/

theorem vectorInstructionsWriteTheirBuffer : Claim.VectorInstructionsWriteTheirBuffer := by
  unfold Claim.VectorInstructionsWriteTheirBuffer
  intro s d lead desc m b y
  dsimp only
  intro serves has i eng cost v command issues
  rcases command with ⟨⟨⟩⟩ | ⟨⟨⟩⟩ | ⟨⟨⟩⟩ | ⟨⟨⟩⟩ | ⟨⟨⟩⟩ | ⟨⟨⟩⟩ | ⟨⟨⟩⟩ | ⟨⟨⟩⟩ | ⟨⟨⟩, boundary⟩
  · simp only [List.length_map] at issues
    exact tokenRun_yields .dq ⟨serves, has, fun _ => nleCycles_spend .., issues⟩ fun e u _ => dqToken_acts
  · exact tokenRun_yields .qnt ⟨serves, has, fun _ => nleCycles_spend .., issues⟩ fun e u _ => qntToken_acts
  · simp only [List.length_map] at issues
    exact tokenRun_yields .addv ⟨serves, has, fun _ => nleCycles_spend .., issues⟩ fun e u _ => addvToken_acts
  · exact tokenRun_yields .norm ⟨serves, has, fun _ => nleCycles_spend .., issues⟩ fun e u _ => normToken_acts
  · exact tokenRun_yields .act ⟨serves, has, fun _ => by simp only [nleCycles_spend], issues⟩ fun e u _ => actToken_acts
  · exact tokenRun_yields .rope ⟨serves, has, fun _ => nleCycles_spend .., issues⟩ fun e u tab => ropeToken_acts tab
  · exact tokenRun_yields .sel ⟨serves, has, fun _ => nleCycles_spend .., issues⟩ fun e u _ => selToken_acts
  · exact tokenRun_yields .emb ⟨serves, has, fun _ => nleCycles_spend .., issues⟩ fun e u _ => embToken_acts
  · exact tokenRun_yields .dig ⟨serves, has, fun _ => rfl, issues⟩ fun e u _ => digToken_acts boundary

theorem fastFormsAndRecordDigests : Claim.FastFormsAndRecordDigests := by
  unfold Claim.FastFormsAndRecordDigests
  intro s d lead desc m b y
  dsimp only
  refine fun serves has => ⟨fun i cost command issues => ?_, fun own issues => ?_⟩
  · rcases command with ⟨⟨⟩⟩ | ⟨⟨⟩⟩
    · exact tokenRun_fast (normfToken_fast desc) .normf ⟨serves, has, fun _ => nleCycles_spend .., issues⟩
    · exact tokenRun_fast (actfToken_fast desc) .actf ⟨serves, has, fun _ => nleCycles_spend .., issues⟩
  · obtain ⟨ran, pc, -, tim, frame, -⟩ := tokenRun_acts (eff := digToken desc) (cost := fun _ b _ t =>
        12 * cdiv ((digBytes desc b t).length + 1) 136 + 8) ⟨serves, has, fun _ => rfl, issues⟩
      fun e u _ _ => digToken_own own e m _ u ▸ (Acts.refl e u).countN _ _ _
    refine ⟨_, .dig, pc, tim, frame, ?_⟩
    obtain ⟨-, t, q, rfl⟩ := issues.queued
    have chn := digRun_chn own m (core (fetchRun lead.toNat (s.die d)) lead.toNat).cursor
      (core (fetchRun lead.toNat (s.die d)) lead.toNat).run (queued lead.toNat t q desc (fetchRun lead.toNat (s.die d)))
    rw [queued_chn] at chn
    exact (congrArg Die.chn ran).trans chn

/-- Settles O51: each instruction works on its batches one after the other, and writes its result for the token or fails there. -/
theorem vectorAndFastInstructions : Obligations.VectorAndFastInstructions :=
  ⟨vectorInstructionsWriteTheirBuffer, fastFormsAndRecordDigests⟩

end Sys2Proof.Machine
end

section
/-! SUPPORT. Channel commands on a channel that exists, what they leave of the other channels, and O58. -/

namespace Sys2Proof.Machine

/-! ## Results (R287) -/

section
variable (op c code : Nat) (d : Die)

@[simp] theorem chnStat_regs_live : (chnStat op c code d).regs.live = d.regs.live := by
  unfold chnStat
  dsimp only
  split
  · rfl
  · rw [sendEvent_regs_live]
    rfl

@[simp] theorem chnStat_image : (chnStat op c code d).key.image = d.key.image := by
  unfold chnStat
  dsimp only
  split
  · rfl
  · obtain ⟨_, _, _, _, _, _, parts⟩ := sendEvent_parts 5 (c + 65536 * op + 1048576 * code)
      (setCap pCHN 0x044 (code + 256 * c + 8388608 * op) d)
    rw [parts]
    rfl

theorem chan_chnStat (k : Nat) : chan (chnStat op c code d) k = chan d k := chan_congr (chnStat_chn op c code d) k

end

/-! ## Listed channels (R285) -/

section
variable {d : Die} {c : Nat}

theorem isSome_of_mem_keys {α : Type} {m : AMap α} {k : Nat} (mem : k ∈ m.map (fun e => e.1)) : (mget m k).isSome = true := by
  induction m with
  | nil => cases mem
  | cons e r ih =>
    rw [mget]
    split
    · rfl
    · next other => exact ih ((List.mem_cons.mp mem).resolve_left (Ne.symm other))

/-- An id that the table does not list reads as one that was never created. -/
theorem listed_of_ne_default (created : chan d c ≠ {}) : (mget d.chn.tab c).isSome = true := by
  cases listed : mget d.chn.tab c with
  | some y => rfl
  | none => exact absurd (by rw [chan, mgetD, listed]; rfl) created

theorem listed_of_not_free (held : (chan d c).state ≠ .free) : (mget d.chn.tab c).isSome = true :=
  listed_of_ne_default fun unlisted => held (by rw [unlisted])

theorem listed_of_density (ledger : (chan d c).density ≠ 0) : (mget d.chn.tab c).isSome = true :=
  listed_of_ne_default fun unlisted => ledger (by rw [unlisted])

theorem chan_modChan_other (f : Chan → Chan) {k : Nat} (other : k ≠ c) : chan (modChan c f d) k = chan d k := by
  have tab : mget (modChan c f d).chn.tab k = if k = c then (mget d.chn.tab k).map f else mget d.chn.tab k := mget_mmod _ _ _ _
  rw [chan, mgetD, tab, if_neg other, chan, mgetD]

end

/-! ## Commands that wait for the slot boundary (R287, R288) -/

section
variable {op c : Nat} {p : ChanPend} {ok : Chan → Bool} {d : Die}

/-- Nothing that waits on a channel is in a command's way: a close may follow a pause. -/
def Unhindered (p : ChanPend) (x : Chan) : Prop := x.pend = none ∨ x.pend = some .pause ∧ p = .close

theorem hindered_iff (x : Chan) : (x.pend.isSome && !(x.pend == some .pause && p == .close)) = true ↔ ¬Unhindered p x := by
  simp only [Unhindered, Bool.and_eq_true, Bool.not_eq_true', Bool.and_eq_false_iff, beq_eq_false_iff_ne, not_or, not_and_or,
    Option.isSome_iff_ne_none, ne_eq]

theorem chnWait_accepted (free : Unhindered p (chan d c)) (allowed : ok (chan d c) = true) :
    chnWait op c p ok d = chnStat op c 1 (modChan c (fun x => { x with pend := some p }) d) := by
  rw [chnWait, if_neg fun h => (hindered_iff _).mp h free, if_pos allowed]

theorem chnWait_refused (free : Unhindered p (chan d c)) (forbidden : ok (chan d c) = false) :
    chnWait op c p ok d = chnStat op c 32 d := by
  rw [chnWait, if_neg fun h => (hindered_iff _).mp h free, if_neg (by simp [forbidden])]

theorem chnWait_behind (hindered : ¬Unhindered p (chan d c)) : chnWait op c p ok d = chnStat op c 33 d := by
  rw [chnWait, if_pos ((hindered_iff _).mpr hindered)]

end

/-- A die reports a command's result, with its channels as they were. -/
def Answered (i : Instr) (s : State) (d : DieId) (op c code : Nat) : Prop :=
  ∃ x, RunsTo i s d x ∧ capOf x pCHN 0x044 = code + 256 * c + 8388608 * op ∧ x.chn = (s.die d).chn

theorem Answered.of_eq {i : Instr} {s : State} {d : DieId} {op c code : Nat} {x : Die} (runs : RunsTo i s d x)
    (eq : x = chnStat op c code (s.die d)) : Answered i s d op c code := ⟨x, runs, by rw [eq, capOf_chnStat], by rw [eq, chnStat_chn]⟩

/-- What becomes of a command that waits for the slot boundary, by what waits already and by the state. -/
theorem chnWait_byState {i : Instr} {s : State} {d : DieId} {op c : Nat} {p : ChanPend} {ok : Chan → Bool} {b : Bool}
    (runs : RunsTo i s d (chnWait op c p ok (s.die d))) (same : b = ok (chan (s.die d) c))
    (held : b = true → (chan (s.die d) c).state ≠ .free) :
    (Unhindered p (chan (s.die d) c) → b = true → ∃ x, RunsTo i s d x ∧ capOf x pCHN 0x044 = 1 + 256 * c + 8388608 * op ∧
      chan x c = { chan (s.die d) c with pend := some p } ∧ (∀ k, k ≠ c → chan x k = chan (s.die d) k) ∧
      x.chn.tickets = (s.die d).chn.tickets ∧ x.cad = (s.die d).cad ∧ x.phase = (s.die d).phase) ∧
    (Unhindered p (chan (s.die d) c) → b = false → Answered i s d op c 32) ∧
    ((chan (s.die d) c).pend ≠ none → ¬((chan (s.die d) c).pend = some .pause ∧ p = .close) → Answered i s d op c 33) := by
  subst same
  refine ⟨fun free allowed => ?_, fun free forbidden => ?_, fun waits other => ?_⟩
  · rw [chnWait_accepted free allowed] at runs
    refine ⟨_, runs, by simp, ?_, fun k other => ?_, by rw [chnStat_chn]; rfl, by rw [chnStat_cad]; rfl, rfl⟩
    · rw [chan_chnStat, chan_modChan_same _ (listed_of_not_free (held allowed))]
    · rw [chan_chnStat, chan_modChan_other _ other]
  · exact .of_eq runs (chnWait_refused free forbidden)
  · exact .of_eq runs (chnWait_behind (not_or.mpr ⟨waits, other⟩))

/-! ## Retirement (R288, R289) -/

/-- A retirement by command leaves the channel RETIRED by host software, with nothing waiting and no ledger. -/
theorem retireChan_retires {ec v k c : Nat} {d : Die} (live : chanLive (chan d c) = true) :
    let y := chan (retireChan ec v k c d) c
    y.state = .retired ∧ y.endCause = ec ∧ y.pend = none ∧ y.ledger = [] := by
  unfold retireChan
  extract_lets x d1 d2 d3 y
  have standing_d1 : standing d1.chn = standing d.chn := standing_foldl _ (fun d n => standing_endTicket v k d n) _ d
  have listed : (mget d1.chn.tab c).isSome = true := by
    have held := congrArg Option.isSome (congrFun standing_d1 c)
    rw [standing, standing, Option.isSome_map, Option.isSome_map] at held
    rw [held, listed_of_chanLive live]
  have retired : chan d3 c = { chan d1 c with state := .retired, endCause := ec, pend := none, ledger := [] } :=
    chan_modChan_same _ listed
  have told : chan (if x.host.safety = true then tellWarden (.lost c true) d3 else d3) c = chan d3 c := by
    split <;> rfl
  have eq : y = chan d3 c := (congrArg (chan · c) (if_pos live)).trans told
  rw [eq, retired]
  exact ⟨rfl, rfl, rfl, rfl⟩

section
variable {c : Nat} {d : Die} (unhindered : (chan d c).pend = none ∨ (chan d c).pend = some .pause)
include unhindered

theorem not_retire_behind : ¬((chan d c).pend.isSome && (chan d c).pend != some .pause) = true := by
  rcases unhindered with none_ | pause
  · simp [none_]
  · simp [pause]

theorem chnRetire_live (live : chanLive (chan d c) = true) : chnRetire c d = chnStat 5 c 0 (retireChan 2 3 19 c d) := by
  rw [chnRetire, if_neg (not_retire_behind unhindered), if_pos live]

theorem chnRetire_out (out : chanLive (chan d c) = false) : chnRetire c d = chnStat 5 c 32 d := by
  rw [chnRetire, if_neg (not_retire_behind unhindered), if_neg (by simp [out])]

end

/-! ## The descriptor in CHN_DESC_BUF (R285, R287) -/

/-- The first words of a byte string in CHN_DESC_BUF. -/
def putWords (b : Bytes) (n : Nat) (d : Die) : Die :=
  (List.range n).foldl (fun d m => setField 0 pCHN (0x100 + 4 * m) 0 (u32At b (4 * m)) d) d

theorem putWords_succ (b : Bytes) (n : Nat) (d : Die) :
    putWords b (n + 1) d = setField 0 pCHN (0x100 + 4 * n) 0 (u32At b (4 * n)) (putWords b n d) := by
  rw [putWords, List.range_succ, List.foldl_append]
  rfl

theorem putWords_chn (b : Bytes) (n : Nat) (d : Die) : (putWords b n d).chn = d.chn := by
  induction n with
  | zero => rfl
  | succ n ih => rw [putWords_succ, ← ih]; rfl

theorem fkey_ne_of_off {sel page a b lo : Nat} (apart : a ≠ b) : fkey sel page a lo ≠ fkey sel page b lo := by
  unfold fkey
  omega

theorem field_congr {x d : Die} (live : x.regs.live = d.regs.live) (page off lo : Nat) : field x page off lo = field d page off lo := by
  rw [field, fieldSel, live, field, fieldSel]

/-- Each word reads back, whatever words follow it. -/
theorem field_putWords {b : Bytes} {n k : Nat} {d : Die} (lt : k < n) :
    field (putWords b n d) pCHN (0x100 + 4 * k) 0 = u32At b (4 * k) := by
  induction n with
  | zero => cases lt
  | succ n ih =>
    rw [putWords_succ]
    by_cases last : k = n
    · subst last
      exact fieldSel_setField _ _ _ _ _ _
    · rw [← ih (by omega)]
      exact mgetD_mset_other _ (fkey_ne_of_off (by omega)) _ _

section
variable {c : Nat} {d : Die}

theorem chnRead_idle (idle : (chan d c).pend = none) :
    chnRead c d = chnStat 7 c 0 (putWords (descBytes (chan d c)) 64 d) := by
  rw [chnRead, if_neg (by simp [idle]), putWords]

theorem chnRead_behind (waits : (chan d c).pend ≠ none) : chnRead c d = chnStat 7 c 33 d := by
  rw [chnRead, if_pos (Option.isSome_iff_ne_none.mpr waits)]

/-! ## The ledger's image (R184, R185, R292) -/

theorem chnSave_behind (waits : (chan d c).pend ≠ none) : chnSave c d = chnStat 8 c 33 d := by
  obtain ⟨p, waits⟩ := Option.ne_none_iff_exists'.mp waits
  rw [chnSave]
  simp only [waits]

theorem chnSave_running (idle : (chan d c).pend = none) (running : (chan d c).state ≠ .paused) :
    chnSave c d = chnStat 8 c 32 d := by
  unfold chnSave
  dsimp only
  split
  · next waits => simp [idle] at waits
  · next paused _ => exact absurd paused running
  · rfl

theorem chnSave_paused {m : Model} (idle : (chan d c).pend = none) (paused : (chan d c).state = .paused)
    (named : model d (chan d c).host.slot = some m) (ledger : (chan d c).density ≠ 0) :
    chnSave c d = chnStat 8 c 0 (updKey (fun k => { k with image := ledgerImage d m.manifest (chan d c) })
      (countPerms (ledgerImage d m.manifest (chan d c)).length d)) := by
  rw [chnSave]
  simp only [idle, paused, named, if_neg ledger]

theorem chnRestore_behind (waits : (chan d c).pend ≠ none) : chnRestore c d = chnStat 9 c 33 d := by
  obtain ⟨p, waits⟩ := Option.ne_none_iff_exists'.mp waits
  rw [chnRestore]
  simp only [waits]

theorem chnRestore_running (idle : (chan d c).pend = none) (running : (chan d c).state ≠ .paused) :
    chnRestore c d = chnStat 9 c 32 d := by
  unfold chnRestore
  dsimp only
  split
  · next waits => simp [idle] at waits
  · next paused _ => exact absurd paused running
  · rfl

/-- A ledger that has lost its rows, its counters as after create. -/
def emptied (x : Chan) : Chan :=
  { x with ledger := [], validEnd := 0, append := 0, voidPos := 4294967295, wrd := { x.wrd with append := 0 } }

/-- A ledger with the rows of the first positions. -/
def refilled (units : Bytes) (n : Nat) (x : Chan) : Chan :=
  { x with ledger := cellsWrite [] 0 units, validEnd := n, append := n, voidPos := 4294967295, wrd := { x.wrd with append := n } }

/-- The die once a restore has taken in the image. -/
def imageTaken (b : Bytes) (d : Die) : Die := countPerms b.length (bulkDone 6 d)

section
variable {m : Model} (idle : (chan d c).pend = none) (paused : (chan d c).state = .paused)
  (named : model d (chan d c).host.slot = some m)
include idle paused named

theorem chnRestore_unready (unready : (chan d c).density = 0 ∨ (chan d c).validEnd ≠ 0 ∨ (chan d c).append ≠ 0 ∨
    bulkWhole d 6 = none) : chnRestore c d = restoreRefused c d := by
  rw [chnRestore]
  simp only [idle, paused, named]
  split
  · rfl
  · next ready =>
    have noImage : bulkWhole d 6 = none := by tauto
    rw [noImage]

theorem chnRestore_image {b : Bytes} (ledger : (chan d c).density ≠ 0) (valid : (chan d c).validEnd = 0)
    (append : (chan d c).append = 0) (whole : bulkWhole d 6 = some b) :
    chnRestore c d = if imageFits d m.manifest (chan d c) b then
      chnStat 9 c 0 (modChan c (refilled (slice b 256 (cdiv (u32At b 8) 256 * unitLen m.manifest (chan d c).density)) (u32At b 8))
        (imageTaken b d))
      else restoreRefused c (imageTaken b d) := by
  rw [chnRestore]
  simp only [idle, paused, named, whole, ledger, valid, append, ne_eq, not_true_eq_false, or_self, if_false]
  rfl

end

/-- A refused restore reports code 35 and leaves a listed channel's ledger empty. -/
theorem restoreRefused_empties {i : Instr} {s : State} {e : DieId} {x y : Die} (runs : RunsTo i s e y)
    (refused : y = restoreRefused c x) (chn : x.chn = d.chn) (listed : (mget d.chn.tab c).isSome = true) :
    ∃ y, RunsTo i s e y ∧ capOf y pCHN 0x044 = 35 + 256 * c + 8388608 * 9 ∧ chan y c = emptied (chan d c) := by
  refine ⟨y, runs, ?_⟩
  rw [refused, restoreRefused, capOf_chnStat, chan_chnStat, chan_modChan_same _ (chn ▸ listed), chan_congr chn]
  exact ⟨rfl, rfl⟩

/-! ## The ring's tail (R293) -/

/-- A new tail is taken up to the head, and clamps to the nearer end of what is unread. -/
theorem movedTail_clamps (tail : Nat) (x : Chan) :
    let step := (tail + 2 ^ 32 - x.ringTail) % 2 ^ 32
    let room := (x.ringHead + 2 ^ 32 - x.ringTail) % 2 ^ 32
    movedTail tail x = { x with ringTail := if step ≤ room then tail
      else if step - room ≤ 2 ^ 32 - step then x.ringHead else x.ringTail } := by
  intro step room
  have moved : movedTail tail x = if step ≤ room then { x with ringTail := tail }
      else if step - room ≤ 2 ^ 32 - step then { x with ringTail := x.ringHead } else x := rfl
  rw [moved]
  split
  · rfl
  · split <;> rfl

end

/-! ## The commands -/

section
variable {s : State} {d : DieId} {c : BitVec 15}

theorem RunsTo.chnCmdRetire : RunsTo (.chnCmdRetire d c) s d (chnRetire c.toNat (s.die d)) := rfl
theorem RunsTo.chnCmdRead : RunsTo (.chnCmdRead d c) s d (chnRead c.toNat (s.die d)) := rfl
theorem RunsTo.chnCmdSave : RunsTo (.chnCmdSave d c) s d (chnSave c.toNat (s.die d)) := rfl
theorem RunsTo.chnCmdRestore : RunsTo (.chnCmdRestore d c) s d (chnRestore c.toNat (s.die d)) := rfl
theorem RunsTo.chnRingTail {tail : Word} : RunsTo (.chnRingTail d c tail) s d (ringTail c.toNat tail.toNat (s.die d)) := rfl

end

theorem channelCommandsByState : Claim.ChannelCommandsByState := by
  unfold Claim.ChannelCommandsByState
  intro s d c
  dsimp only
  refine ⟨fun i op p ok command => ?_, fun unhindered => ⟨fun live => ?_, fun out => ?_⟩⟩
  · simp only [List.mem_cons, List.not_mem_nil, or_false] at command
    rcases command with ⟨⟨⟩⟩ | ⟨⟨⟩⟩ | ⟨⟨⟩⟩ | ⟨⟨⟩⟩
    · exact chnWait_byState rfl rfl fun opened => by simp [of_decide_eq_true opened]
    · exact chnWait_byState rfl rfl fun paused => by simp [of_decide_eq_true paused]
    · exact chnWait_byState rfl (Bool.decide_or _ _) fun live => by rcases of_decide_eq_true live with h | h <;> simp [h]
    · exact chnWait_byState rfl (Bool.decide_or _ _) fun out => by rcases of_decide_eq_true out with h | h <;> simp [h]
  · refine ⟨_, .chnCmdRetire, ?_⟩
    rw [chnRetire_live unhindered live, capOf_chnStat, chan_chnStat]
    exact ⟨rfl, retireChan_retires live⟩
  · exact Answered.of_eq .chnCmdRetire (chnRetire_out unhindered out)

theorem channelReadSaveRestoreAndRing : Claim.ChannelReadSaveRestoreAndRing := by
  unfold Claim.ChannelReadSaveRestoreAndRing
  intro s d c tail
  dsimp only
  refine ⟨fun idle => ?_, fun waits i op command => ?_, fun m idle paused named => ?_, fun running idle => ?_, fun mem => ?_⟩
  · refine ⟨_, .chnCmdRead, ?_⟩
    rw [chnRead_idle idle, capOf_chnStat, chnStat_chn, putWords_chn]
    refine ⟨rfl, rfl, fun k lt => ?_⟩
    rw [field_congr (chnStat_regs_live _ _ _ _), field_putWords lt]
  · simp only [List.mem_cons, List.not_mem_nil, or_false] at command
    rcases command with ⟨⟨⟩⟩ | ⟨⟨⟩⟩ | ⟨⟨⟩⟩
    · exact Answered.of_eq .chnCmdRead (chnRead_behind waits)
    · exact Answered.of_eq .chnCmdSave (chnSave_behind waits)
    · exact Answered.of_eq .chnCmdRestore (chnRestore_behind waits)
  · have listed : (mget (s.die d).chn.tab c.toNat).isSome = true := listed_of_not_free (by simp [paused])
    refine ⟨fun ledger => ⟨_, .chnCmdSave, ?_⟩, fun unready => ?_,
      fun ledger valid append b whole => ⟨fun fits => ⟨_, .chnCmdRestore, ?_⟩, fun unfit => ?_⟩⟩
    · rw [chnSave_paused idle paused named ledger, capOf_chnStat, chnStat_image, chnStat_chn]
      exact ⟨rfl, rfl, rfl⟩
    · exact restoreRefused_empties .chnCmdRestore (chnRestore_unready idle paused named unready) rfl listed
    · rw [chnRestore_image idle paused named ledger valid append whole, if_pos fits, capOf_chnStat, chan_chnStat,
        chan_modChan_same (d := imageTaken b (s.die d)) _ listed]
      exact ⟨rfl, rfl, rfl, rfl, rfl⟩
    · exact restoreRefused_empties .chnCmdRestore ((chnRestore_image idle paused named ledger valid append whole).trans
        (if_neg (by simp [unfit]))) rfl listed
  · exact ⟨Answered.of_eq .chnCmdSave (chnSave_running idle running), Answered.of_eq .chnCmdRestore (chnRestore_running idle running)⟩
  · refine ⟨_, .chnRingTail, ?_⟩
    rw [ringTail_eq]
    exact ⟨fun k other => chan_modChan_other _ other,
      (chan_modChan_same _ (isSome_of_mem_keys mem)).trans (movedTail_clamps _ _)⟩

/-- Settles O58: each command by what waits on its channel and by the channel's state, and what an accepted one makes of it. -/
theorem channelCommands : Obligations.ChannelCommands := ⟨channelCommandsByState, channelReadSaveRestoreAndRing⟩

end Sys2Proof.Machine
end

section
/-! SUPPORT. What the bytes of a ledger read after rows are written (R168, R169). -/

namespace Sys2Proof.Machine

/-! ## Bytes -/

theorem cellRead_of_below {m : List Host.Cell} {a : Nat} (below : ∀ c ∈ m, a < c.1) : cellRead m a = 0 := by
  induction m with
  | nil => rfl
  | cons c r ih =>
    have first := below c List.mem_cons_self
    rw [cellRead, if_neg (by omega), ih fun c mem => below c (List.mem_cons_of_mem _ mem)]

theorem cellRead_cellWrite_other (m : List Host.Cell) {a j : Nat} (v : Byte) (other : j ≠ a) :
    cellRead (cellWrite m a v) j = cellRead m j := by
  induction m with
  | nil =>
    rw [cellWrite]
    split
    · rfl
    · exact if_neg (Ne.symm other)
  | cons c r ih =>
    rw [cellWrite]
    split
    · split
      · rfl
      · rw [cellRead, if_neg (Ne.symm other)]
    · split
      · next eq =>
        subst eq
        split
        · rw [cellRead, if_neg (Ne.symm other)]
        · rw [cellRead, if_neg (Ne.symm other), cellRead, if_neg (Ne.symm other)]
      · rw [cellRead, ih, cellRead]

theorem cellRead_cellWrite_same {m : List Host.Cell} (wf : Memory.wf m = true) (a : Nat) (v : Byte) :
    cellRead (cellWrite m a v) a = v := by
  obtain ⟨rising, -⟩ := (Memory.wf_iff m).mp wf
  clear wf
  induction m with
  | nil =>
    rw [cellWrite]
    split
    · next zero => rw [cellRead, zero]
    · rw [cellRead, if_pos rfl]
  | cons c r ih =>
    obtain ⟨above, rising⟩ := List.pairwise_cons.mp rising
    rw [cellWrite]
    split
    · next lt =>
      split
      · next zero =>
        rw [zero, cellRead_of_below]
        intro x mem
        rcases List.mem_cons.mp mem with rfl | mem
        · exact lt
        · exact lt.trans (above x mem)
      · rw [cellRead, if_pos rfl]
    · split
      · next eq =>
        split
        · next zero => rw [zero, cellRead_of_below fun x mem => eq ▸ above x mem]
        · rw [cellRead, if_pos rfl]
      · next ne => rw [cellRead, if_neg (Ne.symm ne), ih rising]

/-! ## Byte strings -/

theorem cellRead_cellsWrite_other (m : List Host.Cell) (bs : Bytes) {a j : Nat} (out : j < a ∨ a + bs.length ≤ j) :
    cellRead (cellsWrite m a bs) j = cellRead m j := by
  induction bs generalizing m a with
  | nil => rfl
  | cons b r ih =>
    rw [List.length_cons] at out
    rw [cellsWrite, ih _ (by omega), cellRead_cellWrite_other _ _ (by omega)]

theorem cellsRead_congr {m m' : List Host.Cell} {a n : Nat} (same : ∀ j, a ≤ j → j < a + n → cellRead m j = cellRead m' j) :
    cellsRead m a n = cellsRead m' a n := by
  induction n generalizing a with
  | zero => rfl
  | succ n ih => rw [cellsRead, cellsRead, same a le_rfl (by omega), ih fun j low high => same j (by omega) (by omega)]

theorem cellsRead_cellsWrite {m : List Host.Cell} (wf : Memory.wf m = true) (a : Nat) (bs : Bytes) :
    cellsRead (cellsWrite m a bs) a bs.length = bs := by
  induction bs generalizing m a with
  | nil => rfl
  | cons b r ih =>
    rw [List.length_cons, cellsRead, cellsWrite, cellRead_cellsWrite_other _ _ (.inl (by omega)), cellRead_cellWrite_same wf,
      ih (cellWrite_wf m a b wf)]

/-! ## Rows -/

/-- Write byte strings, each at its address. -/
def writeRows (m : List Host.Cell) (rows : List (Nat × Bytes)) : List Host.Cell := rows.foldl (fun m r => cellsWrite m r.1 r.2) m

theorem writeRows_append (m : List Host.Cell) (rows rows' : List (Nat × Bytes)) :
    writeRows m (rows ++ rows') = writeRows (writeRows m rows) rows' := List.foldl_append

theorem writeRows_wf {m : List Host.Cell} (wf : Memory.wf m = true) (rows : List (Nat × Bytes)) : Memory.wf (writeRows m rows) = true :=
  List.foldlRecOn (motive := fun x => Memory.wf x = true) rows _ wf fun x wf r _ => cellsWrite_wf x r.1 r.2 wf

theorem cellRead_writeRows_other (m : List Host.Cell) {rows : List (Nat × Bytes)} {j : Nat}
    (out : ∀ r ∈ rows, j < r.1 ∨ r.1 + r.2.length ≤ j) : cellRead (writeRows m rows) j = cellRead m j :=
  List.foldlRecOn (motive := fun x => cellRead x j = cellRead m j) rows _ rfl fun x same r mem =>
    (cellRead_cellsWrite_other x r.2 (out r mem)).trans same

/-- Of rows that lie one behind the other each reads back. -/
theorem cellsRead_writeRows {m : List Host.Cell} (wf : Memory.wf m = true) {rows : List (Nat × Bytes)}
    (apart : rows.Pairwise fun r r' => r.1 + r.2.length ≤ r'.1) {r : Nat × Bytes} (mem : r ∈ rows) :
    cellsRead (writeRows m rows) r.1 r.2.length = r.2 := by
  obtain ⟨before, behind, rfl⟩ := List.append_of_mem mem
  obtain ⟨-, later, -⟩ := List.pairwise_append.mp apart
  obtain ⟨later, -⟩ := List.pairwise_cons.mp later
  have kept : ∀ j, r.1 ≤ j → j < r.1 + r.2.length →
      cellRead (writeRows m (before ++ r :: behind)) j = cellRead (cellsWrite (writeRows m before) r.1 r.2) j := by
    intro j _ high
    rw [writeRows_append]
    exact cellRead_writeRows_other _ fun r' mem => .inl (lt_of_lt_of_le high (later r' mem))
  rw [cellsRead_congr kept, cellsRead_cellsWrite (writeRows_wf wf before)]

/-! ## Where rows lie (R168) -/

/-- A row ends in front of the rows of the same position and layer that are stored behind it. -/
theorem rowAddr_end (m : Manifest) (density pos layer : Nat) {gs kind gs' kind' : Nat} (behind : gs * 2 + kind < gs' * 2 + kind') :
    rowAddr m density pos layer gs kind + rowLen m ≤ rowAddr m density pos layer gs' kind' := by
  unfold rowAddr
  rw [Nat.add_assoc, ← Nat.succ_mul]
  refine Nat.add_le_add_left (Nat.mul_le_mul_right _ ?_) _
  simp only [Nat.add_mul]
  omega

/-- KV heads are stored in their order. -/
theorem storedHead_lt {density g g' gs gs' : Nat} (lt : g < g') (stored : storedHead density g = some gs)
    (stored' : storedHead density g' = some gs') : gs < gs' := by
  unfold storedHead at stored stored'
  by_cases sparse : density = 2
  · rw [if_pos sparse, Option.ite_none_right_eq_some] at stored stored'
    obtain ⟨⟨even, ⟨⟩⟩, even', ⟨⟩⟩ := And.intro stored stored'
    omega
  · rw [if_neg sparse, Option.ite_none_right_eq_some] at stored stored'
    obtain ⟨⟨-, ⟨⟩⟩, -, ⟨⟩⟩ := And.intro stored stored'
    exact lt

end Sys2Proof.Machine
end

section
/-! SUPPORT. What KVAPP changes of a die (R165, R167, R168). -/

namespace Sys2Proof.Machine

section
variable {d x y z : Die} {c : Nat} {v w : Chan}

/-! ## Work on one channel's ledger -/

/-- A die without its channels, counters, error bits and the events that wait for FCU. -/
def chanless (d : Die) : Die :=
  { d with chn := { d.chn with tab := [] }, regs := { d.regs with cnt := [] }, errs := [], fcu := { d.fcu with pend := [] } }

theorem chanless_vp (same : chanless x = chanless d) : x.vp = d.vp := (congrArg Die.vp same :)
theorem chanless_tim (same : chanless x = chanless d) : x.tim = d.tim := (congrArg Die.tim same :)
theorem chanless_tickets (same : chanless x = chanless d) : x.chn.tickets = d.chn.tickets :=
  (congrArg (fun u : Die => u.chn.tickets) same :)

/-- What an engine instruction leaves as it was has no part in what `chanless` leaves out. -/
theorem engineFrame_of_chanless (same : chanless x = chanless d) (frame : EngineFrame z d) : EngineFrame z x := by
  have chanless_frame : EngineFrame z (chanless d) := frame
  rwa [← same] at chanless_frame

/-- A channel comes to be `v`, and nothing else changes but counters and error bits. -/
structure Becomes (c : Nat) (v : Chan) (d x : Die) : Prop where
  rest : chanless x = chanless d
  others : ∀ k, k ≠ c → chan x k = chan d k
  own : chan x c = v

protected theorem Becomes.refl (c : Nat) (d : Die) : Becomes c (chan d c) d d := ⟨rfl, fun _ _ => rfl, rfl⟩

protected theorem Becomes.trans (one : Becomes c v d x) (two : Becomes c w x y) : Becomes c w d y where
  rest := two.rest.trans one.rest
  others k other := (two.others k other).trans (one.others k other)
  own := two.own

/-- Counters and error bits are no part of a channel. -/
theorem Becomes.countNan (n : Nat) (d : Die) : Becomes c (chan d c) d (countNan n d) := by
  unfold Machine.countNan
  split
  · exact .refl c d
  · obtain ⟨_, _, parts⟩ := raise_parts pNLE 5 (countN pNLE 0x07C n d)
    rw [parts]
    exact ⟨rfl, fun _ _ => rfl, rfl⟩

theorem Becomes.modChan (f : Chan → Chan) (ledger : (chan d c).density ≠ 0) : Becomes c (f (chan d c)) d (modChan c f d) :=
  ⟨rfl, fun _ other => chan_modChan_other f other, chan_modChan_same f (listed_of_density ledger)⟩

/-! ## The rows of a token (R165, R168) -/

variable {desc : OpDesc} {e : Batch} {m : Model} {t : Nat}

/-- A head's K or V vector. -/
def headVec (desc : OpDesc) (e : Batch) (m : Model) (t g kind : Nat) : List FV :=
  ((bufF32 e t (if kind = 0 then desc.a.toNat else desc.b.toNat)).drop (g * m.manifest.dHead)).take m.manifest.dHead

/-- The row of a vector in a ledger: its address and bytes. -/
def rowOf (m : Model) (density pos layer gs kind : Nat) (vec : List FV) : Nat × Bytes :=
  (rowAddr m.manifest density pos layer gs kind, fitTo (rowLen m.manifest) (packElems m.manifest.kvFmt (kvScale m layer kind) vec))

/-- The row of a head's K or V vector. -/
def kvRow (desc : OpDesc) (e : Batch) (m : Model) (t density pos g gs kind : Nat) : Nat × Bytes :=
  rowOf m density pos (locLayer desc.locus.toNat) gs kind (headVec desc e m t g kind)

/-- The rows of a KV head, if the ledger stores it. -/
def headRows (desc : OpDesc) (e : Batch) (m : Model) (t density pos g : Nat) : List (Nat × Bytes) :=
  (storedHead density g).toList.flatMap fun gs => [kvRow desc e m t density pos g gs 0, kvRow desc e m t density pos g gs 1]

/-- The rows of every stored KV head of a token. -/
def kvRows (desc : OpDesc) (e : Batch) (m : Model) (t density pos : Nat) : List (Nat × Bytes) :=
  (List.range m.manifest.nKv).flatMap (headRows desc e m t density pos)

theorem mem_headRows {density pos g : Nat} {r : Nat × Bytes} : r ∈ headRows desc e m t density pos g ↔
    ∃ gs kind, storedHead density g = some gs ∧ kind < 2 ∧ r = kvRow desc e m t density pos g gs kind := by
  simp only [headRows, List.mem_flatMap, Option.mem_toList, List.mem_cons, List.not_mem_nil, or_false]
  constructor
  · rintro ⟨gs, stored, rfl | rfl⟩
    · exact ⟨gs, 0, stored, by decide, rfl⟩
    · exact ⟨gs, 1, stored, by decide, rfl⟩
  · rintro ⟨gs, kind, stored, lt, rfl⟩
    refine ⟨gs, stored, ?_⟩
    interval_cases kind
    · exact .inl rfl
    · exact .inr rfl

theorem mem_kvRows {density pos : Nat} {r : Nat × Bytes} : r ∈ kvRows desc e m t density pos ↔
    ∃ g gs kind, g < m.manifest.nKv ∧ storedHead density g = some gs ∧ kind < 2 ∧ r = kvRow desc e m t density pos g gs kind := by
  simp only [kvRows, List.mem_flatMap, List.mem_range, mem_headRows]
  exact ⟨fun ⟨g, lt, gs, kind, row⟩ => ⟨g, gs, kind, lt, row⟩, fun ⟨g, gs, kind, lt, row⟩ => ⟨g, lt, gs, kind, row⟩⟩

theorem length_fitTo (n : Nat) (bs : Bytes) : (fitTo n bs).length = n := by
  simp only [fitTo, zeros, List.length_append, List.length_take, List.length_replicate]
  omega

theorem kvRow_length (density pos g gs kind : Nat) : (kvRow desc e m t density pos g gs kind).2.length = rowLen m.manifest :=
  length_fitTo _ _

/-- The rows of a token lie one behind the other. -/
theorem kvRows_apart (density pos : Nat) : (kvRows desc e m t density pos).Pairwise fun r r' => r.1 + r.2.length ≤ r'.1 := by
  refine List.pairwise_flatMap.mpr ⟨fun g _ => ?_, List.pairwise_lt_range.imp fun {g g'} lt r mem r' mem' => ?_⟩
  · rw [headRows]
    cases storedHead density g with
    | none => exact List.Pairwise.nil
    | some gs =>
      simp only [Option.toList_some, List.flatMap_cons, List.flatMap_nil, List.append_nil, List.pairwise_pair, kvRow_length]
      exact rowAddr_end _ _ _ _ (by omega)
  · obtain ⟨gs, kind, stored, low, rfl⟩ := mem_headRows.mp mem
    obtain ⟨gs', kind', stored', -, rfl⟩ := mem_headRows.mp mem'
    have lt := storedHead_lt lt stored stored'
    rw [kvRow_length]
    exact rowAddr_end _ _ _ _ (by omega)

/-! ## KVAPP of one token -/

/-- A channel with rows in its ledger. -/
def withRows (rows : List (Nat × Bytes)) (x : Chan) : Chan := { x with ledger := writeRows x.ledger rows }

theorem withRows_append (rows rows' : List (Nat × Bytes)) (x : Chan) :
    withRows (rows ++ rows') x = withRows rows' (withRows rows x) := by
  rw [withRows, writeRows_append]
  rfl

theorem writeRow_becomes {pos layer gs kind : Nat} (vec : List FV) (ledger : (chan d c).density ≠ 0) :
    Becomes c (withRows [rowOf m (chan d c).density pos layer gs kind vec] (chan d c)) d (writeRow c m pos layer gs kind vec d) := by
  have counted : Becomes c (chan d c) d (Machine.countNan (if m.manifest.kvFmt = 0x21 then 0 else nans vec) d) := .countNan _ d
  have written := Becomes.modChan (fun x => withRows [rowOf m x.density pos layer gs kind vec] x) (by rw [counted.own]; exact ledger)
  rw [counted.own] at written
  rw [writeRow, if_neg ledger]
  exact counted.trans written

/-- The change of a channel that KVAPP of a token makes. -/
def kvAppended (desc : OpDesc) (e : Batch) (m : Model) (t pos : Nat) (x : Chan) : Chan :=
  if x.density = 0 then x
  else { x with ledger := writeRows x.ledger (kvRows desc e m t x.density pos), append := max x.append (pos + 1) }

/-- KVAPP of one KV head. -/
def appendHead (desc : OpDesc) (e : Batch) (m : Model) (t density pos : Nat) (d : Die) (g : Nat) : Die :=
  match storedHead density g with
  | none => d
  | some gs => writeRow e.channel m pos (locLayer desc.locus.toNat) gs 1 (headVec desc e m t g 1)
      (writeRow e.channel m pos (locLayer desc.locus.toNat) gs 0 (headVec desc e m t g 0) d)

theorem appendHead_becomes {density pos g : Nat} (stands : (chan d e.channel).density = density) (ledger : density ≠ 0) :
    Becomes e.channel (withRows (headRows desc e m t density pos g) (chan d e.channel)) d (appendHead desc e m t density pos d g) := by
  rw [appendHead, headRows]
  cases storedHead density g with
  | none => exact .refl _ d
  | some gs =>
    have first := writeRow_becomes (m := m) (pos := pos) (layer := locLayer desc.locus.toNat) (gs := gs) (kind := 0)
      (headVec desc e m t g 0) (stands.symm ▸ ledger)
    have kept : (chan (writeRow e.channel m pos (locLayer desc.locus.toNat) gs 0 (headVec desc e m t g 0) d) e.channel).density =
        density := by
      rw [first.own]
      exact stands
    have second := writeRow_becomes (m := m) (pos := pos) (layer := locLayer desc.locus.toNat) (gs := gs) (kind := 1)
      (headVec desc e m t g 1) (kept.symm ▸ ledger)
    rw [kept, first.own, stands, ← withRows_append] at second
    exact first.trans second

theorem appendHeads_becomes {density pos : Nat} (gs : List Nat) (stands : (chan d e.channel).density = density) (ledger : density ≠ 0) :
    Becomes e.channel (withRows (gs.flatMap (headRows desc e m t density pos)) (chan d e.channel)) d
      (gs.foldl (appendHead desc e m t density pos) d) := by
  induction gs generalizing d with
  | nil => exact .refl _ d
  | cons g r ih =>
    have first := appendHead_becomes (desc := desc) (m := m) (t := t) (pos := pos) (g := g) stands ledger
    have rest := ih (d := appendHead desc e m t density pos d g) (by rw [first.own]; exact stands)
    rw [first.own, ← withRows_append] at rest
    exact first.trans rest

theorem kvappToken_becomes : Becomes e.channel (kvAppended desc e m t (posOf d e t) (chan d e.channel)) d (kvappToken desc e m t d) := by
  unfold kvappToken
  extract_lets c x pos dh layer d1
  rw [kvAppended]
  split
  · exact .refl _ d
  · next ledger =>
    have rows : Becomes c (withRows (kvRows desc e m t x.density pos) x) d d1 := appendHeads_becomes _ rfl ledger
    have moved := Becomes.modChan (fun x => { x with append := max x.append (pos + 1) }) (by rw [rows.own]; exact ledger)
    rw [rows.own] at moved
    exact rows.trans moved

end

end Sys2Proof.Machine
end

section
/-! SUPPORT. KVAPP as it runs on the batches of a program (R165, R167, R168, R258, R271). -/

namespace Sys2Proof.Machine

section
variable {d x y : Die} {m : Model} {b e : Batch} {l eng n c t : Nat} {i : Instr} {desc : OpDesc}

/-! ## An instruction behind its place in the queue (R258) -/

/-- Work that leaves the program in the queue as it stands leaves it to go to its next word, whatever channels it changes. -/
theorem nextPc_queued_chanless {q : AMap (List Nat) → AMap (List Nat)} (on : (pipe d l).enabled = true)
    (rest : chanless x = chanless (queued l t q desc d)) :
    (core (nextPc l x) l).pc = ((core d l).pc + 1) % 2 ^ 32 ∧
      (core (nextPc l x) l).queues = (core (queued l t q desc d) l).queues ∧
      (nextPc l x).tim = (queued l t q desc d).tim ∧ EngineFrame d (nextPc l x) := by
  have on_x := (enabled_congr (wiring_of_vp (chanless_vp rest)) l).trans ((enabled_congr (wiring_queued t q desc) l).trans on)
  have goes : core (nextPc l x) l = _ := (core_nextPc on_x).trans (by rw [core_congr (chanless_vp rest)])
  have tim := chanless_tim rest
  have frame := engineFrame_of_chanless rest (queued_frame t q desc)
  refine ⟨?_, by rw [goes], tim, frame⟩
  rw [goes, core_queued on]
  rfl

/-- An instruction on the cursor token is the work on each batch that has the token, behind its place in the queue. -/
theorem tokenRun_of_issues {cost : Die → Batch → Model → Nat → Nat} {eff : Batch → Model → Nat → Die → Die}
    (on : IssuesOnToken l eng i desc m b cost d y) :
    tokenRun l eng (opcode i) desc cost eff [] d =
      nextPc l ((core (fetchRun l d) l).run.foldl (onRun m (core (fetchRun l d) l).cursor (onToken eff)) y) := by
  obtain ⟨⟨-, mem, -, served, -⟩, -, costs, issues⟩ := on
  have running := List.ne_nil_of_mem mem
  rw [tokenRun_eq cost eff running]
  exact (engineIssue_fetchRun running).symm.trans
    (engineIssue_of_issues running served (by simp only [perBatch, ofToken, together, costs]) issues)

/-! ## KVAPP on each batch of a program (R271) -/

/-- KVAPP on the batch of a number leaves the channels of other batches. -/
theorem onRun_kvapp_elsewhere {s : Nat} (apart : ∀ e, ticket d s = some e → e.channel ≠ c) :
    chanless (onRun m t (onToken (kvappToken desc)) d s) = chanless d ∧
      chan (onRun m t (onToken (kvappToken desc)) d s) c = chan d c := by
  cases found : ticket d s with
  | none =>
    rw [onRun_of_none found]
    exact ⟨rfl, rfl⟩
  | some e =>
    rw [onRun_of_ticket found, onToken]
    split
    · have becomes := kvappToken_becomes (desc := desc) (e := e) (m := m) (t := t) (d := d)
      exact ⟨becomes.rest, becomes.others c (Ne.symm (apart e found))⟩
    · exact ⟨rfl, rfl⟩

theorem run_kvapp_elsewhere {run : List Nat} (apart : ∀ s ∈ run, ∀ e, ticket d s = some e → e.channel ≠ c) :
    chanless (run.foldl (onRun m t (onToken (kvappToken desc))) d) = chanless d ∧
      chan (run.foldl (onRun m t (onToken (kvappToken desc))) d) c = chan d c := by
  refine List.foldlRecOn (motive := fun x : Die => chanless x = chanless d ∧ chan x c = chan d c) run _ ⟨rfl, rfl⟩
    fun x ⟨rest, own⟩ s mem => ?_
  obtain ⟨rest', own'⟩ := onRun_kvapp_elsewhere (desc := desc) (m := m) (t := t) (d := x) (s := s) (c := c)
    fun e found => apart s mem e ((ticket_congr (chanless_tickets rest) s).symm.trans found)
  exact ⟨rest'.trans rest, own'.trans own⟩

/-- KVAPP on a run appends the token of a batch that alone has its channel. -/
theorem run_kvapp {run : List Nat} (distinct : run.Nodup) (mem : b.serial ∈ run) (found : ticket d b.serial = some b)
    (has : hasToken b t = true) (alone : ∀ s ∈ run, ∀ e, ticket d s = some e → e.channel = b.channel → s = b.serial) :
    let x := run.foldl (onRun m t (onToken (kvappToken desc))) d
    chanless x = chanless d ∧ chan x b.channel = kvAppended desc b m t (posOf d b t) (chan d b.channel) := by
  obtain ⟨before, behind, rfl⟩ := List.append_of_mem mem
  obtain ⟨-, distinct, apart⟩ := List.nodup_append.mp distinct
  obtain ⟨fresh, -⟩ := List.nodup_cons.mp distinct
  have first := run_kvapp_elsewhere (desc := desc) (m := m) (t := t) (d := d) (run := before) (c := b.channel)
    fun s mem e found same => apart s mem _ List.mem_cons_self (alone s (by simp [mem]) e found same)
  dsimp only
  rw [List.foldl_append, List.foldl_cons]
  generalize before.foldl (onRun m t (onToken (kvappToken desc))) d = v at first
  obtain ⟨rest, own⟩ := first
  have stands : ∀ s, ticket v s = ticket d s := ticket_congr (chanless_tickets rest)
  have becomes := kvappToken_becomes (desc := desc) (e := b) (m := m) (t := t) (d := v)
  have ran : onRun m t (onToken (kvappToken desc)) v b.serial = kvappToken desc b m t v := by
    rw [onRun_of_ticket ((stands _).trans found), onToken, if_pos has]
  rw [ran]
  have last := run_kvapp_elsewhere (desc := desc) (m := m) (t := t) (d := kvappToken desc b m t v) (run := behind) (c := b.channel)
    fun s mem e found same => fresh (alone s (by simp [mem]) e
      (((ticket_congr (chanless_tickets becomes.rest) s).trans (stands s)).symm.trans found) same ▸ mem)
  refine ⟨last.1.trans (becomes.rest.trans rest), ?_⟩
  rw [last.2, becomes.own, posOf, own, posOf]

end

theorem RunsTo.of_eq {i : Instr} {s : State} {d : DieId} {x y : Die} (runs : RunsTo i s d x) (eq : x = y) : RunsTo i s d y := eq ▸ runs

theorem RunsTo.kvapp {s : State} {d : DieId} {lead : BitVec 3} {desc : OpDesc} : RunsTo (.kvapp d lead desc []) s d
    (tokenRun lead.toNat 3 0x40 desc (fun x b m _ => cdiv (kvBytes x b m) 512 + 16) (kvappToken desc) [] (s.die d)) := rfl

/-- The ledger that KVAPP leaves: each row of the token reads back, and every byte outside them is as it was. -/
theorem kvAppended_ledger {desc : OpDesc} {b : Batch} {m : Model} {t pos : Nat} {c : Chan} (ledger : c.density ≠ 0)
    (wf : Memory.wf c.ledger = true) :
    let addr := fun gs kind => rowAddr m.manifest c.density pos (locLayer desc.locus.toNat) gs kind
    ∃ cells, kvAppended desc b m t pos c = { c with ledger := cells, append := max c.append (pos + 1) } ∧
      (∀ g gs kind, g < m.manifest.nKv → storedHead c.density g = some gs → kind < 2 →
        cellsRead cells (addr gs kind) (rowLen m.manifest) = (kvRow desc b m t c.density pos g gs kind).2) ∧
      (∀ a, (∀ g gs kind, g < m.manifest.nKv → storedHead c.density g = some gs → kind < 2 →
        a < addr gs kind ∨ addr gs kind + rowLen m.manifest ≤ a) → cellRead cells a = cellRead c.ledger a) := by
  intro addr
  refine ⟨_, if_neg ledger, fun g gs kind lt stored low => ?_, fun a out => ?_⟩
  · rw [← kvRow_length (desc := desc) (e := b) (t := t) c.density pos g gs kind]
    exact cellsRead_writeRows wf (kvRows_apart c.density pos) (mem_kvRows.mpr ⟨g, gs, kind, lt, stored, low, rfl⟩)
  · refine cellRead_writeRows_other _ fun r mem => ?_
    obtain ⟨g, gs, kind, lt, stored, low, rfl⟩ := mem_kvRows.mp mem
    rw [kvRow_length]
    exact out g gs kind lt stored low

theorem kvappWritesTheLedgerRows : Claim.KvappWritesTheLedgerRows := by
  unfold Claim.KvappWritesTheLedgerRows
  intro s d lead desc m b y
  dsimp only
  intro serves has alone issues
  have ran := tokenRun_of_issues (eff := kvappToken desc) (cost := fun x b m _ => cdiv (kvBytes x b m) 512 + 16)
    ⟨serves, has, fun _ => rfl, issues⟩
  obtain ⟨distinct, mem, found, -, -⟩ := serves
  obtain ⟨on, t, q, rfl⟩ := issues.queued
  generalize fetchRun lead.toNat (s.die d) = z at *
  have single : ∀ k ∈ (core z lead.toNat).run, ∀ e, ticket z k = some e → e.channel = b.channel → k = b.serial :=
    fun k mem e stands same => (serial_of_ticket stands).symm.trans
      (alone e (List.mem_filterMap.mpr ⟨k, mem, stands⟩) same)
  obtain ⟨rest, own⟩ := run_kvapp (d := queued lead.toNat t q desc z) (m := m) (desc := desc) distinct mem found has single
  obtain ⟨pc, queues, tim, frame⟩ := nextPc_queued_chanless on rest
  refine ⟨_, .of_eq .kvapp ran, pc, queues, tim, frame, (ticket_congr (chanless_tickets rest) _).trans found,
    fun none_ => ?_, fun ledger _ wf => ?_⟩
  · exact own.trans (if_pos none_)
  · obtain ⟨cells, appended, rows, kept⟩ := kvAppended_ledger (desc := desc) (b := b) (m := m) (t := (core z lead.toNat).cursor)
      (pos := posOf z b (core z lead.toNat).cursor) ledger wf
    exact ⟨cells, own.trans appended, rows, kept⟩

end Sys2Proof.Machine
end

section
/-! SUPPORT. What ATTN changes of a batch (R128, R173, R175, R176, R179). -/

namespace Sys2Proof.Machine

/-! ## A ticket but for its captures -/

/-- A batch without the captures of its failed checks. -/
def uncapped (e : Batch) : Batch := { e with caps := [] }

/-- A change of a batch in which its captures have no part, and that leaves its number. -/
structure Uncapping (f : Batch → Batch) : Prop where
  serial : ∀ t, (f t).serial = t.serial
  blind : ∀ t, uncapped (f t) = f (uncapped t)

theorem Uncapping.congr {f : Batch → Batch} (plain : Uncapping f) {a b : Batch} (same : uncapped a = uncapped b) :
    uncapped (f a) = uncapped (f b) := by rw [plain.blind, same, plain.blind]

theorem uncapping_addFail (token cause : Nat) : Uncapping (addFail token cause) where
  serial := addFail_serial token cause
  blind t := by
    have held : (uncapped t).fails = t.fails := rfl
    unfold addFail
    rw [held]
    split <;> rfl

theorem uncapping_addLate (cause : Nat) : Uncapping (addLate cause) where
  serial := addLate_serial cause
  blind t := by
    have held : (uncapped t).lates = t.lates := rfl
    unfold addLate
    rw [held]
    split <;> rfl

section
variable {d x y : Die} {e e1 : Batch} {f : Batch → Batch} {Q P : Batch → Prop}

/-- A batch stands as another but for its captures. -/
def Shows (e1 e' : Batch) : Prop := uncapped e' = uncapped e1

/-- Behind other work on a batch, a change of its ticket that looks as a plain one but for captures. -/
theorem Acts.modTicket_shows {g : Batch → Batch} (acts : Acts e (Shows e1) d x) (plain : Uncapping f)
    (serial : ∀ t, (g t).serial = t.serial) (looks : ∀ t, uncapped (g t) = uncapped (f t)) :
    Acts e (Shows (f e1)) d (modTicket e.serial g x) where
  rest := acts.rest
  others k other := by
    rw [ticket_modTicket_eq (fun t own => (serial t).trans own), if_neg other, acts.others k other]
  own found := by
    obtain ⟨e', found', shows⟩ := acts.own found
    exact ⟨g e', ticket_modTicket serial found', (looks e').trans (plain.congr shows)⟩

theorem Acts.modTicket_behind (acts : Acts e (Shows e1) d x) (plain : Uncapping f) :
    Acts e (Shows (f e1)) d (modTicket e.serial f x) := acts.modTicket_shows plain plain.serial fun _ => rfl

theorem Acts.failCheck (acts : Acts e (Shows e1) d x) (token cause page upper locus extra : Nat) :
    Acts e (Shows (addFail token cause e1)) d (failCheck e.serial token cause page upper locus extra x) := by
  unfold Machine.failCheck
  cases found : ticket x e.serial with
  | none => exact ⟨acts.rest, acts.others, fun stands => by simpa [found] using acts.own stands⟩
  | some b =>
    exact acts.modTicket_shows (uncapping_addFail token cause) (fun t => addFail_serial _ _ _)
      fun t => (uncapping_addFail token cause).congr rfl

end

/-! ## ATTN as a change of its batch -/

section
variable {d x z : Die} {e e1 : Batch} {m : Model} {desc : OpDesc} {layer t pos h : Nat}

/-- The recompute of a head: none where a score is not finite. -/
def headOut (z : Die) (desc : OpDesc) (e : Batch) (m : Model) (layer t pos h : Nat) : Option (List FV) :=
  (storedHead (chan z e.channel).density (h * m.manifest.nKv / max 1 (queryHeads m))).bind fun gs =>
    attend (((bufF32 e t desc.a.toNat).drop (h * m.manifest.dHead)).take m.manifest.dHead)
      ((List.range (pos + 1 - attendFrom m layer pos)).map fun i => readRow z e.channel m (attendFrom m layer pos + i) layer gs 0)
      ((List.range (pos + 1 - attendFrom m layer pos)).map fun i => readRow z e.channel m (attendFrom m layer pos + i) layer gs 1)
      (f32v (BitVec.ofNat 32 (layerParam m 5 layer)))

/-- One more selection of a batch. -/
def selected (e : Batch) : Batch := { e with selRun := e.selRun + 1 }

/-- A head's output behind its number in a buffer. -/
def putHead (k h : Nat) (o : List FV) (e : Batch) : Batch :=
  { e with bufs := mset e.bufs k (mgetD e.bufs k [] ++ (BitVec.ofNat 32 h :: o.map f32b)) }

/-- A selection of a batch: the head's output behind its number, or a failure of the token. -/
def headRun (k t : Nat) (out : Nat → Option (List FV)) (e : Batch) (h : Nat) : Batch :=
  match out h with
  | some o => putHead k h o (selected e)
  | none => addFail t 4 (selected e)

/-- A token that attends to a VOID position has failed. -/
def voided (isVoid : Prop) [Decidable isVoid] (t : Nat) (e : Batch) : Batch := if isVoid then addFail t 5 e else e

/-- A batch with more selections than S_max. -/
def overran (t : Nat) (e : Batch) : Batch := addLate 22 { e with overrun := some t }

theorem uncapping_selected : Uncapping selected := ⟨fun _ => rfl, fun _ => rfl⟩

theorem uncapping_putHead (k h : Nat) (o : List FV) : Uncapping (putHead k h o) := ⟨fun _ => rfl, fun _ => rfl⟩

theorem uncapping_withBuf (k : Nat) (w : List F32) : Uncapping (withBuf k w) := ⟨fun _ => rfl, fun _ => rfl⟩

theorem uncapping_overran (t : Nat) : Uncapping (overran t) :=
  ⟨fun _ => addLate_serial 22 _, fun _ => (uncapping_addLate 22).blind _⟩

theorem chan_of_tab (tab : d.chn.tab = z.chn.tab) (c : Nat) : chan d c = chan z c := by rw [chan, tab, chan]

theorem readRow_of_tab (tab : d.chn.tab = z.chn.tab) (c : Nat) : readRow d c = readRow z c := by
  funext m pos layer gs kind
  rw [readRow, chan_of_tab tab, readRow]

theorem posOf_of_tab (tab : d.chn.tab = z.chn.tab) (e : Batch) (t : Nat) : posOf d e t = posOf z e t := by
  rw [posOf, chan_of_tab tab, posOf]

theorem selectedHeads_of_tab (tab : d.chn.tab = z.chn.tab) (e : Batch) : selectedHeads d e = selectedHeads z e := by
  funext m layer pos
  rw [selectedHeads, chan_of_tab tab, selectedHeads]

/-- The recompute of a selected head. -/
theorem runHead_acts (acts : Acts e (Shows e1) d x) (tab : x.chn.tab = z.chn.tab)
    (stored : (storedHead (chan z e.channel).density (h * m.manifest.nKv / max 1 (queryHeads m))).isSome = true) :
    Acts e (Shows (headRun (dstKey desc t) t (headOut z desc e m layer t pos) e1 h)) d (runHead desc e m layer t pos x h) := by
  obtain ⟨gs, stored⟩ := Option.isSome_iff_exists.mp stored
  have counted := (acts.modTicket_behind uncapping_selected).count pCWE 0x088
  unfold runHead headRun headOut
  simp only [chan_of_tab tab, stored, readRow_of_tab tab, Option.bind_some]
  generalize attend _ _ _ _ = out
  cases out with
  | some o => exact (counted.countNan _).modTicket_behind (uncapping_putHead _ h o)
  | none => exact (counted.failCheck _ _ _ _ _ _).count _ _

theorem runHeads_acts {hs : List Nat} (acts : Acts e (Shows e1) d x) (tab : d.chn.tab = z.chn.tab)
    (stored : ∀ h ∈ hs, (storedHead (chan z e.channel).density (h * m.manifest.nKv / max 1 (queryHeads m))).isSome = true) :
    Acts e (Shows (hs.foldl (headRun (dstKey desc t) t (headOut z desc e m layer t pos)) e1)) d
      (hs.foldl (runHead desc e m layer t pos) x) := by
  induction hs generalizing x e1 with
  | nil => exact acts
  | cons h r ih =>
    exact ih (runHead_acts acts ((inert_tab acts.rest).trans tab) (stored h List.mem_cons_self))
      fun h mem => stored h (List.mem_cons_of_mem _ mem)

theorem voidCheck_acts (acts : Acts e (Shows e1) d x) (tab : x.chn.tab = z.chn.tab) (fails : e1.fails = e.fails) :
    Acts e (Shows (voided ((chan z e.channel).voidPos ≤ pos) t e1)) d (voidCheck e layer t pos x) := by
  unfold voidCheck voided
  rw [chan_of_tab tab]
  by_cases attends : (chan z e.channel).voidPos ≤ pos
  · rw [if_pos attends]
    by_cases held : (t, 5) ∈ e.fails
    · have again : addFail t 5 e1 = e1 := if_pos (List.contains_iff_mem.mpr (fails ▸ held))
      rwa [if_neg (by simp [held]), again]
    · rw [if_pos ⟨attends, held⟩]
      exact ((acts.failCheck _ _ _ _ _ _).count _ _).reports (inert_raise _ _ _) (by simp)
  · rwa [if_neg attends, if_neg (by simp [attends])]

theorem overrunAt_acts (acts : Acts e (Shows e1) d x) :
    Acts e (Shows (if e.overrun.isSome then e1 else overran t e1)) d (overrunAt e t x) := by
  unfold overrunAt
  split
  · exact acts
  · exact ((acts.modTicket_behind (uncapping_overran t)).count pCWE 0x094).reports (inert_raise pCWE 7 _)
      (congrArg Chn.tickets (raise_chn pCWE 7 _))

/-- Selections of a batch that S_max leaves room for. -/
def selRoom (z : Die) (e : Batch) : Nat := if e.overrun.isSome then 0 else (chan z e.channel).host.sMax - e.selRun

/-- A batch behind the heads that ATTN recomputes of a token. -/
def headsRun (z : Die) (desc : OpDesc) (e : Batch) (m : Model) (layer t pos : Nat) (hs : List Nat) : Batch :=
  hs.foldl (headRun (dstKey desc t) t (headOut z desc e m layer t pos))
    (voided ((chan z e.channel).voidPos ≤ pos) t (withBuf (dstKey desc t) [] e))

/-- A batch behind ATTN of a token. -/
def attended (z : Die) (desc : OpDesc) (m : Model) (t : Nat) (e : Batch) : Batch :=
  let layer := locLayer desc.locus.toNat
  let pos := posOf z e t
  let heads := selectedHeads z e m layer pos
  let ran := headsRun z desc e m layer t pos (heads.take (selRoom z e))
  if (chan z e.channel).density = 0 then e
  else if selRoom z e < heads.length then (if e.overrun.isSome then ran else overran t ran) else ran

theorem selectedHeads_stored {z : Die} (mem : h ∈ selectedHeads z e m layer pos) :
    (storedHead (chan z e.channel).density (h * m.manifest.nKv / max 1 (queryHeads m))).isSome = true := by
  unfold selectedHeads at mem
  dsimp only at mem
  split at mem
  · cases mem
  · exact (List.mem_filter.mp mem).2

theorem attnToken_acts (tab : d.chn.tab = z.chn.tab) : Acts e (Shows (attended z desc m t e)) d (attnToken desc e m t d) := by
  have start : Acts e (Shows e) d d := (Acts.refl e d).mono fun e' same => same ▸ rfl
  have room : (if e.overrun.isSome then 0 else (chan z e.channel).host.sMax - e.selRun) = selRoom z e := rfl
  unfold attnToken attended
  simp only [chan_of_tab tab, posOf_of_tab tab, selectedHeads_of_tab tab, room, gt_iff_lt]
  split
  · exact start
  · have cleared := start.modTicket_behind (uncapping_withBuf (dstKey desc t) [])
    have checked := voidCheck_acts (layer := locLayer desc.locus.toNat) (t := t) (pos := posOf z e t) cleared tab rfl
    have ran := runHeads_acts (m := m) (desc := desc) (layer := locLayer desc.locus.toNat) (t := t) (pos := posOf z e t) checked tab
      (hs := (selectedHeads z e m (locLayer desc.locus.toNat) (posOf z e t)).take (selRoom z e))
      fun h mem => selectedHeads_stored (List.mem_of_mem_take mem)
    split
    · exact overrunAt_acts ran
    · exact ran

end

end Sys2Proof.Machine
end

section
/-! SUPPORT. What ATTN leaves of its batch, and O52 (R128, R173, R175, R176, R179). -/

namespace Sys2Proof.Machine

/-! ## The heads of a token -/

section
variable {k t h : Nat} {out : Nat → Option (List FV)} {hs : List Nat} {e e' e2 : Batch}

theorem addFail_parts (token cause : Nat) (e : Batch) : ∃ l, addFail token cause e = { e with fails := l } := by
  unfold addFail
  split
  · exact ⟨e.fails, rfl⟩
  · exact ⟨_, rfl⟩

/-- What a recomputed head puts behind the buffer: its number and its output. -/
def headCells (out : Nat → Option (List FV)) (h : Nat) : List F32 :=
  match out h with
  | some o => BitVec.ofNat 32 h :: o.map f32b
  | none => []

/-- A batch behind the recompute of some heads of a token. -/
structure HeadsRan (k t : Nat) (out : Nat → Option (List FV)) (hs : List Nat) (e e' : Batch) : Prop where
  selRun : e'.selRun = e.selRun + hs.length
  overrun : e'.overrun = e.overrun
  lates : e'.lates = e.lates
  written : mgetD e'.bufs k [] = mgetD e.bufs k [] ++ hs.flatMap (headCells out)
  kept : ∀ f ∈ e.fails, f ∈ e'.fails
  fails : (∃ h ∈ hs, out h = none) → (t, 4) ∈ e'.fails
  passes : (∀ h ∈ hs, out h ≠ none) → e'.fails = e.fails

theorem headsRan_nil (k t : Nat) (out : Nat → Option (List FV)) (e : Batch) : HeadsRan k t out [] e e :=
  ⟨rfl, rfl, rfl, by simp, fun _ mem => mem, by simp, fun _ => rfl⟩

theorem headsRan_one (k t : Nat) (out : Nat → Option (List FV)) (e : Batch) (h : Nat) : HeadsRan k t out [h] e (headRun k t out e h) := by
  unfold headRun
  cases result : out h with
  | some o => exact ⟨rfl, rfl, rfl, by simp [putHead, selected, headCells, result], fun _ mem => mem, by simp [result], fun _ => rfl⟩
  | none =>
    have failed := mem_addFail t 4 (selected e)
    have kept := fun f (mem : f ∈ (selected e).fails) => (mem_fails_addFail t 4 (selected e) f).mpr (.inl mem)
    obtain ⟨l, parts⟩ := addFail_parts t 4 (selected e)
    rw [parts] at failed kept ⊢
    exact ⟨rfl, rfl, rfl, by simp [selected, headCells, result], kept, fun _ => failed, by simp [result]⟩

theorem HeadsRan.trans {hs' : List Nat} (one : HeadsRan k t out hs e e') (two : HeadsRan k t out hs' e' e2) :
    HeadsRan k t out (hs ++ hs') e e2 where
  selRun := by rw [two.selRun, one.selRun, List.length_append, Nat.add_assoc]
  overrun := two.overrun.trans one.overrun
  lates := two.lates.trans one.lates
  written := by rw [two.written, one.written, List.flatMap_append, List.append_assoc]
  kept f mem := two.kept f (one.kept f mem)
  fails := by
    rintro ⟨h, mem, notFinite⟩
    rcases List.mem_append.mp mem with mem | mem
    · exact two.kept _ (one.fails ⟨h, mem, notFinite⟩)
    · exact two.fails ⟨h, mem, notFinite⟩
  passes finite := (two.passes fun h mem => finite h (List.mem_append_right _ mem)).trans
    (one.passes fun h mem => finite h (List.mem_append_left _ mem))

theorem headsRan_foldl (k t : Nat) (out : Nat → Option (List FV)) (hs : List Nat) (e : Batch) :
    HeadsRan k t out hs e (hs.foldl (headRun k t out) e) := by
  induction hs generalizing e with
  | nil => exact headsRan_nil k t out e
  | cons h r ih => exact (headsRan_one k t out e h).trans (ih _)

/-! ## A token -/

/-- What ATTN of a token leaves of its batch: the heads that the sample selects and the room that S_max leaves, whether the token
attends to a VOID position, and what each head's recompute is. -/
structure AttnLeft (k t room : Nat) (heads : List Nat) (isVoid : Prop) (out : Nat → Option (List FV)) (b b' : Batch) : Prop where
  selRun : b'.selRun = b.selRun + min room heads.length
  exceeds : room < heads.length → b'.overrun = some t ∧ 22 ∈ b'.lates
  within : heads.length ≤ room → b'.overrun = none ∧ b'.lates = b.lates
  void : isVoid → (t, 5) ∈ b'.fails
  fails : (∃ h ∈ heads.take room, out h = none) → (t, 4) ∈ b'.fails
  passes : ¬isVoid → (∀ h ∈ heads.take room, out h ≠ none) → b'.fails = b.fails
  written : mgetD b'.bufs k [] = (heads.take room).flatMap (headCells out)

theorem voided_parts (isVoid : Prop) [Decidable isVoid] (t : Nat) (e : Batch) : ∃ l, voided isVoid t e = { e with fails := l } := by
  unfold voided
  split
  · exact addFail_parts t 5 e
  · exact ⟨e.fails, rfl⟩

theorem overran_parts (t : Nat) (e : Batch) : ∃ l, overran t e = { e with overrun := some t, lates := l } ∧ 22 ∈ l := by
  obtain ⟨l, parts, mem, -⟩ := addLate_eq 22 { e with overrun := some t }
  exact ⟨l, parts, mem⟩

/-- A failure of a VOID position comes in front of the heads, and an overrun behind them. -/
theorem attnLeft_of_headsRan {room : Nat} {heads : List Nat} {isVoid : Prop} [Decidable isVoid] {b : Batch} (fresh : b.overrun = none)
    (ran : HeadsRan k t out (heads.take room) (voided isVoid t (withBuf k [] b)) e) :
    AttnLeft k t room heads isVoid out b (if room < heads.length then overran t e else e) := by
  have isVoid_fails : isVoid → (t, 5) ∈ e.fails := fun h => ran.kept _ (by rw [voided, if_pos h]; exact mem_addFail _ _ _)
  have passes : ¬isVoid → (∀ h ∈ heads.take room, out h ≠ none) → e.fails = b.fails := fun h finite =>
    (ran.passes finite).trans (by rw [voided, if_neg h]; rfl)
  obtain ⟨selRun, overrun, lates, written, -, fails, -⟩ := ran
  obtain ⟨l, start⟩ := voided_parts isVoid t (withBuf k [] b)
  rw [start] at selRun overrun lates written
  replace selRun : e.selRun = b.selRun + min room heads.length := by rw [selRun, List.length_take]; rfl
  replace written : mgetD e.bufs k [] = (heads.take room).flatMap (headCells out) := by
    rw [written, withBuf, mgetD_mset_same, List.nil_append]
  split
  · next exceeds =>
    obtain ⟨ls, ends, mem⟩ := overran_parts t e
    rw [ends]
    exact ⟨selRun, fun _ => ⟨rfl, mem⟩, fun within => absurd exceeds (by omega), isVoid_fails, fails, passes, written⟩
  · next within =>
    exact ⟨selRun, fun exceeds => absurd exceeds within, fun _ => ⟨overrun.trans fresh, lates⟩, isVoid_fails, fails, passes,
      written⟩

/-- A batch that has not overrun yet, behind ATTN of a token. -/
theorem attended_left {z : Die} {desc : OpDesc} {m : Model} {b : Batch} (ledger : (chan z b.channel).density ≠ 0)
    (fresh : b.overrun = none) :
    let layer := locLayer desc.locus.toNat
    let pos := posOf z b t
    AttnLeft (dstKey desc t) t ((chan z b.channel).host.sMax - b.selRun) (selectedHeads z b m layer pos)
      ((chan z b.channel).voidPos ≤ pos) (headOut z desc b m layer t pos) b (attended z desc m t b) := by
  intro layer pos
  have room : selRoom z b = (chan z b.channel).host.sMax - b.selRun := by simp [selRoom, fresh]
  have unspent : ¬b.overrun.isSome = true := by simp [fresh]
  rw [← room, attended, if_neg ledger]
  simp only [if_neg unspent]
  exact attnLeft_of_headsRan fresh (headsRan_foldl _ _ _ _ _)

/-- Captures are no part of it. -/
theorem AttnLeft.of_shows {room : Nat} {heads : List Nat} {isVoid : Prop} {b : Batch} (left : AttnLeft k t room heads isVoid out b e)
    (shows : Shows e e') : AttnLeft k t room heads isVoid out b e' := by
  obtain ⟨selRun, exceeds, within, void, fails, passes, written⟩ := left
  have bare : AttnLeft k t room heads isVoid out b (uncapped e) := ⟨selRun, exceeds, within, void, fails, passes, written⟩
  rw [← shows] at bare
  obtain ⟨selRun, exceeds, within, void, fails, passes, written⟩ := bare
  exact ⟨selRun, exceeds, within, void, fails, passes, written⟩

end

/-! ## The overrun is reported (R179) -/

section
variable {page bit t : Nat} {d y : Die} {desc : OpDesc} {b e : Batch} {m : Model}

theorem failCheck_errs (n token cause page upper locus extra : Nat) (d : Die) :
    (failCheck n token cause page upper locus extra d).errs = d.errs := by
  unfold failCheck
  split <;> rfl

protected theorem Reported.countNan {n : Nat} (h : Reported page bit d) : Reported page bit (countNan n d) := by
  unfold Machine.countNan
  exact .ite h (.raise (h.same rfl))

protected theorem Reported.voidCheck {layer pos : Nat} (h : Reported page bit d) : Reported page bit (voidCheck e layer t pos d) := by
  unfold Machine.voidCheck
  exact .ite (.raise (h.same (failCheck_errs _ _ _ _ _ _ _ _))) h

protected theorem Reported.runHead {layer pos q : Nat} (h : Reported page bit d) :
    Reported page bit (runHead desc e m layer t pos d q) := by
  unfold Machine.runHead
  extract_lets
  split
  · exact h
  · dsimp only
    split
    · exact (Reported.countNan (d := count pCWE 0x088 (modTicket e.serial selected d)) (h.same rfl)).same rfl
    · exact h.same (failCheck_errs _ _ _ _ _ _ _ _)

protected theorem Reported.overrunAt (h : Reported page bit d) : Reported page bit (overrunAt e t d) := by
  unfold Machine.overrunAt
  exact .ite h (.raise (h.same rfl))

protected theorem Reported.attnToken (h : Reported page bit d) : Reported page bit (attnToken desc e m t d) := by
  unfold Machine.attnToken
  extract_lets x layer pos heads room d1 d2
  have ran : Reported page bit d2 := .foldl (fun _ _ => .runHead) (.voidCheck (h.same rfl))
  exact .ite h (.ite ran.overrunAt ran)

/-- A batch with more selections than S_max has room for is reported. -/
theorem attnToken_reports (ledger : (chan d e.channel).density ≠ 0) (fresh : e.overrun = none)
    (exceeds : (chan d e.channel).host.sMax - e.selRun < (selectedHeads d e m (locLayer desc.locus.toNat) (posOf d e t)).length) :
    Reported pCWE 7 (attnToken desc e m t d) := by
  unfold Machine.attnToken
  extract_lets x layer pos heads room d1 d2
  have left : room = x.host.sMax - e.selRun := if_neg (by simp [fresh])
  rw [if_neg ledger, left, if_pos exceeds, overrunAt, if_neg (by simp [fresh])]
  exact reported_raise rfl (by decide)

/-- A run comes to a batch of its own with the ticket as it stood and the channels that it found. -/
theorem run_reaches {eff : Batch → Model → Nat → Die → Die} {Q : Batch → Batch → Prop} {run : List Nat} (distinct : run.Nodup)
    (mem : b.serial ∈ run) (found : ticket y b.serial = some b) (step : ∀ e v, inert v = inert y → Acts e (Q e) v (eff e m t v)) :
    ∃ (v : Die) (behind : List Nat), inert v = inert y ∧ run.foldl (onRun m t eff) y = behind.foldl (onRun m t eff) (eff b m t v) := by
  obtain ⟨before, behind, rfl⟩ := List.append_of_mem mem
  obtain ⟨distinct, -, apart⟩ := List.nodup_append.mp distinct
  obtain ⟨rest, others, -⟩ := onRun_foldl_acts distinct rfl step
  have stands := (others b.serial fun mem => apart _ mem _ List.mem_cons_self rfl).trans found
  exact ⟨_, behind, rest, by rw [List.foldl_append, List.foldl_cons, onRun_of_ticket stands]⟩

theorem attnRun_reported (behind : List Nat) (h : Reported page bit d) :
    Reported page bit (behind.foldl (onRun m t (onToken (attnToken desc))) d) := by
  refine .foldl (fun v s h => ?_) h
  cases found : ticket v s with
  | none => rwa [onRun_of_none found]
  | some e =>
    rw [onRun_of_ticket found, onToken]
    exact .ite h.attnToken h

end

/-! ## The command -/

theorem RunsTo.attn {s : State} {d : DieId} {lead : BitVec 3} {desc : OpDesc} : RunsTo (.attn d lead desc []) s d
    (tokenRun lead.toNat 3 0x41 desc (attnCycles lead.toNat desc) (attnToken desc) [] (s.die d)) := rfl

/-- The issue of an instruction does not change what its selections cost. -/
theorem attnCycles_spend (l : Nat) (desc : OpDesc) (d : Die) (e : Batch) (m : Model) (t : Nat) :
    attnCycles l desc (spend l 1 d) e m t = attnCycles l desc d e m t := by
  have tab : (spend l 1 d).chn.tab = d.chn.tab := rfl
  have lanes : ∀ n, lanesOf (spend l 1 d) l n = lanesOf d l n := lanesOf_modCore _
  simp only [attnCycles, selCycles, lanes, chan_of_tab tab, posOf_of_tab tab, selectedHeads_of_tab tab]

theorem attentionRunsTheSelectedHeads : Claim.AttentionRunsTheSelectedHeads := by
  unfold Claim.AttentionRunsTheSelectedHeads
  intro s d lead desc m b y
  dsimp only
  intro serves has ledger fresh issues
  have on : IssuesOnToken lead.toNat 3 (.attn d lead desc []) desc m b (attnCycles lead.toNat desc) (s.die d) y :=
    ⟨serves, has, fun e => attnCycles_spend .., issues⟩
  obtain ⟨ran, pc, queues, tim, frame, b', found, shows⟩ := tokenRun_acts on fun e v _ tab => attnToken_acts (desc := desc) tab
  obtain ⟨selRun, exceeds, within, void, fails, passes, written⟩ := (attended_left ledger fresh).of_shows shows
  obtain ⟨distinct, mem, stands, -, -⟩ := serves
  obtain ⟨-, t, q, rfl⟩ := issues.queued
  generalize fetchRun lead.toNat (s.die d) = z at *
  have step : ∀ e v, inert v = inert (queued lead.toNat t q desc z) → Acts e
      (fun e' => hasToken e (core z lead.toNat).cursor = true → Shows (attended z desc m (core z lead.toNat).cursor e) e') v
      (onToken (attnToken desc) e m (core z lead.toNat).cursor v) :=
    fun e v same => (attnToken_acts (inert_tab same)).onToken
  obtain ⟨rest, -, -⟩ := onRun_foldl_acts distinct rfl step
  obtain ⟨v, behind, same, reaches⟩ := run_reaches distinct mem
    ((ticket_congr (by rw [queued_chn]) _).trans stands : ticket (queued lead.toNat t q desc z) b.serial = some b) step
  have tab := inert_tab same
  have kept := inert_tab rest
  rw [queued_chn] at tab kept
  rw [ran] at pc queues tim frame found
  refine ⟨_, b', .of_eq .attn ran, pc, queues, tim, frame, kept, found, selRun,
    fun h => ⟨(exceeds h).1, (exceeds h).2, ?_⟩, within, void, fails, fun ahead => passes (Nat.not_le.mpr ahead), written⟩
  rw [reaches, onToken, if_pos has]
  refine Reported.same (attnRun_reported behind (attnToken_reports ?_ fresh ?_)) rfl
  · rwa [chan_of_tab tab]
  · rwa [chan_of_tab tab, posOf_of_tab tab, selectedHeads_of_tab tab]

/-- Settles O52: KVAPP writes rows that lie one behind the other, and ATTN changes its batch's ticket alone, head by head. -/
theorem ledgerAndAttentionInstructions : Obligations.LedgerAndAttentionInstructions :=
  ⟨kvappWritesTheLedgerRows, attentionRunsTheSelectedHeads⟩

end Sys2Proof.Machine
end

section
/-! SUPPORT. What the end, the signature and the release of a seal leave, the retirement of a signature engine and of a Sentinel
image, and O57. -/

namespace Sys2Proof.Machine

/-! ## The end of a period (R214 to R219) -/

section
variable {cut : Bool} {d : Die}

/-- The open period's seal, as it is handed to a signature engine. -/
def sealOfPeriod (cut : Bool) (d : Die) : SealWait where
  no := d.sealing.nextNo
  header := sealHeader d cut (modelTable d.sealing.leaves)
  table := (modelTable d.sealing.leaves).flatMap id
  body := d.sealing.leaves.flatMap (fun l => l.record ++ l.inDig ++ l.outDig)
  sig := sealSign d (sealHeader d cut (modelTable d.sealing.leaves))
  engine := nextSigEngine d

theorem closePeriod_sealing (running : d.sealing.running = true) : (closePeriod cut d).sealing = { d.sealing with
    running := false, nextNo := d.sealing.nextNo + 1, leaves := []
    prev := h32 ((sealOfPeriod cut d).header ++ (sealOfPeriod cut d).sig)
    waiting := d.sealing.waiting ++ [sealOfPeriod cut d], nextEngine := (sealOfPeriod cut d).engine + 1 } := by
  rw [closePeriod, if_pos running]
  rfl

theorem symIndex_congr {x : Die} (tim : x.tim = d.tim) : symIndex x = symIndex d := by
  rw [symIndex, slotCount, tim, symIndex, slotCount]

/-- A period begins empty at the symbol count of the time, and leaves the seals before it as they are. -/
theorem startPeriod_begins : (startPeriod d).sealing.leaves = [] ∧ (startPeriod d).sealing.startIdx = symIndex d ∧
    (startPeriod d).sealing.nextNo = d.sealing.nextNo ∧ (startPeriod d).sealing.waiting = d.sealing.waiting ∧
    (startPeriod d).sealing.prev = d.sealing.prev := by
  unfold startPeriod
  dsimp only
  split <;> simp

theorem turnPeriod_turns (running : d.sealing.running = true) : (turnPeriod cut d).sealing.leaves = [] ∧
    (turnPeriod cut d).sealing.startIdx = symIndex d ∧ (turnPeriod cut d).sealing.nextNo = d.sealing.nextNo + 1 ∧
    (turnPeriod cut d).sealing.waiting = d.sealing.waiting ++ [sealOfPeriod cut d] ∧
    (turnPeriod cut d).sealing.prev = h32 ((sealOfPeriod cut d).header ++ (sealOfPeriod cut d).sig) := by
  obtain ⟨leaves, startIdx, nextNo, waiting, prev⟩ := startPeriod_begins (d := closePeriod cut d)
  rw [symIndex_congr (quiet_tim (quiet_closePeriod cut d))] at startIdx
  rw [closePeriod_sealing running] at nextNo waiting prev
  rw [turnPeriod, if_pos running]
  exact ⟨leaves, startIdx, nextNo, waiting, prev⟩

theorem turnPeriod_running (running : d.sealing.running = true) : (turnPeriod cut d).sealing.running = true := by
  rw [turnPeriod, if_pos running, startPeriod_running]

theorem sealBoundary_turns (running : d.sealing.running = true) (period : d.sealing.effPeriod ≠ 0)
    (multiple : symIndex d % d.sealing.effPeriod = 0) (later : symIndex d ≠ d.sealing.startIdx) :
    sealBoundary d = turnPeriod false d := if_pos (by simp [running, period, multiple, later])

theorem sealBoundary_idle (idle : d.sealing.running = false ∨ symIndex d % d.sealing.effPeriod ≠ 0 ∨
    symIndex d = d.sealing.startIdx) : sealBoundary d = d := by
  refine if_neg ?_
  rcases idle with h | h | h <;> simp [h]

end

/-! ## Release (R219, R220) -/

section
variable {w : SealWait} {d : Die}

theorem dropBody_sealing (no : Nat) (d : Die) : ∃ bs, (dropBody no d).sealing = { d.sealing with bodies := bs } := by
  unfold dropBody
  split
  · exact ⟨_, by rw [sendEvent_sealing, raise_sealing, count_sealing, updSealing_sealing]⟩
  · exact ⟨d.sealing.bodies, rfl⟩

/-- To make room in the buffer only bodies are given up. -/
theorem fitBodies_sealing (fuel : Nat) (d : Die) : ∃ bs, (fitBodies fuel d).sealing = { d.sealing with bodies := bs } := by
  induction fuel generalizing d with
  | zero => exact ⟨d.sealing.bodies, rfl⟩
  | succ fuel ih =>
    unfold fitBodies
    split
    · exact ⟨d.sealing.bodies, rfl⟩
    · split
      · exact ⟨d.sealing.bodies, rfl⟩
      · next b _ _ =>
        obtain ⟨bs, dropped⟩ := dropBody_sealing b.no d
        obtain ⟨cs, fits⟩ := ih (dropBody b.no d)
        exact ⟨cs, by rw [fits, dropped]⟩

theorem releaseSeal_sealing : ∃ bs, (releaseSeal w d).sealing = { d.sealing with
    headers := (d.sealing.headers ++ [(w.no, w.header ++ w.sig)]).drop (d.sealing.headers.length + 1 - 65536)
    bodies := bs, lastNo := w.no, lastDig := h32 (w.header ++ w.sig) } := by
  unfold releaseSeal
  extract_lets msg d1 d2
  obtain ⟨bs, fits⟩ := fitBodies_sealing (d2.sealing.bodies.length + 1) d2
  have kept : d1.sealing = d.sealing := rfl
  exact ⟨bs, by rw [sendSeal_sealing, fits, updSealing_sealing, kept]⟩

/-- What is appended stays when at most what was there before it is dropped. -/
theorem mem_drop_append_singleton {α : Type} {l : List α} {a : α} {n : Nat} (before : n ≤ l.length) :
    a ∈ (l ++ [a]).drop n := by
  rw [List.drop_append_of_le_length before]
  exact List.mem_append_right _ List.mem_cons_self

/-! ## Signatures and their engines (R228, R230) -/

variable {r : List SealWait}

/-- A signature that passes its checks releases the front seal, whether or not it was sampled. -/
theorem sealSigned_passes (front : d.sealing.waiting = w :: r) (up : enginesUp d ≠ 0) :
    ∃ e, e.sealing = { d.sealing with waiting := r } ∧ sealSigned true true d = releaseSeal w e := by
  unfold sealSigned
  rw [front]
  dsimp only
  rw [if_neg up]
  generalize (w.no % max 1 (field d pSIG 0x040 16) == 0 && enginesUp d == 2) = sampled
  refine ⟨_, ?_, by rw [Bool.not_true, if_neg Bool.false_ne_true, Bool.and_false, if_neg Bool.false_ne_true]⟩
  cases sampled <;> rfl

theorem sealSigned_fails {verify : Bool} (front : d.sealing.waiting = w :: r) (up : enginesUp d ≠ 0) :
    sealSigned false verify d = failEngine (raise pSIG 0 d) := by
  unfold sealSigned
  rw [front]
  dsimp only
  rw [if_neg up]
  rfl

/-- The first failure of an engine is noted, and the other engine in service takes the header. -/
theorem failEngine_first (front : d.sealing.waiting = w :: r) (first : mget d.sig.codeAt w.engine = none) :
    failEngine d = updSealing (fun s => { s with waiting := { w with
        failed := w.engine :: w.failed, engine := if d.sig.state[1 - w.engine]? = some 1 then 1 - w.engine else w.engine } :: r })
      { d with sig := { d.sig with codeAt := mset d.sig.codeAt w.engine d.tim.up } } := by
  unfold failEngine
  rw [front]
  simp [first]

end

section
variable {e : Nat} {d : Die}

theorem cmdRetireEngine_ignored (other : enginesUp d ≠ 2) : cmdRetireEngine e d = d := if_neg other

/-- One of two engines goes out of service, and the other takes its waiting seals: the last engine is not lost. -/
theorem cmdRetireEngine_retires (two : d.sig.state = [1, 1]) (known : e = 0 ∨ e = 1) :
    cmdRetireEngine e d = raise pSIG 2 (updSealing
      (fun s => { s with waiting := s.waiting.map (fun w => if w.engine = e then { w with engine := 1 - e } else w) })
      { d with sig := { d.sig with state := d.sig.state.set e 3 } }) := by
  rw [cmdRetireEngine, if_pos (by rw [enginesUp, two]; rfl), retireEngine]
  rcases known with rfl | rfl <;>
  · rw [if_pos (by rw [two]; rfl)]
    exact if_neg (by simp [enginesUp, two])

end

theorem reassigned_engine {e : Nat} {l : List SealWait} {w : SealWait} (known : e = 0 ∨ e = 1)
    (mem : w ∈ l.map (fun w => if w.engine = e then { w with engine := 1 - e } else w)) : w.engine ≠ e := by
  obtain ⟨v, -, rfl⟩ := List.mem_map.mp mem
  split
  · show 1 - e ≠ e
    rcases known with rfl | rfl <;> decide
  · next other => exact other

theorem signatureEngineRetires {s : State} {d : DieId} {c : Instr} {e : Nat} (runs : RunsTo c s d (cmdRetireEngine e (s.die d)))
    (known : e = 0 ∨ e = 1) :
    ((s.die d).sig.state = [1, 1] → ∃ x, RunsTo c s d x ∧
      x.sig = { (s.die d).sig with state := (s.die d).sig.state.set e 3 } ∧ errSet x pSIG 2 = true ∧ (∀ w ∈ x.sealing.waiting, w.engine ≠ e) ∧
      x.sealing.waiting.length = (s.die d).sealing.waiting.length) ∧
    (enginesUp (s.die d) ≠ 2 → RunsTo c s d (s.die d)) := by
  refine ⟨fun two => ?_, fun other => cmdRetireEngine_ignored other ▸ runs⟩
  rw [cmdRetireEngine_retires two known] at runs
  refine ⟨_, runs, by rw [raise_sig]; rfl, errSet_raise _ _ _ rfl rfl, fun w mem => ?_, ?_⟩
  · rw [raise_sealing] at mem
    exact reassigned_engine known mem
  · rw [raise_sealing]
    exact List.length_map _

theorem sealPeriodsEndAndAreSigned : Claim.SealPeriodsEndAndAreSigned := by
  intro s d
  have boundary : RunsTo (.sealPeriodBoundary d) s d (sealBoundary (s.die d)) := rfl
  have signed (codeOk verifyOk : Bool) : RunsTo (.sealSigned d codeOk verifyOk) s d (sealSigned codeOk verifyOk (s.die d)) := rfl
  generalize s.die d = z at boundary signed
  refine ⟨fun running period multiple later => ?_, fun idle => sealBoundary_idle idle ▸ boundary,
    fun w r front up => ⟨?_, fun verify two first => ?_⟩⟩
  · rw [sealBoundary_turns running period multiple later] at boundary
    obtain ⟨leaves, startIdx, nextNo, waiting, prev⟩ := turnPeriod_turns (cut := false) running
    exact ⟨_, sealOfPeriod false z, boundary, turnPeriod_running running, leaves, startIdx, nextNo, waiting,
      rfl, rfl, rfl, rfl, rfl, prev⟩
  · obtain ⟨e, left, passes⟩ := sealSigned_passes front up
    obtain ⟨bs, released⟩ := releaseSeal_sealing (w := w) (d := e)
    rw [left] at released
    refine ⟨_, passes ▸ signed true true, ?_⟩
    rw [released]
    refine ⟨rfl, rfl, rfl, ?_⟩
    dsimp only
    exact mem_drop_append_singleton (by omega)
  · have failed := failEngine_first (d := raise pSIG 0 z) (by rwa [raise_sealing]) (by rwa [raise_sig])
    have ran := signed false verify
    rw [sealSigned_fails front up, failed, raise_sig, raise_tim] at ran
    exact ⟨_, ran, rfl, mget_mset_same _ _ _, Reported.same (reported_raise (d := z) rfl rfl) rfl⟩

/-! ## Sentinel images (R311) -/

section
variable {d x : Die} {c : Nat}

theorem image_of_quiet (same : quiet x = quiet d) (i : Nat) : image x i = image d i :=
  show mgetD (quiet x).sntb.images i {} = mgetD (quiet d).sntb.images i {} by rw [same]

theorem Standing.live_retire (cause : Nat) (y : Standing) : (y.retire cause).live = false := by
  unfold Standing.retire
  split
  · rfl
  · next out => exact Bool.not_eq_true _ ▸ out

theorem OutOfService.not_live {cause : Nat} (out : OutOfService cause d.chn c) : chanLive (chan d c) = false := by
  obtain ⟨y, stands, state, -⟩ := out
  rw [chanLive_chan, stands]
  simp [Standing.live, state]

/-- Retiring any channel brings none into service. -/
theorem not_live_retireChan (out : chanLive (chan d c) = false) (ec v k j : Nat) :
    chanLive (chan (retireChan ec v k j d) c) = false := by
  rw [chanLive_chan] at out ⊢
  rw [standing_retireChan]
  split
  · cases standing d.chn c with
    | none => rfl
    | some y => exact Standing.live_retire ec y
  · exact out

theorem not_live_retireChans (out : chanLive (chan d c) = false) (ec v k : Nat) (cs : List Nat) :
    chanLive (chan (cs.foldl (fun d c => retireChan ec v k c d) d) c) = false := by
  induction cs generalizing d with
  | nil => exact out
  | cons j cs ih => exact ih (not_live_retireChan out ec v k j)

/-- Of the channels that met a condition none is in service after their retirement. -/
theorem not_live_retireWhere {p : Chan → Bool} (meets : p (chan d c) = true) (ec v k : Nat) :
    chanLive (chan (retireWhere p ec v k d) c) = false := by
  cases live : chanLive (chan d c) with
  | false => exact not_live_retireChans live ec v k _
  | true =>
    obtain ⟨y, listed⟩ := Option.isSome_iff_exists.mp (listed_of_chanLive live)
    rw [chan_of_mget listed] at live meets
    exact (outOfService_of_retireWhere listed live meets).not_live

theorem imageRehash_same {i : Nat} (resident : (image d i).state = 2) :
    imageRehash i true d = countPerms (image d i).payload.length d := by
  simp [imageRehash, resident]

theorem imageRehash_differs {i : Nat} (resident : (image d i).state = 2) :
    imageRehash i false d = retireWhere (fun x => x.host.kind == 3 && x.host.slot == 64 + i) 5 3 19 (raise pSNT 5
      (setImage i { image d i with state := 3 } (countPerms (image d i).payload.length d))) := by
  have kept (n : Nat) : image (countPerms n d) i = image d i := rfl
  simp [imageRehash, resident, kept]

end

theorem sealCommandsAndImageHash : Claim.SealCommandsAndImageHash := by
  intro s d im
  have cut : RunsTo (.sigCmdCut d) s d (if (s.die d).sealing.running then
    updSealing (fun q => { q with cutPend := true }) (s.die d) else s.die d) := rfl
  have hashed (same : Bool) : RunsTo (.imageRehash d im same) s d (imageRehash im.toNat same (s.die d)) := rfl
  refine ⟨fun running => ?_, fun stopped => ?_, fun c e mem => ?_,
    fun resident => ⟨imageRehash_same resident ▸ hashed true, ?_⟩⟩
  · rwa [if_pos running] at cut
  · rwa [if_neg (by simp [stopped])] at cut
  · simp only [List.mem_cons, Prod.mk.injEq, List.not_mem_nil, or_false] at mem
    rcases mem with ⟨rfl, rfl⟩ | ⟨rfl, rfl⟩
    · exact signatureEngineRetires rfl (.inl rfl)
    · exact signatureEngineRetires rfl (.inr rfl)
  · refine ⟨_, imageRehash_differs resident ▸ hashed false, ?_, fun c kind slot => not_live_retireWhere ?_ ..⟩
    · rw [image_of_quiet (quiet_retireWhere ..), image_of_quiet (quiet_raise ..)]
      exact congrArg SntImage.state (mgetD_mset_same _ _ _ _)
    · rw [chan_congr (raise_chn _ _ _)]
      simpa using ⟨kind, slot⟩

/-- Settles O57: a boundary hands on the seal of the period that it ends, a signature decides the front seal alone, and what
names a retired engine or image is taken from it. -/
theorem sealsAndImageHashes : Obligations.SealsAndImageHashes := ⟨sealPeriodsEndAndAreSigned, sealCommandsAndImageHash⟩

end Sys2Proof.Machine
end

section
/-! SUPPORT. What a fragment, a GET and a seal acknowledgement do, and O16. -/

namespace Sys2Proof.Machine

section
variable {f : PFrame} {x : Session} {y : Die}

/-! ## Bulk transfer (R433) -/

/-- A fragment takes its place among those of its target. -/
theorem putFragment_bulk (target off : Nat) (data : Bytes) (d : Die) : (putFragment target off data d).key.bulk =
    mmod d.key.bulk target (fun b => { b with parts := b.parts.filter (fun p => p.1 != off) ++ [(off, data)] }) := by
  unfold putFragment
  dsimp only
  split <;> rfl

/-- The fragment at offset 0 of a program that fits begins the program's target anew. -/
theorem bulkPutFrame_program (program : f.ref.toNat = 2) (first : f.offset.toNat = 0) (operator : x.role = 1)
    (declares : 24 ≤ f.payload.length) (within_ : f.payload.length ≤ u32At f.payload 20)
    (most : u32At f.payload 20 ≤ 33554432)
    (new : mget y.key.bulk 2 = none) (room : extents (u32At f.payload 20) ≤ hbmFree (bulkDone 2 y)) :
    bulkPutFrame f x y = resultPut x f 2 (putFragment 2 0 f.payload (updKey (fun k => { k with
      bulk := mset k.bulk 2 { size := u32At f.payload 20, owner := x.id } }) (bulkDone 2 y))) := by
  have size : declaredSize y 2 f.payload = some (u32At f.payload 20) := if_neg (by omega)
  have may : mayPut y x.role 2 0 f.payload = true := by simp [mayPut, operator]
  have fits : ¬(u32At f.payload 20 > bulkMax 2 ∨ f.payload.length > u32At f.payload 20) := by
    simp only [bulkMax]
    omega
  unfold bulkPutFrame
  simp [program, first, may, size, new, fits, Nat.not_lt.mpr room]

theorem bulkGetFrame_answers {b : Bytes} (whole : 4 ≤ f.payload.length) (operator : x.role = 1)
    (target : u32At f.payload 0 ∈ [5, 7, 8, 9]) (held : bulkContent y (u32At f.payload 0) f.ref.toNat = some b) :
    bulkGetFrame f x y = answer 0 x.id f.seq.toNat 0 (b2n (decide (f.offset.toNat + 1400 < b.length))) f.offset.toNat
      (slice b f.offset.toNat 1400) y := by
  have known : [5, 7, 8, 9].contains (u32At f.payload 0) = true := List.contains_iff_mem.mpr target
  unfold bulkGetFrame
  dsimp only
  rw [if_neg (by rw [known]; simp [whole]), if_neg (by simp [operator]), held]

/-! ## Seal acknowledgements (R220, R435) -/

theorem sealAckFrame_operator (whole : 8 ≤ f.payload.length) (operator : x.role = 1) :
    (sealAckFrame f x y).sealing = { y.sealing with
      bodies := y.sealing.bodies.filter (fun b => b.no != leVal (slice f.payload 0 8)) } := by
  rw [sealAckFrame, if_neg (Nat.not_lt.mpr whole), if_pos operator, result, sendResult_sealing]
  rfl

theorem sealAckFrame_other (whole : 8 ≤ f.payload.length) (other : x.role ≠ 1) : (sealAckFrame f x y).sealing = y.sealing := by
  rw [sealAckFrame, if_neg (Nat.not_lt.mpr whole), if_neg other, result, sendResult_sealing]

end

/-- Settles O16: the target holds the fragment that began it, a GET is answered from what stands there, and bodies leave by
an operator's acknowledgement alone. -/
theorem bulkTransferAndSealBodies : Obligations.BulkTransferAndSealBodies := by
  intro s d f x y
  refine ⟨fun accepted program first operator declares within_ most new room => ⟨_, dieRequest_accepted accepted _, ?_⟩,
    fun accepted whole operator b target held => ?_, fun accepted whole =>
      ⟨fun operator => ⟨_, dieRequest_accepted accepted _, ?_⟩, fun other => ⟨_, dieRequest_accepted accepted _, ?_⟩⟩⟩
  · rw [bulkPutFrame_program program first operator declares within_ most new room, resultPut, answer_key_bulk, putFragment_bulk,
      mget_mmod, if_pos rfl]
    simp
  · exact bulkGetFrame_answers whole operator target held ▸ dieRequest_accepted accepted _
  · rw [sealAckFrame_operator whole operator]
  · exact sealAckFrame_other whole other

end Sys2Proof.Machine
end

section
/-! SUPPORT. What the records that wait leave of a die when they are tried again, VP_PAIR_CMD and the hand-over, and O20. -/

namespace Sys2Proof.Machine

/-! ## Halts (R244, R463) -/

/-- Which pipelines a debug halt stops. -/
def halts (d : Die) : List Bool := d.vp.pipes.map (fun p => p.core.halted)

section
variable {d x : Die}

theorem halts_of_vp (vp : x.vp = d.vp) : halts x = halts d := by rw [halts, vp, halts]

theorem halted_of_halts (d : Die) (n : Nat) : (core d n).halted = ((halts d)[n]?).getD false := by
  rw [halts, List.getElem?_map, core, pipe]
  cases d.vp.pipes[n]? <;> rfl

theorem halted_congr (same : halts x = halts d) (n : Nat) : (core x n).halted = (core d n).halted := by
  rw [halted_of_halts, same, halted_of_halts]

theorem halts_foldl {α : Type} (f : Die → α → Die) (keeps : ∀ d a, halts (f d a) = halts d) (as : List α) (d : Die) :
    halts (as.foldl f d) = halts d := by
  induction as generalizing d with
  | nil => rfl
  | cons a r ih => rw [List.foldl_cons, ih, keeps]

theorem halts_leaveRuns (n : Nat) (d : Die) : halts (leaveRuns n d) = halts d := by
  simp only [halts, leaveRuns, List.map_map]
  rfl

/-- A verdict takes its batch off the programs, and halts nothing. -/
theorem halts_commit (n v k : Nat) (e : Bool) (d : Die) : halts (commit n v k e d) = halts d := by
  unfold commit
  split
  · rfl
  · extract_lets c x inD outD io record leaf slot permit d1 own d2 d3 d4 d5 d6 d7 d8 d9 newest d10 d11 d12
    have h2 : d2.vp = d.vp := by simp only [d2]; split <;> simp [d1]
    have h4 : d4.vp = d.vp := by simp only [d4]; split <;> simp [d3, h2]
    have h6 : d6.vp = d.vp := by
      simp only [d6]
      split
      · exact (vp_foldl _ (fun d e => capture_vp c e d) _ d5).trans (by simp [d5, h4])
      · simp [d5, h4]
    have h8 : d8.vp = d.vp := by simp only [d8, d7]; split <;> split <;> simp [h6]
    have h10 : d10.vp = d.vp := by simp only [d10]; split <;> simp [d9, h8]
    have h12 : halts d12 = halts d := by
      refine (halts_of_vp (d := leaveRuns n (dropTicket n d10)) (by simp [d12, d11])).trans ?_
      rw [halts_leaveRuns]
      exact halts_of_vp (by simp [h10])
    split
    · exact h12
    · exact (halts_of_vp (by simp)).trans h12

theorem halts_endTicket (v k : Nat) (d : Die) (n : Nat) : halts (endTicket v k d n) = halts d := by
  unfold endTicket
  split
  · rfl
  · exact halts_commit n v _ true d

theorem halts_retireWhere (p : Chan → Bool) (ec v k : Nat) (d : Die) : halts (retireWhere p ec v k d) = halts d := by
  refine halts_foldl _ (fun d c => ?_) _ d
  unfold retireChan
  extract_lets y d1 d2 d3
  have h3 : halts d3 = halts d := halts_foldl (endTicket v k) (halts_endTicket v k) _ d
  split
  · split
    · exact h3
    · exact h3
  · rfl

/-! ### A weight stream that fails -/

@[simp] theorem stopStream_vp (s : Nat) (d : Die) : (stopStream s d).vp = d.vp := by
  unfold stopStream
  split
  · split <;> rfl
  · rfl

@[simp] theorem reportSlot_vp (s c : Nat) (d : Die) : (reportSlot s c d).vp = d.vp := by simp [reportSlot]

@[simp] theorem freeSlot_vp (s : Nat) (d : Die) : (freeSlot s d).vp = d.vp := by simp [freeSlot, releaseExtents, dropTag]

theorem halts_finishAbandoned (s : Nat) (d : Die) : halts (finishAbandoned s d) = halts d := by
  unfold finishAbandoned
  split
  · split
    · split
      · rfl
      · exact (halts_of_vp (by simp [withdrawModel]; rfl)).trans (halts_retireWhere _ 5 3 19 d)
    · rfl
  · rfl

theorem endAdmission_vp (s c : Nat) (first : Bool) (d : Die) : (endAdmission s c first d).vp = d.vp := by
  unfold endAdmission tellRefusal clearPeer
  dsimp only
  split
  · rfl
  · split
    · split <;> simp
    · simp

theorem halts_failStream (s c : Nat) (d : Die) : halts (failStream s c d) = halts d := by
  unfold failStream
  split
  · split
    · exact (halts_finishAbandoned _ _).trans (halts_of_vp (by simp))
    · exact halts_of_vp (endAdmission_vp _ _ _ _)
  · rfl

end

/-! ## What WRD leaves of a die when it works through the records that wait (R90, R294) -/

/-- A die without the parts that records change, and its halts. -/
def resting (d : Die) : Die × List Bool := ({ quiet d with wlk := {} }, halts d)

section
variable {d x : Die}

theorem resting_of_quiet (same : quiet x = quiet d) (halted : halts x = halts d) : resting x = resting d := by
  rw [resting, same, halted, resting]

theorem resting_of_vp (same : quiet x = quiet d) (vp : x.vp = d.vp) : resting x = resting d :=
  resting_of_quiet same (halts_of_vp vp)

section
variable (same : resting x = resting d)
include same

theorem resting_halts : halts x = halts d := congrArg Prod.snd same
theorem resting_phase : x.phase = d.phase := congrArg (fun r => r.1.phase) same
theorem resting_current : x.vp.current = d.vp.current := congrArg (fun r => r.1.vp.current) same
theorem resting_pending : x.vp.pending = d.vp.pending := congrArg (fun r => r.1.vp.pending) same
theorem resting_draining : x.vp.draining = d.vp.draining := congrArg (fun r => r.1.vp.draining) same
theorem resting_result : x.vp.result = d.vp.result := congrArg (fun r => r.1.vp.result) same
theorem resting_active : x.cad.active = d.cad.active := congrArg (fun r => r.1.cad.active) same
theorem resting_standby : x.cad.standby = d.cad.standby := congrArg (fun r => r.1.cad.standby) same
theorem resting_spans : x.cad.spans = d.cad.spans := congrArg (fun r => r.1.cad.spans) same

end

theorem resting_foldl {α : Type} (f : Die → α → Die) (keeps : ∀ d a, resting (f d a) = resting d) (as : List α) (d : Die) :
    resting (as.foldl f d) = resting d := by
  induction as generalizing d with
  | nil => rfl
  | cons a r ih => rw [List.foldl_cons, ih, keeps]

/-! ### Parts -/

@[simp] theorem resting_updWlk (f : Wlk → Wlk) (d : Die) : resting (updWlk f d) = resting d := rfl
@[simp] theorem resting_updWrd (f : Wrd → Wrd) (d : Die) : resting (updWrd f d) = resting d := rfl
@[simp] theorem resting_updDbg (f : Dbg → Dbg) (d : Die) : resting (updDbg f d) = resting d := rfl
@[simp] theorem resting_updAdm (f : Adm → Adm) (d : Die) : resting (updAdm f d) = resting d := rfl
@[simp] theorem resting_modTicket (n : Nat) (f : Batch → Batch) (d : Die) : resting (modTicket n f d) = resting d := rfl
@[simp] theorem resting_modArr (c : Nat) (f : Arrival → Arrival) (d : Die) : resting (modArr c f d) = resting d := rfl
@[simp] theorem resting_setCap (p o v : Nat) (d : Die) : resting (setCap p o v d) = resting d := rfl
@[simp] theorem resting_count (p o : Nat) (d : Die) : resting (count p o d) = resting d := rfl
@[simp] theorem resting_noteStaged (lead : Nat) (d : Die) : resting (noteStaged lead d) = resting d := rfl
@[simp] theorem resting_consume (vc n : Nat) (d : Die) : resting (consume vc n d) = resting d := rfl
@[simp] theorem resting_consumePart (vc : Nat) (d : Die) : resting (consumePart vc d) = resting d := rfl
@[simp] theorem resting_raise (p b : Nat) (d : Die) : resting (raise p b d) = resting d := resting_of_vp (by simp) (by simp)
@[simp] theorem resting_raiseRat (o r v : Nat) (d : Die) : resting (raiseRat o r v d) = resting d :=
  resting_of_vp (by simp) (by simp)
@[simp] theorem resting_failStream (s c : Nat) (d : Die) : resting (failStream s c d) = resting d :=
  resting_of_quiet (by simp) (halts_failStream s c d)
@[simp] theorem resting_depart (vc ch cause rtype seq : Nat) (d : Die) :
    resting (depart vc ch cause rtype seq d) = resting d := by
  simp [depart]

/-- The arming of the debug log is no part that rests. -/
@[simp] theorem resting_disarm (d : Die) : resting (setField 0 pDBG 0x04C 15 0 d) = resting d :=
  resting_of_vp (by simp [quiet, setField, mdel_mset]) rfl

/-! ### Batches -/

@[simp] theorem resting_tellStage (b : Batch) (stage : Nat) (d : Die) : resting (tellStage b stage d) = resting d := by
  unfold tellStage
  dsimp only
  split <;> rfl

@[simp] theorem resting_armLog (b : Batch) (d : Die) : resting (armLog b d) = resting d := by
  unfold armLog
  split <;> rfl

@[simp] theorem resting_takeTicket (c : Nat) (canary : Bool) (d : Die) : resting (takeTicket c canary d) = resting d := by
  unfold takeTicket
  dsimp only
  split
  · rfl
  · exact resting_armLog _ _

@[simp] theorem resting_logRecord (serial : Nat) (s : Staged) (d : Die) : resting (logRecord serial s d) = resting d := by
  unfold logRecord
  dsimp only
  split
  · split
    · simp
    · split <;> simp
  · rfl

@[simp] theorem resting_closeBatch (c : Nat) (whole : Bool) (r : RecIn) (d : Die) :
    resting (closeBatch c whole r d) = resting d := by
  unfold closeBatch
  extract_lets x p first d1 d2
  have h1 : resting d1 = resting d := by simp only [d1]; split <;> simp
  have h2 : resting d2 = resting d := by simp only [d2]; split <;> simp [h1]
  simp [h2]

@[simp] theorem resting_stage (c : Nat) (m : Model) (b : Batch) (rtype : Nat) (r : RecIn) (d : Die) :
    resting (stage c m b rtype r d) = resting d := by
  unfold stage
  extract_lets x p s radio outs body frame d1 d2 d3
  have h2 : resting d2 = resting d := by simp only [d2, d1]; split <;> simp
  have h3 : resting d3 = resting d := by simp [d3, h2]
  split <;> simp [h3]

/-! ### Records -/

@[simp] theorem resting_departRecord (vc c cause rtype : Nat) (r : RecIn) (d : Die) :
    resting (departRecord vc c cause rtype r d) = resting d := by
  unfold departRecord
  extract_lets d1 d2
  have h2 : resting d2 = resting d := by simp only [d2, d1]; split <;> simp
  split <;> simp [h2]

@[simp] theorem resting_skipRecord (vc c rtype : Nat) (r : RecIn) (d : Die) : resting (skipRecord vc c rtype r d) = resting d := by
  unfold skipRecord
  dsimp only
  split <;> split <;> simp

@[simp] theorem resting_framingLoss (vc rtype : Nat) (d : Die) : resting (framingLoss vc rtype d) = resting d := by
  unfold framingLoss
  refine (resting_foldl _ (fun d c => ?_) _ _).trans (by simp)
  split <;> simp

theorem resting_vc2Record (rtype : Nat) (r : RecIn) (d : Die) : resting (vc2Record rtype r d) = resting d := by
  unfold vc2Record
  extract_lets seq p d1 d2
  have h2 : resting d2 = resting d := by simp only [d2, d1]; split <;> simp
  split
  · simp [h2]
  · split <;> simp [h2]

/-- What comes of an operation, if anything, has everything that rests. -/
def RestsIf (d : Die) (o : Option Die) : Prop := ∀ x, o = some x → resting x = resting d

protected theorem RestsIf.none : RestsIf d none := fun _ never => nomatch never

protected theorem RestsIf.some (same : resting x = resting d) : RestsIf d (some x) := by
  rintro _ ⟨⟩
  exact same

protected theorem RestsIf.ite {c : Prop} [Decidable c] {o p : Option Die} (ho : RestsIf d o) (hp : RestsIf d p) :
    RestsIf d (if c then o else p) := by
  split
  · exact ho
  · exact hp

theorem restsIf_chanRecord (rtype : Nat) (r : RecIn) (d : Die) : RestsIf d (chanRecord rtype r d) := by
  unfold chanRecord
  extract_lets vc c y ob d1 d2
  have h1 : resting d1 = resting d := by simp only [d1]; split <;> simp
  have h2 : resting d2 = resting d := by simp only [d2]; split <;> simp [h1]
  split
  · exact .some (by simp)
  · refine .ite (.some (by simp)) (.ite (.some (by simp [h1])) (.ite .none ?_))
    split
    · exact .some (by rw [resting_departRecord, h2])
    · refine .ite .none ?_
      split
      · exact .some (by rw [resting_stage, h2])
      · exact .some h2

theorem resting_chunkDeparts (slot : Nat) (r : RecIn) (d : Die) : resting (chunkDeparts slot r d) = resting d := by
  unfold chunkDeparts
  dsimp only
  split <;> simp

theorem restsIf_chunkRecord (r : RecIn) (d : Die) : RestsIf d (chunkRecord r d) := by
  unfold chunkRecord
  dsimp only
  split
  · exact .ite (.some (by simp)) (.ite (.some (resting_chunkDeparts _ _ _)) (.ite .none (.some (by simp [stageChunk]))))
  · exact .ite (restsIf_chanRecord 11 r d) (.some (by simp))

/-! ### Streams -/

theorem resting_consumeRec (rtype : Nat) (r : RecIn) (d : Die) : resting (consumeRec rtype r d) = resting d := by
  unfold consumeRec
  dsimp only
  split <;> simp

theorem resting_settleStream (vc fuel : Nat) (d : Die) : resting (settleStream vc fuel d) = resting d := by
  induction fuel generalizing d with
  | zero => rfl
  | succ fuel ih =>
    unfold settleStream
    dsimp only
    split
    · rfl
    · split
      · split <;> simp [ih]
      · split <;> simp [ih]

theorem resting_settle (vc : Nat) (d : Die) : resting (settle vc d) = resting d := by
  unfold settle moveFront
  dsimp only
  split <;> simp [resting_settleStream]

theorem restsIf_tryRecord (rtype : Nat) (r : RecIn) (d : Die) : RestsIf d (tryRecord rtype r d) := by
  intro x dealt
  obtain ⟨y, tried, rfl⟩ := Option.map_eq_some_iff.mp dealt
  refine ((resting_settle _ _).trans (resting_consumeRec rtype r y)).trans ?_
  split at tried
  · exact RestsIf.some (resting_vc2Record rtype r d) y tried
  · split at tried
    · exact restsIf_chunkRecord r d y tried
    · exact restsIf_chanRecord rtype r d y tried

theorem resting_noteWait (vc : Nat) (d : Die) : resting (noteWait vc d) = resting d := by
  unfold noteWait
  split
  · split <;> simp
  · rfl

theorem resting_retryVc (vc fuel : Nat) (d : Die) : resting (retryVc vc fuel d) = resting d := by
  induction fuel generalizing d with
  | zero => rfl
  | succ fuel ih =>
    unfold retryVc
    split
    · rfl
    · next s t _ =>
      dsimp only
      split
      · rw [ih, resting_settle, resting_consumeRec, resting_framingLoss, resting_updWrd]
      · split
        · next dealt => rw [ih, restsIf_tryRecord _ _ _ _ dealt, resting_updWrd]
        · exact resting_noteWait vc d

/-- The records that wait, tried again, leave everything that rests. -/
theorem resting_retryHeld (d : Die) : resting (retryHeld d) = resting d :=
  resting_foldl _ (fun d vc => resting_retryVc vc _ d) _ d

end

/-! ## VP_PAIR_CMD (R242, R252) -/

section
variable {d : Die} {target0 : Nat}

theorem pairStart_waits (waits : d.vp.pending = true) : pairStart target0 d = d := by simp [pairStart, waits]

/-- A change of a coupled channel's pairing is announced: nothing of the die changes but what it has sent. -/
theorem announced_parts (d : Die) (t : Nat) :
    ∃ o, (if coupledChange d t then sendSpoke 6 t 0 0 0 0 0 [] [] d else d) = { d with out := o } := by
  split
  · exact ⟨_, rfl⟩
  · exact ⟨d.out, rfl⟩

theorem pairStart_accepted (settled : d.vp.pending = false) (accepted : pairResult d (min 2 target0) = 1) : ∃ o,
    pairStart target0 d =
      updVp (fun v => { v with target := min 2 target0, result := 1, pending := true }) { d with out := o } := by
  obtain ⟨o, sent⟩ := announced_parts d (min 2 target0)
  refine ⟨o, ?_⟩
  simp only [pairStart, settled, accepted, sent]
  rfl

theorem pairStart_refused (settled : d.vp.pending = false) (refused : pairResult d (min 2 target0) ≠ 1) : ∃ o,
    pairStart target0 d = raise (dieVpPage d) 7 (updVp (fun v => { v with
      target := min 2 target0, result := pairResult d (min 2 target0), pending := false }) { d with out := o }) := by
  obtain ⟨o, sent⟩ := announced_parts d (min 2 target0)
  refine ⟨o, ?_⟩
  simp only [pairStart, settled, refused, sent, decide_false]
  rfl

/-- The lowest enabled pipeline of a die has a page that reports refused hand-overs. -/
theorem dieVpPage_reports (some_ : enabledPipes d ≠ []) :
    pageAbsent d (dieVpPage d) = false ∧ (sevOf (dieVpPage d) 7).isSome = true := by
  obtain ⟨n, r, first⟩ := List.exists_cons_of_ne_nil some_
  have member : n ∈ enabledPipes d := first ▸ List.mem_cons_self
  obtain ⟨small, on⟩ : n < 6 ∧ (pipe d n).enabled = true := by simpa [enabledPipes] using member
  have page : dieVpPage d = pVP + n := by simp [dieVpPage, first]
  have inside : n < d.vp.pipes.length := lt_of_enabled on
  have code : ∀ n < 6, blkCode (pVP + n) = 7 ∧ (sevOf (pVP + n) 7).isSome = true := by decide
  rw [pipe, List.getElem?_eq_getElem inside, Option.getD_some] at on
  rw [page]
  exact ⟨by simp [pageAbsent, (code n small).1, inside, on], (code n small).2⟩

end

/-! ## The hand-over (R242, R243, R462) -/

section
variable {s : State} {d peer : Die} {tt : Timetable}

/-- What takes effect: the target pairing and the standby timetable, together. -/
theorem takeGroups_takes (standby : d.cad.standby = some tt) :
    (takeGroups d).vp.current = d.vp.target ∧ (takeGroups d).vp.pending = false ∧ (takeGroups d).vp.draining = false ∧
      (takeGroups d).vp.result = 0 ∧ (takeGroups d).cad.standby = none ∧ (takeGroups d).cad.spans = [] ∧
      (takeGroups d).cad.active = { tt with entries := liveEntries d tt.entries, isDefault := false } ∧
      (takeGroups d).phase = d.phase := by
  simp only [takeGroups, standby]
  exact ⟨resting_current (resting_retryHeld _), resting_pending (resting_retryHeld _), resting_draining (resting_retryHeld _),
    resting_result (resting_retryHeld _), resting_standby (resting_retryHeld _), resting_spans (resting_retryHeld _),
    resting_active (resting_retryHeld _), (resting_phase (resting_retryHeld _)).trans rfl⟩

theorem takeHandover_busy (busy : drained d = false) : takeHandover d peer = (d, peer) := by simp [takeHandover, busy]

theorem takeHandover_single (done : drained d = true) (single : coupledChange d d.vp.target = false) :
    takeHandover d peer = (takeGroups d, peer) := by simp [takeHandover, done, single]

theorem takeHandover_agreed (done : drained d = true) (both : coupledChange d d.vp.target = true)
    (agree : agreed d peer = true) : takeHandover d peer = (takeGroups d, takeGroups peer) := by
  simp [takeHandover, done, both, agree]

theorem takeHandover_apart (done : drained d = true) (both : coupledChange d d.vp.target = true)
    (apart : agreed d peer = false) : takeHandover d peer = (d, peer) := by simp [takeHandover, done, both, apart]

theorem target_of_agreed (agree : agreed d peer = true) : peer.vp.target = d.vp.target := by
  simp only [agreed, Bool.and_eq_true, beq_iff_eq] at agree
  obtain ⟨⟨⟨-, target⟩, -⟩, -⟩ := agree
  exact target

theorem RunsTo.handOver {d : DieId} {x : Die} (taken : takeHandover (s.die d) (s.die d.other) = (x, s.die d.other)) :
    RunsTo (.handoverTakeEffect d) s d x := by
  cases d
  · show Host.Outcome.next { s with dieA := (takeHandover s.dieA s.dieB).1, dieB := (takeHandover s.dieA s.dieB).2 } = _
    rw [show takeHandover s.dieA s.dieB = (x, s.dieB) from taken]
    rfl
  · show Host.Outcome.next { s with dieB := (takeHandover s.dieB s.dieA).1, dieA := (takeHandover s.dieB s.dieA).2 } = _
    rw [show takeHandover s.dieB s.dieA = (x, s.dieA) from taken]
    rfl

/-- The hand-over may change both dies, and nothing else. -/
theorem handOver_both (s : State) (d : DieId) : ∃ t, exec (.handoverTakeEffect d) s = .next t ∧
    (t.die d, t.die d.other) = takeHandover (s.die d) (s.die d.other) ∧ t.pkg = s.pkg := by
  cases d <;> exact ⟨_, rfl, rfl, rfl⟩

end

/-- Settles O20: the request as it is judged, then the hand-over by what has drained and by what the dies agree on. -/
theorem handOverOfThePairing : Obligations.HandOverOfThePairing := by
  intro s d target z t
  refine ⟨fun waits => runDie_of_eq (pairStart_waits waits), fun settled accepted => ?_, fun settled refused some_ => ?_,
    fun tt standby done single => ?_, fun tt standby done both => ⟨fun agree => ?_, fun apart => ?_⟩, fun busy => ?_⟩
  · obtain ⟨o, judged⟩ := pairStart_accepted (target0 := target.toNat) settled accepted
    exact ⟨_, runDie_of_eq judged, rfl, rfl, rfl, rfl⟩
  · obtain ⟨o, judged⟩ := pairStart_refused (target0 := target.toNat) settled refused
    obtain ⟨present, known⟩ := dieVpPage_reports some_
    exact ⟨_, runDie_of_eq judged, raise_vp _ _ _, errSet_raise _ _ _ present known⟩
  · exact ⟨_, .handOver (takeHandover_single done single), takeGroups_takes standby⟩
  · obtain ⟨u, ran, dies, pkg⟩ := handOver_both s d
    rw [takeHandover_agreed done both agree] at dies
    obtain ⟨here, there⟩ := Prod.mk.inj dies
    obtain ⟨current, settled, -⟩ := takeGroups_takes standby
    refine ⟨u, ran, ?_, ?_, fun pt other => ?_, pkg⟩
    · rw [here, current]
    · rw [here, settled]
    · obtain ⟨current, settled, -⟩ := takeGroups_takes other
      rw [there, current, settled]
      exact ⟨target_of_agreed agree, rfl⟩
  · exact .handOver (takeHandover_apart done both apart)
  · exact .handOver (takeHandover_busy busy)

end Sys2Proof.Machine
end

section
/-! SUPPORT. What a debug halt, a step, a resume and a replay do to the group that DBG_CTRL names, and O21. -/

namespace Sys2Proof.Machine

/-! ## The port is locked (R255) -/

section
variable {d : Die} (locked : debugOpen d = false)
include locked

theorem dbgHalt_locked (group : Nat) : dbgHalt group d = d := by simp [dbgHalt, locked]
theorem dbgStep_locked (pts : List PointFault) : dbgStep pts d = d := by simp [dbgStep, locked]
theorem dbgResume_locked : dbgResume d = d := by simp [dbgResume, locked]
theorem dbgReplay_locked (diff after : Nat) : dbgReplay diff after d = d := by simp [dbgReplay, locked]
theorem dbgArm_locked (c : Nat) : dbgArm c d = d := by simp [dbgArm, locked]

end

/-! ## Halt (R244, R463) -/

theorem enabled_of_leads {d : Die} {n : Nat} (serving : leads d n = true) : (pipe d n).enabled = true := by
  simp only [leads, Bool.and_eq_true] at serving
  obtain ⟨⟨on, -⟩, -⟩ := serving
  exact on

theorem leads_of_groupNamed {d : Die} {n lead : Nat} (named : groupNamed d n = some lead) : leads d lead = true := by
  simp only [groupNamed, Option.ite_none_right_eq_some, Option.some.injEq, Bool.and_eq_true] at named
  obtain ⟨⟨serving, -⟩, rfl⟩ := named
  exact serving

section
variable {d : Die} {group lead : Nat} (unlocked : debugOpen d = true)
include unlocked

/-- A group in service that no open channel is served by halts. -/
theorem dbgHalt_accepted (named : groupNamed d group = some lead)
    (idle : ∀ k ∈ openChans d, groupServes d lead (chan d k) = false) :
    dbgHalt group d = modCore lead (fun c => { c with halted := true }) (setField 0 pDBG 0x040 0 group d) := by
  have none_ : (openChans d).any (fun c => groupServes d lead (chan d c)) = false := by simpa using idle
  have named' : groupNamed (setField 0 pDBG 0x040 0 group d) group = some lead := named
  simp only [dbgHalt, unlocked, named', Bool.not_true, Bool.false_eq_true, if_false]
  exact if_neg (ne_true_of_eq_false none_)

theorem dbgHalt_refused (refused : groupNamed d group = none ∨ ∃ lead, groupNamed d group = some lead ∧
      ∃ k ∈ openChans d, groupServes d lead (chan d k) = true) :
    dbgHalt group d = updDbg (fun g => { g with refused := true }) (setField 0 pDBG 0x040 0 group d) := by
  have kept : groupNamed (setField 0 pDBG 0x040 0 group d) group = groupNamed d group := rfl
  rcases refused with unnamed | ⟨lead, named, k, isOpen, serves⟩
  · simp only [dbgHalt, unlocked, kept, unnamed, Bool.not_true, Bool.false_eq_true, if_false]
  · have some_ : (openChans d).any (fun c => groupServes d lead (chan d c)) = true := List.any_eq_true.mpr ⟨k, isOpen, serves⟩
    simp only [dbgHalt, unlocked, kept, named, Bool.not_true, Bool.false_eq_true, if_false]
    exact if_pos some_

end

/-! ## Step (R244, R259, R268) -/

/-- A die that differs in what its pipelines hold and in the draws that it has used. -/
def CoreOnly (d x : Die) : Prop := ∃ ps n, x = { d with vp := { d.vp with pipes := ps }, freeCtr := n }

section
variable {d x : Die}

protected theorem CoreOnly.refl (d : Die) : CoreOnly d d := ⟨d.vp.pipes, d.freeCtr, rfl⟩

protected theorem CoreOnly.modCore {l : Nat} {f : Core → Core} (h : CoreOnly d x) : CoreOnly d (modCore l f x) := by
  obtain ⟨ps, n, rfl⟩ := h
  exact ⟨_, _, rfl⟩

protected theorem CoreOnly.drew (h : CoreOnly d x) : CoreOnly d (drew x) := by
  obtain ⟨ps, n, rfl⟩ := h
  exact ⟨_, _, rfl⟩

protected theorem CoreOnly.ite {c : Prop} [Decidable c] {y : Die} (hx : CoreOnly d x) (hy : CoreOnly d y) :
    CoreOnly d (if c then x else y) := by
  split
  · exact hx
  · exact hy

protected theorem CoreOnly.getD {o : Option Die} (some_ : ∀ y ∈ o, CoreOnly d y) : CoreOnly d (o.getD d) := by
  cases o with
  | none => exact .refl d
  | some y => exact some_ y rfl

protected theorem CoreOnly.setReg {l n v : Nat} (h : CoreOnly d x) : CoreOnly d (setReg l n v x) := .ite h (.modCore h)

theorem coreOnly_loadConst (l a imm : Nat) (pool : List Nat) (d : Die) : CoreOnly d ((loadConst l a imm pool d).getD d) := by
  refine .getD fun y loaded => ?_
  obtain ⟨v, -, rfl⟩ := Option.map_eq_some_iff.mp loaded
  exact .modCore (.setReg (.refl d))

theorem coreOnly_loopBack (l a imm : Nat) (d : Die) : CoreOnly d (loopBack l a imm d) := by
  unfold loopBack
  extract_lets v x
  have hx : CoreOnly d x := .setReg (.refl d)
  exact .ite (.modCore hx) (.modCore hx)

theorem coreOnly_wrec (l imm : Nat) (d : Die) : CoreOnly d ((wrec l imm d).getD d) := by
  refine .getD fun y goes => ?_
  simp only [wrec, Option.mem_def, Option.ite_none_right_eq_some, Option.some.injEq] at goes
  obtain ⟨-, rfl⟩ := goes
  exact .modCore (.refl d)

theorem coreOnly_nextToken (l imm : Nat) (d : Die) : CoreOnly d ((nextToken l imm d).getD d) := by
  refine .getD fun y goes => ?_
  unfold nextToken at goes
  dsimp only at goes
  split at goes
  · cases goes
    exact .modCore (.modCore (.refl d))
  · split at goes
    · cases goes
      exact .modCore (.modCore (.refl d))
    · cases goes

/-- A word that is stepped changes its core, and may use a draw. -/
theorem coreOnly_stepWord (l w : Nat) (pool : List Nat) (d : Die) : CoreOnly d (stepWord l w pool d) := by
  have put : ∀ v, CoreOnly d (nextPc l (setReg l (wA w) v d)) := fun _ => .modCore (.setReg (.refl d))
  unfold stepWord
  dsimp only
  split
  · exact put _
  · exact put _
  · exact put _
  · exact put _
  · exact put _
  · exact coreOnly_loadConst _ _ _ _ d
  · exact .ite (.drew (put _)) (put _)
  · exact coreOnly_loopBack _ _ _ d
  · exact .modCore (.refl d)
  · exact .ite (.refl d) (coreOnly_wrec _ _ d)
  · exact .ite (.refl d) (coreOnly_nextToken _ _ d)
  · exact .modCore (.refl d)
  · exact .modCore (.refl d)

end

section
variable {d : Die} {l : Nat}

/-- A register that a word writes before the core goes on. -/
theorem core_nextPc_setReg (on : (pipe d l).enabled = true) {a : Nat} (writable : a ≠ 0) (v : Nat) :
    core (nextPc l (setReg l a v d)) l = { core d l with g := mset (core d l).g a (BitVec.ofNat 64 v), pc := w32 ((core d l).pc + 1) } := by
  rw [nextPc, setReg, if_neg writable, core_modCore ((enabled_modCore _ l).trans on), core_modCore on]

theorem stepWord_add {w : Nat} (op : wOp w = 0x02) (pool : List Nat) : stepWord l w pool d =
    nextPc l (setReg l (wA w) (w64 (reg d l (wB w) + reg d l (wC w))) d) := by
  simp only [stepWord, op]

theorem reg_stepWord_add {w : Nat} (op : wOp w = 0x02) (serving : leads d l = true) (writable : wA w ≠ 0) (pool : List Nat) :
    reg (stepWord l w pool d) l (wA w) = (reg d l (wB w) + reg d l (wC w)) % 2 ^ 64 ∧
      (core (stepWord l w pool d) l).pc = ((core d l).pc + 1) % 2 ^ 32 := by
  rw [stepWord_add op, reg, if_neg writable, core_nextPc_setReg (enabled_of_leads serving) writable, mgetD_mset_same,
    BitVec.toNat_ofNat]
  exact ⟨Nat.mod_mod _ _, rfl⟩

theorem dbgStep_steps {m : Model} {w : Nat} (unlocked : debugOpen d = true) (halted : dbgHalted d = true)
    (held : haltedModel d (dbgLead d) = some m) (stands : m.prog.code[(core d (dbgLead d)).pc]? = some w) :
    dbgStep [] d = stepWord (dbgLead d) w m.prog.consts d := by
  simp [dbgStep, unlocked, halted, held, stands, comparePoints]

theorem dbgStep_runs (running : dbgHalted d = false) (pts : List PointFault) : dbgStep pts d = d := by simp [dbgStep, running]

/-! ## Resume (R244) -/

theorem dbgResume_runs (running : dbgHalted d = false) : dbgResume d = d := by simp [dbgResume, running]

theorem released_modCore (l : Nat) (d : Die) : (core (modCore l (fun c => { c with halted := false }) d) l).halted = false := by
  rw [core, modCore, pipe_modPipe]
  split
  · rfl
  · next beyond =>
    rw [pipe, List.getElem?_eq_none (by omega)]
    rfl

theorem dbgResume_releases (unlocked : debugOpen d = true) (halted : dbgHalted d = true) :
    (core (dbgResume d) (dbgLead d)).halted = false := by
  rw [dbgResume, if_pos (by simp [unlocked, halted]), halted_congr (resting_halts (resting_retryHeld _))]
  exact released_modCore _ d

/-! ## Replay (R245) -/

/-- A difference stops a replay short of its end exactly where it leaves a class. -/
theorem replay_class {stops : Prop} [Decidable stops] {diff : Nat} (real : stops → diff ≠ 0) (ran : Bool) :
    (decide stops && !ran) = decide ((if stops ∧ ran = false then diff else 0) ≠ 0) ∧
      (if (decide stops && !ran) = true then diff else 0) = if stops ∧ ran = false then diff else 0 := by
  by_cases stop : stops
  · cases ran <;> simp [stop, real stop]
  · simp [stop]

/-- A replay leaves what the core computes, and the class of the difference at which it stops short of its end. -/
theorem dbgReplay_replays {m : Model} (unlocked : debugOpen d = true) (halted : dbgHalted d = true)
    (complete : d.dbg.complete = true) (whole : d.dbg.truncated = false) (there : logMonthThere d = true)
    (logged : model d d.dbg.logSlot = some m) (ended : ReplayEnd) :
    let stops := ended.diff ≠ 0 ∧ 2 ≤ (members d (dbgLead d)).length
    let r := replayCore (if stops then ended.after.toNat else 16777216) m d
    let cls := if stops ∧ r.2 = false then ended.diff.toNat else 0
    dbgReplay ended.diff.toNat ended.after.toNat d =
      modCore (dbgLead d) (fun k => { r.1 with run := k.run, queues := k.queues, busy := k.busy })
        { d with dbg := { d.dbg with diverged := decide (cls ≠ 0), cls := cls } } := by
  intro stops r cls
  have real : ended.diff.toNat ≠ 0 ↔ ended.diff ≠ 0 := by rw [ne_eq, ne_eq, BitVec.toNat_eq]; rfl
  obtain ⟨diverged, class_⟩ := replay_class (stops := stops) (fun stop => real.mpr stop.1) r.2
  have may : (dbgHalted d && d.dbg.complete && !d.dbg.truncated && logMonthThere d) = true := by
    simp [halted, complete, whole, there]
  simp only [dbgReplay, unlocked, may, logged, Bool.not_true, Bool.false_eq_true, if_false, if_true, real, decide_eq_true_eq]
  show updDbg (fun g => { g with
    diverged := decide stops && !r.2, cls := if (decide stops && !r.2) = true then ended.diff.toNat else 0 }) _ = _
  rw [class_, diverged]
  rfl

theorem dbgReplay_refused (unlocked : debugOpen d = true) (diff after : Nat) (refused : dbgHalted d = false ∨
      d.dbg.complete = false ∨ d.dbg.truncated = true ∨ logMonthThere d = false) :
    dbgReplay diff after d = updDbg (fun g => { g with refused := true }) d := by
  have may : (dbgHalted d && d.dbg.complete && !d.dbg.truncated && logMonthThere d) = false := by
    rcases refused with h | h | h | h <;> simp [h]
  simp only [dbgReplay, unlocked, may, Bool.not_true, Bool.false_eq_true, if_false]
  split <;> rfl

/-! ## Arming (R245) -/

theorem field_setField_other {p o l q k j : Nat} (other : fkey 0 p o l ≠ fkey 0 q k j) (v : Nat) :
    field (setField 0 q k j v d) p o l = field d p o l := mgetD_mset_other _ other _ _

theorem field_setField (p o l v : Nat) : field (setField 0 p o l v d) p o l = v := fieldSel_setField 0 p o l v d

theorem dbgArm_arms (unlocked : debugOpen d = true) (c : Nat) :
    dbgArm c d = setField 0 pDBG 0x04C 15 1 (setField 0 pDBG 0x04C 0 c d) := if_pos unlocked

end

/-- Settles O21: each command of the debug port, with the port locked and unlocked. -/
theorem debugOfAGroup : Obligations.DebugOfAGroup := by
  intro s d g ended c z l
  refine ⟨fun locked => ⟨runDie_of_eq (dbgHalt_locked locked _), runDie_of_eq (dbgStep_locked locked _),
      runDie_of_eq (dbgResume_locked locked), runDie_of_eq (dbgReplay_locked locked _ _), runDie_of_eq (dbgArm_locked locked _)⟩,
    fun unlocked => ⟨fun lead named idle => ?_, fun refused => ?_, fun halted m w held stands => ?_, fun halted => ?_,
      fun running => ?_, fun halted complete whole there m logged => ?_, fun refused => ?_, ?_⟩⟩
  · refine ⟨_, runDie_of_eq (dbgHalt_accepted unlocked named idle), rfl, ?_, rfl, field_setField (d := z) _ _ _ _⟩
    have on : (pipe (setField 0 pDBG 0x040 0 g.toNat z) lead).enabled = true := enabled_of_leads (leads_of_groupNamed named)
    exact congrArg Core.halted (core_modCore on _)
  · exact ⟨_, runDie_of_eq (dbgHalt_refused unlocked refused), rfl, rfl, field_setField (d := z) _ _ _ _⟩
  · obtain ⟨ps, n, only⟩ := coreOnly_stepWord l w m.prog.consts z
    exact ⟨_, ps, n, runDie_of_eq (dbgStep_steps unlocked halted held stands), rfl, only,
      fun op serving writable => reg_stepWord_add op serving writable _⟩
  · exact ⟨_, rfl, dbgResume_releases unlocked halted⟩
  · exact ⟨runDie_of_eq (dbgStep_runs running _), runDie_of_eq (dbgResume_runs running)⟩
  · exact runDie_of_eq (dbgReplay_replays unlocked halted complete whole there logged ended)
  · exact runDie_of_eq (dbgReplay_refused unlocked _ _ refused)
  · refine ⟨_, runDie_of_eq (dbgArm_arms unlocked _), ?_, field_setField _ _ _ _, rfl⟩
    rw [field_setField_other (by decide), field_setField]

end Sys2Proof.Machine
end

section
/-! SUPPORT. What the messages of the peer die do, what a failed Spoke leaves, and O22. -/

namespace Sys2Proof.Machine

/-! ## A transmission (R246) -/

/-- A die that a transmission has reached: beats that were corrected are noted. -/
def beatsNoted (m : SpokeMsg) (d : Die) : Die := if m.beats = 0 then d else raise pSPK 0 d

section
variable (m : SpokeMsg) (d : Die)

@[simp] theorem beatsNoted_spk : (beatsNoted m d).spk = d.spk := by unfold beatsNoted; split <;> simp
@[simp] theorem beatsNoted_chn : (beatsNoted m d).chn = d.chn := by unfold beatsNoted; split <;> simp
@[simp] theorem beatsNoted_adm : (beatsNoted m d).adm = d.adm := by unfold beatsNoted; split <;> simp
@[simp] theorem beatsNoted_tim : (beatsNoted m d).tim = d.tim := by unfold beatsNoted; split <;> simp
@[simp] theorem beatsNoted_which : (beatsNoted m d).which = d.which := by unfold beatsNoted; split <;> simp

theorem spokeRight_eq : spokeRight m d = updSpk (fun q => { q with tries := 0 }) (beatsNoted m d) := rfl

@[simp] theorem spokeRight_chn : (spokeRight m d).chn = d.chn := by simp [spokeRight_eq]
@[simp] theorem spokeRight_tim : (spokeRight m d).tim = d.tim := by simp [spokeRight_eq]
@[simp] theorem spokeRight_which : (spokeRight m d).which = d.which := by simp [spokeRight_eq]
@[simp] theorem spokeRight_down : (spokeRight m d).spk.down = d.spk.down := by simp [spokeRight_eq]

end

section
variable {m : SpokeMsg} {f : Die → Die} {d : Die} (wrong : ¬ CrcRight m)
include wrong

/-- A transmission with a wrong CRC is asked for again, up to three times. -/
theorem spokeTake_retry (again : d.spk.tries < 3) :
    let x := spokeTake m f d
    x.spk = { d.spk with tries := d.spk.tries + 1 } ∧ errSet x pSPK 1 = true ∧ x.chn = d.chn ∧ x.adm = d.adm ∧
      x.tim = d.tim := by
  have tries : (beatsNoted m d).spk.tries < 3 := by rwa [beatsNoted_spk]
  have taken : ∃ y, spokeTake m f d = raise pSPK 1 (updSpk (fun q => { q with tries := q.tries + 1 }) y) ∧
      y.spk = d.spk ∧ y.chn = d.chn ∧ y.adm = d.adm ∧ y.tim = d.tim := by
    refine ⟨if (beatsNoted m d).spk.tries = 0 then count pSPK 0x058 (beatsNoted m d) else beatsNoted m d, ?_, ?_⟩
    · exact (if_neg wrong).trans (if_pos tries)
    · split <;> simp
  obtain ⟨y, taken, spk, chn, adm, tim⟩ := taken
  simp only [taken]
  exact ⟨by simp [spk], errSet_raise _ _ _ rfl rfl, by simp [chn], by simp [adm], by simp [tim]⟩

/-- After the third retry a wrong CRC is the end of Spoke. -/
theorem spokeTake_fails (last : 3 ≤ d.spk.tries) : spokeTake m f d = spokeTimeout (beatsNoted m d) := by
  have tries : ¬ (beatsNoted m d).spk.tries < 3 := by rw [beatsNoted_spk]; omega
  exact (if_neg wrong).trans (if_neg tries)

end

/-! ## A message that is not its type's (R247) -/

section
variable {m : SpokeMsg} {d : Die}

theorem declareMsg_other (other : spokeOk 1 m = false) : declareMsg m d = d := by simp [declareMsg, other]
theorem phaseMsg_other (other : spokeOk 4 m = false) : phaseMsg m d = d := by simp [phaseMsg, other]
theorem slotMsg_other (other : spokeOk 5 m = false) (steps : Nat) (skew : Int) : slotMsg steps m skew d = d := by
  simp [slotMsg, other]
theorem pairMsg_other (other : spokeOk 6 m = false) : pairMsg m d = d := by simp [pairMsg, other]
theorem echoMsg_other (other : spokeOk 7 m = false) : echoMsg m d = d := by simp [echoMsg, other]
theorem spokeTurnOn_other (other : spokeOk 2 m = false) : spokeTurnOn m d = d := by simp [spokeTurnOn, other]
theorem spokeAdmitOn_other (other : spokeOk 3 m = false) (peer : Die) : spokeAdmitOn m peer d = d := by
  simp [spokeAdmitOn, other]

/-- The commands that are messages of the peer die act on a right transmission, of their type alone. -/
theorem spokeCommand (s : State) {e : DieId} {skew : BitVec 16} {k : Nat} {c : Instr}
    (named : (k, c) ∈ [(1, Instr.declare e m), (4, .spokePhase e m), (5, .spokeSlot e m skew), (6, .spokePair e m),
      (7, .spokeEcho e m), (2, .spokeTurn e m), (3, .spokeAdmit e m)]) :
    ∃ f : Die → Die, exec c s = runDie e (spokeTake m f) s ∧ (spokeOk k m = false → ∀ x, f x = x) := by
  simp only [List.mem_cons, Prod.mk.injEq, List.not_mem_nil, or_false] at named
  rcases named with ⟨rfl, rfl⟩ | ⟨rfl, rfl⟩ | ⟨rfl, rfl⟩ | ⟨rfl, rfl⟩ | ⟨rfl, rfl⟩ | ⟨rfl, rfl⟩ | ⟨rfl, rfl⟩
  · exact ⟨_, rfl, fun other _ => declareMsg_other other⟩
  · exact ⟨_, rfl, fun other _ => phaseMsg_other other⟩
  · exact ⟨_, rfl, fun other _ => slotMsg_other other _ _⟩
  · exact ⟨_, rfl, fun other _ => pairMsg_other other⟩
  · exact ⟨_, rfl, fun other _ => echoMsg_other other⟩
  · exact ⟨_, rfl, fun other _ => spokeTurnOn_other other⟩
  · exact ⟨_, rfl, fun other _ => spokeAdmitOn_other other _⟩

end

/-! ## Spoke fails (R246, R249, R250) -/

/-- A batch in flight goes on without the peer where its channel is coupled. -/
def goAlone (d : Die) (b : Batch) : Batch := if (chan d b.channel).coupled then { b with alone := true } else b

theorem goAlone_congr {d x : Die} (chn : x.chn = d.chn) : goAlone x = goAlone d := by
  funext b
  rw [goAlone, chan_congr chn, goAlone]

theorem loseCoupled_eq (d : Die) : loseCoupled d = updChn (fun n => { n with tickets := n.tickets.map (goAlone d) }) d := rfl

section
variable {d : Die}

@[simp] theorem stopStream_spk (slot : Nat) (d : Die) : (stopStream slot d).spk = d.spk := by
  unfold stopStream
  split
  · split <;> rfl
  · rfl

@[simp] theorem stopStream_tim (slot : Nat) (d : Die) : (stopStream slot d).tim = d.tim := by
  unfold stopStream
  split
  · split <;> rfl
  · rfl

@[simp] theorem freeSlot_spk (slot : Nat) (d : Die) : (freeSlot slot d).spk = d.spk := by simp [freeSlot, releaseExtents, dropTag]
@[simp] theorem freeSlot_tim (slot : Nat) (d : Die) : (freeSlot slot d).tim = d.tim := by simp [freeSlot, releaseExtents, dropTag]

/-- The end of an admission leaves Spoke, time and channels alone. -/
theorem endAdmission_keeps (slot code : Nat) (first : Bool) (d : Die) : (endAdmission slot code first d).spk = d.spk ∧
    (endAdmission slot code first d).tim = d.tim ∧ (endAdmission slot code first d).chn = d.chn := by
  unfold endAdmission tellRefusal clearPeer reportSlot
  dsimp only
  split
  · exact ⟨rfl, rfl, rfl⟩
  · split
    · split <;> simp
    · simp

/-- A slot without a model gets none by the end of an admission. -/
theorem endAdmission_keeps_none {k : Nat} (empty : model d k = none) (slot code : Nat) (first : Bool) :
    model (endAdmission slot code first d) k = none := by
  cases held : model d slot with
  | none => rwa [endAdmission, held]
  | some m =>
    rw [model, (endAdmission_adm code first held).1, mget_mdel]
    split
    · rfl
    · exact empty

/-- The admissions that end when Spoke fails (R250). -/
def endAll (es : List (Nat × Model)) (d : Die) : Die := es.foldl (fun d e => endAdmission e.1 15 true d) d

theorem endAll_keeps (es : List (Nat × Model)) (d : Die) :
    (endAll es d).spk = d.spk ∧ (endAll es d).tim = d.tim ∧ (endAll es d).chn = d.chn := by
  induction es generalizing d with
  | nil => exact ⟨rfl, rfl, rfl⟩
  | cons e r ih =>
    obtain ⟨spk, tim, chn⟩ := ih (endAdmission e.1 15 true d)
    obtain ⟨spk', tim', chn'⟩ := endAdmission_keeps e.1 15 true d
    exact ⟨spk.trans spk', tim.trans tim', chn.trans chn'⟩

theorem endAll_keeps_none {k : Nat} (empty : model d k = none) (es : List (Nat × Model)) : model (endAll es d) k = none := by
  induction es generalizing d with
  | nil => exact empty
  | cons e r ih => exact ih (endAdmission_keeps_none empty _ _ _)

theorem endAll_ends {es : List (Nat × Model)} {e : Nat × Model} (member : e ∈ es) : model (endAll es d) e.1 = none := by
  induction es generalizing d with
  | nil => exact absurd member List.not_mem_nil
  | cons a r ih =>
    rcases List.mem_cons.mp member with rfl | later
    · exact endAll_keeps_none (model_endAdmission 15 true) r
    · exact ih later

/-- What a failed Spoke leaves. -/
theorem spokeTimeout_leaves (d : Die) :
    let x := spokeTimeout d
    x.spk = { d.spk with up := false, down := true, tries := 0, early := [] } ∧ x.tim = { d.tim with following := false } ∧
      x.chn.tickets = d.chn.tickets.map (goAlone d) ∧ errSet x pSPK 2 = true ∧
      ∀ e ∈ d.adm.models, isCoupled e.2 = true → admitting e.2 = true → e.2.peerOk = false → model x e.1 = none := by
  intro x
  let y := updTim (fun t => { t with following := false }) (loseCoupled (updSpk (fun q => { q with
    up := false, down := true, tries := 0, early := [] }) (raise pSPK 2 d)))
  let waits := d.adm.models.filter (fun e => isCoupled e.2 && admitting e.2 && !e.2.peerOk)
  have models : y.adm.models = d.adm.models := congrArg Adm.models (raise_adm pSPK 2 d)
  have ended : x = updAdm (fun a => { a with peerRefused := [], peerDone := [], awaits := [] }) (endAll waits y) := by
    simp only [waits, ← models]
    rfl
  obtain ⟨spk, tim, chn⟩ := endAll_keeps waits y
  have reported : Reported pSPK 2 y := Reported.same (reported_raise (d := d) rfl rfl) rfl
  refine ⟨?_, ?_, ?_, ?_, fun e held coupled running open_ => ?_⟩
  · rw [ended, updAdm_spk, spk]
    simp [y, loseCoupled_eq]
  · rw [ended, updAdm_tim, tim]
    simp [y, loseCoupled_eq]
  · rw [ended, updAdm_chn, chn]
    simp [y, loseCoupled_eq, goAlone_congr (d := d)]
  · rw [ended]
    exact Reported.same (.foldl (fun _ _ => .endAdmission) reported) rfl
  · rw [ended]
    exact endAll_ends (d := y) (List.mem_filter.mpr ⟨held, by simp [coupled, running, open_]⟩)

end

/-! ## Declarations (R247, R248) -/

section
variable {m : SpokeMsg} {d : Die} (ok : spokeOk 1 m = true) (low : 1 ≤ spSub m) (high : spSub m ≤ 3)
  (coupled : (chan d (spChan m)).coupled = true) (live : chanLive (chan d (spChan m)) = true)
include ok low high coupled live

theorem declareMsg_batch {b : Batch}
    (begun : (chanTickets d (spChan m)).find? (fun b => b.batchNo == spA m && !b.canary) = some b) (first : b.peer = none) :
    declareMsg m d = modTicket b.serial (fun b => { b with peer := some (spDecl m) }) d := by
  have found : (chanTickets d (spChan m)).find? (fun b => b.batchNo == (spDecl m).batchNo && !b.canary) = some b := begun
  simp only [declareMsg, found, first]
  exact if_pos (by simp [ok, coupled, live, spDecl, low, high])

theorem declareMsg_early (unbegun : (chanTickets d (spChan m)).find? (fun b => b.batchNo == spA m && !b.canary) = none)
    (ahead : 0 ≤ slotDiff (spA m) (chan d (spChan m)).wrd.nextBatch) :
    declareMsg m d = updSpk (fun q => { q with
      early := q.early.filter (fun e => !(e.1 == spChan m && e.2.batchNo == spA m)) ++ [(spChan m, spDecl m)] }) d := by
  have found : (chanTickets d (spChan m)).find? (fun b => b.batchNo == (spDecl m).batchNo && !b.canary) = none := unbegun
  simp only [declareMsg, found]
  exact (if_pos (by simp [ok, coupled, live, spDecl, low, high])).trans (if_neg (Int.not_lt.mpr ahead))

end

/-! ## Phase, pairing and echo (R249, R250, R253) -/

section
variable {m : SpokeMsg} {d : Die}

theorem phaseMsg_summer (ok : spokeOk 4 m = true) (sub : spSub m = 3) :
    phaseMsg m d = { d with spk := { d.spk with peerPhase := 3 } } := by
  simp only [phaseMsg, ok, sub]
  rfl

theorem phaseMsg_leaves (ok : spokeOk 4 m = true) (known : spSub m ≤ 4) (sub : spSub m ≠ 3) :
    phaseMsg m d = { d with spk := { d.spk with peerPhase := spSub m, early := [] }
                            chn := { d.chn with tickets := d.chn.tickets.map (goAlone d) } } := by
  have may : (spokeOk 4 m && decide (spSub m ≤ 4)) = true := by simp [ok, known]
  exact (if_pos may).trans (if_neg sub)

theorem pairMsg_notes (ok : spokeOk 6 m = true) (known : spSub m ≤ 2) :
    pairMsg m d = { d with spk := { d.spk with peerPair := some (spSub m) } } := if_pos (by simp [ok, known])

theorem echoMsg_up (ok : spokeOk 7 m = true) : echoMsg m d = { d with spk := { d.spk with up := true, down := false } } := if_pos ok

end

/-! ## Slot boundaries (R254, R339) -/

/-- A die that has noted the skew of the peer's slot boundary. -/
def skewNoted (skew : Int) (d : Die) : Die :=
  let d := peak pSPK 0x048 skew.natAbs (updSpk (fun q => { q with skewNs := skew }) d)
  if skew.natAbs > 40 then raise pSPK 3 d else d

section
variable (skew : Int) (d : Die)

theorem skewNoted_spk : (skewNoted skew d).spk = { d.spk with skewNs := skew } := by unfold skewNoted; dsimp only; split <;> simp
@[simp] theorem skewNoted_tim : (skewNoted skew d).tim = d.tim := by unfold skewNoted; dsimp only; split <;> simp
@[simp] theorem skewNoted_adm : (skewNoted skew d).adm = d.adm := by unfold skewNoted; dsimp only; split <;> simp
@[simp] theorem skewNoted_which : (skewNoted skew d).which = d.which := by unfold skewNoted; dsimp only; split <;> simp

theorem skewNoted_reports {skew : Int} (wide : 40 < skew.natAbs) : errSet (skewNoted skew d) pSPK 3 = true := by
  rw [skewNoted, if_pos wide]
  exact errSet_raise _ _ _ rfl rfl

theorem slotMsg_eq {m : SpokeMsg} (ok : spokeOk 5 m = true) (steps : Nat) :
    slotMsg steps m skew d = followSlot steps (spA m) skew (skewNoted skew d) := if_pos ok

end

section
variable {steps count : Nat} {skew : Int} {d : Die}

/-- Following the peer changes time alone. -/
theorem followSlot_parts (steps count : Nat) (skew : Int) (d : Die) : ∃ t, followSlot steps count skew d = { d with tim := t } := by
  unfold followSlot
  dsimp only
  split
  · split
    · exact ⟨_, rfl⟩
    · split
      · exact ⟨d.tim, rfl⟩
      · exact ⟨_, rfl⟩
  · exact ⟨_, rfl⟩

theorem followSlot_apart (apart : d.which = .a ∨ holdsCoupled d = false ∨ d.spk.down = true) :
    followSlot steps count skew d = updTim (fun t => { t with following := false }) d := by
  have not_ : (d.which == .b && holdsCoupled d && !d.spk.down) = false := by rcases apart with h | h | h <;> simp [h]
  exact if_neg (ne_true_of_eq_false not_)

section
variable (which : d.which = .b) (coupled : holdsCoupled d = true) (up : d.spk.down = false)
include which coupled up

theorem takesPeerSlots : (d.which == .b && holdsCoupled d && !d.spk.down) = true := by simp [which, coupled, up]

/-- The first message, one after a step of die A, and one whose count differs: the boundary is stepped over. -/
theorem followSlot_steps (anew : ¬(d.tim.following = true ∧ steps = d.tim.peerSteps) ∨
      slotDiff count (nearSlot d) ≠ 0 ∧ d.tim.step = none) :
    followSlot steps count skew d = updTim (fun t => { markAir t with
      following := true, peerSteps := steps, slew := 0
      step := some { offset := slotDiff count (nearSlot d) * (slotNs t.mu : Int) - skew
                     mu := (t.step.map (fun st => st.mu)).getD t.mu, decided := t.up } }) d := by
  have anew' : (!d.tim.following || steps != d.tim.peerSteps ||
      (slotDiff count (nearSlot d) != 0 && d.tim.step.isNone)) = true := by
    rcases anew with lost | ⟨off, idle⟩
    · rw [not_and_or] at lost
      rcases lost with lost | lost <;> simp [lost]
    · simp [off, idle]
  exact (if_pos (takesPeerSlots which coupled up)).trans (if_pos anew')

section
variable (held : d.tim.following = true ∧ steps = d.tim.peerSteps)
include held

theorem followSlot_held (settled : slotDiff count (nearSlot d) = 0 ∨ d.tim.step ≠ none) : followSlot steps count skew d =
    if slotDiff count (nearSlot d) ≠ 0 then d else updTim (fun t => { markAir t with slew := -skew }) d := by
  obtain ⟨following, same⟩ := held
  have not_ : (!d.tim.following || steps != d.tim.peerSteps ||
      (slotDiff count (nearSlot d) != 0 && d.tim.step.isNone)) = false := by
    rcases settled with on | busy
    · simp [following, same, on]
    · simp [following, same, Option.isNone_eq_false_iff.mpr (Option.isSome_iff_ne_none.mpr busy)]
  exact (if_pos (takesPeerSlots which coupled up)).trans (if_neg (ne_true_of_eq_false not_))

theorem followSlot_slews (on : slotDiff count (nearSlot d) = 0) :
    followSlot steps count skew d = updTim (fun t => { markAir t with slew := -skew }) d :=
  (followSlot_held which coupled up held (.inl on)).trans (if_neg (not_not_intro on))

theorem followSlot_waits (off : slotDiff count (nearSlot d) ≠ 0) (busy : d.tim.step ≠ none) :
    followSlot steps count skew d = d :=
  (followSlot_held which coupled up held (.inr busy)).trans (if_pos off)

end
end

theorem holdsCoupled_congr {x : Die} (adm : x.adm = d.adm) : holdsCoupled x = holdsCoupled d := by
  rw [holdsCoupled, adm, holdsCoupled]

theorem nearSlot_congr {x : Die} (tim : x.tim = d.tim) : nearSlot x = nearSlot d := by rw [nearSlot, tim, nearSlot]

end

/-! ## What a die sends (R247, R250) -/

theorem spokeBytes_length (typ sub c x y z cause : Nat) (p q : Bytes) : (spokeBytes typ sub c x y z cause p q).length = 96 := by
  simp [spokeBytes, length_fitTo, zeros]

/-- Settles O22: a transmission by its CRC, then each message by its type, and the failure of Spoke. -/
theorem spokeMessages : Obligations.SpokeMessages := by
  intro s d m skew z w alone
  have chn : w.chn = z.chn := spokeRight_chn m z
  have right : ∀ {k}, spokeOk k m = true → CrcRight m := fun ok => crcRight_of_spokeOk ok
  refine ⟨fun k c named => ?_, fun ok low high coupled live => ⟨fun b begun found first => ?_, fun unbegun ahead => ?_⟩,
    fun ok sub => ?_, fun ok known sub => ?_, fun ok known => ?_, fun ok => ?_, fun ok => ?_, ?_, ?_⟩
  · obtain ⟨f, runs, idle⟩ := spokeCommand s named
    refine ⟨fun crc other => ?_, fun wrong again => ?_, fun wrong last => ?_⟩
    · exact runs.trans (runDie_of_eq ((spokeTake_right crc f z).trans (idle other w)))
    · exact ⟨_, runs, spokeTake_retry wrong again⟩
    · obtain ⟨spk, -, -, reported, -⟩ := spokeTimeout_leaves (beatsNoted m z)
      refine ⟨_, runs.trans (runDie_of_eq (spokeTake_fails wrong last)), ?_, ?_, ?_, reported⟩ <;> rw [spk]
  · have heard := declareMsg_batch (d := w) ok low high (by rwa [chan_congr chn]) (by rwa [chan_congr chn])
      (by rwa [chanTickets_congr chn]) first
    refine ⟨_, runDie_of_eq ((spokeTake_right (right ok) _ z).trans heard), ?_, rfl⟩
    exact ticket_modTicket (fun _ => rfl) ((ticket_congr (congrArg Chn.tickets chn) _).trans found)
  · have heard := declareMsg_early (d := w) ok low high (by rwa [chan_congr chn]) (by rwa [chan_congr chn])
      (by rwa [chanTickets_congr chn]) (by rwa [chan_congr chn])
    exact ⟨_, runDie_of_eq ((spokeTake_right (right ok) _ z).trans heard), by simp, chn⟩
  · exact runDie_of_eq ((spokeTake_right (right ok) _ z).trans (phaseMsg_summer ok sub))
  · have heard := phaseMsg_leaves (d := w) ok known sub
    rw [goAlone_congr chn] at heard
    exact runDie_of_eq ((spokeTake_right (right ok) _ z).trans heard)
  · exact runDie_of_eq ((spokeTake_right (right ok) _ z).trans (pairMsg_notes ok known))
  · exact runDie_of_eq ((spokeTake_right (right ok) _ z).trans (echoMsg_up ok))
  · have heard : RunsTo (.spokeSlot d m skew) s d
        (followSlot (s.die d.other).tim.steps (spA m) skew.toInt (skewNoted skew.toInt w)) :=
      runDie_of_eq ((spokeTake_right (right ok) _ z).trans (slotMsg_eq _ w ok _))
    obtain ⟨t, parts⟩ := followSlot_parts (s.die d.other).tim.steps (spA m) skew.toInt (skewNoted skew.toInt w)
    have tim : (skewNoted skew.toInt w).tim = z.tim := by simp [w]
    have which : (skewNoted skew.toInt w).which = z.which := by simp [w]
    have admitted : holdsCoupled (skewNoted skew.toInt w) = holdsCoupled z := holdsCoupled_congr (by simp [w])
    have down : (skewNoted skew.toInt w).spk.down = z.spk.down := by simp [skewNoted_spk, w]
    refine ⟨_, heard, ?_, fun wide => ?_, fun apart => ?_, fun b coupled up => ?_⟩
    · rw [parts, skewNoted_spk]
    · rw [parts]
      exact skewNoted_reports w wide
    · rw [followSlot_apart (by rwa [which, admitted, down]), updTim_tim, tim]
    · rw [← which] at b
      rw [← admitted] at coupled
      rw [← down] at up
      rw [← tim, ← nearSlot_congr tim]
      intro off steps held
      refine ⟨fun anew => ?_, fun held on => ?_, fun held off waits => ?_⟩
      · rw [followSlot_steps b coupled up anew]
        rfl
      · rw [followSlot_slews b coupled up held on]
        rfl
      · rw [followSlot_waits b coupled up held off waits]
  · exact ⟨spokeBytes 7 0 0 0 0 0 0 [] [], rfl, rfl, spokeBytes_length _ _ _ _ _ _ _ _ _⟩
  · obtain ⟨spk, tim, tickets, reported, ends⟩ := spokeTimeout_leaves z
    refine ⟨_, rfl, ?_, ?_, ?_, tim, tickets, ?_, reported, ends⟩ <;> rw [spk]

end Sys2Proof.Machine
end

section
/-! SUPPORT. The core of a group: what its registers and its program counter read after a change, and what comparisons whose
values leave the group keep of it (R234, R238, R258). -/

namespace Sys2Proof.Machine

/-! ## Changes of a core -/

section
variable {d : Die} {l : Nat}

/-- Two changes that agree on a core are one change of it. -/
theorem modCore_congr {f g : Core → Core} (same : f (core d l) = g (core d l)) : modCore l f d = modCore l g d := by
  have pipes : d.vp.pipes.modify l (fun p => { p with core := f p.core }) =
      d.vp.pipes.modify l (fun p => { p with core := g p.core }) := by
    apply List.ext_getElem?
    intro k
    simp only [List.getElem?_modify]
    by_cases own : l = k
    · subst own
      cases found : d.vp.pipes[l]? with
      | none => rfl
      | some p =>
        rw [core, pipe, found, Option.getD_some] at same
        simp [same]
    · simp [own]
  rw [modCore, modPipe, pipes, modCore, modPipe]

theorem modCore_modCore (f g : Core → Core) : modCore l f (modCore l g d) = modCore l (fun c => f (g c)) d := by
  have pipes : (d.vp.pipes.modify l (fun p => { p with core := g p.core })).modify l (fun p => { p with core := f p.core }) =
      d.vp.pipes.modify l (fun p => { p with core := f (g p.core) }) := by
    apply List.ext_getElem?
    intro k
    simp only [List.getElem?_modify]
    cases d.vp.pipes[k]? <;> by_cases own : l = k <;> simp [own]
  simp only [modCore, modPipe, pipes]

theorem modCore_self : modCore l (fun c => c) d = d := by
  have pipes : d.vp.pipes.modify l (fun p => { p with core := p.core }) = d.vp.pipes := List.modify_id l _
  rw [modCore, modPipe, pipes]

/-! ## Registers (R258) -/

/-- The registers after a write of one of them, g0 being none. -/
def writeG (g : AMap W64) (n v : Nat) : AMap W64 := if n = 0 then g else mset g n (BitVec.ofNat 64 v)

theorem setReg_eq (n v : Nat) : setReg l n v d = modCore l (fun c => { c with g := writeG c.g n v }) d := by
  unfold setReg writeG
  split
  · exact modCore_self.symm
  · rfl

theorem setReg_w64 (n v : Nat) : setReg l n (w64 v) d = setReg l n v d := by
  have word : BitVec.ofNat 64 (w64 v) = BitVec.ofNat 64 v := BitVec.eq_of_toNat_eq (by simp [w64])
  rw [setReg, word, setReg]

theorem reg_of_g {x : Die} {n v : Nat} (written : (core x l).g = writeG (core d l).g n v) :
    reg x l n = (if n = 0 then 0 else v % 2 ^ 64) ∧ ∀ r, r ≠ n → reg x l r = reg d l r := by
  unfold reg
  rw [written, writeG]
  split
  · next zero => exact ⟨rfl, fun _ _ => rfl⟩
  · refine ⟨by rw [mgetD_mset_same, BitVec.toNat_ofNat], fun r other => ?_⟩
    rw [mgetD_mset_other _ other]

/-- A word that writes a register and goes on. -/
theorem nextPc_setReg (n v : Nat) : nextPc l (setReg l n v d) =
    modCore l (fun c => { c with g := writeG (core d l).g n v, pc := (c.pc + 1) % 2 ^ 32 }) d := by
  rw [nextPc, setReg_eq, modCore_modCore]
  exact modCore_congr rfl

/-- A register is written, the others stay, and the core goes to the next word. -/
theorem register_written (on : (pipe d l).enabled = true) (a : BitVec 5) (v : Nat) : let x := nextPc l (setReg l a.toNat v d)
    reg x l a.toNat = (if a = 0 then 0 else v % 2 ^ 64) ∧ (∀ r, r ≠ a.toNat → reg x l r = reg d l r) ∧
      ∃ gs, x = modCore l (fun k => { k with g := gs, pc := (k.pc + 1) % 2 ^ 32 }) d := by
  have zero : a = 0 ↔ a.toNat = 0 := by rw [BitVec.toNat_eq]; rfl
  obtain ⟨own, others⟩ := reg_of_g (x := nextPc l (setReg l a.toNat v d)) (d := d) (l := l) (n := a.toNat) (v := v)
    (by rw [nextPc_setReg, core_modCore on])
  exact ⟨by simpa only [zero] using own, others, _, nextPc_setReg _ _⟩

theorem jumpPc_eq (imm : Word) : jumpPc l imm.toNat d = modCore l (fun c => { c with pc := uns 32 (c.pc + imm.toInt) }) d := by
  have signed : sgn 32 imm.toNat = imm.toInt := by
    have small := imm.isLt
    simp only [sgn, BitVec.toInt_eq_toNat_cond]
    split <;> split <;> omega
  rw [jumpPc, signed]

theorem core_spend_cycles (on : (pipe d l).enabled = true) (n : Nat) : core (spend l n d) l =
    { core d l with busy := max (11 * d.tim.up) (core d l).busy + 10 * n } := core_modCore on _

theorem enabled_spend (n : Nat) : (pipe (spend l n d) l).enabled = (pipe d l).enabled := enabled_modCore _ l

theorem runBatches_spend_cycles (on : (pipe d l).enabled = true) (n : Nat) : runBatches (spend l n d) l = runBatches d l :=
  runBatches_congr (by rw [core_spend_cycles on]) rfl

theorem coreModel_spend_cycles (on : (pipe d l).enabled = true) (n : Nat) : coreModel (spend l n d) l = coreModel d l := by
  rw [coreModel, runBatches_spend_cycles on, coreModel]
  rfl

end

/-! ## Comparisons whose values leave the group (R234, R238) -/

/-- What a program needs of a pipeline: that it stands, and its core. -/
def crew (p : Pipe) : Bool × Core := (p.enabled, p.core)

/-- The cores of a die, with the pipelines that stand. -/
def crews (d : Die) : List (Bool × Core) := d.vp.pipes.map crew

section
variable {d x : Die}

theorem crews_of_vp (vp : x.vp = d.vp) : crews x = crews d := by rw [crews, vp, crews]

theorem crew_pipe (d : Die) (n : Nat) : crew (pipe d n) = ((crews d)[n]?).getD (crew { enabled := false }) := by
  rw [crews, List.getElem?_map, pipe]
  cases d.vp.pipes[n]? <;> rfl

theorem core_of_crews (same : crews x = crews d) (n : Nat) : core x n = core d n :=
  show (crew (pipe x n)).2 = (crew (pipe d n)).2 by rw [crew_pipe, crew_pipe, same]

theorem enabled_of_crews (same : crews x = crews d) (n : Nat) : (pipe x n).enabled = (pipe d n).enabled :=
  show (crew (pipe x n)).1 = (crew (pipe d n)).1 by rw [crew_pipe, crew_pipe, same]

theorem crews_modPipe {f : Pipe → Pipe} (keeps : ∀ p, crew (f p) = crew p) (n : Nat) (d : Die) : crews (modPipe n f d) = crews d := by
  apply List.ext_getElem?
  intro k
  simp only [crews, modPipe_vp, List.getElem?_map, List.getElem?_modify]
  cases d.vp.pipes[k]? with
  | none => rfl
  | some p => by_cases own : n = k <;> simp [own, keeps]

theorem crews_retireMember (lead n : Nat) (d : Die) : crews (retireMember lead n d) = crews d := by
  have turns : ∀ (ms : List Nat) (role : Nat → Nat) (d : Die),
      crews (ms.foldl (fun d m => modPipe m (fun p => { p with role := role m }) d) d) = crews d := by
    intro ms role
    induction ms with
    | nil => exact fun _ => rfl
    | cons m r ih => exact fun d => (ih _).trans (crews_modPipe (f := fun p => { p with role := role m }) (fun _ => rfl) m d)
  unfold retireMember
  extract_lets d1 d2 two
  rw [turns two (fun m => if some m == two.head? then 1 else 2)]
  exact (crews_modPipe (f := fun p => { p with retired := true, resync := false, resyncRun := false }) (fun _ => rfl) n d1).trans
    (crews_of_vp (raise_vp _ _ _))

theorem capturePoint_vp (lead cls m : Nat) (bs : List Nat) (d : Die) : (capturePoint lead cls m bs d).vp = d.vp := by
  unfold capturePoint
  split
  · exact setCap_vp _ _ _ _
  · rfl

/-- A member that is outvoted goes, or waits for the other two's state. -/
theorem crews_oddOut {lead m cls : Nat} {bs : List Nat}
    (voted : ¬(3 ≤ (members d lead).length ∧ (members d lead).contains m = true ∧ memberOut d m = false ∧
      (members d lead).any (memberOut d) = true)) : crews (oddOut lead m cls bs d) = crews d := by
  unfold oddOut
  extract_lets ms page y again
  split
  · next whole =>
    obtain ⟨three, inside, present⟩ := whole
    rw [if_neg fun out => voted ⟨three, inside, by simpa using present, out⟩]
    have reported : crews y = crews d := crews_of_vp ((raise_vp _ _ _).trans (capturePoint_vp _ _ _ _ _))
    split
    · exact (crews_retireMember _ _ _).trans reported
    · exact (crews_modPipe (f := fun p => { p with oddAt := some y.tim.up, resync := true }) (fun _ => rfl) m y).trans reported
  · rfl

theorem crews_pointFault {lead : Nat} {bs : List Nat} {p : PointFault} (passes : pointPasses lead d p = true) :
    crews (pointFault lead bs d p) = crews d := by
  have alone : (members d lead).length < 2 → ∀ cls delay, coreMismatch lead cls delay bs d = d ∧ cmpDisagree lead d = d :=
    fun one _ _ => ⟨if_neg (by omega), if_neg (by omega)⟩
  simp only [pointPasses, Bool.or_eq_true, decide_eq_true_eq] at passes
  cases p with
  | differs cls => rw [pointFault, (alone (by simpa using passes) cls.toNat false).1]
  | delayParity => rw [pointFault, (alone (by simpa using passes) 7 true).1]
  | disagree => rw [pointFault, (alone (by simpa using passes) 0 false).2]
  | odd m cls =>
    refine crews_oddOut fun ⟨three, inside, present, out⟩ => ?_
    rcases passes with one | voted
    · omega
    · simp only [three, inside, present, out, decide_true, Bool.not_false, Bool.and_self, Bool.not_true, Bool.false_eq_true] at voted

/-- Comparisons whose values all leave the group keep its core. -/
theorem crews_comparePoints {lead : Nat} {bs : List Nat} {pts : List PointFault} (passed : comparePoints lead bs pts d = (x, true)) :
    crews x = crews d := by
  induction pts generalizing d with
  | nil =>
    cases passed
    rfl
  | cons p r ih =>
    unfold comparePoints at passed
    split at passed
    · next passes => exact (ih passed).trans (crews_pointFault passes)
    · cases passed

end

end Sys2Proof.Machine
end

section
/-! SUPPORT. Core instructions as they issue, the end of a program, and O50 (R258 to R260, R268 to R271). -/

namespace Sys2Proof.Machine

/-! ## Issue (R234, R260, R270) -/

section
variable {d x : Die} {l word cycles : Nat} {pts : List PointFault}

/-- A word at which the program stands acts behind its cycles where every comparison has passed. -/
theorem issue_of_compared (compared : Compared l word cycles pts d x) (f : Die → Option Die) :
    issue l cycles (fun x => standsAt x l word) pts f d = (f (spend l cycles x)).getD x := by
  obtain ⟨may, stands, fits, passed⟩ := compared
  have here : standsAt (fetchRun l d) l word = true := by rw [standsAt, stands, beq_self_eq_true]
  simp only [issue, may, here, fits, Bool.and_self, if_true, passed]

theorem issue_of_mismatch {y : Die} (may : mayIssue (fetchRun l d) l = true) (stands : wordNow (fetchRun l d) l = some word)
    (fits : fitsSpan (fetchRun l d) l cycles = true) (differs : comparePoints l [] pts (fetchRun l d) = (y, false))
    (f : Die → Option Die) : issue l cycles (fun x => standsAt x l word) pts f d = y := by
  have here : standsAt (fetchRun l d) l word = true := by rw [standsAt, stands, beq_self_eq_true]
  simp only [issue, may, here, fits, Bool.and_self, if_true, differs]

theorem enabled_of_compared (compared : Compared l word cycles pts d x) : (pipe x l).enabled = true := by
  obtain ⟨may, -, -, passed⟩ := compared
  rw [enabled_of_crews (crews_comparePoints passed)]
  exact enabled_of_mayIssue may

theorem reg_of_compared (compared : Compared l word cycles pts d x) (n : Nat) : reg x l n = reg (fetchRun l d) l n := by
  obtain ⟨-, -, -, passed⟩ := compared
  rw [reg, core_of_crews (crews_comparePoints passed), reg]

/-- A change of the core behind its cycles, told by the core in front of them. -/
theorem goes_eq (on : (pipe x l).enabled = true) {f g : Core → Core} (same : ∀ t, f { core x l with busy := t } =
    g { core x l with busy := t }) (n : Nat) : modCore l f (spend l n x) = modCore l g (spend l n x) :=
  modCore_congr (by rw [core_spend_cycles on]; exact same _)

end

/-! ## Register instructions (R258) -/

theorem coreInstructionsWriteTheirRegister : Claim.CoreInstructionsWriteTheirRegister := by
  intro s d lead a b c imm pts y l i g ins word cycles v shown stands
  obtain ⟨x, compared, rfl⟩ := stands
  have issues := issue_of_compared compared
  have on : (pipe (spend l cycles x) l).enabled = true := (enabled_spend cycles).trans (enabled_of_compared compared)
  suffices runs : RunsTo ins s d (nextPc l (setReg l a.toNat v (spend l cycles x))) from ⟨_, runs, register_written on a v⟩
  rcases shown with shown | ⟨shown, field⟩ | ⟨shown, const⟩
  · simp only [List.mem_cons, Prod.mk.injEq, List.not_mem_nil, or_false] at shown
    rcases shown with ⟨rfl, rfl, rfl, rfl⟩ | ⟨rfl, rfl, rfl, rfl⟩ | ⟨rfl, rfl, rfl, rfl⟩ | ⟨rfl, rfl, rfl, rfl⟩ |
      ⟨rfl, rfl, rfl, rfl⟩
    · exact runDie_of_eq (issues _)
    · exact runDie_of_eq ((issues _).trans (congrArg (nextPc l) (setReg_w64 _ _)))
    · exact runDie_of_eq ((issues _).trans (congrArg (nextPc l) (setReg_w64 _ _)))
    · exact runDie_of_eq ((issues _).trans (congrArg (nextPc l) (setReg_w64 _ _)))
    · exact runDie_of_eq ((issues _).trans (congrArg (nextPc l) (setReg_w64 _ _)))
  · obtain ⟨rfl, rfl, rfl, rfl⟩ : _ ∧ _ ∧ _ ∧ _ := by simpa only [Prod.mk.injEq] using shown
    exact runDie_of_eq ((issues _).trans (by rw [if_pos field]; rfl))
  · obtain ⟨rfl, rfl, rfl⟩ : _ ∧ _ ∧ _ := by simpa only [Prod.mk.injEq] using shown
    exact runDie_of_eq ((issues _).trans (by rw [loadConst, const]; rfl))

/-! ## Waits for engines (R259) -/

theorem le_foldl_max {n : Nat} {ns : List Nat} (k : Nat) (mem : n ∈ ns) : n ≤ ns.foldl max k := by
  induction ns generalizing k with
  | nil => cases mem
  | cons m r ih =>
    have grows : ∀ (ns : List Nat) (k : Nat), k ≤ ns.foldl max k := by
      intro ns
      induction ns with
      | nil => exact fun k => le_rfl
      | cons m r ih => exact fun k => (le_max_left k m).trans (ih _)
    rcases List.mem_cons.mp mem with rfl | mem
    · exact (le_max_right k n).trans (grows r _)
    · exact ih _ mem

section
variable {x y : Die} {l mask own : Nat}

theorem le_engineEnd {e t : Nat} (engine : e < 6) (named : tst mask e = true) (queued : t ∈ mgetD (core x l).queues e []) :
    t ≤ engineEnd x l mask :=
  le_foldl_max 0 (List.mem_flatMap.mpr ⟨e, List.mem_range.mpr engine, by rwa [if_pos named]⟩)

/-- A core that has waited for engines stands at its own cycles behind the last of them. -/
theorem drainEngines_waits (on : (pipe x l).enabled = true) (drained : drainEngines l mask own x = some y) :
    y = modCore l (fun k => { k with busy := coreTime y l }) x ∧ coreTime x l ≤ coreTime y l ∧
      ∀ e, e < 6 → tst mask e = true → ∀ t ∈ mgetD (core x l).queues e [], t + 10 * own ≤ coreTime y l := by
  unfold drainEngines at drained
  extract_lets t at drained
  obtain ⟨-, waits⟩ := Option.ite_none_right_eq_some.mp drained
  have waits := (Option.some.inj waits).symm
  have time : coreTime y l = t := by
    rw [coreTime, waits, core_modCore on]
    exact max_eq_right ((le_max_left _ _).trans (le_max_left _ _))
  refine ⟨by rw [time]; exact waits, by rw [time]; exact le_max_left _ _, fun e engine named k queued => ?_⟩
  have := le_engineEnd engine named queued
  rw [time]
  exact le_max_of_le_right (by omega)

end

theorem coreTime_spend {x : Die} {l : Nat} (on : (pipe x l).enabled = true) (n : Nat) :
    coreTime (spend l n x) l = coreTime x l + 10 * n := by
  rw [coreTime, core_spend_cycles on, coreTime]
  exact max_eq_right ((le_max_left _ _).trans (Nat.le_add_right _ _))

/-! ## Transfers (R258, R268) -/

section
variable {x : Die} {l : Nat}

theorem jumpPc_spend (on : (pipe x l).enabled = true) (imm : Word) (n : Nat) : jumpPc l imm.toNat (spend l n x) =
    modCore l (fun k => { k with pc := uns 32 (((core x l).pc : Int) + imm.toInt) }) (spend l n x) := by
  rw [jumpPc_eq]
  refine goes_eq on (fun t => ?_) n
  rfl

theorem nextPc_spend (on : (pipe x l).enabled = true) (n : Nat) : nextPc l (spend l n x) =
    modCore l (fun k => { k with pc := ((core x l).pc + 1) % 2 ^ 32 }) (spend l n x) := by
  rw [nextPc]
  refine goes_eq on (fun t => ?_) n
  rfl

/-- LOOP takes one from its register, and transfers while it is not 0. -/
theorem loopBack_spend (on : (pipe x l).enabled = true) (a : Nat) (imm : Word) (n : Nat) {v : Nat}
    (less : (reg x l a + 2 ^ 64 - 1) % 2 ^ 64 = v) : loopBack l a imm.toNat (spend l n x) = modCore l (fun k => { k with
      g := writeG (core x l).g a v
      pc := if v = 0 then ((core x l).pc + 1) % 2 ^ 32 else uns 32 (((core x l).pc : Int) + imm.toInt) }) (spend l n x) := by
  have less' : w64 (reg (spend l n x) l a + 18446744073709551615) = v := by
    have same : reg (spend l n x) l a = reg x l a := by rw [reg, core_spend_cycles on, reg]
    rw [same, w64]
    omega
  have written := setReg_eq (l := l) (d := spend l n x) a v
  simp only [loopBack, less', written, jumpPc_eq, nextPc, modCore_modCore]
  by_cases zero : v = 0
  · rw [if_neg (not_not.mpr zero)]
    refine goes_eq on (fun t => ?_) n
    rw [if_pos zero]
    rfl
  · rw [if_pos zero]
    refine goes_eq on (fun t => ?_) n
    rw [if_neg zero]

theorem wrec_spend (on : (pipe x l).enabled = true) (imm n : Nat) : wrec l imm (spend l n x) =
    if (runBatches x l).all (fun b => ((coreModel x l).map (fun m => entryStaged m b (core x l).cursor imm)).getD false) then
      some (nextPc l (spend l n x)) else none := by
  rw [wrec, coreModel_spend_cycles on, runBatches_spend_cycles on, core_spend_cycles on]

/-- The core after NEXT: the token behind its cursor, at a word. -/
def atNext (pc : Nat) (k : Core) : Core := { k with cursor := k.cursor + 1, pc := pc }

theorem nextToken_spend (on : (pipe x l).enabled = true) (imm : Word) (n : Nat) : nextToken l imm.toNat (spend l n x) =
    if (runBatches x l).all (fun b => endsBehind b (core x l).cursor) then
      some (modCore l (atNext (uns 32 (((core x l).pc : Int) + imm.toInt))) (spend l n x))
    else if (runBatches x l).all (fun b => endsBehind b (core x l).cursor || goesOn b (core x l).cursor) then
      some (modCore l (atNext (((core x l).pc + 1) % 2 ^ 32)) (spend l n x))
    else none := by
  have cursor : (core (spend l n x) l).cursor = (core x l).cursor := by rw [core_spend_cycles on]
  have ends : jumpPc l imm.toNat (modCore l (fun c => { c with cursor := c.cursor + 1 }) (spend l n x)) =
      modCore l (atNext (uns 32 (((core x l).pc : Int) + imm.toInt))) (spend l n x) := by
    rw [jumpPc_eq, modCore_modCore]
    refine goes_eq on (fun t => ?_) n
    rfl
  have goes : nextPc l (modCore l (fun c => { c with cursor := c.cursor + 1 }) (spend l n x)) =
      modCore l (atNext (((core x l).pc + 1) % 2 ^ 32)) (spend l n x) := by
    rw [nextPc, modCore_modCore]
    refine goes_eq on (fun t => ?_) n
    rfl
  simp only [nextToken, runBatches_spend_cycles on, cursor, ends, goes]

end

/-- A LOOP at which the program stands, with the value that it leaves in its register. -/
theorem loop_runs {s : State} {d : DieId} {lead : BitVec 3} {a : BitVec 5} {imm : Word} {pts : List PointFault} {x : Die} {v : Nat}
    (value : (reg (fetchRun lead.toNat (s.die d)) lead.toNat a.toNat + 2 ^ 64 - 1) % 2 ^ 64 = v)
    (stands : Compared lead.toNat (coreWord 0x08 a.toNat 0 0 imm.toNat) (if v = 0 then 1 else 2) pts (s.die d) x) :
    ∃ w gs, RunsTo (.loop d ⟨lead, pts⟩ a imm) s d w ∧ reg w lead.toNat a.toNat = (if a = 0 then 0 else v) ∧
      (∀ r, r ≠ a.toNat → reg w lead.toNat r = reg x lead.toNat r) ∧
      w = modCore lead.toNat (fun k => { k with
        g := gs
        pc := if v = 0 then ((core x lead.toNat).pc + 1) % 2 ^ 32 else uns 32 (((core x lead.toNat).pc : Int) + imm.toInt) })
        (spend lead.toNat (if v = 0 then 1 else 2) x) := by
  have running := enabled_of_compared stands
  have cycles : loopCycles (fetchRun lead.toNat (s.die d)) lead.toNat a.toNat = if v = 0 then 1 else 2 := by
    have less : w64 (reg (fetchRun lead.toNat (s.die d)) lead.toNat a.toNat + 18446744073709551615) = v := by
      rw [w64, ← value]
      omega
    rw [loopCycles, less]
  have small : v % 2 ^ 64 = v := Nat.mod_eq_of_lt (value ▸ Nat.mod_lt _ (by decide))
  have zero : a = 0 ↔ a.toNat = 0 := by rw [BitVec.toNat_eq]; rfl
  have value' : (reg x lead.toNat a.toNat + 2 ^ 64 - 1) % 2 ^ 64 = v := by rw [reg_of_compared stands, value]
  have looped := loopBack_spend running a.toNat imm (if v = 0 then 1 else 2) value'
  have ran := issue_of_compared stands fun x => some (loopBack lead.toNat a.toNat imm.toNat x)
  rw [Option.getD_some, looped] at ran
  have held := enabled_spend (l := lead.toNat) (d := x) (if v = 0 then 1 else 2)
  generalize (if v = 0 then 1 else 2) = n at *
  subst cycles
  refine ⟨_, _, runDie_of_eq ran, ?_, ?_, rfl⟩
  all_goals
    obtain ⟨own, others⟩ := reg_of_g (d := x) (n := a.toNat) (v := v) (congrArg Core.g (core_modCore (held.trans running) fun k => { k with
      g := writeG (core x lead.toNat).g a.toNat v
      pc := if v = 0 then ((core x lead.toNat).pc + 1) % 2 ^ 32 else uns 32 (((core x lead.toNat).pc : Int) + imm.toInt) }))
  · rw [own]
    simp only [zero, small]
  · exact others

theorem coreTransfersAndWaits : Claim.CoreTransfersAndWaits := by
  intro s d lead a imm mask pts x l z i v ended k far on bs goes
  refine ⟨fun stands => ?_, fun stands => ?_, fun stands => ?_, fun stands => ?_, fun stands => ?_, fun stands => ?_, fun stands => ?_⟩
  · exact runDie_of_eq ((issue_of_compared stands _).trans (nextPc_spend (enabled_of_compared stands) 1))
  · exact runDie_of_eq ((issue_of_compared stands _).trans (nextPc_spend (enabled_of_compared stands) 8))
  · exact runDie_of_eq ((issue_of_compared stands _).trans (jumpPc_spend (enabled_of_compared stands) imm 2))
  · exact loop_runs rfl stands
  · have running := enabled_of_compared stands
    have waits := (issue_of_compared stands (wrec l i)).trans (by rw [wrec_spend running, nextPc_spend running])
    refine ⟨fun staged => ?_, fun b run m served missing => ?_⟩
    · rw [if_pos] at waits
      · exact runDie_of_eq waits
      · refine List.all_eq_true.mpr fun b run => ?_
        obtain ⟨m, served, here⟩ := staged b run
        rw [served]
        exact here
    · rw [if_neg] at waits
      · exact runDie_of_eq waits
      · intro all
        have here := List.all_eq_true.mp all b run
        rw [served] at here
        exact ne_true_of_eq_false missing here
  · have running := enabled_of_compared stands
    have cycles : nextCycles z l = if ended then 2 else 1 := rfl
    have takes := (issue_of_compared stands (nextToken l i)).trans (by rw [nextToken_spend running])
    have runs : ∀ {w}, _ = w → RunsTo (.next d ⟨lead, pts⟩ imm) s d w := fun eq => runDie_of_eq (takes.trans eq)
    refine ⟨fun all => runs ?_, fun ⟨b, run, more⟩ goOn => runs ?_, fun b run more stops => runs ?_⟩
    · rw [if_pos (List.all_eq_true.mpr all)]
      rfl
    · rw [if_neg fun all => ne_true_of_eq_false more (List.all_eq_true.mp all b run),
        if_pos (List.all_eq_true.mpr fun b run => Bool.or_eq_true_iff.mpr (goOn b run))]
      rfl
    · have stays : (endsBehind b k.cursor || goesOn b k.cursor) = false := by rw [more, stops]; rfl
      rw [if_neg fun all => ne_true_of_eq_false more (List.all_eq_true.mp all b run),
        if_neg fun all => ne_true_of_eq_false stays (List.all_eq_true.mp all b run)]
      rfl
  · have running := enabled_of_compared stands
    have on1 : (pipe (spend l 1 x) l).enabled = true := (enabled_spend 1).trans running
    have waits := issue_of_compared stands (syncEngines l mask.toNat)
    refine ⟨fun w drained => ?_, fun stalls => runDie_of_eq (waits.trans (by rw [syncEngines, stalls]; rfl))⟩
    obtain ⟨shape, later, behind⟩ := drainEngines_waits on1 drained
    have whole : w = modCore l (fun k => { k with busy := coreTime w l }) x := by
      refine shape.trans ?_
      rw [spend, modCore_modCore]
    have pc : (core w l).pc = k.pc := by rw [whole, core_modCore running]
    refine ⟨runDie_of_eq (waits.trans ?_), whole, by rw [← coreTime_spend running 1]; exact later, fun e engine named t queued => ?_⟩
    · rw [syncEngines, drained]
      rw [Option.map_some, Option.getD_some, nextPc]
      refine modCore_congr ?_
      rw [pc]
      rfl
    · refine behind e engine named t ?_
      rwa [core_spend_cycles running]

/-! ## The end of a program (R125, R248, R269) -/

section
variable {d : Die} {n : Nat}

/-- The end of a program only marks a batch that is not coupled and not past its commit point. -/
theorem batchDone_of_free {b : Batch} (found : ticket d n = some b) (waits : b.due = false) (single : (chan d b.channel).coupled = false) :
    batchDone n d = modTicket n (fun _ => ended d b) d := by
  have single' : (chan (modTicket n (fun _ => ended d b) d) (ended d b).channel).coupled = false := single
  have waits' : (ended d b).due = false := waits
  unfold batchDone
  rw [found]
  dsimp only
  rw [single', waits']
  rfl

theorem batchDone_of_none (none_ : ticket d n = none) : batchDone n d = d := by rw [batchDone, none_]

/-- The ends of the programs of batches that are neither coupled nor past their commit point change their tickets alone. -/
theorem foldl_batchDone {run : List Nat} (distinct : run.Nodup)
    (free : ∀ n ∈ run, ∀ b, ticket d n = some b → b.due = false ∧ (chan d b.channel).coupled = false) :
    let x := run.foldl (fun d s => batchDone s d) d
    (∃ ts, x = { d with chn := { d.chn with tickets := ts } }) ∧
      (∀ n ∈ run, ∀ b, ticket d n = some b → ticket x n = some (ended d b)) ∧ ∀ n, n ∉ run → ticket x n = ticket d n := by
  induction run generalizing d with
  | nil => exact ⟨⟨_, rfl⟩, fun n mem => absurd mem List.not_mem_nil, fun _ _ => rfl⟩
  | cons m r ih =>
    obtain ⟨fresh, distinct⟩ := List.nodup_cons.mp distinct
    obtain ⟨ts, shape, own, others⟩ : ∃ ts, batchDone m d = { d with chn := { d.chn with tickets := ts } } ∧
        (∀ b, ticket d m = some b → ticket (batchDone m d) m = some (ended d b)) ∧
        ∀ n, n ≠ m → ticket (batchDone m d) n = ticket d n := by
      cases found : ticket d m with
      | none => exact ⟨d.chn.tickets, batchDone_of_none found, by simp, fun n _ => by rw [batchDone_of_none found]⟩
      | some b =>
        obtain ⟨waits, single⟩ := free m (List.mem_cons_self ..) b found
        have read := ticket_modTicket_eq (d := d) (n := m) (f := fun _ => ended d b) fun _ _ => show b.serial = m from serial_of_ticket found
        rw [batchDone_of_free found waits single]
        refine ⟨_, rfl, fun b' same => ?_, fun n other => by rw [read, if_neg other]⟩
        rw [read, if_pos rfl, found]
        exact congrArg (fun b => some (ended d b)) (Option.some.inj same)
    have still : ∀ n ∈ r, ticket (batchDone m d) n = ticket d n := fun n mem => others n fun same => fresh (same ▸ mem)
    have chans : ∀ c, chan (batchDone m d) c = chan d c := fun c => by rw [shape]; rfl
    have ends : ∀ b, ended (batchDone m d) b = ended d b := fun b => by rw [shape]; rfl
    obtain ⟨⟨ts', shape'⟩, own', others'⟩ := ih distinct (d := batchDone m d) fun n mem b found => by
      rw [chans]
      exact free n (List.mem_cons_of_mem m mem) b ((still n mem).symm.trans found)
    refine ⟨⟨ts', shape'.trans (by rw [shape])⟩, fun n mem b found => ?_, fun n outside => ?_⟩
    · rcases List.mem_cons.mp mem with rfl | mem
      · exact (others' n fresh).trans (own b found)
      · rw [← ends]
        exact own' n mem b ((still n mem).trans found)
    · obtain ⟨other, outside⟩ := not_or.mp (mt List.mem_cons.mpr outside)
      exact (others' n outside).trans (others n other)

end

/-- What DONE leaves of a core: it runs for nothing and stands at word 0. -/
def stopped (c : Core) : Core := { c with run := [], pc := 0, cursor := 0, queues := [] }

/-- The die behind the end of a program: its core at rest, and its batches' tickets marked. -/
structure Ended (l : Nat) (w e : Die) : Prop where
  shape : ∃ ts, e = { modCore l stopped w with chn := { w.chn with tickets := ts } }
  marked : ∀ n ∈ (core w l).run, ∀ b, ticket w n = some b → ticket e n = some { b with done := true, checked := checkedTokens e b }
  others : ∀ n, n ∉ (core w l).run → ticket e n = ticket w n

theorem checkedTokens_congr {d x : Die} (adm : x.adm = d.adm) (tab : x.chn.tab = d.chn.tab) (pel : x.pel = d.pel) (b : Batch) :
    checkedTokens x b = checkedTokens d b := by
  have chans : chan x b.channel = chan d b.channel := by rw [chan, tab, chan]
  have need : ∀ m, needed x b m = needed d b m := fun m => by simp only [needed, chans, chainOf, pel]
  simp only [checkedTokens, chans, model_congr adm, need]

/-- The ends of a program's batches, behind the core's. -/
theorem ended_foldl {l : Nat} {w : Die} (distinct : (core w l).run.Nodup)
    (free : ∀ n ∈ (core w l).run, ∀ b, ticket w n = some b → b.due = false ∧ (chan w b.channel).coupled = false) :
    Ended l w ((core w l).run.foldl (fun d s => batchDone s d) (modCore l stopped w)) := by
  have tickets : ∀ n, ticket (modCore l stopped w) n = ticket w n := fun n => ticket_congr rfl n
  have chans : ∀ c, chan (modCore l stopped w) c = chan w c := fun c => chan_congr rfl c
  obtain ⟨⟨ts, left⟩, marked, others⟩ := foldl_batchDone (d := modCore l stopped w) distinct
    (by simpa only [tickets, chans] using free)
  simp only [tickets] at marked others
  refine ⟨⟨ts, left⟩, fun n mem b found => ?_, others⟩
  rw [marked n mem b found, ended, ← checkedTokens_congr (d := modCore l stopped w)]
  all_goals rw [left]


theorem passTo_vp (l : Nat) (d : Die) : (passTo l d).vp = d.vp := by
  rw [passTo]
  exact stilled_vp (stilled_passSealed _ d)

theorem programDone_eq {l : Nat} {z y w : Die} (drained : drainEngines l 63 4 z = some y) (passed : passTo l y = w) :
    programDone l z = some ((core w l).run.foldl (fun d s => batchDone s d) (modCore l stopped w)) := by
  have run : (core y l).run = (core w l).run := by rw [core, ← pipe_congr (passTo_vp l y), passed, core]
  rw [programDone, drained, Option.map_some, run, passed]
  rfl

theorem core_of_ended {l : Nat} {w e : Die} (on : (pipe w l).enabled = true) (ended : Ended l w e) :
    core e l = stopped (core w l) := by
  obtain ⟨ts, shape⟩ := ended.shape
  rw [shape]
  exact core_modCore on stopped

/-- A DONE at which the program stands, with the die to which the engines' end brings it. -/
theorem done_runs {s : State} {d : DieId} {lead : BitVec 3} {pts : List PointFault} {z y w : Die}
    (stands : Stands lead.toNat (coreWord 0x0E 0 0 0 0) 4 pts (s.die d) z) (drained : drainEngines lead.toNat 63 4 z = some y)
    (passed : passTo lead.toNat y = w) (distinct : (core w lead.toNat).run.Nodup)
    (free : ∀ n ∈ (core w lead.toNat).run, ∀ b, ticket w n = some b → b.due = false ∧ (chan w b.channel).coupled = false) :
    ∃ e, RunsTo (.done d ⟨lead, pts⟩) s d e ∧ (core e lead.toNat).run = [] ∧ (core e lead.toNat).pc = 0 ∧
      (core e lead.toNat).cursor = 0 ∧ (core e lead.toNat).queues = [] ∧ (core e lead.toNat).g = (core w lead.toNat).g ∧
      e.chn.tab = w.chn.tab ∧ e.regs = w.regs ∧ e.tim = w.tim ∧
      (∀ k, k < 6 → ∀ t ∈ mgetD (core z lead.toNat).queues k [], t + 40 ≤ coreTime y lead.toNat) ∧ Ended lead.toNat w e := by
  obtain ⟨x, compared, rfl⟩ := stands
  have running := (enabled_spend 4).trans (enabled_of_compared compared)
  obtain ⟨waits, -, behind⟩ := drainEngines_waits running drained
  have on : (pipe w lead.toNat).enabled = true := by
    rw [← passed, pipe_congr (passTo_vp _ y), waits, enabled_modCore, running]
  have ran := issue_of_compared compared (programDone lead.toNat)
  rw [programDone_eq drained passed, Option.getD_some] at ran
  have ends := ended_foldl distinct free
  have every : ∀ n < 6, tst 63 n = true := by decide
  have rest := core_of_ended on ends
  obtain ⟨ts, shape⟩ := ends.shape
  refine ⟨_, runDie_of_eq ran, by rw [rest]; rfl, by rw [rest]; rfl, by rw [rest]; rfl, by rw [rest]; rfl, by rw [rest]; rfl, ?_, ?_, ?_,
    fun k engine t queued => behind k engine (every k engine) t queued, ends⟩
  · rw [shape]
  · rw [shape]
    rfl
  · rw [shape]
    rfl

theorem doneEndsTheProgram : Claim.DoneEndsTheProgram := by
  intro s d lead pts z y l w stands drained distinct free
  obtain ⟨e, ran, run, pc, cursor, queues, g, tab, regs, tim, behind, ends⟩ := done_runs stands drained rfl distinct free
  exact ⟨e, ran, run, pc, cursor, queues, g, tab, regs, tim, behind, ends.marked, ends.others⟩

/-! ## Comparisons whose values stay (R234) -/

theorem mismatchHoldsTheInstruction : Claim.MismatchHoldsTheInstruction := by
  intro s d lead a b c imm mask pts y ins word cycles l z i shown may stands fits differs
  have held := issue_of_mismatch may stands fits differs
  simp only [List.mem_cons, Prod.mk.injEq, List.not_mem_nil, or_false] at shown
  rcases shown with ⟨ran, at_, takes⟩ | ⟨ran, at_, takes⟩ | ⟨ran, at_, takes⟩ | ⟨ran, at_, takes⟩ | ⟨ran, at_, takes⟩ |
    ⟨ran, at_, takes⟩ | ⟨ran, at_, takes⟩ | ⟨ran, at_, takes⟩ | ⟨ran, at_, takes⟩ | ⟨ran, at_, takes⟩ | ⟨ran, at_, takes⟩ |
    ⟨ran, at_, takes⟩ | ⟨ran, at_, takes⟩ | ⟨ran, at_, takes⟩ | ⟨ran, at_, takes⟩
  all_goals
    rw [at_, takes] at held
    rw [ran]
    exact runDie_of_eq (held _)

/-- Settles O50: a word whose comparisons pass acts behind its cycles on its core alone, but for DONE, which also marks its
batches; and one whose comparison holds its value has no effect of its own. -/
theorem coreInstructions : Obligations.CoreInstructions :=
  ⟨coreInstructionsWriteTheirRegister, coreTransfersAndWaits, doneEndsTheProgram, mismatchHoldsTheInstruction⟩

end Sys2Proof.Machine
end

section
/-! SUPPORT. What time that passes leaves, and the windows, segments and spans of the timetable (R264 to R270). -/

namespace Sys2Proof.Machine

/-! ## What time that passes leaves (R26, R272) -/

section
variable {d x : Die} {p q b : Nat}

theorem errPage_raise_other (other : q ≠ p) : errPage (raise p b d) q = errPage d q := by
  have one (b : Nat) (d : Die) : errPage (raiseBit p false d b) q = errPage d q := by
    unfold raiseBit
    extract_lets e e' e'' d'
    split
    · split
      · exact errPage_setErrPage_other other _ d
      · rfl
    · exact errPage_setErrPage_other other _ d
  have several (bits : List Nat) (d : Die) : errPage (bits.foldl (raiseBit p false) d) q = errPage d q := by
    induction bits generalizing d with
    | nil => rfl
    | cons b r ih => rw [List.foldl_cons, ih, one]
  rw [raise, raiseAll]
  split
  · rfl
  · exact several _ d

theorem errPage_updTim (f : Tim → Tim) (d : Die) (q : Nat) : errPage (updTim f d) q = errPage d q := rfl

theorem errSet_congr (errs : x.errs = d.errs) (p b : Nat) : errSet x p b = errSet d p b := by
  rw [errSet, errPage, errs, errSet, errPage]

section
variable (other : q ≠ pSIG)
include other

theorem errPage_turnPeriod (cut : Bool) (d : Die) : errPage (turnPeriod cut d) q = errPage d q := by
  have started (x : Die) : errPage (startPeriod x) q = errPage x q := by
    unfold startPeriod
    extract_lets p stretched x'
    split
    · exact errPage_raise_other other
    · rfl
  have closed (x : Die) : errPage (closePeriod cut x) q = errPage x q := by
    unfold closePeriod
    dsimp only
    split <;> rfl
  unfold turnPeriod
  split
  · rw [started, closed]
  · rfl

theorem errPage_sealsWithin (advance : Nat → Tim → Tim) (k n : Nat) (d : Die) :
    errPage (sealsWithin advance k n d) q = errPage d q := by
  induction k generalizing n d with
  | zero => rfl
  | succ k ih =>
    unfold sealsWithin
    split
    · rw [ih, errPage_turnPeriod other, errPage_updTim]
    · rfl

/-- The ends of seal periods report on SIG's page alone. -/
theorem errPage_toCycle (c : Nat) (d : Die) : errPage (toCycle c d) q = errPage d q := by
  have due : errPage (turnDue d) q = errPage d q := by
    unfold turnDue
    split
    · exact errPage_turnPeriod other _ d
    · rfl
  have passed (n : Nat) : errPage (passSealed n d) q = errPage d q := by
    rw [passSealed, errPage_updTim, errPage_sealsWithin other, due]
  rw [toCycle, passed]

end

theorem stilled_toCycle (c : Nat) (d : Die) : stilled (toCycle c d) = stilled d := by rw [toCycle, stilled_passSealed]

section
variable (same : stilled x = stilled d)
include same

theorem stilled_chn : x.chn = d.chn := show (stilled x).chn = (stilled d).chn by rw [same]
theorem stilled_wdn : x.wdn = d.wdn := show (stilled x).wdn = (stilled d).wdn by rw [same]
theorem stilled_wlk : x.wlk = d.wlk := show (stilled x).wlk = (stilled d).wlk by rw [same]
theorem stilled_field (p o l : Nat) : field x p o l = field d p o l :=
  show field (stilled x) p o l = field (stilled d) p o l by rw [same]

end

end

/-! ## Windows (R268) -/

section
variable {d y : Die} {e : TtEntry} {i : Nat}

/-- A batch with its window. -/
def inWindow (w : Window) (b : Batch) : Batch := { b with window := some w }

theorem foldl_bindWindow (w : Window) (bs : List Batch) (d : Die) : let x := bs.foldl (fun d b => bindWindow w b d) d
    (∃ ts, x = { d with chn := { d.chn with tickets := ts } }) ∧
      ∀ n, ticket x n = if n ∈ bs.map (fun b => b.serial) then (ticket d n).map (inWindow w) else ticket d n := by
  induction bs generalizing d with
  | nil => exact ⟨⟨_, rfl⟩, fun n => (if_neg List.not_mem_nil).symm⟩
  | cons b r ih =>
    obtain ⟨⟨ts, shape⟩, read⟩ := ih (bindWindow w b d)
    refine ⟨⟨ts, shape⟩, fun n => (read n).trans ?_⟩
    have bound : ticket (bindWindow w b d) n = if n = b.serial then (ticket d n).map (inWindow w) else ticket d n :=
      ticket_modTicket_eq (f := inWindow w) (fun _ own => own) n
    have again : ∀ o : Option Batch, (o.map (inWindow w)).map (inWindow w) = o.map (inWindow w) := fun o => by cases o <;> rfl
    simp only [List.map_cons, List.mem_cons, bound]
    by_cases own : n = b.serial
    · simp only [own, true_or, if_true, again, ite_self]
    · simp only [own, false_or, if_false]

/-- The window that a window entry opens at its beginning. -/
def windowOf (e : TtEntry) (y : Die) : Window :=
  let w : Window := { entry := e, slot := slotCount y, slotNs := slotBegin y, start := e.start, arr := e.arr
                      commit := e.commit, verdict := e.verdict }
  if (chan y e.target).host.kind = 2 then
    { w with slot := w32 (slotCount y + 4294967296 - (chan y e.target).host.arrSym / 14) }
  else w

theorem windowOf_times (e : TtEntry) (y : Die) : (windowOf e y).entry = e ∧ (windowOf e y).start = e.start ∧
    (windowOf e y).commit = e.commit ∧ (windowOf e y).verdict = e.verdict ∧ (windowOf e y).slotNs = slotBegin y := by
  unfold windowOf
  dsimp only
  split <;> exact ⟨rfl, rfl, rfl, rfl, rfl⟩

/-- A window of a channel of a model binds the batches that the channel has for it. -/
theorem windowStart_binds (now : entryNow d i 2 = some e) (begun : beginEntry e d = y) (model : (chan y e.target).host.kind ≠ 3) :
    windowStart i d = (windowBatches y e).foldl (fun d b => bindWindow (windowOf e y) b d) y := by
  unfold windowStart
  rw [now]
  dsimp only
  have noRun : (decide ((chan y e.target).host.kind = 3) && (chan y e.target).state == ChanState.opened) = false := by simp [model]
  rw [begun]
  simp only [noRun, Bool.false_eq_true, if_false]
  rfl

/-! ## Segments (R268, R270) -/

theorem beginBatch_tab (n : Nat) (d : Die) : ∃ t, beginBatch d n = { d with chn := { d.chn with tab := t } } := by
  unfold beginBatch
  split
  · exact ⟨d.chn.tab, rfl⟩
  · split
    · exact ⟨d.chn.tab, rfl⟩
    · dsimp only
      split
      · exact ⟨_, rfl⟩
      · exact ⟨d.chn.tab, rfl⟩

theorem foldl_beginBatch_tab (ns : List Nat) (d : Die) : ∃ t, ns.foldl beginBatch d = { d with chn := { d.chn with tab := t } } := by
  induction ns generalizing d with
  | nil => exact ⟨d.chn.tab, rfl⟩
  | cons n r ih =>
    obtain ⟨t, one⟩ := beginBatch_tab n d
    obtain ⟨t', rest⟩ := ih (beginBatch d n)
    exact ⟨t', by rw [List.foldl_cons, rest, one]⟩

/-- The core of a program that begins with the next batches of its target. -/
def freshCore (l : Nat) (d : Die) : Core :=
  { target := (core d l).target, run := nextRun d l (core d l).target, inSpan := (core d l).inSpan, halted := (core d l).halted }

theorem fetchRun_eq (l : Nat) (d : Die) : fetchRun l d = if (core d l).run.isEmpty then
    (freshCore l d).run.foldl beginBatch (modCore l (fun _ => freshCore l d) d) else d := rfl

/-- A program that begins with the next batches keeps its target and its span, and the clocks, the timetable and the tickets. -/
theorem fetchRun_keeps (l : Nat) (on : (pipe d l).enabled = true) : (fetchRun l d).tim = d.tim ∧ (fetchRun l d).cad = d.cad ∧
    (fetchRun l d).chn.tickets = d.chn.tickets ∧ (core (fetchRun l d) l).target = (core d l).target ∧
    (core (fetchRun l d) l).inSpan = (core d l).inSpan := by
  have begun : core (modCore l (fun _ => freshCore l d) d) l = freshCore l d := core_modCore on _
  rw [fetchRun_eq]
  split
  · obtain ⟨t, shape⟩ := foldl_beginBatch_tab (freshCore l d).run (modCore l (fun _ => freshCore l d) d)
    have target : (core (modCore l (fun _ => freshCore l d) d) l).target = (core d l).target := by rw [begun]; rfl
    have span : (core (modCore l (fun _ => freshCore l d) d) l).inSpan = (core d l).inSpan := by rw [begun]; rfl
    rw [shape]
    exact ⟨rfl, rfl, rfl, target, span⟩
  · exact ⟨rfl, rfl, rfl, rfl, rfl⟩

/-- A core that is given to a target runs for it; nothing but its pipeline changes. -/
theorem switchTarget_gives (l target : Nat) (on : (pipe d l).enabled = true)
    (saved : ∀ k, mget (pipe d l).saved target = some k → k.target = target) :
    (∃ ps, switchTarget l target d = { d with vp := { d.vp with pipes := ps } }) ∧
      (pipe (switchTarget l target d) l).enabled = true ∧ (core (switchTarget l target d) l).target = target := by
  unfold switchTarget
  extract_lets p
  split
  · next already => exact ⟨⟨d.vp.pipes, rfl⟩, on, already⟩
  · refine ⟨⟨_, rfl⟩, ?_, ?_⟩
    · rw [pipe_modPipe, if_pos ⟨rfl, lt_of_enabled on⟩]
      exact on
    · rw [core, pipe_modPipe, if_pos ⟨rfl, lt_of_enabled on⟩]
      show (mgetD p.saved target { target := target, halted := p.core.halted }).target = target
      cases held : mget p.saved target with
      | none => rw [mgetD, held]; rfl
      | some k => rw [mgetD, held]; exact saved k held

theorem segmentStart_of_busy (now : entryNow d i 1 = some e) (busy : groupBusy d (pipe d e.group).lead = true) :
    segmentStart i d = d := by
  simp [segmentStart, now, busy]

/-- The target that a segment's program runs for: a channel, or a pool. -/
def targetOf (e : TtEntry) : Nat := if 32768 ≤ e.target then 32768 + e.target % 256 else e.target

section
variable {lead : Nat} (own : (pipe d e.group).lead = lead) (now : entryNow d i 1 = some e) (led : leads d lead = true)
  (free : groupBusy d lead = false) (begun : beginEntry e d = y)
include own now led free begun

theorem segmentStart_of_past (past : spanPast e y = true) : segmentStart i d = y := by
  unfold segmentStart
  rw [now]
  dsimp only
  rw [own, free, led, begun, if_neg (by simp), if_pos past]

theorem segmentStart_eq (left : spanPast e y = false) : segmentStart i d =
    fetchRun lead (modCore lead (fun c => { c with inSpan := true }) (addSpan i lead e (switchTarget lead (targetOf e) y))) := by
  unfold segmentStart
  rw [now]
  dsimp only
  rw [own, free, led, begun, left, if_neg (by simp), if_neg (by simp)]
  rfl

/-- A segment lets the program of its group issue, for its target, while its span runs. -/
theorem segmentStart_runs (left : spanPast e y = false)
    (saved : ∀ k, mget (pipe y lead).saved (targetOf e) = some k → k.target = targetOf e) (on : (pipe y lead).enabled = true) :
    let x := segmentStart i d
    x.tim = y.tim ∧ (core x lead).inSpan = true ∧ (core x lead).target = targetOf e ∧
      (∃ u, x.cad.spans = y.cad.spans ++ [(lead, i, u)]) ∧ x.chn.tickets = y.chn.tickets := by
  rw [segmentStart_eq own now led free begun left]
  obtain ⟨⟨ps, shape⟩, on', target⟩ := switchTarget_gives (d := y) lead (targetOf e) on saved
  have tim : (switchTarget lead (targetOf e) y).tim = y.tim := by rw [shape]
  have cad : (switchTarget lead (targetOf e) y).cad = y.cad := by rw [shape]
  have chn : (switchTarget lead (targetOf e) y).chn = y.chn := by rw [shape]
  generalize switchTarget lead (targetOf e) y = z at *
  have spans : ∃ u, (addSpan i lead e z).cad.spans = z.cad.spans ++ [(lead, i, u)] := ⟨_, rfl⟩
  have on2 : (pipe (addSpan i lead e z) lead).enabled = true := on'
  have core2 : core (modCore lead (fun c => { c with inSpan := true }) (addSpan i lead e z)) lead =
      { core z lead with inSpan := true } := core_modCore on2 _
  obtain ⟨tim', cad', tickets', target', span'⟩ := fetchRun_keeps (d := modCore lead (fun c => { c with inSpan := true })
    (addSpan i lead e z)) lead ((enabled_modCore _ lead).trans on2)
  obtain ⟨u, spans⟩ := spans
  refine ⟨tim'.trans tim, ?_, ?_, ⟨u, ?_⟩, tickets'.trans (congrArg Chn.tickets chn)⟩
  · rw [span', core2]
  · rw [target', core2]
    exact target
  · rw [cad', ← cad]
    exact spans

end

/-! ## The end of a span (R270) -/

theorem idle_modCore (l : Nat) (d : Die) : (core (modCore l (fun c => { c with inSpan := false }) d) l).inSpan = false := by
  rw [core, modCore, pipe_modPipe]
  split
  · rfl
  · next beyond =>
    rw [pipe, List.getElem?_eq_none (by omega)]
    rfl

/-- What the end of a span leaves of the timetable's spans. -/
def spanOver (i : Nat) (y : Die) : Die := updCad (fun c => { c with spans := c.spans.filter (fun s => s.2.1 != i) }) y

theorem spanEnd_eq (here : entryAt d i = some e) (runs : ∃ g u, (g, i, u) ∈ d.cad.spans) (past : toCycle (e.start + e.len) d = y) :
    spanEnd i d = if e.kind = 1 then modCore (pipe d e.group).lead (fun c => { c with inSpan := false }) (spanOver i y)
      else if e.kind = 7 then sntStop e (spanOver i y) else spanOver i y := by
  obtain ⟨g, u, listed⟩ := runs
  have some_ : d.cad.spans.any (fun s => s.2.1 == i) = true := List.any_eq_true.mpr ⟨_, listed, beq_self_eq_true i⟩
  unfold spanEnd
  rw [here]
  dsimp only
  rw [if_pos some_, past]
  rfl

/-- The end of a span stops what the span let run. -/
theorem spanEnd_stops (here : entryAt d i = some e) (runs : ∃ g u, (g, i, u) ∈ d.cad.spans) (past : toCycle (e.start + e.len) d = y)
    (vp : y.vp = d.vp) : let x := spanEnd i d
    x.tim = y.tim ∧ x.cad.spans = y.cad.spans.filter (fun q => q.2.1 != i) ∧
      (e.kind = 1 → (core x (pipe d e.group).lead).inSpan = false) ∧
      (e.kind = 7 → ∀ r ∈ x.sntb.runs, r.image = e.target → r.leadA ≠ (pipe d e.group).lead ∧ r.leadB ≠ (pipe d e.group).lead) := by
  rw [spanEnd_eq here runs past]
  by_cases segment : e.kind = 1
  · rw [if_pos segment]
    exact ⟨rfl, rfl, fun _ => idle_modCore _ _, fun sentinel => by omega⟩
  · rw [if_neg segment]
    split
    · refine ⟨rfl, rfl, fun k => absurd k segment, fun _ r run image => ?_⟩
      have lead : (pipe (spanOver i y) e.group).lead = (pipe d e.group).lead := congrArg Pipe.lead (pipe_congr (d := d) vp e.group)
      have kept := (List.mem_filter.mp run).2
      rw [lead] at kept
      simpa [image] using kept
    · next other => exact ⟨rfl, rfl, fun k => absurd k segment, fun k => absurd k other⟩

end

end Sys2Proof.Machine
end

section
/-! SUPPORT. Canaries, test pulses and CAD's commands, and O56 (R264 to R282). -/

namespace Sys2Proof.Machine

/-! ## Canaries (R86, R274) -/

section
variable {d y : Die} {e : TtEntry} {i : Nat}

theorem noteForwarded_canary {h : Held} (canary : h.canary = true) (d : Die) : ∃ g, noteForwarded h d = { d with ing := g } := by
  unfold noteForwarded
  rw [if_pos canary]
  dsimp only
  split
  · exact ⟨_, rfl⟩
  · exact ⟨d.ing, rfl⟩

/-- What a channel notes of a canary that goes downstream. -/
def canarySent (late : Bool) (dig : Bytes) (x : Chan) : Chan :=
  { x with canaryOut := x.canaryOut + 1, canaryDigs := x.canaryDigs ++ [dig], canaryLate := x.canaryLate ++ [late] }

/-- A canary goes downstream; its channel keeps its digest. -/
theorem putCanary_shape (late : Bool) (c s : Nat) (d : Die) : ∃ dig bytes g n, putCanary late c s d =
    { modChan c (canarySent late dig) d with
      ing := g, regs := { d.regs with cnt := n }
      wlk := { d.wlk with dsTx0 := d.wlk.dsTx0 ++ [{ stream := s, no := none, left := bytes, begun := false }] } } := by
  unfold putCanary
  extract_lets x payload n dig bytes h d1 d2 d3
  obtain ⟨g, noted⟩ := noteForwarded_canary (h := h) rfl (modStream s (fun st => { st with canaries := w32 (st.canaries + 1) }) d)
  refine ⟨dig, bytes, g, (countPerms (payload.length + 10) d).regs.cnt, ?_⟩
  simp only [d3, d2, d1, noted]
  rfl

/-- The die whose list of canaries that wait no longer has one of a channel and stream. -/
def canaryServed (c s : Nat) (d : Die) : Die := updCad (fun q => { q with canaryWait := q.canaryWait.filter (fun w => w != (c, s)) }) d

/-- A canary may go: the block is enabled and its channel takes canaries. -/
structure CanaryRuns (c : Nat) (d : Die) : Prop where
  enabled : field d pCAD 0x040 0 ≠ 0
  opened : (chan d c).state = .opened
  takes : (chan d c).host.canary = true

section
variable {c s : Nat} (runs : CanaryRuns c d) (own : Bool)
include runs

theorem canaryAt_of_credit (up : d.wlk.state = .up) (credit : 0 < dsCredit d.wlk 0) :
    canaryAt own c s d = putCanary (!own) c s (canaryServed c s d) := by
  obtain ⟨enabled, opened, takes⟩ := runs
  simp [canaryAt, enabled, opened, takes, up, credit, canaryServed]

theorem canaryAt_of_none (none_ : d.wlk.state ≠ .up ∨ dsCredit d.wlk 0 = 0) : canaryAt own c s d =
    if own then missCanary c s (updCad (fun q => { q with canaryWait := q.canaryWait.filter (fun w => w != (c, s)) ++ [(c, s)] }) d)
    else d := by
  obtain ⟨enabled, opened, takes⟩ := runs
  have stays : (d.wlk.state == .up && decide (0 < dsCredit d.wlk 0)) = false := by
    rcases none_ with down | empty
    · simp [down]
    · simp [empty]
  simp [canaryAt, enabled, opened, takes, stays]

end

theorem canaryServed_out (c s : Nat) (d : Die) : (c, s) ∉ (canaryServed c s d).cad.canaryWait := by simp [canaryServed]

/-- A canary that finds a credit goes downstream, waits no longer, and leaves its digest with its channel. -/
theorem canaryAt_goes {c s : Nat} {own : Bool} (runs : CanaryRuns c d) (up : d.wlk.state = .up) (credit : 0 < dsCredit d.wlk 0) :
    let x := canaryAt own c s d
    x.tim = d.tim ∧ (c, s) ∉ x.cad.canaryWait ∧
      ∃ h bytes, x.wlk = { d.wlk with dsTx0 := d.wlk.dsTx0 ++ [{ stream := s, no := none, left := bytes, begun := false }] } ∧
        (c ∈ d.chn.tab.map (fun e => e.1) → (chan x c).canaryDigs = (chan d c).canaryDigs ++ [h] ∧
          (chan x c).canaryLate = (chan d c).canaryLate ++ [!own] ∧ (chan x c).canaryOut = (chan d c).canaryOut + 1) := by
  obtain ⟨dig, bytes, g, n, shape⟩ := putCanary_shape (!own) c s (canaryServed c s d)
  rw [canaryAt_of_credit runs own up credit, shape]
  refine ⟨rfl, canaryServed_out c s d, dig, bytes, rfl, fun listed => ?_⟩
  have sent : chan (modChan c (canarySent (!own) dig) d) c = canarySent (!own) dig (chan d c) :=
    chan_modChan_same _ (isSome_of_mem_keys listed)
  exact ⟨congrArg Chan.canaryDigs sent, congrArg Chan.canaryLate sent, congrArg Chan.canaryOut sent⟩

/-- A window that a canary misses is counted for its stream and reported. -/
theorem missCanary_reports (c s : Nat) (d : Die) : let x := missCanary c s d
    x.tim = d.tim ∧ x.wlk = d.wlk ∧ x.cad.canaryWait = d.cad.canaryWait ∧
      mgetD x.cad.misses s 0 = mgetD d.cad.misses s 0 + 1 ∧ errSet x pCAD 4 = true := by
  unfold missCanary
  extract_lets n y x
  have missed : Reported pCAD 4 y := reported_raise rfl (by decide)
  have tim : y.tim = d.tim := raise_tim _ _ _
  have wlk : y.wlk = d.wlk := raise_wlk _ _ _
  have cad : y.cad = { d.cad with misses := mset d.cad.misses s n } := raise_cad _ _ _
  have waits : y.cad.canaryWait = d.cad.canaryWait := by rw [cad]
  have counted : mgetD y.cad.misses s 0 = n := by rw [cad]; exact mgetD_mset_same _ _ _ _
  simp only [x]
  split
  · refine ⟨(raise_tim _ _ _).trans tim, (raise_wlk _ _ _).trans wlk, ?_, ?_, Reported.raise (.same missed rfl)⟩
    · rw [raise_cad]
      exact waits
    · rw [raise_cad]
      exact counted
  · exact ⟨tim, wlk, waits, counted, missed⟩

/-- A canary that finds no credit waits; its window counts as missed in its own slot only. -/
theorem canaryAt_waits {c s : Nat} {own : Bool} (runs : CanaryRuns c d) (none_ : d.wlk.state ≠ .up ∨ dsCredit d.wlk 0 = 0)
    (waits : own = false → (c, s) ∈ d.cad.canaryWait) : let x := canaryAt own c s d
    x.tim = d.tim ∧ x.wlk = d.wlk ∧ (c, s) ∈ x.cad.canaryWait ∧
      (own = true → mgetD x.cad.misses s 0 = mgetD d.cad.misses s 0 + 1 ∧ errSet x pCAD 4 = true) ∧
      (own = false → x.cad.misses = d.cad.misses ∧ errSet x pCAD 4 = errSet d pCAD 4) := by
  rw [canaryAt_of_none runs own none_]
  cases own with
  | true =>
    rw [if_pos rfl]
    obtain ⟨tim, wlk, wait, missed, reported⟩ := missCanary_reports c s
      (updCad (fun q => { q with canaryWait := q.canaryWait.filter (fun w => w != (c, s)) ++ [(c, s)] }) d)
    refine ⟨tim, wlk, ?_, fun _ => ⟨missed, reported⟩, nofun⟩
    rw [wait]
    exact List.mem_append_right _ (List.mem_singleton.mpr rfl)
  | false => exact ⟨rfl, rfl, waits rfl, nofun, fun _ => ⟨rfl, rfl⟩⟩

theorem canary_eq (here : entryAt d i = some e) (kind : e.kind = 3)
    (takes : entryNow d i 3 = some e ∨ (e.target, e.stream) ∈ d.cad.canaryWait) :
    canary i d = canaryAt (entryNow d i 3 == some e) e.target e.stream (toCycle e.start d) := by
  unfold canary
  rw [here]
  dsimp only
  rw [if_pos ⟨kind, by simpa using takes⟩]

/-! ## Test pulses (R276) -/

theorem testPulse_hands (now : entryNow d i 6 = some e) : (testPulse i d).tim = (beginEntry e d).tim ∧
    (testPulse i d).wdn = { d.wdn with events := d.wdn.events ++ [.pulse (e.target % 16)] } := by
  have wdn : (beginEntry e d).wdn = d.wdn := stilled_wdn (stilled_beginEntry e d)
  obtain ⟨y, begun⟩ : ∃ y, beginEntry e d = y := ⟨_, rfl⟩
  unfold testPulse
  rw [now]
  dsimp only
  rw [begun] at wdn ⊢
  rw [← wdn]
  exact ⟨rfl, rfl⟩

/-! ## CAD's commands (R267, R281, R282) -/

/-- A timetable that is refused leaves CAD as it is, with its reason reported and captured. -/
theorem cadRefuse_reports (r n : Nat) (d : Die) : let x := cadRefuse (r, n) d
    x.cad = d.cad ∧ errSet x pCAD 6 = true ∧
      (capFree d pCAD 0x04C = true → capOf x pCAD 0x04C = 2147483648 + n % 8192 * 16 + r) := by
  unfold cadRefuse
  extract_lets y
  have cad : y.cad = d.cad := by
    simp only [y]
    split <;> rfl
  refine ⟨(raise_cad _ _ _).trans cad, errSet_raise _ _ _ rfl (by decide), fun free => ?_⟩
  have kept : capOf (raise pCAD 6 y) pCAD 0x04C = capOf y pCAD 0x04C := by rw [capOf, raise_regs, capOf]
  rw [kept]
  simp only [y, free, if_true, capOf_setCap]

theorem loadStandby_of_ok {t : Timetable} (fits : judgeFull d = .ok t) :
    loadStandby d = { d with cad := { d.cad with standby := some t } } := by
  unfold loadStandby
  rw [fits]
  rfl

theorem loadStandby_of_error {r : Nat × Nat} (refused : judgeFull d = .error r) : loadStandby d = cadRefuse r d := by
  unfold loadStandby
  rw [refused]

theorem swapCmd_of_idle (standby : ∃ t, d.cad.standby = some t) (idle : ∀ c ∈ d.chn.tab, c.2.state ≠ .opened) :
    swapCmd d = { d with cad := { d.cad with swap := true } } := by
  obtain ⟨t, standby⟩ := standby
  have closed : d.chn.tab.any (fun e => e.2.state == .opened) = false := by simpa using idle
  unfold swapCmd
  rw [standby, closed]
  rfl

theorem swapCmd_ignored (kept : d.cad.standby = none ∨ ∃ c ∈ d.chn.tab, c.2.state = .opened) : swapCmd d = d := by
  unfold swapCmd
  rcases kept with none_ | ⟨c, listed, opened⟩
  · rw [none_]
    rfl
  · have some_ : d.chn.tab.any (fun e => e.2.state == .opened) = true := List.any_eq_true.mpr ⟨c, listed, by rw [opened]; rfl⟩
    rw [some_, Bool.not_true, Bool.and_false, if_neg Bool.false_ne_true]

theorem discardCmd_of_settled (settled : d.vp.pending = false) :
    discardCmd d = { d with cad := { d.cad with standby := none, swap := false } } := by
  unfold discardCmd
  rw [settled, if_neg Bool.false_ne_true]
  rfl

theorem discardCmd_ignored (waits : d.vp.pending = true) : discardCmd d = d := by
  unfold discardCmd
  rw [if_pos waits]

end

theorem cadCommands : Claim.CadCommands := fun s d =>
  ⟨fun _ fits => runDie_of_eq (loadStandby_of_ok fits),
    fun r n refused => ⟨_, runDie_of_eq (loadStandby_of_error refused), cadRefuse_reports r n (s.die d)⟩,
    fun standby idle => runDie_of_eq (swapCmd_of_idle standby idle), fun kept => runDie_of_eq (swapCmd_ignored kept),
    fun settled => runDie_of_eq (discardCmd_of_settled settled), fun waits => runDie_of_eq (discardCmd_ignored waits)⟩

/-! ## The entries of the timetable -/

section
variable {s : State} {d : DieId} {i : BitVec 13} {e : TtEntry}

theorem windowStart_claim (now : entryNow (s.die d) i.toNat 2 = some e) (model : (chan (s.die d) e.target).host.kind ≠ 3) :
    ∃ x, RunsTo (.windowStart d i) s d x ∧ x.tim = (beginEntry e (s.die d)).tim ∧
      (∀ b ∈ windowBatches (beginEntry e (s.die d)) e, ticket (beginEntry e (s.die d)) b.serial = some b → ∃ w : Window,
        ticket x b.serial = some { b with window := some w } ∧ w.entry = e ∧ w.start = e.start ∧ w.commit = e.commit ∧
          w.verdict = e.verdict ∧ w.slotNs = slotBegin (beginEntry e (s.die d))) ∧
      ∀ n, (∀ b ∈ windowBatches (beginEntry e (s.die d)) e, b.serial ≠ n) → ticket x n = ticket (s.die d) n := by
  have chn : (beginEntry e (s.die d)).chn = (s.die d).chn := stilled_chn (stilled_beginEntry e _)
  obtain ⟨y, begun⟩ : ∃ y, beginEntry e (s.die d) = y := ⟨_, rfl⟩
  rw [begun] at chn ⊢
  rw [← chan_congr chn] at model
  obtain ⟨⟨ts, shape⟩, read⟩ := foldl_bindWindow (windowOf e y) (windowBatches y e) y
  refine ⟨_, runDie_of_eq (windowStart_binds now begun model), by rw [shape], fun b taken found => ⟨windowOf e y, ?_, windowOf_times e y⟩,
    fun n other => ?_⟩
  · rw [read, if_pos (List.mem_map_of_mem taken), found]
    rfl
  · have absent : n ∉ (windowBatches y e).map (fun b => b.serial) := fun mem => by
      obtain ⟨b, taken, same⟩ := List.mem_map.mp mem
      exact other b taken same
    rw [read, if_neg absent]
    exact ticket_congr (by rw [chn]) n

theorem segmentStart_claim {lead : Nat} (own : (pipe (s.die d) e.group).lead = lead) (now : entryNow (s.die d) i.toNat 1 = some e)
    (led : leads (s.die d) lead = true) (free : groupBusy (s.die d) lead = false) (left : spanPast e (beginEntry e (s.die d)) = false)
    (saved : ∀ k, mget (pipe (s.die d) lead).saved (targetOf e) = some k → k.target = targetOf e) :
    ∃ x u, RunsTo (.segmentStart d i) s d x ∧ x.tim = (beginEntry e (s.die d)).tim ∧ (core x lead).inSpan = true ∧
      (core x lead).target = targetOf e ∧ x.cad.spans = (s.die d).cad.spans ++ [(lead, i.toNat, u)] ∧
      x.chn.tickets = (s.die d).chn.tickets := by
  have chn : (beginEntry e (s.die d)).chn = (s.die d).chn := stilled_chn (stilled_beginEntry e _)
  have vp := beginEntry_vp e (s.die d)
  have cad := beginEntry_cad e (s.die d)
  obtain ⟨y, begun⟩ : ∃ y, beginEntry e (s.die d) = y := ⟨_, rfl⟩
  rw [begun] at chn vp cad left ⊢
  have on : (pipe y lead).enabled = true := by rw [pipe_congr vp, enabled_of_leads led]
  rw [← pipe_congr vp] at saved
  obtain ⟨tim, span, target, ⟨u, spans⟩, tickets⟩ := segmentStart_runs own now led free begun left saved on
  exact ⟨_, u, runDie_of_eq rfl, tim, span, target, by rw [spans, cad], by rw [tickets, chn]⟩

theorem spanEnd_claim (here : entryAt (s.die d) i.toNat = some e) (runs : ∃ g u, (g, i.toNat, u) ∈ (s.die d).cad.spans) :
    ∃ x, RunsTo (.spanEnd d i) s d x ∧ x.tim = (toCycle (e.start + e.len) (s.die d)).tim ∧
      x.cad.spans = (s.die d).cad.spans.filter (fun q => q.2.1 != i.toNat) ∧
      (e.kind = 1 → (core x (pipe (s.die d) e.group).lead).inSpan = false) ∧
      (e.kind = 7 → ∀ r ∈ x.sntb.runs, r.image = e.target →
        r.leadA ≠ (pipe (s.die d) e.group).lead ∧ r.leadB ≠ (pipe (s.die d) e.group).lead) := by
  have still := stilled_toCycle (e.start + e.len) (s.die d)
  have vp := stilled_vp still
  have cad := stilled_cad still
  obtain ⟨y, past⟩ : ∃ y, toCycle (e.start + e.len) (s.die d) = y := ⟨_, rfl⟩
  rw [past] at vp cad ⊢
  rw [← cad]
  exact ⟨_, runDie_of_eq rfl, spanEnd_stops here runs past vp⟩

theorem canary_claim (here : entryAt (s.die d) i.toNat = some e) (kind : e.kind = 3)
    (takes : entryNow (s.die d) i.toNat 3 = some e ∨ (e.target, e.stream) ∈ (s.die d).cad.canaryWait)
    (runs : CanaryRuns e.target (s.die d)) : ∃ x, RunsTo (.canary d i) s d x ∧ x.tim = (toCycle e.start (s.die d)).tim ∧
      ((s.die d).wlk.state = .up → 0 < dsCredit (s.die d).wlk 0 → (e.target, e.stream) ∉ x.cad.canaryWait ∧
        ∃ h bytes, x.wlk = { (s.die d).wlk with
            dsTx0 := (s.die d).wlk.dsTx0 ++ [{ stream := e.stream, no := none, left := bytes, begun := false }] } ∧
          (e.target ∈ (s.die d).chn.tab.map (fun e => e.1) →
            (chan x e.target).canaryDigs = (chan (s.die d) e.target).canaryDigs ++ [h] ∧
            (chan x e.target).canaryLate = (chan (s.die d) e.target).canaryLate ++ [entryNow (s.die d) i.toNat 3 != some e] ∧
            (chan x e.target).canaryOut = (chan (s.die d) e.target).canaryOut + 1)) ∧
      ((s.die d).wlk.state ≠ .up ∨ dsCredit (s.die d).wlk 0 = 0 →
        x.wlk = (s.die d).wlk ∧ (e.target, e.stream) ∈ x.cad.canaryWait ∧
        (entryNow (s.die d) i.toNat 3 = some e →
          mgetD x.cad.misses e.stream 0 = mgetD (s.die d).cad.misses e.stream 0 + 1 ∧ errSet x pCAD 4 = true) ∧
        (entryNow (s.die d) i.toNat 3 ≠ some e → x.cad.misses = (s.die d).cad.misses ∧ errSet x pCAD 4 = errSet (s.die d) pCAD 4)) := by
  obtain ⟨enabled, opened, canaries⟩ := runs
  have still := stilled_toCycle e.start (s.die d)
  have chn := stilled_chn still
  have cad := stilled_cad still
  have wlk := stilled_wlk still
  have fields := stilled_field still
  have errs : errSet (toCycle e.start (s.die d)) pCAD 4 = errSet (s.die d) pCAD 4 := by
    rw [errSet, errPage_toCycle (by decide), errSet]
  have eq := canary_eq here kind takes
  have waits : (entryNow (s.die d) i.toNat 3 == some e) = false → (e.target, e.stream) ∈ (s.die d).cad.canaryWait := fun late =>
    takes.resolve_left (by simpa using late)
  obtain ⟨y, passed⟩ : ∃ y, toCycle e.start (s.die d) = y := ⟨_, rfl⟩
  rw [passed] at chn cad wlk fields errs eq ⊢
  have ran : RunsTo (.canary d i) s d _ := runDie_of_eq eq
  have runs : CanaryRuns e.target y := ⟨by rwa [fields], by rwa [chan_congr chn], by rwa [chan_congr chn]⟩
  rw [← cad] at waits
  rw [← wlk, ← chn, ← cad, ← errs, ← chan_congr chn]
  by_cases credit : y.wlk.state = .up ∧ 0 < dsCredit y.wlk 0
  · obtain ⟨up, credit⟩ := credit
    obtain ⟨tim, out, sent⟩ := canaryAt_goes (s := e.stream) (own := entryNow (s.die d) i.toNat 3 == some e) runs up credit
    refine ⟨_, ran, tim, fun _ _ => ⟨out, sent⟩, fun none_ => ?_⟩
    rcases none_ with down | empty
    · exact absurd up down
    · omega
  · have none_ : y.wlk.state ≠ .up ∨ dsCredit y.wlk 0 = 0 := by
      by_cases up : y.wlk.state = .up
      · exact .inr (Nat.eq_zero_of_not_pos fun some_ => credit ⟨up, some_⟩)
      · exact .inl up
    obtain ⟨tim, same, wait, missed, late⟩ := canaryAt_waits (own := entryNow (s.die d) i.toNat 3 == some e) runs none_ waits
    exact ⟨_, ran, tim, fun up some_ => absurd ⟨up, some_⟩ credit, fun _ => ⟨same, wait, fun now => missed (by simp [now]),
      fun other => late (by simpa using other)⟩⟩

end

theorem timetableEntriesTakeEffect : Claim.TimetableEntriesTakeEffect := by
  intro s d i e z y lead
  refine ⟨windowStart_claim, fun now busy => runDie_of_eq (segmentStart_of_busy now busy), fun now led free => ⟨fun past => ?_, ?_⟩,
    spanEnd_claim, fun now => ⟨_, runDie_of_eq rfl, testPulse_hands now⟩, fun here kind takes enabled opened canaries => ?_⟩
  · exact runDie_of_eq (segmentStart_of_past rfl now led free rfl past)
  · intro left target saved
    exact segmentStart_claim rfl now led free left saved
  · exact canary_claim here kind takes ⟨enabled, opened, canaries⟩

/-- Settles O56: an entry begins at its cycle, when nothing but the clocks and the seal periods has changed, and does its own work
then; CAD's commands change its timetables alone, or report a refusal. -/
theorem timetableEntriesAndCadCommands : Obligations.TimetableEntriesAndCadCommands := ⟨timetableEntriesTakeEffect, cadCommands⟩

end Sys2Proof.Machine
end

section
/-! SUPPORT. The refutation of O54: RADIO_SLOT_LATE on a die whose channel table lists a channel twice (R116, R203). -/

namespace Sys2Proof.Machine

/-- The one ticket of `listedTwice`, of channel 5; it names no slot. -/
def heldTicket : Batch := { channel := 5 }

/-- A model whose Month turn has been abandoned. -/
def abandonedModel : Model :=
  { state := .abandoned 0, manifest := {}, prog := {}, k := 1, share := 0, dies := 1, loadChannel := 0, loadRatchet := 0
    loadTimeout := 1, periodH := 1, graceH := 1, session := 1, order := 1 }

/-- A die whose table lists the radio channel 0 once and channel 5 twice: first for slot 1, then for slot 3, whose model has been
abandoned. The withdrawal of that model (R116) reads channel 5 by its first entry when it looks for tickets that hold it back, and
retires channel 5 for its second. -/
def listedTwice : Die :=
  { State.reset.dieA with
    adm := { State.reset.dieA.adm with models := [(3, abandonedModel)] }
    chn := { State.reset.dieA.chn with
      tab := [(0, { state := .opened, host := { kind := 2 } }), (5, { state := .opened, host := { slot := 1 } }),
        (5, { state := .opened, host := { slot := 3 } })]
      tickets := [heldTicket], serial := 1 } }

/-- The radio channel owes nothing in slot 0, yet its late slot ends the ticket of channel 5. -/
theorem radioSlotLate_listedTwice : ticket (radioSlotLate 0 0 [] listedTwice) heldTicket.serial = none := by decide +kernel

theorem runsTo_unique {c : Instr} {s : State} {d : DieId} {x y : Die} (hx : RunsTo c s d x) (hy : RunsTo c s d y) : x = y := by
  have same : s.setDie d x = s.setDie d y := Host.Outcome.next.inj (hx.symm.trans hy)
  simpa using congrArg (fun t => t.die d) same

theorem not_radioSlotLateCompletes : ¬ Claim.RadioSlotLateCompletes := by
  intro claim
  obtain ⟨-, -, onRadio⟩ := claim (State.reset.setDie .a listedTwice) .a 0 [] 0
  obtain ⟨x, ran, -, kept, -⟩ := onRadio rfl rfl (by decide) (by decide)
  have stays : ticket x heldTicket.serial = some heldTicket := kept heldTicket (List.mem_singleton.mpr rfl) (.inl (by decide))
  have same : x = radioSlotLate 0 0 [] listedTwice := runsTo_unique ran (runDie_of_eq rfl)
  rw [same, radioSlotLate_listedTwice] at stays
  cases stays

/-- Refutes O54: a late radio slot does not leave every other ticket where the channel table lists a channel twice. The table is a list
with keys, and the statement holds for every state, so nothing in it says that a channel is listed once, as it is in
every table that `mset` builds. -/
theorem not_timedVerdictsAndWritesComplete : ¬ Obligations.TimedVerdictsAndWritesComplete := by
  rintro ⟨-, -, radio, -⟩
  exact not_radioSlotLateCompletes radio

end Sys2Proof.Machine
end
